-- ==== Sys2Proof/Word.lean ====
section
/-! DEFINITION. The machine's words: bytes, 32-bit registers (R11) and the 512-bit ring entry (R138). -/

namespace Sys2Proof

/-- One byte. -/
abbrev Byte := BitVec 8

/-- A register: 32 bits, little-endian (R11). -/
abbrev Word := BitVec 32

/-- A byte string of any length (buffers, keys, messages). -/
abbrev Bytes := List Byte

/-- A 64-byte ring entry (R138): byte k stands in bits 8k+7 down to 8k. -/
abbrev Entry := BitVec 512

/-- A 160-bit loom microword (R224). -/
abbrev Microword := BitVec 160

/-- A 64-bit dispatch entry (R226). -/
abbrev DispatchEntry := BitVec 64

end Sys2Proof
end

