-- ==== Sys2Proof/Syntax.lean ====
section
/-! DEFINITION. The commands of spec/opcode_table.json, one constructor a row, and the types of their operands. -/

namespace Sys2Proof

/-! ### Names of units (R3, R112, R464) -/

abbrev PortId := Fin 4
abbrev SliceIdx := Fin 256
abbrev LoomId := Fin 64
abbrev BenchId := Fin 16
abbrev TrestleId := Fin 8
abbrev SelvId := Fin 4
abbrev CardSlot := Fin 4
abbrev SourceId := Fin 24
abbrev PairId := Fin 8
abbrev InstId := Fin 17
abbrev DigestSlot := Fin 32

/-- An engine that serves items (R156). The digest engine serves at most eight items at once (R369). -/
inductive Engine where
  | loom (n : LoomId)
  | trestle (t : TrestleId)
  | selvedge (u : SelvId)
  | digest (k : Fin 8)
  | bobbin
  | steward
deriving DecidableEq, Repr

/-! ### Power offers (R25) -/

/-- A fixed supply offer of the Standard Power Range: whole volts, current in 10 mA units. -/
structure FixedOffer where
  volts : Nat
  current : Nat
deriving DecidableEq, Repr

/-- The Type-C current a source advertises without Power Delivery. -/
inductive TypeC where
  | none
  | a15
  | a30
deriving DecidableEq, Repr

/-- What a source offers. A source that offers only EPR or only programmable supplies has no fixed offer (R26). -/
structure Offer where
  fixed : List FixedOffer
  typeC : TypeC
  emark5a : Bool
deriving DecidableEq, Repr

/-- The strap levels that have passed their filters at t0 + 1 ms (R21). -/
structure Straps where
  boot : BitVec 2
  compat : Bool
  cardspd : Bool
  pwrmin : Bool
  dbgreq : Bool
deriving DecidableEq, Repr

/-! ### The calibration set (R506) -/

/-- One bench entry of the calibration set. -/
structure BenchCal where
  baseline : Int
  lossMax : Nat
  coeff : Int
deriving DecidableEq, Repr

/-! ### Drafts (R81 to R87) -/

/-- A TOPOLOGY bench entry (R84); `zero` says bytes 3 to 7 are zero. -/
structure BenchEntry where
  role : Nat
  order : Nat
  image : Nat
  zero : Bool
deriving DecidableEq, Repr

/-- A directory entry (R83), with the bytes it names. -/
structure SectionEntry where
  typ : Nat
  offset : Nat
  length : Nat
  zero : Bool
  crc : BitVec 32
  bytes : Bytes
deriving DecidableEq, Repr

/-- A loom control-store image (R225): its bytes and what they hold. -/
structure Image where
  bytes : Bytes
  dispatch : List DispatchEntry
  exports : List Nat
  words : List Microword
deriving DecidableEq, Repr

/-- One record of the OWNER_ROUTINES section (R225): its bytes, and what they hold: the image it extends, dispatch entries
0xC0 to 0xFF and words from 0xC00. -/
structure OwnerRecord where
  bytes : Bytes
  image : Nat
  dispatch : List DispatchEntry
  words : List Microword
deriving DecidableEq, Repr

/-- An advert table entry (R85). -/
structure Advert where
  family : Nat
  op : Nat
  set : Nat
  role : Nat
  tag : Nat
  zero : Bool
deriving DecidableEq, Repr

/-- The HEDDLE section's fields (R171, R186, R193, R348, R371); `refTimes` gives the reference time, in cycles of
1.5 GHz, of a dispatch index (R186). -/
structure HeddleSection where
  depthCode : Nat
  affAge : Nat
  affWin : Nat
  bulkMax : Nat
  dimThresh : Nat
  shortLimit : Nat
  idleTimeout : Nat
  refTimes : List (Nat × Nat)
deriving DecidableEq, Repr

/-- The COMPAT section (R475). -/
structure Compat where
  enable : Nat
  wmin : Nat
  wmax : Nat
  zeros : Bool
deriving DecidableEq, Repr

/-- The POWER section (R31, R44, R45, R62). -/
structure PowerSection where
  liteBenches : List BenchId
  liteTrestles : List TrestleId
  liteSelv : List SelvId
  idleUs : Nat
  sscDepth : Nat
  hdrSlew : Nat
deriving DecidableEq, Repr

/-- What a signature verifies: the public key, the ML-DSA context (empty for ECDSA) and the message it was made over; one
that verifies nothing has an empty key (log entry 100). -/
structure Signed where
  key : Bytes
  context : Bytes
  message : Bytes
deriving DecidableEq, Repr

/-- A signature block (R86): its 4,736 bytes, and what its ML-DSA-87 and its P-384 signature verify. -/
structure SignatureBlock where
  bytes : Bytes
  dsa : Signed
  ec : Signed
deriving DecidableEq, Repr

/-- The owner part (R87). `bytes` is its OWNER_ROUTINES section. -/
structure OwnerPart where
  magicOk : Bool
  length : Nat
  routinesLength : Nat
  crc : BitVec 32
  bytes : Bytes
  zeros : Bool
  block : SignatureBlock
  records : List OwnerRecord
  adverts : List Advert
deriving DecidableEq, Repr

/-- A draft (R81 to R87) as its fields; `hfSigned` and the other lengths are those of the file, and `severities` lists the event numbers whose
severity differs from the default draft's (R83, R513). -/
structure Draft where
  magicOk : Bool
  format : Nat
  device : Nat
  familyId : Word
  version : Word
  hfSigned : Nat
  hfLength : Nat
  sectionCount : Nat
  flags : Nat
  zeros : Bool
  fileLength : Nat
  sections : List SectionEntry
  benches : List BenchEntry
  conditioning : Nat
  images : List Image
  /-- The trestle sequencer image: 2,048 words of 128 bits (R83). -/
  sequencer : List (BitVec 128)
  /-- The selvedge parameter tables (R83). -/
  selvTables : Bytes
  adverts : List Advert
  heddle : HeddleSection
  classes : List Nat
  severities : List (Nat × Nat)
  power : PowerSection
  compat : Option Compat
  hfBlock : SignatureBlock
  owner : Option OwnerPart
deriving DecidableEq, Repr

/-! ### Owner-signed commands (R164 to R166) -/

/-- The operands of an inner command (R166). -/
inductive OwnerOperand where
  | deviceStage (flags : Word) (sum : BitVec 16) (entries : List (Word × Word))
  | draftWrite (slot : Byte) (draft : Draft)
  | draftSelect (slot : Byte)
  | rethread (source : Byte)
  | hold
  | holdRelease
  | calWrite (page : Bytes)
  | bobbinRestart
  | tamperClear (mask : Word)
  | tamperFuse (source : Byte)
  | lcAdvance (target : Byte)
deriving DecidableEq, Repr

/-- Bytes 24 to 23 + L of an envelope (R164): as they are, or, for DRAFT_WRITE, the eight bytes before its draft and the
draft (R166). -/
inductive EnvelopeBody where
  | bytes (b : Bytes)
  | draft (front : Bytes) (d : Draft)
deriving DecidableEq, Repr

/-- An owner envelope (R164): its bytes 0 to 23, its operands, its length, and its signature block. -/
structure Envelope where
  head : Bytes
  body : EnvelopeBody
  length : Nat
  block : SignatureBlock
deriving DecidableEq, Repr

/-! ### Cards, recovery images and ceremonies (R423, R431 to R440) -/

/-- A share record's payload (R434): its fields, with the owner record whole; byte 19 is zero. -/
structure ShareRecord where
  setId : Nat
  m : Nat
  n : Nat
  x : Nat
  splitSerial : BitVec 64
  seqAtSplit : Word
  value : Bytes
  owner : Bytes
  tag : Bytes
deriving DecidableEq, Repr

/-- A ceremony block by its parts (R438): bytes 0 to 23, the new owner record, and the signature block. -/
structure CeremonyBlock where
  front : Bytes
  newOwner : Bytes
  signature : Bytes
deriving DecidableEq, Repr

/-- A recovery image by its parts (R436). -/
structure RecoveryImage where
  front : Bytes
  firmware : Bytes
  firmwareSig : SignatureBlock
  ceremony : Option CeremonyBlock
  draft : Draft
deriving DecidableEq, Repr

/-- An identity record by its parts (R406): bytes 0 to 23, the four public keys, bytes 4,337 to 4,351 and the factory
certificate, a signature block. -/
structure IdentityRecord where
  front : Bytes
  dsa : Bytes
  ec : Bytes
  ek : Bytes
  x448 : Bytes
  rest : Bytes
  cert : SignatureBlock
deriving DecidableEq, Repr

/-- A slice image by its parts (R455), with what its signature verifies. -/
structure SliceImage where
  header : Bytes
  source : IdentityRecord
  ciphertext : Bytes
  ephemeral : Bytes
  body : Bytes
  tag : Bytes
  signature : Bytes
  signed : Signed
deriving DecidableEq, Repr

/-- A copy of a record on a card (R432): its 64-byte header and its payload. -/
structure CardCopy (α : Type) where
  header : Bytes
  payload : α
deriving DecidableEq, Repr

/-- A data block as the module receives it (R426): its tag, its bytes, and the CRC16 of each active line, CDAT0 first. -/
structure CardBlock where
  tag : BitVec 32
  data : Bytes
  crcs : List (BitVec 16)
deriving DecidableEq, Repr

/-- A block of a read that came wrong: its number, and its frame as it was received first and repeated (R426). -/
structure CardReread where
  block : Nat
  first : CardBlock
  again : CardBlock
deriving DecidableEq, Repr

/-- What one powered card answers and holds at its identification (R418 to R425, R431 to R433): the identity response that
wins; the answers to SET_RCA and to POLL_STATUS, first and repeated, `none` where none comes within 64 cycles; the answer
to SWITCH and the pattern block; the tab; blocks 0 and 1; and copies A and B of each record place, `none` where the bytes
of a place begin no record; and the blocks of the scan's reads that came wrong at first. -/
structure CardData where
  identity : BitVec 136
  rca : List (Option (BitVec 48))
  poll : List (Option (BitVec 48))
  switch : Option (BitVec 48)
  pattern : CardBlock
  tabLocked : Bool
  headers : Bytes × Bytes
  shares : List (Option (CardCopy ShareRecord) × Option (CardCopy ShareRecord))
  image : Option (CardCopy SliceImage) × Option (CardCopy SliceImage)
  recovery : Option (CardCopy RecoveryImage) × Option (CardCopy RecoveryImage)
  rereads : List CardReread
deriving DecidableEq, Repr

/-- What a card answers to one record's write (R426, R433): the acknowledgement codes in order, a repeated block's too, and
whether the read-back agrees. -/
structure CardWrite where
  acks : List (BitVec 4)
  readBackOk : Bool
deriving DecidableEq, Repr

/-! ### Other operands -/

/-- A ring entry as the shuttle's read returned it: its 64 bytes, whether its input, record and output ranges could
be translated and read (R153 step 7), and the sealed record KEY names, when it names one (R151). -/
structure Fetched where
  entry : Entry
  inputOk : Bool
  outputOk : Bool
  sealedRecord : Option Bytes
  /-- The e in the input of an RSA operation whose public key stands there: its bit length chooses the class (R346, R348). -/
  exponent : Nat := 65537
deriving DecidableEq, Repr

/-- The outcome of a ring read (R145, R150). -/
inductive RingResult where
  | denied
  | data (entries : List Fetched)
deriving DecidableEq, Repr

/-- A trestle that asks at its yield point, and the others that reach one in the same heddle cycle (R349, R354). -/
structure YieldAsk where
  trestle : TrestleId
  beside : List TrestleId := []
deriving DecidableEq, Repr

/-- An entry of the MSI-X table (R115): its vector, message address, message data and mask bit. -/
structure MsixEntry where
  vector : Nat
  address : BitVec 64
  data : Word
  masked : Bool
deriving DecidableEq, Repr

/-- What the shuttle meets when it writes a committed item back (R134, R142, R150, R211). -/
structure WriteBack where
  outputUe : Bool
  outputDenied : Bool
  ringDenied : Bool
deriving DecidableEq, Repr

/-- Which fabric transfer failed parity outside the units (R490, source 101). -/
inductive FabricLoad where
  | item (id : Nat)
  | hostRead (p : PortId)
  | other
deriving DecidableEq, Repr

/-- An uncorrectable error a checker reports, by the unit whose reaction it calls for (R490). -/
inductive UeReport where
  | loomStore (n : LoomId)
  | loomCache (n : LoomId)
  | benchControlStore (b : BenchId)
  | benchClock (b : BenchId)
  | trestleContext (t : TrestleId) (ctxB : Bool)
  | trestleSequencer (t : TrestleId)
  | selvedgeWork (u : SelvId)
  | selvedgeKey (u : SelvId)
  | shuttle (p : PortId)
  | heddleEntry (id : Nat) (copyReadable : Bool)
  | drawer (p : PortId) (slice : SliceIdx) (index : Nat)
  | chestWord
  | digestSlot (d : DigestSlot)
  | digestItem (k : Fin 8)
  | bobbinInstance (i : InstId) (drawing : Option Nat)
  | bobbinConditioner
  | fabric (load : FabricLoad)
  | flashController
  | stewardSram
  | faultCollector
deriving DecidableEq, Repr

/-- What a firing source fences: the scope of R464, or the unit of sources 12 and 19. -/
inductive FenceScope where
  | all
  | bench (b : BenchId)
  | loom (n : LoomId)
  | trestlePair (k : Fin 4)
  | selvedgePair (k : Fin 2)
deriving DecidableEq, Repr

/-- A source that qualifies at an evaluation; `unit` gives the scope of sources 12 and 19 (R464) and `machine` the
state machine of source 19 (R554). -/
structure Firing where
  source : SourceId
  scope : FenceScope
  machine : Fin 6
deriving DecidableEq, Repr

/-- What a loom's verify pass finds: the lane, and whether the trestle part's own check fails with it (R219, R286). -/
structure VerifyFinding where
  lane : Option (Fin 8)
  trestleToo : Bool
deriving DecidableEq, Repr

/-- A trigger that meets another command of the same fabric cycle (R5, R57, R238): power-fail, firing tamper sources, a
trigger of the warden, a checker's report or mismatch, a measurement or a write back that may fence, the end of a decision
pair or of a stimulus window, a change of the power plan's inputs, the end of a routine, or the beat boundary itself. -/
inductive Trigger where
  | powerFail
  | tamper (f : Firing)
  | lockstep
  | heartbeat
  | ue (report : UeReport)
  | mismatch (n : LoomId) (found : VerifyFinding)
  | duplicateRound (e : Engine)
  | ageing (b : BenchId) (slack tj : Int)
  | completionWrite (id : Nat) (outcome : WriteBack)
  | secondDecision (pair : Nat) (qualifying : List SourceId)
  | windowEnd (src : SourceId) (responded stillActive : Bool)
  | detach (p : PortId) (linkOnly : Bool)
  | contractDrop (p : PortId) (volts current : Nat)
  | commit (e : Engine) (cycles : Nat)
  | routineError (e : Engine)
  | watchdog (e : Engine)
  | beat
deriving DecidableEq, Repr

/-- An evaluation of the tamper watch: the sources that fire, and the triggers that meet it (R471). -/
structure FireEvent where
  firings : List Firing
  meets : List Trigger
deriving DecidableEq, Repr

/-- A checker's report of an uncorrectable error, and the triggers that meet it (R490). -/
structure UeEvent where
  report : UeReport
  meets : List Trigger
deriving DecidableEq, Repr

/-- A management request of GET_STATUS's length: its SEQUENCE, and its code as it stands (R75, R76). -/
structure UsbRequest where
  seq : BitVec 16
  code : BitVec 16
deriving DecidableEq, Repr

/-- A recovery image as it arrives, with what each card answers where it is copied to cards (R436). -/
structure RecoveryDelivery where
  image : RecoveryImage
  writes : List CardWrite
deriving DecidableEq, Repr

/-- What the bus does when CDET goes high: nothing with this card, a command or a data phase of it, or a quorum's evaluation
that is under way (R430, R444). -/
inductive CardUse where
  | none
  | transfer
  | quorum
deriving DecidableEq, Repr

/-- A card that is pulled out of its slot. -/
structure CardRemoval where
  slot : CardSlot
  during : CardUse
deriving DecidableEq, Repr

/-- A card command that got no right answer, and the answer to its repetition (R421). -/
structure CardRetry where
  op : BitVec 5
  arg : BitVec 30
  repeated : Option (BitVec 48)
deriving DecidableEq, Repr

/-- A transaction on the debug port (R22, R500, R526, R534). -/
inductive DebugAccess where
  | pinActivity
  | injectCorrectable (source : Fin 104)
  | injectUncorrectable (report : UeReport)
  | readRegister (offset : Nat)
  | memoryTest
  | toFactoryTest
  | toProvisioned
  | toScrapped
deriving DecidableEq, Repr

/-- A debug token (R532): its bytes, and what its signature verifies; the key it names is the Horsefort debug key
of the steward boot ROM. -/
structure Token where
  bytes : Bytes
  signed : Signed
deriving DecidableEq, Repr

/-- The path a LOG_READ arrives by (R522). -/
inductive LogPath where
  | admin (p : PortId)
  | usb (p : PortId) (seq : BitVec 16) (payloadLen : Nat) (first : Word) (count : Word)
deriving DecidableEq, Repr

/-- Where a recovery image comes from (R437). -/
inductive RecoverySource where
  | port0
  | card (s : CardSlot)
deriving DecidableEq, Repr

/-- The result of built-in self-test (R70, R94, R499): units that failed it, checkers that stayed silent (their
R488 source and R486 kind), and whether the checker of the lockstep or of the fault collector stayed silent. -/
structure SelfTest where
  looms : List LoomId
  benches : List BenchId
  trestles : List TrestleId
  selvedge : List SelvId
  cabinetOk : Bool
  /-- Ports whose translation cache failed (R66, R94). -/
  caches : List PortId := []
  silent : List (Fin 104 × Fin 7)
  wardenChecker : Bool
deriving DecidableEq, Repr

/-- A farm core: one of twelve SHA-2 cores or of three Keccak cores (R356). -/
inductive FarmCore where
  | sha2 (k : Fin 12)
  | keccak (k : Fin 3)
deriving DecidableEq, Repr

/-- What a health test saw of a pair (R373), oldest first: an oscillator's states over a window, the phase bins of raw
samples, or raw bits. -/
inductive PairFault where
  | alive (samples : List Bool)
  | lock (bins : List (Fin 4))
  | repetition (raw : List Bool)
  | proportion (raw : List Bool)
  | supply (raw : List Bool)
deriving DecidableEq, Repr

/-- Why the bobbin as a whole failed (R374, R386). -/
inductive BobbinFailure where
  | tooFewPairs
  /-- The block that the conditioner yields. -/
  | outputRepetition (block : Bytes)
  | knownAnswer
  | conditioner
deriving DecidableEq, Repr

/-- A command of the opcode table, one constructor a row, in the table's order. -/
inductive Instr where
  -- start-up, recovery and power
  | powerGood
  | strapSample (pins : Straps)
  | stewardFwVerified (slotAOk slotBOk : Bool) (damagedRecords : List Word)
  | draftReadDone (readOk : Bool)
  | selfTestDone (result : SelfTest)
  | recoveryImageVerified (source : RecoverySource) (delivery : RecoveryDelivery)
  | powerFail
  | portAttach (p : PortId) (offer : Offer)
  | contractChange (p : PortId) (offer : Offer) (bulkLow : Bool)
  | portDetach (p : PortId) (linkOnly bulkLow : Bool)
  | contractDrop (p : PortId) (volts current : Nat) (bulkLow : Bool)
  | pathOvercurrent (p : PortId) (bulkLow : Bool)
  | planUpHoldExpiry (bulkLow : Bool)
  | thermalSample (tj : Int)
  | thermalStep (bulkLow : Bool)
  | thermalClear (bulkLow : Bool)
  | benchGate (b : BenchId)
  | benchStart (b : BenchId)
  -- the beat, the stage and registers
  | beat
  | stageWrite (p : PortId) (offset : Nat) (value : Word)
  | stageCommit (p : PortId) (sum : BitVec 16)
  | stageDiscard (p : PortId) (atApplyingBeat : Bool)
  | registerWrite (p : PortId) (offset size : Nat) (value : Word)
  | pwrEventsClear (p : PortId) (value : Word)
  -- the USB 2.0 management interface
  | getStatus (p : PortId) (request : UsbRequest)
  | readBlock (p : PortId) (seq : BitVec 16) (offset length : Nat)
  | logRead (path : LogPath)
  | signedAdmin (p : PortId) (seq : BitVec 16) (envelope : Envelope)
  | recoveryLoad (p : PortId) (seq : BitVec 16) (part : Bytes)
  | debugChallenge (p : PortId) (seq : BitVec 16)
  | debugResponse (p : PortId) (seq : BitVec 16) (token : Token)
  -- the host function
  | busMasterDisable (p : PortId) (d3hot : Bool)
  | busMasterResume (p : PortId) (ats : Bool) (table : List MsixEntry)
  | memorySpaceDisable (p : PortId)
  | pasidEnableChange (p : PortId) (enable : Bool)
  | atsEnableClear (p : PortId)
  | functionLevelReset (p : PortId)
  | atsInvalidation (p : PortId) (pasid : Option (BitVec 20)) (globalInv : Bool) (first last : Nat)
  -- queues
  | doorbellWrite (p : PortId) (offset size : Nat) (value : Word)
  | expressDoorbell (p : PortId) (offset size : Nat)
  | adminDoorbell (p : PortId)
  | adminQueueEnable (p : PortId) (value : Word)
  | adminQueueDisable (p : PortId)
  | pollTick (p : PortId) (qnum : Nat)
  | ringReadComplete (p : PortId) (qnum : Nat) (result : RingResult)
  | seedWaitTimeout (id : Nat)
  -- dispatch and completion
  | engineAsk (e : Engine) (askingTrestles : List TrestleId)
  | trestleYieldAsk (ask : YieldAsk)
  | loomDim (n : LoomId)
  | loomRestore (n : LoomId)
  | commit (e : Engine) (cycles : Nat)
  | completionWrite (id : Nat) (outcome : WriteBack)
  | coalesceTimeout (p : PortId) (qnum : Nat)
  | watchdogExpiry (e : Engine)
  | routineError (e : Engine)
  -- checkers and ageing
  | verifyMismatch (n : LoomId) (found : VerifyFinding)
  | duplicateRoundMismatch (e : Engine)
  | trestleSelfCheckMismatch (t : TrestleId)
  | correctableError (source : Fin 104)
  | uncorrectableError (x : UeEvent)
  | fabricParityError (receiver : UeReport) (source : Fin 104) (repeatFails : Bool)
  | lockstepMismatch
  | heartbeatTimeout
  | ageingMeasure (b : BenchId)
  | ageingMeasureDone (b : BenchId) (slack tj : Int)
  -- admin commands
  | createSlice (p : PortId)
  | destroySlice (p : PortId)
  | createQueue (p : PortId)
  | destroyQueue (p : PortId)
  | freezeSlice (p : PortId)
  | freezeDrainDone (p : PortId)
  | saveSlice (p : PortId) (destination : IdentityRecord) (nonce : BitVec 128) (writes : List CardWrite)
  | restoreSlice (p : PortId) (image : Option SliceImage)
  | thawSlice (p : PortId)
  | traceEnable (p : PortId)
  | traceDisable (p : PortId)
  | traceConsumedWrite (p : PortId) (value : Word)
  | calRead (p : PortId)
  | identityGet (p : PortId)
  | ownerSigned (p : PortId) (envelope : Envelope)
  -- inner commands
  | deviceStage
  | draftWrite
  | draftSelect
  | rethread
  | rethreadDrainDone
  | hold
  | holdRelease
  | calWrite (readBackOk : Bool)
  | bobbinRestart
  | tamperClear
  | tamperFuse
  | lcAdvance
  | lcTransitionDone
  -- lattice key encapsulation and hybrids
  | mlkemKeygen (e : Engine)
  | mlkemKeygenSeed (e : Engine) (input : Bytes)
  | mlkemEncaps (e : Engine)
  | mlkemEncapsEk (e : Engine) (input : Bytes)
  | mlkemDecaps (e : Engine) (input : Bytes)
  | hybKeygen (e : Engine)
  | hybEncaps (e : Engine) (input : Bytes)
  | hybDecaps (e : Engine) (input : Bytes)
  -- lattice signatures and composites
  | mldsaKeygen (e : Engine)
  | mldsaKeygenSeed (e : Engine) (input : Bytes)
  | mldsaSign (e : Engine) (input : Bytes)
  | mldsaSignPh (e : Engine) (input : Bytes)
  | mldsaVerify (e : Engine) (input : Bytes)
  | mldsaVerifyPh (e : Engine) (input : Bytes)
  | mldsaVerifyPk (e : Engine) (input : Bytes)
  | mldsaVerifyPkPh (e : Engine) (input : Bytes)
  | fndsaKeygen (e : Engine)
  | fndsaSign (e : Engine) (input : Bytes) (internalRestarts : Nat)
  | fndsaVerify (e : Engine) (input : Bytes)
  | fndsaVerifyPk (e : Engine) (input : Bytes)
  | compositeKeygen (e : Engine)
  | compositeSign (e : Engine) (input : Bytes)
  | compositeVerify (e : Engine) (input : Bytes)
  | compositeVerifyPk (e : Engine) (input : Bytes)
  -- hash-based signatures and the tally
  | slhdsaKeygen (e : Engine)
  | slhdsaKeygenSeed (e : Engine) (input : Bytes)
  | slhdsaSign (e : Engine) (input : Bytes)
  | slhdsaSignPh (e : Engine) (input : Bytes)
  | slhdsaVerify (e : Engine) (input : Bytes)
  | slhdsaVerifyPh (e : Engine) (input : Bytes)
  | slhdsaVerifyPk (e : Engine) (input : Bytes)
  | slhdsaVerifyPkPh (e : Engine) (input : Bytes)
  | lmsKeygenStart (e : Engine)
  | lmsBuild (e : Engine)
  | lmsFinish (e : Engine)
  | lmsSign (e : Engine) (input : Bytes)
  | lmsVerify (e : Engine) (input : Bytes)
  | lmsVerifyPk (e : Engine) (input : Bytes)
  | xmssKeygenStart (e : Engine)
  | xmssBuild (e : Engine)
  | xmssFinish (e : Engine)
  | xmssSign (e : Engine) (input : Bytes)
  | xmssVerify (e : Engine) (input : Bytes)
  | xmssVerifyPk (e : Engine) (input : Bytes)
  | tallyQuery (e : Engine)
  | tallyRetire (e : Engine)
  | tallyWriteDurable (record : Nat)
  -- code-based engines
  | mcelieceKeygen (e : Engine) (attempts : Nat)
  | mcelieceEncaps (e : Engine) (streamed : Option Bytes)
  | mcelieceEncapsPk (e : Engine) (streamed : Option Bytes)
  | mcelieceRegister (e : Engine) (streamed : Option Bytes)
  | mcelieceDecaps (e : Engine) (input : Bytes)
  | hqcKeygen (e : Engine)
  | hqcEncaps (e : Engine)
  | hqcEncapsEk (e : Engine) (input : Bytes)
  | hqcDecaps (e : Engine) (input : Bytes)
  -- classical work
  | ecdsaKeygen (e : Engine)
  | ecdsaSign (e : Engine) (input : Bytes)
  | ecdsaVerify (e : Engine) (input : Bytes)
  | ecdsaVerifyPk (e : Engine) (input : Bytes)
  | ecdhAgree (e : Engine) (input : Bytes)
  | eddsaKeygen (e : Engine)
  | eddsaSign (e : Engine) (input : Bytes)
  | eddsaVerify (e : Engine) (input : Bytes)
  | eddsaVerifyPk (e : Engine) (input : Bytes)
  | xdhKeygen (e : Engine)
  | xdhAgree (e : Engine) (input : Bytes)
  | rsaKeygen (e : Engine) (candidates : Nat)
  | rsaSign (e : Engine) (input : Bytes)
  | rsaVerify (e : Engine) (input : Bytes)
  | rsaVerifyPk (e : Engine) (input : Bytes)
  | rsaDecrypt (e : Engine) (input : Bytes)
  | rsaEncryptPk (e : Engine) (input : Bytes)
  | rsaPrivateRaw (e : Engine) (input : Bytes)
  -- key management
  | importPublic (e : Engine) (input : Bytes)
  | importPrivate (e : Engine) (input : Bytes)
  | unseal (e : Engine)
  | seal (e : Engine)
  | delete (e : Engine)
  | keyQuery (e : Engine)
  | restrict (e : Engine)
  | derive (e : Engine) (input : Bytes)
  | mac (e : Engine) (input : Bytes)
  | attest (e : Engine) (input : Bytes)
  -- random bytes and digests
  | random (e : Engine)
  | digest (e : Engine) (input : Bytes)
  | slotAlloc (p : PortId) (value : Word)
  | digestDataWrite (p : PortId) (d : DigestSlot) (offset : Nat) (bytes : Bytes)
  | digestFinal (p : PortId) (d : DigestSlot) (outLen : Nat)
  | digestRelease (p : PortId) (d : DigestSlot)
  | digestCoreAsk (core : FarmCore)
  | digestDone (d : DigestSlot)
  | digestResultRead (p : PortId) (d : DigestSlot) (offset : Nat)
  | slotReclaimed (d : DigestSlot) (writeSameCycle : Bool)
  -- the bobbin
  | bobbinStart
  | bobbinSettled
  | bobbinTestsEnd (failing : List (PairId × PairFault)) (knownAnswersOk : Bool)
  | bobbinSeeded
  | pairExcluded (pair : PairId) (fault : PairFault)
  | healthFail (reason : BobbinFailure)
  | bobbinRetry
  | reseedRequest (i : InstId)
  | instanceStall (i : InstId)
  | reseedApplied (i : InstId)
  -- the cabinet
  | chestRemask
  | drawerRefresh
  -- custody cards
  | cardInsert (s : CardSlot)
  | cardRemove (removal : CardRemoval)
  | cardIdentify (s : CardSlot) (card : CardData)
  | cardResponseTimeout (s : CardSlot) (retry : CardRetry)
  | cardBusyRelease (s : CardSlot)
  | busyTimeout (s : CardSlot)
  | switchFallback (s : CardSlot) (card : CardData)
  | ceremonyShareWrite (s : CardSlot) (written : CardWrite)
  | ceremonyTimeout
  | chestRestore
  -- the tamper watch
  | tamperFire (x : FireEvent)
  | twiceDecidedSecond (pair : Nat) (qualifying : List SourceId)
  | tamperRepeat (src : SourceId)
  | cellWindow (sources : List SourceId)
  | tamperStimulus (src : SourceId)
  | stimulusWindowEnd (src : SourceId) (responded stillActive : Bool)
  -- the logbook
  | eventLog
  | logRecordDurable (seq : Word)
  | logRepeatFlush (seq : Word)
  | secondsCheckpoint
  | backupCellLoss
  -- the remaining events
  | linkTrained (p : PortId) (gen : Nat) (singleLane : Bool)
  | functionLevelResetEnd (p : PortId)
  | cwpLock (s : CardSlot)
  | debugPortAccess (access : DebugAccess)
  | sourceGoesInactive (src : SourceId)
  | pairRetestEnd (passed : List PairId)
  | sourceCapabilitiesTimeout (p : PortId) (typeC : TypeC)
deriving DecidableEq, Repr

end Sys2Proof
end

