-- ==== Sys2Proof/Decode.lean ====
section
/-! DEFINITION. The command a word of the opcode table spells. The table gives no row any bits: a command is an event
with operands, not a word, so no word spells one (log entry 2). -/

namespace Sys2Proof

/-- The command that `nbits` bits of value `w` spell by the table: none, since no row has bits. -/
def decodeTableWord (_nbits _w : Nat) : Option Instr := none

end Sys2Proof
end

