-- ==== Sys2Proof/Config.lean ====
section
/-! DEFINITION. What the manual leaves to outside standards or leaves open: the values of the cryptographic
functions the manual names but does not restate (FIPS 203 and the others), the bits the random source delivers,
and every value the manual calls undefined. Every constant here is opaque: nothing in Lean can evaluate it. -/

namespace Sys2Proof

/-- A value that a named outside standard computes; `fam` and `set` are the opcode family and PARAM_SET
(R243, R264, R288, R294, R295, R322, R335). The argument list of each use says what it is applied to. -/
inductive Prim where
  | publicKey (fam set : Nat)
  | privateKey (fam set : Nat)
  | signature (fam set variant : Nat)
  | ciphertext (fam set : Nat)
  | sharedSecret (fam set : Nat)
  | decapsulated (fam set : Nat)
  | rejection (fam set : Nat)
  | treeKey (fam set : Nat)
  | treeNodes (fam set : Nat)
  | prf (fam set : Nat)
  | selfMessage (fam : Nat)
  | digest (alg : Nat)
  | kmac
  | blinding
  | aes
  | gcmStream
  | gcmTag
  | sponge (mode : Nat)
  | sha2 (wide : Bool)
deriving DecidableEq, Repr

/-- A test that a named outside standard decides on byte strings. -/
inductive Check where
  | verifies (fam set variant : Nat)
deriving DecidableEq, Repr

/-- Byte `i` of the value a standard's function gives (log entry 4). -/
opaque Config.prim : Prim → List Bytes → Nat → Byte

/-- The verdict of a standard's test (log entry 4). -/
opaque Config.holds : Check → List Bytes → Bool

/-- The length of a result that varies within the bound the manual states: a compressed FN-DSA signature (R264). -/
opaque Config.variableLength : Prim → List Bytes → Nat

/-- The Horsefort public keys in the steward boot ROM: the two draft keys, which firmware and factory certificates name
too, and the debug key (R86, R406, R436, R532). -/
inductive RomKey where
  | draftDsa
  | draftEc
  | debugDsa
deriving DecidableEq, Repr

/-- The bytes of a boot ROM key, which the manual does not print (log entry 100). -/
opaque Config.romKey : RomKey → List Byte

/-- Byte `i` of the debiased bits that conditioner call number `n` takes from a pair (R372, R375): free (log entry 5). -/
opaque Config.noise : Nat → Nat → Nat → Byte

/-- A value the manual leaves undefined, one for each use of the free counter (log entry 6). -/
opaque Config.freeValue : Nat → Nat

/-- The starting generation of a drawer at a threading that clears the drawers (R396), by the free counter
at that moment and the drawer (log entry 7). -/
opaque Config.freeGeneration : Nat → Nat → Nat

/-- Byte `i` of free value number `n`: the bytes of an output range that overlaps another buffer
(R152; log entry 123). -/
opaque Config.freeByte : Nat → Nat → Byte

/-- The page that the host answers for page `k` in ATS translation number `n` (R133; log entry 122). -/
opaque Config.hostPage : Nat → Nat → Nat

/-- Byte `i` of the input of item number `n`, as the shuttle streams it to an owner's routine (R209; log entry 18). -/
opaque Config.inputByte : Nat → Nat → Byte

/-- Word `k` of the mask generator's output in its cycle `c` under a key (R206, R207; log entry 113). -/
opaque Config.maskStream : Bytes → Nat → Nat → Word

/-- Word `k` of the masks that a consumer takes beyond the width of its port, from the words its port gives in the cycle
(R206; log entry 113). -/
opaque Config.maskExpand : List Word → Nat → Word

/-- The nine check bits of a control-store word (R224; log entry 173). -/
opaque Config.checkBits : BitVec 160 → BitVec 9

/-- The place of word or drawer `k` under an address or scramble key (R393, R394; log entry 166). -/
opaque Config.placement : Bytes → Nat → Nat

/-- The twiddle factor of a modulus, a layer and a block of it (R197; log entry 114). -/
opaque Config.zeta : Nat → Nat → Nat → Nat

/-- Lane `l` of a lane operation's result where the manual does not state it: by class, operation, IMMEDIATE and the two
operand words (R234; log entry 115). -/
opaque Config.laneValue : Nat → Nat → Nat → List Word → List Word → Nat → Word

/-- Keccak blocks that a sampler draws at each call, and for the Gaussian one the cycles it takes (R200; log entry 115). -/
opaque Config.samplerBlocks : Nat → Nat

/-- Lane `l` of a sample of kinds 7 to 9 from the bytes its sampler draws (R200, R234; log entry 115). -/
opaque Config.sampled : Nat → Bytes → Nat → Word

/-- The sign and payload of a NaN result, and the integer of a conversion that has none (R201; log entry 115). -/
opaque Config.notNumber : Nat → BitVec 64 → BitVec 64 → BitVec 64

/-- What a trestle's accumulator and its sequencer's registers hold while it works on operands, secrets and bits: no rule
states them (R333; log entry 190). -/
opaque Config.accumulator : List Bytes → BitVec 2112
opaque Config.sequencer : List Bytes → List (BitVec 64)

end Sys2Proof
end

