-- ==== Sys2Proof/Machine/State.lean ====
section
/-! DEFINITION. The state of the module: every register, store, queue and counter the manual gives it, the queue of
commands that wait, and the model's own fields (named as such). Reset values stand beside the fields (R13). -/

namespace Sys2Proof.Machine

/-! ### The three outcomes' reasons -/

/-- Why a command stops the machine: there is no reason. The manual names no access or event that stops the module, so no
command faults, whatever its operands. -/
inductive Fault where
deriving DecidableEq, Repr

/-- Why a command has no meaning. -/
inductive Refusal where
  /-- No meaning yet: raised by `exec`'s arms only. Safe. -/
  | notModelled (mnemonic : String)
  /-- Raised by DEBUG_PORT_ACCESS for an access whose effect the manual does not give: the memory test modes
  (R526). Safe. -/
  | debugAccessUnspecified
deriving DecidableEq, Repr

/-! ### Modes, power (R30, R48, R79) -/

/-- The modes of R48 but Test-Root, which is the mode of a module whose debug is enabled (R49). -/
inductive Mode where
  | dormant | wake | threading | idle | serveFull | serveLite | serveDegraded | hold | zeroized | recovery | analysis
deriving DecidableEq, Repr

/-- The power plans of R30. -/
inductive Plan where
  | wakeOnly | idleOnly | lite | full
deriving DecidableEq, Repr

/-- A port's contract (R47): current in 10 mA units, voltage in 50 mV units; SOURCE 0 none, 1 USB 2.0, 2 Type-C, 3 PD. -/
structure Contract where
  attached : Bool := false
  emark5a : Bool := false
  source : Nat := 0
  current : Nat := 0
  voltage : Nat := 0
  valid : Bool := false
deriving DecidableEq, Repr

/-- A port's power path (R27, R28, R37): its ideal diode, its current limit in 10 mA units, the contract power it may
carry in 0.5 mW units, and its converter's share of the load as a fraction. -/
structure Path where
  diodeOpen : Bool := true
  limit : Nat := 0
  cap : Nat := 0
  share : Nat := 0
  outOf : Nat := 0
  /-- The cap in force while the last new request was under way (R27). -/
  requestCap : Nat := 0
deriving DecidableEq, Repr

/-- The power manager (R27 to R47, R80). -/
structure Power where
  contracts : Vector Contract 4 := Vector.replicate 4 {}
  paths : Vector Path 4 := Vector.replicate 4 {}
  plan : Plan := .wakeOnly
  belowMin : Bool := false
  /-- The target of a running 1 s hold (R39). -/
  hold : Option Plan := none
  /-- A raised plan whose units return at the next beat (R39). -/
  rise : Option Plan := none
  benchOn : BitVec 16 := 0
  trestleOn : BitVec 8 := 0
  selvOn : BitVec 4 := 0
  /-- Benches a thermal clear or a clock step returns at the next beat (R41, R503). -/
  benchReturn : BitVec 16 := 0
  tj : Int := 0
  throttling : Bool := false
  throttled : BitVec 16 := 0
  events : BitVec 12 := 0
  /-- Rail under-voltage sources masked by power-fail (R29, R472). -/
  railMask : Bool := false
deriving DecidableEq, Repr

/-- Which draft a threading reads and how far it is. -/
inductive Threading where
  | none
  /-- Reading source `src` (0 slot A, 1 slot B, 2 port 0, 3 card); `other` says the other slot is still to be tried
  (R68); `re` says a re-thread (R93). -/
  | reading (src : Nat) (other re : Bool)
  /-- Self-test runs (R66 step 10, R93 step 6); `clear` says drawers are cleared; `other` and `re` as above. -/
  | testing (clear other re : Bool)
deriving DecidableEq, Repr

/-- MOD_STATUS, MOD_STRAPS, MOD_BOOT_TIME and the start-up sequence (R48 to R79). -/
structure ModeUnit where
  base : Mode := .wake
  last : Nat := 0
  cause : Nat := 0
  ready : Bool := false
  seeded : Bool := false
  draftSrc : Nat := 0
  chestEmpty : Bool := false
  /-- The chest has been read in this Wake, and it passed (R392, R413). -/
  chestRead : Bool := false
  chestPassed : Bool := false
  stewardLost : Bool := false
  /-- Straps as sampled at t0 + 1 ms (R21); `none` before. -/
  straps : Option Straps := none
  /-- Steward firmware verification has ended (R66 step 5). -/
  fwDone : Bool := false
  /-- A firmware slot verified at this Wake. -/
  fwRuns : Bool := false
  fwSlotA : Bool := false
  fwSlotB : Bool := false
  idleMs : Nat := 0
  seedMs : Nat := 0
  threading : Threading := .none
  /-- CAUSE at the entry to the present Hold (R94); 0 outside Hold. -/
  holdEntry : Nat := 0
  /-- CAUSE of the Hold a re-thread leaves (R94); 0 when it left none. -/
  leftHold : Nat := 0
  /-- The first threading of the power cycle has ended (R71). -/
  threadedOnce : Bool := false
  /-- HOLD_RELEASE accepted, waiting for its beat (R51). -/
  releasing : Bool := false
  /-- The drawers have been cleared since power-up or entry to Test-Root (R394). -/
  drawersCleared : Bool := false
deriving DecidableEq, Repr

/-! ### The draft (R81 to R111) -/

/-- The threaded draft and the draft registers. -/
structure DraftUnit where
  threaded : Option Draft := none
  /-- The source the threaded draft came from. -/
  source : Nat := 0
  /-- The draft of a recovery image (R437). -/
  recovery : Option Draft := none
  /-- Bytes of a recovery image received by RECOVERY_LOAD (R76). -/
  upload : Bytes := []
  code : Nat := 0
  section_ : Nat := 0
  slot : Nat := 0
  ownerPart : Bool := false
  /-- The control stores run; they keep the old draft but do not run after a failed re-thread (R97). -/
  runs : Bool := false
deriving DecidableEq, Repr

/-! ### The stage (R99 to R110) -/

/-- A staged field: its scope is the writing port's. -/
inductive StagedField where
  | weight (slice : SliceIdx)
  | prioCeil (slice : SliceIdx)
  | loomCap (slice : SliceIdx)
  | trestleShare (slice : SliceIdx)
  | coalCount (q : Nat)
  | coalTime (q : Nat)
  | poll (q : Nat)
  | idleTimeout
deriving DecidableEq, Repr

/-- What a stage's check depends on besides the stage (R107): the plan, the fences, the port shares, and the weights and
trestle shares of the port's slices with the looms in service. -/
structure StageInputs where
  plan : Plan
  benches : BitVec 16
  trestles : BitVec 8
  selvs : BitVec 4
  looms : List Bool
  shares : List Nat
  slices : List (SliceIdx × Nat × Nat)
deriving DecidableEq, Repr

structure Stage where
  entries : List (StagedField × Nat) := []
  /-- The inputs as the check of the armed stage found them (R107). -/
  inputs : Option StageInputs := none
  armed : Bool := false
  /-- The fabric cycle at which the check passed (R106). -/
  armedAt : Nat := 0
  applied : Bool := false
  recheck : Bool := false
  overflow : Bool := false
  pruned : Bool := false
  scaled : Bool := false
  clamped : Bool := false
  late : Bool := false
  code : Nat := 0
  applyBeat : Word := 0
deriving DecidableEq, Repr

/-- The device stage (R100): entries name a register offset and its whole value. -/
structure DeviceStage where
  entries : List (Nat × Word) := []
  armed : Bool := false
  armedAt : Nat := 0
  code : Nat := 0
deriving DecidableEq, Repr

/-! ### Status codes (R157) -/

inductive Status where
  | ok | reject | lengthMismatch | outputShort | xlateFault | keyHandleInvalid | keyPolicy | rejectScalar
  | rejectRange | rejectPoint | rejectModulus | rejectEncoding | entropyFail | entropyWaitTimeout | unitFault
  | tallyExhausted | tallyRetired | sliceFrozen | opUnsupported | digestEarly | digestLength
deriving DecidableEq, Repr

/-! ### Queues (R138 to R169) -/

inductive QueueState where
  | active | frozen | error
deriving DecidableEq, Repr

structure Queue where
  port : PortId
  qnum : Nat
  /-- Local index of its slice. -/
  slice : SliceIdx
  /-- Slice-local queue index. -/
  index : Nat
  express : Bool
  log2 : Nat
  base : BitVec 64
  vector : Nat
  coalCount : Nat
  coalTime : Nat
  poll : Nat
  head : BitVec 17 := 0
  tail : BitVec 17 := 0
  state : QueueState := .active
  err : Nat := 0
  owned : Nat := 0
  scanning : Bool := false
  rescan : Bool := false
  /-- Entries of the ring read under way. -/
  reading : Option Nat := none
  /-- Completions counted since the last message (R158). -/
  counted : Nat := 0
  /-- CREATE_QUEUE has passed its checks and waits for its beat (R162). -/
  installing : Bool := false
deriving DecidableEq, Repr

/-- What an admin command waits for. -/
inductive AdminWait where
  | none | seed
  | slice (idx : SliceIdx) | queue (qnum : Nat) | freeze (idx : SliceIdx) | thaw (idx : SliceIdx)
  | restore (idx : SliceIdx)
  /-- The inner command of an owner envelope runs. -/
  | owner
deriving DecidableEq, Repr

/-- A completion whose writes are still to be done (R142, R155). -/
structure Done where
  status : Status
  outputLen : Nat := 0
  output : Bytes := []
  result : Nat := 0
deriving DecidableEq, Repr

/-- The admin entry a port's shuttle holds (R148). -/
structure AdminEntry where
  id : Nat
  entry : Entry
  /-- Its ring index. -/
  index : Nat
  wait : AdminWait := .none
  /-- Reads of its input or output buffer failed (R134). -/
  inputOk : Bool := true
  outputOk : Bool := true
  done : Option Done := none
deriving DecidableEq, Repr

/-- The port's admin queue (R148, R168). -/
structure AdminQueue where
  base : BitVec 64 := 0
  enable : Bool := false
  vector : Nat := 0
  log2 : Nat := 0
  error : Bool := false
  err : Nat := 0
  head : BitVec 17 := 0
  scanning : Bool := false
  rescan : Bool := false
  reading : Bool := false
  entry : Option AdminEntry := none
  /-- Completions whose message Bus Master Enable held back (R159). -/
  counted : Nat := 0
deriving DecidableEq, Repr

/-- The port's trace ring (R190 to R194). -/
structure Trace where
  enabled : Bool := false
  log2 : Nat := 0
  base : BitVec 64 := 0
  produced : Word := 0
  consumed : Word := 0
  dropped : Nat := 0
  seq : BitVec 16 := 0
deriving DecidableEq, Repr

/-- A cached translation (R132): a 4 KiB page of a slice of the port, and the page the host translated it to. -/
structure Translation where
  slice : SliceIdx
  page : Nat
  target : Nat := 0
deriving DecidableEq, Repr

/-- An invalidation whose completion waits (R135): the queues whose ring reads and the items whose input streams use an
entry it removed. -/
structure AtsDrain where
  queues : List Nat
  items : List Nat
deriving DecidableEq, Repr

/-- One port: link, function, admin block and stage (R112 to R119, R137, R168, R190, R358). -/
structure Port where
  trained : Bool := false
  gen : Nat := 0
  singleLane : Bool := false
  bme : Bool := false
  mse : Bool := false
  pasidEn : Bool := false
  atsEn : Bool := false
  d3hot : Bool := false
  msixEn : Bool := false
  msixFnMask : Bool := true
  /-- The MSI-X table's entries; every other entry is masked, with address and data zero (R115). -/
  table : List MsixEntry := []
  /-- Pending bits. -/
  pba : List Nat := []
  /-- A function-level reset runs (R117). -/
  flr : Bool := false
  stage : Stage := {}
  admin : AdminQueue := {}
  trace : Trace := {}
  sliceRefuse : Nat := 0
  queueRefuse : Nat := 0
  moveRefuse : Nat := 0
  creditHeld : Bool := false
  /-- DGF_SLOT_ALLOC, DGF_RES_PAGE and the applied DGF_IDLE_TIMEOUT (R371). -/
  dgfAlg : Nat := 0
  dgfReason : Nat := 0
  dgfSlice : Nat := 0
  dgfSlot : Nat := 0
  dgfPage : Nat := 0
  idleTimeout : Nat := 0
  /-- Translation-cache entries of the port, most recently used first (R132). -/
  cache : List Translation := []
  /-- Invalidations that wait for reads in flight, oldest first (R135). -/
  drains : List AtsDrain := []
deriving DecidableEq, Repr

/-! ### Slices (R124 to R136) -/

structure Slice where
  port : PortId
  idx : SliceIdx
  pasid : Option (BitVec 20)
  uid : BitVec 64
  drawers : Nat
  digestSlots : Nat
  queueAllot : Nat
  tallyAllot : Nat
  weight : Nat
  prioCeil : Nat
  loomCap : Nat
  trestleShare : Nat
  /-- Trestle budget in 1/1,024 trestle-beat (R180). -/
  budget : Int
  /-- Waits for the beat that installs it (R129, R459). -/
  installing : Bool := true
  frozen : Bool := false
  saved : Bool := false
  restored : Bool := false
  refusedKeys : Nat := 0
  xlateFaults : Nat := 0
  queSel : BitVec 9 := 0
  /-- The physical drawers that are its drawers 0, 1, 2, ... , as ranges of a first drawer and a count (R129, R396; log
  entry 120). -/
  phys : List (Nat × Nat) := []
deriving DecidableEq, Repr

/-! ### The heddle and its items (R170 to R194) -/

inductive SvcClass where
  | kem | sign | hash | trestle | selvedge | local_
deriving DecidableEq, Repr

/-- Where an item stands. -/
inductive Place where
  | ready | parked | seedWait | inService
  /-- Its completion waits to be written. -/
  | done
deriving DecidableEq, Repr

/-- A public expansion's key identity (R216). -/
inductive KeyName where
  | handle (h : BitVec 32)
  | hash (h : Bytes)
deriving DecidableEq, Repr

/-- A loom's expansion-cache entry (R215, R216). -/
structure CacheEntry where
  slice : Nat
  family : Nat
  set : Nat
  key : KeyName
  hash : Bytes
  blocks : Nat
  /-- Blocks that an owner's routine wrote (R234). -/
  data : List (Nat × Bytes) := []
deriving DecidableEq, Repr

/-- A selvedge unit's public-key cache entry (R325). -/
structure SelvEntry where
  slice : Nat
  set : Nat
  handle : BitVec 32
  pages : Nat
  /-- The public key, in the key store. -/
  key : Bytes := []
deriving DecidableEq, Repr

/-- What COMMIT makes visible besides the output (R235, R249, R327, R402). -/
inductive CommitAct where
  /-- The reservation becomes a live (or, for a stateful key, a building) run with this content. -/
  | run (kind family set : Nat) (policy : Word) (content : Bytes) (keyId : Nat) (building : Bool)
  | loomInstall (e : CacheEntry)
  | loomTouch (e : CacheEntry)
  | selvInstall (e : SelvEntry)
  | selvTouch (e : SelvEntry)
  | subtree (first index : Nat) (nodes : Bytes)
  /-- FINISH of a stateful key: the public key is stored with it (R218). -/
  | finish (first : Nat) (pk : Bytes)
  | delete (first : Nat)
  | restrict (first : Nat) (mask : Word)
  | retire (first : Nat)
deriving DecidableEq, Repr

/-- What a routine has formed and COMMIT releases. -/
structure ItemResult where
  status : Status
  output : Bytes := []
  word : Nat := 0
  acts : List CommitAct := []
  /-- Cache lookup of a loom or selvedge item: hit or miss (R223, R332). -/
  lookup : Option Bool := none
  /-- VERIFY_OK as the routine's verify pass leaves it (R218, R235). -/
  verifyOk : Bool := true
  /-- The trestle's own check of what it made (R281, R353). -/
  trestleOk : Bool := true
deriving DecidableEq, Repr

/-- A fetched work item (R143, R151, R173). -/
structure Item where
  /-- Fetch order. -/
  id : Nat
  port : PortId
  qnum : Nat
  slice : SliceIdx
  /-- Ring index. -/
  index : Nat
  entry : Entry
  cls : SvcClass
  place : Place
  /-- The sealed record KEY names, as read at fetch (R151). -/
  record : Option Bytes := none
  /-- The e that an RSA operation's input brings (R346, R348). -/
  exponent : Nat := 65537
  /-- Scratch drawers the opened record holds (R401). -/
  scratch : Nat := 0
  /-- First drawer of the run KEY names by handle. -/
  keyRun : Option Nat := none
  /-- The policy of the key, as it stood when step 6 of R153 passed (R403). -/
  keyPolicy : Word := 0
  /-- A DELETE that waited when a SEAL of its key was granted (R412). -/
  sealedFirst : Bool := false
  engine : Option Engine := none
  /-- The trestle of a hybrid or composite item (R181). -/
  trestle : Option TrestleId := none
  /-- Suspended at a yield point (R349). -/
  suspended : Bool := false
  /-- Context B of its trestle. -/
  ctxB : Bool := false
  excluded : List Engine := []
  restarts : Nat := 0
  faultRestarts : Nat := 0
  /-- A restarted item of its flow keeps the flow in service (R188). -/
  holdsFlow : Bool := false
  /-- The fabric cycle since which it has been the oldest eligible item of its level (R185). -/
  oldestSince : Option Nat := none
  boundIndex : Option Nat := none
  /-- The input that the operation's command brought (R209). -/
  input : Option Bytes := none
  /-- A translation of its output has been invalidated since the fetch (R133). -/
  retranslate : Bool := false
  /-- Draws made in this attempt. -/
  drew : Bool := false
  result : Option ItemResult := none
  /-- Blocks of a one-shot digest's message that cores have taken (R357). -/
  blocks : Nat := 0
  cycles : Nat := 0
  /-- The completion to be written, for an item in place `done`. -/
  done : Option Done := none
  /-- Completed at fetch or while waiting: ENGINE 0 (R156). -/
  doneEngine : Nat := 0
deriving DecidableEq, Repr

/-- The heddle's own state. -/
structure Heddle where
  /-- The next item's number. -/
  nextId : Nat := 0
  /-- Fetched items, in list order within a class and level. -/
  items : List Item := []
  /-- Engines that asked and block until granted (R177). -/
  asking : List Engine := []
  /-- The engine served last, by class code (R177). -/
  lastServed : List (Nat × Engine) := []
deriving DecidableEq, Repr

/-! ### Engines -/

/-! ### The inside of a loom (R195 to R212, R224) -/

/-- How a store word is shared (R202, R203): a public value in share 0, shares summing to the value modulo `q`, or shares
whose exclusive-or is the value. -/
inductive Sharing where
  | single
  | arith (q : Nat)
  | boolean
deriving DecidableEq, Repr

/-- A store word: its shares, eight lanes of 32 bits each. No share listed reads as zero. -/
structure StoreWord where
  sharing : Sharing := .single
  shares : List (List Word) := []
deriving DecidableEq, Repr

/-- A masked Keccak core (R199, R234): its mode, what it has absorbed, share by share, and where its squeezing stands. -/
structure KeccakCore where
  mode : Nat := 0
  secret : Bool := false
  absorbed : List Bytes := []
  /-- FINAL has padded; the operand of right_encode for KMAC. -/
  final : Option Nat := none
  squeezed : Nat := 0
deriving DecidableEq, Repr

/-- A masked SHA-2 core: the blocks it has compressed, share by share. -/
structure Sha2Core where
  wide : Bool := false
  secret : Bool := false
  blocks : List Bytes := []
deriving DecidableEq, Repr

/-- Units that a command can keep busy (R232). -/
inductive LoomUnit where
  | lanes | keccak (k : Fin 2) | sha2 (k : Fin 4) | sampler
  /-- The fp64 unit's operations under way, and its divide and square root (R201). -/
  | fpu | divider
deriving DecidableEq, Repr

/-- A loom's sequencer, store, registers and buffers (R195, R224). -/
structure LoomCore where
  /-- The item whose routine runs. -/
  item : Option Nat := none
  addr : Nat := 0
  stack : List Nat := []
  counters : Vector (BitVec 16) 4 := Vector.replicate 4 0
  accept : Bool := false
  verifyOk : Bool := false
  /-- An unequal VCHK since the dispatch (R235). -/
  verifyBroken : Bool := false
  /-- The word at `addr` has acted, and WAIT stays on it (R230). -/
  waited : Bool := false
  /-- COMMIT has been reached: the cycles of the output's read-back that are left (R210). -/
  readback : Option Nat := none
  /-- COMMIT stands, and waits for its command. -/
  atCommit : Bool := false
  /-- A routine error has been found (R237). -/
  error : Bool := false
  /-- Cycles since the dispatch. -/
  cycles : Nat := 0
  /-- The loom store: words by address, ascending; a word that is not listed is zero (R204). -/
  store : List (Nat × StoreWord) := []
  /-- Lane result registers, converter registers and the 16 fp registers, each with its shares (R201). -/
  lanes : StoreWord := {}
  /-- The lane results before the word at `addr` acted (R231). -/
  previous : StoreWord := {}
  converter : StoreWord := {}
  fp : Vector (List (BitVec 64)) 16 := Vector.replicate 16 []
  keccak : Vector KeccakCore 2 := Vector.replicate 2 {}
  sha2 : Vector Sha2Core 4 := Vector.replicate 4 {}
  /-- Units at work, with the cycles left to them. -/
  busy : List (LoomUnit × Nat) := []
  /-- Store writes under way: first word, count, cycles left (R232). -/
  writes : List (Nat × Nat × Nat) := []
  /-- The transform pass under way: inverse or not, and the address it works on (R197). -/
  pass : Option (Bool × Nat) := none
  /-- The item's trestle part has been started (R234). -/
  trestleOn : Bool := false
  /-- Input bytes the shuttle has delivered and the routine has read, and the bytes between, in the input buffer (R195,
  R209). -/
  delivered : Nat := 0
  consumed : Nat := 0
  input : Bytes := []
  /-- The current output buffer's bytes, which of the two it is, and the items whose output each holds (R210). -/
  output : Bytes := []
  current : Bool := false
  held : List (Bool × Nat) := []
  /-- The deposit register: drawers, and the masked words of the content (R203, R235). -/
  deposit : Option (Nat × List StoreWord) := none
  /-- Pending installs of expansion blocks (R235). -/
  pending : List (Nat × Bytes) := []
  /-- The mask generator's key and its state since the key was set (R206, R207). -/
  maskKey : Bytes := List.replicate 32 0
  maskPos : Nat := 0
  /-- The word the refresh port reaches next (R205). -/
  refresh : Nat := 0
  /-- Cycles left of the clear (R212). -/
  clearing : Nat := 0
deriving DecidableEq, Repr

/-- A loom (R195 to R223). -/
structure Loom where
  fenced : Bool := false
  dimmed : Bool := false
  /-- Moving average of the normalised service time (R186); `none` before the first completion. -/
  average : Option Rat := none
  /-- Most recently used first. -/
  cache : List CacheEntry := []
  hits : BitVec 16 := 0
  misses : BitVec 16 := 0
  mismatch : Nat := 0
  abandoned : Nat := 0
  firstLane : Option (Fin 8) := none
  core : LoomCore := {}
deriving DecidableEq, Repr

/-- A bench (R62, R501 to R505). -/
structure Bench where
  gated : Bool := false
  /-- The control store: words by address, each with its SECDED check bits (R224). -/
  control : List (Nat × Microword × BitVec 9) := []
  clkStep : Nat := 0
  trim : Nat := 0
  /-- The last LOSS, in 1/100 ps (R501). -/
  loss : Int := 0
  ageFenced : Bool := false
  noBaseline : Bool := false
  /-- A measurement runs (R501). -/
  measuring : Bool := false
  /-- Its DRBG instance must be instantiated before it returns (R64). -/
  needsSeed : Bool := false
  /-- It must be measured before it returns (R501). -/
  needsMeasure : Bool := false
deriving DecidableEq, Repr

/-- A job context of a trestle's operand store (R333): whose job it holds, the operands, the secrets, the 1,024 bits the job
drew (R334), and the secret in its randomised representation (R341). -/
structure JobContext where
  item : Option Nat := none
  operands : Bytes := []
  secrets : Bytes := []
  bits : Bytes := []
  blinded : List Nat := []
  /-- A signature's nonce in its randomised representation, and an RSA job's base, as u, c × u^e and u⁻¹. -/
  nonce : List Nat := []
  base : List Nat := []
  /-- The scaling factors: at the start and after every 32 steps. -/
  scales : List Nat := []
  /-- The primes that an RSA key generation has accepted (R551). -/
  primes : List Nat := []
deriving DecidableEq, Repr

/-- A trestle (R333 to R355). -/
structure Trestle where
  ctxA : JobContext := {}
  ctxB : JobContext := {}
  mismatch : Nat := 0
  abandoned : Nat := 0
  yields : BitVec 16 := 0
  /-- The accumulator of the multiply-accumulate array and the sequencer's registers, as the job of this item leaves them
  (R333, R352). -/
  accumulator : BitVec 2112 := 0
  sequencer : List (BitVec 64) := []
  /-- Module indices of the slices whose jobs it has held since the last beat (R180). -/
  held : List Nat := []
deriving DecidableEq, Repr

/-- A selvedge unit (R319 to R332). -/
structure Selvedge where
  cache : List SelvEntry := []
  hits : BitVec 16 := 0
  misses : BitVec 16 := 0
  mismatch : Nat := 0
  abandoned : Nat := 0
  lastAttempts : Nat := 0
  keygen : Bool := false
  /-- The mask generator's key and its state since the key was set (R320). -/
  maskKey : Bytes := List.replicate 32 0
  maskPos : Nat := 0
  /-- The work store: the item in service and its secrets in two Boolean shares (R319, R320). -/
  work : Option (Nat × Bytes × Bytes) := none
deriving DecidableEq, Repr

/-! ### The digest farm (R356 to R371) -/

inductive SlotState where
  | free | absorbing | finalising | done
deriving DecidableEq, Repr

structure DigestSlotState where
  state : SlotState := .free
  status : Nat := 0
  broken : Bool := false
  earlyRead : Bool := false
  lateWrite : Bool := false
  alg : Nat := 0
  gen : Word := 0
  port : PortId := 0
  slice : SliceIdx := 0
  absorbed : Nat := 0
  total : BitVec 48 := 0
  /-- L as it stood at FINAL (R362, R363). -/
  length : BitVec 48 := 0
  /-- Blocks that cores have taken (R357). -/
  taken : Nat := 0
  data : Bytes := []
  outLen : Nat := 0
  result : Bytes := []
  resultLen : Nat := 0
deriving DecidableEq, Repr

/-- Whose block a core holds (R357): a slot's allocation, or a one-shot item. -/
inductive FarmUser where
  | slot (d : DigestSlot) (gen : Word)
  | item (id : Nat)
deriving DecidableEq, Repr

/-- The farm: slots 1 to 32, and for each core (SHA-2 cores 0 to 11, Keccak cores 12 to 14) the block it holds and the
number of what it served last, 0 before its first: 1 to 32 a slot, 33 to 40 a one-shot engine (R357). -/
structure Farm where
  slots : Vector DigestSlotState 32 := Vector.replicate 32 {}
  held : Vector (Option FarmUser) 15 := Vector.replicate 15 none
  last : Vector Nat 15 := Vector.replicate 15 0
deriving DecidableEq, Repr

/-! ### The bobbin (R372 to R388) -/

inductive BobbinState where
  | off | starting | serving | retryWait | failed
deriving DecidableEq, Repr

/-- A DRBG instance (R376, R379). -/
structure DrbgInstance where
  instantiated : Bool := false
  stalled : Bool := false
  pending : Bool := false
  stretchMax : Nat := 0
  count : Nat := 0
  /-- Key and V of the CTR_DRBG. -/
  key : Bytes := List.replicate 32 0
  v : BitVec 128 := 0
deriving DecidableEq, Repr

structure Bobbin where
  state : BobbinState := .off
  retries : Nat := 0
  /-- Raw conditioning code in use (R372). -/
  vn : Bool := false
  live : BitVec 8 := 0
  lastTest : Nat := 0
  lastPair : Nat := 0
  /-- The start-up tests of the sequence that runs have ended and passed (R381 step 4). -/
  passed : Bool := false
  settled : Bool := false
  /-- The sequence that runs was run by BOBBIN_RESTART (R385). -/
  byCommand : Bool := false
  /-- A failure has happened, so the next SERVING logs 0x0E3 (R383). -/
  afterFailure : Bool := false
  /-- Pairs in their re-test while service goes on (R385). -/
  retesting : Bool := false
  seedQueue : List InstId := []
  /-- A PRED_RES reseed of instance 16 stands in the queue: how many of its own requests stand before it (R379). -/
  predSeed : Option Nat := none
  instances : Vector DrbgInstance 17 := Vector.replicate 17 {}
  /-- Conditioner calls begun, the last block, and the half block that no seed has taken (R373, R375, R376). -/
  calls : Nat := 0
  lastBlock : Bytes := []
  spare : Bytes := []
  /-- The pair from which the conditioner takes its next 32 bits (R375). -/
  nextPair : Nat := 0
  /-- Instance 16's buffers: eight trestles, then four selvedge units (R377). -/
  buffers : Vector Bytes 12 := Vector.replicate 12 []
deriving DecidableEq, Repr

/-! ### The cabinet (R389 to R413) -/

inductive RunState where
  /-- Reserved at fetch for the item (R249). -/
  | reserved (item : Nat)
  | building
  | live
deriving DecidableEq, Repr

/-- A drawer run of a slice, with what the cabinet keeps beside it (R395). -/
structure KeyRun where
  port : PortId
  slice : SliceIdx
  first : Nat
  length : Nat
  gen : Nat
  kind : Nat
  family : Nat
  set : Nat
  policy : Word
  content : Bytes
  /-- tr = H(pk) of an ML-DSA key, computed at generation or import (R271). -/
  tr : Bytes := []
  /-- The public key of a stateful sign key, stored with it at FINISH (R218, R300). -/
  pk : Bytes := []
  keyId : Nat := 0
  state : RunState
  /-- The item that claimed a ONE_SHOT key (R251). -/
  claimed : Option Nat := none
  /-- A granted DELETE (R412); the wipe waits for the items that use the key. -/
  deleting : Option Nat := none
  /-- BUILD subtrees present, each with its nodes (R300). -/
  subtrees : List (Nat × Bytes) := []
deriving DecidableEq, Repr

/-- The chest (R390). -/
structure Chest where
  valid : Bool := false
  /-- A word is uncorrectable: the tag fails at the next Wake (R393). -/
  damaged : Bool := false
  ownerSet : Bool := false
  drk : Bytes := []
  ork : Bytes := []
  ownerDigest : Bytes := []
  seq : Word := 0
  /-- Top-level pointers: low 40 bits of KEY_ID, and P (R306). -/
  pointers : List (Nat × Nat) := []
  /-- The tag over the content, at offset 0x080. -/
  tag : Bytes := []
deriving DecidableEq, Repr

/-- Cabinet status (R405, R413). -/
structure Cabinet where
  identityReady : Bool := false
  /-- The keys in the module area, in the order of R405: ML-DSA-87, P-384, ML-KEM-1024, X448; none while they are not derived. -/
  identity : List Bytes := []
  /-- The key of the drawers' placement (R394). -/
  scramble : Bytes := []
  refreshPasses : BitVec 16 := 0
  /-- The drawer the refresh engine reaches next. -/
  refreshNext : BitVec 16 := 0
  corrected : Nat := 0
  /-- The chest was moved after the first seeds of this Wake (R393). -/
  moved : Bool := false
  /-- The free counter at the moment the drawers took their starting generations (R396). -/
  epoch : Nat := 0
  /-- Instance 16 as it stood when it gave every drawer its generation at the last clearing (R396); none where it did not serve
  then. -/
  genSource : Option DrbgInstance := none
  /-- Generations that a wipe or a restore has set since, by physical drawer. -/
  gens : List (Nat × Nat) := []
deriving DecidableEq, Repr

/-! ### The tally (R302 to R318) -/

/-- One copy of a tally record with its TAG (R302). -/
structure TallyCopy where
  seq : Nat
  state : Nat
  family : Nat
  set : Nat
  keyId : Nat
  uid : BitVec 64
  ceiling : Nat
  handoff : Nat
  nonce : Nat
  tag : Bytes := []
deriving DecidableEq, Repr

/-- Who waits for a tally write to be durable. -/
inductive TallyWaiter where
  | nobody
  | item (id : Nat)
deriving DecidableEq, Repr

/-- A tally record: its two copies in flash, and the module's own record of it. -/
structure TallyRecord where
  number : Nat
  copyA : Option TallyCopy := none
  copyB : Option TallyCopy := none
  /-- The write in flight: copy B when true. -/
  writing : Option (Bool × TallyCopy) := none
  waiter : TallyWaiter := .nobody
  /-- Updates that wait for the write in flight, each with who waits for it. -/
  queued : List (TallyCopy × TallyWaiter) := []
  next : Nat := 0
  unusable : Bool := false
  /-- Reserved for a key that is being built (R300). -/
  building : Option (Nat × BitVec 64) := none
deriving DecidableEq, Repr

/-! ### Cards and ceremonies (R414 to R446) -/

/-- A record of a card: the copy that holds it (B or A), its SEQ and its payload (R432, R433). -/
structure Stored (α : Type) where
  copyB : Bool
  seq : Nat
  payload : α
deriving DecidableEq, Repr

/-- A rate of CCLK with its width (R417): the ident mode and modes 0, 1 and 2. -/
inductive CardRate where
  | ident
  | mode0
  | mode1
  | mode2
deriving DecidableEq, Repr

structure CardState where
  /-- CDET low. -/
  cdet : Bool := false
  present : Bool := false
  powered : Bool := false
  identified : Bool := false
  locked : Bool := false
  failed : Bool := false
  duplicate : Bool := false
  blank : Bool := false
  speedLimit : Bool := false
  /-- The 10 ms of R425 are over and the slot waits for its power (R18). -/
  waited : Bool := false
  mode : Nat := 0
  addr : Nat := 0
  busy : Bool := false
  lastErr : Nat := 0
  identity : BitVec 128 := 0
  /-- IDENTIFIED from before the slot's power went off; a use identifies the card again (R416). -/
  stale : Bool := false
  /-- Identified in the sequence that runs, and not yet switched and scanned (R422 step 7). -/
  found : Option CardData := none
  /-- CWP at lock. -/
  cwp : Bool := false
  /-- Where the card stands on the bus: 0 ident, 1 standby, 2 attached (R419, R420). -/
  phase : Nat := 0
  /-- The status word that the card answered last (R420). -/
  status : BitVec 30 := 0
  /-- The eight share record slots (R431). -/
  shares : List (Option (Stored ShareRecord)) := []
  image : Option (Stored SliceImage) := none
  recovery : Option (Stored RecoveryImage) := none
deriving DecidableEq, Repr

structure CardBus where
  slots : Vector CardState 4 := Vector.replicate 4 {}
  slew : Nat := 2
  inserted : BitVec 4 := 0
  failedEv : BitVec 4 := 0
  removedInTransfer : BitVec 4 := 0
  /-- A quorum card was pulled out during the evaluation under way (R444). -/
  quorumCut : Bool := false
deriving DecidableEq, Repr

structure Ceremony where
  state : Nat := 0
  kind : Nat := 0
  m : Nat := 0
  n : Nat := 0
  written : Nat := 0
  error : Nat := 0
  block : Option CeremonyBlock := none
  /-- The working ORK and set ID (R440 step 4). -/
  ork : Bytes := []
  setId : Nat := 0
  /-- The random coefficients of the 32 sharing polynomials (R434), M - 1 for each key byte. -/
  coeffs : Bytes := []
deriving DecidableEq, Repr

/-! ### The tamper watch (R464 to R485) -/

/-- A backup-latch entry (R478, R521). -/
structure LatchEntry where
  event : Nat
  severity : Nat
  cls : Nat
  time : Nat
  cell : Bool
  repeats : Nat := 0
  /-- Power-cycle count at the time. -/
  cycle : Nat := 0
deriving DecidableEq, Repr

/-- An open decision pair (R474): the sources of the first evaluation, each with its class then, and the delay drawn to
the second, in sampler cycles of 0.25 µs. -/
structure DecisionPair where
  firings : List (Firing × Nat)
  delay : Nat
deriving DecidableEq, Repr

/-- Default response classes of the 24 tamper sources (R464): 0 LOG, 1 FENCE, 2 HALT, 3 ZEROIZE. -/
def defaultClasses : Vector Nat 24 :=
  #v[3, 3, 2, 0, 1, 2, 1, 2, 2, 2, 2, 2, 2, 2, 2, 1, 3, 3, 3, 2, 2, 3, 2, 2]

/-- Thresholds of the tamper sources (R506): rails of sources 4 to 11 in 0.1 %, the clock glitch in percent, temperatures
in °C, the light code, and the lowest and highest resistance of loops A and B. -/
structure Thresholds where
  rails : List Nat := [100, 100, 100, 100, 100, 100, 100, 100]
  clockGlitch : Nat := 80
  tempLow : Int := -25
  tempHigh : Nat := 115
  dieLight : Nat := 1
  mesh : List Nat := [65535, 1, 65535, 1]
deriving DecidableEq, Repr

structure Tamper where
  active : BitVec 24 := 0
  /-- Thresholds in force (R506). -/
  limits : Thresholds := {}
  /-- Classes in force: the backup domain's until a draft is threaded (log entry 8). -/
  classes : Vector Nat 24 := defaultClasses
  /-- Sources whose class in force the device stage has applied (R95, R100). -/
  staged : BitVec 24 := 0
  stimFail : BitVec 24 := 0
  /-- The last alarm of each source that is active, with the unit it named (R464, R554). -/
  sensed : List Firing := []
  pairs : List DecisionPair := []
  /-- The source whose stimulus window is open (R482), and whether it was inactive before. -/
  stimulus : Option SourceId := none
  /-- A real alarm on the source of the window is held to its end (R484). -/
  heldAlarm : Bool := false
  /-- Fences the watch has raised, by source (R467). -/
  fences : List (SourceId × FenceScope) := []
  latchCount : Nat := 0
  latchLost : Nat := 0
deriving DecidableEq, Repr

/-! ### Faults (R486 to R511) -/

structure Faults where
  sticky : BitVec 128 := 0
  firstValid : Bool := false
  firstUe : Bool := false
  first : Nat := 0
  bench : BitVec 16 := 0
  trestle : BitVec 8 := 0
  selv : BitVec 4 := 0
  port : BitVec 4 := 0
  ceCount : Nat := 0
  warden : Bool := false
  trigger : Nat := 0
  testDone : Bool := false
  testFailed : BitVec 7 := 0
  tested : BitVec 7 := 0
  flashUes : Nat := 0
  flashFenced : Bool := false
deriving DecidableEq, Repr

/-- The calibration values in use (R506, R507, R512). -/
structure Calibration where
  valid : Bool := false
  /-- Offsets of the temperature sensors in 1/16 °C, and trims of the ring oscillators by pair. -/
  sensors : List Int := []
  oscTrims : List Nat := []
  failsafe : Bool := false
  origin : Nat := 0
  seq : Word := 0
  aliveMin : Nat := 0
  lockMax : Nat := 0
  benches : List BenchCal := []
  /-- Operating seconds until the next round (R512). -/
  ageNext : Nat := 86400
deriving DecidableEq, Repr

/-! ### The logbook (R513 to R523) -/

structure LogRecord where
  event : Nat
  severity : Nat
  latched : Bool
  repeats : Nat
  first : Nat
  last : Nat
  cycle : Nat
  detail : BitVec 64
  seq : Word
  /-- The record, without later repeats, is in flash. -/
  durable : Bool := false
  /-- The record whose place it takes in flash once it is durable (R518, R519). -/
  replaces : Option Word := none
  /-- REPEAT and LAST_SECONDS as flash holds them. -/
  flashRepeats : Nat := 0
  flashLast : Nat := 0
  /-- Operating seconds of its last write to flash (R519). -/
  flushed : Nat := 0
deriving DecidableEq, Repr

/-- An event on its way to the logbook, with the fabric cycle and the operating seconds of the occurrence. -/
structure Event where
  event : Nat
  severity : Nat
  detail : BitVec 64
  clock : Nat := 0
  time : Nat := 0
deriving DecidableEq, Repr

structure Logbook where
  /-- The mirror, ascending SEQ. -/
  records : List LogRecord := []
  queue : List Event := []
  seconds : Nat := 0
deriving DecidableEq, Repr

/-! ### Life cycle and debug (R524 to R537) -/

/-- A running transition (R529). -/
structure Transition where
  target : Nat
  /-- A return token started it. -/
  byToken : Option (PortId × BitVec 16)
deriving DecidableEq, Repr

structure LifeCycle where
  /-- LCS_OTP, as read at the last Wake. -/
  otpRead : BitVec 24 := 0
  state : Nat := 0
  invalid : Bool := false
  repaired : Bool := false
  debug : Bool := false
  nonce : Option Bytes := none
  attempts : Nat := 0
  result : Nat := 0
  transition : Option Transition := none
  /-- Debug challenges that wait for seeding, each with its number among the waiting (R72, R73). -/
  challenges : List (Nat × PortId × BitVec 16) := []
deriving DecidableEq, Repr

/-! ### Owner-signed commands (R121, R164) -/

/-- Where an accepted envelope came from, and so where its answer goes. -/
inductive OwnerOrigin where
  | admin (p : PortId)
  | usb (p : PortId) (seq : BitVec 16)
deriving DecidableEq, Repr

/-- What waits for the steward: an envelope of SIGNED_ADMIN or OWNER_SIGNED, or a token of DEBUG_RESPONSE. -/
inductive StewardWork where
  | envelope (e : Envelope)
  | token (t : Token)
  /-- The envelope of the OWNER_SIGNED entry with this number. -/
  | entry (id : Nat) (e : Envelope)
deriving DecidableEq, Repr

/-- A command that has arrived and waits for the steward; `seq` is of a USB command (R121, R536). -/
structure WaitingEnvelope where
  port : PortId
  seq : BitVec 16
  work : StewardWork
deriving DecidableEq, Repr

/-- An accepted envelope whose inner command has not completed. -/
structure OwnerCommand where
  origin : OwnerOrigin
  seq : Word
  operand : OwnerOperand
  /-- The inner command has begun and waits for its end (a beat, a re-thread, a restart, a transition). -/
  started : Bool := false
  /-- The tamper flags that TAMPER_CLEAR may clear: set, and of an inactive source, at acceptance, and not set again since
  (R479, R484). -/
  clears : BitVec 24 := 0
deriving DecidableEq, Repr

/-! ### What outlives the main domain -/

/-- Fuses and factory values (R1, R2, R119, R464, R524). -/
structure Fuses where
  serial : BitVec 64 := 0
  /-- The ordering code is AQX-9640-L (R1, R114). -/
  codeL : Bool := false
  /-- Disabled tamper sources. -/
  fused : BitVec 24 := 0
  caps : Vector Nat 24 := Vector.replicate 24 0
  /-- The life-cycle bits. -/
  otp : BitVec 24 := 0
deriving DecidableEq, Repr

/-- Module flash (R91, R302, R391, R451, R506, R515). -/
structure Flash where
  slotA : Option Draft := none
  slotB : Option Draft := none
  select : Nat := 0
  /-- Raw conditioning code of the draft threaded last (R372). -/
  conditioning : Nat := 0
  firmwareA : Bool := true
  firmwareB : Bool := true
  /-- The owner record, empty when erased (R391). -/
  ownerRecord : Bytes := []
  /-- The identity record (R406). -/
  identity : Option IdentityRecord := none
  tally : List TallyRecord := []
  /-- Tally copy writes over the module's life (R303). -/
  tallyWrites : Nat := 0
  receiveLog : List Nat := []
  receiveFloor : BitVec 64 := 0
  /-- The calibration page; none while it is erased (R506). -/
  cal : Option Bytes := none
  logRecords : List LogRecord := []
  logSeq : Word := 0
  lost : Vector Nat 4 := Vector.replicate 4 0
  secondsMark : Nat := 0
  powerCycle : Nat := 0
deriving DecidableEq, Repr

/-- The backup domain (R23, R390, R476 to R479, R516). -/
structure Backup where
  chest : Chest := {}
  sticky : BitVec 24 := 0
  /-- Classes copied at threading and at each device-stage apply (R476). -/
  classes : Vector Nat 24 := defaultClasses
  /-- Thresholds copied with the classes (R506). -/
  limits : Thresholds := {}
  latch : List LatchEntry := []
  lost : Nat := 0
  seconds : Nat := 0
  /-- The cell is in place and above its low threshold. -/
  cellOk : Bool := true
  /-- Times the mask generator has re-shared the chest words since the last move (R393). -/
  remasks : Nat := 0
  /-- The key of the chest words' places, and the seed of the mask generator, both of the last move (R393). -/
  addressKey : Bytes := []
  maskSeed : Bytes := []
  /-- The backup domain lost power since the last Wake (R24). -/
  wasLost : Bool := false
  /-- Sources active when the cell windows last looked. -/
  active : BitVec 24 := 0
  /-- Time since main power was lost, in cycles of 750 MHz (R478). -/
  alone : Nat := 0
deriving DecidableEq, Repr

/-! ### What the module emits -/

/-- A transaction the module sends or answers, in order. -/
inductive Tx where
  /-- Output bytes written to the host in the address space of a PASID, or of no PASID (R125, R142 step 1). -/
  | output (p : PortId) (pasid : Option (BitVec 20)) (addr : BitVec 64) (bytes : Bytes)
  /-- A completion record, bytes 4 to 63, at a ring index, then dword 0 (R142, R155). -/
  | completion (p : PortId) (pasid : Option (BitVec 20)) (qnum index : Nat) (record : Entry)
  | dword0 (p : PortId) (pasid : Option (BitVec 20)) (qnum index : Nat) (value : Word)
  /-- A message of a vector, at the address and with the data of its table entry (R115, R158). -/
  | msix (p : PortId) (vector : Nat) (address : BitVec 64) (data : Word)
  | ringRead (p : PortId) (pasid : Option (BitVec 20)) (qnum index count : Nat)
  /-- An ATS translation request for pages, tagged with the slice's PASID (R133). -/
  | atsRequest (p : PortId) (pasid : Option (BitVec 20)) (pages : List Nat)
  | trace (p : PortId) (index : Nat) (record : BitVec 128)
  /-- A management response: code, SEQUENCE, STATUS and payload (R75). -/
  | usb (p : PortId) (cmd : Nat) (seq : BitVec 16) (status : Status) (payload : Bytes)
  | readData (p : PortId) (offset : Nat) (value : Word)
  /-- A register read on the debug port (R534). -/
  | debugData (offset : Nat) (value : Word)
  | unsupportedRequest (p : PortId)
  | completerAbort (p : PortId)
  | aerFatal (p : PortId)
  | atsDone (p : PortId)
  /-- A slice image (R455) that goes to a card slot. -/
  | sliceImage (p : PortId) (card : Option CardSlot) (image : SliceImage)
  /-- A command frame on CCMD, at its rate (R417, R418). -/
  | cardFrame (rate : CardRate) (frame : BitVec 48)
  /-- Framed data blocks that go to a card (R426). -/
  | cardBlocks (card : CardSlot) (rate : CardRate) (blocks : List CardBlock)
deriving DecidableEq, Repr

/-! ### The state -/

/-- The module. -/
structure State where
  /-- Commands that wait, first in, first out (the model's own). -/
  pending : List Instr
  /-- Everything the module has sent, oldest first (the model's own). -/
  out : List Tx
  /-- Fabric cycles since t0 (R61, R106). -/
  clock : Nat
  /-- The next free value's number (the model's own). -/
  free : Nat
  fuses : Fuses
  flash : Flash
  backup : Backup
  power : Power
  mode : ModeUnit
  draft : DraftUnit
  /-- Applied port shares in 1/1,024 (R101). -/
  shares : Vector Nat 4
  device : DeviceStage
  ports : Vector Port 4
  slices : List Slice
  queues : List Queue
  heddle : Heddle
  looms : Vector Loom 64
  benches : Vector Bench 16
  trestles : Vector Trestle 8
  selvs : Vector Selvedge 4
  farm : Farm
  bobbin : Bobbin
  cabinet : Cabinet
  runs : List KeyRun
  cards : CardBus
  ceremony : Ceremony
  tamper : Tamper
  faults : Faults
  cal : Calibration
  log : Logbook
  life : LifeCycle
  owner : Option OwnerCommand
  /-- Envelopes that wait their turn, in order of arrival (R121). -/
  envelopes : List WaitingEnvelope
deriving DecidableEq, Repr

/-- The fuse caps of R464: HALT for sources 3, 13, 15 and 23, ZEROIZE for the others. -/
def factoryCaps : Vector Nat 24 :=
  Vector.ofFn (fun s : Fin 24 => if s.val = 3 ∨ s.val = 13 ∨ s.val = 15 ∨ s.val = 23 then 2 else 3)

/-- The module right after reset: Wake at t0 (MOD_STATUS reads MODE 1, R78), every register at its reset value, an
AQX-9640-S (no source fused, R1), factory caps (R464), state Provisioned with groups 0 and 1 burned (log entries 3
and 8 name the values the manual does not give). -/
def State.reset : State where
  pending := []
  out := []
  clock := 0
  free := 0
  fuses := { caps := factoryCaps, otp := 0xFF }
  flash := {}
  backup := {}
  power := {}
  mode := {}
  draft := {}
  shares := Vector.replicate 4 256
  device := {}
  ports := Vector.replicate 4 {}
  slices := []
  queues := []
  heddle := {}
  looms := Vector.replicate 64 {}
  benches := Vector.replicate 16 {}
  trestles := Vector.replicate 8 {}
  selvs := Vector.replicate 4 {}
  farm := {}
  bobbin := {}
  cabinet := {}
  runs := []
  cards := {}
  ceremony := {}
  tamper := {}
  faults := {}
  cal := {}
  log := {}
  life := {}
  owner := none
  envelopes := []

end Sys2Proof.Machine
end

