-- ==== Sys2Proof/Machine/Bits.lean ====
section
/-! DEFINITION. Bytes, bit fields and the two CRCs: what every other file reads operands with. -/

namespace Sys2Proof.Machine

/-- Byte `k` of a ring entry (R138). -/
def entryByte (e : Entry) (k : Nat) : Nat := (e.extractLsb' (8 * k) 8).toNat

/-- `n` bytes of a ring entry from byte `k`, little-endian (R151). -/
def entryNat (e : Entry) (k n : Nat) : Nat := (e.toNat >>> (8 * k)) % 2 ^ (8 * n)

/-- `n` bits of a ring entry from bit `k`. -/
def entryBits (e : Entry) (k n : Nat) : Nat := (e.toNat >>> k) % 2 ^ n

/-- `n` bytes, little-endian. -/
def leBytes (n v : Nat) : Bytes := (List.range n).map fun i => BitVec.ofNat 8 (v >>> (8 * i))

/-- `n` bytes, big-endian. -/
def beBytes (n v : Nat) : Bytes := (leBytes n v).reverse

/-- The value of little-endian bytes. -/
def leNat : Bytes → Nat
  | [] => 0
  | b :: bs => b.toNat + 256 * leNat bs

/-- The value of big-endian bytes. -/
def beNat (bs : Bytes) : Nat := leNat bs.reverse

/-- The ASCII bytes of a text. -/
def ascii (t : String) : Bytes := t.toList.map fun c => BitVec.ofNat 8 c.toNat

/-- `n` bytes of a byte string from byte `k`. -/
def slice_ (bs : Bytes) (k n : Nat) : Bytes := (bs.drop k).take n

/-- A register of the fields `(shift, width, value)`, each value cut to its width. -/
def packFields (fs : List (Nat × Nat × Nat)) : Word :=
  BitVec.ofNat 32 (fs.foldl (fun acc f => acc + (f.2.2 % 2 ^ f.2.1) * 2 ^ f.1) 0)

/-- `true` as 1. -/
def bit (b : Bool) : Nat := if b then 1 else 0

/-- The bits of a register from `shift`, `width` of them. -/
def fieldOf (w : Word) (shift width : Nat) : Nat := (w.toNat >>> shift) % 2 ^ width

/-- Sets or clears bit `i` of a mask. -/
def setBit {n : Nat} (m : BitVec n) (i : Nat) (v : Bool) : BitVec n :=
  if v then m ||| BitVec.ofNat n (2 ^ i) else m &&& ~~~(BitVec.ofNat n (2 ^ i))

/-- The indices below `n` whose bit is set. -/
def bitsOf {n : Nat} (m : BitVec n) : List Nat := (List.range n).filter fun i => m.getLsbD i

/-- The mask with the bits of a list set. -/
def maskOf (n : Nat) (l : List Nat) : BitVec n := l.foldl (fun m i => setBit m i true) 0

/-- Number of set bits. -/
def popcount {n : Nat} (m : BitVec n) : Nat := (bitsOf m).length

/-- Adds, stopping at `top`. -/
def satAdd (top a b : Nat) : Nat := min top (a + b)

/-- One bit of the CRC-16 of R103 (polynomial 0x1021). -/
def crc16Bit (c : BitVec 16) : BitVec 16 :=
  if c.getLsbD 15 then (c <<< 1) ^^^ 0x1021 else c <<< 1

/-- One byte of the CRC-16 of R103. -/
def crc16Byte (c : BitVec 16) (b : Byte) : BitVec 16 :=
  let c := c ^^^ ((b.setWidth 16) <<< 8)
  crc16Bit (crc16Bit (crc16Bit (crc16Bit (crc16Bit (crc16Bit (crc16Bit (crc16Bit c)))))))

/-- CRC-16, polynomial 0x1021, initial value 0xFFFF, no final XOR (R103). -/
def crc16 (bs : Bytes) : BitVec 16 := bs.foldl crc16Byte 0xFFFF

/-- One bit of the IEEE 802.3 CRC-32 in its reflected form (R83). -/
def crc32Bit (c : BitVec 32) : BitVec 32 :=
  if c.getLsbD 0 then (c >>> 1) ^^^ 0xEDB88320 else c >>> 1

/-- One byte of the IEEE 802.3 CRC-32. -/
def crc32Byte (c : BitVec 32) (b : Byte) : BitVec 32 :=
  let c := c ^^^ b.setWidth 32
  crc32Bit (crc32Bit (crc32Bit (crc32Bit (crc32Bit (crc32Bit (crc32Bit (crc32Bit c)))))))

/-- CRC-32, IEEE 802.3 (R83, R191). -/
def crc32 (bs : Bytes) : BitVec 32 := ~~~(bs.foldl crc32Byte 0xFFFFFFFF)

/-- The value of an outside standard's function, `n` bytes of it (log entry 4). -/
def primBytes (p : Prim) (args : List Bytes) (n : Nat) : Bytes := (List.range n).map (Config.prim p args)

/-- `n` zero bytes. -/
def zeros (n : Nat) : Bytes := List.replicate n 0

/-- Bytes all zero. -/
def allZero (bs : Bytes) : Bool := bs.all fun b => b == 0

/-! ### Hashes, by their codes of R356 -/

def sha3_256 (m : Bytes) : Bytes := primBytes (.digest 0x12) [m] 32
def sha3_512 (m : Bytes) : Bytes := primBytes (.digest 0x14) [m] 64
def shake256 (m : Bytes) (n : Nat) : Bytes := primBytes (.digest 0x22) [m] n

/-- What verifies nothing. -/
def unsigned : Signed := { key := [], context := [], message := [] }

/-- A signature block (R86) over SHA3-512 of `msg`, under an ML-DSA-87 and a P-384 key, with an ML-DSA context (log
entry 100). -/
def blockVerifies (dsaKey ecKey context msg : Bytes) (b : SignatureBlock) : Bool :=
  b.bytes.length == 4736 && b.bytes.drop 4731 == zeros 5
    && b.dsa == { key := dsaKey, context := context, message := sha3_512 msg }
    && b.ec == { key := ecKey, context := [], message := sha3_512 msg }

/-- A block of the boot ROM's draft keys, and one of an owner record's keys (R86, R391). -/
def horsefortVerifies (context msg : Bytes) (b : SignatureBlock) : Bool :=
  blockVerifies (Config.romKey .draftDsa) (Config.romKey .draftEc) context msg b
def ownerVerifies (record context msg : Bytes) (b : SignatureBlock) : Bool :=
  blockVerifies (record.take 2592) (record.drop 2592) context msg b

/-- KMAC256 with key K, input X, an output of `n` bytes and the ASCII customisation S, as R389 writes it. -/
def kmac256 (key x : Bytes) (n : Nat) (label : Bytes) : Bytes := primBytes .kmac [key, x, leBytes 4 (8 * n), label] n

/-- SHA-256, SHA-384 and SHA-512 by their codes of R356: digest length and block size. -/
def shaLen (alg : Nat) : Nat := if alg = 2 then 32 else if alg = 3 then 48 else 64
def shaBlock (alg : Nat) : Nat := if alg = 2 then 64 else 128
def sha (alg : Nat) (m : Bytes) : Bytes := primBytes (.digest alg) [m] (shaLen alg)

/-- The key of HMAC, one block: a longer one is hashed first (FIPS 198-1; log entry 167). -/
def hmacKey (alg : Nat) (key : Bytes) : Bytes :=
  let k := if shaBlock alg < key.length then sha alg key else key
  k ++ zeros (shaBlock alg - k.length)

/-- HMAC over a hash of R356. -/
def hmac (alg : Nat) (key m : Bytes) : Bytes :=
  let k := hmacKey alg key
  sha alg (k.map (fun b => b ^^^ 0x5C) ++ sha alg (k.map (fun b => b ^^^ 0x36) ++ m))

/-- The next `n` blocks of HKDF-Expand after `prev`, counted from `i` (RFC 5869; log entry 167). -/
def hkdfBlocks (alg : Nat) (prk info : Bytes) : Nat → Nat → Bytes → Bytes
  | 0, _, _ => []
  | n + 1, i, prev =>
    let t := hmac alg prk (prev ++ info ++ leBytes 1 i)
    t ++ hkdfBlocks alg prk info n (i + 1) t

/-- HKDF-Expand to `n` bytes. -/
def hkdfExpand (alg : Nat) (prk info : Bytes) (n : Nat) : Bytes :=
  (hkdfBlocks alg prk info ((n + shaLen alg - 1) / shaLen alg) 1 []).take n

/-! ### AES-256-GCM (R399, R456) -/

/-- Bytewise exclusive or. -/
def xorBytes (a b : Bytes) : Bytes := List.zipWith (fun x y => x ^^^ y) a b

/-- The key stream of a key and an IV, and the tag over additional data and ciphertext. -/
def gcmStream (key iv : Bytes) (n : Nat) : Bytes := primBytes .gcmStream [key, iv] n
def gcmTag (key iv aad ct : Bytes) : Bytes := primBytes .gcmTag [key, iv, aad, ct] 16

/-- The ciphertext of a text. -/
def gcmCipher (key iv text : Bytes) : Bytes := xorBytes text (gcmStream key iv text.length)

/-- The text of a ciphertext whose tag holds. -/
def gcmOpen (key iv aad ct tag : Bytes) : Option Bytes :=
  if tag == gcmTag key iv aad ct then some (gcmCipher key iv ct) else none

end Sys2Proof.Machine
end

