-- ==== Sys2Proof/Machine/Events.lean ====
section
/-! DEFINITION. Events on their way to the logbook: severities, details, the steward's queue and the backup latch
(R478, R513 to R521). -/

namespace Sys2Proof.Machine

/-- The severity the default draft gives a class's event (R465). -/
def classSeverity (c : Nat) : Nat := if c = 0 then 1 else if c = 1 then 2 else 3

/-- The default draft's severity of an event number (R513 and the tables it names): 0 INFO to 3 ALARM. -/
def defaultSeverity (ev : Nat) : Nat :=
  if ev < 0x80 then (if ev % 2 = 0 then 2 else 1)
  else if ev < 0xA0 then (if ev % 2 = 0 then 1 else 2)
  else if ev < 0xC0 then
    (match (ev - 0xA0) % 8 with | 0 => 0 | 1 => 1 | 2 => 1 | 3 => 0 | 4 => 1 | 5 => 0 | 6 => 2 | _ => 0)
  else if ev < 0xD8 then classSeverity (defaultClasses.toList.getD (ev - 0xC0) 0)
  else if ev < 0xF0 then
    [0, 2, 3, 1, 1, 3, 2, 1, 1, 2, 2, 0, 1, 2, 2, 2, 2, 0, 0, 1, 0, 0, 0, 0].getD (ev - 0xD8) 0
  else if ev < 0x108 then (if ev % 2 = 0 then 2 else 0)
  else [0, 1, 1, 1, 2, 0, 1, 2, 0, 2, 1, 1, 0, 0, 2, 0, 0, 2, 1, 1, 1, 0, 1, 1, 1, 0, 2, 2, 3, 2, 1, 2].getD (ev - 0x108) 0

/-- The severity in force: the threaded draft's EVENTS section gives any event any severity (R83, R513). -/
def severityOf (s : State) (ev : Nat) : Nat :=
  match s.draft.threaded with
  | none => defaultSeverity ev
  | some d =>
    match d.severities.find? (fun p => p.1 == ev) with
    | some p => p.2
    | none => defaultSeverity ev

/-- A DETAIL field (R554). -/
def detailOf (value unit_ code mode cls : Nat) : BitVec 64 :=
  BitVec.ofNat 64 (value % 2 ^ 32 * 2 ^ 32 + unit_ % 256 * 2 ^ 24 + code % 256 * 2 ^ 16 + mode % 256 * 2 ^ 8 + cls % 256)

/-- Puts an entry into the 8-entry backup latch: a matching number raises the repeat count, a full latch the lost
count (R478, R521). -/
def latchEntry (e : LatchEntry) (s : State) : State :=
  let l := s.backup.latch
  if l.any (fun x => x.event == e.event) then
    { s with backup := { s.backup with latch := l.map fun x =>
        if x.event == e.event then { x with repeats := satAdd 255 x.repeats 1 } else x } }
  else if l.length < 8 then { s with backup := { s.backup with latch := l ++ [e] } }
  else { s with backup := { s.backup with lost := satAdd 255 s.backup.lost 1 } }

/-- Events on main power go to the latch before step 5 of R66 and while the steward is lost (R478). -/
def latching (s : State) : Bool := !s.mode.fwDone || s.mode.stewardLost

/-- Counts an event that no record or queue place could take (R518). -/
def countLost (severity : Nat) (s : State) : State :=
  if h : severity < 4 then
    { s with flash := { s.flash with lost := s.flash.lost.set severity (satAdd 4294967295 s.flash.lost[severity] 1) } }
  else s

/-- The place of an event in the order of arrival: events of one fabric cycle stand in ascending number (R517). -/
def insertEvent (e : Event) : List Event → List Event
  | [] => [e]
  | x :: l => if x.clock = e.clock ∧ e.event < x.event then e :: x :: l else x :: insertEvent e l

/-- Puts an event into the steward's 256-entry queue (R517). -/
def queueEvent (e : Event) (s : State) : State :=
  if s.log.queue.length < 256 then { s with log := { s.log with queue := insertEvent e s.log.queue } }
  else countLost e.severity s

/-- Raises event `ev` with its detail. -/
def raise (ev : Nat) (detail : BitVec 64) (s : State) : State :=
  if s.mode.base = .dormant then s
  else if latching s then
    latchEntry
      { event := ev, severity := severityOf s ev, cls := detail.toNat % 256, time := s.log.seconds, cell := false,
        cycle := s.flash.powerCycle } s
  else queueEvent { event := ev, severity := severityOf s ev, detail := detail, clock := s.clock, time := s.log.seconds } s

/-- Raises an event that carries no detail. -/
def raise0 (ev : Nat) (s : State) : State := raise ev 0 s

/-- Raises an event whose detail names a unit only. -/
def raiseUnit (ev u : Nat) (s : State) : State := raise ev (detailOf 0 u 0 0 0) s

/-- Emits a transaction. -/
def emit (t : Tx) (s : State) : State := { s with out := s.out ++ [t] }

end Sys2Proof.Machine
end

