-- ==== Sys2Proof/WellFormed.lean ====
section
/-! DEFINITION. Which commands carry operands that the module's pins and buses can carry. A command that breaks
this never reaches the hardware; no meaning asks for it, and none stops on it (log entry 10). -/

namespace Sys2Proof

/-- BAR0 is 32 MiB (R115). -/
def barSize : Nat := 33554432

/-- BAR2 is 1 MiB (R115). -/
def doorbellSize : Nat := 1048576

/-- An offer's fields fit the 10-bit fields of a contract (R47). -/
def Offer.wf (o : Offer) : Bool :=
  o.fixed.all fun f => decide (0 < f.volts) && decide (f.volts < 52) && decide (f.current < 1024)

/-- A junction temperature fits PWR_THERMAL.TJ (R47). -/
def tjWf (t : Int) : Bool := decide (-128 ≤ t) && decide (t ≤ 127)

/-- The operands of a trigger are ones its source can give. -/
def Trigger.wf : Trigger → Bool
  | .contractDrop _ v c => decide (v < 1024) && decide (c < 1024)
  | .ageing _ m t => decide (-32768 ≤ m) && decide (m ≤ 32767) && tjWf t
  | _ => true

/-- The operands of a command are ones its source can send. -/
def Instr.wf : Instr → Bool
  | .stewardFwVerified _ _ l => decide (l.length ≤ 4096)
  | .portAttach _ o => o.wf
  | .contractChange _ o _ => o.wf
  | .contractDrop _ v c _ => decide (v < 1024) && decide (c < 1024)
  | .thermalSample t => tjWf t
  | .stageWrite _ off _ => decide (off < barSize)
  | .registerWrite _ off size _ => decide (off < barSize) && decide (0 < size)
  | .readBlock _ _ off len => decide (off < 4294967296) && decide (len < 4294967296)
  | .recoveryLoad _ _ part => decide (part.length ≤ 1048576)
  | .tamperFire x => x.meets.all Trigger.wf
  | .uncorrectableError x => x.meets.all Trigger.wf
  | .busMasterResume _ _ es => es.all fun e => decide (e.vector < 2048)
  | .atsInvalidation _ _ _ a b => decide (a ≤ b)
  | .doorbellWrite _ off size _ => decide (off + size ≤ doorbellSize) && decide (0 < size)
  | .expressDoorbell _ off size => decide (off + size ≤ doorbellSize) && decide (0 < size)
  | .pollTick _ q => decide (0 < q) && decide (q < 1024)
  | .ringReadComplete _ q (.data es) => decide (q < 1024) && decide (0 < es.length) && decide (es.length ≤ 32)
  | .ringReadComplete _ q .denied => decide (q < 1024)
  | .coalesceTimeout _ q => decide (0 < q) && decide (q < 1024)
  | .ageingMeasureDone _ m t => decide (-32768 ≤ m) && decide (m ≤ 32767) && tjWf t
  | .mcelieceKeygen _ n => decide (0 < n)
  | .rsaKeygen _ n => decide (1 ≤ n)
  | .digestDataWrite _ _ off _ => decide (off < 4096)
  | .digestFinal _ _ n => decide (n < 131072)
  | .digestResultRead _ _ off => decide (off < 4096)
  | .linkTrained _ g _ => decide (1 ≤ g) && decide (g ≤ 3)
  | _ => true

end Sys2Proof
end

