-- ==== Sys2Proof/Machine/Access.lean ====
section
/-! DEFINITION. Reading and replacing one unit of the state, and the facts about units that every rule asks for. -/

namespace Sys2Proof.Machine

/-! ### One unit -/

def modPort (p : PortId) (f : Port → Port) (s : State) : State :=
  { s with ports := s.ports.set p.val (f s.ports[p.val]) }

def modLoom (n : LoomId) (f : Loom → Loom) (s : State) : State :=
  { s with looms := s.looms.set n.val (f s.looms[n.val]) }

def modBench (b : BenchId) (f : Bench → Bench) (s : State) : State :=
  { s with benches := s.benches.set b.val (f s.benches[b.val]) }

def modTrestle (t : TrestleId) (f : Trestle → Trestle) (s : State) : State :=
  { s with trestles := s.trestles.set t.val (f s.trestles[t.val]) }

def modSelv (u : SelvId) (f : Selvedge → Selvedge) (s : State) : State :=
  { s with selvs := s.selvs.set u.val (f s.selvs[u.val]) }

def modCard (c : CardSlot) (f : CardState → CardState) (s : State) : State :=
  { s with cards := { s.cards with slots := s.cards.slots.set c.val (f s.cards.slots[c.val]) } }

def modDigest (d : DigestSlot) (f : DigestSlotState → DigestSlotState) (s : State) : State :=
  { s with farm := { s.farm with slots := s.farm.slots.set d.val (f s.farm.slots[d.val]) } }

def modInstance (i : InstId) (f : DrbgInstance → DrbgInstance) (s : State) : State :=
  { s with bobbin := { s.bobbin with instances := s.bobbin.instances.set i.val (f s.bobbin.instances[i.val]) } }

def modStage (p : PortId) (f : Stage → Stage) (s : State) : State := modPort p (fun x => { x with stage := f x.stage }) s

def modAdmin (p : PortId) (f : AdminQueue → AdminQueue) (s : State) : State :=
  modPort p (fun x => { x with admin := f x.admin }) s

/-- Replaces the items that `sel` picks. -/
def modItems (sel : Item → Bool) (f : Item → Item) (s : State) : State :=
  { s with heddle := { s.heddle with items := s.heddle.items.map fun i => if sel i then f i else i } }

def modItem (id : Nat) (f : Item → Item) (s : State) : State := modItems (fun i => i.id == id) f s

def dropItems (sel : Item → Bool) (s : State) : State :=
  { s with heddle := { s.heddle with items := s.heddle.items.filter fun i => !sel i } }

def modQueues (sel : Queue → Bool) (f : Queue → Queue) (s : State) : State :=
  { s with queues := s.queues.map fun q => if sel q then f q else q }

def modQueue (p : PortId) (n : Nat) (f : Queue → Queue) (s : State) : State :=
  modQueues (fun q => q.port == p && q.qnum == n) f s

def modSlice (p : PortId) (i : SliceIdx) (f : Slice → Slice) (s : State) : State :=
  { s with slices := s.slices.map fun x => if x.port == p && x.idx == i then f x else x }

def modRuns (sel : KeyRun → Bool) (f : KeyRun → KeyRun) (s : State) : State :=
  { s with runs := s.runs.map fun r => if sel r then f r else r }

def modTally (sel : TallyRecord → Bool) (f : TallyRecord → TallyRecord) (s : State) : State :=
  { s with flash := { s.flash with tally := s.flash.tally.map fun r => if sel r then f r else r } }

def findItem (s : State) (id : Nat) : Option Item := s.heddle.items.find? fun i => i.id == id

/-- A live slice of the port: installed, not waiting for its beat. -/
def findSlice (s : State) (p : PortId) (i : Nat) : Option Slice :=
  s.slices.find? fun x => x.port == p && x.idx.val == i && !x.installing

/-- A live work queue of the port. -/
def findQueue (s : State) (p : PortId) (n : Nat) : Option Queue :=
  s.queues.find? fun q => q.port == p && q.qnum == n && !q.installing

/-- The live queue of a slice with a slice-local index. -/
def findLocalQueue (s : State) (p : PortId) (i k : Nat) : Option Queue :=
  s.queues.find? fun q => q.port == p && q.slice.val == i && q.index == k && !q.installing

/-- 256 × port + local index (R126). -/
def moduleIndex (p : PortId) (i : SliceIdx) : Nat := 256 * p.val + i.val

/-- All the values of a `Fin`. -/
def fins (n : Nat) : List (Fin n) := List.ofFn id

/-! ### Modes and plans -/

/-- Mode codes (R48). -/
def modeCode : Mode → Nat
  | .dormant => 0 | .wake => 1 | .threading => 2 | .idle => 3 | .serveFull => 4 | .serveLite => 5
  | .serveDegraded => 6 | .hold => 7 | .zeroized => 8 | .recovery => 10 | .analysis => 11

/-- MOD_STATUS.MODE: 9 while debug is enabled (R49). -/
def modeShown (s : State) : Nat := if s.life.debug then 9 else modeCode s.mode.base

def isServe : Mode → Bool
  | .serveFull | .serveLite | .serveDegraded => true
  | _ => false

/-- Idle or a Serve mode. -/
def isIdleServe (m : Mode) : Bool := m == .idle || isServe m

/-- Idle, Hold or a Serve mode: where slices, queues and digest slots are made (R129, R161, R358). -/
def isWorking (m : Mode) : Bool := m == .hold || isIdleServe m

/-- The mode permits the admin queues: Zeroized and Analysis for read-only commands, Test-Root whatever its base mode
(R48; log entry 118). -/
def adminRuns (s : State) : Bool :=
  s.life.debug || isWorking s.mode.base || s.mode.base == .zeroized || s.mode.base == .analysis

def planCode : Plan → Nat
  | .wakeOnly => 0 | .idleOnly => 1 | .lite => 2 | .full => 3

/-- STRAP_PWRMIN's minimum plan for serving (R21): Lite, or Full. -/
def minPlan (s : State) : Nat :=
  match s.mode.straps with
  | some t => if t.pwrmin then 3 else 2
  | none => 2

def planMeetsMin (s : State) : Bool := decide (minPlan s ≤ planCode s.power.plan)

/-- A unit is fenced when a Serve mode is entered: a bench, a loom, a trestle or a selvedge unit (R50, R51, R70; log entry
106). -/
def unitFenced (s : State) : Bool :=
  !(s.faults.bench == 0) || !(s.faults.trestle == 0) || !(s.faults.selv == 0) || s.looms.any fun l => l.fenced

/-! ### Units in service -/

def benchOf (n : LoomId) : BenchId := ⟨n.val / 4, by omega⟩

/-- TOPOLOGY role of a bench under the threaded draft, 0 before any (R84). -/
def roleOf (s : State) (b : Nat) : Nat :=
  match s.draft.threaded with
  | none => 0
  | some d => match d.benches[b]? with | some e => e.role | none => 0

/-- Masking order of a bench (R84). -/
def orderOf (s : State) (b : Nat) : Nat :=
  match s.draft.threaded with
  | none => 1
  | some d => match d.benches[b]? with | some e => e.order | none => 1

/-- A loom is out of service by a fence of its own or of its bench (R492). -/
def loomFenced (s : State) (n : LoomId) : Bool := s.looms[n.val].fenced || s.faults.bench.getLsbD (n.val / 4)

/-- A loom serves: its bench is in the plan, and neither is fenced. -/
def loomServes (s : State) (n : LoomId) : Bool := s.power.benchOn.getLsbD (n.val / 4) && !loomFenced s n

def trestleServes (s : State) (t : TrestleId) : Bool :=
  s.power.trestleOn.getLsbD t.val && !s.faults.trestle.getLsbD t.val

def selvServes (s : State) (u : SelvId) : Bool := s.power.selvOn.getLsbD u.val && !s.faults.selv.getLsbD u.val

/-- The engine is in service under the plan and the fences. -/
def engineServes (s : State) : Engine → Bool
  | .loom n => loomServes s n
  | .trestle t => trestleServes s t
  | .selvedge u => selvServes s u
  | .digest _ => true
  | .bobbin => s.bobbin.state == .serving
  | .steward => !s.mode.stewardLost

/-- Looms in service under the plan (R104 check 0x06, R105). -/
def loomsServing (s : State) : Nat := ((fins 64).filter (loomServes s)).length

/-! ### The function of a port -/

/-- The port's source is attached and its link trained, so its function exists (R17, R40). -/
def functionPresent (s : State) (p : PortId) : Bool := s.power.contracts[p.val].attached && s.ports[p.val].trained

/-- BAR accesses complete normally: configuration is answered (R71), Memory Space Enable set, D0, no reset running
(R116, R117). -/
def barOpen (s : State) (p : PortId) : Bool :=
  functionPresent s p && s.mode.ready && s.ports[p.val].mse && !s.ports[p.val].d3hot && !s.ports[p.val].flr

/-- The port's function is fenced (R493). -/
def portFenced (s : State) (p : PortId) : Bool := s.faults.port.getLsbD p.val

/-- The shuttle may issue requests for the port (R116, R117). -/
def portMoves (s : State) (p : PortId) : Bool :=
  functionPresent s p && s.ports[p.val].bme && !s.ports[p.val].d3hot && !s.ports[p.val].flr && !portFenced s p

/-- An access that reaches the port's BARs: it acts while they are open, and completes as Unsupported Request while the
function is present and they are not (R116, R117). -/
def onBar (p : PortId) (act : State → State) (s : State) : State :=
  if barOpen s p then act s
  else if functionPresent s p && s.mode.ready then emit (.unsupportedRequest p) s
  else s

/-- A write to the port's BARs: a fenced function ignores it (R493). -/
def onWrite (p : PortId) (act : State → State) (s : State) : State :=
  onBar p (fun s => if portFenced s p then s else act s) s

/-! ### The chest (R389 to R392) -/

/-- A value that derives from the device root: the module serial is its context (R389). -/
def rootKdf (root : Bytes) (serial : BitVec 64) (n : Nat) (label : Bytes) : Bytes := kmac256 root (leBytes 8 serial.toNat) n label

/-- Bytes cut or filled with zero to a field's width. -/
def fill (n : Nat) (b : Bytes) : Bytes := (b ++ zeros n).take n

/-- Offsets 0x000 to 0x07F of the chest. -/
def chestHead (c : Chest) : Bytes :=
  ascii "AQCH" ++ leBytes 2 1 ++ leBytes 2 (bit c.ownerSet) ++ zeros 8 ++ fill 32 c.drk ++ fill 32 c.ork ++ fill 32 c.ownerDigest
    ++ leBytes 4 c.seq.toNat ++ zeros 12

/-- Offsets 0x800 to 0xFFF: one entry of 8 bytes for each top-level pointer, free entries zero. -/
def chestPointers (c : Chest) : Bytes :=
  fill 2048 (c.pointers.flatMap fun q => leBytes 8 (q.1 % 2 ^ 40 * 2 ^ 24 + q.2 % 2 ^ 24))

/-- The tag of a content, under the chest tag key that derives from its DRK. -/
def chestTag (serial : BitVec 64) (c : Chest) : Bytes :=
  kmac256 (rootKdf c.drk serial 32 (ascii "AQX-CHEST")) (chestHead c ++ chestPointers c) 32 (ascii "AQX-CHEST-TAG")

/-- The 4 KiB of the chest. -/
def chestBytes (c : Chest) : Bytes := chestHead c ++ fill 32 c.tag ++ zeros 1888 ++ chestPointers c

/-- The content that a Wake finds is good: no word uncorrectable, a DRK that is not zero, the tag right (R392, R393). -/
def chestPasses (serial : BitVec 64) (c : Chest) : Bool :=
  !c.damaged && !allZero c.drk && c.tag == chestTag serial c

/-- Writes the chest: the tag follows its content. -/
def writeChest (f : Chest → Chest) (s : State) : State :=
  let c := f s.backup.chest
  { s with backup := { s.backup with chest := { c with tag := chestTag s.fuses.serial c } } }

/-- The device root: the test root, 32 bytes of 0x5A, while debug is enabled (R411). -/
def deviceRoot (s : State) : Bytes := if s.life.debug then List.replicate 32 0x5A else s.backup.chest.drk

/-- The four identity keys' secrets that derive from the device root, in the order of R389. -/
def rootIdentity (s : State) : List Bytes :=
  [rootKdf (deviceRoot s) s.fuses.serial 32 (ascii "AQX-ID-MLDSA87"), rootKdf (deviceRoot s) s.fuses.serial 64 (ascii "AQX-ID-P384"),
    rootKdf (deviceRoot s) s.fuses.serial 64 (ascii "AQX-ID-MLKEM1024"), rootKdf (deviceRoot s) s.fuses.serial 56 (ascii "AQX-ID-X448")]

/-- Reads SEQ of the chest (R119). -/
def ownerSeq (s : State) : Word := s.backup.chest.seq

/-- An owner is set: the chest is valid and holds an ORK (R88, R390). -/
def ownerSet (s : State) : Bool := s.backup.chest.valid && s.backup.chest.ownerSet

/-- The owner record in flash has the SHA3-256 that the chest holds (R391). -/
def ownerRecordOk (s : State) : Bool :=
  !s.flash.ownerRecord.isEmpty && sha3_256 s.flash.ownerRecord == s.backup.chest.ownerDigest

/-- Bits of an identity record's flags (R406). -/
def idTestRoot (r : IdentityRecord) : Bool := (r.front.getD 6 0).getLsbD 0
def idRegenerated (r : IdentityRecord) : Bool := (r.front.getD 6 0).getLsbD 1

/-- The module's identity record has REGENERATED set (R407). -/
def regenerated (s : State) : Bool := match s.flash.identity with | some r => idRegenerated r | none => false

/-- The next free value (log entry 6). -/
def takeFree (s : State) : Nat × State := (Config.freeValue s.free, { s with free := s.free + 1 })

/-- Requests that a draw of `n` bytes makes: a loom's request has at most 512 bits (R377). -/
def requestsOf (i : InstId) (n : Nat) : Nat := if i.val < 16 then (n + 63) / 64 else 1

/-- Byte `j` of the output blocks of CTR_DRBG after V (SP 800-90A, R376). -/
def ctrByte (x : DrbgInstance) (j : Nat) : Byte :=
  Config.prim .aes [x.key, beBytes 16 (x.v + BitVec.ofNat 128 (1 + j / 16)).toNat] (j % 16)

/-- Update of Key and V with 48 bytes of data. -/
def ctrUpdate (data : Bytes) (x : DrbgInstance) : DrbgInstance :=
  let t := xorBytes ((List.range 48).map (ctrByte x)) data
  { x with key := t.take 32, v := BitVec.ofNat 128 (beNat (t.drop 32)) }

/-- One Generate call of `n` bytes: it counts one request (R377, R379). -/
def ctrGenerate (n : Nat) (x : DrbgInstance) : Bytes × DrbgInstance :=
  let y := ctrUpdate (zeros 48) { x with v := x.v + BitVec.ofNat 128 ((n + 15) / 16) }
  ((List.range n).map (ctrByte x), { y with count := satAdd 4294967296 y.count 1 })

/-- Several Generate calls of `n` bytes each, in turn. -/
def ctrCalls (n : Nat) : Nat → DrbgInstance → Bytes × DrbgInstance
  | 0, x => ([], x)
  | k + 1, x =>
    let a := ctrGenerate n x
    let b := ctrCalls n k a.2
    (a.1 ++ b.1, b.2)

/-- Draws `n` bytes from a DRBG instance, in as many requests as they take. -/
def draw (i : InstId) (n : Nat) (s : State) : Bytes × State :=
  let d := ctrCalls (if i.val < 16 then 64 else n) (requestsOf i n) s.bobbin.instances[i.val]
  (d.1.take n, modInstance i (fun _ => d.2) s)

/-- Instance 16 (R376). -/
def inst16 : InstId := 16

/-- A draw from a buffer of instance 16, which is refilled (R377). -/
def drawBuffer (k : Fin 12) (n : Nat) (s : State) : Bytes × State :=
  let d := draw inst16 n s
  let all := d.2.bobbin.buffers[k.val] ++ d.1
  (all.take n, { d.2 with bobbin := { d.2.bobbin with buffers := d.2.bobbin.buffers.set k.val (all.drop n) } })

end Sys2Proof.Machine
end

