-- ==== Sys2Proof/Machine/Items.lean ====
section
/-! DEFINITION. Work items: the descriptor's fields (R151), how an item ends, how it restarts (R188, R236), and how a
slice and its drawers are destroyed (R131, R396). -/

namespace Sys2Proof.Machine

/-! ### The descriptor (R151) -/

def famOf (e : Entry) : Nat := entryBits e 8 8
def opOf (e : Entry) : Nat := entryBits e 0 8
def ownBit (e : Entry) : Bool := entryBits e 31 1 == 1
def noIrq (e : Entry) : Bool := entryBits e 30 1 == 1
def irqNow (e : Entry) : Bool := entryBits e 29 1 == 1
def sealedKey (e : Entry) : Bool := entryBits e 28 1 == 1
def depositFlag (e : Entry) : Bool := entryBits e 27 1 == 1
def prioOf (e : Entry) : Nat := entryBits e 21 3
def setOf (e : Entry) : Nat := entryByte e 7
def flowTag (e : Entry) : Nat := entryNat e 4 3
def inputLen (e : Entry) : Nat := entryNat e 24 4
def outputCap (e : Entry) : Nat := entryNat e 28 4
def outputAddr (e : Entry) : BitVec 64 := BitVec.ofNat 64 (entryNat e 32 8)
def policyOperand (e : Entry) : Word := BitVec.ofNat 32 (entryNat e 40 4)
def userTag (e : Entry) : Nat := entryNat e 56 8

/-- An item of an owner's family (R227, R242). -/
def ownerItem (i : Item) : Bool := decide (0xC0 ≤ famOf i.entry)

/-- KEY names a key, by handle or by record. -/
def namesKey (i : Item) : Bool := i.keyRun.isSome || i.record.isSome

/-- A stateful signing operation (R297). -/
def isStatefulSign (fam op : Nat) : Bool := (fam == 0x05 && op == 0x3B) || (fam == 0x06 && op == 0x43)

/-- FINISH of the stateful families (R300). -/
def isFinish (fam op : Nat) : Bool := (fam == 0x05 && op == 0x3A) || (fam == 0x06 && op == 0x42)

/-- The operation belongs to its key's flow (R182, R310). -/
def keyFlowOp (fam op : Nat) : Bool := isStatefulSign fam op || isFinish fam op || fam == 0x31

/-- The flows an item belongs to (R182): module slice index, kind (1 flow tag, 2 stateful key), and the tag or key. -/
def flowsOf (i : Item) : List (Nat × Nat × Nat) :=
  let m := moduleIndex i.port i.slice
  (if flowTag i.entry = 0 then [] else [(m, 1, flowTag i.entry)])
    ++ (if keyFlowOp (famOf i.entry) (opOf i.entry) then
          [(m, 2, match i.keyRun with | some r => r | none => leNat (slice_ (i.record.getD []) 32 8) + 65536)]
        else [])

/-- An item that is fetched and not yet dispatched (R176). -/
def waiting (i : Item) : Bool := i.place == .ready || i.place == .parked || i.place == .seedWait

/-- Service-class codes (R170). -/
def classCode : SvcClass → Nat
  | .kem => 0 | .sign => 1 | .hash => 2 | .trestle => 3 | .selvedge => 4 | .local_ => 5

def isLoomClass (c : SvcClass) : Bool := c == .kem || c == .sign || c == .hash

/-- ENGINE of a completion (R156); a loom with a trestle is kind 4. -/
def engineCode (e : Engine) (t : Option TrestleId) : Nat :=
  match e, t with
  | .loom n, none => 0x1000 + n.val
  | .loom n, some t => 0x4000 + 64 * t.val + n.val
  | .trestle t, _ => 0x2000 + t.val
  | .selvedge u, _ => 0x3000 + u.val
  | .digest _, _ => 0x5000
  | .bobbin, _ => 0x6010
  | .steward, _ => 0x7000

/-! ### Trace records (R190 to R192) -/

/-- FLOW_HASH (R191) of an item's first flow: its tag flow, else its key flow (log entry 185). -/
def flowHash (i : Item) : BitVec 32 :=
  match flowsOf i with
  | [] => 0
  | (m, k, v) :: _ =>
    crc32 (leBytes 2 m ++ leBytes 1 k ++ [0] ++ leBytes 4 (if k = 1 then v else entryNat i.entry 8 4))

/-- Writes a trace record for a port, or drops and counts it (R190). -/
def traceRecord (p : PortId) (engine : Nat) (i : Option Item) (reason cls : Nat) (s : State) : State :=
  let t := s.ports[p.val].trace
  if !t.enabled then s
  else
    let s' := modPort p (fun x => { x with trace := { x.trace with seq := x.trace.seq + 1 } }) s
    if decide (2 ^ t.log2 ≤ (t.produced - t.consumed).toNat) || !portMoves s p then
      modPort p (fun x => { x with trace := { x.trace with dropped := satAdd 4294967295 x.trace.dropped 1 } }) s'
    else
      let pq := match i with | none => 0 | some i => prioOf i.entry * 8192 + i.qnum
      let fh := match i with | none => 0 | some i => (flowHash i).toNat
      let r := BitVec.ofNat 128 (s.clock % 2 ^ 32 + engine * 2 ^ 32 + pq * 2 ^ 48 + fh * 2 ^ 64 + reason * 2 ^ 96
        + cls * 2 ^ 104 + t.seq.toNat * 2 ^ 112)
      emit (.trace p (t.produced.toNat % 2 ^ t.log2) r)
        (modPort p (fun x => { x with trace := { x.trace with produced := x.trace.produced + 1 } }) s')

/-- A trace record about an item. -/
def traceItem (reason : Nat) (i : Item) (s : State) : State :=
  traceRecord i.port (match i.engine with | none => 0 | some e => engineCode e i.trestle) (some i) reason
    (classCode i.cls) s

/-! ### Drawers and their generations (R395, R396) -/

/-- The physical drawer that is drawer `d` of ranges of physical drawers. -/
def physDrawer : List (Nat × Nat) → Nat → Nat
  | [], d => d
  | (first, n) :: rest, d => if d < n then first + d else physDrawer rest (d - n)

/-- The generation of drawer `d`: two bytes of the two requests of 65,536 that instance 16 serves, non-zero (R396). -/
def drawnGeneration (x : DrbgInstance) (d : Nat) : Nat :=
  let y := if d < 32768 then x else (ctrGenerate 65536 x).2
  let k := 2 * (d % 32768)
  1 + leNat [ctrByte y k, ctrByte y (k + 1)] % 65535

/-- The generation a physical drawer stands at. -/
def physGen (s : State) (d : Nat) : Nat :=
  match s.cabinet.gens.find? (fun g => g.1 == d) with
  | some g => g.2
  | none => match s.cabinet.genSource with
    | some x => drawnGeneration x d
    | none => 1 + Config.freeGeneration s.cabinet.epoch d % 65535

/-- The generation a drawer of the slice stands at. -/
def drawerGen (s : State) (x : Slice) (d : Nat) : Nat := physGen s (physDrawer x.phys d)

/-- Physical drawers take generations. -/
def setGens (l : List (Nat × Nat)) (s : State) : State :=
  { s with cabinet := { s.cabinet with gens := l ++ s.cabinet.gens.filter fun g => !(l.any fun h => h.1 == g.1) } }

/-- Advances by one and skips 0 (R396). -/
def nextGen (g : Nat) : Nat := if g % 65535 = 0 then 1 else g % 65535 + 1

/-- Wipes `n` drawers of the slice from `first`: each generation advances. -/
def wipeDrawers (x : Slice) (first n : Nat) (s : State) : State :=
  setGens ((List.range n).map fun k => (physDrawer x.phys (first + k), nextGen (drawerGen s x (first + k)))) s

/-- Ranges of physical drawers, by first drawer. -/
def insertRange (a : Nat × Nat) : List (Nat × Nat) → List (Nat × Nat)
  | [] => [a]
  | b :: l => if a.1 ≤ b.1 then a :: b :: l else b :: insertRange a l

/-- The `n` lowest drawers from `start` that ascending ranges leave free (log entry 120). -/
def freeDrawers : Nat → Nat → List (Nat × Nat) → List (Nat × Nat)
  | start, n, [] => if n = 0 then [] else [(start, n)]
  | start, n, u :: rest =>
    let gap := min n (u.1 - start)
    (if gap = 0 then [] else [(start, gap)]) ++ freeDrawers (max start (u.1 + u.2)) (n - gap) rest

/-- Physical drawers for a new slice's allotment. -/
def allotDrawers (s : State) (n : Nat) : List (Nat × Nat) :=
  freeDrawers 0 n ((s.slices.flatMap fun x => x.phys).foldr insertRange [])

/-- The copy of a tally record that counts: the valid one of higher sequence number (R302). -/
def tallyNewest (t : TallyRecord) : Option TallyCopy :=
  match t.copyA, t.copyB with
  | some a, some b => if a.seq < b.seq then some b else some a
  | some a, none => some a
  | none, b => b

/-- The KEY_ID a tally record stands for, its copies' or that of the key being built. -/
def tallyKey (t : TallyRecord) : Option Nat :=
  match t.building with
  | some b => some b.1
  | none => (tallyNewest t).map fun c => c.keyId

/-- Erases the tally records and the chest pointers of the keys picked (R307). -/
def eraseTally (sel : TallyRecord → Bool) (s : State) : State :=
  let gone := (s.flash.tally.filter sel).filterMap tallyKey
  let s := { s with flash := { s.flash with tally := s.flash.tally.filter fun t => !sel t } }
  if gone.isEmpty then s
  else writeChest (fun c => { c with pointers := c.pointers.filter fun q => !(gone.any fun k => k % 2 ^ 40 == q.1) }) s

/-- Wipes a run and forgets it; a stateful key's record and pointer go with it when `erase` says so (R307). -/
def wipeRun (r : KeyRun) (erase : Bool) (s : State) : State :=
  let s := match s.slices.find? fun x => x.port == r.port && x.idx == r.slice with
    | some x => wipeDrawers x r.first r.length s
    | none => s
  let s := { s with runs := s.runs.filter (fun q => !(q.port == r.port && q.slice == r.slice && q.first == r.first)) }
  if erase && r.kind == 4 then eraseTally (fun t => tallyKey t == some r.keyId) s else s

/-- Items that use a run and have not completed. -/
def runUsers (s : State) (r : KeyRun) : List Item :=
  s.heddle.items.filter fun i =>
    i.port == r.port && i.slice == r.slice && i.keyRun == some r.first && !(i.place == .done)

/-- Items whose completion a DELETE waits for (R263, R412): those that use the run, and those that wait for its tally record
(R312). -/
def runHolders (s : State) (r : KeyRun) : List Item :=
  s.heddle.items.filter fun i =>
    i.port == r.port && i.slice == r.slice && i.keyRun == some r.first
      && (!(i.place == .done)
        || (i.done.isNone && s.flash.tally.any fun t => t.waiter == .item i.id || t.queued.any fun q => q.2 == .item i.id))

/-- Wipes the runs that only waited for their users: a claimed ONE_SHOT key (R251), also one whose DELETE has ended
without OK, and a key whose DELETE has committed, whose completion may then be written (R412). -/
def settleRuns (s : State) : State :=
  let one (s : State) (r : KeyRun) : State :=
    let unused (s : State) : State := if r.claimed.isSome && (runUsers s r).isEmpty then wipeRun r true s else s
    match r.deleting with
    | some id =>
      match findItem s id with
      | some i =>
        if i.place == .done && i.done.isNone && i.result.isSome then
          if ((runHolders s r).filter fun x => !(x.id == id)).isEmpty then
            modItem id (fun x => { x with done := some { status := .ok } }) (wipeRun r true s)
          else s
        else unused s
      | none => unused s
    | none => unused s
  s.runs.foldl one s

/-! ### How an item ends -/

/-- RESULT of a completion that no operation filled: a stateful SIGN reports its bound index (R310). -/
def failWord (i : Item) : Nat :=
  if isStatefulSign (famOf i.entry) (opOf i.entry) then i.boundIndex.getD (2 ^ 64 - 1) else 0

/-- Returns the item's reservation: a run it reserved and did not make live (R249); a record kept for a stateful key
that never came to be goes with it. -/
def returnReservation (id : Nat) (s : State) : State :=
  let rs := s.runs.filter fun r => r.state == .reserved id
  { s with
    runs := s.runs.filter fun r => !(r.state == .reserved id)
    flash := { s.flash with tally := s.flash.tally.filter fun t =>
      !(rs.any fun r => r.kind == 4 && t.building.map (fun b => b.1) == some r.keyId) } }

/-- Ends an item: its completion waits to be written, with ENGINE `eng`. -/
def endItem (id : Nat) (d : Done) (eng : Nat) (s : State) : State :=
  let s := returnReservation id s
  let s := modItem id (fun i =>
    { i with place := .done, done := some d, doneEngine := eng, suspended := false, result := none }) s
  settleRuns s

/-- Ends an item that has not committed, with a status and no output: ENGINE 0 and SERVICE_CYCLES 0. -/
def failItem (st : Status) (i : Item) (s : State) : State :=
  endItem i.id { status := st, result := failWord i } 0 (modItem i.id (fun x => { x with cycles := 0 }) s)

/-- What COMMIT and an abandon leave of a loom's core (R212, R236): the output buffers, the mask generator and the refresh
port stay, the sequencer is back at 0x000, and the clear of the store runs in the next 32 cycles. -/
def clearCore (c : LoomCore) : LoomCore :=
  { current := c.current
    held := c.held
    maskKey := c.maskKey
    maskPos := c.maskPos
    refresh := c.refresh
    clearing := 32 }

/-- The trestle an item holds, alone or beside a loom. -/
def trestleOf (i : Item) : Option TrestleId :=
  match i.engine with
  | some (.trestle t) => some t
  | _ => i.trestle

/-- The context of an item's job on its trestle (R333). -/
def modContext (i : Item) (f : JobContext → JobContext) (s : State) : State :=
  match trestleOf i with
  | some t => modTrestle t (fun x => if i.ctxB then { x with ctxB := f x.ctxB } else { x with ctxA := f x.ctxA }) s
  | none => s

/-- A trestle's job and a selvedge unit's item leave nothing behind (R321, R352); the accumulator and the sequencer's registers
are cleared unless the job was suspended, and another job's context stays. -/
def leaveStores (i : Item) (s : State) : State :=
  let s := match trestleOf i with
    | some t => if i.suspended then s else modTrestle t (fun x => { x with accumulator := 0, sequencer := [] }) s
    | none => s
  let s := modContext i (fun c => if c.item == some i.id then {} else c) s
  match i.engine with
  | some (.selvedge u) => modSelv u (fun x => { x with work := none, keygen := false }) s
  | _ => s

/-- Clears what an item's routine leaves: its loom, its trestle's context, its selvedge unit's work store. -/
def leaveUnits (i : Item) (s : State) : State :=
  let s := leaveStores i s
  match i.engine with
  | some (.loom n) => modLoom n (fun l => { l with core := clearCore l.core }) s
  | _ => s

/-- Ends an item in service, with a status and no output, naming its engine. -/
def failInService (st : Status) (cycles : Nat) (i : Item) (s : State) : State :=
  endItem i.id { status := st, result := failWord i } (match i.engine with | none => 0 | some e => engineCode e i.trestle)
    (modItem i.id (fun x => { x with cycles := cycles }) (leaveUnits i s))

/-! ### Restarts (R188, R236) -/

/-- Counts an abandoned routine on the engines that ran it (R223, R332, R355). -/
def countAbandon (i : Item) (s : State) : State :=
  let s := leaveUnits i s
  let s := match i.engine with
    | some (.loom n) => modLoom n (fun l => { l with abandoned := satAdd 255 l.abandoned 1 }) s
    | some (.trestle t) => modTrestle t (fun x => { x with abandoned := satAdd 255 x.abandoned 1 }) s
    | some (.selvedge u) => modSelv u (fun x => { x with abandoned := satAdd 255 x.abandoned 1, keygen := false }) s
    | _ => s
  match i.trestle with
  | some t => modTrestle t (fun x => { x with abandoned := satAdd 255 x.abandoned 1 }) s
  | none => s

/-- The trestle holds a slice's job in this beat (R180). -/
def holdTrestle (t : TrestleId) (m : Nat) (s : State) : State :=
  modTrestle t (fun x => if x.held.contains m then x else { x with held := x.held ++ [m] }) s

/-- The suspended job of a trestle resumes when the job over it ends (R351); from then on its slice is charged (R349). -/
def resumeTrestle (i : Item) (s : State) : State :=
  match trestleOf i with
  | none => s
  | some t =>
    let rests (x : Item) : Bool := x.place == .inService && x.suspended && trestleOf x == some t
    if i.suspended then s
    else
      let charged := (s.heddle.items.filter rests).foldl (fun s x => holdTrestle t (moduleIndex x.port x.slice) s) s
      modItems rests (fun x => { x with suspended := false }) charged

/-- Puts an item at the head of its own level, ahead of every waiting item (R188). -/
def readmit (i : Item) (s : State) : State :=
  { s with heddle := { s.heddle with items := i :: s.heddle.items.filter fun x => !(x.id == i.id) } }

/-- Abandons an item in service and restarts it, with the trace reason `code`. A fault restart excludes the engines named
and counts towards the limit of three, at which the item completes with UNIT_FAULT (R38, R188, R192, R236; log entry 142). Its RESTART record is its only
one: it writes no ADMIT (log entry 186). -/
def restartCoded (code : Nat) (fault : Bool) (excl : List Engine) (i : Item) (s : State) : State :=
  let s := resumeTrestle i (countAbandon i s)
  let s := traceItem code i s
  let i' := { i with
    restarts := satAdd 255 i.restarts 1
    faultRestarts := if fault then i.faultRestarts + 1 else i.faultRestarts }
  if fault && decide (3 ≤ i'.faultRestarts) then
    failInService .unitFault 0 i' (modItem i.id (fun _ => i') s)
  else
    readmit
      { i' with
        place := .ready
        engine := none
        trestle := none
        suspended := false
        ctxB := false
        result := none
        input := none
        blocks := 0
        drew := false
        holdsFlow := true
        oldestSince := none
        excluded := if fault then excl ++ i.excluded else i.excluded } s

/-- A restart after a fault, or after a plan change (R192). -/
def restartItem (fault : Bool) (excl : List Engine) (i : Item) (s : State) : State :=
  restartCoded (if fault then 0x07 else 0x08) fault excl i s

/-- Items in service on an engine, the trestle part of a hybrid among them. -/
def itemsOn (s : State) (e : Engine) : List Item :=
  s.heddle.items.filter fun i =>
    i.place == .inService && (i.engine == some e || (match e with | .trestle t => i.trestle == some t | _ => false))

/-- Restarts every item in service on one engine. -/
def restartAllOn (fault : Bool) (e : Engine) (s : State) : State :=
  (itemsOn s e).foldl (fun s i => restartItem fault [e] i s) s

/-- An engine leaves the set of those that asked. -/
def unask (sel : Engine → Bool) (s : State) : State :=
  { s with heddle := { s.heddle with asking := s.heddle.asking.filter fun e => !sel e } }

/-! ### Slices (R131) -/

/-- Removes a slice's items with no completion written. -/
def discardItems (p : PortId) (i : SliceIdx) (s : State) : State :=
  let victims := s.heddle.items.filter fun x => x.port == p && x.slice == i
  let s := victims.foldl (fun s x =>
    let s := returnReservation x.id s
    if x.place == .inService then resumeTrestle x (countAbandon x s) else s) s
  dropItems (fun x => x.port == p && x.slice == i) s

/-- The staged fields of one slice's queues and of the slice itself. -/
def fieldOfSlice (s : State) (p : PortId) (i : SliceIdx) : StagedField → Bool
  | .weight x | .prioCeil x | .loomCap x | .trestleShare x => x == i
  | .coalCount q | .coalTime q | .poll q => s.queues.any (fun y => y.port == p && y.qnum == q && y.slice == i)
  | .idleTimeout => false

/-- Removes stage entries and sets PRUNED when any goes (R109). -/
def pruneStage (p : PortId) (sel : StagedField → Bool) (s : State) : State :=
  modStage p (fun g =>
    if g.entries.any (fun e => sel e.1) then
      { g with entries := g.entries.filter (fun e => !sel e.1), pruned := true }
    else g) s

/-- A slot is freed: its buffer and its result go, and its status bits and counts stand until the next allocation (R359, R367,
R371; log entry 20). -/
def freedSlot (x : DigestSlotState) : DigestSlotState :=
  { x with state := .free, data := [], taken := 0, result := [], resultLen := 0 }

/-- Frees the digest slots that `sel` picks (R359, R368). -/
def freeSlots (sel : DigestSlotState → Bool) (s : State) : State :=
  { s with farm := { s.farm with slots := s.farm.slots.map fun d => if sel d then freedSlot d else d } }

/-- Destroys a slice: its items, queues, drawers, digest slots, stage, translation and expansion-cache entries; the
tally records and pointers of its UID too when `erase` says so (R131, R217, R307, R328, R359). -/
def destroySlice (p : PortId) (i : SliceIdx) (erase : Bool) (s : State) : State :=
  let old := s.slices.find? fun x => x.port == p && x.idx == i
  let uid := old.map (fun x => x.uid)
  let s := match old with | some x => wipeDrawers x 0 x.drawers s | none => s
  let s := discardItems p i s
  let s := pruneStage p (fieldOfSlice s p i) s
  let keys := (s.runs.filter fun r => r.port == p && r.slice == i && r.kind == 4).map (fun r => r.keyId)
  let m := moduleIndex p i
  let s := { s with
    queues := s.queues.filter fun q => !(q.port == p && q.slice == i)
    runs := s.runs.filter fun r => !(r.port == p && r.slice == i)
    slices := s.slices.filter fun x => !(x.port == p && x.idx == i)
    looms := s.looms.map fun l => { l with cache := l.cache.filter fun c => !(c.slice == m) }
    trestles := s.trestles.map fun t => { t with held := t.held.filter fun h => h != m }
    selvs := s.selvs.map fun u => { u with cache := u.cache.filter fun c => !(c.slice == m) } }
  let s := modPort p (fun x => { x with cache := x.cache.filter fun c => !(c.slice == i) }) s
  let s := freeSlots (fun d => !(d.state == .free) && d.port == p && d.slice == i) s
  let s := { s with flash := { s.flash with tally := s.flash.tally.filter fun t =>
    match t.building with | some b => !keys.contains b.1 | none => true } }
  if erase then eraseTally (fun t => uid.isSome && (tallyNewest t).map (fun c => c.uid) == uid) s else s

/-- Destroys every slice of a port, whatever queues remain (R37, R117). -/
def destroyPortSlices (p : PortId) (s : State) : State :=
  (s.slices.filter fun x => x.port == p).foldl (fun s x => destroySlice p x.idx false s) s

/-- Destroys every slice of the module. -/
def destroyAllSlices (s : State) : State :=
  s.slices.foldl (fun s x => destroySlice x.port x.idx false s) s

end Sys2Proof.Machine
end

