-- ==== Sys2Proof/Machine/Microcode.lean ====
section
/-! DEFINITION. Loom microcode as the threading checks see it: the microword's fields and its form (R228 to R234), the
secret-taint rules (R239 to R241), and what owner words may do (R242). -/

namespace Sys2Proof.Machine

/-- Bits `lo` up to `lo + n - 1` of a microword. -/
def mw (w : Microword) (lo n : Nat) : Nat := (w.toNat >>> lo) % 2 ^ n

def mwSeq (w : Microword) : Nat := mw w 157 3
def mwTarget (w : Microword) : Nat := mw w 145 12
def mwCond (w : Microword) : Nat := mw w 140 5
def mwSense (w : Microword) : Bool := mw w 139 1 == 1
def mwLaneClass (w : Microword) : Nat := mw w 136 3
def mwLaneOp (w : Microword) : Nat := mw w 131 5
def mwModsel (w : Microword) : Nat := mw w 127 4
def mwStoreA (w : Microword) : Nat := mw w 115 12
def mwStoreB (w : Microword) : Nat := mw w 103 12
def mwStoreW (w : Microword) : Nat := mw w 91 12
def mwStoreCtl (w : Microword) : Nat := mw w 88 3
def mwKeccak (w : Microword) : Nat := mw w 80 8
def mwSha2 (w : Microword) : Nat := mw w 72 8
def mwSampler (w : Microword) : Nat := mw w 64 8
def mwFpu (w : Microword) : Nat := mw w 56 8
def mwCounters (w : Microword) : Nat := mw w 48 8
def mwMaskctl (w : Microword) : Nat := mw w 40 8
def mwIoctl (w : Microword) : Nat := mw w 32 8
def mwImm (w : Microword) : Nat := mw w 16 16
def mwTaint (w : Microword) : Nat := mw w 8 8

/-- Operations of each LANE_OP class (R234). -/
def laneOpKnown (cls op : Nat) : Bool :=
  match cls with
  | 0 => op == 0
  | 1 => 1 ≤ op && op ≤ 8
  | 2 => 1 ≤ op && op ≤ 4
  | 3 => 1 ≤ op && op ≤ 6
  | 4 => 1 ≤ op && op ≤ 6
  | 5 => 1 ≤ op && op ≤ 3
  | 6 => 1 ≤ op && op ≤ 2
  | _ => false

/-- A microword at address `a` has the form of R229 and R230. -/
def wordForm (a : Nat) (w : Microword) : Bool :=
  mw w 0 8 == 0 && mwModsel w ≤ 6 && mwCond w ≤ 0x18
    && laneOpKnown (mwLaneClass w) (mwLaneOp w)
    && (mwLaneClass w != 3 || mwModsel w == 6)
    && (if mwKeccak w / 16 % 8 = 1 then mwKeccak w % 16 ≤ 9
        else mwKeccak w / 16 % 8 ≤ 4 && mwKeccak w % 16 == 0 && (mwKeccak w / 16 % 8 != 0 || mwKeccak w == 0))
    && (mwSha2 w % 8 == 0 && (mwSha2 w / 16 % 4 != 0 || mwSha2 w == 0))
    && (mwSampler w % 16 == 0 && mwSampler w / 16 ≤ 9)
    && (mwFpu w / 16 ≤ 8 && (mwFpu w / 16 != 0 || mwFpu w == 0))
    && (mwCounters w % 8 == 0 && mwCounters w / 8 % 8 ≤ 4 && (mwCounters w / 8 % 8 != 0 || mwCounters w == 0))
    && mwMaskctl w % 32 == 0
    && (mwIoctl w % 16 == 0 && mwIoctl w / 16 ≤ 9)
    && (mwTaint w % 16 == 0 && mwTaint w / 64 != 3)
    && (if mwSeq w = 1 ∨ mwSeq w = 3 ∨ mwSeq w = 4 ∨ mwSeq w = 5 ∨ mwSeq w = 7 then mwCond w == 0 else true)
    && ((mwSeq w == 5) == (a == 0))

/-! ### The layout of an image (R225) -/

/-- `n` pieces of `k` bytes each. -/
def pieces : Nat → Nat → Bytes → List Bytes
  | 0, _, _ => []
  | n + 1, k, bs => bs.take k :: pieces n k (bs.drop k)

/-- The parts of an image in the CONTROL section: header, dispatch table, export list padded to 8 bytes, words. -/
def imageLayout (bs : Bytes) : Option (List DispatchEntry × List Nat × List Microword) :=
  let n := leNat (slice_ bs 0 2)
  let e := leNat (slice_ bs 2 2)
  let pad := (2 * e + 7) / 8 * 8
  if bs.length == 2064 + pad + 20 * n && allZero (slice_ bs 4 12) && allZero (slice_ bs (2064 + 2 * e) (pad - 2 * e)) then
    some ((pieces 256 8 (bs.drop 16)).map (fun b => BitVec.ofNat 64 (leNat b)),
      (pieces e 2 (bs.drop 2064)).map leNat,
      (pieces n 20 (bs.drop (2064 + pad))).map fun b => BitVec.ofNat 160 (leNat b))
  else none

/-- The parts of an owner record: image index, dispatch entries 0xC0 to 0xFF, words. -/
def ownerLayout (bs : Bytes) : Option (Nat × List DispatchEntry × List Microword) :=
  let n := leNat (slice_ bs 520 2)
  if bs.length == 528 + 20 * n && allZero (slice_ bs 1 7) && allZero (slice_ bs 522 6) then
    some (leNat (slice_ bs 0 1), (pieces 64 8 (bs.drop 8)).map (fun b => BitVec.ofNat 64 (leNat b)),
      (pieces n 20 (bs.drop 528)).map fun b => BitVec.ofNat 160 (leNat b))
  else none

/-! ### Dispatch entries (R226) -/

def deStart (d : DispatchEntry) : Nat := (d.extractLsb' 0 12).toNat
def deValid (d : DispatchEntry) : Bool := d.getLsbD 17
def deRoles (d : DispatchEntry) : Nat := (d.extractLsb' 18 3).toNat
def deFootprint (d : DispatchEntry) : Nat := (d.extractLsb' 21 11).toNat
def deDepth (d : DispatchEntry) : Nat := (d.extractLsb' 32 4).toNat
def deSecret (d : DispatchEntry) : Bool := d.getLsbD 36
def deWatchdog (d : DispatchEntry) : Nat := (d.extractLsb' 37 16).toNat

/-- The entry's zero bits are zero, and a valid entry's WATCHDOG is at least 1 (R226). -/
def deForm (d : DispatchEntry) : Bool :=
  (d.extractLsb' 53 11).toNat == 0 && (d.extractLsb' 12 5).toNat == 0 && (!deValid d || 1 ≤ deWatchdog d)

/-! ### Taint (R239 to R241) -/

/-- What a path may have made secret before a word: the store words, the lane registers, the accept bit, the Keccak
cores, the SHA-2 cores, the fp registers; and the range each counter may hold. -/
structure TaintState where
  store : List Nat
  lane : Bool
  accept : Bool
  keccak : Bool × Bool
  sha2 : List Bool
  /-- The SHA-2 cores that may run SHA-512. -/
  wide : List Bool
  fpu : Bool
  counters : List (Nat × Nat)
deriving DecidableEq, Repr

def taintStart : TaintState :=
  { store := [], lane := false, accept := false, keccak := (false, false), sha2 := [false, false, false, false],
    wide := [false, false, false, false], fpu := false,
    counters := [(0, 0), (0, 0), (0, 0), (0, 0)] }

/-- The join of two states. -/
def taintJoin (a b : TaintState) : TaintState :=
  { store := a.store ++ b.store.filter (fun x => !a.store.contains x)
    lane := a.lane || b.lane
    accept := a.accept || b.accept
    keccak := (a.keccak.1 || b.keccak.1, a.keccak.2 || b.keccak.2)
    sha2 := List.zipWith (fun x y => x || y) a.sha2 b.sha2
    wide := List.zipWith (fun x y => x || y) a.wide b.wide
    fpu := a.fpu || b.fpu
    counters := List.zipWith (fun x y => (min x.1 y.1, max x.2 y.2)) a.counters b.counters }

/-- Everything secret in `b` is secret in `a`, and every counter range of `b` lies within `a`'s. -/
def taintCovers (a b : TaintState) : Bool :=
  b.store.all (fun x => a.store.contains x) && (a.lane || !b.lane) && (a.accept || !b.accept)
    && (a.keccak.1 || !b.keccak.1) && (a.keccak.2 || !b.keccak.2)
    && (List.zipWith (fun x y => x || !y) a.sha2 b.sha2).all id && (List.zipWith (fun x y => x || !y) a.wide b.wide).all id
    && (a.fpu || !b.fpu)
    && (List.zipWith (fun x y => decide (x.1 ≤ y.1) && decide (y.2 ≤ x.2)) a.counters b.counters).all id

/-- Words an access through a field can reach: the field, or the field plus every value of its counter (R240). -/
def reach (t : TaintState) (field : Nat) (indexed : Bool) (c : Nat) : Nat × Nat :=
  if indexed then
    match t.counters[c]? with
    | some r => (field + r.1, field + r.2)
    | none => (field, field)
  else (field, field)

/-- The range of `n` words from those that an access can reach. -/
def spread (r : Nat × Nat) (n : Nat) : Nat × Nat := (r.1, r.2 + (n - 1))

/-- Store words of a drawer (128 bytes), and of a cache block (1 KiB) (R204, R215, R394). -/
def drawerWords : Nat := 4
def blockWords : Nat := 32

def secretIn (t : TaintState) (r : Nat × Nat) : Bool := t.store.any fun x => decide (r.1 ≤ x) && decide (x ≤ r.2)

/-- The counter command's effect on a counter's range: a load fixes it, a decrement opens it down to 0, an increment
up to the store's 1,536 words (R204, R240). -/
def counterStep (t : TaintState) (w : Microword) : List (Nat × Nat) :=
  let c := mwCounters w / 64
  let f (r : Nat × Nat) : Nat × Nat :=
    match mwCounters w / 8 % 8 with
    | 1 => (mwImm w, mwImm w)
    | 2 => (0, r.2)
    | 3 => (r.1, max r.2 1535)
    | 4 => (0, 1535)
    | _ => r
  t.counters.modify c f

/-- One word under a taint state: `none` where the word breaks R240 or R241, otherwise the state after it. -/
def taintWord (t : TaintState) (w : Microword) : Option TaintState :=
  let ctl := mwStoreCtl w
  let ra := reach t (mwStoreA w) (ctl / 2 % 2 == 1) 0
  let rb := reach t (mwStoreB w) (ctl / 2 % 2 == 1) 1
  let rw := reach t (mwStoreW w) (ctl % 2 == 1) 2
  -- a layer of the NTT reads and writes 32 words (R197)
  let layer := mwLaneClass w == 2 && (mwLaneOp w == 1 || mwLaneOp w == 2)
  let split := mwLaneClass w == 2 && mwLaneOp w == 4
  let sa := secretIn t (if layer then spread ra 32 else ra)
  let sb := secretIn t rb
  let laneUsed := mwLaneClass w != 0
  let loadi := mwLaneClass w == 6 && mwLaneOp w == 2
  let vchk := mwLaneClass w == 4 && mwLaneOp w == 6
  let lane' := if laneUsed then (if loadi then false else sa || sb || (mwLaneClass w == 1 && (mwLaneOp w == 4 || mwLaneOp w == 7) && t.lane))
    else t.lane
  let core := mwKeccak w / 128
  let kop := mwKeccak w / 16 % 8
  let kin := if core = 0 then t.keccak.1 else t.keccak.2
  let k' := if kop = 1 then false else if kop = 2 then kin || sa else kin
  let hcore := mwSha2 w / 64
  let hop := mwSha2 w / 16 % 4
  let hin := t.sha2.getD hcore false
  -- a block is two A words and two B words (R234)
  let blockSecret := secretIn t (spread ra 2) || secretIn t (spread rb 2)
  let h' := if hop = 1 then false else if hop = 2 then hin || blockSecret else hin
  let fop := mwFpu w / 16
  let wide' := if hop = 1 then t.wide.set hcore (mwSha2 w / 8 % 2 == 1) else t.wide
  let fpu' := if fop = 7 then t.fpu || sa else t.fpu
  let io := mwIoctl w / 16
  -- the Gaussian sampler takes the fp64 unit's values, the others Keccak core 0's (R200; log entry 115)
  let smp := mwSampler w / 16
  let sampled := smp != 0 && (if smp = 9 then t.fpu else t.keccak.1)
  let wSecret := (laneUsed && !vchk && lane') || (kop == 4 && kin) || (hop == 3 && hin) || sampled || (fop == 8 && t.fpu)
    || io == 3 || io == 8
  let wEnabled := ctl / 4 == 1
  -- DEPOSIT takes a run of IMMEDIATE drawers, CACHE_WRITE a block (R234)
  let outWords := if io = 4 then drawerWords * mwImm w else if io = 6 then blockWords else 1
  let outSecret := (io == 2 || io == 4 || io == 6) && secretIn t (spread ra outWords)
  -- NORM_CHK, or a word that declares it, forms the accept bit (R203, R239)
  let decl := mwTaint w / 32 % 2 == 1
  let forms := decl || (mwLaneClass w == 4 && mwLaneOp w == 5)
  let accept' := if forms then !decl && lane' else t.accept
  let tag := mwTaint w / 64
  let laneAfter := if laneUsed && !vchk then lane' else t.lane
  let badTag := (wEnabled && wSecret && tag == 0) || (outSecret && tag != 2) || (io == 6 && outSecret)
    || (laneAfter && mwTaint w / 16 % 2 == 0)
    || (tag == 2 && !(io == 2 || io == 4))
  let badCond := (5 ≤ mwCond w && mwCond w ≤ 7 && t.lane) || (mwCond w == 8 && t.accept)
  let badCounter := mwCounters w / 8 % 8 == 4 && t.lane
  let badVchk := vchk && (sa || sb)
  if badTag || badCond || badCounter || badVchk then none
  else
    let span (r : Nat × Nat) : List Nat := (List.range (r.2 + 1 - r.1)).map fun i => r.1 + i
    -- a digest of SHA-512 fills two words, a key as many as the store has
    let words := if layer then 32 else if io = 5 then blockWords else if hop = 3 && t.wide.getD hcore false then 2
      else if io = 3 then 1536 - rw.1 else 1
    let cells := span (spread rw words) ++ (if split then span rb else [])
    let store' := if wSecret then t.store ++ cells.filter (fun x => !t.store.contains x)
      -- a public write to known words makes those words public; through a counter, or of a length not known, it only may
      else if rw.1 = rw.2 && words != 2 && io != 3 && (!split || rb.1 == rb.2) then t.store.filter (fun x => !cells.contains x)
      else t.store
    some
      { store := if wEnabled then store' else t.store
        lane := laneAfter
        accept := accept'
        keccak := if core = 0 then (k', t.keccak.2) else (t.keccak.1, k')
        sha2 := t.sha2.set hcore h'
        wide := wide'
        fpu := fpu'
        counters := counterStep t w }

/-- The words that may follow `a` under a micro-stack, with the stack then (R230). -/
def successors (a : Nat) (stack : List Nat) (w : Microword) : List (Nat × List Nat) :=
  match mwSeq w with
  | 0 => [(a + 1, stack)]
  | 1 => [(mwTarget w, stack)]
  | 2 => [(mwTarget w, stack), (a + 1, stack)]
  | 3 => if stack.length < 8 then [(mwTarget w, (a + 1) :: stack)] else []
  | 4 => match stack with | [] => [] | r :: rest => [(r, rest)]
  | 6 => [(a + 1, stack)]
  | _ => []

/-- Follows every path from the places in `work`; `seen` holds the state each place was last followed with. -/
def taintPaths (word : Nat → Option Microword) : Nat → List ((Nat × List Nat) × TaintState)
    → List ((Nat × List Nat) × TaintState) → Bool
  | 0, _, work => work.isEmpty
  | fuel + 1, seen, work =>
    match work with
    | [] => true
    | (pl, t) :: rest =>
      let old := (seen.find? fun x => x.1 == pl).map (fun x => x.2)
      let known := match old with | some o => taintCovers o t | none => false
      if known then taintPaths word fuel seen rest
      else
        let t := match old with | some o => taintJoin o t | none => t
        match word pl.1 with
        | none => taintPaths word fuel ((pl, t) :: seen) rest
        | some w =>
          match taintWord t w with
          | none => false
          | some t' =>
            taintPaths word fuel ((pl, t) :: seen.filter fun x => !(x.1 == pl))
              (((successors pl.1 pl.2 w).map fun q => (q, t')) ++ rest)

/-- Fuel above any number of visits an image can need: words × stacks × taint growth. -/
def taintFuel : Nat := 2 ^ 64

/-- Every VALID dispatch entry of an image keeps the taint rules (R240). -/
def taintImage (word : Nat → Option Microword) (entries : List DispatchEntry) : Bool :=
  entries.all fun d => !deValid d || taintPaths word taintFuel [] [((deStart d, []), taintStart)]

/-! ### Owner words (R242) -/

/-- A word that goes on to the next address, or pushes it. -/
def fallsThrough (w : Microword) : Bool := mwSeq w == 0 || mwSeq w == 2 || mwSeq w == 3 || mwSeq w == 6

/-- The transfers of an owner word at address `a` stay in the owner range or call an exported word, the last one goes on to no
next word, and it uses no DISPATCH and no ACCEPT_DECL. -/
def ownerWordOk (exports : List Nat) (a : Nat) (w : Microword) : Bool :=
  !(a == 0xFFF && fallsThrough w) && mwSeq w != 5 && mwTaint w / 32 % 2 == 0
    && (if mwSeq w = 1 ∨ mwSeq w = 2 then 0xC00 ≤ mwTarget w
        else if mwSeq w = 3 then 0xC00 ≤ mwTarget w || exports.contains (mwTarget w) else true)

/-- A Horsefort word at address `a` names no owner word, and the last one does not go on into the owner's: only RETURN
reaches them. -/
def horsefortWordOk (a : Nat) (w : Microword) : Bool :=
  (if mwSeq w = 1 ∨ mwSeq w = 2 ∨ mwSeq w = 3 then mwTarget w < 0xC00 else true)
    && !(a == 0xBFF && fallsThrough w)

end Sys2Proof.Machine
end

