-- ==== Sys2Proof/Machine/Lanes.lean ====
section
/-! DEFINITION. The loom's arithmetic: moduli, shares and their refresh, lane operations, NTT layers, samplers and the
binary64 unit (R196 to R204, R208, R234). -/

namespace Sys2Proof.Machine

/-! ### Moduli (R196) -/

/-- The modulus that MODSEL names; 6 is arithmetic modulo 2^32. -/
def laneModulus (modsel : Nat) : Nat :=
  match modsel with
  | 0 => 3329 | 1 => 3329 | 2 => 8380417 | 3 => 8380417 | 4 => 12289 | 5 => 12289 | _ => 4294967296

/-- The inverse of R = 2^32 modulo a lane modulus, for the Montgomery reductions. -/
def montgomeryInverse (q : Nat) : Nat := if q = 3329 then 1929 else if q = 8380417 then 8265825 else 11857

/-- A product under MODSEL: Montgomery for 1, 3 and 5. -/
def laneMul (modsel a b : Nat) : Nat :=
  let q := laneModulus modsel
  if modsel = 1 ∨ modsel = 3 ∨ modsel = 5 then a * b * montgomeryInverse q % q else a * b % q

def laneAdd (modsel a b : Nat) : Nat := (a + b) % laneModulus modsel
def laneSub (modsel a b : Nat) : Nat := (a + (laneModulus modsel - b % laneModulus modsel)) % laneModulus modsel

/-- A lane value as a signed number around zero. -/
def centred (q a : Nat) : Int := if 2 * (a % q) ≤ q then (a % q : Int) else (a % q : Int) - q

/-! ### Words and shares (R202 to R204) -/

/-- Eight lanes that are zero. -/
def zeroLanes : List Word := List.replicate 8 0

/-- Share `k` of a word. -/
def wordShare (w : StoreWord) (k : Nat) : List Word := w.shares.getD k zeroLanes

/-- Lane by lane. -/
def lanes2 (f : Nat → Nat → Nat) (a b : List Word) : List Word :=
  (List.range 8).map fun l => BitVec.ofNat 32 (f (a.getD l 0).toNat (b.getD l 0).toNat)

/-- The lanes a word stands for: its shares combined. The model combines them to compute; the loom does so only where
R203 lists. -/
def valueOf (w : StoreWord) : List Word :=
  match w.sharing with
  | .single => wordShare w 0
  | .arith q => w.shares.foldl (lanes2 fun a b => (a + b) % q) zeroLanes
  | .boolean => w.shares.foldl (lanes2 fun a b => a ^^^ b) zeroLanes

/-- A public word (R203). -/
def publicWord (lanes : List Word) : StoreWord := { sharing := .single, shares := [lanes] }

/-- Lanes of masks: `k` is the share they make. -/
def maskLanes (mask : Nat → Word) (k : Nat) : List Word := (List.range 8).map fun l => mask (8 * k + l)

/-- Shares of a value at masking order `order`: each but share 0 is fresh mask words (R202). -/
def maskWord (sh : Sharing) (order : Nat) (mask : Nat → Word) (lanes : List Word) : StoreWord :=
  match sh with
  | .single => publicWord lanes
  | .arith q =>
    let ms := (List.range order).map fun k => (maskLanes mask k).map fun m => BitVec.ofNat 32 (m.toNat % q)
    { sharing := sh, shares := ms.foldl (lanes2 fun a b => (a + (q - b)) % q) lanes :: ms }
  | .boolean =>
    let ms := (List.range order).map (maskLanes mask)
    { sharing := sh, shares := ms.foldl (lanes2 fun a b => a ^^^ b) lanes :: ms }

/-- New shares of the same value, mask words added to share 0 and taken from the others (R205); a public word has none. -/
def refreshWord (order : Nat) (mask : Nat → Word) (w : StoreWord) : StoreWord :=
  match w.sharing with
  | .single => w
  | .arith q =>
    let ms := (List.range order).map fun k => (maskLanes mask k).map fun m => BitVec.ofNat 32 (m.toNat % q)
    let first := ms.foldl (lanes2 fun a b => (a + b) % q) (wordShare w 0)
    { w with shares := first :: (List.range order).map fun k =>
        lanes2 (fun a b => (a + (q - b)) % q) (wordShare w (k + 1)) (ms.getD k zeroLanes) }
  | .boolean =>
    let ms := (List.range order).map (maskLanes mask)
    let first := ms.foldl (lanes2 fun a b => a ^^^ b) (wordShare w 0)
    { w with shares := first :: (List.range order).map fun k =>
        lanes2 (fun a b => a ^^^ b) (wordShare w (k + 1)) (ms.getD k zeroLanes) }

/-- The bank and row of word `w` of share `k` (R204). -/
def bankOf (order k w : Nat) : Nat × Nat :=
  if order = 2 then (4 * k + w % 4, w / 4) else (6 * k + w % 6, w / 6)

/-- Words of each share's partition (R204). -/
def storeWords (order : Nat) : Nat := if order = 2 then 1024 else 1536

/-- The passes of a lane operation or NTT layer, by shares (R198). -/
def passesOf (order : Nat) : List (List Nat) := if order = 2 then [[0, 1], [2]] else [[0, 1]]

/-- A linear operation, share by share, in the passes of the order. A public word stands in share 0 only, so it is added
to share 0 only (R203). -/
def shareWise (sh : Sharing) (order : Nat) (f : Nat → Nat → Nat) (a b : StoreWord) : StoreWord :=
  { sharing := sh, shares := (passesOf order).flatMap fun p => p.map fun k => lanes2 f (wordShare a k) (wordShare b k) }

/-- A public factor multiplies each share (R203). -/
def shareTimes (sh : Sharing) (order : Nat) (f : Nat → Nat → Nat) (a b : StoreWord) : StoreWord :=
  { sharing := sh, shares := (passesOf order).flatMap fun p => p.map fun k => lanes2 f (wordShare a k) (wordShare b 0) }

def isMasked (w : StoreWord) : Bool := !(w.sharing == .single)

/-- A result of an operation on values: public where its operands are, else masked afresh (R202). -/
def freshResult (sh : Sharing) (order : Nat) (mask : Nat → Word) (masked : Bool) (lanes : List Word) : StoreWord :=
  if masked then maskWord sh order mask lanes else publicWord lanes

/-! ### Lane operations (R196, R234) -/

/-- What a lane operation reads: IMMEDIATE, the order, the mask words, and the A, B and lane-register words. -/
structure LaneArgs where
  modsel : Nat
  imm : Nat
  order : Nat
  mask : Nat → Word
  a : StoreWord
  b : StoreWord
  acc : StoreWord

/-- The sharing of an arithmetic result. -/
def arithSharing (x : LaneArgs) : Sharing := .arith (laneModulus x.modsel)

/-- Both operands are shared as the operation takes them, or public. -/
def agrees (sh : Sharing) (w : StoreWord) : Bool := w.sharing == .single || w.sharing == sh

/-- The result of lanes whose operands are shared in another form than the operation's: not stated (log entry 115). -/
def openLanes (cls op : Nat) (x : LaneArgs) : List Word :=
  (List.range 8).map fun l => Config.laneValue cls op x.imm (valueOf x.a) (valueOf x.b) l

/-- A linear arithmetic or Boolean operation on A and B. -/
def linearOp (cls op : Nat) (sh : Sharing) (f : Nat → Nat → Nat) (x : LaneArgs) : StoreWord :=
  let masked := isMasked x.a || isMasked x.b
  if agrees sh x.a && agrees sh x.b then
    if masked then shareWise sh x.order f x.a x.b else publicWord (lanes2 f (wordShare x.a 0) (wordShare x.b 0))
  else freshResult sh x.order x.mask masked (openLanes cls op x)

/-- The same on A alone. -/
def unaryOp (cls op : Nat) (sh : Sharing) (f : Nat → Nat) (x : LaneArgs) : StoreWord :=
  linearOp cls op sh (fun a _ => f a) { x with b := publicWord zeroLanes }

/-- A product: by a public word share by share, else of the values, masked afresh. -/
def productOf (x : LaneArgs) : StoreWord :=
  let sh := arithSharing x
  let f := laneMul x.modsel
  if agrees sh x.a && agrees sh x.b then
    match isMasked x.a, isMasked x.b with
    | false, false => publicWord (lanes2 f (wordShare x.a 0) (wordShare x.b 0))
    | true, false => shareTimes sh x.order f x.a x.b
    | false, true => shareTimes sh x.order f x.b x.a
    | true, true => maskWord sh x.order x.mask (lanes2 f (valueOf x.a) (valueOf x.b))
  else freshResult sh x.order x.mask (isMasked x.a || isMasked x.b) (openLanes 1 3 x)

/-- Class 1, arithmetic. CSEL takes B where the lane's bit in A is 1 and the lane register where it is 0 (log entry
115). -/
def arithOp (op : Nat) (x : LaneArgs) : StoreWord :=
  let sh := arithSharing x
  match op with
  | 1 => linearOp 1 1 sh (laneAdd x.modsel) x
  | 2 => linearOp 1 2 sh (laneSub x.modsel) x
  | 3 => productOf x
  | 4 => linearOp 1 4 sh (laneAdd x.modsel) { x with a := x.acc, b := productOf x }
  | 5 => unaryOp 1 5 sh (fun a => laneSub x.modsel 0 a) x
  | 6 => unaryOp 1 6 sh (fun a => laneMul x.modsel a x.imm) x
  | 7 =>
    let pick := (List.range 8).map fun l =>
      if ((valueOf x.a).getD l 0).getLsbD 0 then (valueOf x.b).getD l 0 else (valueOf x.acc).getD l 0
    freshResult sh x.order x.mask (isMasked x.a || isMasked x.b || isMasked x.acc) pick
  | _ => unaryOp 1 8 sh (fun a => a % laneModulus x.modsel) x

/-- Class 3, Boolean: XOR and the shifts share by share, AND and OR on values. -/
def booleanOp (op : Nat) (x : LaneArgs) : StoreWord :=
  let n := x.imm % 32
  let masked := isMasked x.a || isMasked x.b
  match op with
  | 1 => freshResult .boolean x.order x.mask masked (lanes2 (fun a b => a &&& b) (valueOf x.a) (valueOf x.b))
  | 2 => freshResult .boolean x.order x.mask masked (lanes2 (fun a b => a ||| b) (valueOf x.a) (valueOf x.b))
  | 3 => linearOp 3 3 .boolean (fun a b => a ^^^ b) x
  | 4 => unaryOp 3 4 .boolean (fun a => a <<< n) x
  | 5 => unaryOp 3 5 .boolean (fun a => a >>> n) x
  | _ => unaryOp 3 6 .boolean (fun a => a <<< n ||| (a % 4294967296) >>> (32 - n)) x

/-- COMPRESS and DECOMPRESS to `d` bits, as ML-KEM's standard defines them, rounding halves up. -/
def compressTo (q d a : Nat) : Nat := (2 * 2 ^ d * (a % q) + q) / (2 * q) % 2 ^ d
def decompressFrom (q d a : Nat) : Nat := (2 * q * (a % 2 ^ d) + 2 ^ d) / (2 * 2 ^ d)

/-- Class 4, rounding, on the values of A. NORM_CHK answers 1 in a lane whose magnitude reaches the bound, VCHK the
difference; what of POWER2ROUND and DECOMPOSE a lane keeps is not stated (log entry 115). -/
def roundingOp (op : Nat) (x : LaneArgs) : StoreWord :=
  let q := laneModulus x.modsel
  let v := valueOf x.a
  let fresh := freshResult (arithSharing x) x.order x.mask (isMasked x.a)
  match op with
  | 1 => fresh (lanes2 (fun a _ => compressTo q (x.imm % 16) a) v v)
  | 2 => fresh (lanes2 (fun a _ => decompressFrom q (x.imm % 16) a) v v)
  | 5 => fresh (lanes2 (fun a _ => if (centred q a).natAbs < x.imm then 0 else 1) v v)
  | 6 => publicWord (lanes2 (fun a b => a ^^^ b) (wordShare x.a 0) (wordShare x.b 0))
  | _ => fresh (openLanes 4 op x)

/-- Moduli the converters take (R208). -/
def converts (modsel : Nat) : Bool := decide (modsel < 4) || decide (modsel = 6)

/-- Class 5: A2B, B2A and REFRESH of A. -/
def convertOp (op : Nat) (x : LaneArgs) : StoreWord :=
  let q := laneModulus x.modsel
  if op = 3 then refreshWord x.order x.mask x.a
  else if !converts x.modsel then freshResult .boolean x.order x.mask (isMasked x.a) (openLanes 5 op x)
  else if op = 1 then freshResult .boolean x.order x.mask (isMasked x.a) (valueOf x.a)
  else freshResult (.arith q) x.order x.mask (isMasked x.a) ((valueOf x.a).map fun w => BitVec.ofNat 32 (w.toNat % q))

/-- The product of two degree-1 polynomials modulo X^2 - g, lane pairs at a time (R197, R234); `block` numbers the word's
first pair (log entry 115). -/
def basemulLanes (modsel layer block : Nat) (a b : List Word) : List Word :=
  (List.range 8).map fun l =>
    let k := l / 2
    let at_ (v : List Word) (j : Nat) : Nat := (v.getD j 0).toNat
    let m := laneMul modsel
    BitVec.ofNat 32 (if l % 2 = 0 then
        laneAdd modsel (m (at_ a (2 * k)) (at_ b (2 * k)))
          (m (m (at_ a (2 * k + 1)) (at_ b (2 * k + 1))) (Config.zeta (laneModulus modsel) (8 + layer) (block + k)))
      else laneAdd modsel (m (at_ a (2 * k)) (at_ b (2 * k + 1))) (m (at_ a (2 * k + 1)) (at_ b (2 * k))))

/-- The factor of a SPLIT's butterflies: the layer is IMMEDIATE[2:0], the block of the polynomial the bits above it (log
entry 115). -/
def splitZeta (x : LaneArgs) : Nat := Config.zeta (laneModulus x.modsel) (x.imm % 8) (x.imm / 8)

/-- The one-word operations of class 2: BASEMUL, and the sum half of a SPLIT's butterflies (log entry 115). -/
def transformWord (op : Nat) (x : LaneArgs) : StoreWord :=
  let layer := x.imm % 8
  let masked := isMasked x.a || isMasked x.b
  if op = 3 then freshResult (arithSharing x) x.order x.mask masked 
    (basemulLanes x.modsel layer (4 * (x.imm / 8)) (valueOf x.a) (valueOf x.b))
  else
    linearOp 2 4 (arithSharing x)
      (fun a b => laneAdd x.modsel a (laneMul x.modsel b (splitZeta x))) x

/-- The difference half of a SPLIT's butterflies, which replaces the B word (log entry 115). -/
def splitDifference (x : LaneArgs) : StoreWord :=
  linearOp 2 4 (arithSharing x)
    (fun a b => laneSub x.modsel a (laneMul x.modsel b (splitZeta x))) x

/-- The result of a word's lane operation, layers of the NTT apart. -/
def laneResult (cls op : Nat) (x : LaneArgs) : StoreWord :=
  match cls with
  | 1 => arithOp op x
  | 2 => transformWord op x
  | 3 => booleanOp op x
  | 4 => roundingOp op x
  | 5 => convertOp op x
  | _ => if op = 1 then x.a else publicWord (List.replicate 8 (BitVec.ofNat 32 x.imm))

/-! ### NTT layers (R197) -/

/-- A permutation of the 16 groups of eight butterflies, from mask words: at each place one of those left. -/
def groupOrder : Nat → (Nat → Word) → List Nat → List Nat
  | 0, _, _ => []
  | n + 1, mask, l =>
    match l[(mask n).toNat % l.length]? with
    | none => l
    | some g => g :: groupOrder n mask (l.erase g)

/-- One butterfly of a layer on the 256 coefficients of a share: forward, (a + z b, a - z b); inverse, (a + b, z (b - a)).
A layer's butterflies span 128, 64, ... coefficients. -/
def butterfly (modsel : Nat) (inverse : Bool) (layer k : Nat) (c : List Word) : List Word :=
  let len := 128 / 2 ^ layer
  let j := k / max len 1 * (2 * len) + k % max len 1
  let z := Config.zeta (laneModulus modsel) layer (k / max len 1)
  let a := (c.getD j 0).toNat
  let b := (c.getD (j + len) 0).toNat
  let put (x y : Nat) : List Word := (c.set j (BitVec.ofNat 32 x)).set (j + len) (BitVec.ofNat 32 y)
  if inverse then put (laneAdd modsel a b) (laneMul modsel (laneSub modsel b a) z)
  else put (laneAdd modsel a (laneMul modsel b z)) (laneSub modsel a (laneMul modsel b z))

/-- A layer of one share, its groups in the order given. -/
def nttLayer (modsel : Nat) (inverse : Bool) (layer : Nat) (order : List Nat) (c : List Word) : List Word :=
  order.foldl (fun c g => (List.range 8).foldl (fun c k => butterfly modsel inverse layer (8 * g + k) c) c) c

/-- A layer on the 32 words of a polynomial: share by share, in the passes of the order (R198). -/
def nttWords (order modsel : Nat) (inverse : Bool) (layer : Nat) (groups : List Nat) (ws : List StoreWord) : List StoreWord :=
  let masked := ws.any isMasked
  let share (k : Nat) : List Word := nttLayer modsel inverse layer groups (ws.flatMap fun w => wordShare w k)
  let shares := if masked then (passesOf order).flatMap fun p => p.map share else [share 0]
  (List.range 32).map fun w =>
    { sharing := if masked then .arith (laneModulus modsel) else .single
      shares := shares.map fun c => (c.drop (8 * w)).take 8 }

/-! ### Samplers (R200) -/

/-- Bit `i` of a byte string, least significant first. -/
def streamBit (bs : Bytes) (i : Nat) : Nat := bit ((bs.getD (i / 8) 0).getLsbD (i % 8))

/-- Candidates of the uniform samplers: 12 bits each, two from three bytes, or 23 bits from three bytes. -/
def candidates (wide : Bool) : Bytes → List Nat
  | a :: b :: c :: rest =>
    let (x, y, z) := (a.toNat, b.toNat, c.toNat)
    (if wide then [x + 256 * y + 65536 * (z % 128)] else [x + 256 * (y % 16), y / 16 + 16 * z]) ++ candidates wide rest
  | _ => []

/-- Candidates of the bounded samplers, from half bytes: residues around zero (R200). -/
def boundedOf (eta q n : Nat) : Option Nat :=
  if eta = 2 then (if n < 15 then some ((q + 2 - n % 5) % q) else none) else if n < 9 then some ((q + 4 - n) % q) else none

/-- A centred binomial coefficient from `2 η` bits. -/
def binomialAt (eta q : Nat) (bs : Bytes) (i : Nat) : Nat :=
  let ones (lo : Nat) : Nat := ((List.range eta).map fun k => streamBit bs (lo + k)).sum
  (q + ones (2 * eta * i) - ones (2 * eta * i + eta)) % q

/-- The coefficients that a sampler accepts from the bytes it has drawn; kinds 7 to 9 answer a word at once. -/
def accepted (kind : Nat) (bs : Bytes) : List Nat :=
  match kind with
  | 1 => (candidates false bs).filter fun x => decide (x < 3329)
  | 2 => (candidates true bs).filter fun x => decide (x < 8380417)
  | 3 => (List.range (min 8 (2 * bs.length))).map (binomialAt 2 3329 bs)
  | 4 => (List.range (min 8 (8 * bs.length / 6))).map (binomialAt 3 3329 bs)
  | 5 => (bs.flatMap fun b => [b.toNat % 16, b.toNat / 16]).filterMap (boundedOf 2 8380417)
  | 6 => (bs.flatMap fun b => [b.toNat % 16, b.toNat / 16]).filterMap (boundedOf 4 8380417)
  | _ => (List.range 8).map fun l => (Config.sampled kind bs l).toNat

/-- The modulus of a sampler's output. -/
def sampleModulus (kind : Nat) : Nat := if kind = 1 ∨ kind = 3 ∨ kind = 4 then 3329 else if kind = 9 then 12289 else 8380417

/-- A sampler's call: a fixed number of blocks, and one more at a time only while the accepted fall short of eight
(R200). `block k` is Keccak block `k` of the stream. Answers the word and the blocks drawn. -/
def sampleWord : Nat → Nat → (Nat → Bytes) → Nat → List Word × Nat
  | 0, _, _, n => (zeroLanes, n)
  | fuel + 1, kind, block, n =>
    let got := accepted kind ((List.range n).flatMap block)
    if 8 ≤ got.length then ((got.take 8).map (BitVec.ofNat 32), n) else sampleWord fuel kind block (n + 1)

/-! ### binary64 (R201) -/

/-- A binary64 operand: a number, an infinity by its sign, or a NaN. -/
inductive FpValue where
  | number (neg : Bool) (x : Rat)
  | infinite (neg : Bool)
  | nan
deriving DecidableEq

def fpClass (x : BitVec 64) : FpValue :=
  let e := (x.extractLsb' 52 11).toNat
  let f := (x.extractLsb' 0 52).toNat
  let neg := x.getLsbD 63
  let mag : Rat := if e = 0 then (f : Rat) / 2 ^ 1074 else (2 ^ 52 + f : Rat) * 2 ^ e / 2 ^ 1075
  if e = 2047 then (if f = 0 then .infinite neg else .nan) else .number neg (if neg then -mag else mag)

/-- A quotient of naturals rounded to the nearest, halves to the even. -/
def roundEven (n d : Nat) : Nat :=
  let q := n / d
  let r := n % d
  if 2 * r < d then q else if d < 2 * r then q + 1 else q + q % 2

/-- The binary64 of a sign and a magnitude `n / d`, rounded to nearest-even: subnormals below 2^-1022, an infinity above
the largest number. -/
def fpRound (neg : Bool) (n d : Nat) : BitVec 64 :=
  -- the exponent of the leading bit, at least -1022
  let lead : Int := if n = 0 then -1022 else (Nat.log2 (n * 2 ^ 1100 / d) : Int) - 1100
  let e : Int := max (-1022) lead
  -- the significand in units of 2^(e - 52)
  let s := 52 - e
  let m := if 0 ≤ s then roundEven (n * 2 ^ s.toNat) d else roundEven n (d * 2 ^ (-s).toNat)
  let (m, e) := if 2 ^ 53 ≤ m then (m / 2, e + 1) else (m, e)
  let bits : Nat := if m < 2 ^ 52 then m else if 1023 < e then 2047 * 2 ^ 52 else (e + 1023).toNat * 2 ^ 52 + (m - 2 ^ 52)
  BitVec.ofNat 64 ((if neg then 2 ^ 63 else 0) + bits)

def fpOfRat (neg0 : Bool) (r : Rat) : BitVec 64 := fpRound (if r = 0 then neg0 else decide (r < 0)) r.num.natAbs r.den

/-- The square root of a rational, rounded: its integer root at 2^-1200 with a sticky bit below. -/
def fpSqrtOf (r : Rat) : BitVec 64 :=
  let x := r.num.natAbs * 2 ^ 2400 / r.den
  let root := Nat.sqrt x
  let exact := root * root == x && r.num.natAbs * 2 ^ 2400 % r.den == 0
  fpRound false (2 * root + bit (!exact)) (2 ^ 1201)

/-- A quiet NaN; its sign and payload are not stated. -/
def fpNan (op : Nat) (a b : BitVec 64) : BitVec 64 := Config.notNumber op a b ||| 0x7FF8000000000000

def fpInf (neg : Bool) : BitVec 64 := if neg then 0xFFF0000000000000 else 0x7FF0000000000000

def fpNeg (a : BitVec 64) : BitVec 64 := a ^^^ 0x8000000000000000

/-- A sum; a zero sum of operands of both signs is +0. -/
def fpAdd (a b : BitVec 64) : BitVec 64 :=
  match fpClass a, fpClass b with
  | .number p x, .number q y => fpOfRat (p && q) (x + y)
  | .infinite p, .infinite q => if p == q then a else fpNan 1 a b
  | .infinite _, .number _ _ => a
  | .number _ _, .infinite _ => b
  | _, _ => fpNan 1 a b

/-- A product plus an addend, rounded once. -/
def fpFma (a b c : BitVec 64) : BitVec 64 :=
  let sum (neg : Bool) : BitVec 64 :=
    match fpClass c with
    | .infinite r => if r == neg then c else fpNan 4 a b
    | .number _ _ => fpInf neg
    | .nan => fpNan 4 a b
  match fpClass a, fpClass b with
  | .number p x, .number q y =>
    match fpClass c with
    | .number r z => fpOfRat ((p != q) && r) (x * y + z)
    | .infinite _ => c
    | .nan => fpNan 4 a b
  | .infinite p, .infinite q => sum (p != q)
  | .infinite p, .number q y => if y = 0 then fpNan 4 a b else sum (p != q)
  | .number p x, .infinite q => if x = 0 then fpNan 4 a b else sum (p != q)
  | _, _ => fpNan 4 a b

def fpMul (a b : BitVec 64) : BitVec 64 :=
  match fpClass a, fpClass b with
  | .number p x, .number q y => fpOfRat (p != q) (x * y)
  | .infinite p, .infinite q => fpInf (p != q)
  | .infinite p, .number q y => if y = 0 then fpNan 3 a b else fpInf (p != q)
  | .number p x, .infinite q => if x = 0 then fpNan 3 a b else fpInf (p != q)
  | _, _ => fpNan 3 a b

def fpDiv (a b : BitVec 64) : BitVec 64 :=
  match fpClass a, fpClass b with
  | .number p x, .number q y =>
    if y = 0 then (if x = 0 then fpNan 5 a b else fpInf (p != q)) else fpOfRat (p != q) (x / y)
  | .infinite p, .number q _ => fpInf (p != q)
  | .number p _, .infinite q => fpOfRat (p != q) 0
  | _, _ => fpNan 5 a b

/-- The square root of -0 is -0. -/
def fpSqrt (a : BitVec 64) : BitVec 64 :=
  match fpClass a with
  | .number _ x => if x < 0 then fpNan 6 a a else if x = 0 then a else fpSqrtOf x
  | .infinite false => a
  | _ => fpNan 6 a a

/-- An operation of the fp64 unit on values: 1 ADD, 2 SUB, 3 MUL, 4 FMA (with the destination as addend), 5 DIV, 6 SQRT
(R201, R234). -/
def fpOp (op : Nat) (a b c : BitVec 64) : BitVec 64 :=
  match op with
  | 1 => fpAdd a b
  | 2 => fpAdd a (fpNeg b)
  | 3 => fpMul a b
  | 4 => fpFma a b c
  | 5 => fpDiv a b
  | _ => fpSqrt a

/-- A 64-bit integer as a binary64, and back, to the nearest integer, halves to the even. -/
def fpOfInt (x : BitVec 64) : BitVec 64 := fpOfRat false (x.toInt : Rat)

def fpToInt (x : BitVec 64) : BitVec 64 :=
  match fpClass x with
  | .number _ r =>
    let n := roundEven r.num.natAbs r.den
    if (if r < 0 then n ≤ 2 ^ 63 else n < 2 ^ 63) then BitVec.ofInt 64 (if r < 0 then -(n : Int) else n)
    else Config.notNumber 8 x x
  | _ => Config.notNumber 8 x x

/-- The value an fp register stands for: the sum of its shares. -/
def fpValue (shares : List (BitVec 64)) : BitVec 64 :=
  match shares with
  | [] => 0
  | x :: rest => rest.foldl (fun a b => fpOp 1 a b 0) x

/-- Shares whose sum is a value to within rounding: masks, and the value less the masks (R201). -/
def fpShares (order : Nat) (mask : Nat → Word) (v : BitVec 64) : List (BitVec 64) :=
  let ms := (List.range order).map fun k => fpOfInt ((mask (2 * k) ++ mask (2 * k + 1)).sshiftRight 12)
  ms.foldl (fun a m => fpOp 2 a m 0) v :: ms

/-- Latencies of the fp64 unit (R201). -/
def fpLatency (op : Nat) : Nat :=
  match op with
  | 4 => 5 | 5 => 28 | 6 => 28 | 7 => 3 | 8 => 3 | _ => 4

/-- Divide and square root issue at most once per 28 cycles (R201). -/
def isDivide (op : Nat) : Bool := op == 5 || op == 6

end Sys2Proof.Machine
end

