-- ==== Sys2Proof/Machine/Loom.lean ====
section
/-! DEFINITION. One cycle of a loom: the sequencer, the store with its refresh and clear, the hash cores, and the transfers
of IOCTL (R195 to R212, R224 to R237). -/

namespace Sys2Proof.Machine

/-! ### The store (R204, R205) -/

/-- A word that a cleared store holds. -/
def blankWord (w : StoreWord) : Bool := w.sharing == .single && w.shares.all fun l => l.all fun x => x == 0

/-- The word at an address. -/
def storeRead (st : List (Nat × StoreWord)) (a : Nat) : StoreWord :=
  match st.find? fun e => e.1 == a with
  | some e => e.2
  | none => {}

/-- Writes a word; addresses stay ascending, and a blank word is not listed. -/
def storeWrite (a : Nat) (w : StoreWord) : List (Nat × StoreWord) → List (Nat × StoreWord)
  | [] => if blankWord w then [] else [(a, w)]
  | e :: rest =>
    if e.1 < a then e :: storeWrite a w rest
    else
      let more := if e.1 = a then rest else e :: rest
      if blankWord w then more else (a, w) :: more

/-- Writes words from an address on. -/
def storeFill (st : List (Nat × StoreWord)) : Nat → List StoreWord → List (Nat × StoreWord)
  | _, [] => st
  | a, w :: ws => storeFill (storeWrite a w st) (a + 1) ws

/-! ### The mask generator (R206, R207) -/

/-- What takes masks: the consumers of R206's table, and the lanes' nonlinear steps, the samplers and the cabinet port,
which the table does not list (R202, R209; log entry 113). -/
inductive MaskUser where
  | keccak (k : Fin 2) | sha2 (k : Fin 4) | a2b | b2a | refresh | fpu | shuffle | lanes | sampler | cabinet

/-- Bits a cycle that a consumer's port carries (R206). -/
def maskWidth (order : Nat) : MaskUser → Nat
  | .keccak _ => if order = 2 then 384 else 128
  | .sha2 _ => if order = 2 then 96 else 32
  | .a2b => if order = 2 then 512 else 256
  | .b2a => if order = 2 then 512 else 256
  | .refresh => if order = 2 then 128 else 64
  | .fpu => if order = 2 then 128 else 64
  | .shuffle => 4
  | _ => 32

/-- The first of a port's words among the 80 words of a cycle: no two ports meet. -/
def maskStart (order : Nat) : MaskUser → Nat
  | .keccak k => if order = 2 then 12 * k.val else 4 * k.val
  | .sha2 k => if order = 2 then 24 + 3 * k.val else 8 + k.val
  | .a2b => if order = 2 then 36 else 12
  | .b2a => if order = 2 then 52 else 20
  | .refresh => if order = 2 then 68 else 28
  | .fpu => if order = 2 then 72 else 30
  | .shuffle => if order = 2 then 76 else 32
  | .lanes => 77
  | .sampler => 78
  | .cabinet => 79

/-- The words a port carries in this cycle. -/
def maskWords (c : LoomCore) (order : Nat) (u : MaskUser) : List Word :=
  (List.range ((maskWidth order u + 31) / 32)).map fun k => Config.maskStream c.maskKey c.maskPos (maskStart order u + k)

/-- Mask word `k` of a consumer in this cycle; what it needs beyond its port's width it makes of the port's words. -/
def maskAt (c : LoomCore) (order : Nat) (u : MaskUser) (k : Nat) : Word :=
  let ws := maskWords c order u
  match ws[k]? with
  | some w => w
  | none => Config.maskExpand ws k

/-- The shuffle's four bits in the cycle that places group `15 - n` of a layer (R197, R206). -/
def shuffleMask (c : LoomCore) (order n : Nat) : Word :=
  Config.maskStream c.maskKey (c.maskPos + (15 - n)) (maskStart order .shuffle) &&& 0xF

/-! ### Words and bytes -/

/-- Lanes of 32 bytes, little-endian, and back. -/
def lanesOf (b : Bytes) : List Word := (List.range 8).map fun l => BitVec.ofNat 32 (leNat (slice_ b (4 * l) 4))
def bytesOfLanes (ws : List Word) : Bytes := ws.flatMap fun w => leBytes 4 w.toNat

/-- The words that bytes fill, 32 bytes each. -/
def wordsOf (b : Bytes) : List (List Word) := (List.range ((b.length + 31) / 32)).map fun k => lanesOf (slice_ b (32 * k) 32)

/-- The shares of a word as byte strings, `n` bytes of each; a word in arithmetic shares has no byte shares (log entry
115), and its value stands in the first. -/
def byteShares (n : Nat) (w : StoreWord) : List Bytes :=
  match w.sharing with
  | .arith _ => [(bytesOfLanes (valueOf w)).take n]
  | _ => w.shares.map fun l => (bytesOfLanes l).take n

/-- Shares joined end to end. -/
def joinShares (xs ys : List Bytes) (n m : Nat) : List Bytes :=
  (List.range (max xs.length ys.length)).map fun k => xs.getD k (zeros n) ++ ys.getD k (zeros m)

/-- The string that byte shares stand for. -/
def shareBytes : List Bytes → Bytes
  | [] => []
  | x :: xs => xs.foldl (fun a b => List.zipWith (fun p q => p ^^^ q) a b) x

/-! ### The hash cores (R199, R234) -/

/-- The rate of a Keccak mode in bytes. -/
def keccakRate (mode : Nat) : Nat := [144, 136, 104, 72, 168, 136, 168, 136, 168, 136].getD mode 136

/-- The function a mode computes. -/
def keccakPrim (mode : Nat) : Prim := if mode < 4 then .digest (0x11 + mode) else if mode < 6 then .digest (0x21 + (mode - 4)) else .sponge mode

/-- Bytes a core has absorbed. -/
def absorbedLen (k : KeccakCore) : Nat := (k.absorbed.getD 0 []).length

/-- `n` bytes of a core's output from byte `off`: what is absorbed, with the operand of right_encode for KMAC. -/
def keccakOut (k : KeccakCore) (off n : Nat) : Bytes :=
  let tail := match k.final with | some x => if 8 ≤ k.mode then [leBytes 4 x] else [] | none => []
  (List.range n).map fun i => Config.prim (keccakPrim k.mode) (shareBytes k.absorbed :: tail) (off + i)

/-- A core's command on an A word; answers the core, the permutations it starts, and the lanes a SQUEEZE gives. -/
def keccakStep (op mode imm : Nat) (a : StoreWord) (k : KeccakCore) : KeccakCore × Nat × Option (List Word) :=
  let rate := keccakRate k.mode
  match op with
  | 1 => ({ mode := mode }, 0, none)
  | 2 =>
    let n := min imm 32
    let k' := { k with
      secret := k.secret || isMasked a
      absorbed := joinShares k.absorbed (byteShares n a) (absorbedLen k) n }
    (k', (absorbedLen k + n) / rate - absorbedLen k / rate, none)
  | 3 => ({ k with final := some imm }, 1, none)
  | 4 =>
    ({ k with squeezed := k.squeezed + 32 }, (k.squeezed + 32) / rate - k.squeezed / rate, some (lanesOf (keccakOut k k.squeezed 32)))
  | _ => (k, 0, none)

/-- A SHA-2 core's block: two A words and two B words for SHA-512, the two A words for SHA-256 (log entry 115). -/
def sha2Absorb (ws : List StoreWord) (k : Sha2Core) : Sha2Core :=
  let used := if k.wide then ws else ws.take 2
  { k with
    secret := k.secret || used.any isMasked
    blocks := used.foldl (fun acc w => joinShares acc (byteShares 32 w) (acc.getD 0 []).length 32) k.blocks }

/-- The words of a SHA-2 core's digest. -/
def sha2Digest (k : Sha2Core) : List (List Word) := wordsOf (primBytes (.sha2 k.wide) [shareBytes k.blocks] (if k.wide then 64 else 32))

/-! ### What a word reaches (R234, R237) -/

/-- What the sequencer sees of its item, its bench and its surroundings. -/
structure LoomContext where
  order : Nat
  item : Nat
  entry : Entry
  key : Bytes
  /-- The entry that the item's key hit. -/
  cached : Option CacheEntry
  footprint : Nat
  watchdog : Nat
  word : Nat → Microword
  /-- The input, and how much of it the shuttle can have delivered by now (R209). -/
  inputAt : Nat → Byte
  reachable : Nat
  /-- The current output buffer is free (R210). -/
  outputFree : Bool
  /-- The cabinet has drawers for the deposit. -/
  room : Bool
  /-- The output is a signature, which the verify pass has read back (R210, R218). -/
  signs : Bool
  /-- The trestle's part has its result (R181, R234). -/
  trestleDone : Bool

/-- Effective addresses: field plus counter where STORE_CTL indexes (R234). -/
def addrA (c : LoomCore) (w : Microword) : Nat := mwStoreA w + if mwStoreCtl w / 2 % 2 = 1 then c.counters[0].toNat else 0
def addrB (c : LoomCore) (w : Microword) : Nat := mwStoreB w + if mwStoreCtl w / 2 % 2 = 1 then c.counters[1].toNat else 0
def addrW (c : LoomCore) (w : Microword) : Nat := mwStoreW w + if mwStoreCtl w % 2 = 1 then c.counters[2].toNat else 0

def laneOf (w : Microword) : Nat × Nat := (mwLaneClass w, mwLaneOp w)
def keccakOp (w : Microword) : Nat := mwKeccak w / 16 % 8
def sha2Op (w : Microword) : Nat := mwSha2 w / 16 % 4
def ioOp (w : Microword) : Nat := mwIoctl w / 16
def isLayer (w : Microword) : Bool := mwLaneClass w == 2 && (mwLaneOp w == 1 || mwLaneOp w == 2)

/-- Words read through port A, through port B, and written through port W. -/
def readsA (w : Microword) : Nat :=
  if isLayer w then 32
  else if ioOp w = 4 then drawerWords * mwImm w
  else if ioOp w = 6 then blockWords
  else if sha2Op w = 2 then 2
  else if (mwLaneClass w != 0 && laneOf w != (6, 2)) || keccakOp w == 2 || ioOp w == 2 || mwFpu w / 16 == 7 then 1 else 0

def readsB (w : Microword) : Nat :=
  if sha2Op w = 2 then 2
  else if [(1, 1), (1, 2), (1, 3), (1, 4), (1, 7), (2, 3), (2, 4), (3, 1), (3, 2), (3, 3), (4, 6)].contains (laneOf w) then 1 else 0

/-- Port W is enabled (R234). -/
def wEnabled (w : Microword) : Bool := mwStoreCtl w / 4 == 1

def writesW (x : LoomContext) (c : LoomCore) (w : Microword) : Nat :=
  if !wEnabled w then 0
  else if isLayer w then 32
  else if ioOp w = 3 then (x.key.length + 31) / 32
  else if ioOp w = 5 then blockWords
  else if sha2Op w = 3 ∧ (c.sha2.toList.getD (mwSha2 w / 64) {}).wide then 2 else 1

/-- A SPLIT replaces its B word too (log entry 115). -/
def writesB (w : Microword) : Nat := if laneOf w == (2, 4) && wEnabled w then 1 else 0

/-- The address after the last one the word uses: at or above FOOTPRINT is a routine error (R237). -/
def reachesTo (x : LoomContext) (c : LoomCore) (w : Microword) : Nat :=
  let top (a n : Nat) : Nat := if n = 0 then 0 else a + n
  max (top (addrA c w) (readsA w)) (max (top (addrB c w) (readsB w)) (top (addrW c w) (writesW x c w)))

/-! ### Stalls (R232) -/

/-- The units a word needs free. The fp64 unit and the converters take an operation each cycle, but for divide and square
root (R201, R208). -/
def unitsOf (w : Microword) : List LoomUnit :=
  (if mwLaneClass w != 0 then [.lanes] else [])
    ++ (if keccakOp w != 0 then [.keccak ⟨mwKeccak w / 128 % 2, by omega⟩] else [])
    ++ (if sha2Op w != 0 then [.sha2 ⟨mwSha2 w / 64 % 4, by omega⟩] else [])
    ++ (if mwSampler w / 16 != 0 then [.sampler] else [])
    ++ (if isDivide (mwFpu w / 16) then [.divider] else [])

def unitBusy (c : LoomCore) (u : LoomUnit) : Bool := c.busy.any fun b => b.1 == u

/-- A write under way meets the `n` words from `a`. -/
def writePending (c : LoomCore) (a n : Nat) : Bool :=
  c.writes.any fun v => decide (v.1 < a + n) && decide (a < v.1 + v.2.1) && decide (0 < n)

/-- The input bytes that the next READ_INPUT takes have not all been delivered. -/
def inputShort (x : LoomContext) (c : LoomCore) : Bool := decide (c.delivered < min (c.consumed + 32) (inputLen x.entry))

/-- The word waits: for a busy unit, for the clear, for a pending write, for input, or for the output buffer. -/
def stalls (x : LoomContext) (c : LoomCore) (w : Microword) : Bool :=
  (unitsOf w).any (unitBusy c)
    || (decide (0 < c.clearing) && decide (0 < writesW x c w + writesB w))
    || writePending c (addrA c w) (readsA w) || writePending c (addrB c w) (readsB w)
    || (ioOp w == 1 && inputShort x c)
    || (ioOp w == 2 && !x.outputFree)

/-! ### Conditions (R231) -/

/-- The condition of a code; those on lanes look at the results of the previous word. -/
def condition (x : LoomContext) (c : LoomCore) (w : Microword) : Bool :=
  let lane := valueOf c.previous
  match mwCond w with
  | 0x00 => true
  | 0x01 => c.counters[0] == 0
  | 0x02 => c.counters[1] == 0
  | 0x03 => c.counters[2] == 0
  | 0x04 => c.counters[3] == 0
  | 0x05 => lane.getD 0 0 == 0
  | 0x06 => (lane.getD 0 0).getLsbD 31
  | 0x07 => lane.any fun l => l == 0
  | 0x08 => c.accept
  | 0x09 => c.verifyOk
  | 0x0A => setOf x.entry == mwImm w % 256
  | 0x0B => opOf x.entry == mwImm w % 256
  | 0x0C => depositFlag x.entry
  | 0x0D => x.cached.isSome
  | 0x0E => decide (c.consumed < inputLen x.entry) && !inputShort x c
  | 0x0F => x.outputFree
  | 0x10 => !unitBusy c (.keccak 0)
  | 0x11 => !unitBusy c (.keccak 1)
  | 0x12 => !((List.range 4).any fun k => c.busy.any fun b => match b.1 with | .sha2 j => j.val == k | _ => false)
  | 0x13 => !unitBusy c .sampler
  | 0x14 => !unitBusy c .fpu
  | 0x15 => c.deposit.isNone || x.room
  | 0x16 => c.clearing == 0
  | 0x17 => c.trestleOn && x.trestleDone
  | _ => decide (inputLen x.entry ≤ c.consumed)

/-- COND XOR COND_SENSE. A BRANCH looks at counters and flags as they stand before its own word acts, a WAIT after (DESIGN
CHOICE, log entry 174). -/
def taken (x : LoomContext) (c : LoomCore) (w : Microword) : Bool := condition x c w != mwSense w

/-! ### Effects of a word -/

/-- What a unit writes through W: masked or single-share as MASKCTL says. A masked result that MASKCTL calls public is not
unmasked; what is written is not stated (R203, log entry 115). -/
def forStore (x : LoomContext) (c : LoomCore) (w : Microword) (sh : Sharing) (r : StoreWord) : StoreWord :=
  if mwMaskctl w / 32 % 2 = 1 then
    if isMasked r then r else maskWord sh x.order (maskAt c x.order .lanes) (wordShare r 0)
  else if isMasked r then
    publicWord ((List.range 8).map fun l => Config.laneValue 7 x.item c.cycles (wordShare r 0) (wordShare r 1) l)
  else r

/-- Keeps a unit busy for `n` cycles from this one. -/
def makeBusy (u : LoomUnit) (n : Nat) (c : LoomCore) : LoomCore := if n = 0 then c else { c with busy := c.busy ++ [(u, n)] }

/-- `n` words from `a` are written `lat` cycles from now. -/
def makeWrite (a n lat : Nat) (c : LoomCore) : LoomCore :=
  if n = 0 ∨ lat = 0 then c else { c with writes := c.writes ++ [(a, n, lat)] }

/-- A layer goes on with the pass under way, or fills the pipeline anew (R197). -/
def continues (c : LoomCore) (w : Microword) : Bool :=
  c.pass == some (mwLaneOp w == 2, addrA c w) && !(mwLaneOp w == 1 && mwImm w % 8 == 0)

/-- Cycles that a lane command occupies the lanes: a pass for each share or pair (R198), 16 for a layer of a pass and ten
to fill its pipeline (R197). -/
def laneCycles (order : Nat) (c : LoomCore) (w : Microword) : Nat :=
  if isLayer w then 16 * order + (if continues c w then 0 else 10) else order

/-- Cycles until a lane command's result is written: a converter's latency, or the passes (R208). -/
def laneLatency (order : Nat) (c : LoomCore) (w : Microword) : Nat :=
  if mwLaneClass w = 5 ∧ mwLaneOp w < 3 then (if order = 2 then 11 else 6) else laneCycles order c w

/-- Whose masks a lane command takes: a converter's own port, or the lanes'. -/
def laneMasks (w : Microword) : MaskUser :=
  if laneOf w == (5, 1) then .a2b else if laneOf w == (5, 2) then .b2a else .lanes

/-- Words read through a port are re-shared on the read where MASKCTL asks for it (R205); word `k` takes masks of its own. -/
def readPort (x : LoomContext) (c : LoomCore) (again : Bool) (side a n : Nat) : List StoreWord :=
  (List.range n).map fun k =>
    let w := storeRead c.store (a + k)
    if again then refreshWord x.order (fun j => maskAt c x.order .refresh (64 + 32 * (2 * k + side) + j)) w else w

def readA (x : LoomContext) (c : LoomCore) (w : Microword) (n : Nat) : List StoreWord :=
  readPort x c (mwMaskctl w / 128 == 1) 0 (addrA c w) n
def readB (x : LoomContext) (c : LoomCore) (w : Microword) (n : Nat) : List StoreWord :=
  readPort x c (mwMaskctl w / 64 % 2 == 1) 1 (addrB c w) n

/-- An NTT layer, on the 32 words from A (R197). -/
def actLayer (x : LoomContext) (w : Microword) (c : LoomCore) : LoomCore :=
  let groups := groupOrder 16 (shuffleMask c x.order) (List.range 16)
  let ws := nttWords x.order (mwModsel w) (mwLaneOp w == 2) (mwImm w % 8) groups (readA x c w 32)
  makeBusy .lanes (laneCycles x.order c w)
    { c with
      store := if wEnabled w then storeFill c.store (addrW c w) ws else c.store
      lanes := ws.getD 31 {}
      pass := some (mwLaneOp w == 2, addrA c w) }

/-- A lane operation on one word of A and B. -/
def actLaneWord (x : LoomContext) (w : Microword) (a b : StoreWord) (c : LoomCore) : LoomCore :=
  let args : LaneArgs :=
    { modsel := mwModsel w, imm := mwImm w, order := x.order, mask := maskAt c x.order (laneMasks w), a := a, b := b, acc := c.lanes }
  let r := laneResult (mwLaneClass w) (mwLaneOp w) args
  makeBusy .lanes (laneCycles x.order c w)
    { c with
      store := if writesB w = 1 then storeWrite (addrB c w) (splitDifference args) c.store else c.store
      lanes := r
      converter := if mwLaneClass w = 5 then r else c.converter
      pass := none }

/-- The lane command: its result goes to the lane registers, a converter's to the converter registers too. -/
def actLanes (x : LoomContext) (w : Microword) (a b : StoreWord) (c : LoomCore) : LoomCore :=
  if mwLaneClass w = 0 then c
  else
    let lat := laneLatency x.order c w
    let after := if isLayer w then actLayer x w c else actLaneWord x w a b c
    makeWrite (addrW c w) (writesW x c w) lat (makeWrite (addrB c w) (writesB w) lat after)

/-- VCHK (R235): equal public words after the last WRITE_OUTPUT set VERIFY_OK, unequal ones clear it until the next
dispatch. -/
def actVerify (w : Microword) (a b : StoreWord) (c : LoomCore) : LoomCore :=
  if laneOf w == (4, 6) then
    if wordShare a 0 == wordShare b 0 && !isMasked a && !isMasked b then { c with verifyOk := !c.verifyBroken }
    else { c with verifyOk := false, verifyBroken := true }
  else c

/-- ACCEPT_DECL (R241): the accept bit is public, and set where the word's lane results are all zero, as NORM_CHK leaves
them where no lane reaches its bound (DESIGN CHOICE, log entry 174: the manual gives no polarity). -/
def actAccept (w : Microword) (c : LoomCore) : LoomCore :=
  if mwTaint w / 32 % 2 = 1 then { c with accept := (valueOf c.lanes).all fun l => l == 0 } else c

/-- The Keccak command. -/
def actKeccak (x : LoomContext) (w : Microword) (a : StoreWord) (c : LoomCore) : LoomCore × Option StoreWord :=
  if keccakOp w = 0 then (c, none)
  else
    let k : Fin 2 := ⟨mwKeccak w / 128 % 2, by omega⟩
    let old := c.keccak[k.val]
    let r := keccakStep (keccakOp w) (mwKeccak w % 16) (mwImm w) a old
    let c := makeBusy (.keccak k) (24 * x.order * r.2.1) { c with keccak := c.keccak.set k.val r.1 }
    (c, r.2.2.map fun l => if old.secret then maskWord .boolean x.order (maskAt c x.order (.keccak k)) l else publicWord l)

/-- The SHA-2 command; DIGEST answers its words. -/
def actSha2 (x : LoomContext) (w : Microword) (c : LoomCore) : LoomCore × List StoreWord :=
  let k : Fin 4 := ⟨mwSha2 w / 64 % 4, by omega⟩
  let old := c.sha2[k.val]
  match sha2Op w with
  | 1 => ({ c with sha2 := c.sha2.set k.val { wide := mwSha2 w / 8 % 2 == 1 } }, [])
  | 2 =>
    let ws := readA x c w 2 ++ readB x c w 2
    (makeBusy (.sha2 k) ((if old.wide then 80 else 64) * x.order) { c with sha2 := c.sha2.set k.val (sha2Absorb ws old) }, [])
  | 3 => (c, (sha2Digest old).map fun l => if old.secret then maskWord .boolean x.order (maskAt c x.order (.sha2 k)) l else publicWord l)
  | _ => (c, [])

/-- The Gaussian sampler takes the fp registers' values and no Keccak block (R200, log entry 115). -/
def actGaussian (x : LoomContext) (w : Microword) (c : LoomCore) : LoomCore × Option StoreWord :=
  let r := (sampleWord 1 9 (fun _ => c.fp.toList.flatMap fun f => leBytes 8 (fpValue f).toNat) 1).1
  let secret := c.fp.toList.any fun f => decide (1 < f.length)
  let lat := Config.samplerBlocks 9
  (makeWrite (addrW c w) (writesW x c w) lat (makeBusy .sampler lat c),
    some (if secret then maskWord (.arith (sampleModulus 9)) x.order (maskAt c x.order .sampler) r else publicWord r))

/-- The sampler: kinds 1 to 8 draw from Keccak core 0, which permutes for each block (R200, log entry 115). -/
def actSampler (x : LoomContext) (w : Microword) (c : LoomCore) : LoomCore × Option StoreWord :=
  let kind := mwSampler w / 16
  if kind = 0 then (c, none)
  else if kind = 9 then actGaussian x w c
  else
    let k := c.keccak[0]
    let rate := keccakRate k.mode
    let block (i : Nat) : Bytes := keccakOut k (k.squeezed + rate * i) rate
    let r := sampleWord 4096 kind block (Config.samplerBlocks kind)
    let lat := 24 * x.order * r.2
    let c' := makeBusy .sampler lat (makeBusy (.keccak 0) lat { c with keccak := c.keccak.set 0 { k with squeezed := k.squeezed + rate * r.2 } })
    (makeWrite (addrW c w) (writesW x c w) lat c',
      some (if k.secret then maskWord (.arith (sampleModulus kind)) x.order (maskAt c x.order .sampler) r.1 else publicWord r.1))

/-- The fp64 command: the destination register in the command, the sources in IMMEDIATE, the first in the upper half (DESIGN
CHOICE, log entry 174: which half is which is not stated). I2F takes lanes 0 and 1 of A, F2I gives them (log entry 115).
ADD and SUB work share by share, the others on values (R201). -/
def actFpu (x : LoomContext) (w : Microword) (a : StoreWord) (c : LoomCore) : LoomCore × Option StoreWord :=
  let op := mwFpu w / 16
  if op = 0 then (c, none)
  else
    let d : Fin 16 := ⟨mwFpu w % 16, by omega⟩
    let u := c.fp[mwImm w / 16 % 16]'(by omega)
    let v := c.fp[mwImm w % 16]'(by omega)
    let mask := maskAt c x.order .fpu
    let share (r : BitVec 64) (secret : Bool) : List (BitVec 64) := if secret then fpShares x.order mask r else [r]
    let put (r : List (BitVec 64)) (c : LoomCore) : LoomCore := { c with fp := c.fp.set d.val r }
    let many (l : List (BitVec 64)) : Bool := decide (1 < l.length)
    let c := makeBusy .fpu (fpLatency op) (if isDivide op then makeBusy .divider 28 c else c)
    match op with
    | 1 => (put ((List.range (max u.length v.length)).map fun k => fpOp 1 (u.getD k 0) (v.getD k 0) 0) c, none)
    | 2 => (put ((List.range (max u.length v.length)).map fun k => fpOp 2 (u.getD k 0) (v.getD k 0) 0) c, none)
    | 7 => let l := valueOf a; (put (share (fpOfInt (l.getD 1 0 ++ l.getD 0 0)) (isMasked a)) c, none)
    | 8 =>
      let n := fpToInt (fpValue u)
      let lanes := [n.extractLsb' 0 32, n.extractLsb' 32 32] ++ List.replicate 6 0
      (makeWrite (addrW c w) (writesW x c w) 3 c,
        some (if many u then maskWord .boolean x.order (fun k => mask (64 + k)) lanes else publicWord lanes))
    | 6 => (put (share (fpOp 6 (fpValue u) 0 0) (many u)) c, none)
    | 4 =>
      let old := c.fp[d.val]
      (put (share (fpOp 4 (fpValue u) (fpValue v) (fpValue old)) (many u || many v || many old)) c, none)
    | _ => (put (share (fpOp op (fpValue u) (fpValue v) 0) (many u || many v)) c, none)

/-- The counter command (R234, R240). LOAD_LANE0 takes lane 0 of the previous word, as LANE0_ZERO does (DEDUCED from R231, log
entry 174). -/
def actCounters (w : Microword) (c : LoomCore) : LoomCore :=
  let k : Fin 4 := ⟨mwCounters w / 64 % 4, by omega⟩
  let v := c.counters[k.val]
  match mwCounters w / 8 % 8 with
  | 1 => { c with counters := c.counters.set k.val (BitVec.ofNat 16 (mwImm w)) }
  | 2 => { c with counters := c.counters.set k.val (v - 1) }
  | 3 => { c with counters := c.counters.set k.val (v + 1) }
  | 4 => { c with counters := c.counters.set k.val (((valueOf c.previous).getD 0 0).setWidth 16) }
  | _ => c

/-- READ_DESC's word: operation byte, PARAM_SET, then OPERANDS (R234; their places in the word by log entry 115). -/
def descWord (e : Entry) : List Word :=
  lanesOf ((BitVec.ofNat 8 (opOf e)) :: (BitVec.ofNat 8 (setOf e)) :: leBytes 16 (entryNat e 40 16))

/-- Words that IOCTL brings for port W; TRESTLE_READ's and an unfilled cache block's are not stated (log entry 115). The key
is masked on its way into the store (R209). -/
def ioWords (x : LoomContext) (w : Microword) (c : LoomCore) : List StoreWord :=
  let free := (List.range 8).map fun l => Config.laneValue 8 x.item c.cycles [] [] l
  match ioOp w with
  | 1 =>
    let b := c.input.take 32 ++ (List.range (32 - c.input.length)).map fun k => x.inputAt (c.delivered + k)
    [forStore x c w .boolean (publicWord (lanesOf b))]
  | 3 =>
    let ws := wordsOf x.key
    (List.range ws.length).map fun j => maskWord .boolean x.order (fun k => maskAt c x.order .cabinet (32 * j + k)) (ws.getD j zeroLanes)
  | 5 =>
    let block := match x.cached with
      | some e => (match e.data.find? fun d => d.1 == mwImm w with | some d => (wordsOf d.2).map publicWord | none => [])
      | none => []
    (block ++ List.replicate blockWords (publicWord free)).take blockWords
  | 8 => [publicWord free]
  | 9 => [publicWord (descWord x.entry)]
  | _ => []

/-- IOCTL; what it brings goes through W where W is enabled. -/
def actIo (x : LoomContext) (w : Microword) (a : StoreWord) (c : LoomCore) : LoomCore :=
  let c := { c with store := if wEnabled w then storeFill c.store (addrW c w) (ioWords x w c) else c.store }
  match ioOp w with
  | 1 => { c with input := c.input.drop 32, consumed := min (inputLen x.entry) (c.consumed + 32) }
  | 2 => { c with output := c.output ++ (bytesOfLanes (valueOf a)).take (min 32 (mwImm w)), verifyOk := false }
  | 4 => { c with deposit := some (mwImm w, readA x c w (drawerWords * mwImm w)) }
  | 6 =>
    let b := (readA x c w blockWords).flatMap fun v => bytesOfLanes (valueOf v)
    { c with pending := c.pending.filter (fun d => !(d.1 == mwImm w)) ++ [(mwImm w, b)] }
  | 7 => { c with trestleOn := true }
  | _ => c

/-- The words that go through W: IOCTL's own, or a hash core's, a sampler's, the fp64 unit's, or the lane result, in this
order where a word commands several (DESIGN CHOICE, log entry 174). -/
def throughW (x : LoomContext) (w : Microword) (before c : LoomCore) (words : List StoreWord) : LoomCore :=
  let sh : Sharing := if mwLaneClass w = 3 ∨ mwLaneClass w = 6 ∨ mwLaneClass w = 0 then .boolean else .arith (laneModulus (mwModsel w))
  if !wEnabled w || isLayer w || ioOp w == 1 || ioOp w == 3 || ioOp w == 5 || ioOp w == 8 || ioOp w == 9 then c
  else { c with store := storeFill c.store (addrW before w) (words.map (forStore x before w sh)) }

/-- Everything a word does but sequencing. -/
def actWord (x : LoomContext) (w : Microword) (c0 : LoomCore) : LoomCore :=
  let c0 := { c0 with previous := c0.lanes }
  let a := (readA x c0 w 1).headD {}
  let b := (readB x c0 w 1).headD {}
  let c := actAccept w (actVerify w a b (actLanes x w a b c0))
  let k := actKeccak x w a c
  let h := actSha2 x w k.1
  let m := actSampler x w h.1
  let f := actFpu x w a m.1
  let words := match k.2, h.2, m.2, f.2 with
    | some v, _, _, _ => [v]
    | none, v :: vs, _, _ => v :: vs
    | none, [], some v, _ => [v]
    | none, [], none, some v => [v]
    | none, [], none, none => [f.1.lanes]
  let c := throughW x w c0 f.1 words
  -- addresses of this word are those before its counter command
  let io := actIo x w a { c with counters := c0.counters }
  actCounters w { io with counters := c.counters }

/-! ### Sequencing (R230, R233) -/

/-- The next address, on the twelve bits of the control store. -/
def nextAddr (c : LoomCore) : Nat := (c.addr + 1) % 4096

/-- The sequencing of a word that has acted; `cond` is its condition. -/
def sequence (x : LoomContext) (w : Microword) (cond : Bool) (c : LoomCore) : LoomCore :=
  let go (a : Nat) (c : LoomCore) : LoomCore := { c with addr := a, waited := false }
  match mwSeq w with
  | 0 => go (nextAddr c) c
  | 1 => go (mwTarget w) c
  | 2 => go (if cond then mwTarget w else nextAddr c) c
  | 3 => if 8 ≤ c.stack.length then { c with error := true } else go (mwTarget w) { c with stack := nextAddr c :: c.stack }
  | 4 => match c.stack with
    | [] => { c with error := true }
    | r :: rest => go r { c with stack := rest }
  -- a DISPATCH in the middle of a routine asks while its item still runs, and is not granted
  | 5 => c
  | 6 => if cond then go (nextAddr c) c else { c with waited := true }
  -- every word of an output that no verify pass has read is read back, one cycle each (R210)
  | _ =>
    let n := if x.signs then 0 else (c.output.length + 31) / 32
    if n = 0 then { c with atCommit := true } else { c with readback := some n }

/-! ### One cycle -/

/-- The cycle begins: the refresh port, and the shuttle's delivery of input, at most 16 KiB ahead (R205, R209). -/
def beginCycle (x : LoomContext) (c : LoomCore) : LoomCore :=
  let w := storeRead c.store c.refresh
  let upTo := max c.delivered (min x.reachable (c.consumed + 16384))
  { c with
    store := if isMasked w then storeWrite c.refresh (refreshWord x.order (maskAt c x.order .refresh) w) c.store else c.store
    refresh := (c.refresh + 1) % storeWords x.order
    input := c.input ++ (List.range (upTo - c.delivered)).map fun k => x.inputAt (c.delivered + k)
    delivered := upTo
    cycles := c.cycles + 1 }

/-- The cycle ends: the mask generator, the clear and the units' latencies go on (R206, R212, R232). -/
def endCycle (c : LoomCore) : LoomCore :=
  { c with
    maskPos := c.maskPos + 1
    clearing := c.clearing - 1
    busy := (c.busy.map fun b => (b.1, b.2 - 1)).filter fun b => !(b.2 == 0)
    writes := (c.writes.map fun v => (v.1, v.2.1, v.2.2 - 1)).filter fun v => !(v.2.2 == 0) }

/-- The word at the sequencer's address: it waits on, stalls, errs, or acts and is sequenced (R230, R232, R237). -/
def issueWord (x : LoomContext) (c : LoomCore) : LoomCore :=
  let w := x.word c.addr
  if c.waited then sequence x w (taken x c w) c
  else if stalls x c w then c
  else if x.footprint < reachesTo x c w then { c with error := true }
  else
    let after := actWord x w c
    sequence x w (taken x (if mwSeq w = 6 then after else { c with previous := c.lanes }) w) after

/-- One cycle of a routine. A word issues once, unless it stalls; the refresh of a word that it writes is thereby skipped. -/
def loomCycle (x : LoomContext) (c : LoomCore) : LoomCore :=
  if c.atCommit || c.error then c
  else
    let c := beginCycle x c
    if 1024 * x.watchdog < c.cycles then { c with error := true }
    else match c.readback with
      | some n => endCycle (if n ≤ 1 then { c with readback := none, atCommit := true } else { c with readback := some (n - 1) })
      | none => endCycle (issueWord x c)

/-! ### Dispatch, and what COMMIT and an abandon leave (R207, R212, R230) -/

/-- The routine of an item starts: stack, flags and counters cleared, START next; a rekey sets the generator's key. -/
def startCore (item start : Nat) (rekey : Option Bytes) (c : LoomCore) : LoomCore :=
  { c with
    item := some item
    addr := start
    stack := []
    counters := Vector.replicate 4 0
    accept := false
    verifyOk := false
    verifyBroken := false
    waited := false
    readback := none
    atCommit := false
    error := false
    cycles := 0
    writes := []
    pass := none
    trestleOn := false
    delivered := 0
    consumed := 0
    input := []
    maskKey := rekey.getD c.maskKey
    maskPos := if rekey.isSome then 0 else c.maskPos }

end Sys2Proof.Machine
end

