-- ==== Sys2Proof/Machine/Ops.lean ====
section
/-! DEFINITION. The operations that many commands share: mode transitions (R50), fences (R491), power plans (R30 to R42),
the zeroize line (R409) and the action of a tamper class (R465), the warden (R497), and how a management or admin
command is answered. -/

namespace Sys2Proof.Machine

/-! ### Answers -/

/-- The admin command that a port's shuttle holds ends; its completion waits to be written (R142, R148). -/
def adminDone (p : PortId) (st : Status) (result : Nat) (output : Bytes) (s : State) : State :=
  modAdmin p (fun a => { a with entry := a.entry.map fun e =>
    { e with wait := .none, done := some { status := st, outputLen := output.length, output := output, result := result } } }) s

/-- The owner-signed command in progress ends; its answer goes where its envelope came from, and RESULT is the sequence
number that was accepted (R121, R161). -/
def ownerDone (st : Status) (s : State) : State :=
  match s.owner with
  | none => s
  | some o =>
    let s := { s with owner := none }
    match o.origin with
    | .admin p =>
      -- a reset of the port's function discards the completion (R117)
      match s.ports[p.val].admin.entry with
      | some e => if e.wait == .owner then adminDone p st o.seq.toNat [] s else s
      | none => s
    | .usb p seq => emit (.usb p 0x0010 seq st []) s

/-- A RETHREAD in progress ends (R166). -/
def rethreadDone (st : Status) (s : State) : State :=
  match s.owner with
  | some o => match o.operand with
    | .rethread _ => if o.started then ownerDone st s else s
    | _ => s
  | none => s

/-! ### Mode transitions (R50) -/

/-- Leaves the present mode for `m`: LAST_MODE takes the mode left and CAUSE the code (R50). BELOW_MIN says that the
module serves below the minimum, so it ends with service (R34, R47). -/
def setMode (m : Mode) (cause : Nat) (s : State) : State :=
  { s with
    mode := { s.mode with base := m, last := modeCode s.mode.base, cause := cause, holdEntry := if m = .hold then cause else 0 }
    power := { s.power with belowMin := s.power.belowMin && isServe m } }

/-- The first threading of the power cycle ends: READY is set (R71). -/
def endFirstThreading (s : State) : State := { s with mode := { s.mode with ready := true, threadedOnce := true } }

/-- Hold. In Hold already, only CAUSE changes (R480). A threading that ends here ends with READY for the causes of
R71. -/
def enterHold (cause : Nat) (s : State) : State :=
  if s.mode.base = .hold then
    { s with mode := { s.mode with cause := cause, holdEntry := if cause = 8 ∨ cause = 14 then cause else s.mode.holdEntry } }
  else
    let threading := s.mode.base == .threading
    let s' := setMode .hold cause { s with mode := { s.mode with threading := .none, releasing := false } }
    let s' := if threading then rethreadDone .keyPolicy s' else s'
    if threading && (cause == 7 || cause == 9 || cause == 14) then endFirstThreading s' else s'

/-- Armed stages are disarmed with code MODE and keep their entries (R109). -/
def disarmStages (s : State) : State :=
  let off (p : Port) : Port := if p.stage.armed then { p with stage := { p.stage with armed := false, code := 0x09, recheck := false } } else p
  { s with
    ports := s.ports.map off
    device := if s.device.armed then { s.device with armed := false, code := 0x09 } else s.device }

/-- Threading begins to read source `src` (R50, R66 step 5, R93 step 3). -/
def beginThreading (src : Nat) (other re : Bool) (cause : Nat) (s : State) : State :=
  let s := disarmStages (setMode .threading cause s)
  { s with mode := { s.mode with draftSrc := src, threading := .reading src other re } }

/-- The straps select `b` (R21); 00 before they are sampled. -/
def bootStrap (s : State) : Nat := match s.mode.straps with | some t => t.boot.toNat | none => 0

def dbgRequested (s : State) : Bool := match s.mode.straps with | some t => t.dbgreq | none => false

/-- Wake is left, or held, once the firmware has been verified and the plan is at least Idle only (R50, R56, R67,
R68, R98). -/
def leaveWake (s : State) : State :=
  if !(s.mode.base == .wake) || !s.mode.fwDone || s.mode.stewardLost then s
  else if s.life.state == 4 then setMode .analysis 13 s
  else if !(s.life.state == 2 || s.life.state == 3) then s
  else if (bootStrap s == 3 || dbgRequested s) && s.mode.fwRuns && !s.life.debug then s
  else if planCode s.power.plan == 0 then s
  else match s.mode.threading with
    | .reading src other re => beginThreading src other re 0 s
    | .testing _ other re => beginThreading s.mode.draftSrc other re 0 s
    | .none =>
      if s.life.debug then beginThreading s.flash.select true false 11 s
      else if !s.mode.fwRuns || bootStrap s == 1 || bootStrap s == 2 then setMode .recovery 12 s
      else beginThreading s.flash.select true false 0 s

/-- The mode that Idle or a released Hold goes to: by the plan, the strap minimum and the fences (R33, R50, R51). -/
def serviceMode (s : State) : Mode :=
  if planMeetsMin s then
    if unitFenced s then .serveDegraded else if s.power.plan == .full then .serveFull else .serveLite
  else .idle

/-- At a beat Idle goes to the Serve mode that the plan and the fences give; not while the steward is lost (R33,
R50, R52). -/
def leaveIdle (s : State) : State :=
  if s.mode.base == .idle && planMeetsMin s && !s.mode.stewardLost then
    setMode (serviceMode s) (if unitFenced s then 3 else 1) s
  else s

/-- The module serves degraded: a unit was fenced, or the steward lost (R50). -/
def degrade (cause : Nat) (s : State) : State :=
  if s.mode.base == .serveFull || s.mode.base == .serveLite then setMode .serveDegraded cause s else s

/-! ### Restarts over a set of engines -/

def itemUses (sel : Engine → Bool) (i : Item) : Bool :=
  i.place == .inService && ((match i.engine with | some e => sel e | none => false)
    || (match i.trestle with | some t => sel (.trestle t) | none => false))

/-- Restarts every item in service on an engine that `sel` picks, with the trace reason `code`; they keep their order
(R188). -/
def restartWhere (code : Nat) (fault : Bool) (sel : Engine → Bool) (s : State) : State :=
  let victims := (s.heddle.items.filter (itemUses sel)).reverse
  let one (s : State) (i : Item) : State :=
    let excl := (match i.engine with | some e => if sel e then [e] else [] | none => [])
      ++ (match i.trestle with | some t => if sel (.trestle t) then [.trestle t] else [] | none => [])
    -- the routine still stands as it did: an earlier restart of this pass may have resumed it
    match findItem s i.id with
    | some i => restartCoded code fault excl i s
    | none => s
  unask sel (victims.foldl one s)

def onBench (b : Nat) : Engine → Bool
  | .loom n => n.val / 4 == b
  | _ => false

/-! ### Fences (R491, R492) -/

/-- Takes units out of service through the fence lines: benches, single looms, trestles and selvedge units. A bench,
trestle or selvedge unit changes a Serve mode (R491); a single loom does not. -/
def fenceUnits (fault : Bool) (benches : BitVec 16) (looms : List LoomId) (trestles : BitVec 8) (selvs : BitVec 4)
    (s : State) : State :=
  let sel (e : Engine) : Bool :=
    match e with
    | .loom n => benches.getLsbD (n.val / 4) || looms.contains n
    | .trestle t => trestles.getLsbD t.val
    | .selvedge u => selvs.getLsbD u.val
    | _ => false
  let s := { s with faults := { s.faults with bench := s.faults.bench ||| benches, trestle := s.faults.trestle ||| trestles, selv := s.faults.selv ||| selvs } }
  let s := looms.foldl (fun s n => modLoom n (fun l => { l with fenced := true }) s) s
  let s := restartWhere 0x07 fault sel s
  if benches == 0 && trestles == 0 && selvs == 0 then s else degrade 3 s

def benchBit (b : Nat) : BitVec 16 := BitVec.ofNat 16 (2 ^ b)
def trestleBit (t : Nat) : BitVec 8 := BitVec.ofNat 8 (2 ^ t)
def selvBit (u : Nat) : BitVec 4 := BitVec.ofNat 4 (2 ^ u)

/-! ### The seed queue (R379) -/

/-- Rank in the seed queue: instantiations, stalled instances, all others (R379). -/
def seedRank (s : State) (i : InstId) : Nat :=
  let x := s.bobbin.instances[i.val]
  if !x.instantiated then 0 else if x.stalled then 1 else 2

/-- The queue with another request, in the order of service. -/
def queueSeed (i : InstId) (s : State) : State :=
  let q := s.bobbin.seedQueue ++ [i]
  let q := (q.filter fun j => seedRank s j == 0) ++ (q.filter fun j => seedRank s j == 1) ++ (q.filter fun j => seedRank s j == 2)
  { s with bobbin := { s.bobbin with seedQueue := q } }

/-- The instance's own request stands in the queue. -/
def ownQueued (s : State) (i : InstId) : Bool :=
  decide ((if i == inst16 && s.bobbin.predSeed.isSome then 1 else 0) < s.bobbin.seedQueue.count i)

/-- Places a request for instance `i` in the seed queue. -/
def requestSeed (i : InstId) (s : State) : State :=
  let s := modInstance i (fun x => { x with pending := true }) s
  if ownQueued s i then s else queueSeed i s

/-- A PRED_RES item asks for a reseed of instance 16, beside the instance's own (R378, R379). -/
def requestPred (s : State) : State :=
  if s.bobbin.predSeed.isSome then s
  else queueSeed inst16 { s with bobbin := { s.bobbin with predSeed := some (if ownQueued s inst16 then 1 else 0) } }

/-- Benches that were parked ask for their instances again before they return (R64, R386). -/
def askBenchSeeds (s : State) : State :=
  let running := s.bobbin.state == .serving || (s.bobbin.state == .starting && s.bobbin.passed)
  (fins 16).foldl (fun s (b : BenchId) =>
    let i : InstId := ⟨b.val, by omega⟩
    if running && s.power.benchReturn.getLsbD b.val && s.benches[b.val].needsSeed && s.bobbin.instances[i.val].instantiated then
      requestSeed i (modInstance i (fun x => { x with instantiated := false, stalled := false, count := 0 }) s)
    else s) s

/-- Instances and buffers are cleared (R383, R386). -/
def clearInstances (s : State) : State :=
  let off (x : DrbgInstance) : DrbgInstance :=
    { x with instantiated := false, stalled := false, pending := false, count := 0, key := zeros 32, v := 0 }
  { s with bobbin := { s.bobbin with
    instances := s.bobbin.instances.map off
    seedQueue := []
    predSeed := none
    spare := []
    buffers := s.bobbin.buffers.map fun _ => [] } }

/-- A BOBBIN_RESTART in progress ends (R385). -/
def bobbinRestartDone (st : Status) (s : State) : State :=
  match s.owner with
  | some o => match o.operand with
    | .bobbinRestart => if o.started then ownerDone st s else s
    | _ => s
  | none => s

/-- The plan falls to Wake only: state OFF, SEEDED cleared (R386); a BOBBIN_RESTART that has not reached SERVING ends
(R385). -/
def bobbinOff (s : State) : State :=
  let s := bobbinRestartDone .keyPolicy (clearInstances s)
  { s with
    bobbin := { s.bobbin with state := .off, settled := false, passed := false, retesting := false, byCommand := false }
    mode := { s.mode with seeded := false } }

/-! ### Power plans (R30 to R42) -/

/-- A contract's power in units of 0.5 mW: 10 mA × 50 mV (R27, R47). -/
def contractPower (c : Contract) : Nat := if c.valid then c.current * c.voltage else 0

/-- The budget of R30 in 1/20 mW: 90 % of the contracts' sum. -/
def budgetFine (s : State) : Nat := 9 * (s.power.contracts.toList.map contractPower).sum

/-- The plan that a budget maps to (R30). -/
def planOf (fine : Nat) : Plan :=
  if 1100000 ≤ fine then .full else if 540000 ≤ fine then .lite else if 200000 ≤ fine then .idleOnly else .wakeOnly

/-- PWR_BUDGET, in 100 mW units, rounded down. -/
def budgetShown (s : State) : Nat := budgetFine s / 2000

/-- Benches in a plan: a bench of ROLE 0, or any bench before a draft is threaded, never is (R30, R31, R84). -/
def planBenches (s : State) (p : Plan) : BitVec 16 :=
  maskOf 16 ((List.range 16).filter fun b =>
    roleOf s b != 0 && (match p, s.draft.threaded with
      | .full, some _ => true
      | .lite, some d => d.power.liteBenches.any fun x => x.val == b
      | _, _ => false))

def planTrestles (s : State) (p : Plan) : BitVec 8 :=
  match p, s.draft.threaded with
  | .full, some _ => 0xFF
  | .lite, some d => maskOf 8 (d.power.liteTrestles.map fun x => x.val)
  | _, _ => 0

def planSelvs (s : State) (p : Plan) : BitVec 4 :=
  match p, s.draft.threaded with
  | .full, some _ => 0xF
  | .lite, some d => maskOf 4 (d.power.liteSelv.map fun x => x.val)
  | _, _ => 0

/-- A bench is parked: power-gated, its loom stores and caches wiped; its DRBG instance is kept, to be instantiated again, and
its slack measured, before it returns (R64, R207, R386, R501). -/
def parkBench (b : BenchId) (s : State) : State :=
  let clear (n : Fin 64) (l : Loom) : Loom := if n.val / 4 = b.val then { l with cache := [], core := {} } else l
  let s := { s with looms := Vector.ofFn fun n : Fin 64 => clear n s.looms[n.val] }
  modBench b (fun x => { x with gated := false, measuring := false, needsSeed := true, needsMeasure := true }) s

/-- Parks benches: their routines restart elsewhere, uncounted (R37 step 4, R38, R42). -/
def parkBenches (m : BitVec 16) (s : State) : State :=
  let s := { s with power := { s.power with benchOn := s.power.benchOn &&& ~~~m, benchReturn := s.power.benchReturn &&& ~~~m } }
  let s := restartWhere 0x08 false (fun e => match e with | .loom n => m.getLsbD (n.val / 4) | _ => false) s
  (fins 16).foldl (fun s b => if m.getLsbD b.val then parkBench b s else s) s

/-- Sets a bit of PWR_EVENTS. -/
def powerEvent (i : Nat) (s : State) : State := { s with power := { s.power with events := setBit s.power.events i true } }

/-- PWR_PLAN.BELOW_MIN follows plan and mode (R34); a fall out of service is none of its events (log entries 87 and 130). -/
def settleBelowMin (s : State) : State :=
  let below := isServe s.mode.base && !planMeetsMin s
  let s' := { s with power := { s.power with belowMin := below } }
  if below && !s.power.belowMin then raise0 0x11F (powerEvent 11 s') else s'

/-- The port's function is removed: its slices with their wipes, its queues, stage and registers (R17, R37 step 6,
R40, R109). A fence of the function stays (R493). -/
def removeFunction (p : PortId) (s : State) : State :=
  let s := destroyPortSlices p s
  let s := dropItems (fun i => i.port == p) s
  let s := { s with queues := s.queues.filter fun q => !(q.port == p) }
  modPort p (fun _ => {}) s

/-- A detach of the port's function: PORT_LOST, event 0x0A1 + 8p, and R37 step 6. -/
def detachFunction (p : PortId) (s : State) : State :=
  removeFunction p (raise0 (0x0A1 + 8 * p.val) (powerEvent p.val s))

/-- The module as it is shipped: the -L code has the two enclosure mesh loops and the lid switch disabled by fuse (R1). -/
def shippedAs (codeL : Bool) : State :=
  { State.reset with fuses := { State.reset.fuses with codeL := codeL, fused := if codeL then 0x7 else 0 } }

/-- A slot's power goes off at a fall to Wake only: its card stays identified, and a transfer to it stops (R430, R444). -/
def cutSlot (c : CardSlot) (s : State) : State :=
  let x := s.cards.slots[c.val]
  let off := modCard c (fun x => { x with
    powered := false, busy := false, phase := 0, found := none
    identified := x.identified && x.found.isNone
    stale := x.identified && x.found.isNone
    addr := if x.found.isSome then 0 else x.addr
    identity := if x.found.isSome then 0 else x.identity
    lastErr := if x.busy then 5 else x.lastErr }) s
  if x.powered && x.busy then
    raise 0x109 (detailOf 0 c.val 4 0 0)
      { off with cards := { off.cards with removedInTransfer := off.cards.removedInTransfer ||| BitVec.ofNat 4 (2 ^ c.val) } }
  else off

/-- Slot power when the plan is Wake only: only the lowest-numbered powered slot keeps it (R18, R444). -/
def oneSlotPowered (s : State) : State :=
  match (fins 4).find? (fun c => s.cards.slots[c.val].powered) with
  | none => s
  | some k => (fins 4).foldl (fun s c => if c == k || !s.cards.slots[c.val].powered then s else cutSlot c s) s

/-- The read that a fall to Wake only cuts short begins again from step 5 of R66 when the plan returns: at start-up with the
stored selection and the other slot still to be tried, at a re-thread with its source (R67, R68, R98; log entry 119). -/
def restartRead (s : State) (src : Nat) (other re : Bool) : Threading :=
  if !re && src ≤ 1 then .reading s.flash.select true false else .reading src other re

/-- The mode a plan fall leaves (R34, R35, R50, R52, R98). -/
def planFallMode (s : State) : State :=
  match s.power.plan with
  | .wakeOnly =>
    let s := if isIdleServe s.mode.base || s.mode.base == .threading then
        let s := setMode .wake 1 s
        { s with mode := { s.mode with threading := match s.mode.threading with
            | .testing _ other re => restartRead s s.mode.draftSrc other re
            | .reading src other re => restartRead s src other re
            | .none => .none } }
      else s
    -- the USB4 routers shut down, so every function detaches (R35)
    let s := (fins 4).foldl (fun s p => if functionPresent s p then detachFunction p s else modPort p (fun _ => {}) s) s
    oneSlotPowered (bobbinOff s)
  | .idleOnly => if isServe s.mode.base then setMode .idle 1 s else s
  | .lite => if s.mode.base == .serveFull then setMode .serveLite 1 s else s
  | .full => s

/-- The plan falls to `t`: units it parks leave service and their work restarts, then the mode follows (R34, R37).
A throttled bench that it parks is throttled no more (log entry 132). -/
def planFall (t : Plan) (s : State) : State :=
  let s := { s with power := { s.power with plan := t, hold := none, rise := none } }
  let s := raise0 0x11C (powerEvent 8 s)
  let goneT := s.power.trestleOn &&& ~~~(planTrestles s t)
  let goneS := s.power.selvOn &&& ~~~(planSelvs s t)
  let s := { s with power := { s.power with trestleOn := planTrestles s t, selvOn := planSelvs s t, throttled := s.power.throttled &&& planBenches s t } }
  let s := parkBenches (s.power.benchOn &&& ~~~(planBenches s t)) s
  let s := restartWhere 0x08 false (fun e => match e with
    | .trestle x => goneT.getLsbD x.val
    | .selvedge x => goneS.getLsbD x.val
    | _ => false) s
  let s := { s with selvs := Vector.ofFn fun u : Fin 4 => if goneS.getLsbD u.val then { s.selvs[u.val] with cache := [] } else s.selvs[u.val] }
  settleBelowMin (planFallMode s)

/-- After any change of a contract: a lower plan takes effect at once; a higher one starts its 1 s hold anew, but not
while the steward is lost (R39). -/
def replan (s : State) : State :=
  let t := planOf (budgetFine s)
  if planCode t < planCode s.power.plan then planFall t s
  else
    { s with power := { s.power with rise := none, hold := if planCode s.power.plan < planCode t && !s.mode.stewardLost then some t else none } }

/-- BULK_LOW during a re-plan (R46). -/
def bulk (low : Bool) (s : State) : State := if low && !(s.mode.base == .dormant) then raise0 0x122 s else s

/-- Benches waiting to return enter service when their instance and their measurement permit it (R39, R64, R501). -/
def returnBenches (s : State) : State :=
  let ready := maskOf 16 ((List.range 16).filter fun b =>
    s.power.benchReturn.getLsbD b && (planBenches s s.power.plan).getLsbD b && !s.power.throttled.getLsbD b
      && (match s.benches[b]? with | some x => !x.needsSeed && !x.needsMeasure | none => false))
  { s with power := { s.power with benchOn := s.power.benchOn ||| ready, benchReturn := s.power.benchReturn &&& ~~~ready } }

/-- A risen plan takes effect at a beat (R39). -/
def planRise (t : Plan) (s : State) : State :=
  let s := { s with power := { s.power with
    plan := t, rise := none, trestleOn := planTrestles s t, selvOn := planSelvs s t
    benchReturn := planBenches s t &&& ~~~s.power.benchOn &&& ~~~s.power.throttled } }
  let s := returnBenches (askBenchSeeds (raise0 0x11D (powerEvent 9 s)))
  let s := if s.mode.base == .serveLite && t == .full then setMode .serveFull 1 s else s
  settleBelowMin (leaveWake s)

/-- Units of the plan enter service when a draft's roles and Lite membership become known: no bench has been parked
since power-up, so none waits (R31, R84). -/
def enterPlanUnits (s : State) : State :=
  askBenchSeeds { s with power := { s.power with
    benchOn := planBenches s s.power.plan &&& ~~~s.power.throttled &&& ~~~maskOf 16 ((List.range 16).filter fun b =>
      match s.benches[b]? with | some x => x.needsSeed || x.needsMeasure | none => false)
    benchReturn := planBenches s s.power.plan &&& ~~~s.power.throttled
    trestleOn := planTrestles s s.power.plan, selvOn := planSelvs s s.power.plan } }

/-! ### The zeroize line (R6, R409, R410) -/

/-- The chest is cleared, with the address key and the seed of its masks. -/
def clearChest (s : State) : State := { s with backup := { s.backup with chest := {}, addressKey := [], maskSeed := [] } }

/-- Drawers, scratch and module area are cleared; the identity keys are gone (R409). -/
def clearDrawers (s : State) : State :=
  let s := s.slices.foldl (fun s x =>
    (s.runs.filter fun r => r.port == x.port && r.slice == x.idx).foldl (fun s r => wipeDrawers x r.first r.length s) s) s
  { s with runs := [], cabinet := { s.cabinet with identityReady := false, identity := [], scramble := [] } }

/-- Every item fetched and not completed is abandoned; each completion carries KEY_POLICY (R410). -/
def abandonAll (st : Status) (s : State) : State :=
  let one (s : State) (i : Item) : State :=
    match i.place with
    -- an item that its entry's UE lost (R494) has neither result nor completion, and stays lost
    | .done =>
      if i.done.isNone && i.result.isNone then s
      else modItem i.id (fun x => { x with done := some { status := st, result := failWord x } }) s
    | .inService => failInService st 0 i (countAbandon i s)
    | _ => failItem st i s
  s.heddle.items.foldl one s

/-- A ceremony or restore under way stops: its working ORK is wiped (R444). -/
def stopCeremony (err : Nat) (s : State) : State :=
  if s.ceremony.state == 0 || 5 ≤ s.ceremony.state then s
  else raise0 0x10F { s with ceremony := { s.ceremony with state := 6, error := err, ork := [], coeffs := [] } }

/-- Admin commands that wait end with the status, and what they were installing goes (R122, R410, R462). -/
def abandonAdmin (st : Status) (s : State) : State :=
  let s := (s.slices.filter fun x => x.installing).foldl (fun s x => destroySlice x.port x.idx false s)
    { s with queues := s.queues.filter fun q => !q.installing }
  (fins 4).foldl (fun s p => match s.ports[p.val].admin.entry with
    | some e => if e.wait == .none || e.wait == .owner then s else adminDone p st 0 [] s
    | none => s) s

/-- A life-cycle transition is cut short: the group under way completes, any number of groups being done by then, and
the wipes are left to the next Wake (R536; log entry 13). -/
def cutTransition (st : Status) (s : State) : State :=
  match s.life.transition with
  | none => s
  | some t =>
    let f := takeFree s
    let k := 1 + f.1 % max 1 (t.target - s.life.state)
    let bits := ((List.range (4 * k)).map fun i => 4 * s.life.state + i).filter fun i => decide (i < 4 * t.target)
    let burned : BitVec 24 := maskOf 24 bits
    let s := f.2
    let s := { s with fuses := { s.fuses with otp := s.fuses.otp ||| burned }, life := { s.life with transition := none } }
    match t.byToken with
    | some (p, seq) => emit (.usb p 0x0031 seq st []) s
    | none => match s.owner with
      | some o => match o.operand with
        | .lcAdvance _ => ownerDone st s
        | _ => s
      | none => s

/-- The zeroize line fires on main power (R409, R410): chest, drawers, scratch and module area, the bobbin's
instances with them (R386). -/
def zeroizeLine (s : State) : State :=
  stopCeremony 0x08 (clearInstances (clearDrawers (clearChest (abandonAdmin .keyPolicy (abandonAll .keyPolicy s)))))

/-! ### The life-cycle counter (R524, R525) -/

/-- Bits set in group `g` of the life-cycle counter. -/
def groupBits (otp : BitVec 24) (g : Nat) : Nat := ((List.range 4).filter fun i => otp.getLsbD (4 * g + i)).length

/-- The state that the bits read: groups burned, by three bits or four, counted from group 0 (R524). -/
def stateCount (otp : BitVec 24) : Nat := min 5 ((List.range 6).takeWhile fun g => 3 ≤ groupBits otp g).length

/-- The first of groups 0 to 4 that reads 1, 2 or 3. -/
def tornGroup (otp : BitVec 24) : Option Nat := (List.range 5).find? fun g => 1 ≤ groupBits otp g && groupBits otp g ≤ 3

/-- The reader at step 2 of R66 completes the first incomplete group; a bit after it, in group 5, or past an unburned
group makes the pattern invalid (R525; log entry 32). Answers the bits, REPAIRED and INVALID. -/
def readCounter (otp : BitVec 24) : BitVec 24 × Bool × Bool :=
  let any (f : Nat → Bool) : Bool := (List.range 6).any fun g => f g && groupBits otp g != 0
  match tornGroup otp with
  | some k => (otp ||| BitVec.ofNat 24 (15 * 2 ^ (4 * k)), true, any fun g => decide (k < g))
  | none => (otp, false, any fun g => g == 5 || decide (stateCount otp < g))

/-- The life-cycle state of the counter: what the reader found, or, before it has run, what the bits read (R524). -/
def cycleState (s : State) : Nat := if s.mode.straps.isSome then s.life.state else stateCount (readCounter s.fuses.otp).1

/-! ### Tamper classes (R54, R465) -/

/-- Zeroized, Analysis, and Wake in Scrapped: the modes of R54 outside Test-Root (in it: log entry 135). -/
def tamperExempt (s : State) : Bool :=
  s.mode.base == .zeroized || s.mode.base == .analysis || (s.mode.base == .wake && cycleState s == 5)

/-- Benches, looms, trestles and selvedge units in a source's fence scope (R464): sources 4, 5 and 15 all benches, 6
and 7 trestles and selvedge units, 12 and 19 the scope named, the others all engines. -/
def scopeUnits (src : SourceId) (sc : FenceScope) : BitVec 16 × List LoomId × BitVec 8 × BitVec 4 :=
  if src.val = 4 ∨ src.val = 5 ∨ src.val = 15 then (0xFFFF, [], 0, 0)
  else if src.val = 6 ∨ src.val = 7 then (0, [], 0xFF, 0xF)
  else if src.val = 12 ∨ src.val = 19 then
    match sc with
    | .all => (0xFFFF, [], 0xFF, 0xF)
    | .bench b => (benchBit b.val, [], 0, 0)
    | .loom n => (0, [n], 0, 0)
    | .trestlePair k => (0, [], trestleBit (2 * k.val) ||| trestleBit (2 * k.val + 1), 0)
    | .selvedgePair k => (0, [], 0, selvBit (2 * k.val) ||| selvBit (2 * k.val + 1))
  else (0xFFFF, [], 0xFF, 0xF)

/-- The fence of one source's scope; the watch remembers it for the re-thread (R467). -/
def tamperFence (src : SourceId) (sc : FenceScope) (s : State) : State :=
  let u := scopeUnits src sc
  fenceUnits false u.1 u.2.1 u.2.2.1 u.2.2.2
    { s with tamper := { s.tamper with fences := (src, sc) :: s.tamper.fences.filter fun f => !(f == (src, sc)) } }

/-- HALT (R50, R54): Hold with CAUSE 9. -/
def haltResponse (s : State) : State :=
  if s.mode.base == .dormant || tamperExempt s then s else enterHold 9 s

/-- ZEROIZE (R50, R54): the line fires in every powered mode; the mode becomes Zeroized but in the modes of R54. -/
def zeroizeResponse (s : State) : State :=
  if s.mode.base == .dormant then clearChest s
  else
    let s := ownerDone .keyPolicy (cutTransition .keyPolicy (zeroizeLine s))
    if tamperExempt s then s
    else
      -- entry to Zeroized frees every digest slot (R368)
      setMode .zeroized 10 (freeSlots (fun _ => true) { s with mode := { s.mode with threading := .none, releasing := false } })

/-- Applies a class for the sources that carry it (R465). -/
def applyClass (cls : Nat) (fs : List (SourceId × FenceScope)) (s : State) : State :=
  match cls with
  | 0 => s
  | 1 => if tamperExempt s || s.mode.base == .dormant then s else fs.foldl (fun s f => tamperFence f.1 f.2 s) s
  | 2 => haltResponse s
  | _ => zeroizeResponse s

/-- Class in force of a source; a disabled source's class reads 0 (R466, R483). -/
def classOf (s : State) (src : SourceId) : Nat :=
  if s.fuses.fused.getLsbD src.val then 0 else s.tamper.classes[src.val]

/-- A source fires: its sticky flag, which a TAMPER_CLEAR in hand then leaves set (R484), and its event, with the class applied and the mode at the decision (R465, R515,
R554). -/
def markFiring (src : SourceId) (machine code cls : Nat) (s : State) : State :=
  let s' := { s with
    backup := { s.backup with sticky := setBit s.backup.sticky src.val true }
    owner := s.owner.map fun o => { o with clears := setBit o.clears src.val false } }
  raise (0xC0 + src.val) (detailOf 0 (if src.val = 19 then machine else 0) code (modeShown s) cls) s'

/-- A list of firings of one evaluation: every flag and event, then the highest class once (R471). `cls` gives the
class each source fires at. -/
def fireAll (cls : SourceId → Nat) (code : Nat) (fs : List Firing) (s : State) : State :=
  let live := fs.filter fun f => !s.fuses.fused.getLsbD f.source.val
  let s' := live.foldl (fun s f => markFiring f.source f.machine.val code (cls f.source) s) s
  let top := live.foldl (fun m f => max m (cls f.source)) 0
  applyClass top ((live.filter fun f => cls f.source == top).map fun f => (f.source, f.scope)) s'

/-- The twice-decided response is on: by the strap or by the threaded draft's COMPAT section (R474). -/
def compatOn (s : State) : Bool :=
  (match s.mode.straps with | some t => t.compat | none => false)
    || (match s.draft.threaded with
      | some d => (match d.compat with | some c => c.enable == 1 | none => false)
      | none => false)

/-- The window of the second evaluation: that of the COMPAT section, or R475's where the strap alone turns the response on. -/
def compatWindow (s : State) : Nat × Nat :=
  match s.draft.threaded.bind fun d => d.compat with
  | some c => (c.wmin, c.wmax)
  | none => if (match s.mode.straps with | some t => t.compat | none => false) then (2, 16) else (0, 0)

/-- A pair opens; its delay is drawn over the window (R474). -/
def openPair (fs : List (Firing × Nat)) (s : State) : State :=
  let w := compatWindow s
  let d := w.1 + Config.freeValue s.free % (w.2 - w.1 + 1)
  { s with free := s.free + 1, tamper := { s.tamper with pairs := s.tamper.pairs ++ [{ firings := fs, delay := d }] } }

/-- An evaluation in which sources qualify (R468 to R471, R474, R482): a disabled source senses nothing, one that was
active already does not fire again, one in its stimulus window is held; in the twice-decided mode the rest open a
decision pair, in native mode they fire. -/
def evaluate (fs : List Firing) (s : State) : State :=
  let live := fs.filter fun f => !s.fuses.fused.getLsbD f.source.val && !s.tamper.active.getLsbD f.source.val
  let held := live.filter fun f => s.tamper.stimulus == some f.source
  let now := live.filter fun f => !(s.tamper.stimulus == some f.source)
  let s := { s with tamper := { s.tamper with
    active := live.foldl (fun m f => setBit m f.source.val true) s.tamper.active
    sensed := live ++ s.tamper.sensed.filter fun x => !(live.any fun f => f.source == x.source)
    heldAlarm := s.tamper.heldAlarm || !held.isEmpty } }
  if now.isEmpty then s
  else if compatOn s then
    openPair (now.map fun f => (f, classOf s f.source)) s
  else fireAll (classOf s) 0 now s

/-! ### The steward lost (R496, R497) -/

/-- A DEBUG_RESPONSE counts, and consumes the nonce, whatever its outcome (R531, R537). -/
def useNonce (s : State) : State := { s with life := { s.life with nonce := none, attempts := satAdd 255 s.life.attempts 1 } }

/-- A USB command that waits for the steward ends with it (R122); an admin entry ends with the others. -/
def abandonWork (s : State) (w : WaitingEnvelope) : State :=
  match w.work with
  | .envelope _ => emit (.usb w.port 0x0010 w.seq .unitFault []) s
  | .token _ => emit (.usb w.port 0x0031 w.seq .unitFault []) (useNonce s)
  | .entry _ _ => s

/-- What the steward was doing ends with UNIT_FAULT: family 0x31 items (R312), items in service on it, admin commands and
debug challenges that wait, and what they were installing (R122, R444, R498; log entry 23). -/
def abandonSteward (s : State) : State :=
  let tally := s.heddle.items.filter fun i => waiting i && famOf i.entry == 0x31
  let s := tally.foldl (fun s i => failItem .unitFault i s) s
  let serving := s.heddle.items.filter fun i => i.place == .inService && i.engine == some .steward
  let s := serving.foldl (fun s i => failInService .unitFault 0 i s) s
  let s := abandonAdmin .unitFault s
  let s := s.life.challenges.foldl (fun s c => emit (.usb c.2.1 0x0030 c.2.2 .unitFault []) s) s
  let s := s.envelopes.foldl abandonWork s
  { s with life := { s.life with challenges := [] }, envelopes := [] }

/-- The warden takes control: the steward is held in reset, the event goes to the latch, owner-signed commands in
flight end (R122), and the mode moves under R50 and R52. -/
def wardenTakeover (trigger : Nat) (s : State) : State :=
  if s.mode.stewardLost || s.mode.base == .dormant then s
  else
    let s := { s with
      faults := { s.faults with warden := true, trigger := trigger }
      mode := { s.mode with stewardLost := true, releasing := false }
      power := { s.power with hold := none, rise := none } }
    let s := cutTransition .unitFault (abandonSteward (ownerDone .unitFault (raise 0x124 (detailOf trigger 0 0 0 0) s)))
    match s.mode.base with
    | .serveFull => degrade 4 s
    | .serveLite => degrade 4 s
    | .wake => if cycleState s == 0 || cycleState s == 1 || cycleState s == 5 then s else enterHold 4 s
    | .threading => enterHold 4 s
    | .recovery => enterHold 4 s
    | _ => s

end Sys2Proof.Machine
end

