-- ==== Sys2Proof/Machine/Logbook.lean ====
section
/-! DEFINITION. The logbook: how events become records (R515 to R521), and the commands of its own. -/

namespace Sys2Proof.Machine

/-- The record of lowest SEQ among those of equal or lower severity; an ALARM record is never replaced (R518). -/
def replaceable (sev : Nat) (rs : List LogRecord) : Option LogRecord :=
  rs.find? fun r => r.severity ≤ sev && r.severity < 3

/-- The newest record of an event number. -/
def newestOf (ev : Nat) (rs : List LogRecord) : Option LogRecord := rs.reverse.find? fun r => r.event == ev

/-- Takes a record into the mirror, at a free place or at the replaceable record's; otherwise the event is dropped and
counted (R518). SEQ is one higher for each record (R515). -/
def takeRecord (r : LogRecord) (s : State) : State :=
  let seq := s.flash.logSeq + 1
  let place (old : Option LogRecord) : State :=
    let kept := match old with | some o => s.log.records.filter fun x => !(x.seq == o.seq) | none => s.log.records
    { s with
      log := { s.log with records := kept ++ [{ r with seq := seq, replaces := old.map fun o => o.seq }] }
      flash := { s.flash with logSeq := seq } }
  if s.log.records.length < 4096 then place none
  else match replaceable r.severity s.log.records with
    | some o => place (some o)
    | none => countLost r.severity s

/-- A new, empty record. -/
def recordOf (ev sev : Nat) (latched : Bool) (t cyc : Nat) (d : BitVec 64) : LogRecord :=
  { event := ev, severity := sev, latched := latched, repeats := 0, first := t, last := t, cycle := cyc, detail := d, seq := 0 }

/-- Raises REPEAT of one record in the mirror; LAST_SECONDS becomes `t`, when the repeat occurred (R515, R518). -/
def repeatRecord (seq : Word) (t : Nat) (s : State) : State :=
  let up (r : LogRecord) : LogRecord :=
    if r.seq == seq then { r with repeats := satAdd 65535 r.repeats 1, last := t } else r
  { s with log := { s.log with records := s.log.records.map up } }

/-- The steward takes one event: a repeat of the newest record of its number when detail and power cycle match, a new
record otherwise (R518). -/
def takeEvent (e : Event) (s : State) : State :=
  match newestOf e.event s.log.records with
  | some r =>
    if r.detail == e.detail && r.cycle == s.flash.powerCycle then repeatRecord r.seq e.time s
    else takeRecord (recordOf e.event e.severity false e.time s.flash.powerCycle e.detail) s
  | none => takeRecord (recordOf e.event e.severity false e.time s.flash.powerCycle e.detail) s

/-- A latch entry becomes a LATCHED record; it never merges (R521). -/
def commitLatchEntry (s : State) (e : LatchEntry) : State :=
  let d := detailOf e.time 0 (if e.cell then 0x09 else 0) 0 e.cls
  takeRecord { recordOf e.event e.severity true s.log.seconds e.cycle d with repeats := e.repeats } s

/-- Step 5 of R66: the latch entries are committed in latch order, then 0x11B when any were lost, and the latch is
emptied (R478, R521). -/
def commitLatch (s : State) : State :=
  let n := s.backup.latch.length
  let lost := s.backup.lost
  let s := s.backup.latch.foldl commitLatchEntry s
  let s := { s with
    backup := { s.backup with latch := [], lost := 0 }
    tamper := { s.tamper with latchCount := n, latchLost := lost } }
  if lost = 0 then s else takeEvent { event := 0x11B, severity := severityOf s 0x11B, detail := detailOf lost 0 0 0 0, clock := s.clock, time := s.log.seconds } s

/-- The mirror is loaded from flash; event 0x11A for each record found invalid, which is free then (R517). -/
def loadMirror (damaged : List Word) (s : State) : State :=
  let good := s.flash.logRecords.filter fun r => !damaged.contains r.seq
  (List.range (s.flash.logRecords.length - good.length)).foldl (fun s _ => raise0 0x11A s)
    { s with log := { s.log with records := good }, flash := { s.flash with logRecords := good } }

/-- The records a LOG_READ returns: SEQ at least `f`, ascending, up to `c` of them, from the mirror, or from flash
before step 5 (R522). -/
def logSelect (f : Word) (c : Nat) (s : State) : List LogRecord :=
  ((if s.mode.fwDone then s.log.records else s.flash.logRecords).filter fun r => f.toNat ≤ r.seq.toNat).take c

/-! ### Commands -/

/-- EVENT_LOG (R517): the steward takes the oldest event of its queue. -/
def execEventLog (s : State) : Host.Outcome State Fault Refusal :=
  if s.mode.base == .dormant || latching s then .next s
  else match s.log.queue with
    | [] => .next s
    | e :: rest => .next (takeEvent e { s with log := { s.log with queue := rest } })

/-- Flash takes a record as the mirror holds it, in place of the one it replaces (R519). -/
def writeRecord (r : LogRecord) (s : State) : State :=
  let r' := { r with durable := true, flashRepeats := r.repeats, flashLast := r.last, flushed := s.log.seconds }
  let mark (x : LogRecord) : LogRecord := if x.seq == r.seq then r' else x
  let kept := s.flash.logRecords.filter fun x => !(x.seq == r.seq) && !(r.replaces == some x.seq)
  let older := kept.filter fun x => x.seq.toNat < r.seq.toNat
  let newer := kept.filter fun x => r.seq.toNat < x.seq.toNat
  { s with
    log := { s.log with records := s.log.records.map mark }
    flash := { s.flash with logRecords := older ++ [r'] ++ newer } }

/-- LOG_RECORD_DURABLE (R519): a new record's read-back passes. Nothing reaches flash while its controller is fenced
(R520). -/
def execLogRecordDurable (seq : Word) (s : State) : Host.Outcome State Fault Refusal :=
  if s.mode.base == .dormant || s.faults.flashFenced || s.mode.stewardLost then .next s
  else match s.log.records.find? (fun r => r.seq == seq && !r.durable) with
    | some r => .next (writeRecord r s)
    | none => .next s

/-- LOG_REPEAT_FLUSH (R519): a record's repeats and LAST_SECONDS reach flash, at most every 10 s. -/
def execLogRepeatFlush (seq : Word) (s : State) : Host.Outcome State Fault Refusal :=
  if s.mode.base == .dormant || s.faults.flashFenced || s.mode.stewardLost then .next s
  else match s.log.records.find? (fun r => r.seq == seq && r.durable && decide (r.flushed + 10 ≤ s.log.seconds)) with
    | some r => .next (writeRecord { r with replaces := none } s)
    | none => .next s

/-- SECONDS_CHECKPOINT (R516): the operating seconds are written to flash. -/
def execSecondsCheckpoint (s : State) : Host.Outcome State Fault Refusal :=
  if s.mode.base == .dormant || s.faults.flashFenced then .next s
  else .next { s with flash := { s.flash with secondsMark := s.log.seconds } }

/-- The backup domain is lost: the chest, the sticky flags, the latch and the counter with it (R24, R479, R516). -/
def loseBackup (s : State) : State := { s with backup := { cellOk := s.backup.cellOk, wasLost := true } }

/-- BACKUP_CELL_LOSS (R24): the cell is removed or runs low. While it alone feeds the backup domain, the chest is lost;
on main power it carries no load (R23). -/
def execBackupCellLoss (s : State) : Host.Outcome State Fault Refusal :=
  let s := { s with backup := { s.backup with cellOk := false } }
  if s.mode.base == .dormant then .next (loseBackup s) else .next s

end Sys2Proof.Machine
end

