-- ==== Sys2Proof/Machine/Stateful.lean ====
section
/-! DEFINITION. Stateful parameter sets (R294 to R301) and the tally store's records (R302 to R308). -/

namespace Sys2Proof.Machine

/-! ### Parameter sets -/

/-- LMS heights of a shape, from the top level down (R294). -/
def lmsHeights (shape : Nat) : Option (List Nat) :=
  match shape with
  | 0 => some [5] | 1 => some [10] | 2 => some [15] | 3 => some [20] | 4 => some [10, 5] | 5 => some [10, 10]
  | 6 => some [15, 10] | 7 => some [20, 10] | 8 => some [20, 20] | 9 => some [10, 10, 10] | 10 => some [20, 10, 10]
  | 11 => some [20, 20, 20] | 12 => some [20, 20, 10, 10] | _ => none

/-- XMSS and XMSS^MT shapes: heights of the layers, from the top down (R295). -/
def xmssHeights (set : Nat) : Option (List Nat) :=
  if set < 128 then
    match set % 32 with
    | 0 => some [10] | 1 => some [16] | 2 => some [20] | _ => none
  else
    match set % 32 with
    | 0 => some [10, 10] | 1 => some [5, 5, 5, 5] | 2 => some [20, 20] | 3 => some [10, 10, 10, 10]
    | 4 => some [5, 5, 5, 5, 5, 5, 5, 5] | 5 => some [20, 20, 20] | 6 => some [10, 10, 10, 10, 10, 10]
    | 7 => some [5, 5, 5, 5, 5, 5, 5, 5, 5, 5, 5, 5] | _ => none

/-- Heights of a stateful set; `none` for a reserved one. -/
def statefulHeights (fam set : Nat) : Option (List Nat) :=
  if fam = 0x05 then lmsHeights (set % 16) else if fam = 0x06 then xmssHeights set else none

/-- Hash code of R296. -/
def statefulHash (fam set : Nat) : Nat := if fam = 0x05 then set / 64 else set / 32 % 4

def statefulN (fam set : Nat) : Nat := if statefulHash fam set % 2 = 0 then 32 else 24

/-- LM-OTS p of a hash code and a Winternitz code (R296). -/
def lmOtsP (n w : Nat) : Nat :=
  if n = 32 then [265, 133, 67, 34].getD w 0 else [200, 101, 51, 26].getD w 0

def wotsLen (n : Nat) : Nat := if n = 32 then 67 else 51

/-- LMS signature length at height `h` (R296). -/
def lmsSigLen (n w h : Nat) : Nat := 12 + n + lmOtsP n w * n + h * n

def statefulPkLen (fam set : Nat) : Nat :=
  let n := statefulN fam set
  if fam = 0x05 then 28 + n else 4 + 2 * n

/-- Signature length of a set (R296). -/
def statefulSigLen (fam set : Nat) : Nat :=
  let n := statefulN fam set
  match statefulHeights fam set with
  | none => 0
  | some hs =>
    if fam = 0x05 then
      let w := set / 16 % 4
      4 + (hs.dropLast.map fun h => lmsSigLen n w h + 24 + n).sum + lmsSigLen n w (hs.getLastD 0)
    else if set < 128 then 4 + n + wotsLen n * n + hs.sum * n
    else (hs.sum + 7) / 8 + n + hs.length * (wotsLen n * n) + hs.sum * n

/-- LIMIT: 2 to the total height (R302). -/
def statefulLimit (fam set : Nat) : Nat :=
  match statefulHeights fam set with
  | none => 0
  | some hs => 2 ^ hs.sum

/-- Sum of the heights below the top level (R306). -/
def lowerHeights (fam set : Nat) : Nat :=
  match statefulHeights fam set with
  | some (_ :: rest) => rest.sum
  | _ => 0

/-- A key of this set holds a top-level pointer: two levels or more (R306). -/
def hasPointer (fam set : Nat) : Bool :=
  match statefulHeights fam set with
  | some hs => 2 ≤ hs.length
  | none => false

def buildExp (h : Nat) : Nat := min ((h + 1) / 2) 8

/-- BUILD_COUNT (R299). -/
def buildCount (fam set : Nat) : Nat :=
  match statefulHeights fam set with
  | some (h :: rest) => 2 ^ (h - buildExp h) + 3 * (rest.map fun h => 2 ^ (h - buildExp h)).sum
  | _ => 0

/-- D(h) of R301. -/
def treeDrawers (n h : Nat) : Nat :=
  let k := (h + 1) / 2
  (n * (2 ^ (h - k + 1) + 2 ^ (k + 2) - 3) + 127) / 128

/-- Drawers of a signature by the level above and of the tree's public key (R301). An XMSS^MT layer's signature is
its WOTS+ and authentication path (DEDUCED, log entry 12). -/
def linkDrawers (fam set above : Nat) : Nat :=
  let n := statefulN fam set
  if fam = 0x05 then (lmsSigLen n (set / 16 % 4) above + 24 + n + 127) / 128
  else (wotsLen n * n + above * n + 4 + 2 * n + 127) / 128

/-- Levels below the top, each with the height of the level above it. -/
def lowerLevels : List Nat → List (Nat × Nat)
  | a :: b :: rest => (a, b) :: lowerLevels (b :: rest)
  | _ => []

/-- Drawers of a stateful sign key (R301). -/
def statefulDrawers (fam set : Nat) : Nat :=
  match statefulHeights fam set with
  | some (h :: rest) =>
    1 + treeDrawers (statefulN fam set) h
      + ((lowerLevels (h :: rest)).map fun x => 3 * treeDrawers (statefulN fam set) x.2 + 2 * linkDrawers fam set x.1).sum
  | _ => 0

/-! ### Tally records -/

/-- Tally wear in 1/1,000 of 8 × 10^9 copy writes (R303, R308). -/
def tallyWear (s : State) : Nat := min 1000 (s.flash.tallyWrites / 8000000)

/-- Records in flash: those of which a copy has been written (R308). -/
def recordsInFlash (s : State) : Nat := (s.flash.tally.filter fun t => t.copyA.isSome || t.copyB.isSome).length

/-- Counts copy writes; event 0x0DF at wear 900 and 1,000 (R303, R309). -/
def countTallyWrites (n : Nat) (s : State) : State :=
  let before := tallyWear s
  let s' := { s with flash := { s.flash with tallyWrites := s.flash.tallyWrites + n } }
  if (before < 900 && 900 ≤ tallyWear s') || (before < 1000 && 1000 ≤ tallyWear s') then raise0 0x0DF s' else s'

/-- Bytes 0 to 55 of a copy of record `number` (R302). -/
def tallyBytes (number : Nat) (c : TallyCopy) : Bytes :=
  ascii "AQTL" ++ leBytes 4 c.seq ++ leBytes 2 number ++ leBytes 1 c.state ++ leBytes 1 c.family ++ leBytes 1 c.set ++ zeros 3
    ++ leBytes 8 c.keyId ++ leBytes 8 c.uid.toNat ++ leBytes 8 c.ceiling ++ leBytes 8 c.handoff ++ leBytes 8 c.nonce

/-- The tally key, which derives from DRK (R389). -/
def tallyMacKey (s : State) : Bytes := rootKdf s.backup.chest.drk s.fuses.serial 32 (ascii "AQX-TALLY")

/-- TAG: the first 8 bytes of KMAC256 under the tally key. -/
def tallyTag (key : Bytes) (number : Nat) (c : TallyCopy) : Bytes := (kmac256 key (tallyBytes number c) 32 []).take 8

/-- A copy with its TAG. -/
def sealCopy (key : Bytes) (number : Nat) (c : TallyCopy) : TallyCopy := { c with tag := tallyTag key number c }

/-- A copy is valid under the tally key in force (R302). -/
def copyValid (s : State) (number : Nat) (c : TallyCopy) : Bool :=
  s.backup.chest.valid && c.tag == tallyTag (tallyMacKey s) number c

/-- The top-level pointer of a key, if it holds one (R306). -/
def pointerOf (s : State) (keyId : Nat) : Option Nat :=
  (s.backup.chest.pointers.find? fun q => q.1 == keyId % 2 ^ 40).map fun q => q.2

/-- One record at Wake (R305, R306): the newest valid copy counts, the other is rewritten to match it, a rollback is
corrected, and the next index is CEILING. -/
def scanRecord (s : State) (t : TallyRecord) : State :=
  let a := t.copyA.filter (copyValid s t.number)
  let b := t.copyB.filter (copyValid s t.number)
  let put (r : TallyRecord) (s : State) : State := modTally (fun x => x.number == t.number) (fun _ => r) s
  match tallyNewest { t with copyA := a, copyB := b } with
  | none => raise0 0x0DE (put { t with unusable := true, writing := none, waiter := .nobody, queued := [] } s)
  | some c =>
    let repaired := !(t.copyA == some c && t.copyB == some c)
    let s := if repaired then countTallyWrites 1 (raise0 0x0DC s) else s
    let low := lowerHeights c.family c.set
    match pointerOf s c.keyId with
    | some p =>
      if (c.ceiling - 1) / 2 ^ low < p then
        let n := min ((p + 2) * 2 ^ low) (statefulLimit c.family c.set)
        let c' := sealCopy (tallyMacKey s) t.number { c with seq := c.seq + 1, ceiling := n }
        countTallyWrites 1 (raise0 0x0DD (put { number := t.number, copyA := some c', copyB := some c, next := n } s))
      else put { number := t.number, copyA := some c, copyB := some c, next := c.ceiling } s
    | none => put { number := t.number, copyA := some c, copyB := some c, next := c.ceiling } s

/-- The Wake scan of the tally region (R305); not while debug is enabled (R411). -/
def tallyScan (s : State) : State := if s.life.debug then s else s.flash.tally.foldl scanRecord s

/-- Puts an update into the copy that does not hold the newest state, with SEQ + 1 (R303). -/
def issueTally (key : Bytes) (c : TallyCopy) (w : TallyWaiter) (t : TallyRecord) : TallyRecord :=
  let newest := tallyNewest t
  let seq := match newest with | some x => x.seq + 1 | none => 1
  let toB := match newest with | some x => t.copyA == some x | none => false
  { t with writing := some (toB, sealCopy key t.number { c with seq := seq }), waiter := w }

/-- Updates a record: at once, or after the write in flight (R303). -/
def writeTally (number : Nat) (c : TallyCopy) (w : TallyWaiter) (s : State) : State :=
  countTallyWrites 1 (modTally (fun t => t.number == number)
    (fun t => if t.writing.isSome then { t with queued := t.queued ++ [(c, w)] } else issueTally (tallyMacKey s) c w t) s)

/-- The state a record will hold once every update that waits is durable. -/
def tallyLatest (t : TallyRecord) : Option TallyCopy :=
  match t.queued.getLast? with
  | some q => some q.1
  | none => match t.writing with
    | some w => some w.2
    | none => tallyNewest t

/-- Power or the flash controller is lost during a write: the copy being written is damaged (R303). -/
def tornTally (t : TallyRecord) : TallyRecord :=
  match t.writing with
  | none => t
  | some (true, _) => { t with copyB := none, writing := none, waiter := .nobody, queued := [] }
  | some (false, _) => { t with copyA := none, writing := none, waiter := .nobody, queued := [] }

end Sys2Proof.Machine
end

