-- ==== Sys2Proof/Machine/Drafts.lean ====
section
/-! DEFINITION. The checks at threading (R92), in their order, with the section each failure belongs to. -/

namespace Sys2Proof.Machine

/-- A failed check: its code and the section type of MOD_DRAFT_CHECK (R111). -/
abbrev CheckFail := Nat × Nat

/-- The first failure of a list of checks, each with its code and section. -/
def firstFail : List (Bool × CheckFail) → Option CheckFail
  | [] => none
  | (ok, c) :: rest => if ok then firstFail rest else some c

def ownerRecords (d : Draft) : List OwnerRecord := match d.owner with | some o => o.records | none => []

/-- The words of image `i` as a bench's control store holds them: Horsefort's from 0, the owner's from 0xC00 (R224,
R225). -/
def imageWord (d : Draft) (i a : Nat) : Option Microword :=
  match d.images[i]? with
  | none => none
  | some m =>
    if a < 0xC00 then m.words[a]?
    else match (ownerRecords d).find? (fun r => r.image == i) with
      | some r => r.words[a - 0xC00]?
      | none => none

/-- Control-store words from address `a` on, each with the check bits that the module computes when it loads it (R224). -/
def controlWords : Nat → List Microword → List (Nat × Microword × BitVec 9)
  | _, [] => []
  | a, w :: ws => (a, w, Config.checkBits w) :: controlWords (a + 1) ws

/-- The control store of bench `b`: its image's words, and the owner's from 0xC00 on (R224, R225). -/
def controlStore (d : Draft) (b : Nat) : List (Nat × Microword × BitVec 9) :=
  match d.benches[b]? with
  | none => []
  | some x =>
    controlWords 0 (match d.images[x.image]? with | some m => m.words.take 0xC00 | none => [])
      ++ controlWords 0xC00 (match (ownerRecords d).find? (fun r => r.image == x.image) with | some r => r.words | none => [])

/-- The dispatch table of image `i`: entries 0xC0 to 0xFF are the owner's (R225). -/
def imageDispatch (d : Draft) (i : Nat) : List DispatchEntry :=
  match d.images[i]? with
  | none => []
  | some m =>
    match (ownerRecords d).find? (fun r => r.image == i) with
    | some r => m.dispatch.take 0xC0 ++ r.dispatch
    | none => m.dispatch

/-- The header and the directory of a draft as R82 and R83 lay them out; the Booleans of a draft that passes check 0x01
stand for the magic and the zero bytes (log entry 100). -/
def draftHeader (d : Draft) : Bytes :=
  ascii "AQDF" ++ leBytes 2 d.format ++ leBytes 2 d.device ++ leBytes 4 d.familyId.toNat ++ leBytes 4 d.version.toNat
    ++ leBytes 4 d.hfSigned ++ leBytes 4 d.hfLength ++ leBytes 2 d.sectionCount ++ leBytes 2 d.flags ++ zeros 36
def directoryBytes (d : Draft) : Bytes :=
  d.sections.flatMap fun x => leBytes 2 x.typ ++ zeros 2 ++ leBytes 4 x.offset ++ leBytes 4 x.length ++ leBytes 4 x.crc.toNat

/-- The signed area (R81): header, directory, and each section at its offset, zeros between. -/
def signedArea (d : Draft) : Bytes :=
  let b := d.sections.foldl (fun b x => b ++ zeros (x.offset - b.length) ++ x.bytes) (draftHeader d ++ directoryBytes d)
  b ++ zeros (d.hfSigned - b.length)

/-- Bytes 0 to the end of OWNER_ROUTINES, which the owner signs, the Horsefort block among them (R87). -/
def ownerArea (d : Draft) (o : OwnerPart) : Bytes :=
  signedArea d ++ d.hfBlock.bytes ++ ascii "AQOW" ++ leBytes 4 o.length ++ leBytes 4 o.routinesLength
    ++ leBytes 4 o.crc.toNat ++ zeros 16 ++ o.bytes

/-- The whole file (R81). -/
def draftFile (d : Draft) : Bytes :=
  match d.owner with
  | none => signedArea d ++ d.hfBlock.bytes
  | some o => ownerArea d o ++ o.block.bytes

/-- 0x01 FORMAT of the header (R82). -/
def headerForm (d : Draft) : Bool :=
  d.magicOk && d.format == 1 && d.device == 0x9640 && d.flags < 2 && d.zeros

/-- 0x02 LENGTH as the 64-byte header alone shows it: the header passes checks 0x01 and 0x02 before the module reads on
(R68). -/
def headerLength (d : Draft) : Bool := d.hfLength == d.hfSigned + 4736 && d.hfLength ≤ 8388608

/-- 0x02 LENGTH (R81, R82, R87). -/
def lengthsOk (d : Draft) : Bool :=
  d.hfLength == d.hfSigned + 4736 && d.fileLength ≤ 8388608
    && (match d.owner with
      | none => d.fileLength == d.hfLength
      | some o => o.length == 32 + o.routinesLength + 4736 && d.fileLength == d.hfLength + o.length)

def imageForm (m : Image) : Bool :=
  imageLayout m.bytes == some (m.dispatch, m.exports, m.words) && m.dispatch.all deForm
    && (m.words.zip (List.range m.words.length)).all (fun x => wordForm x.2 x.1) && 0 < m.words.length

def ownerRecordForm (r : OwnerRecord) : Bool :=
  ownerLayout r.bytes == some (r.image, r.dispatch, r.words) && r.dispatch.all deForm
    && (r.words.zip (List.range r.words.length)).all (fun x => wordForm (0xC00 + x.2) x.1)

/-- 0x01 FORMAT of the sections' contents: reserved fields, and fields outside the ranges their chapters give (R44,
R45, R62, R83, R84, R171, R193, R225, R229, R348, R355, R371, R475). An advert's role may have any value (R170). -/
def sectionForms (d : Draft) : List (Bool × CheckFail) :=
  [(d.benches.length == 16 && d.benches.all (fun b => b.zero && b.role ≤ 3 && (b.order == 1 || b.order == 2) && b.image ≤ 15)
      && d.conditioning ≤ 1, (1, 1)),
   (d.images.length ≤ 16 && d.images.all imageForm && d.sequencer.length == 2048 && d.adverts.all (fun a => a.zero), (1, 2)),
   (d.heddle.depthCode ≤ 3 && 1 ≤ d.heddle.affAge && d.heddle.affAge ≤ 255 && 1 ≤ d.heddle.affWin && d.heddle.affWin ≤ 15
      && d.heddle.bulkMax ≤ 7 && 65 ≤ d.heddle.dimThresh && d.heddle.dimThresh ≤ 127
      && 10 ≤ d.heddle.shortLimit && d.heddle.shortLimit ≤ 10000 && 1 ≤ d.heddle.idleTimeout && d.heddle.idleTimeout ≤ 60000, (1, 3)),
   (d.classes.length == 24 && d.classes.all (fun c => c ≤ 3) && d.severities.all (fun p => p.1 < 296 && p.2 ≤ 3), (1, 4)),
   (1 ≤ d.power.idleUs && d.power.idleUs ≤ 65535 && d.power.sscDepth ≤ 100 && d.power.hdrSlew ≤ 3, (1, 5)),
   ((match d.compat with
      | none => true
      | some c => c.zeros && c.enable ≤ 1 && 2 ≤ c.wmin && c.wmin ≤ 16 && c.wmin ≤ c.wmax && c.wmax ≤ 16), (1, 6)),
   ((match d.owner with
      | none => true
      | some o => o.magicOk && o.zeros && o.records.all ownerRecordForm && o.adverts.all (fun a => a.zero)), (1, 7))]

/-- 0x01 FORMAT of the directory: its entries' reserved fields (R83, R92). -/
def directoryForm (d : Draft) : Bool := d.sections.all fun x => x.zero

def sectionsAscend : List SectionEntry → Bool
  | a :: b :: rest => decide (a.typ < b.typ) && decide (a.offset + a.length ≤ b.offset) && sectionsAscend (b :: rest)
  | _ => true

/-- 0x03 DIRECTORY (R83). -/
def directoryOk (d : Draft) : Bool :=
  d.sectionCount == d.sections.length && [1, 2, 3, 4, 5].all (fun t => d.sections.any fun x => x.typ == t)
    && d.sections.all (fun x => 1 ≤ x.typ && x.typ ≤ 6 && x.offset % 64 == 0
        && 64 + 16 * d.sectionCount ≤ x.offset && x.offset + x.length ≤ d.hfSigned && x.length == x.bytes.length)
    && sectionsAscend d.sections
    && (d.sections.any (fun x => x.typ == 6) == (d.flags == 1)) && (d.compat.isSome == (d.flags == 1))

/-- 0x04 SECTION_CRC over the section bytes; the section that differs, if any. -/
def crcFail (d : Draft) : Option Nat :=
  match d.sections.find? (fun x => !(x.crc == crc32 x.bytes)) with
  | some x => some x.typ
  | none => match d.owner with
    | some o => if o.crc == crc32 o.bytes then none else some 7
    | none => none

/-- 0x05 SIG_HF (R86). -/
def hfSigOk (d : Draft) : Bool := horsefortVerifies (ascii "AQDF-HF") (signedArea d) d.hfBlock

/-- 0x06 SIG_OWNER (R88, R89, R90). -/
def ownerSigOk (s : State) (d : Draft) : Bool :=
  if s.life.debug then true
  else if !s.backup.chest.valid then true
  else if s.backup.chest.ownerSet then
    match d.owner with
    | none => false
    | some o => ownerRecordOk s && ownerVerifies s.flash.ownerRecord (ascii "AQDF-OWN") (ownerArea d o) o.block
  else d.owner.isNone

/-- 0x07 TAINT (R240), on every image with the owner's words. -/
def taintOk (d : Draft) : Bool :=
  (List.range d.images.length).all fun i => taintImage (imageWord d i) (imageDispatch d i)

/-- 0x08 RESOURCE of the control stores: 32-byte store words (R204) make the 96 KiB footprint bound. -/
def resourceOk (d : Draft) : Bool :=
  d.images.all (fun m => m.words.length ≤ 4096) && (ownerRecords d).all (fun r => 0xC00 + r.words.length ≤ 4096)
    && (List.range d.images.length).all (fun i => (imageDispatch d i).all fun e =>
        !deValid e || (deDepth e ≤ 8 && (imageWord d i (deStart e)).isSome
          && d.benches.all (fun b => b.role == 0 || b.image != i || deFootprint e * 32 * (b.order + 1) ≤ 98304)))

/-- 0x08 RESOURCE of the Lite membership (R31). -/
def liteOk (d : Draft) : Bool :=
  d.power.liteBenches.length ≤ 4 && d.power.liteTrestles.length ≤ 2 && d.power.liteSelv.length ≤ 1
    && d.power.liteBenches.all (fun b => match d.benches[b.val]? with | some x => x.role != 0 | none => false)

/-- 0x09 OWNER_RANGE of the Horsefort part (R242). -/
def horsefortRangeOk (d : Draft) : Bool :=
  d.images.all (fun m => m.words.length ≤ 0xC00
      && (m.words.zip (List.range m.words.length)).all (fun x => horsefortWordOk x.2 x.1)
      && (m.dispatch.drop 0xC0).all (fun e => !deValid e) && (m.dispatch.take 0xC0).all (fun e => !deValid e || deStart e < 0xC00))
    && d.adverts.all (fun a => a.family < 0xC0)

/-- 0x09 OWNER_RANGE of the owner part (R242). -/
def ownerRangeOk (d : Draft) : Bool :=
  (ownerRecords d).all (fun r => r.dispatch.all (fun e => !deValid e || 0xC00 ≤ deStart e)
      && (r.words.zip (List.range r.words.length)).all fun x =>
          ownerWordOk (match d.images[r.image]? with | some m => m.exports | none => []) (0xC00 + x.2) x.1)
    && (match d.owner with | some o => o.adverts.all (fun a => 0xC0 ≤ a.family) | none => true)

/-- 0x0A CLASS_CAP (R466). -/
def classesOk (s : State) (d : Draft) : Bool :=
  (fins 24).all fun i => d.classes.getD i.val 0 ≤ s.fuses.caps[i.val]

/-- The advert table in force: Horsefort's, with the owner's but in Test-Root (R90). -/
def advertsOf (s : State) (d : Draft) : List Advert :=
  d.adverts ++ (if s.life.debug then [] else match d.owner with | some o => o.adverts | none => [])

/-- Entries for each operation and parameter set of a family. -/
def advertise (family role tag : Nat) (ops sets : List Nat) : List Advert :=
  ops.flatMap fun op => sets.map fun set => { family := family, op := op, set := set, role := role, tag := tag, zero := true }

/-- The parameter sets of a stateful family. -/
def statefulSets (family : Nat) : List Nat := (List.range 256).filter fun set => (statefulHeights family set).isSome

/-- The advert table of the default draft (R244, R245, R265, R266, R287, R322, R323, R335, R337, R369, R378, R402; log
entry 193). -/
def defaultAdverts : List Advert :=
  advertise 0x01 1 0x0100 [0x10, 0x11, 0x12, 0x13, 0x14] [1, 2, 3]
    ++ advertise 0x20 1 0x0100 [0x18, 0x19, 0x1A] [1, 2, 3]
    ++ advertise 0x02 2 0x0100 [0x20, 0x21, 0x22, 0x23, 0x24, 0x25, 0x26, 0x27] [1, 2, 3]
    ++ advertise 0x03 2 0x0102 [0x28, 0x29, 0x2A, 0x2B] [1, 2]
    ++ advertise 0x21 2 0x0100 [0x2C, 0x2D, 0x2E, 0x2F] [1, 2, 3]
    ++ advertise 0x04 3 0x0100 [0x30, 0x31, 0x32, 0x33, 0x34, 0x35, 0x36, 0x37] [1, 2, 3, 4, 5, 6, 7, 8, 9, 10, 11, 12]
    ++ advertise 0x05 3 0x0100 [0x38, 0x39, 0x3A, 0x3B, 0x3C, 0x3D] (statefulSets 0x05)
    ++ advertise 0x06 3 0x0100 [0x40, 0x41, 0x42, 0x43, 0x44, 0x45] (statefulSets 0x06)
    ++ advertise 0x31 0 0x0100 [0x48, 0x49] [0]
    ++ advertise 0x07 5 0x0100 [0x50, 0x51, 0x52, 0x53, 0x54] [1, 2, 3, 4, 5, 6, 7, 8, 9, 10]
    ++ advertise 0x08 5 0x0100 [0x58, 0x59, 0x5A, 0x5B] [1, 2, 3]
    ++ advertise 0x10 4 0x0100 [0x60, 0x61, 0x62, 0x63, 0x64] [1, 2, 3]
    ++ advertise 0x11 4 0x0100 [0x68, 0x69, 0x6A, 0x6B] [1, 2]
    ++ advertise 0x12 4 0x0100 [0x6C, 0x6D] [1, 2]
    ++ advertise 0x13 4 0x0100 [0x70] [1, 2, 3]
    ++ advertise 0x13 4 0x0100 [0x71, 0x72, 0x73, 0x74, 0x75, 0x76] [1, 2, 3, 4]
    ++ advertise 0x41 0 0x0100 [0x01] [0x01, 0x02, 0x03, 0x04, 0x05, 0x11, 0x12, 0x13, 0x14, 0x21, 0x22]
    ++ advertise 0x40 0 0x0100 [0x01] [1]
    ++ advertise 0x30 0 0x0100 [0x80, 0x81, 0x82, 0x83, 0x84, 0x85, 0x86] [0]
    ++ advertise 0x30 1 0x0100 [0x87] [1, 2, 3, 4, 5]
    ++ advertise 0x30 1 0x0100 [0x88] [1, 2, 3, 4]
    ++ advertise 0x30 2 0x0100 [0x89] [0]

/-- The dispatch index of an opcode (R227). -/
def dispatchIndex (fam op : Nat) : Nat := if 0xC0 ≤ fam then fam else op

/-- 0x0B COVERAGE: every bench of an advertised loom entry's role holds a VALID entry for it that may run on that role. -/
def coverageOk (as : List Advert) (d : Draft) : Bool :=
  as.all fun a =>
    !(1 ≤ a.role && a.role ≤ 3) || d.benches.all fun b =>
      b.role != a.role || (match (imageDispatch d b.image)[dispatchIndex a.family a.op]? with
        | some e => deValid e && (deRoles e >>> (a.role - 1)) % 2 == 1
        | none => false)

/-- What threads of a draft: with an empty chest, and in Test-Root, the Horsefort part alone (R89, R90). -/
def threadedPart (s : State) (d : Draft) : Draft :=
  if s.backup.chest.valid && !s.life.debug then d else { d with owner := none }

/-- The draft without its owner part: what fails in it belongs to CONTROL, what fails only in the whole to the owner's
section (R111). -/
def partSection (ok : Draft → Bool) (d : Draft) : Nat := if ok { d with owner := none } then 7 else 2

/-- Checks 0x07 to 0x0B, on what threads. -/
def contentChecks (s : State) (d : Draft) : List (Bool × CheckFail) :=
  [(taintOk d, (7, partSection taintOk d)), (resourceOk d, (8, partSection resourceOk d)), (liteOk d, (8, 5)),
   (horsefortRangeOk d, (9, 2)), (ownerRangeOk d, (9, 7)), (classesOk s d, (10, 4)),
   (coverageOk d.adverts d, (11, 2)), (coverageOk (advertsOf s d) d, (11, 7))]

/-- The checks of R92 in their order; `none` when the draft passes. -/
def draftCheck (s : State) (d : Draft) : Option CheckFail :=
  firstFail ([(headerForm d, (1, 0)), (headerLength d, (2, 0)), (directoryForm d, (1, 0))] ++ sectionForms d ++
    [(lengthsOk d, (2, 0)), (directoryOk d, (3, 0)), ((crcFail d).isNone, (4, (crcFail d).getD 0)), (hfSigOk d, (5, 0)),
     (ownerSigOk s d, (6, 0))] ++ contentChecks s (threadedPart s d))

/-- What a DRAFT_WRITE verifies before it commits the slot: structure and signatures (R91). -/
def draftWriteOk (s : State) (d : Draft) : Bool :=
  (firstFail ([(headerForm d, (1, 0)), (headerLength d, (2, 0)), (directoryForm d, (1, 0))] ++ sectionForms d ++
    [(lengthsOk d, (2, 0)), (directoryOk d, (3, 0)), ((crcFail d).isNone, (4, 0)), (hfSigOk d, (5, 0)), (ownerSigOk s d, (6, 0))])).isNone

end Sys2Proof.Machine
end

