-- ==== Sys2Proof/Machine/Curves.lean ====
section
/-! DEFINITION. Arithmetic of the classical families (R335, R336, R341 to R344): numbers modulo m, Weierstrass and Edwards
groups, the Montgomery ladder and RSA with its encodings. The constants are those of the standards that R335 names (log
entry 153). -/

namespace Sys2Proof.Machine

/-! ### Numbers modulo m -/

/-- `b` to the power of the lowest `k` bits of `e`. -/
def powModFrom (m : Nat) : Nat → Nat → Nat → Nat
  | 0, _, _ => 1 % m
  | k + 1, b, e =>
    let r := powModFrom m k (b * b % m) (e / 2)
    if e % 2 = 1 then b * r % m else r

def powMod (m b e : Nat) : Nat := powModFrom m (e.log2 + 1) (b % m) e

def subMod (m a b : Nat) : Nat := (a + (m - b % m)) % m

/-- Euclid's remainders with the second one's coefficient. -/
def euclid : Nat → Nat → Nat → Int → Int → Int
  | 0, _, _, t, _ => t
  | k + 1, r, r', t, t' => if r' = 0 then t else euclid k r' (r % r') t' (t - (r / r' : Nat) * t')

/-- The inverse of `a` modulo `m`. -/
def invMod (m a : Nat) : Nat := (euclid (2 * m.log2 + 2) m (a % m) 0 1 % (m : Int)).toNat

/-- A value that the 1,024 bits of a job supply (R334): number `idx` of use `use_`, of `n` bytes (log entry 154). -/
def blind (bits : Bytes) (use_ idx n : Nat) : Nat := beNat (primBytes .blinding [bits, leBytes 1 use_, leBytes 1 idx] n)

/-- A number from 1 to m − 1. -/
def nonZero (m v : Nat) : Nat := 1 + v % (m - 1)

/-! ### Groups of points in projective coordinates -/

abbrev Proj := Nat × Nat × Nat

structure Group where
  /-- The field prime and the order of the base point, and their bytes. -/
  p : Nat
  n : Nat
  len : Nat
  zero : Proj
  base : Proj
  add : Proj → Proj → Proj

def affine? (p : Nat) (x : Proj) : Option (Nat × Nat) :=
  if x.2.2 % p = 0 then none
  else let i := invMod p x.2.2; some (x.1 * i % p, x.2.1 * i % p)

/-- The product by the lowest `k` bits of a number. -/
def Group.times (g : Group) (x : Proj) : Nat → Nat → Proj
  | 0, _ => g.zero
  | k + 1, m =>
    let a := g.times x k (m / 2)
    let a := g.add a a
    if m % 2 = 1 then g.add a x else a

def Group.mul (g : Group) (m : Nat) (x : Proj) : Proj := g.times x (m.log2 + 1) m

/-! ### Weierstrass curves y² = x³ − 3x + b (FIPS 186-5) -/

def ecPrime (set : Nat) : Nat :=
  match set with
  | 2 => 2 ^ 384 - 2 ^ 128 - 2 ^ 96 + 2 ^ 32 - 1
  | 3 => 2 ^ 521 - 1
  | _ => 2 ^ 256 - 2 ^ 224 + 2 ^ 192 + 2 ^ 96 - 1

def ecOrder (set : Nat) : Nat :=
  match set with
  | 2 => 2 ^ 384 - 0x389CB27E0BC8D220A7E5F24DB74F58851313E695333AD68D
  | 3 => 2 ^ 521 - 0x5AE79787C40D069948033FEB708F65A2FC44A36477663B851449048E16EC79BF7
  | _ => 2 ^ 256 - 0xFFFFFFFF00000000000000004319055258E8617B0C46353D039CDAAF

def ecB (set : Nat) : Nat :=
  match set with
  | 2 => 0xB3312FA7E23EE7E4988E056BE3F82D19181D9C6EFE8141120314088F5013875AC656398D8A2ED19D2A85C8EDD3EC2AEF
  | 3 => 0x51953EB9618E1C9A1F929A21A0B68540EEA2DA725B99B315F3B8B489918EF109E156193951EC7E937B1652C0BD3BB1BF073573DF883D2C34F1EF451FD46B503F00
  | _ => 0x5AC635D8AA3A93E7B3EBBD55769886BC651D06B0CC53B0F63BCE3C3E27D2604B

def ecBase (set : Nat) : Proj :=
  match set with
  | 2 =>
    (0xAA87CA22BE8B05378EB1C71EF320AD746E1D3B628BA79B9859F741E082542A385502F25DBF55296C3A545E3872760AB7,
      0x3617DE4A96262C6F5D9E98BF9292DC29F8F41DBD289A147CE9DA3113B5F0B8C00A60B1CE1D7E819D7A431D7C90EA0E5F, 1)
  | 3 =>
    (0xC6858E06B70404E9CD9E3ECB662395B4429C648139053FB521F828AF606B4D3DBAA14B5E77EFE75928FE1DC127A2FFA8DE3348B3C1856A429BF97E7E31C2E5BD66,
      0x11839296A789A3BC0045C8A5FB42C7D1BD998F54449579B446817AFBD17273E662C97EE72995EF42640C550B9013FAD0761353C7086A272C24088BE94769FD16650, 1)
  | _ =>
    (0x6B17D1F2E12C4247F8BCE6E563A440F277037D812DEB33A0F4A13945D898C296,
      0x4FE342E2FE1A7F9B8EE7EB4A7C0F9E162BCE33576B315ECECBB6406837BF51F5, 1)

/-- Bytes of a coordinate (R335). -/
def ecCoord (set : Nat) : Nat := [0, 32, 48, 66].getD set 0

def ecInfinity : Proj := (0, 1, 0)

def ecDouble (p : Nat) (a : Proj) : Proj :=
  let w := 3 * subMod p (a.1 * a.1) (a.2.2 * a.2.2) % p
  let s := a.2.1 * a.2.2 % p
  let b := a.1 * a.2.1 % p * s % p
  let h := subMod p (w * w) (8 * b)
  let ys := a.2.1 * s % p
  (2 * h * s % p, subMod p (w * subMod p (4 * b) h) (8 * ys * ys), 8 * s * s % p * s % p)

def ecAdd (p : Nat) (a b : Proj) : Proj :=
  if a.2.2 % p = 0 then b
  else if b.2.2 % p = 0 then a
  else
    let u := subMod p (b.2.1 * a.2.2) (a.2.1 * b.2.2)
    let v := subMod p (b.1 * a.2.2) (a.1 * b.2.2)
    if v = 0 then (if u = 0 then ecDouble p a else ecInfinity)
    else
      let vv := v * v % p
      let vvv := vv * v % p
      let r := vv * (a.1 * b.2.2 % p) % p
      let zz := a.2.2 * b.2.2 % p
      let t := subMod p (u * u % p * zz) (vvv + 2 * r)
      (v * t % p, subMod p (u * subMod p r t) (vvv * (a.2.1 * b.2.2 % p)), vvv * zz % p)

def ecGroup (set : Nat) : Group :=
  { p := ecPrime set, n := ecOrder set, len := ecCoord set, zero := ecInfinity, base := ecBase set, add := ecAdd (ecPrime set) }

/-- The coordinates of a SEC 1 uncompressed encoding, and the encoding of a point; the point at infinity, which no number
from 1 to n − 1 gives, has none. -/
def ecX (set : Nat) (b : Bytes) : Nat := beNat (slice_ b 1 (ecCoord set))
def ecY (set : Nat) (b : Bytes) : Nat := beNat (slice_ b (1 + ecCoord set) (ecCoord set))
def ecPoint (set : Nat) (b : Bytes) : Proj := (ecX set b, ecY set b, 1)
def ecEncode (set : Nat) (x : Proj) : Bytes :=
  match affine? (ecPrime set) x with
  | some (x, y) => 4 :: (beBytes (ecCoord set) x ++ beBytes (ecCoord set) y)
  | none => 4 :: zeros (2 * ecCoord set)

/-- The point of an encoding is on its curve. -/
def ecOnCurve (set : Nat) (b : Bytes) : Bool :=
  let p := ecPrime set
  let x := ecX set b
  ecY set b * ecY set b % p == (subMod p (x * x % p * x) (3 * x) + ecB set) % p

/-- A private number is zero or not below n (R342). -/
def ecScalarBad (set : Nat) (d : Bytes) : Bool := beNat d == 0 || decide (ecOrder set ≤ beNat d)

/-- A number from 1 to n − 1 from drawn bytes. -/
def ecScalarFrom (set : Nat) (bits : Bytes) (idx : Nat) : Nat := nonZero (ecOrder set) (blind bits 0 idx (ecCoord set + 8))

/-- The public key of d. -/
def ecPkOf (set : Nat) (d : Bytes) : Bytes := ecEncode set ((ecGroup set).mul (beNat d) (ecBase set))

/-- The leftmost bits of a digest, as many as the order has (FIPS 186-5). -/
def ecHash (set : Nat) (digest : Bytes) : Nat := beNat digest >>> (8 * digest.length - [0, 256, 384, 521].getD set 0)

/-- r and s of one nonce. -/
def ecSignWith (set : Nat) (d digest : Bytes) (k : Nat) : Nat × Nat :=
  let n := ecOrder set
  let r := match affine? (ecPrime set) ((ecGroup set).mul k (ecBase set)) with | some x => x.1 % n | none => 0
  (r, invMod n k * (ecHash set digest + r * beNat d) % n)

/-- ECDSA, the nonce from the bits of the job: a nonce whose r or s comes out zero gives way to a fresh one (R347). -/
def ecSign (set : Nat) (d digest bits : Bytes) : Bytes :=
  let tries := (List.range 8).map fun j => ecSignWith set d digest (ecScalarFrom set bits (1 + j))
  match tries.find? fun x => x.1 != 0 && x.2 != 0 with
  | some x => beBytes (ecCoord set) x.1 ++ beBytes (ecCoord set) x.2
  | none => zeros (2 * ecCoord set)

/-- ECDSA verification; r or s zero or not below n is a false signature (R343). -/
def ecVerifies (set : Nat) (pk digest sig : Bytes) : Bool :=
  let n := ecOrder set
  let r := beNat (sig.take (ecCoord set))
  let s := beNat (sig.drop (ecCoord set))
  let g := ecGroup set
  if r = 0 ∨ s = 0 ∨ n ≤ r ∨ n ≤ s then false
  else
    let w := invMod n s
    match affine? g.p (g.add (g.mul (ecHash set digest * w % n) (ecBase set)) (g.mul (r * w % n) (ecPoint set pk))) with
    | some x => x.1 % n == r
    | none => false

/-- The shared x of ECDH; none where the product is the point at infinity. -/
def ecAgree (set : Nat) (d peer : Bytes) : Option Bytes :=
  (affine? (ecPrime set) ((ecGroup set).mul (beNat d) (ecPoint set peer))).map fun x => beBytes (ecCoord set) x.1

/-- A Weierstrass public key: SEC 1 form, range, curve (R342). -/
def ecPkBad (set : Nat) (pk : Bytes) : Option Status :=
  if !(pk.head? == some 4) then some .rejectEncoding
  else if ecPrime set ≤ ecX set pk ∨ ecPrime set ≤ ecY set pk then some .rejectRange
  else if !ecOnCurve set pk then some .rejectPoint
  else none

/-! ### Edwards curves ax² + y² = 1 + dx²y² (RFC 8032) -/

def edPrime (set : Nat) : Nat := if set = 2 then 2 ^ 448 - 2 ^ 224 - 1 else 2 ^ 255 - 19

def edOrder (set : Nat) : Nat :=
  if set = 2 then 2 ^ 446 - 13818066809895115352007386748515426880336692474882178609894547503885
  else 2 ^ 252 + 27742317777372353535851937790883648493

def edA (set : Nat) : Nat := if set = 2 then 1 else edPrime 1 - 1

def edD (set : Nat) : Nat :=
  if set = 2 then edPrime 2 - 39081 else 37095705934669439343138083508754565189542113879843219016388785533085940283555

def edBase (set : Nat) : Proj :=
  if set = 2 then
    (224580040295924300187604334099896036246789641632564134246125461686950415467406032909029192869357953282578032075146446173674602635247710,
      298819210078481492676017930443930673437544040154080242095928241372331506189835876003536878655418784733982303233503462500531545062832660, 1)
  else
    (15112221349535400772501151409588531511454012693041857206046113283949847762202,
      46316835694926478169428394003475163141307993866256225615783033603165251855960, 1)

/-- Bytes of an encoding (R335). -/
def edPk (set : Nat) : Nat := [0, 32, 57].getD set 0

def edAdd (set : Nat) (x y : Proj) : Proj :=
  let p := edPrime set
  let a := x.2.2 * y.2.2 % p
  let b := a * a % p
  let c := x.1 * y.1 % p
  let d := x.2.1 * y.2.1 % p
  let e := edD set * c % p * d % p
  let f := subMod p b e
  let g := (b + e) % p
  (a * f % p * subMod p ((x.1 + x.2.1) * (y.1 + y.2.1)) (c + d) % p, a * g % p * subMod p d (edA set * c) % p, f * g % p)

def edGroup (set : Nat) : Group :=
  { p := edPrime set, n := edOrder set, len := edPk set, zero := (0, 1, 1), base := edBase set, add := edAdd set }

/-- y and the sign bit of an encoding. -/
def edY (set : Nat) (b : Bytes) : Nat := leNat b % 2 ^ (8 * edPk set - 1)
def edSign? (set : Nat) (b : Bytes) : Bool := leNat b / 2 ^ (8 * edPk set - 1) % 2 == 1

/-- A square root modulo the prime, where there is one. -/
def edRoot (p t : Nat) : Option Nat :=
  let r := if p % 4 = 3 then powMod p t ((p + 1) / 4) else powMod p t ((p + 3) / 8)
  let r := if r * r % p = t % p then r else r * powMod p 2 ((p - 1) / 4) % p
  if r * r % p = t % p then some r else none

/-- The x of a y, before its sign. -/
def edX (set y : Nat) : Option Nat :=
  let p := edPrime set
  edRoot p (subMod p (y * y) 1 * invMod p (subMod p (edD set * (y * y % p)) (edA set)) % p)

/-- y is that of x = 0. -/
def edXZero (set y : Nat) : Bool := y % edPrime set == 1 || y % edPrime set == edPrime set - 1

/-- An Edwards public key: x = 0 with the sign bit set; y not below the prime; no x, or the identity (R342). -/
def edPkBad (set : Nat) (pk : Bytes) : Option Status :=
  let y := edY set pk
  if edXZero set y && edSign? set pk then some .rejectEncoding
  else if edPrime set ≤ y then some .rejectRange
  else if (edX set y).isNone || y == 1 then some .rejectPoint
  else none

/-- The point of an encoding that RFC 8032 decodes. -/
def edDecode (set : Nat) (b : Bytes) : Option Proj :=
  let p := edPrime set
  let y := edY set b
  if p ≤ y ∨ (edXZero set y && edSign? set b) = true then none
  else (edX set y).map fun x => (if (x % 2 == 1) == edSign? set b then x else (p - x) % p, y, 1)

def edEncode (set : Nat) (x : Proj) : Bytes :=
  match affine? (edPrime set) x with
  | some (x, y) => leBytes (edPk set) (y + x % 2 * 2 ^ (8 * edPk set - 1))
  | none => zeros (edPk set)

/-- SHA-512, or SHAKE256 with 114 bytes. -/
def edHash (set : Nat) (m : Bytes) : Bytes := if set = 2 then shake256 m 114 else primBytes (.digest 4) [m] 64

/-- The prefix of a variant and its context: 0 pure, 1 Ed25519ctx, 2 prehash (R338). -/
def edDom (set variant : Nat) (ctx : Bytes) : Bytes :=
  if set = 1 ∧ variant = 0 then []
  else ascii (if set = 2 then "SigEd448" else "SigEd25519 no Ed25519 collisions") ++ leBytes 1 (bit (variant == 2))
    ++ leBytes 1 ctx.length ++ ctx

/-- The clamped secret number of little-endian bytes: Ed25519 and X25519, or Ed448 and X448. -/
def clamp (set : Nat) (b : Bytes) : Nat :=
  if set = 2 then leNat b % 2 ^ 447 / 4 * 4 + 2 ^ 447 else leNat b % 2 ^ 254 / 8 * 8 + 2 ^ 254

def edScalar (set : Nat) (seed : Bytes) : Nat := clamp set ((edHash set seed).take (edPk set))

/-- The public key of a seed. -/
def edPkOf (set : Nat) (seed : Bytes) : Bytes := edEncode set ((edGroup set).mul (edScalar set seed) (edBase set))

/-- EdDSA over ctx and M or PH(M): the signature depends on seed, context and message alone. -/
def edSignOf (set variant : Nat) (seed pk ctx m : Bytes) : Bytes :=
  let dom := edDom set variant ctx
  let r := leNat (edHash set (dom ++ (edHash set seed).drop (edPk set) ++ m)) % edOrder set
  let point := edEncode set ((edGroup set).mul r (edBase set))
  let k := leNat (edHash set (dom ++ point ++ pk ++ m)) % edOrder set
  point ++ leBytes (edPk set) ((r + k * edScalar set seed) % edOrder set)

/-- EdDSA verification: an R that does not decode, or an S not below the order, is a false signature (R343). -/
def edVerifies (set variant : Nat) (pk ctx m sig : Bytes) : Bool :=
  let g := edGroup set
  let point := sig.take (edPk set)
  let s := leNat (sig.drop (edPk set))
  let k := leNat (edHash set (edDom set variant ctx ++ point ++ pk ++ m)) % edOrder set
  let cofactor := if set = 2 then 4 else 8
  match edDecode set point, edDecode set pk with
  | some r, some a =>
    decide (s < edOrder set)
      && edEncode set (g.mul cofactor (g.mul s (edBase set))) == edEncode set (g.mul cofactor (g.add r (g.mul k a)))
  | _, _ => false

/-! ### X25519 and X448 (RFC 7748, R344) -/

/-- Bytes of a value (R335). -/
def xPk (set : Nat) : Nat := [0, 32, 56].getD set 0

/-- The peer's value: the top bit of an X25519 value is masked, and a value not below the prime is reduced. -/
def xCoordinate (set : Nat) (b : Bytes) : Nat := (if set = 2 then leNat b else leNat b % 2 ^ 255) % edPrime set

/-- One step of the ladder on (x2, z2) and (x3, z3). -/
def xStep (p a24 u : Nat) (a b : Nat × Nat) : (Nat × Nat) × (Nat × Nat) :=
  let s := a.1 + a.2
  let d := subMod p a.1 a.2
  let ss := s * s % p
  let dd := d * d % p
  let e := subMod p ss dd
  let da := subMod p b.1 b.2 * s % p
  let cb := (b.1 + b.2) * d % p
  let m := subMod p da cb
  ((ss * dd % p, e * (ss + a24 * e) % p), ((da + cb) * (da + cb) % p, u * (m * m % p) % p))

/-- The ladder over the lowest `t` bits of `k`, top bit first. -/
def xLadder (p a24 u : Nat) : Nat → Nat → (Nat × Nat) × (Nat × Nat)
  | 0, _ => ((1, 0), (u, 1))
  | t + 1, k =>
    let x := xLadder p a24 u t (k / 2)
    if k % 2 = 1 then let y := xStep p a24 u x.2 x.1; (y.2, y.1) else xStep p a24 u x.1 x.2

/-- The result for a private value and the peer's. -/
def xAgree (set : Nat) (k u : Bytes) : Bytes :=
  let p := edPrime set
  let x := xLadder p (if set = 2 then 39081 else 121665) (xCoordinate set u) (if set = 2 then 448 else 255) (clamp set k)
  leBytes (xPk set) (x.1.1 * powMod p x.1.2 (p - 2) % p)

/-- The public value of a private one. -/
def xPublic (set : Nat) (k : Bytes) : Bytes := xAgree set k (leBytes (xPk set) (if set = 2 then 5 else 9))

/-! ### RSA (RFC 8017, R336, R340) -/

/-- Bytes of n (R335). -/
def rsaK (set : Nat) : Nat := [0, 256, 384, 512, 1024].getD set 0

/-- n and e of an RSA key: its first k and the next 32 bytes. -/
def rsaN (set : Nat) (key : Bytes) : Nat := beNat (key.take (rsaK set))
def rsaE (set : Nat) (key : Bytes) : Nat := beNat (slice_ key (rsaK set) 32)

/-- A part of an RSA private key: p, q, dp, dq and qinv are parts 0 to 4. -/
def rsaPart (set : Nat) (key : Bytes) (j : Nat) : Nat :=
  let h := rsaK set / 2
  beNat (slice_ key (rsaK set + 32 + j * h) h)

/-- The private operation by CRT. -/
def rsaPrivate (set : Nat) (key : Bytes) (c : Nat) : Nat :=
  let p := rsaPart set key 0
  let q := rsaPart set key 1
  let x := powMod p c (rsaPart set key 2)
  let y := powMod q c (rsaPart set key 3)
  y + q * (rsaPart set key 4 * subMod p x y % p)

def rsaPublic (set : Nat) (key : Bytes) (m : Nat) : Nat := powMod (rsaN set key) m (rsaE set key)

/-- The result of a private operation reproduces its input under e (R353). -/
def rsaReproduces (set : Nat) (key : Bytes) (c m : Nat) : Bool := rsaPublic set key m == c % rsaN set key

/-- The constants of Montgomery set-up that follow a private key, or n and e: R² mod p, mod q and mod n (R340). -/
def rsaSquare (len m : Nat) : Bytes := beBytes len (2 ^ (16 * len) % m)
def rsaPrivateConstants (set : Nat) (key : Bytes) : Bytes :=
  rsaSquare (rsaK set / 2) (rsaPart set key 0) ++ rsaSquare (rsaK set / 2) (rsaPart set key 1) ++ rsaSquare (rsaK set) (rsaN set key)
def rsaPublicConstants (set : Nat) (key : Bytes) : Bytes := rsaSquare (rsaK set) (rsaN set key)

/-- An odd integer of b bits with its top two bits set, from a candidate's draw (R551). -/
def rsaCandidate (b : Nat) (d : Bytes) : Nat := beNat d % 2 ^ (b - 2) / 2 * 2 + 1 + 3 * 2 ^ (b - 2)

/-- The key of two primes, e being 65,537: n, e, p, q, dp, dq, qinv and the constants (R336, R340). -/
def rsaKeyOf (set p q : Nat) : Bytes :=
  let k := rsaK set
  let h := k / 2
  let key := beBytes k (p * q) ++ beBytes 32 65537 ++ beBytes h p ++ beBytes h q ++ beBytes h (invMod (p - 1) 65537)
    ++ beBytes h (invMod (q - 1) 65537) ++ beBytes h (invMod p q)
  key ++ rsaPrivateConstants set key

/-- The strong test of an odd n to a base, from the power (n − 1) / 2 down to the odd one. -/
def strongTest (n a : Nat) : Nat → Nat → Bool
  | 0, _ => false
  | k + 1, d =>
    if d % 2 = 1 then powMod n a d == 1 || powMod n a d == n - 1
    else powMod n a d == n - 1 || strongTest n a k (d / 2)

/-- A candidate passes Miller and Rabin's test to 64 bases that the job's bits supply (R341, R551; log entry 154). -/
def rsaAccepts (bits : Bytes) (n : Nat) : Bool :=
  (List.range 64).all fun j => strongTest n (nonZero n (blind bits 3 j 128)) (n.log2 + 1) ((n - 1) / 2)

/-! ### Randomised representations (R341) -/

/-- A secret m of a group, by use `use_` of the bits: the two parts of m + r × order, each multiplied in turn. -/
def groupBlinded (g : Group) (bits : Bytes) (use_ m : Nat) : List Nat :=
  let m' := m + blind bits use_ 0 8 * g.n
  let a := blind bits use_ 1 (g.len + 8) % (m' + 1)
  [a, m' - a]

/-- How a job holds its secret: the key of its content, or the number its bits make where it names none. The ladder's
scalar stays as it is; dp and dq grow by multiples of p − 1 and q − 1. -/
def blindedSecret (fam set : Nat) (key bits : Bytes) : List Nat :=
  match fam with
  | 0x10 => groupBlinded (ecGroup set) bits 1 (if key.isEmpty then ecScalarFrom set bits 0 else beNat (key.take (ecCoord set)))
  | 0x11 => groupBlinded (edGroup set) bits 1 (edScalar set (if key.isEmpty then bits.take (edPk set) else key.take (edPk set)))
  | 0x12 => [leNat (if key.isEmpty then bits.take (xPk set) else key)]
  | 0x13 =>
    if key.isEmpty then []
    else [rsaPart set key 2 + blind bits 1 0 8 * (rsaPart set key 0 - 1), rsaPart set key 3 + blind bits 1 1 8 * (rsaPart set key 1 - 1)]
  | _ => []

/-- The nonce r of an EdDSA signature over ctx and M. -/
def edNonce (set variant : Nat) (seed ctx m : Bytes) : Nat :=
  leNat (edHash set (edDom set variant ctx ++ (edHash set seed).drop (edPk set) ++ m)) % edOrder set

/-- How a signature's nonce is held: ECDSA's from the bits, EdDSA's from key, context and message. -/
def blindedNonce (fam set variant ctxLen : Nat) (key input bits : Bytes) : List Nat :=
  match fam with
  | 0x10 => groupBlinded (ecGroup set) bits 4 (ecScalarFrom set bits 1)
  | 0x11 => groupBlinded (edGroup set) bits 4 (edNonce set variant (key.take (edPk set)) (input.take ctxLen) (input.drop ctxLen))
  | _ => []

/-- How a private operation holds its base c: u, c × u^e modulo n, and u⁻¹. -/
def blindedBase (set : Nat) (key bits : Bytes) (c : Nat) : List Nat :=
  let n := rsaN set key
  let u := nonZero n (blind bits 1 2 (rsaK set))
  [u, c * powMod n u (rsaE set key) % n, invMod n u]

/-- The factors that scale a job's coordinates: at the start, and again after every 32 steps; a ladder's step is a bit of its
scalar, another's a window of four (log entry 189). -/
def scalings (fam set : Nat) (bits : Bytes) : List Nat :=
  let some_ (p len steps : Nat) : List Nat := (List.range (1 + steps / 32)).map fun k => nonZero p (blind bits 5 k len)
  match fam with
  | 0x10 => some_ (ecPrime set) (ecCoord set) (2 * (ecCoord set + 8))
  | 0x11 => some_ (edPrime set) (edPk set) (2 * (edPk set + 8))
  | 0x12 => some_ (edPrime set) (xPk set) (8 * xPk set)
  | _ => []

/-! ### Encodings of messages for RSA -/

/-- The hash of a PH_ALG code from 1 to 6, by its code of R356 (R268). -/
def rsaHash (h : Nat) (m : Bytes) : Bytes :=
  primBytes (.digest ([0, 2, 3, 4, 0x12, 0x13, 0x14].getD h 0)) [m] ([0, 32, 48, 64, 32, 48, 64].getD h 0)

/-- MGF1. -/
def mgf1 (h n : Nat) (seed : Bytes) : Bytes := ((List.range (n / 32 + 1)).flatMap fun j => rsaHash h (seed ++ beBytes 4 j)).take n

/-- The DigestInfo of a digest: its algorithm's object identifier is 2.16.840.1.101.3.4.2.x. -/
def digestInfo (h : Nat) (digest : Bytes) : Bytes :=
  let n := BitVec.ofNat 8 digest.length
  [0x30, 0x11 + n, 0x30, 0x0D, 0x06, 0x09, 0x60, 0x86, 0x48, 0x01, 0x65, 0x03, 0x04, 0x02,
    BitVec.ofNat 8 ([0, 1, 2, 3, 8, 9, 10].getD h 0), 0x05, 0x00, 0x04, n] ++ digest

/-- EMSA-PKCS1-v1_5. -/
def pkcs1Encode (k h : Nat) (digest : Bytes) : Bytes :=
  let t := digestInfo h digest
  [0, 1] ++ List.replicate (k - 3 - t.length) 0xFF ++ [0] ++ t

/-- EMSA-PSS of a digest and a salt of the hash length. -/
def pssEncode (k h : Nat) (digest salt : Bytes) : Bytes :=
  let hash := rsaHash h (zeros 8 ++ digest ++ salt)
  let n := k - hash.length - 1
  let db := zeros (n - salt.length - 1) ++ [1] ++ salt
  match xorBytes db (mgf1 h n hash) with
  | b :: rest => ((b &&& 0x7F) :: rest) ++ hash ++ [0xBC]
  | [] => hash ++ [0xBC]

/-- The PSS encoding holds for a digest, with a salt of the hash length and no other (R338). -/
def pssHolds (k h : Nat) (digest em : Bytes) : Bool :=
  let len := digest.length
  let n := k - len - 1
  let salt := (xorBytes (em.take n) (mgf1 h n (slice_ em n len))).drop (n - len)
  em == pssEncode k h digest salt

/-- EME-OAEP with an empty label (R338). -/
def oaepEncode (k h : Nat) (m seed : Bytes) : Bytes :=
  let label := rsaHash h []
  let n := k - label.length - 1
  let db := label ++ zeros (n - label.length - 1 - m.length) ++ [1] ++ m
  let masked := xorBytes db (mgf1 h n seed)
  0 :: (xorBytes seed (mgf1 h seed.length masked) ++ masked)

/-- The message of an OAEP encoding that decodes. -/
def oaepDecode (k h : Nat) (em : Bytes) : Option Bytes :=
  let label := rsaHash h []
  let len := label.length
  let n := k - len - 1
  let masked := em.drop (1 + len)
  let seed := xorBytes (slice_ em 1 len) (mgf1 h len masked)
  let db := xorBytes masked (mgf1 h n seed)
  match (db.drop len).dropWhile (fun b => b == 0) with
  | b :: m => if em.head? == some 0 && db.take len == label && b == 1 then some m else none
  | [] => none

end Sys2Proof.Machine
end

