-- ==== Sys2Proof/Machine/OpInfo.lean ====
section
/-! DEFINITION. What the fetch checks and the engines ask of an opcode (R153), key runs and handles (R249, R395,
R396), and how an operation's command meets the item in service. -/

namespace Sys2Proof.Machine

/-! ### What an opcode declares -/

/-- The facts of the key an item names, as step 6 of R153 sees them. -/
structure KeyFacts where
  kind : Nat
  family : Nat
  set : Nat
  policy : Word
  contentLen : Nat
  building : Bool
  /-- Named by a sealed record. -/
  record : Bool

/-- A run that the item reserves at fetch (R249). -/
structure NewRun where
  length : Nat
  kind : Nat
  family : Nat
  set : Nat

/-- What the checks of R153 need to know of one descriptor's opcode. -/
structure OpInfo where
  /-- Step 1: the operands, flags and zero fields of the family. -/
  form : Bool := true
  depositOk : Bool := false
  sealedOk : Bool := false
  /-- Step 3. -/
  inputOk : Bool := true
  /-- Step 4: the largest output. -/
  outMax : Nat := 0
  /-- Step 5 and 6: `none` where KEY must be zero. -/
  key : Option (KeyFacts → Bool) := none
  /-- Step 6, what does not depend on the key: the POLICY operand. -/
  policyOk : Bool := true
  /-- Waits for seeding (R72). -/
  random : Bool := false
  /-- The run reserved at fetch. -/
  run : Option NewRun := none

/-- An OpInfo that fails step 1. -/
def OpInfo.unsupported : OpInfo := { form := false }

/-! ### Policy words (R397, R398) -/

def polSign : Nat := 0x01

def polVerify : Nat := 0x02

def polAgree : Nat := 0x04

def polPure : Nat := 0x08

def polPrehash : Nat := 0x10

def polRaw : Nat := 0x20

def polDecrypt : Nat := 0x40

def polDerive : Nat := 0x80

def polMac : Nat := 0x100

def polDeriveOut : Nat := 0x200

def polSeal : Nat := 0x400

def polMigrate : Nat := 0x800

def polOwner : Nat := 0x1000

/-- All the bits of `m` are set in a policy. -/
def polHas (p : Word) (m : Nat) : Bool := p.toNat &&& m == m

/-- Use bits that have a meaning for a key's kind and family (R397, R398). -/
def useBits (kind fam : Nat) : Nat :=
  if kind = 5 ∨ kind = 6 then polDerive + polMac + polDeriveOut
  else if kind = 2 then
    (if fam = 0x01 ∨ fam = 0x08 ∨ fam = 0x12 then polAgree else polVerify)
  else if kind = 3 then polAgree
  else if fam = 0x01 ∨ fam = 0x07 ∨ fam = 0x08 ∨ fam = 0x12 ∨ fam = 0x20 then polAgree
  else if fam = 0x10 then polSign + polVerify + polAgree
  else if fam = 0x13 then polSign + polVerify + polDecrypt + polRaw
  else polSign + polVerify + (if fam = 0x02 ∨ fam = 0x04 ∨ fam = 0x11 ∨ fam = 0x21 then polPure + polPrehash else 0)

/-- The default policy of a new key's kind (R398); family 0x10 private keys have none. -/
def defaultPolicy (kind fam : Nat) : Nat :=
  polSeal + polMigrate +
    (if kind = 5 ∨ kind = 6 then polDerive + polMac + polDeriveOut
     else if kind = 2 then
       (if fam = 0x01 ∨ fam = 0x08 ∨ fam = 0x12 then polAgree else polVerify)
     else if kind = 3 then polAgree
     else if fam = 0x01 ∨ fam = 0x07 ∨ fam = 0x08 ∨ fam = 0x12 ∨ fam = 0x20 then polAgree
     else polSign + polVerify
       + (if fam = 0x02 ∨ fam = 0x04 ∨ fam = 0x11 ∨ fam = 0x21 then polPure else 0)
       + (if fam = 0x13 then polDecrypt else 0))

/-- Step 1 of a POLICY operand: bits [31:24] and [15:13] are not the host's (R398). -/
def policyForm (p : Word) : Bool := fieldOf p 24 8 == 0 && fieldOf p 13 3 == 0

/-- Step 6 of a POLICY operand for a new key (R398). -/
def policyAllowed (p : Word) (kind fam : Nat) : Bool :=
  if p = 0 then !(kind == 1 && fam == 0x10)
  else
    let use := p.toNat % 1024
    let agreeSign := polHas p polSign && polHas p polAgree
    (use &&& useBits kind fam) == use && use != 0 && !agreeSign
      && (!(kind == 1 && fam == 0x10) || polHas p polSign || polHas p polAgree)
      && (fieldOf p 16 8 == 0 || decide (0xC0 ≤ fieldOf p 16 8))

/-- RESTRICT (R403): policy AND operand over bits 12 to 0. -/
def restricted (p mask : Word) : Word := (p &&& ~~~0x1FFF) ||| (p &&& mask &&& 0x1FFF)

/-- The policy a new key takes: the operand, or the default, with the module's ORIGIN and ONE_SHOT (R397, R398). -/
def newPolicy (p : Word) (kind fam origin : Nat) (oneShot : Bool) : Word :=
  let b := if p = 0 then defaultPolicy kind fam else p.toNat % 2 ^ 24
  BitVec.ofNat 32 (b + origin * 2 ^ 28 + bit oneShot * 2 ^ 27)

/-! ### Runs, handles and free drawers -/

/-- A handle: generation above first drawer (R396). -/
def handleOf (r : KeyRun) : Nat := r.gen * 65536 + r.first

/-- The run that a 32-bit handle names in a slice: live (or a building stateful key), with that first drawer and
generation, and no DELETE granted (R396, R412). -/
def runOf (s : State) (p : PortId) (i : SliceIdx) (h : Nat) : Option KeyRun :=
  s.runs.find? fun r => r.port == p && r.slice == i && r.first == h % 65536 && r.gen == h / 65536 % 65536
    && (r.state == .live || r.state == .building) && r.deleting.isNone && r.claimed.isNone

/-- The run an item names, by the drawer recorded at its fetch. -/
def itemRun (s : State) (i : Item) : Option KeyRun :=
  match i.keyRun with
  | none => none
  | some f => s.runs.find? fun r => r.port == i.port && r.slice == i.slice && r.first == f

/-- The lowest start of `n` consecutive free drawers among the first `allot` (R249). -/
def findFree (rs : List (Nat × Nat)) (n allot : Nat) : Nat → Nat → Option Nat
  | 0, _ => none
  | fuel + 1, start =>
    if allot < start + n then none
    else match rs.find? fun r => decide (r.1 < start + n) && decide (start < r.1 + r.2) with
      | none => some start
      | some r => findFree rs n allot fuel (r.1 + r.2)

/-- Where a run of `n` drawers fits in the slice. -/
def freeRun (s : State) (x : Slice) (n : Nat) : Option Nat :=
  let rs := (s.runs.filter fun r => r.port == x.port && r.slice == x.idx).map fun r => (r.first, r.length)
  findFree rs n x.drawers (rs.length + 1) 0

/-- The reservation an item made at fetch. -/
def reservedRun (s : State) (id : Nat) : Option KeyRun := s.runs.find? fun r => r.state == .reserved id

/-- The handle a reservation will carry. -/
def reservedHandle (s : State) (i : Item) : Nat := match reservedRun s i.id with | some r => handleOf r | none => 0

/-! ### Sealed records (R399) -/

def recField (r : Bytes) (k n : Nat) : Nat := leNat (slice_ r k n)

def recFamily (r : Bytes) : Nat := recField r 12 1

def recSet (r : Bytes) : Nat := recField r 13 1

def recKind (r : Bytes) : Nat := recField r 14 1

def recPolicy (r : Bytes) : Word := BitVec.ofNat 32 (recField r 16 4)

def recRun (r : Bytes) : Nat := recField r 20 4

def recUid (r : Bytes) : BitVec 64 := BitVec.ofNat 64 (recField r 24 8)

def recKeyId (r : Bytes) : Nat := recField r 32 8

def recFamilyId (r : Bytes) : Nat := recField r 40 4

/-- P, from TOTAL_LEN. -/
def recContentLen (r : Bytes) : Nat := recField r 8 4 - 80

/-- The UID of an item's slice. -/
def itemUid (s : State) (i : Item) : BitVec 64 := match findSlice s i.port i.slice.val with | some x => x.uid | none => 0

/-- The slice wrap key (R389). -/
def wrapKey (s : State) (uid : BitVec 64) : Bytes := kmac256 s.backup.chest.ork (leBytes 8 uid.toNat) 32 (ascii "AQX-WRAP")

/-- What a sealed record opens to under a wrap key: bytes 0 to 63 are the additional data, the IV among them (R399). -/
def openRecord (key r : Bytes) : Option Bytes :=
  let p := recContentLen r
  gcmOpen key (slice_ r 44 12) (r.take 64) (slice_ r 64 p) (slice_ r (64 + p) 16)

/-- The content of the key an item names: its run's, or what its record opens to (R399, R401). -/
def keyContent (s : State) (i : Item) : Bytes :=
  match i.record with
  | some r => (openRecord (wrapKey s (itemUid s i)) r).getD []
  | none => match itemRun s i with | some r => r.content | none => []

/-- The facts of the key an item names. -/
def keyFacts (s : State) (i : Item) : Option KeyFacts :=
  match i.record with
  | some r => some { kind := recKind r, family := recFamily r, set := recSet r, policy := recPolicy r, contentLen := recContentLen r, building := false, record := true }
  | none => (itemRun s i).map fun r =>
    { kind := r.kind, family := r.family, set := r.set, policy := r.policy, contentLen := r.content.length, building := r.state == .building, record := false }

/-! ### Step 1 of R153 for a family -/

/-- Operand bytes 40 to 55 are zero outside the byte ranges the operation uses. -/
def operandsUse (e : Entry) (used : List (Nat × Nat)) : Bool :=
  ((List.range 16).map fun k => k + 40).all fun k => used.any (fun r => decide (r.1 ≤ k) && decide (k < r.2)) || entryByte e k == 0

/-- POLICY (bytes 40 to 43) of an operation that makes a key of this kind: its form (step 1). -/
def policyFormOf (e : Entry) : Bool := policyForm (policyOperand e)

/-- The 32-bit handle in KEY. -/
def keyHandle (e : Entry) : BitVec 32 := BitVec.ofNat 32 (entryNat e 8 4)

/-! ### Commands over the item in service -/

/-- The instance serves draws: instantiated, not stalled, and its count not at its end (R379, R380). -/
def instServes (s : State) (k : InstId) : Bool :=
  let x := s.bobbin.instances[k.val]
  x.instantiated && !x.stalled && decide (x.count < 2 ^ 32)

end Sys2Proof.Machine
end

