-- ==== Sys2Proof/Machine/Families.lean ====
section
/-! DEFINITION. The families' sizes and operand forms: what each opcode declares at fetch, and what a grant binds (R243 to
R413). -/

namespace Sys2Proof.Machine

/-! ### Key encapsulation and hybrids -/

def kemK (set : Nat) : Nat := set + 1

def kemEk (set : Nat) : Nat := 384 * kemK set + 32

def kemDk (set : Nat) : Nat := 768 * kemK set + 96

def kemCt (set : Nat) : Nat := [0, 768, 1088, 1568].getD set 0

def kemDkDrawers (set : Nat) : Nat := (kemDk set + 127) / 128

/-- The ML-KEM set of a hybrid set. -/
def hybKem (set : Nat) : Nat := if set = 1 then 2 else 3

/-- The classical public value's and private scalar's and secret's lengths of a hybrid set. -/
def hybPub (set : Nat) : Nat := [0, 32, 97, 56].getD set 0

def hybScalar (set : Nat) : Nat := [0, 32, 48, 56].getD set 0

def hybClient (set : Nat) : Nat := kemEk (hybKem set) + hybPub set

def hybServer (set : Nat) : Nat := kemCt (hybKem set) + hybPub set

def hybSecret (set : Nat) : Nat := 32 + hybScalar set

def hybDrawers (set : Nat) : Nat := (kemDk (hybKem set) + hybScalar set + 127) / 128

/-- A one-drawer deposit's reservation. -/
def depositRun (e : Entry) : Option NewRun :=
  if depositFlag e then some { length := 1, kind := 5, family := famOf e, set := setOf e } else none

/-- An operation that makes or deposits a key uses POLICY; byte 44 bit 0 is ONE_SHOT where a key is generated. -/
def keygenForm (e : Entry) : Bool := operandsUse e [(40, 45)] && entryByte e 44 ≤ 1 && policyFormOf e

def depositForm (e : Entry) : Bool := if depositFlag e then operandsUse e [(40, 44)] && policyFormOf e else operandsUse e []

def depositPolicyOk (e : Entry) : Bool := !depositFlag e || policyAllowed (policyOperand e) 5 (famOf e)

/-- A key of family `fam` and this set, of one of the kinds, with the use bits. -/
def keyFor (kinds : List Nat) (fam set use : Nat) (k : KeyFacts) : Bool :=
  kinds.contains k.kind && k.family == fam && k.set == set && polHas k.policy use

def infoKem (e : Entry) : OpInfo :=
  let set := setOf e
  let len := inputLen e
  let keygen (inp : Nat) : OpInfo :=
    { form := keygenForm e, inputOk := len == inp, outMax := kemEk set, policyOk := policyAllowed (policyOperand e) 1 0x01
      random := true, run := some { length := kemDkDrawers set, kind := 1, family := 0x01, set := set } }
  let ctOut := if depositFlag e then kemCt set else kemCt set + 32
  match opOf e with
  | 0x10 => keygen 0
  | 0x14 => keygen 64
  | 0x11 =>
    { form := depositForm e, depositOk := true, sealedOk := true, inputOk := len == 0, outMax := ctOut
      key := some (keyFor [1, 2] 0x01 set polAgree), policyOk := depositPolicyOk e, random := true, run := depositRun e }
  | 0x13 =>
    { form := depositForm e, depositOk := true, inputOk := len == kemEk set, outMax := ctOut
      policyOk := depositPolicyOk e, random := true, run := depositRun e }
  | 0x12 =>
    { form := depositForm e, depositOk := true, sealedOk := true, inputOk := len == kemCt set, outMax := if depositFlag e then 0 else 32
      key := some (keyFor [1] 0x01 set polAgree), policyOk := depositPolicyOk e, random := true, run := depositRun e }
  | _ => .unsupported

def infoHybrid (e : Entry) : OpInfo :=
  let set := setOf e
  let len := inputLen e
  match opOf e with
  | 0x18 =>
    { form := keygenForm e, inputOk := len == 0, outMax := hybClient set, policyOk := policyAllowed (policyOperand e) 1 0x20
      random := true, run := some { length := hybDrawers set, kind := 1, family := 0x20, set := set } }
  | 0x19 =>
    { form := depositForm e, depositOk := true, inputOk := len == hybClient set
      outMax := if depositFlag e then hybServer set else hybServer set + hybSecret set
      policyOk := depositPolicyOk e, random := true, run := depositRun e }
  | 0x1A =>
    { form := depositForm e, depositOk := true, sealedOk := true, inputOk := len == hybServer set
      outMax := if depositFlag e then 0 else hybSecret set, key := some (keyFor [1] 0x20 set polAgree)
      policyOk := depositPolicyOk e, random := true, run := depositRun e }
  | _ => .unsupported

/-! ### Lattice signatures and composites -/

def dsaPk (set : Nat) : Nat := [0, 1312, 1952, 2592].getD set 0

def dsaSk (set : Nat) : Nat := [0, 2560, 4032, 4896].getD set 0

def dsaSig (set : Nat) : Nat := [0, 2420, 3309, 4627].getD set 0

def fnPk (set : Nat) : Nat := [0, 897, 1793].getD set 0

def fnSk (set : Nat) : Nat := [0, 1281, 2305].getD set 0

def fnSigMax (set : Nat) : Nat := [0, 666, 1280].getD set 0

/-- The ML-DSA set of a composite set; its classical public key, private value and signature lengths (R279). -/
def compDsa (set : Nat) : Nat := if set = 1 then 2 else 3

def compClsPk (set : Nat) : Nat := [0, 65, 97, 57].getD set 0

def compClsSk (set : Nat) : Nat := [0, 32, 48, 57].getD set 0

def compClsSig (set : Nat) : Nat := [0, 64, 96, 114].getD set 0

def compPk (set : Nat) : Nat := dsaPk (compDsa set) + compClsPk set

def compSig (set : Nat) : Nat := dsaSig (compDsa set) + compClsSig set

/-- 16 MiB, the family maximum (R154, R269). -/
def maxInput : Nat := 16777216

/-- PH(M) length of a PH_ALG; 0 for one outside R268. -/
def phLen (alg : Nat) : Nat := [0, 32, 48, 64, 32, 48, 64, 32, 64].getD alg 0

def ctxLenOf (e : Entry) : Nat := entryByte e 44

def phAlgOf (e : Entry) : Nat := entryByte e 45

def sigLenOf (e : Entry) : Nat := entryNat e 48 2

/-- What differs between the families whose operations R266 and R289 give one shape. -/
structure SigFamily where
  fam : Nat
  pk : Nat
  sig : Nat
  seed : Nat
  drawers : Nat

def sigKeygenInfo (f : SigFamily) (e : Entry) (inp : Nat) : OpInfo :=
  { form := operandsUse e [(40, 44)] && policyFormOf e, inputOk := inputLen e == inp, outMax := f.pk
    policyOk := policyAllowed (policyOperand e) 1 f.fam, random := true
    run := some { length := f.drawers, kind := 1, family := f.fam, set := setOf e } }

/-- SIGN, pure or pre-hash; `det` permits DETERMINISTIC. -/
def sigSignInfo (f : SigFamily) (e : Entry) (ph det : Bool) : OpInfo :=
  let len := inputLen e
  { form := operandsUse e ([(44, 45)] ++ (if ph then [(45, 46)] else []) ++ (if det then [(46, 47)] else []))
      && entryByte e 46 ≤ 1 && (!ph || phLen (phAlgOf e) != 0)
    sealedOk := true
    inputOk := len ≤ maxInput && (if ph then len == ctxLenOf e + phLen (phAlgOf e) else ctxLenOf e ≤ len)
    outMax := f.sig
    key := some (keyFor [1] f.fam (setOf e) (polSign + (if ph then polPrehash else polPure)))
    random := true }

/-- VERIFY and VERIFY_PK, pure or pre-hash. -/
def sigVerifyInfo (f : SigFamily) (e : Entry) (ph pk : Bool) : OpInfo :=
  let len := inputLen e
  let front := (if pk then f.pk else 0) + ctxLenOf e
  { form := operandsUse e ([(44, 45), (48, 50)] ++ (if ph then [(45, 46)] else [])) && (!ph || phLen (phAlgOf e) != 0)
    sealedOk := !pk
    inputOk := len ≤ maxInput && sigLenOf e == f.sig
      && (if ph then len == front + phLen (phAlgOf e) + f.sig else front + f.sig ≤ len)
    key := if pk then none else some (keyFor [1, 2] f.fam (setOf e) polVerify) }

def dsaFamily (set : Nat) : SigFamily :=
  { fam := 0x02, pk := dsaPk set, sig := dsaSig set, seed := 32, drawers := (dsaSk set + dsaPk set + 127) / 128 }

def infoMldsa (e : Entry) : OpInfo :=
  let f := dsaFamily (setOf e)
  match opOf e with
  | 0x20 => sigKeygenInfo f e 0
  | 0x21 => sigKeygenInfo f e 32
  | 0x22 => sigSignInfo f e false true
  | 0x23 => sigSignInfo f e true true
  | 0x24 => sigVerifyInfo f e false false
  | 0x25 => sigVerifyInfo f e true false
  | 0x26 => sigVerifyInfo f e false true
  | 0x27 => sigVerifyInfo f e true true
  | _ => .unsupported

def compFamily (set : Nat) : SigFamily :=
  let d := compDsa set
  { fam := 0x21, pk := compPk set, sig := compSig set, seed := 0
    drawers := (dsaSk d + dsaPk d + compClsSk set + compClsPk set + 127) / 128 }

def infoComposite (e : Entry) : OpInfo :=
  let f := compFamily (setOf e)
  match opOf e with
  | 0x2C => sigKeygenInfo f e 0
  | 0x2D => sigSignInfo f e false false
  | 0x2E => sigVerifyInfo f e false false
  | 0x2F => sigVerifyInfo f e false true
  | _ => .unsupported

def infoFndsa (e : Entry) : OpInfo :=
  let set := setOf e
  let len := inputLen e
  let sl := sigLenOf e
  match opOf e with
  | 0x28 => sigKeygenInfo { fam := 0x03, pk := fnPk set, sig := fnSigMax set, seed := 0, drawers := (fnSk set + fnPk set + 127) / 128 } e 0
  | 0x29 =>
    { form := operandsUse e [], sealedOk := true, inputOk := len ≤ maxInput, outMax := fnSigMax set
      key := some (keyFor [1] 0x03 set polSign), random := true }
  | 0x2A =>
    { form := operandsUse e [(48, 50)], sealedOk := true, key := some (keyFor [1, 2] 0x03 set polVerify)
      inputOk := len ≤ maxInput && 42 ≤ sl && sl ≤ fnSigMax set && sl ≤ len }
  | 0x2B =>
    { form := operandsUse e [(48, 50)]
      inputOk := len ≤ maxInput && 42 ≤ sl && sl ≤ fnSigMax set && sl + fnPk set ≤ len }
  | _ => .unsupported

/-! ### Hash-based signatures and the tally -/

/-- n of a set: by its low digit 16, 24 or 32. -/
def slhN (set : Nat) : Nat := [0, 16, 16, 24, 24, 32, 32].getD (set % 16) 0

def slhPk (set : Nat) : Nat := 2 * slhN set

def slhSk (set : Nat) : Nat := 4 * slhN set

def slhSig (set : Nat) : Nat := [0, 7856, 17088, 16224, 35664, 29792, 49856].getD (set % 16) 0

def slhFamily (set : Nat) : SigFamily :=
  { fam := 0x04, pk := slhPk set, sig := slhSig set, seed := 3 * slhN set, drawers := 1 }

def infoSlhdsa (e : Entry) : OpInfo :=
  let f := slhFamily (setOf e)
  match opOf e with
  | 0x30 => sigKeygenInfo f e 0
  | 0x31 => sigKeygenInfo f e f.seed
  | 0x32 => sigSignInfo f e false true
  | 0x33 => sigSignInfo f e true true
  | 0x34 => sigVerifyInfo f e false false
  | 0x35 => sigVerifyInfo f e true false
  | 0x36 => sigVerifyInfo f e false true
  | 0x37 => sigVerifyInfo f e true true
  | _ => .unsupported

/-- BUILD_INDEX. -/
def buildIndex (e : Entry) : Nat := entryNat e 52 4

/-- The first operation byte of a stateful family. -/
def statefulBase (fam : Nat) : Nat := if fam = 0x05 then 0x38 else 0x40

/-- A stateful sign key of the family and set, building or live as asked, not a record. -/
def statefulKey (fam set use : Nat) (building : Bool) (k : KeyFacts) : Bool :=
  keyFor [4] fam set use k && k.building == building && !k.record

/-- A key VERIFY names: a stateful sign key that is not building, or a verify key. -/
def statefulVerifyKey (fam set : Nat) (k : KeyFacts) : Bool := keyFor [2, 4] fam set polVerify k && !k.building

def infoStateful (e : Entry) : OpInfo :=
  let fam := famOf e
  let set := setOf e
  let len := inputLen e
  let sig := statefulSigLen fam set
  let pk := statefulPkLen fam set
  let b := statefulBase fam
  let op := opOf e
  if op = b then
    { form := operandsUse e [(40, 44)] && policyFormOf e, inputOk := len == 0
      policyOk := policyAllowed (policyOperand e) 4 fam, random := true
      run := some { length := statefulDrawers fam set, kind := 4, family := fam, set := set } }
  else if op = b + 1 then
    { form := operandsUse e [(52, 56)], inputOk := len == 0, key := some (statefulKey fam set 0 true)
      policyOk := decide (buildIndex e < buildCount fam set), random := true }
  else if op = b + 2 then
    { form := operandsUse e [], inputOk := len == 0, outMax := pk, key := some (statefulKey fam set 0 true), random := true }
  else if op = b + 3 then
    { form := operandsUse e [], sealedOk := true, inputOk := decide (len ≤ maxInput), outMax := sig
      key := some (statefulKey fam set polSign false), random := true }
  else if op = b + 4 then
    { form := operandsUse e [(48, 50)], sealedOk := true, key := some (statefulVerifyKey fam set)
      inputOk := decide (len ≤ maxInput) && sigLenOf e == sig && decide (sig ≤ len) }
  else if op = b + 5 then
    { form := operandsUse e [(48, 50)]
      inputOk := decide (len ≤ maxInput) && sigLenOf e == sig && decide (pk + sig ≤ len) }
  else .unsupported

/-- QUERY and RETIRE take any stateful sign key, building or live (R297, R312). -/
def infoTally (e : Entry) : OpInfo :=
  let form := operandsUse e []
  let key (k : KeyFacts) : Bool := k.kind == 4 && !k.record
  match opOf e with
  | 0x48 => { form := form, inputOk := inputLen e == 0, outMax := 32, key := some key }
  | 0x49 => { form := form, inputOk := inputLen e == 0, key := some key }
  | _ => .unsupported

/-- The record of a key's KEY_ID. -/
def tallyOf (s : State) (keyId : Nat) : Option TallyRecord := s.flash.tally.find? fun t => tallyKey t == some keyId

/-- The UID a record belongs to. -/
def tallyUid (t : TallyRecord) : Option (BitVec 64) :=
  match t.building with
  | some b => some b.2
  | none => (tallyNewest t).map fun c => c.uid

/-- Records that count against a slice's allotment (R307). -/
def tallyHeld (s : State) (uid : BitVec 64) : Nat := (s.flash.tally.filter fun t => tallyUid t == some uid).length

/-- A record holds, or will hold, a top-level pointer (R306). -/
def takesPointer (s : State) (t : TallyRecord) : Bool :=
  match t.building with
  | some b => s.runs.any fun r => r.kind == 4 && r.keyId == b.1 && hasPointer r.family r.set
  | none => match tallyNewest t with | some c => (pointerOf s c.keyId).isSome | none => false

/-- Pointers of a port's live slices. -/
def pointersOfPort (s : State) (p : PortId) : Nat :=
  (s.flash.tally.filter fun t => takesPointer s t
    && s.slices.any fun x => x.port == p && tallyUid t == some x.uid).length

/-- Pointers in the chest and those reserved for keys being built. -/
def pointersHeld (s : State) : Nat :=
  s.backup.chest.pointers.length + (s.flash.tally.filter fun t => t.building.isSome && takesPointer s t).length

/-- The lowest record number that is free. -/
def freeRecord (s : State) : Option Nat :=
  (List.range 8192).find? fun n => !s.flash.tally.any fun t => t.number == n

/-- KEYGEN_START finds its tally record and its pointer (R300, R306 to R308). -/
def tallyRoom (s : State) (x : Slice) (fam set : Nat) : Bool :=
  decide (tallyWear s < 1000) && decide (s.flash.tally.length < 8192) && decide (tallyHeld s x.uid < x.tallyAllot)
    && (!hasPointer fam set
      || (decide (pointersHeld s < 256) && decide (pointersOfPort s x.port < 256 * s.shares[x.port.val] / 1024)))

/-- The mark of a key whose KEY_ID is not drawn yet: outside the 64 bits of a KEY_ID. -/
def unnamedKey (item : Nat) : Nat := 2 ^ 64 + item

/-- Reserves a record for the key that item `id` begins. -/
def reserveTally (id : Nat) (uid : BitVec 64) (s : State) : State :=
  match freeRecord s with
  | none => s
  | some n => { s with flash := { s.flash with tally := s.flash.tally ++ [{ number := n, building := some (unnamedKey id, uid) }] } }

/-- The tally record of the key an item names. -/
def itemTally (s : State) (i : Item) : Option TallyRecord :=
  match itemRun s i with
  | none => none
  | some r => tallyOf s r.keyId

/-- What keeps a SIGN from binding (R312): TALLY_RETIRED, or TALLY_EXHAUSTED. An index bound before a restart stays. -/
def signBar (s : State) (i : Item) : Option Status :=
  if i.boundIndex.isSome then none
  else match itemTally s i with
    | none => some .tallyRetired
    | some t =>
      match tallyLatest t with
      | none => some .tallyRetired
      | some c =>
        if t.unusable || c.state == 4 then some .tallyRetired
        else if decide (statefulLimit c.family c.set ≤ t.next) then some .tallyExhausted
        else none

/-- The key has a reserved index left: its next index lies below the durable CEILING (R304). -/
def signReady (s : State) (i : Item) : Bool :=
  i.boundIndex.isSome || (match itemTally s i with
    | none => false
    | some t => match tallyNewest t with | some c => decide (t.next < c.ceiling) | none => false)

/-- Reserves the next 1,024 indices when the next index has reached CEILING − 512 (R304). -/
def reserveIndices (t : TallyRecord) (s : State) : State :=
  match tallyLatest t with
  | none => s
  | some c =>
    let limit := statefulLimit c.family c.set
    if c.state == 2 && decide (c.ceiling ≤ t.next + 512) && decide (c.ceiling < limit) then
      writeTally t.number { c with ceiling := min (c.ceiling + 1024) limit } .nobody s
    else s

/-- A signing item whose key has no reserved index, as after a Wake, starts the write that reserves some (R304, R305; log
entry 108). -/
def reserveFor (i : Item) (s : State) : State :=
  if isStatefulSign (famOf i.entry) (opOf i.entry) && (signBar s i).isNone && !signReady s i && !s.faults.flashFenced then
    match itemTally s i with | some t => reserveIndices t s | none => s
  else s

/-- Raises a key's top-level pointer to the top-level part of index `n` (R306). -/
def raisePointer (keyId fam set n : Nat) (s : State) : State :=
  let top := n / 2 ^ lowerHeights fam set
  writeChest (fun c => { c with pointers := c.pointers.map fun q => if q.1 == keyId % 2 ^ 40 then (q.1, max q.2 top) else q }) s

/-- SIGN binds the key's next index at its grant; a bound index stays over a restart (R310, R311). -/
def bindIndex (i : Item) (s : State) : State :=
  if i.boundIndex.isSome then s
  else match itemRun s i, itemTally s i with
    | some r, some t =>
      let s := modItem i.id (fun x => { x with boundIndex := some t.next }) s
      let t' := { t with next := t.next + 1 }
      let s := modTally (fun x => x.number == t.number) (fun _ => t') s
      reserveIndices t' (raisePointer r.keyId r.family r.set t.next s)
    | _, _ => s

/-- The first item that finds its key exhausted writes STATE 3 (R312). -/
def markExhausted (i : Item) (s : State) : State :=
  match itemTally s i with
  | none => s
  | some t =>
    match tallyLatest t with
    | none => s
    | some c => if c.state == 2 then writeTally t.number { c with state := 3 } .nobody s else s

/-- Leaves of a following tree that the position asks for: as many as the current tree of its level has used
(R301, R313, R316; log entry 16). -/
def subtreeNeededBelow (next : Nat) : List Nat → Nat → Bool
  | [], _ => false
  | h :: rest, j =>
    let n := 2 ^ (h - buildExp h)
    if j < 2 * n then true
    else if j < 3 * n then decide ((j - 2 * n) * 2 ^ buildExp h < next / 2 ^ rest.sum % 2 ^ h)
    else subtreeNeededBelow next rest (j - 3 * n)

/-- Subtree `j` of the key has something to build at position `next`. -/
def subtreeNeeded (fam set next j : Nat) : Bool :=
  match statefulHeights fam set with
  | some (h :: rest) =>
    let n := 2 ^ (h - buildExp h)
    if j < n then true else subtreeNeededBelow next rest (j - n)
  | _ => false

/-- A subtree of the run is present. -/
def hasSubtree (r : KeyRun) (j : Nat) : Bool := r.subtrees.any fun x => x.1 == j

/-- FINISH finds no subtree missing (R300). -/
def buildComplete (s : State) (r : KeyRun) : Bool :=
  let next := match tallyOf s r.keyId with | some t => t.next | none => 0
  (List.range (buildCount r.family r.set)).all fun j => hasSubtree r j || !subtreeNeeded r.family r.set next j

/-- Bytes of seeds and I that KEYGEN_START draws (log entry 15). -/
def statefulSeedLen (fam set : Nat) : Nat :=
  if fam = 0x05 then statefulN fam set + 16 else 3 * statefulN fam set

/-! ### Code-based encapsulation -/

/-- The size column of a Classic McEliece set: the f set has its neighbour's sizes. -/
def mceColumn (set : Nat) : Nat := (set + 1) / 2

def mcePk (set : Nat) : Nat := [0, 261120, 524160, 1044992, 1047319, 1357824].getD (mceColumn set) 0

def mceSk (set : Nat) : Nat := [0, 6492, 13608, 13932, 13948, 14120].getD (mceColumn set) 0

def mceCt (set : Nat) : Nat := [0, 96, 156, 208, 194, 208].getD (mceColumn set) 0

def mceDrawers (set : Nat) : Nat := (mceSk set + 32 + 127) / 128

def hqcPk (set : Nat) : Nat := [0, 2249, 4522, 7245].getD set 0

def hqcSk (set : Nat) : Nat := [0, 2305, 4586, 7317].getD set 0

def hqcCt (set : Nat) : Nat := [0, 4433, 8978, 14421].getD set 0

/-- An operation that makes a key: POLICY at bytes 40 to 43, no ONE_SHOT. -/
def plainKeygenForm (e : Entry) : Bool := operandsUse e [(40, 44)] && policyFormOf e

def infoMceliece (e : Entry) : OpInfo :=
  let set := setOf e
  let len := inputLen e
  let encOut := if depositFlag e then mceCt set else mceCt set + 32
  match opOf e with
  | 0x50 =>
    { form := plainKeygenForm e, inputOk := len == 0, outMax := mcePk set, policyOk := policyAllowed (policyOperand e) 1 0x07
      random := true, run := some { length := mceDrawers set, kind := 1, family := 0x07, set := set } }
  | 0x51 =>
    { form := depositForm e, depositOk := true, sealedOk := true, inputOk := len == mcePk set, outMax := encOut
      key := some (keyFor [1, 3] 0x07 set polAgree), policyOk := depositPolicyOk e, random := true, run := depositRun e }
  | 0x52 =>
    { form := depositForm e, depositOk := true, inputOk := len == mcePk set, outMax := encOut
      policyOk := depositPolicyOk e, random := true, run := depositRun e }
  | 0x53 =>
    { form := plainKeygenForm e, inputOk := len == mcePk set, policyOk := policyAllowed (policyOperand e) 3 0x07
      run := some { length := 1, kind := 3, family := 0x07, set := set } }
  | 0x54 =>
    { form := depositForm e, depositOk := true, sealedOk := true, inputOk := len == mceCt set
      outMax := if depositFlag e then 0 else 32, key := some (keyFor [1] 0x07 set polAgree)
      policyOk := depositPolicyOk e, random := true, run := depositRun e }
  | _ => .unsupported

def infoHqc (e : Entry) : OpInfo :=
  let set := setOf e
  let len := inputLen e
  let encOut := if depositFlag e then hqcCt set else hqcCt set + 64
  match opOf e with
  | 0x58 =>
    { form := plainKeygenForm e, inputOk := len == 0, outMax := hqcPk set, policyOk := policyAllowed (policyOperand e) 1 0x08
      random := true, run := some { length := (hqcSk set + 127) / 128, kind := 1, family := 0x08, set := set } }
  | 0x59 =>
    { form := depositForm e, depositOk := true, sealedOk := true, inputOk := len == 0, outMax := encOut
      key := some (keyFor [1, 2] 0x08 set polAgree), policyOk := depositPolicyOk e, random := true, run := depositRun e }
  | 0x5A =>
    { form := depositForm e, depositOk := true, inputOk := len == hqcPk set, outMax := encOut
      policyOk := depositPolicyOk e, random := true, run := depositRun e }
  | 0x5B =>
    { form := depositForm e, depositOk := true, sealedOk := true, inputOk := len == hqcCt set
      outMax := if depositFlag e then 0 else 64, key := some (keyFor [1] 0x08 set polAgree)
      policyOk := depositPolicyOk e, random := true, run := depositRun e }
  | _ => .unsupported

/-! ### Classical algorithms -/

def ecPk (set : Nat) : Nat := 1 + 2 * ecCoord set

def edSig (set : Nat) : Nat := [0, 64, 114].getD set 0

def drawersFor (n : Nat) : Nat := (n + 127) / 128

/-- Private and public run contents in bytes. -/
def rsaPrivLen (set : Nat) : Nat := rsaK set + 32 + 5 * (rsaK set / 2) + 2 * rsaK set

def rsaPubLen (set : Nat) : Nat := 2 * rsaK set + 32

def variantOf (e : Entry) : Nat := entryByte e 45

def schemeOf (e : Entry) : Nat := entryByte e 45

def hashOf (e : Entry) : Nat := entryByte e 46

def hashLenOf (e : Entry) : Nat := phLen (hashOf e)

def hashOk (e : Entry) : Bool := 1 ≤ hashOf e && hashOf e ≤ 6

def schemeOk (e : Entry) : Bool := schemeOf e == 1 || schemeOf e == 2

/-- VARIANT and CTX_LEN of family 0x11. -/
def edVariantOk (e : Entry) : Bool :=
  match variantOf e with
  | 0 => setOf e != 1 || ctxLenOf e == 0
  | 1 => setOf e == 1 && ctxLenOf e != 0
  | 2 => true
  | _ => false

/-- The message part's length is one an ECDSA digest may have (R339). -/
def ecDigestLen (n : Nat) : Bool := n == 28 || n == 32 || n == 48 || n == 64

def infoEc (e : Entry) : OpInfo :=
  let set := setOf e
  let len := inputLen e
  let sig := 2 * ecCoord set
  match opOf e with
  | 0x60 =>
    { form := keygenForm e, inputOk := len == 0, outMax := ecPk set, policyOk := policyAllowed (policyOperand e) 1 0x10
      random := true, run := some { length := drawersFor (ecCoord set + ecPk set), kind := 1, family := 0x10, set := set } }
  | 0x61 =>
    { form := operandsUse e [], sealedOk := true, inputOk := ecDigestLen len, outMax := sig
      key := some (keyFor [1] 0x10 set polSign), random := true }
  | 0x62 =>
    { form := operandsUse e [(48, 50)], sealedOk := true, key := some (keyFor [1, 2] 0x10 set polVerify)
      inputOk := sigLenOf e == sig && decide (sig ≤ len) && ecDigestLen (len - sig) }
  | 0x63 =>
    { form := operandsUse e [(48, 50)]
      inputOk := sigLenOf e == sig && decide (sig + ecPk set ≤ len) && ecDigestLen (len - sig - ecPk set) }
  | 0x64 =>
    { form := depositForm e, depositOk := true, sealedOk := true, inputOk := len == ecPk set
      outMax := if depositFlag e then 0 else ecCoord set, key := some (keyFor [1] 0x10 set polAgree)
      policyOk := depositPolicyOk e, random := true, run := depositRun e }
  | _ => .unsupported

def infoEd (e : Entry) : OpInfo :=
  let set := setOf e
  let len := inputLen e
  let sig := edSig set
  let form := operandsUse e [(44, 46)] && edVariantOk e
  let vform := operandsUse e [(44, 46), (48, 50)] && edVariantOk e
  -- M is at most 16 MiB (log entry 191)
  let msgOk (n : Nat) : Bool := if variantOf e = 2 then n == ctxLenOf e + 64 else decide (ctxLenOf e ≤ n) && decide (n ≤ ctxLenOf e + maxInput)
  match opOf e with
  | 0x68 =>
    { form := plainKeygenForm e, inputOk := len == 0, outMax := edPk set, policyOk := policyAllowed (policyOperand e) 1 0x11
      random := true, run := some { length := drawersFor (2 * edPk set), kind := 1, family := 0x11, set := set } }
  | 0x69 =>
    { form := form, sealedOk := true, inputOk := msgOk len, outMax := sig
      key := some (keyFor [1] 0x11 set (polSign + (if variantOf e = 2 then polPrehash else polPure))), random := true }
  | 0x6A =>
    { form := vform, sealedOk := true, key := some (keyFor [1, 2] 0x11 set polVerify)
      inputOk := sigLenOf e == sig && decide (sig ≤ len) && msgOk (len - sig) }
  | 0x6B =>
    { form := vform
      inputOk := sigLenOf e == sig && decide (sig + edPk set ≤ len) && msgOk (len - sig - edPk set) }
  | _ => .unsupported

def infoXdh (e : Entry) : OpInfo :=
  let set := setOf e
  let len := inputLen e
  match opOf e with
  | 0x6C =>
    { form := keygenForm e, inputOk := len == 0, outMax := xPk set, policyOk := policyAllowed (policyOperand e) 1 0x12
      random := true, run := some { length := 1, kind := 1, family := 0x12, set := set } }
  | 0x6D =>
    { form := depositForm e, depositOk := true, sealedOk := true, inputOk := len == xPk set
      outMax := if depositFlag e then 0 else xPk set, key := some (keyFor [1] 0x12 set polAgree)
      policyOk := depositPolicyOk e, random := true, run := depositRun e }
  | _ => .unsupported

def infoRsa (e : Entry) : OpInfo :=
  let set := setOf e
  let len := inputLen e
  let k := rsaK set
  let h := hashLenOf e
  let sform := operandsUse e [(45, 47)] && schemeOk e && hashOk e
  let vform := operandsUse e [(45, 47), (48, 50)] && schemeOk e && hashOk e
  let hform := operandsUse e [(46, 47)] && hashOk e
  match opOf e with
  | 0x70 =>
    { form := plainKeygenForm e && set != 4, inputOk := len == 0, outMax := k + 32, policyOk := policyAllowed (policyOperand e) 1 0x13
      random := true, run := some { length := drawersFor (rsaPrivLen set), kind := 1, family := 0x13, set := set } }
  | 0x71 =>
    { form := sform, sealedOk := true, inputOk := len == h, outMax := k, key := some (keyFor [1] 0x13 set polSign), random := true }
  | 0x72 =>
    { form := vform, sealedOk := true, inputOk := sigLenOf e == k && len == h + k, key := some (keyFor [1, 2] 0x13 set polVerify) }
  | 0x73 => { form := vform, inputOk := sigLenOf e == k && len == h + k + (k + 32) }
  | 0x74 =>
    { form := hform, sealedOk := true, inputOk := len == k, outMax := k - 2 * h - 2
      key := some (keyFor [1] 0x13 set polDecrypt), random := true }
  | 0x75 =>
    { form := hform, inputOk := decide (k + 32 ≤ len) && decide (len ≤ k + 32 + (k - 2 * h - 2)), outMax := k, random := true }
  | 0x76 =>
    { form := operandsUse e [], sealedOk := true, inputOk := len == k, outMax := k
      key := some (keyFor [1] 0x13 set polRaw), random := true }
  | _ => .unsupported

/-! ### Digests and random bytes -/

/-- Digest length of an algorithm code: 0 for SHAKE, none for an unknown code. -/
def digestLen (alg : Nat) : Option Nat :=
  if 1 ≤ alg ∧ alg ≤ 5 then [0, 28, 32, 48, 64, 32][alg]?
  else if 0x11 ≤ alg ∧ alg ≤ 0x14 then [28, 32, 48, 64][alg - 0x11]?
  else if alg = 0x21 ∨ alg = 0x22 then some 0
  else none

def isShake (alg : Nat) : Bool := alg == 0x21 || alg == 0x22

/-- OUT_LEN is one the algorithm takes: 1 to 65,536 for SHAKE, 0 for the others. -/
def outLenOk (alg n : Nat) : Bool := if isShake alg then 1 ≤ n && n ≤ 65536 else n == 0

/-- Length of the digest: the algorithm's, or OUT_LEN. -/
def digestSize (alg outLen : Nat) : Nat := if isShake alg then outLen else (digestLen alg).getD 0

def infoDigest (e : Entry) : OpInfo :=
  let out := entryNat e 40 3
  match opOf e with
  | 0x01 =>
    { form := operandsUse e [(40, 43)] && outLenOk (setOf e) out && (digestLen (setOf e)).isSome
      inputOk := decide (inputLen e ≤ maxInput)
      outMax := digestSize (setOf e) out }
  | _ => .unsupported

/-- LENGTH and PRED_RES of RANDOM. -/
def randomLen (e : Entry) : Nat := entryNat e 40 4

def predRes (e : Entry) : Bool := entryByte e 44 == 1

def infoRandom (e : Entry) : OpInfo :=
  match opOf e with
  | 0x01 =>
    { form := operandsUse e [(40, 45)] && entryByte e 44 ≤ 1 && 1 ≤ randomLen e && randomLen e ≤ 65536
      inputOk := inputLen e == 0, outMax := randomLen e, random := true }
  | _ => .unsupported

/-! ### Key management -/

/-- The target family that byte 44 names. -/
def targetFam (e : Entry) : Nat := entryByte e 44

/-- Length of the public key that IMPORT_PUBLIC takes; `none` where the family has no importable public key. -/
def importPublicLen (fam set : Nat) : Option Nat :=
  match fam with
  | 0x01 => some (kemEk set) | 0x02 => some (dsaPk set) | 0x03 => some (fnPk set) | 0x04 => some (slhPk set)
  | 0x05 => some (statefulPkLen fam set) | 0x06 => some (statefulPkLen fam set) | 0x08 => some (hqcPk set)
  | 0x10 => some (ecPk set) | 0x11 => some (edPk set) | 0x12 => some (xPk set) | 0x13 => some (rsaK set + 32)
  | 0x21 => some (compPk set)
  | _ => none

/-- Content bytes of a public run. -/
def publicLen (fam set : Nat) : Nat := if fam = 0x13 then rsaPubLen set else (importPublicLen fam set).getD 0

/-- Length of the private key that IMPORT_PRIVATE takes (R550). -/
def importPrivateLen (fam set : Nat) : Option Nat :=
  match fam with
  | 0x01 => some (kemDk set) | 0x02 => some (dsaSk set) | 0x03 => some (fnSk set) | 0x04 => some (slhSk set)
  | 0x07 => some (mceSk set + 32) | 0x08 => some (hqcSk set) | 0x10 => some (ecCoord set) | 0x11 => some (edPk set)
  | 0x12 => some (xPk set) | 0x13 => some (rsaK set + 32 + 5 * (rsaK set / 2))
  | 0x20 => some (kemDk (hybKem set) + hybScalar set)
  | 0x21 => some (dsaSk (compDsa set) + compClsSk set)
  | _ => none

/-- Content bytes of a private run. -/
def privateLen (fam set : Nat) : Nat :=
  match fam with
  | 0x02 => dsaSk set + dsaPk set
  | 0x03 => fnSk set + fnPk set
  | 0x10 => ecCoord set + ecPk set
  | 0x11 => 2 * edPk set
  | 0x13 => rsaPrivLen set
  | 0x21 => let d := compDsa set; dsaSk d + dsaPk d + compClsSk set + compClsPk set
  | _ => (importPrivateLen fam set).getD 0

/-- P agrees with the run length and the kind. -/
def recordLenOk (kind fam set p run : Nat) : Bool :=
  if kind = 1 then p == privateLen fam set && run == drawersFor p
  else if kind = 2 then p == publicLen fam set && run == drawersFor p
  else if kind = 3 then p == 33 && run == 1
  else if kind = 4 then p == statefulSeedLen fam set && run == statefulDrawers fam set
  else (kind == 5 || kind == 6) && run == 1 && decide (p ≤ 128)

/-- The largest record SEAL can write (R400; log entry 21). -/
def sealMax : Nat := 80 + 16384

/-- S length of byte 44 and LENGTH of bytes 48 to 49. -/
def deriveS (e : Entry) : Nat := entryByte e 44

def deriveLen (e : Entry) : Nat := entryNat e 48 2

def rangeOk (n : Nat) : Bool := 1 ≤ n && n ≤ 1024

/-- Output length of DERIVE. -/
def deriveOut (e : Entry) : Nat := if setOf e = 2 then 32 else if setOf e = 4 then 48 else deriveLen e

def deriveForm (e : Entry) : Bool :=
  let dep := if depositFlag e then [(40, 44)] else []
  let ops := if setOf e = 1 then [(44, 45), (48, 50)] else if setOf e = 3 ∨ setOf e = 5 then [(48, 50)] else []
  operandsUse e (dep ++ ops) && rangeOk (deriveOut e) && (!depositFlag e || (policyFormOf e && decide (deriveOut e ≤ 128)))

def deriveInputOk (e : Entry) : Bool :=
  let len := inputLen e
  match setOf e with
  | 1 => decide (deriveS e ≤ len) && decide (len ≤ maxInput)
  | 2 => decide (len ≤ 255)
  | 4 => decide (len ≤ 255)
  | _ => decide (len ≤ 1024)

/-- A secret that DERIVE or MAC may use. -/
def secretKey (use : Nat) (k : KeyFacts) : Bool := (k.kind == 5 || k.kind == 6) && polHas k.policy use

/-- Tag length of MAC. -/
def macOut (e : Entry) : Nat := [0, 32, 48, 64].getD (setOf e) (deriveLen e)

/-- What the checks need of a family 0x30 opcode; `rec` is the sealed record, when KEY names one. -/
def infoKeyMgmt (rec : Option Bytes) (e : Entry) : OpInfo :=
  let set := setOf e
  let len := inputLen e
  let fam := targetFam e
  match opOf e with
  | 0x80 =>
    match importPublicLen fam set with
    | none => .unsupported
    | some n =>
      { form := operandsUse e [(40, 45)] && policyFormOf e, inputOk := len == n, policyOk := policyAllowed (policyOperand e) 2 fam
        run := some { length := drawersFor (publicLen fam set), kind := 2, family := fam, set := set } }
  | 0x81 =>
    match importPrivateLen fam set with
    | none => .unsupported
    | some n =>
      { form := operandsUse e [(40, 45)] && policyFormOf e, inputOk := len == n, policyOk := policyAllowed (policyOperand e) 1 fam
        random := true, run := some { length := drawersFor (privateLen fam set), kind := 1, family := fam, set := set } }
  | 0x82 =>
    let key (k : KeyFacts) : Bool := k.record && k.family == fam && k.set == set
    { form := operandsUse e [(44, 45)] && sealedKey e, sealedOk := true, inputOk := len == 0, key := some key, random := true
      run := rec.map fun r => { length := recRun r, kind := recKind r, family := recFamily r, set := recSet r } }
  | 0x83 =>
    let key (k : KeyFacts) : Bool := polHas k.policy polSeal && fieldOf k.policy 27 1 == 0
    { form := operandsUse e [], inputOk := len == 0, outMax := sealMax, key := some key, random := true }
  | 0x84 => { form := operandsUse e [], inputOk := len == 0, key := some fun _ => true }
  | 0x85 => { form := operandsUse e [], inputOk := len == 0, outMax := 16, key := some fun _ => true }
  | 0x86 => { form := operandsUse e [(40, 44)], inputOk := len == 0, key := some fun _ => true }
  | 0x87 =>
    let key (k : KeyFacts) : Bool := secretKey polDerive k && (depositFlag e || polHas k.policy polDeriveOut)
    { form := deriveForm e, depositOk := true, sealedOk := true, inputOk := deriveInputOk e
      outMax := if depositFlag e then 0 else deriveOut e, key := some key
      policyOk := !depositFlag e || policyAllowed (policyOperand e) 6 0x30, random := true
      run := if depositFlag e then some { length := 1, kind := 6, family := 0x30, set := set } else none }
  | 0x88 =>
    let ops := if set = 4 then [(44, 45), (48, 50)] else []
    { form := operandsUse e ops && (set != 4 || rangeOk (deriveLen e)), sealedOk := true
      inputOk := decide (len ≤ maxInput) && (set != 4 || decide (deriveS e ≤ len)), outMax := macOut e
      key := some (secretKey polMac), random := true }
  | 0x89 => { form := operandsUse e [], inputOk := len == 32, outMax := 4827, random := true }
  | _ => .unsupported

/-- FAMILY_ID of the threaded draft. -/
def draftFamilyId (s : State) : Nat := match s.draft.threaded with | some d => d.familyId.toNat | none => 0

end Sys2Proof.Machine
end

