-- ==== Sys2Proof/Machine/Operands.lean ====
section
/-! DEFINITION. The descriptor's operands in every family: what each opcode declares, and the seven checks at fetch
(R85, R151 to R154, R402). -/

namespace Sys2Proof.Machine

/-! ### Adverts and classes (R85, R170, R402) -/

/-- The adverts in force; none before a threading. -/
def liveAdverts (s : State) : List Advert :=
  match s.draft.threaded with
  | some d => advertsOf s d
  | none => []

/-- The advert of a family and set, for any operation. -/
def familyAdvert (s : State) (fam set : Nat) : Option Advert :=
  (liveAdverts s).find? fun a => a.family == fam && a.set == set

def opAdvert (s : State) (fam op set : Nat) : Option Advert :=
  (liveAdverts s).find? fun a => a.family == fam && a.op == op && a.set == set

/-- An import or UNSEAL: PARAM_SET is the target's (R402). -/
def isImport (fam op : Nat) : Bool := fam == 0x30 && 0x80 ≤ op && op ≤ 0x82

/-- The advert that gives an item its class; `none` when the opcode is not offered. -/
def itemAdvert (s : State) (e : Entry) : Option Advert :=
  if isImport (famOf e) (opOf e) then
    match opAdvert s 0x30 (opOf e) 0 with
    | some _ => familyAdvert s (targetFam e) (setOf e)
    | none => none
  else opAdvert s (famOf e) (opOf e) (setOf e)

/-- The class of a role byte (R170). -/
def roleClass (role : Nat) : SvcClass :=
  match role with
  | 1 => .kem | 2 => .sign | 3 => .hash | 4 => .trestle | 5 => .selvedge | _ => .local_

def itemClass (s : State) (e : Entry) : SvcClass :=
  match itemAdvert s e with
  | some a => roleClass a.role
  | none => .local_

/-- An item that a loom and a trestle serve together (R181, R402). -/
def needsBoth (e : Entry) : Bool := famOf e == 0x20 || famOf e == 0x21 || (famOf e == 0x30 && opOf e == 0x89)

/-! ### Owner families (R242; log entry 18) -/

/-- The dispatch entry of a loom opcode on a bench of the role. -/
def dispatchOf (s : State) (fam op role : Nat) : Option DispatchEntry :=
  match s.draft.threaded with
  | none => none
  | some d =>
    match d.benches.find? fun b => b.role == role with
    | none => none
    | some b => (imageDispatch d b.image)[dispatchIndex fam op]?

/-- The dispatch entry of an item's routine in the control store of a loom's bench (R226, R227). -/
def benchEntry (s : State) (n : LoomId) (e : Entry) : Option DispatchEntry :=
  match s.draft.threaded with
  | none => none
  | some d =>
    match d.benches[n.val / 4]? with
    | none => none
    | some b => ((imageDispatch d b.image)[dispatchIndex (famOf e) (opOf e)]?).filter deValid

/-- The routine passes its entry's WATCHDOG, in units of 1,024 cycles (R226, R237). -/
def pastWatchdog (s : State) (n : LoomId) (i : Item) (cycles : Nat) : Bool :=
  match benchEntry s n i.entry with
  | some d => decide (1024 * deWatchdog d < cycles)
  | none => false

/-- A key an owner routine of family `fam` may load: policy OWNER admits it (R397). -/
def ownerKey (fam : Nat) (k : KeyFacts) : Bool :=
  polHas k.policy polOwner && (fieldOf k.policy 16 8 == 0 || fieldOf k.policy 16 8 == fam)

def infoOwner (s : State) (e : Entry) : OpInfo :=
  let secret := match itemAdvert s e with
    | some a => (match dispatchOf s (famOf e) (opOf e) a.role with | some d => deSecret d | none => false)
    | none => false
  { depositOk := true, sealedOk := true, inputOk := decide (inputLen e ≤ maxInput), random := secret
    key := if entryNat e 8 8 = 0 ∧ sealedKey e = false then none else some (ownerKey (famOf e)) }

/-! ### What each opcode declares -/

/-- The operand form of a descriptor, family by family; `rec` is the sealed record KEY names. -/
def opInfo (s : State) (rec : Option Bytes) (e : Entry) : OpInfo :=
  match famOf e with
  | 0x01 => infoKem e
  | 0x02 => infoMldsa e
  | 0x03 => infoFndsa e
  | 0x04 => infoSlhdsa e
  | 0x05 => infoStateful e
  | 0x06 => infoStateful e
  | 0x07 => infoMceliece e
  | 0x08 => infoHqc e
  | 0x10 => infoEc e
  | 0x11 => infoEd e
  | 0x12 => infoXdh e
  | 0x13 => infoRsa e
  | 0x20 => infoHybrid e
  | 0x21 => infoComposite e
  | 0x30 => infoKeyMgmt rec e
  | 0x31 => infoTally e
  | 0x40 => infoRandom e
  | 0x41 => infoDigest e
  | f => if 0xC0 ≤ f then infoOwner s e else .unsupported

/-- The item waits for seeding and fails with the bobbin (R72, R384). -/
def needsRandom (s : State) (i : Item) : Bool := (opInfo s i.record i.entry).random

/-- The loom draws a rekey before the item's first word: its entry says SECRET (R207, R226). -/
def rekeys (s : State) (n : LoomId) (i : Item) : Bool :=
  match benchEntry s n i.entry with
  | some d => deSecret d
  | none => needsRandom s i

/-! ### The checks at fetch (R153) -/

/-- Why an entry completes at fetch, with OUTPUT_LEN where OUTPUT_SHORT gives the capacity required. -/
structure FetchFail where
  status : Status
  needed : Nat := 0

/-- Step 1. -/
def fetchForm (s : State) (info : OpInfo) (e : Entry) : Bool :=
  (itemAdvert s e).isSome && info.form && entryBits e 24 3 == 0 && entryBits e 16 5 == 0 && !(noIrq e && irqNow e)
    && (!depositFlag e || info.depositOk) && (!sealedKey e || (info.sealedOk && info.key.isSome))
    && (sealedKey e || entryNat e 12 4 == 0) && (info.key.isSome || entryNat e 8 8 == 0)

/-- Step 5 for a sealed record (R400). -/
def recordOk (s : State) (x : Slice) (r : Bytes) : Bool :=
  let total := recField r 8 4
  slice_ r 0 4 == ascii "AQSK" && recField r 4 2 == 1 && decide (81 ≤ total) && decide (total ≤ 16464)
    && recordLenOk (recKind r) (recFamily r) (recSet r) (recContentLen r) (recRun r) && recFamilyId r == draftFamilyId s
    && ownerSet s && (openRecord (wrapKey s x.uid) r).isSome

/-- Operations that claim a ONE_SHOT key (R251, R338). -/
def claims (fam op : Nat) : Bool :=
  (fam == 0x01 && op == 0x12) || (fam == 0x20 && op == 0x1A) || (fam == 0x10 && op == 0x64) || (fam == 0x12 && op == 0x6D)

def isOneShot (p : Word) : Bool := fieldOf p 27 1 == 1

/-- Step 6, what the state decides: SEAL needs an owner (R403); the operations that R411 refuses while debug is
enabled. -/
def stateAllows (s : State) (e : Entry) : Bool :=
  let fam := famOf e
  let op := opOf e
  !(fam == 0x30 && op == 0x83 && (!ownerSet s || s.life.debug))
    && !(s.life.debug && (sealedKey e || (fam == 0x05 && op == 0x38) || (fam == 0x06 && op == 0x40)))

/-- The facts of the key an entry names, at fetch. -/
def fetchKey (s : State) (x : Slice) (f : Fetched) : Option KeyFacts :=
  match f.sealedRecord with
  | some r =>
    some { kind := recKind r, family := recFamily r, set := recSet r, policy := recPolicy r, contentLen := recContentLen r, building := false, record := true }
  | none => if sealedKey f.entry then none else (runOf s x.port x.idx (keyHandle f.entry).toNat).map fun r =>
      { kind := r.kind, family := r.family, set := r.set, policy := r.policy, contentLen := r.content.length, building := r.state == .building, record := false }

/-- Step 5: the handle or the record names a key. A record that could not be read is judged at step 7. -/
def keyPresent (s : State) (x : Slice) (info : OpInfo) (f : Fetched) : Bool :=
  if info.key.isNone then true
  else if sealedKey f.entry then (match f.sealedRecord with | some r => recordOk s x r | none => true)
  else (runOf s x.port x.idx (keyHandle f.entry).toNat).isSome

/-- A record's family and set are the descriptor's; an UNSEAL names its target family beside its operation (R400, R402; log
entry 195). -/
def recordMatches (e : Entry) (r : Bytes) : Bool :=
  recFamily r == (if famOf e == 0x30 && opOf e == 0x82 then targetFam e else famOf e) && recSet r == setOf e

/-- Step 6 without the reservation. -/
def keyUseOk (s : State) (x : Slice) (info : OpInfo) (f : Fetched) : Bool :=
  info.policyOk && stateAllows s f.entry
    && (match f.sealedRecord with | some r => info.key.isNone || recordMatches f.entry r | none => true)
    && (match info.key with
    | none => true
    | some ok => match fetchKey s x f with | some k => ok k | none => sealedKey f.entry)

/-- The reservation of step 6 finds its drawers, and a stateful key its record and pointer (R249, R300). -/
def reserveOk (s : State) (x : Slice) (info : OpInfo) (e : Entry) : Bool :=
  match info.run with
  | none => true
  | some n => (freeRun s x n.length).isSome && (!(n.kind == 4) || isImport (famOf e) (opOf e) || tallyRoom s x n.family n.set)

/-- Step 7 (R133, R134): without ATS the output range is not checked. -/
def rangesOk (s : State) (x : Slice) (f : Fetched) : Bool :=
  (f.inputOk || (inputLen f.entry == 0 && !sealedKey f.entry)) && (!sealedKey f.entry || f.sealedRecord.isSome)
    && (f.outputOk || outputCap f.entry == 0 || !s.ports[x.port.val].atsEn)

/-- Steps 1 to 5, then 6 and 7: the first that fails. -/
def fetchFail (s : State) (x : Slice) (f : Fetched) : Option FetchFail :=
  let e := f.entry
  let info := opInfo s f.sealedRecord e
  if !fetchForm s info e then some { status := .opUnsupported }
  else if x.prioCeil < prioOf e then some { status := .keyPolicy }
  else if !info.inputOk then some { status := .lengthMismatch }
  else if outputCap e < info.outMax then some { status := .outputShort, needed := info.outMax }
  else if sealedKey e && s.life.debug then some { status := .keyPolicy }
  else if !keyPresent s x info f then some { status := .keyHandleInvalid }
  else if !keyUseOk s x info f || !reserveOk s x info e then some { status := .keyPolicy }
  else if !rangesOk s x f then some { status := .xlateFault }
  else none

/-- Steps 1 to 5 pass. -/
def passesKeyStep (s : State) (x : Slice) (f : Fetched) : Bool :=
  let e := f.entry
  let info := opInfo s f.sealedRecord e
  fetchForm s info e && decide (prioOf e ≤ x.prioCeil) && info.inputOk && decide (info.outMax ≤ outputCap e)
    && !(sealedKey e && s.life.debug) && keyPresent s x info f

end Sys2Proof.Machine
end

