-- ==== Sys2Proof/Machine/Reports.lean ====
section
/-! DEFINITION. What several families report through: status codes and completion records (R155, R157), messages
(R158, R159), the queue error (R150), and the fault collector's first-error capture (R488). -/

namespace Sys2Proof.Machine

/-! ### Status codes and records -/

/-- The status codes of R157. -/
def statusCode : Status → Nat
  | .ok => 0x0000 | .reject => 0x0001 | .lengthMismatch => 0x0101 | .outputShort => 0x0102 | .xlateFault => 0x0103
  | .keyHandleInvalid => 0x0201 | .keyPolicy => 0x0202 | .rejectScalar => 0x0301 | .rejectRange => 0x0302
  | .rejectPoint => 0x0303 | .rejectModulus => 0x0304 | .rejectEncoding => 0x0305 | .entropyFail => 0x0401
  | .entropyWaitTimeout => 0x0402 | .unitFault => 0x0501 | .tallyExhausted => 0x0601 | .tallyRetired => 0x0602
  | .sliceFrozen => 0x0701 | .opUnsupported => 0x0801 | .digestEarly => 0x0901 | .digestLength => 0x0902

/-- Saturates to `n` bits. -/
def satBits (n v : Nat) : Nat := min v (2 ^ n - 1)

/-- Dword 0 of a completion record, OWN clear (R155). -/
def recordDword0 (st : Status) (restarts : Nat) : Word :=
  BitVec.ofNat 32 (statusCode st + satBits 8 restarts * 2 ^ 16)

/-- Bytes 4 to 63 of a completion record, at their places in the entry (R155). -/
def completionRecord (outputLen cycles engine faultRestarts result tag : Nat) : Entry :=
  BitVec.ofNat 512 (outputLen % 2 ^ 32 * 2 ^ 32 + satBits 32 cycles * 2 ^ 64 + engine % 2 ^ 16 * 2 ^ 96
    + faultRestarts % 2 ^ 8 * 2 ^ 112 + result % 2 ^ 64 * 2 ^ 128 + tag % 2 ^ 64 * 2 ^ 448)

/-! ### Messages (R158, R159) -/

/-- A message of a vector leaves, or sets its pending bit while the vector is masked; with MSI-X disabled none is sent. -/
def sendMessage (p : PortId) (vector : Nat) (s : State) : State :=
  let x := s.ports[p.val]
  if !x.msixEn then s
  else match x.msixFnMask, x.table.find? fun e => e.vector == vector && !e.masked with
    | false, some e => emit (.msix p vector e.address e.data) s
    | _, _ => modPort p (fun x => { x with pba := if x.pba.contains vector then x.pba else x.pba ++ [vector] }) s

/-- A queue's message, when the port may write: it resets the count (R158). Otherwise one is due at the resume (R159),
be it only for the queue's error (log entry 183). -/
def queueMessage (p : PortId) (n : Nat) (s : State) : State :=
  match findQueue s p n with
  | none => s
  | some q =>
    if portMoves s p then sendMessage p q.vector (modQueue p n (fun q => { q with counted := 0 }) s)
    else modQueue p n (fun q => { q with counted := max 1 q.counted }) s

/-- The admin queue's message (R158). -/
def adminMessage (p : PortId) (s : State) : State :=
  if portMoves s p then sendMessage p s.ports[p.val].admin.vector (modAdmin p (fun a => { a with counted := 0 }) s)
  else modAdmin p (fun a => { a with counted := a.counted + 1 }) s

/-- A completion has been written: it counts, and may send the queue's message (R158). -/
def countWritten (p : PortId) (n : Nat) (e : Entry) (s : State) : State :=
  let s := if noIrq e then s else modQueue p n (fun q => { q with counted := q.counted + 1 }) s
  match findQueue s p n with
  | none => s
  | some q =>
    if irqNow e || (!noIrq e && (q.coalCount ≤ q.counted || q.coalTime == 0)) then queueMessage p n s else s

/-! ### The queue error (R150) -/

/-- A ring read (1) or a completion write (2) was denied. The first denial stands. -/
def queueError (p : PortId) (n err : Nat) (s : State) : State :=
  if n = 0 then
    if s.ports[p.val].admin.error then s
    else
      adminMessage p (raise0 (0x0A4 + 8 * p.val)
        (modAdmin p (fun a => { a with error := true, err := err, scanning := false, rescan := false, reading := false }) s))
  else match findQueue s p n with
    | none => s
    | some q =>
      if q.state == .error then s
      else
        queueMessage p n (raise0 (0x0A4 + 8 * p.val)
          (modQueue p n (fun q => { q with state := .error, err := err, scanning := false, rescan := false, reading := none }) s))

/-! ### First-error capture (R488, R490) -/

/-- A source reports an error: its sticky bit, and the first of them since the bits were last cleared. -/
def report (src : Nat) (ue : Bool) (s : State) : State :=
  let f := s.faults
  if f.firstValid then { s with faults := { f with sticky := setBit f.sticky src true } }
  else { s with faults := { f with sticky := setBit f.sticky src true, firstValid := true, firstUe := ue, first := src } }

/-- The draft's HEDDLE section; the default draft's values stand where no draft has been threaded (R193). -/
def heddleSection (s : State) : HeddleSection :=
  match s.draft.threaded with
  | some d => d.heddle
  | none =>
    { depthCode := 3, affAge := 20, affWin := 8, bulkMax := 1, dimThresh := 80, shortLimit := 200, idleTimeout := 1000, refTimes := [] }

/-- Ready-list depth D (R171). -/
def listDepth (s : State) : Nat := 64 * 2 ^ (heddleSection s).depthCode

end Sys2Proof.Machine
end

