-- ==== Sys2Proof/Machine/Trestles.lean ====
section
/-! DEFINITION. How long a trestle job is estimated to take, and so which jobs yield (R284, R346 to R349). -/

namespace Sys2Proof.Machine

/-! ### Class times, in 1/100 µs (R346, R347) -/

/-- KEYGEN and SIGN class of an elliptic set; VERIFY class; AGREE class. -/
def ecSignTime (set : Nat) : Nat := [0, 1670, 4000, 9600].getD set 0
def ecVerifyTime (set : Nat) : Nat := [0, 4000, 9600, 23000].getD set 0
def ecAgreeTime (set : Nat) : Nat := [0, 1590, 3800, 9100].getD set 0
def edSignTime (set : Nat) : Nat := [0, 890, 1800].getD set 0
def edVerifyTime (set : Nat) : Nat := [0, 2400, 5200].getD set 0
def xTime (set : Nat) : Nat := [0, 730, 2600].getD set 0
def rsaKeygenTime (set : Nat) : Nat := [0, 6000000, 21000000, 54000000].getD set 0
def rsaPrivateTime (set : Nat) : Nat := [0, 13300, 40000, 89000, 667000].getD set 0
def rsaPublicTime (set : Nat) (long : Bool) : Nat :=
  if long then [0, 4000, 9000, 16000, 64000].getD set 0 else [0, 530, 1190, 2120, 8480].getD set 0

/-- The addition of R347 for a pure or ctx EdDSA job over `n` bytes of ctx and message. -/
def edAddition (e : Entry) (n : Nat) (sign : Bool) : Nat :=
  if variantOf e = 2 then 0
  else
    let part := if setOf e = 1 then 128 else 136
    let each := if setOf e = 1 then (if sign then 60 else 20) else (if sign then 70 else 25)
    each * ((n - 64 + part - 1) / part)

/-- The named RSA key's e has more than 17 bits. -/
def keyLongExponent (s : State) (i : Item) : Bool := decide (2 ^ 17 ≤ beNat (slice_ (keyContent s i) (rsaK (setOf i.entry)) 32))

/-- The estimate of a job alone on a trestle. -/
def aloneTime (s : State) (i : Item) : Nat :=
  let e := i.entry
  let set := setOf e
  match famOf e, opOf e with
  | 0x10, 0x60 => ecSignTime set
  | 0x10, 0x61 => ecSignTime set
  | 0x10, 0x64 => ecAgreeTime set
  | 0x10, _ => ecVerifyTime set
  | 0x11, 0x68 => edSignTime set
  | 0x11, 0x69 => edSignTime set + edAddition e (inputLen e) true
  | 0x11, 0x6A => edVerifyTime set + edAddition e (inputLen e - edSig set) false
  | 0x11, _ => edVerifyTime set + edAddition e (inputLen e - edSig set - edPk set) false
  | 0x12, _ => xTime set
  | 0x13, 0x70 => rsaKeygenTime set
  | 0x13, 0x71 => rsaPrivateTime set
  | 0x13, 0x74 => rsaPrivateTime set
  | 0x13, 0x76 => rsaPrivateTime set
  | 0x13, 0x72 => rsaPublicTime set (keyLongExponent s i)
  | 0x13, _ => rsaPublicTime set (decide (2 ^ 17 ≤ i.exponent))
  | 0x30, _ => if targetFam e = 0x13 then 1200 else 300
  | _, _ => 0

/-- The estimate of the trestle part of a hybrid (R261), a composite (R284) or ATTEST (R408). -/
def partTime (i : Item) : Nat :=
  let e := i.entry
  let set := setOf e
  match famOf e, opOf e with
  | 0x20, _ => [0, 730, 3800, 2600].getD set 0
  | 0x21, 0x2C => 2 * [0, 1670, 4000, 1800].getD set 0 + [0, 4000, 9600, 5200].getD set 0
  | 0x21, 0x2D => [0, 1670, 4000, 1800].getD set 0 + [0, 4000, 9600, 5200].getD set 0
  | 0x21, _ => [0, 4000, 9600, 5200].getD set 0
  | _, _ => 13600

/-- The estimate of an item's trestle job (R348). -/
def jobTime (s : State) (i : Item) : Nat := if needsBoth i.entry then partTime i else aloneTime s i

/-- A short job: below the draft's short-class limit (R348). -/
def isShort (s : State) (i : Item) : Bool := decide (jobTime s i < 100 * (heddleSection s).shortLimit)

/-- The active job of a trestle, alone or the part of a loom's item. -/
def activeJob (s : State) (t : TrestleId) : Option Item :=
  s.heddle.items.find? fun i => i.place == .inService && !i.suspended && trestleOf i == some t

def suspendedJob (s : State) (t : TrestleId) : Option Item :=
  s.heddle.items.find? fun i => i.place == .inService && i.suspended && trestleOf i == some t

/-- The long job at whose yield point a trestle may ask (R349). -/
def yieldingJob (s : State) (t : TrestleId) : Option Item :=
  match activeJob s t, suspendedJob s t with
  | some i, none => if trestleServes s t && !isShort s i then some i else none
  | _, _ => none

end Sys2Proof.Machine
end

