-- ==== Sys2Proof/Machine/Eligible.lean ====
section
/-! DEFINITION. Which engines may ask, and which items they are eligible for (R170, R177, R178, R180, R181, R183, R188,
R380). -/

namespace Sys2Proof.Machine

/-- The bobbin has failed for items fetched from now on (R384). -/
def bobbinFailed (s : State) : Bool := s.bobbin.state == .failed || (s.bobbin.state == .retryWait && s.mode.seeded)

/-- Looms a slice may have items on: its loom cap, or the looms in service (R105, R178). -/
def loomLimit (s : State) (p : PortId) (i : SliceIdx) : Nat :=
  match findSlice s p i.val with | some x => min x.loomCap (loomsServing s) | none => 0

/-- Items of a slice in service on looms. -/
def onLooms (s : State) (p : PortId) (i : SliceIdx) : Nat :=
  (s.heddle.items.filter fun x => x.place == .inService && x.port == p && x.slice == i
    && (match x.engine with | some (.loom _) => true | _ => false)).length

/-- No item of the item's flows is in service, and it is the oldest waiting item of each (R178, R183, R188). -/
def flowFree (s : State) (i : Item) : Bool :=
  (flowsOf i).all fun f =>
    s.heddle.items.all fun x =>
      x.id == i.id || !(flowsOf x).contains f
        || !(x.place == .inService || (x.holdsFlow && waiting x && !i.holdsFlow) || (waiting x && decide (x.id < i.id)))

/-- What R178 asks of an item whatever engine asks. -/
def eligibleBase (s : State) (i : Item) : Bool :=
  i.place == .ready && flowFree s i
    && (!isLoomClass i.cls || decide (onLooms s i.port i.slice < loomLimit s i.port i.slice))

/-! ### Engines that ask (R170, R177) -/

/-- The class an engine asks in. -/
def engineClass (s : State) : Engine → Option SvcClass
  | .loom n => match roleOf s (n.val / 4) with | 1 => some .kem | 2 => some .sign | 3 => some .hash | _ => none
  | .trestle _ => some .trestle
  | .selvedge _ => some .selvedge
  | _ => some .local_

/-- An engine with no work. -/
def engineFree (s : State) (e : Engine) : Bool := (itemsOn s e).isEmpty

/-- The engine may ask: in service, without work, its bench not gated (R177). -/
def mayAsk (s : State) (e : Engine) : Bool :=
  engineServes s e && engineFree s e && (engineClass s e).isSome
    && (match e with | .loom n => !s.benches[(benchOf n).val].gated | _ => true)

/-- LOCAL work and the engine that does it (R170). -/
def localServes (e : Engine) (i : Item) : Bool :=
  match e with
  | .digest _ => famOf i.entry == 0x41
  | .bobbin => famOf i.entry == 0x40
  | .steward => famOf i.entry != 0x41 && famOf i.entry != 0x40
  | _ => true

/-- A trestle's or engine's place in the rotating order. -/
def engineRank : Engine → Nat
  | .loom n => n.val | .trestle t => t.val | .selvedge u => u.val | .digest k => k.val | .bobbin => 8 | .steward => 9

/-- Inserts an engine by rank. -/
def insertRank (e : Engine) : List Engine → List Engine
  | [] => [e]
  | b :: l => if engineRank e ≤ engineRank b then e :: b :: l else b :: insertRank e l

/-- Engines of a class in rotating order after the one served last (R177). -/
def rotated (s : State) (c : SvcClass) (es : List Engine) : List Engine :=
  let all := es.foldr insertRank []
  match s.heddle.lastServed.find? fun x => x.1 == classCode c with
  | none => all
  | some (_, last) =>
    (all.filter fun e => decide (engineRank last < engineRank e)) ++ (all.filter fun e => decide (engineRank e ≤ engineRank last))

/-- The engines of a class that ask, in their order. -/
def askers (s : State) (c : SvcClass) : List Engine :=
  rotated s c (s.heddle.asking.filter fun e => engineClass s e == some c && mayAsk s e)

/-! ### Eligibility (R178, R181, R188, R380) -/

/-- Every other engine of the class in service is fenced, so an exclusion no longer holds (R188). -/
def noOther (s : State) (e : Engine) : Bool :=
  let others : List Engine := match e with
    | .loom n => ((fins 64).filter fun m => m != n && engineClass s (.loom m) == engineClass s e).map Engine.loom
    | .trestle t => ((fins 8).filter fun m => m != t).map Engine.trestle
    | .selvedge u => ((fins 4).filter fun m => m != u).map Engine.selvedge
    | _ => []
  others.all fun x => !engineServes s x

/-- The engine is not excluded for the item. -/
def notExcluded (s : State) (e : Engine) (i : Item) : Bool := !i.excluded.contains e || noOther s e

/-- The slice's trestle budget is above zero (R180). -/
def budgetOk (s : State) (i : Item) : Bool :=
  match findSlice s i.port i.slice.val with | some x => decide (0 < x.budget) | none => false

/-- The lowest-numbered asking trestle for the trestle part of a loom's item: idle, or at a yield point for a short
part (R181, R349). -/
def partnerFor (s : State) (yielding : List TrestleId) (i : Item) : Option TrestleId :=
  (fins 8).find? fun t => notExcluded s (.trestle t) i
    && ((s.heddle.asking.contains (.trestle t) && mayAsk s (.trestle t))
      || (yielding.contains t && (yieldingJob s t).isSome && isShort s i))

/-- The instances an item would draw from on this engine serve; a bobbin that has failed ends the item at its draw
instead (R380, R384). -/
def drawsServed (s : State) (e : Engine) (i : Item) : Bool :=
  if (needsRandom s i || (match e with | .loom n => rekeys s n i | _ => false)) && !bobbinFailed s then
    match e with
    | .loom n => instServes s ⟨n.val / 4, by omega⟩ && (!needsBoth i.entry || instServes s inst16)
    | _ => instServes s inst16
  else true

/-- A signing item whose key has no reserved index waits (R304), unless the flash controller is fenced (R495) or the
item ends at its grant (R312). -/
def indexReady (s : State) (i : Item) : Bool :=
  !isStatefulSign (famOf i.entry) (opOf i.entry) || (signBar s i).isSome || signReady s i || s.faults.flashFenced

/-- Eligible for the engine, the trestle budget left aside. -/
def eligibleBut (s : State) (e : Engine) (yielding : List TrestleId) (i : Item) : Bool :=
  eligibleBase s i && notExcluded s e i && localServes e i && drawsServed s e i && indexReady s i
    && (match e with
      | .loom n => !s.looms[n.val].dimmed || ((flowsOf i).isEmpty && decide (prioOf i.entry ≤ (heddleSection s).bulkMax))
      | _ => true)
    && (!needsBoth i.entry || (partnerFor s yielding i).isSome)

/-- The trestle budget's condition applies to the item on this engine. -/
def budgetBinds (e : Engine) (i : Item) : Bool := needsBoth i.entry || (match e with | .trestle _ => true | _ => false)

def eligible (s : State) (e : Engine) (yielding : List TrestleId) (i : Item) : Bool :=
  eligibleBut s e yielding i && (!budgetBinds e i || budgetOk s i)

end Sys2Proof.Machine
end

