-- ==== Sys2Proof/Machine/Admission.lean ====
section
/-! DEFINITION. Admission to the ready lists, parking, credit and the shuttle's reads (R143 to R149, R171 to R176, R184,
R401). -/

namespace Sys2Proof.Machine

/-! ### Admission (R173, R184, R401) -/

/-- The ready list of a class and level, oldest first. -/
def readyList (s : State) (c : SvcClass) (level : Nat) : List Item :=
  s.heddle.items.filter fun i => i.place == .ready && i.cls == c && prioOf i.entry == level

/-- The applied weight of an item's slice. -/
def weightOf (s : State) (p : PortId) (i : SliceIdx) : Nat :=
  match findSlice s p i.val with | some x => x.weight | none => 1

/-- The portion of a contended list a port may hold (R173). -/
def portPortion (s : State) (p : PortId) (l : List Item) : Nat :=
  let users := (fins 4).filter fun q => q == p || l.any fun x => x.port == q
  max 1 (listDepth s * s.shares[p.val] / (users.map fun q => s.shares[q.val]).sum)

/-- The portion of a contended list a slice may hold (R173). -/
def slicePortion (s : State) (p : PortId) (i : SliceIdx) (l : List Item) : Nat :=
  let users := (s.slices.filter fun x => x.port == p && (x.idx == i || l.any fun y => y.port == p && y.slice == x.idx)).map fun x => x.weight
  max 1 (portPortion s p l * weightOf s p i / max 1 users.sum)

/-- The list takes the item (R173). -/
def listAdmits (s : State) (i : Item) : Bool :=
  let l := readyList s i.cls (prioOf i.entry)
  let n := l.length
  let d := listDepth s
  if d ≤ n then false
  else if 2 * n < d then true
  else decide ((l.filter fun x => x.port == i.port).length < portPortion s i.port l)
    && decide ((l.filter fun x => x.port == i.port && x.slice == i.slice).length < slicePortion s i.port i.slice l)

/-- The flows with an item in a ready list or in service (R184). -/
def trackedFlows (s : State) : List (Nat × Nat × Nat) :=
  ((s.heddle.items.filter fun i => i.place == .ready || i.place == .inService).flatMap flowsOf).eraseDups

/-- The flow table takes the item's new flows (R184). -/
def flowsFit (s : State) (i : Item) : Bool :=
  let t := trackedFlows s
  decide (t.length + ((flowsOf i).filter fun f => !t.contains f).length ≤ 8192)

/-- Scratch drawers in use (R401). -/
def scratchUsed (s : State) : Nat := (s.heddle.items.map fun i => i.scratch).sum

/-- The item's record has its scratch drawers (R401). -/
def scratchHeld (i : Item) : Bool := i.record.isNone || decide (0 < i.scratch)

/-- An item that names a sealed record takes its scratch drawers when they fit (R401). -/
def takeScratch (id : Nat) (s : State) : State :=
  match findItem s id with
  | none => s
  | some i =>
    match i.record with
    | none => s
    | some r =>
      if i.scratch = 0 ∧ scratchUsed s + recRun r ≤ 4096 then modItem id (fun x => { x with scratch := recRun r }) s else s

/-- The queue's park slot is occupied (R174). -/
def parkTaken (s : State) (p : PortId) (n : Nat) : Bool :=
  s.heddle.items.any fun i => i.place == .parked && i.port == p && i.qnum == n

/-- The item goes to the end of its ready list. -/
def enterList (id : Nat) (s : State) : State :=
  match findItem s id with
  | none => s
  | some i =>
    let s := { s with heddle := { s.heddle with
      items := (s.heddle.items.filter fun x => !(x.id == id)) ++ [{ i with place := .ready, oldestSince := none }] } }
    traceItem 0x01 i s

/-- The item goes to its queue's park slot (R174); event 0x112 where the flow table is full (R184). -/
def park (full : Bool) (id : Nat) (s : State) : State :=
  match findItem s id with
  | none => s
  | some i =>
    let s := traceItem 0x02 i (modItem id (fun x => { x with place := .parked }) s)
    if full then raise0 0x112 s else s

/-- An item that waits outside the lists is offered to its list: it enters, or parks where the slot is free, or stays
as it is (R73, R174, R184, R401). -/
def offer (id : Nat) (s : State) : State :=
  let s := takeScratch id s
  match findItem s id with
  | none => s
  | some i =>
    if scratchHeld i && flowsFit s i && listAdmits s i then enterList id s
    else if i.place == .parked || parkTaken s i.port i.qnum then s
    else park (scratchHeld i && !flowsFit s i) id s

/-- Inserts a number into an ascending list. -/
def insertAsc (a : Nat) : List Nat → List Nat
  | [] => [a]
  | b :: l => if a ≤ b then a :: b :: l else b :: insertAsc a l

/-- The ids of a list of items in fetch order. -/
def idsInOrder (l : List Item) : List Nat := l.foldr (fun i acc => insertAsc i.id acc) []

/-- Parked items are tried again, then items that seeding released while their park slot was taken (R73, R174). -/
def retryParked (s : State) : State :=
  let parked := idsInOrder (s.heddle.items.filter fun i => i.place == .parked)
  let s := parked.foldl (fun s id => offer id s) s
  if s.mode.seeded then
    (idsInOrder (s.heddle.items.filter fun i => i.place == .seedWait)).foldl (fun s id => offer id s) s
  else s

/-! ### Credit (R175) -/

/-- Items fetched and not dispatched, of every port and of one. -/
def heldItems (s : State) : Nat := (s.heddle.items.filter waiting).length
def heldOf (s : State) (p : PortId) : Nat := (s.heddle.items.filter fun i => waiting i && i.port == p).length

/-- Both conditions of R175 hold for the port. -/
def creditShort (s : State) (p : PortId) : Bool :=
  let t := 48 * listDepth s
  decide (t ≤ 2 * heldItems s) && decide (t * s.shares[p.val] ≤ 1024 * heldOf s p)

/-- Credit is withheld or granted again (R175). -/
def settleCredit (s : State) : State :=
  (fins 4).foldl (fun s p =>
    let short := creditShort s p
    if short == s.ports[p.val].creditHeld then s
    else traceRecord p 0 none (if short then 0x0B else 0x0C) 0 (modPort p (fun x => { x with creditHeld := short }) s)) s

/-! ### Reads of work queues (R144 to R149) -/

/-- Nothing listed in R149 stops the queue, and its park slot is free (R174). -/
def mayFetch (s : State) (q : Queue) : Bool :=
  isIdleServe s.mode.base && q.state == .active && !q.installing && portMoves s q.port
    && !s.ports[q.port.val].creditHeld && !parkTaken s q.port q.qnum
    && (match findSlice s q.port q.slice.val with
      | some x => !x.frozen && (x.pasid.isNone || s.ports[q.port.val].pasidEn)
      | none => false)

/-- The prefetch window (R144). -/
def window (q : Queue) : Nat :=
  let w := (q.tail - q.head).toNat
  if w ≤ 2 ^ q.log2 then w else 0

/-- The ring index HEAD stands at. -/
def headIndex (q : Queue) : Nat := q.head.toNat % 2 ^ q.log2

/-- The PASID a slice's requests carry (R125, R133). -/
def slicePasid (s : State) (p : PortId) (i : SliceIdx) : Option (BitVec 20) :=
  (s.slices.find? fun x => x.port == p && x.idx == i).bind fun x => x.pasid

/-- Pages of 4 KiB that a range touches, the last first; none when it is empty. -/
def pagesOf (addr len : Nat) : List Nat :=
  if len = 0 then []
  else ((List.range ((addr + len - 1) / 4096 - addr / 4096 + 1)).map fun k => addr / 4096 + k).reverse

/-- A lookup matches only entries of the requesting slice (R132). -/
def translated (s : State) (p : PortId) (i : SliceIdx) (page : Nat) : Bool :=
  s.ports[p.val].cache.any fun t => t.slice == i && t.page == page

/-- While ATS is enabled, pages without an entry are asked for under the slice's PASID (R133). -/
def askPages (p : PortId) (i : SliceIdx) (pages : List Nat) (s : State) : State :=
  let missing := pages.filter fun k => !translated s p i k
  if s.ports[p.val].atsEn && !missing.isEmpty then emit (.atsRequest p (slicePasid s p i) missing) s else s

/-- Translations used by a slice come to the front of the port's cache, new ones with the page the host answers: at most
256 entries of the slice, 1,024 of the port, the least recently used replaced (R132; log entry 122). -/
def touchPages (p : PortId) (i : SliceIdx) (pages : List Nat) (s : State) : State :=
  if s.ports[p.val].atsEn && !pages.isEmpty then
    let old := s.ports[p.val].cache
    let entry (k : Nat) : Translation :=
      (old.find? fun t => t.slice == i && t.page == k).getD { slice := i, page := k, target := Config.hostPage s.free k }
    let new := (pages.take 256).map entry
    let all := new ++ old.filter fun t => !(t.slice == i && pages.contains t.page)
    let own := (all.filter fun t => t.slice == i).take 256
    modPort p (fun x => { x with cache := (all.filter fun t => !(t.slice == i) || own.contains t).take 1024 })
      { s with free := s.free + 1 }
  else s

/-- Pages of the ring entries that a read of `n` from HEAD touches. -/
def ringPages (q : Queue) (n : Nat) : List Nat := pagesOf (q.base.toNat + 64 * headIndex q) (64 * n)

/-- The shuttle reads `n` entries from HEAD, once the ring's pages are translated (R133). -/
def issueRead (q : Queue) (n : Nat) (s : State) : State :=
  emit (.ringRead q.port (slicePasid s q.port q.slice) q.qnum (headIndex q) n)
    (askPages q.port q.slice (ringPages q n) (modQueue q.port q.qnum (fun q => { q with reading := some n }) s))

/-- Entries of one read of an express scan: to the end of the ring, at most 32 (R146). -/
def scanCount (q : Queue) : Nat := min 32 (2 ^ q.log2 - headIndex q)

/-- Scans that nothing stops issue their next read (R146, R149). -/
def pumpScans (s : State) : State :=
  s.queues.foldl (fun s q =>
    match findQueue s q.port q.qnum with
    | none => s
    | some q => if q.express && q.scanning && q.reading.isNone && mayFetch s q then issueRead q (scanCount q) s else s) s

/-! ### The admin queue's read (R148) -/

/-- The shuttle may fetch the port's next admin entry (R48, R148, R149). -/
def mayFetchAdmin (s : State) (p : PortId) : Bool :=
  let a := s.ports[p.val].admin
  a.enable && !a.error && a.entry.isNone && adminRuns s && portMoves s p

/-- An admin scan that nothing stops reads one entry. -/
def pumpAdmin (s : State) : State :=
  (fins 4).foldl (fun s p =>
    let a := s.ports[p.val].admin
    if a.scanning && !a.reading && mayFetchAdmin s p then
      emit (.ringRead p none 0 (a.head.toNat % 2 ^ a.log2) 1) (modAdmin p (fun a => { a with reading := true }) s)
    else s) s

/-! ### The oldest eligible item of a level (R179, R185) -/

/-- For each loom of the class that serves, the item of the list that stands first among those eligible for it. -/
def firstEligible (s : State) (c : SvcClass) (l : List Item) : List Nat :=
  ((fins 64).filter fun n => loomServes s n && engineClass s (.loom n) == some c).filterMap fun n =>
    (l.find? (eligible s (.loom n) [])).map fun i => i.id

/-- An item that is the oldest eligible one of its level for a loom stands as such from now, where it did not before
(R179, R185). -/
def markOldest (s : State) : State :=
  let firsts := [SvcClass.kem, .sign, .hash].flatMap fun c => (List.range 8).flatMap fun l =>
    match readyList s c l with
    | [] => []
    | list => firstEligible s c list
  modItems (fun i => i.place == .ready && isLoomClass i.cls)
    (fun i => if firsts.contains i.id then { i with oldestSince := some (i.oldestSince.getD s.clock) } else { i with oldestSince := none }) s

/-! ### Invalidations that wait (R135) -/

/-- What of a waiting invalidation is still in flight. -/
def drainLeft (s : State) (p : PortId) (d : AtsDrain) : AtsDrain :=
  { queues := d.queues.filter fun n =>
      if n = 0 then s.ports[p.val].admin.reading else match findQueue s p n with | some q => q.reading.isSome | none => false
    items := d.items.filter fun id => match findItem s id with | some i => i.place == .inService && i.result.isNone | none => false }

/-- Invalidations whose reads have all completed are answered, in order. -/
def settleDrains (s : State) : State :=
  (fins 4).foldl (fun s p =>
    let left := s.ports[p.val].drains.map (drainLeft s p)
    let ended := left.filter fun d => d.queues.isEmpty && d.items.isEmpty
    if left.isEmpty then s
    else ended.foldl (fun s _ => emit (.atsDone p) s)
      (modPort p (fun x => { x with drains := left.filter fun d => !(d.queues.isEmpty && d.items.isEmpty) }) s)) s

/-- What follows whenever items enter, leave or wait: credit, scans, the standing of the oldest items, and invalidations
that waited. -/
def settleHeddle (s : State) : State := settleDrains (markOldest (pumpScans (settleCredit s)))

/-- As `settleHeddle`, after an item has left a list, a park slot or the engines. -/
def settleAfterLeave (s : State) : State := settleHeddle (retryParked s)

end Sys2Proof.Machine
end

