-- ==== Sys2Proof/Machine/Queues.lean ====
section
/-! DEFINITION. The shuttle's commands: doorbells, polls, ring reads and what the fetch does with an entry, waiting for
seeds, completion writes and their messages (R72, R73, R140 to R168). -/

namespace Sys2Proof.Machine

/-! ### Doorbells and polls -/

/-- The queue whose doorbell is the dword at a BAR2 offset: page p of the slice with local index p, 8 × k within it (R115,
R144). Only aligned dword writes are doorbells, and the dwords at 8 × k + 4 are reserved. -/
def doorbellQueue (s : State) (p : PortId) (offset size : Nat) : Option Queue :=
  if size = 4 ∧ offset % 8 = 0 then findLocalQueue s p (offset / 4096) (offset % 4096 / 8) else none

/-- DOORBELL_WRITE (R144): TAIL of a standard queue. -/
def execDoorbellWrite (p : PortId) (offset size : Nat) (value : Word) (s : State) :
    Host.Outcome State Fault Refusal :=
  let act (s : State) : State :=
    match doorbellQueue s p offset size with
    | some q => if q.express then s else modQueue p q.qnum (fun q => { q with tail := value.setWidth 17 }) s
    | none => s
  .next (onWrite p act s)

/-- EXPRESS_DOORBELL (R146, R147, R448): starts a scan, or sets the rescan flag during one or while the slice is frozen. -/
def execExpressDoorbell (p : PortId) (offset size : Nat) (s : State) : Host.Outcome State Fault Refusal :=
  let act (s : State) : State :=
    match doorbellQueue s p offset size with
    | some q =>
      if !q.express || q.state == .error then s
      else if q.scanning || q.state == .frozen then modQueue p q.qnum (fun q => { q with rescan := true }) s
      else pumpScans (modQueue p q.qnum (fun q => { q with scanning := true }) s)
    | none => s
  .next (onWrite p act s)

/-- ADMIN_DOORBELL (R146 to R148). -/
def execAdminDoorbell (p : PortId) (s : State) : Host.Outcome State Fault Refusal :=
  let act (s : State) : State :=
    let a := s.ports[p.val].admin
    if !a.enable || a.error then s
    else if a.scanning then modAdmin p (fun a => { a with rescan := true }) s
    else pumpAdmin (modAdmin p (fun a => { a with scanning := true }) s)
  .next (onWrite p act s)

/-- A ring base has the alignment of R138: the ring's size or 4 KiB, whichever is smaller. -/
def baseAligned (base : BitVec 64) (size : Nat) : Bool := base.toNat % min size 4096 == 0

/-- A ring's form (R138). -/
def ringOk (log2 : Nat) (base : BitVec 64) : Bool := decide (4 ≤ log2) && decide (log2 ≤ 16) && baseAligned base (64 * 2 ^ log2)

/-- ADMIN_QUEUE_ENABLE (R168): a write of ADM_AQ_CFG; its fields are ignored while ENABLE reads 1.
A queue that it enables has no ERR 3 (log entry 138). -/
def execAdminQueueEnable (p : PortId) (value : Word) (s : State) : Host.Outcome State Fault Refusal :=
  let act (s : State) : State :=
    let a := s.ports[p.val].admin
    let log2 := fieldOf value 0 5
    if a.enable then s
    else
      let s := modAdmin p (fun a => { a with vector := fieldOf value 16 11, log2 := log2 }) s
      if fieldOf value 31 1 = 0 then s
      else if ringOk log2 a.base then
        -- only a function-level reset or a detach ends the Error state (R149, R168)
        modAdmin p (fun a =>
          { a with enable := true, err := if a.error then a.err else 0, head := 0, scanning := false, rescan := false, reading := false }) s
      else modAdmin p (fun a => { a with err := 3 }) s
  .next (onWrite p act s)

/-- ADMIN_QUEUE_DISABLE (R168): ignored while an admin entry is module-owned. -/
def execAdminQueueDisable (p : PortId) (s : State) : Host.Outcome State Fault Refusal :=
  let act (s : State) : State :=
    if s.ports[p.val].admin.entry.isSome then s
    else modAdmin p (fun a => { a with enable := false, scanning := false, rescan := false, reading := false }) s
  .next (onWrite p act s)

/-- Entries of one polled read: the window's, at most 32, to the end of the ring; or the single entry at HEAD (R145). -/
def pollCount (q : Queue) : Nat :=
  if window q = 0 then 1 else min (window q) (min 32 (2 ^ q.log2 - headIndex q))

/-- POLL_TICK (R145). -/
def execPollTick (p : PortId) (qnum : Nat) (s : State) : Host.Outcome State Fault Refusal :=
  .next (match findQueue s p qnum with
    | some q => if !q.express && q.reading.isNone && mayFetch s q then issueRead q (pollCount q) s else s
    | none => s)

/-! ### Taking an entry (R141, R143, R153) -/

/-- The translations a fetch uses (R133): the ring's, and, once the entry has passed the checks before step 7, the input's and
the output's, each cached where the host grants it. -/
def touchFetch (q : Queue) (f : Fetched) (reached : Bool) (s : State) : State :=
  let e := f.entry
  let input := pagesOf (entryNat e 16 8) (inputLen e)
  let output := pagesOf (outputAddr e).toNat (outputCap e)
  let s := touchPages q.port q.slice (ringPages q 1) s
  if !reached then s
  else
    let s := askPages q.port q.slice (input ++ output) s
    let s := if f.inputOk then touchPages q.port q.slice input s else s
    if f.outputOk then touchPages q.port q.slice output s else s

/-- The run an item reserves, taken from the slice (R249); a new stateful key takes its tally record (R300). -/
def reserve (id : Nat) (x : Slice) (info : OpInfo) (e : Entry) (s : State) : State :=
  match info.run with
  | none => s
  | some n =>
    match freeRun s x n.length with
    | none => s
    | some first =>
      let born := n.kind == 4 && !isImport (famOf e) (opOf e)
      let r : KeyRun :=
        { port := x.port
          slice := x.idx
          first := first
          length := n.length
          gen := drawerGen s x first
          kind := n.kind
          family := n.family
          set := n.set
          policy := 0
          content := []
          keyId := if born then unnamedKey id else 0
          state := .reserved id }
      let s := { s with runs := s.runs ++ [r] }
      if born then reserveTally id x.uid s else s

/-- A ONE_SHOT key that the entry names and its operation claims (R251). -/
def claimedRun (s : State) (x : Slice) (f : Fetched) : Option KeyRun :=
  let e := f.entry
  if claims (famOf e) (opOf e) && !sealedKey e && passesKeyStep s x f then
    (runOf s x.port x.idx (keyHandle e).toNat).filter fun r => isOneShot r.policy
  else none

/-- An item that fails the checks completes at once (R153); SLC_FAULTS counts translation failures (R134, R136). -/
def failAtFetch (id : Nat) (x : Slice) (ff : FetchFail) (s : State) : State :=
  let s := if ff.status == .xlateFault then modSlice x.port x.idx (fun x => { x with xlateFaults := satAdd 65535 x.xlateFaults 1 }) s else s
  match findItem s id with
  | some i => endItem id { status := ff.status, outputLen := ff.needed, result := failWord i } 0 s
  | none => s

/-- The checked item waits for seeds, ends for want of a source or of the steward, or is offered to its list (R72, R73,
R304, R312, R384). -/
def placeItem (id : Nat) (random : Bool) (s : State) : State :=
  match findItem s id with
  | none => s
  | some i =>
    if famOf i.entry == 0x31 && s.mode.stewardLost then failItem .unitFault i s
    else if random && bobbinFailed s then failItem .entropyFail i s
    else
      let s := reserveFor i s
      if random && !s.mode.seeded then traceItem 0x09 i s else offer id s

/-- The shuttle takes the entry at HEAD, and the checks of R153 run on it. -/
def takeEntry (q : Queue) (x : Slice) (f : Fetched) (s : State) : State :=
  let id := s.heddle.nextId
  let e := f.entry
  let info := opInfo s f.sealedRecord e
  let fail := fetchFail s x f
  let claim := claimedRun s x f
  let named := if info.key.isSome && !sealedKey e then runOf s x.port x.idx (keyHandle e).toNat else none
  let i : Item :=
    { id := id
      port := q.port
      qnum := q.qnum
      slice := q.slice
      index := headIndex q
      entry := e
      cls := itemClass s e
      place := .seedWait
      record := if fail.isNone then f.sealedRecord else none
      exponent := f.exponent
      keyRun := if fail.isNone || claim.isSome then named.map (fun r => r.first) else none
      keyPolicy := match fetchKey s x f with | some k => k.policy | none => 0 }
  let s := touchFetch q f (match fail with | none => true | some ff => ff.status == .xlateFault) s
  let s := { s with heddle := { s.heddle with nextId := id + 1, items := s.heddle.items ++ [i] } }
  let s := modQueue q.port q.qnum (fun q => { q with head := q.head + 1, owned := q.owned + 1 }) s
  let s := match claim with
    | some r => modRuns (fun y => y.port == r.port && y.slice == r.slice && y.first == r.first) (fun y => { y with claimed := some id }) s
    | none => s
  match fail with
  | some ff => failAtFetch id x ff s
  | none => placeItem id info.random (reserve id x info e s)

/-- The ring index is module-owned: fetched and not yet completed (R140). -/
def ownedIndex (s : State) (q : Queue) (k : Nat) : Bool :=
  s.heddle.items.any fun i => i.port == q.port && i.qnum == q.qnum && i.index == k

/-- Takes entries in ring order while the shuttle may fetch and OWN is 1 (R145, R146). The flag says that an
entry stopped it, or that every entry of the ring is module-owned. -/
def takeEntries (p : PortId) (n : Nat) : List Fetched → State → State × Bool
  | [], s => (s, match findQueue s p n with | some q => q.owned == 2 ^ q.log2 | none => true)
  | f :: rest, s =>
    match findQueue s p n with
    | none => (s, true)
    | some q =>
      match findSlice s p q.slice.val with
      | none => (s, true)
      | some x =>
        if !mayFetch s q then (s, false)
        else if !ownBit f.entry || ownedIndex s q (headIndex q) then (s, true)
        else takeEntries p n rest (settleCredit (takeEntry q x f s))

/-- What follows a read: the next read of a window at once, or of a scan; a scan that an entry stopped ends, or starts
anew under its rescan flag (R145 to R147). -/
def afterRead (p : PortId) (n : Nat) (stopped : Bool) (s : State) : State :=
  match findQueue s p n with
  | none => s
  | some q =>
    if q.express then
      if stopped then modQueue p n (fun q => { q with scanning := q.rescan, rescan := false }) s else s
    else if window q != 0 && mayFetch s q then issueRead q (pollCount q) s
    else s

/-- A work queue's read returns. -/
def workRead (p : PortId) (n count : Nat) (r : RingResult) (s : State) : State :=
  let s := modQueue p n (fun q => { q with reading := none }) s
  match r with
  | .denied => queueError p n 1 s
  | .data es =>
    let t := takeEntries p n (es.take count) s
    settleHeddle (afterRead p n t.2 t.1)

/-! ### Admin entries (R148, R160, R161) -/

/-- Operand bytes that an admin command uses, a buffer it does not take being none of them (log entry 140); none for an
unknown code. -/
def adminOperands (code : Nat) : Option (List (Nat × Nat)) :=
  match code with
  | 0x01 => some [(8, 31), (32, 34)]
  | 0x02 => some [(8, 9)]
  | 0x03 => some [(8, 11), (12, 15), (16, 28)]
  | 0x04 => some [(8, 10)]
  | 0x05 => some [(8, 9)]
  | 0x06 => some [(8, 10), (16, 40)]
  | 0x07 => some [(8, 13), (16, 28)]
  | 0x08 => some [(8, 9)]
  | 0x09 => some [(8, 9), (16, 24)]
  | 0x0A => some []
  | 0x0B => some [(8, 16), (28, 40)]
  | 0x0C => some [(28, 40)]
  | 0x0D => some [(28, 40)]
  | 0x80 => some [(16, 28)]
  | _ => none

/-- Reserved bits inside operand bytes are zero: bits 30 to 20 beside a PASID, and cards above slot 3. -/
def adminBitsOk (e : Entry) : Bool :=
  let code := opOf e
  (!(code == 0x01 || code == 0x07) || entryBits e 84 11 == 0) && (!(code == 0x06) || entryByte e 9 < 16)

/-- An admin entry's form (R160). -/
def adminForm (e : Entry) : Bool :=
  famOf e == 0 && entryBits e 16 13 == 0 && entryNat e 4 4 == 0 && !(noIrq e && irqNow e)
    && (match adminOperands (opOf e) with
      | none => false
      | some used => ((List.range 48).map fun k => k + 8).all fun k =>
          used.any (fun r => decide (r.1 ≤ k) && decide (k < r.2)) || entryByte e k == 0)
    && adminBitsOk e

/-- Admin commands that need randomness: slice creation and migration (R72). -/
def adminRandom (code : Nat) : Bool := code == 0x01 || code == 0x06 || code == 0x07

/-- Zeroized and Analysis, but not Test-Root, run only LOG_READ and CAL_READ (R48, R161). -/
def adminBarred (s : State) (code : Nat) : Bool :=
  !s.life.debug && (s.mode.base == .zeroized || s.mode.base == .analysis) && !(code == 0x0B || code == 0x0C)

/-- A command that the mode bars: KEY_POLICY, with the mode's code in the command's result register (R129, R162, R163,
R447, R458; log entry 179). -/
def barAdmin (p : PortId) (code : Nat) (s : State) : State :=
  let mark (x : Port) : Port :=
    if code = 0x01 ∨ code = 0x02 then { x with sliceRefuse := 0x01 }
    else if code = 0x03 ∨ code = 0x04 then { x with queueRefuse := 0x01 }
    else if code = 0x05 ∨ code = 0x06 ∨ code = 0x08 then { x with moveRefuse := 0x01 }
    else if code = 0x07 then { x with moveRefuse := 0x20 }
    else x
  adminDone p .keyPolicy 0 [] (modPort p mark s)

/-- The shuttle takes an admin entry: one that cannot run ends at once, one that needs randomness waits for it (R72,
R122, R161). Its form is judged before the mode's bar (log entry 141). -/
def takeAdmin (p : PortId) (f : Fetched) (s : State) : State :=
  let id := s.heddle.nextId
  let a := s.ports[p.val].admin
  let x : AdminEntry := { id := id, entry := f.entry, index := a.head.toNat % 2 ^ a.log2, inputOk := f.inputOk, outputOk := f.outputOk }
  let s := { s with heddle := { s.heddle with nextId := id + 1 } }
  let s := modAdmin p (fun a => { a with head := a.head + 1, entry := some x }) s
  if !adminForm f.entry then adminDone p .opUnsupported 0 [] s
  else if adminBarred s (opOf f.entry) then barAdmin p (opOf f.entry) s
  else if s.mode.stewardLost then s
  else if adminRandom (opOf f.entry) && bobbinFailed s then adminDone p .entropyFail 0 [] s
  else if adminRandom (opOf f.entry) && !s.mode.seeded then
    modAdmin p (fun a => { a with entry := a.entry.map fun y => { y with wait := .seed } }) s
  else s

/-- The admin queue's read returns (R146 to R148). -/
def adminRead (p : PortId) (r : RingResult) (s : State) : State :=
  let may := mayFetchAdmin s p
  let s := modAdmin p (fun a => { a with reading := false }) s
  match r with
  | .denied => queueError p 0 1 s
  | .data es =>
    match es with
    | [f] =>
      if !may then s
      else if ownBit f.entry then takeAdmin p f s
      else pumpAdmin (modAdmin p (fun a => { a with scanning := a.rescan, rescan := false }) s)
    | _ => s

/-- RING_READ_COMPLETE (R145, R150): the read under way returns as many entries as it asked for. -/
def execRingReadComplete (p : PortId) (qnum : Nat) (result : RingResult) (s : State) : Host.Outcome State Fault Refusal :=
  .next (
    if qnum = 0 then (if s.ports[p.val].admin.reading then adminRead p result s else s)
    else match findQueue s p qnum with
      | none => s
      | some q =>
        match q.reading with
        | none => s
        | some n =>
          let fits := match result with | .denied => true | .data es => es.length == n
          if fits then workRead p qnum n result s else s)

/-! ### Waiting for seeds (R73) -/

/-- The admin entry with this number. -/
def adminWith (s : State) (id : Nat) : Option (PortId × AdminEntry) :=
  (fins 4).findSome? fun p => match s.ports[p.val].admin.entry with
    | some e => if e.id == id then some (p, e) else none
    | none => none

/-- Bus Master Enable of the port is clear, or it is in D3hot: nothing of it times out (R116). -/
def portStopped (s : State) (p : PortId) : Bool := functionPresent s p && (!s.ports[p.val].bme || s.ports[p.val].d3hot)

/-- SEED_WAIT_TIMEOUT (R73, R189): before the first seeding only, and not on a stopped port. -/
def execSeedWaitTimeout (id : Nat) (s : State) : Host.Outcome State Fault Refusal :=
  .next (
    if s.mode.seeded then s
    else match findItem s id with
      | some i =>
        if portStopped s i.port then s
        else if i.place == .seedWait || (i.place == .parked && needsRandom s i) then
          settleAfterLeave (failItem .entropyWaitTimeout i (raise0 0x113 (traceItem 0x0A i s)))
        else s
      | none => match adminWith s id with
        | some (p, e) => if e.wait == .seed && !portStopped s p then adminDone p .entropyWaitTimeout 0 [] s else s
        | none => match s.life.challenges.find? fun c => c.1 == id with
          | some (_, p, seq) =>
            emit (.usb p 0x0030 seq .entropyWaitTimeout [])
              { s with life := { s.life with challenges := s.life.challenges.filter fun c => !(c.1 == id) } }
          | none => s)

/-! ### Completions (R142, R155 to R159) -/

/-- The shuttle finds an uncorrectable word in a committed output: the unit's source reports, and the unit is fenced
(R211, R219; log entry 22 for engines other than looms). -/
def outputFault (e : Engine) (s : State) : State :=
  match e with
  | .loom n => fenceUnits true 0 [n] 0 0 (raise0 (2 * n.val) (report n.val true s))
  | .trestle t => fenceUnits true 0 [] (trestleBit t.val) 0 (raise0 (0x0F0 + 2 * t.val) (report (80 + t.val) true s))
  | .selvedge u => fenceUnits true 0 [] 0 (selvBit u.val) (raise0 (0x100 + 2 * u.val) (report (88 + u.val) true s))
  | _ => s

/-- An earlier item of one of its flows still waits to be written (R183). -/
def flowHeld (s : State) (i : Item) : Bool :=
  s.heddle.items.any fun x => x.place == .done && decide (x.id < i.id) && (flowsOf x).any fun f => (flowsOf i).contains f

/-- What the completion carries once the output has been read and written: a denial is seen only where the output is
translated again (R133, R134, R211). -/
def writtenDone (asked : Bool) (w : WriteBack) (d : Done) : Done :=
  if d.output.isEmpty then d
  else if w.outputUe then { d with status := .unitFault, outputLen := 0, output := [] }
  else if w.outputDenied && asked then { d with status := .xlateFault, outputLen := 0, output := [] }
  else d

/-- Two byte ranges share a byte; an empty one shares none. -/
def rangesMeet (a n b m : Nat) : Bool := decide (0 < n) && decide (0 < m) && decide (a < b + m) && decide (b < a + n)

/-- A range of a port's address space `own` meets a ring in it (R152). -/
def ringMeets (s : State) (p : PortId) (own : Option (BitVec 20)) (a n : Nat) : Bool :=
  (s.queues.any fun q => q.port == p && slicePasid s q.port q.slice == own && rangesMeet a n q.base.toNat (64 * 2 ^ q.log2))
    || (own.isNone && s.ports[p.val].admin.enable
        && rangesMeet a n s.ports[p.val].admin.base.toNat (64 * 2 ^ s.ports[p.val].admin.log2))
    || (own.isNone && s.ports[p.val].trace.enabled
        && rangesMeet a n s.ports[p.val].trace.base.toNat (16 * 2 ^ s.ports[p.val].trace.log2))

/-- The output range meets the input, the sealed record or a ring of its address space (R152). -/
def outputOverlaps (s : State) (i : Item) (n : Nat) : Bool :=
  let a := (outputAddr i.entry).toNat
  rangesMeet a n (entryNat i.entry 16 8) (inputLen i.entry)
    || (match i.record with | some r => rangesMeet a n (entryNat i.entry 8 8) r.length | none => false)
    || ringMeets s i.port (slicePasid s i.port i.slice) a n

/-- The output range of an admin entry meets its input, which SAVE_SLICE alone has beside an output, or a ring. -/
def adminOverlaps (s : State) (p : PortId) (e : Entry) (n : Nat) : Bool :=
  let a := (outputAddr e).toNat
  (opOf e == 0x06 && rangesMeet a n (entryNat e 16 8) (inputLen e)) || ringMeets s p none a n

/-- The bytes written: undefined where the ranges overlap (R152; log entry 123). -/
def writtenBytes (overlaps : Bool) (bs : Bytes) (s : State) : Bytes × State :=
  if overlaps then ((List.range bs.length).map (Config.freeByte s.free), { s with free := s.free + 1 }) else (bs, s)
def outputBytes (i : Item) (bs : Bytes) (s : State) : Bytes × State := writtenBytes (outputOverlaps s i bs.length) bs s

/-- The output goes to the host, its pages translated again where one was invalidated since the fetch (R133, R142). -/
def writeOutput (i : Item) (bs : Bytes) (s : State) : State :=
  let pages := pagesOf (outputAddr i.entry).toNat bs.length
  let r := outputBytes i bs (touchPages i.port i.slice pages s)
  emit (.output i.port (slicePasid s i.port i.slice) (outputAddr i.entry) r.1) r.2

/-- An item's three writes (R142). -/
def writeItem (i : Item) (d : Done) (w : WriteBack) (s : State) : State :=
  let ats := s.ports[i.port.val].atsEn
  let pasid := slicePasid s i.port i.slice
  let again := ats && i.retranslate && !d.output.isEmpty
  let d' := writtenDone again w d
  let s := if d.output.isEmpty || !w.outputUe then s else match i.engine with | some e => outputFault e s | none => s
  let s := if again && !w.outputUe then askPages i.port i.slice (pagesOf (outputAddr i.entry).toNat d.output.length) s else s
  let s := if d'.status == .xlateFault && !(d.status == .xlateFault) then
      modSlice i.port i.slice (fun x => { x with xlateFaults := satAdd 65535 x.xlateFaults 1 }) s
    else s
  let s := if d'.output.isEmpty then s else writeOutput i d'.output s
  let s := dropItems (fun x => x.id == i.id) s
  let s := modQueue i.port i.qnum (fun q => { q with owned := q.owned - 1 }) s
  if w.ringDenied && ats then queueError i.port i.qnum 2 s
  else
    let r := completionRecord d'.outputLen i.cycles i.doneEngine i.faultRestarts d'.result (userTag i.entry)
    let s := emit (.dword0 i.port pasid i.qnum i.index (recordDword0 d'.status i.restarts))
      (emit (.completion i.port pasid i.qnum i.index r) s)
    countWritten i.port i.qnum i.entry s

/-- An admin entry's three writes: ENGINE kind 7 (R160), a message unless NO_IRQ (R158). -/
def writeAdmin (p : PortId) (x : AdminEntry) (d : Done) (w : WriteBack) (s : State) : State :=
  let ats := s.ports[p.val].atsEn
  let d' := writtenDone ats { w with outputUe := false } d
  let s := if d'.output.isEmpty then s
    else
      let r := writtenBytes (adminOverlaps s p x.entry d'.output.length) d'.output s
      emit (.output p none (outputAddr x.entry) r.1) r.2
  let s := modAdmin p (fun a => { a with entry := none }) s
  if w.ringDenied && ats then queueError p 0 2 s
  else
    let r := completionRecord d'.outputLen 0 0x7000 0 d'.result (userTag x.entry)
    let s := emit (.dword0 p none 0 x.index (recordDword0 d'.status 0)) (emit (.completion p none 0 x.index r) s)
    pumpAdmin (if noIrq x.entry then s else adminMessage p s)

/-- Completions of a frozen slice's queues have all been written (R447). -/
def freezeDrained (s : State) (p : PortId) (i : SliceIdx) : Bool :=
  s.queues.all fun q => !(q.port == p && q.slice == i) || q.owned == 0

/-- The writes of the item or admin entry with this number, once the port may write. -/
def writeCompletion (id : Nat) (outcome : WriteBack) (s : State) : State :=
  match findItem s id with
  | some i =>
    match i.done with
    | some d => if portMoves s i.port && !flowHeld s i then settleAfterLeave (writeItem i d outcome s) else s
    | none => s
  | none => match adminWith s id with
    | some (p, x) => match x.done with
      | some d => if portMoves s p then writeAdmin p x d outcome s else s
      | none => s
    | none => s

/-- COMPLETION_WRITE (R142). -/
def execCompletionWrite (id : Nat) (outcome : WriteBack) (s : State) : Host.Outcome State Fault Refusal :=
  .next (writeCompletion id outcome s)

/-- COALESCE_TIMEOUT (R158). -/
def execCoalesceTimeout (p : PortId) (qnum : Nat) (s : State) : Host.Outcome State Fault Refusal :=
  .next (match findQueue s p qnum with
    | some q => if q.counted = 0 then s else queueMessage p qnum s
    | none => s)

end Sys2Proof.Machine
end

