-- ==== Sys2Proof/Machine/Heddle.lean ====
section
/-! DEFINITION. Pull dispatch: who may be granted what, what a grant does, yield points and dimming (R177 to R189, R310,
R312, R349 to R351, R380). -/

namespace Sys2Proof.Machine

/-! ### The choice (R179) -/

/-- The loom holds the expansion of the key the item names by handle (R185, R216). -/
def affine (s : State) (e : Engine) (i : Item) : Bool :=
  match e with
  | .loom n => i.keyRun.isSome && s.looms[n.val].cache.any fun c =>
      c.slice == moduleIndex i.port i.slice && c.key == .handle (keyHandle i.entry)
  | _ => false

/-- The first item of the window that the loom holds, while the oldest is young enough (R179, R185). -/
def affinityPick (s : State) (e : Engine) (l : List Item) : Option Item :=
  let h := heddleSection s
  match l with
  | [] => none
  | i :: _ =>
    if s.clock - i.oldestSince.getD s.clock < 75 * h.affAge then (l.take h.affWin).find? (affine s e) else none

/-- The choice among the eligible items of the levels, highest first; a pick that is the oldest item itself has the code of
a plain grant (log entry 184). -/
def pickLevels (s : State) (e : Engine) (sel : Item → Bool) (c : SvcClass) : List Nat → Option (Item × Nat)
  | [] => none
  | l :: rest =>
    match (readyList s c l).filter sel with
    | [] => pickLevels s e sel c rest
    | i :: more =>
      match affinityPick s e (i :: more) with
      | some a => some (a, if a.id = i.id then 0x03 else 0x04)
      | none => some (i, 0x03)

/-- Levels from 7 down to 0. -/
def levels : List Nat := [7, 6, 5, 4, 3, 2, 1, 0]

/-- The heddle's choice for an engine, with its reason code; `only` narrows it to short items at a yield point. -/
def choose (s : State) (e : Engine) (yielding : List TrestleId) (only : Item → Bool) : Option (Item × Nat) :=
  match engineClass s e with
  | none => none
  | some c =>
    match pickLevels s e (fun i => only i && eligible s e yielding i) c levels with
    | some r => some r
    | none =>
      (levels.findSome? fun l => (readyList s c l).find? fun i =>
        only i && budgetBinds e i && eligibleBut s e yielding i && !budgetOk s i).map fun i => (i, 0x05)

/-! ### The grant -/

/-- A loom starts the routine of an item at its entry's START, the mask generator rekeyed where `rekey` holds the bytes
drawn (R207, R230). -/
def startRoutine (n : LoomId) (i : Item) (rekey : Option Bytes) (s : State) : State :=
  let start := match benchEntry s n i.entry with | some d => deStart d | none => 0
  modLoom n (fun l => { l with core := startCore i.id start rekey l.core }) s

/-- A trestle's job takes its context, with 1,024 bits of instance 16 where it draws them at its grant (R333, R334). -/
def enterContext (i : Item) (draws : Bool) (s : State) : State :=
  let d := match trestleOf i with
    | some t => if draws then drawBuffer ⟨t.val, by omega⟩ 128 s else ([], s)
    | none => ([], s)
  modContext i (fun _ => { item := some i.id, bits := d.1 }) d.2

/-- Draws that a grant makes before the first microword: the rekey of R207 where the dispatch entry is SECRET, that of a
selvedge unit's mask generator, and the bits of instance 16 that a trestle part or an import on a trestle takes (R320,
R334; log entry 15). -/
def grantDraws (e : Engine) (i : Item) (s : State) : State :=
  let drew (s : State) : State := modItem i.id (fun x => { x with drew := true }) s
  match e with
  | .loom n =>
    if rekeys s n i then
      let d := draw ⟨n.val / 4, by omega⟩ 32 s
      let s := startRoutine n i (some d.1) d.2
      drew (if needsBoth i.entry then enterContext i true s else s)
    else enterContext i false (startRoutine n i none s)
  | .selvedge u =>
    if needsRandom s i then
      let d := drawBuffer ⟨8 + u.val, by omega⟩ 32 s
      drew (modSelv u (fun v => { v with maskKey := d.1, maskPos := 0 }) d.2)
    else s
  | .trestle _ =>
    if needsRandom s i && famOf i.entry == 0x30 then drew (enterContext i true s) else enterContext i false s
  | _ => s

/-- What else an operation does at its grant: DELETE takes its key out of use, unless a SEAL was
granted while it waited (R412), RESTRICT takes its rights (R403), a Classic McEliece KEYGEN takes
the key store (R328), RANDOM with PRED_RES asks for a reseed (R378), SIGN binds its index (R310). -/
def grantActs (e : Engine) (i : Item) (s : State) : State :=
  let fam := famOf i.entry
  let op := opOf i.entry
  if fam == 0x30 && op == 0x84 then
    modRuns (fun r => r.port == i.port && r.slice == i.slice && some r.first == i.keyRun && r.deleting.isNone)
      (fun r => if i.sealedFirst then r else { r with deleting := some i.id }) s
  else if fam == 0x30 && op == 0x83 then
    modItems (fun x => waiting x && famOf x.entry == 0x30 && opOf x.entry == 0x84 && x.port == i.port && x.slice == i.slice
      && x.keyRun == i.keyRun) (fun x => { x with sealedFirst := true }) s
  else if fam == 0x30 && op == 0x86 then
    modRuns (fun r => r.port == i.port && r.slice == i.slice && some r.first == i.keyRun)
      (fun r => { r with policy := restricted r.policy (policyOperand i.entry) }) s
  else if fam == 0x07 && op == 0x50 then
    match e with | .selvedge u => modSelv u (fun v => { v with cache := [], keygen := true }) s | _ => s
  else if fam == 0x40 && predRes i.entry then requestPred s
  else if isStatefulSign fam op then bindIndex i s
  else s

/-- The long job of a trestle is suspended at its yield point (R349, R351). -/
def suspendLong (t : TrestleId) (s : State) : State :=
  match activeJob s t with
  | none => s
  | some i =>
    modTrestle t (fun x => { x with yields := x.yields + 1 }) (modItem i.id (fun x => { x with suspended := true }) s)

/-- The context a new job on a trestle takes: the other one beside a suspended job. -/
def contextFor (s : State) (t : TrestleId) : Bool := match suspendedJob s t with | some i => !i.ctxB | none => false

/-- The item goes to the engine, and a loom's item with a trestle part to its trestle too. -/
def grant (e : Engine) (yielding : List TrestleId) (i : Item) (reason : Nat) (s : State) : State :=
  let partner := if needsBoth i.entry then partnerFor s yielding i else none
  let t := match e with | .trestle t => some t | _ => partner
  let s := match t with | some t => suspendLong t s | none => s
  let ctx := match t with | some t => contextFor s t | none => false
  let placed (x : Item) : Item :=
    { x with
      place := .inService
      engine := some e
      trestle := partner
      ctxB := ctx
      holdsFlow := false
      oldestSince := none
      result := none
      input := none
      drew := false }
  let s := modItem i.id placed s
  -- the trestle holds the slice's job in this beat (R180)
  let m := moduleIndex i.port i.slice
  let s := match t with | some t => holdTrestle t m s | none => s
  let s := unask (fun x => x == e || (match t with | some t => x == .trestle t | none => false)) s
  let c := (engineClass s e).elim 0 classCode
  let last := (c, e) :: s.heddle.lastServed.filter (fun x => !(x.1 == c))
  let s := { s with heddle := { s.heddle with lastServed := last } }
  let s := traceItem reason (placed i) s
  let s := grantActs e (placed i) s
  if needsRandom s i && bobbinFailed s then
    match findItem s i.id with
    | some i => resumeTrestle i (failInService .entropyFail 0 i s)
    | none => s
  else grantDraws e (placed i) s

/-- What ends an item at its grant without service (R300, R312, R495). -/
def grantBar (s : State) (i : Item) : Option Status :=
  let fam := famOf i.entry
  let op := opOf i.entry
  if isStatefulSign fam op then
    match signBar s i with
    | some st => some st
    | none => if signReady s i then none else some .unitFault
  else if isFinish fam op then
    match itemRun s i with
    | some r => if buildComplete s r then none else some .keyPolicy
    | none => some .keyHandleInvalid
  else none

/-- Grants the engine its choice; items that end at their grant go first. The flag says that one was granted. -/
def grantLoop : Nat → Engine → List TrestleId → (Item → Bool) → State → State × Bool
  | 0, _, _, _, s => (s, false)
  | n + 1, e, y, only, s =>
    match choose s e y only with
    | none => (s, false)
    | some (i, reason) =>
      match grantBar s i with
      | some st =>
        let s := if st == .tallyExhausted then markExhausted i s else s
        grantLoop n e y only (failItem st i s)
      | none => (grant e y i reason s, true)

/-- The first engine of the list that can be granted an item gets it (R177). -/
def serveFirst (y : List TrestleId) : List Engine → State → State × Bool
  | [], s => (s, false)
  | e :: rest, s =>
    let r := grantLoop (s.heddle.items.length + 1) e y (fun _ => true) s
    if r.2 then r else serveFirst y rest r.1

/-- The service classes in code order. -/
def allClasses : List SvcClass := [.kem, .sign, .hash, .trestle, .selvedge, .local_]

/-- One class of a heddle cycle: at most one grant. A grant that suspends the long job of a trestle at a yield point is the
cycle's TRESTLE grant, so no trestle at one takes another (R349). -/
def serveClass (x : State × List TrestleId × Bool) (c : SvcClass) : State × List TrestleId × Bool :=
  if c == .trestle && x.2.2 then x
  else
    let r := serveFirst x.2.1 (askers x.1 c) x.1
    if x.2.1.any fun t => (suspendedJob x.1 t).isNone && (suspendedJob r.1 t).isSome then (r.1, [], true) else (r.1, x.2)

/-- One heddle cycle: at most one grant in each class (R177); engines dispatch in the Serve modes only (R48). -/
def heddleCycle (y : List TrestleId) (s : State) : State :=
  if isServe s.mode.base then (allClasses.foldl serveClass (s, y, false)).1 else s

/-- The trestles at a yield point in this cycle, in rotating order after the trestle served last (R177, R354). -/
def yieldAskers (s : State) (ask : YieldAsk) : List Engine :=
  let ts := (fins 8).filter fun t => (t == ask.trestle || ask.beside.contains t) && (yieldingJob s t).isSome
  rotated s .trestle (ts.map Engine.trestle)

/-- The first of the trestles at a yield point that a short item can be granted gets it; the others' long jobs go on. -/
def serveYield : List Engine → State → State
  | [], s => s
  | e :: rest, s =>
    let r := grantLoop (s.heddle.items.length + 1) e [] (isShort s) s
    if r.2 then r.1 else serveYield rest r.1

/-- ENGINE_ASK (R177, R179): the engine asks, and blocks until granted; `askingTrestles` are the trestles at a yield
point in this heddle cycle. -/
def execEngineAsk (e : Engine) (askingTrestles : List TrestleId) (s : State) : Host.Outcome State Fault Refusal :=
  .next (
    if mayAsk s e then
      let asking := if s.heddle.asking.contains e then s.heddle.asking else s.heddle.asking ++ [e]
      settleAfterLeave (heddleCycle askingTrestles { s with heddle := { s.heddle with asking := asking } })
    else s)

/-- TRESTLE_YIELD_ASK (R349, R350, R354): an idle trestle that asks in the cycle goes first; else a short item runs in the
other context of the first trestle at a yield point that can take it, or the long jobs go on. -/
def execTrestleYieldAsk (ask : YieldAsk) (s : State) : Host.Outcome State Fault Refusal :=
  .next (
    if isServe s.mode.base && (yieldingJob s ask.trestle).isSome then
      let r := serveFirst [] (askers s .trestle) s
      if r.2 then settleAfterLeave r.1 else settleAfterLeave (serveYield (yieldAskers r.1 ask) r.1)
    else s)

/-! ### Dimming (R186) -/

/-- Inserts a rational into an ascending list. -/
def insertRat (a : Rat) : List Rat → List Rat
  | [] => [a]
  | b :: l => if a ≤ b then a :: b :: l else b :: insertRat a l

/-- A bench's median: the mean of the middle two of its four averages, while all four looms serve (R186). -/
def benchMedian (s : State) (b : BenchId) : Option Rat :=
  let looms := (fins 64).filter fun n => n.val / 4 == b.val
  let avgs := looms.filterMap fun n => if loomServes s n then s.looms[n.val].average else none
  match avgs.foldr insertRat [] with
  | [_, x, y, _] => some ((x + y) / 2)
  | _ => none

/-- LOOM_DIM (R186): the average stands above the draft's threshold of the bench's median. -/
def execLoomDim (n : LoomId) (s : State) : Host.Outcome State Fault Refusal :=
  .next (match benchMedian s (benchOf n), s.looms[n.val].average with
    | some m, some a =>
      if !s.looms[n.val].dimmed && decide (((heddleSection s).dimThresh : Rat) * m < 64 * a) then
        raise0 (2 * n.val + 1) (modLoom n (fun l => { l with dimmed := true }) s)
      else s
    | _, _ => s)

/-- LOOM_RESTORE (R186): the average stands at or below 1.125 of the median. -/
def execLoomRestore (n : LoomId) (s : State) : Host.Outcome State Fault Refusal :=
  .next (match benchMedian s (benchOf n), s.looms[n.val].average with
    | some m, some a =>
      if s.looms[n.val].dimmed && decide (8 * a ≤ 9 * m) then settleAfterLeave (modLoom n (fun l => { l with dimmed := false }) s) else s
    | _, _ => s)

/-! ### COMMIT (R235, R249, R217, R325, R402, R403) -/

/-- The most recently used entries that leave a tag and `need` blocks free: the rest are evicted (R217). -/
def evictLoom (tags room : Nat) : List CacheEntry → List CacheEntry
  | [] => []
  | c :: rest => if 0 < tags ∧ c.blocks ≤ room then c :: evictLoom (tags - 1) (room - c.blocks) rest else []

/-- The same for a selvedge unit's key store (R325). -/
def evictSelv (tags room : Nat) : List SelvEntry → List SelvEntry
  | [] => []
  | c :: rest => if 0 < tags ∧ c.pages ≤ room then c :: evictSelv (tags - 1) (room - c.pages) rest else []

end Sys2Proof.Machine
end

