-- ==== Sys2Proof/Machine/Serve.lean ====
section
/-! DEFINITION. Serving an item: the public expansions it uses, its draws, and how an operation's command forms its result
(R217, R235, R376 to R384). -/

namespace Sys2Proof.Machine

/-! ### The expansion cache (R215 to R217) -/

/-- Blocks of an expansion-cache entry (R215). -/
def cacheBlocks (fam set : Nat) : Nat :=
  if fam = 0x01 then [0, 5, 10, 17].getD set 0
  else if fam = 0x02 then [0, 17, 31, 57].getD set 0
  else if fam = 0x03 then [0, 3, 5].getD set 0
  else 0

/-- The hash of a key that a cache tag and an entry's header hold: H(ek) for ML-KEM, tr for ML-DSA, SHAKE256 for FN-DSA, and
for an owner's key likewise (R215; log entry 175). -/
def cacheHash (fam : Nat) (pk : Bytes) : Bytes :=
  if fam = 0x01 then sha3_256 pk else if fam = 0x02 then shake256 pk 64 else shake256 pk 32

/-- The entry an item's key would have. -/
def cacheEntryFor (i : Item) (fam set : Nat) (name : KeyName) (pk : Bytes) : CacheEntry :=
  { slice := moduleIndex i.port i.slice, family := fam, set := set, key := name, hash := cacheHash fam pk, blocks := cacheBlocks fam set }

/-- The identity of the key an item names: its handle, or the hash for a record (R216). -/
def keyNameOf (i : Item) (fam : Nat) (pk : Bytes) : KeyName :=
  if i.record.isSome then .hash (cacheHash fam pk) else .handle (keyHandle i.entry)

/-- The entry that an owner's item names: its key's, which its handle or its record names (R216). -/
def ownerEntry (s : State) (i : Item) : CacheEntry :=
  let key := keyContent s i
  cacheEntryFor i (famOf i.entry) (setOf i.entry) (keyNameOf i (famOf i.entry) key) key

/-- The whole tag of an entry and the hash in its header match (R216). -/
def sameEntry (c x : CacheEntry) : Bool :=
  x.slice == c.slice && x.family == c.family && x.set == c.set && x.key == c.key && x.hash == c.hash

/-- The entry that an item hits on its loom: an owner's by its key, another's as its command found (R216). -/
def cachedEntry (s : State) (n : LoomId) (i : Item) : Option CacheEntry :=
  if ownerItem i then
    (if namesKey i then s.looms[n.val].cache.find? (sameEntry (ownerEntry s i)) else none)
  else i.result.bind fun r => r.acts.findSome? fun a => match a with | .loomTouch c => some c | _ => none

/-- A routine's cache lookup on its loom: a hit is touched at COMMIT, a miss installed (R216, R217); one
that rejects runs to its normal end and commits too (R214). -/
def cacheUse (s : State) (i : Item) (c : CacheEntry) (r : ItemResult) : ItemResult :=
  match i.engine with
  | some (.loom n) =>
    if s.looms[n.val].cache.contains c then { r with acts := r.acts ++ [.loomTouch c], lookup := some true }
    else { r with acts := r.acts ++ [.loomInstall c], lookup := some false }
  | _ => r

/-- A new key's expansion is installed with no lookup charged (R217, R260). -/
def cacheNew (c : CacheEntry) (r : ItemResult) : ItemResult := { r with acts := r.acts ++ [.loomInstall c] }

/-! ### Commands over the item in service -/

/-- The item that runs on an engine: in service there and not suspended. -/
def servingOn (s : State) (e : Engine) : Option Item :=
  s.heddle.items.find? fun i => i.place == .inService && i.engine == some e && !i.suspended

/-- The DRBG instance an item's draws come from (R376). -/
def drawInst (i : Item) : InstId :=
  match i.engine with
  | some (.loom n) => ⟨n.val / 4, by omega⟩
  | _ => inst16

/-- The bits that an item's job drew at its grant (R334). -/
def contextBits (i : Item) (s : State) : Bytes :=
  match trestleOf i with
  | some t => let x := s.trestles[t.val]; if i.ctxB then x.ctxB.bits else x.ctxA.bits
  | none => []

/-- A job whose secret operand is also a nonce: a signature, or a composite's or ATTEST's half (R341). -/
def signsJob (i : Item) : Bool :=
  [(0x10, 0x61), (0x11, 0x69), (0x21, 0x2D), (0x30, 0x89)].contains (famOf i.entry, opOf i.entry)

/-- The secrets an item's routine works on: the key it names, unless that is public, and the bytes it draws. -/
def itemSecrets (i : Item) (drawn : Bytes) (s : State) : Bytes :=
  (match keyFacts s i with | some k => if k.kind == 2 || k.kind == 3 then [] else keyContent s i | none => []) ++ drawn

/-- The base of an RSA private operation: a signature's encoded digest, or the input (R338, R341). -/
def rsaBase (i : Item) (input bits : Bytes) : Nat :=
  let k := rsaK (setOf i.entry)
  let h := hashOf i.entry
  if opOf i.entry != 0x71 then beNat input
  else beNat (if schemeOf i.entry = 1 then pssEncode k h input (bits.take (hashLenOf i.entry)) else pkcs1Encode k h input)

/-- A trestle works on its job: the secret, a signature's nonce and an RSA base in their randomised representation, where it
holds bits, and what its accumulator and its sequencer hold of them (R333, R341). -/
def workContext (i : Item) (fam set : Nat) (operands secret bits : Bytes) (s : State) : State :=
  let job (c : JobContext) : JobContext :=
    { c with item := some i.id, operands := operands.take 32768, secrets := secret, bits := bits }
  let s := match trestleOf i with
    | some t => modTrestle t (fun x => { x with accumulator := Config.accumulator [operands, secret, bits], sequencer := Config.sequencer [operands, secret, bits] }) s
    | none => s
  modContext i (fun c =>
    if bits.isEmpty then { job c with blinded := [], nonce := [], base := [], scales := [] }
    else { job c with
      blinded := blindedSecret fam set secret bits
      nonce :=
        if !signsJob i then []
        else if famOf i.entry = 0x11 then blindedNonce fam set (variantOf i.entry) (ctxLenOf i.entry) secret operands bits
        else blindedNonce fam set 0 0 secret operands bits
      base := if fam = 0x13 && !secret.isEmpty then blindedBase set secret bits (rsaBase i operands bits) else []
      scales := scalings fam set bits }) s

/-- What the unit that runs an item holds of it (R319, R320, R333, R341): a trestle's context its operands, its secrets, its
bits and their randomised representation; a selvedge unit's work store the secrets in two shares. A trestle beside a loom
takes nothing of the host's input (R281). -/
def loadUnit (i : Item) (input drawn : Bytes) (s : State) : State :=
  match i.engine with
  | some (.selvedge u) =>
    let secrets := itemSecrets i drawn s
    let share (v : Selvedge) : Bytes :=
      ((List.range (secrets.length / 4 + 1)).flatMap fun k => leBytes 4 (Config.maskStream v.maskKey v.maskPos k).toNat).take secrets.length
    modSelv u (fun v => { v with maskPos := v.maskPos + 1, work := some (i.id, xorBytes secrets (share v), share v) }) s
  | some (.trestle _) =>
    workContext i (famOf i.entry) (setOf i.entry) input (itemSecrets i [] s) (if drawn.isEmpty then contextBits i s else drawn) s
  | _ => s

/-- The trestle beside a loom takes the digests and points of its part, and its secret (R281, R334, R341): of a classical
family and set, on the bits drawn at its grant. -/
def loadPart (i : Item) (fam set : Nat) (secret operands : Bytes) (s : State) : State :=
  workContext i fam set operands secret (contextBits i s) s

/-- The result of an item in service is formed, from the input that its command brought. -/
def formResult (i : Item) (input : Bytes) (r : ItemResult) (s : State) : State :=
  modItem i.id (fun x => { x with result := some r, input := some input }) s

/-- The operation's command forms the result of the item in service on `e` whose opcode it is, from the input the
shuttle streamed, of the declared length; the result waits for COMMIT. Any other state of the engine leaves the command
without effect (log entry 10). -/
def runOp (fam op : Nat) (e : Engine) (input : Bytes) (f : Item → State → ItemResult × State) (s : State) : State :=
  match servingOn s e with
  | none => s
  | some i =>
    if famOf i.entry == fam && opOf i.entry == op && i.result.isNone && input.length == inputLen i.entry then
      let r := f i (loadUnit i input [] s)
      formResult i input r.1 r.2
    else s

/-- A draw for an item, of its unit's buffer where it runs on a trestle or a selvedge unit (R376, R377). -/
def unitDraw (i : Item) (n : Nat) (s : State) : Bytes × State :=
  match i.engine with
  | some (.trestle t) => drawBuffer ⟨t.val, by omega⟩ n s
  | some (.selvedge u) => drawBuffer ⟨8 + u.val, by omega⟩ n s
  | _ => draw (drawInst i) n s

/-- A draw of an item in service. -/
def itemDraw (i : Item) (n : Nat) (s : State) : Bytes × State :=
  let d := unitDraw i n s
  (d.1, modItem i.id (fun x => { x with drew := true }) d.2)

/-- As `runOp`, with bytes drawn first. A draw that meets a failed bobbin ends the item at once with ENTROPY_FAIL
(R384); an item in service never waits for a draw, so one that meets a stalled instance draws on (R380). -/
def runDrawOp (fam op : Nat) (bytes : Item → Nat) (e : Engine) (input : Bytes)
    (f : Item → Bytes → State → ItemResult × State) (s : State) : State :=
  match servingOn s e with
  | none => s
  | some i =>
    if famOf i.entry == fam && opOf i.entry == op && i.result.isNone && input.length == inputLen i.entry then
      if !(s.bobbin.state == .serving) then settleAfterLeave (resumeTrestle i (failInService .entropyFail 0 i s))
      else
        let d := itemDraw i (bytes i) s
        let r := f i d.1 (loadUnit i input d.1 d.2)
        formResult i input r.1 r.2
    else s

/-- A routine error (R237): the item completes at once with UNIT_FAULT and without a restart, and a loom writes event
2n with detail ROUTINE. -/
def routineFault (i : Item) (s : State) : State :=
  let s := match i.engine with
    | some (.loom n) => raise (2 * n.val) (detailOf 0 0 1 0 0) s
    | _ => s
  settleAfterLeave (resumeTrestle i (failInService .unitFault 0 i s))

/-- A plain result. -/
def okResult (out : Bytes) : ItemResult := { status := .ok, output := out }

def failResult (st : Status) : ItemResult := { status := st }

/-- The verdict of a verification: OK, REJECT, or the encoding status given. -/
def verdict (badEncoding : Bool) (holds : Bool) : ItemResult :=
  if badEncoding then failResult .rejectEncoding else if holds then okResult [] else failResult .reject

/-- With DEPOSIT the secret becomes a one-drawer run (ORIGIN 3) and only `pub` is written; without it `pub` and the
secret are written, the secret last (R245, R248, R249). -/
def depositOr (s : State) (i : Item) (pub secret : Bytes) : ItemResult :=
  if depositFlag i.entry then
    { status := .ok, output := pub, word := reservedHandle s i
      acts := [.run 5 (famOf i.entry) (setOf i.entry) (newPolicy (policyOperand i.entry) 5 (famOf i.entry) 3 false) secret 0 false] }
  else okResult (pub ++ secret)

/-- A new key's result: the content goes to the reserved run at COMMIT, RESULT carries the handle (R249). -/
def keyResult (s : State) (i : Item) (kind fam set : Nat) (policy : Word) (content out : Bytes) : ItemResult :=
  { status := .ok, output := out, word := reservedHandle s i, acts := [.run kind fam set policy content 0 false] }

end Sys2Proof.Machine
end

