-- ==== Sys2Proof/Machine/Kem.lean ====
section
/-! DEFINITION. Lattice key encapsulation and hybrids: families 0x01 and 0x20 (R243 to R263). -/

namespace Sys2Proof.Machine

/-! ### Sizes (R243, R248, R256) -/

/-- ek as dk holds it (R243). -/
def ekOf (set : Nat) (dk : Bytes) : Bytes := slice_ dk (384 * kemK set) (kemEk set)

/-! ### The hashes and encodings of FIPS 203 (R243, R250, R253) -/

/-- Coefficients below `q`, one for each two bytes. -/
def coeffsOf (q : Nat) : Bytes → List Nat
  | a :: b :: r => (a.toNat + 256 * b.toNat) % q :: coeffsOf q r
  | _ => []

/-- ByteEncode12: two coefficients in three bytes. -/
def encode12 : List Nat → Bytes
  | a :: b :: r => leBytes 3 (a + 4096 * b) ++ encode12 r
  | _ => []

/-- ByteDecode12, without reduction. -/
def decode12 : Bytes → List Nat
  | a :: b :: c :: r => (a.toNat + 256 * (b.toNat % 16)) :: (b.toNat / 16 + 16 * c.toNat) :: decode12 r
  | _ => []

/-- The modulus check of an ek: a coefficient of t̂ is not below 3,329 (R250). -/
def ekBad (set : Nat) (ek : Bytes) : Bool := (decode12 (ek.take (384 * kemK set))).any fun x => decide (3329 ≤ x)

/-- The hash check of a dk: H(ek) is not the stored h (R250). -/
def dkBad (set : Nat) (dk : Bytes) : Bool := sha3_256 (ekOf set dk) != slice_ dk (384 * kemK set + kemEk set) 32

/-- K-PKE keys from d: the 12-bit encodings of ŝ and of t̂, and ρ (R243). -/
def kemPke (set : Nat) (d : Bytes) : Bytes := encode12 (coeffsOf 3329 (primBytes (.privateKey 0x01 set) [d] (512 * kemK set)))

def kemEkFrom (set : Nat) (d : Bytes) : Bytes :=
  encode12 (coeffsOf 3329 (primBytes (.publicKey 0x01 set) [d] (512 * kemK set))) ++ (sha3_512 (d ++ leBytes 1 (kemK set))).take 32

/-- dk of d ‖ z: the decapsulation key, ek, H(ek) and z (R243). -/
def kemDkFrom (set : Nat) (seed : Bytes) : Bytes :=
  let ek := kemEkFrom set (seed.take 32)
  kemPke set (seed.take 32) ++ ek ++ sha3_256 ek ++ seed.drop 32

/-- c and K to ek from m: K and the coins are G(m ‖ H(ek)) (R245, R253). -/
def kemEncapsTo (set : Nat) (ek m : Bytes) : Bytes × Bytes :=
  let g := sha3_512 (m ++ sha3_256 ek)
  (primBytes (.ciphertext 0x01 set) [ek, m, g.drop 32] (kemCt set), g.take 32)

/-- K of c under dk: that of the message c decrypts to when it re-encrypts to c, else J(z ‖ c) (R253). -/
def kemDecapsOf (set : Nat) (dk c : Bytes) : Bytes :=
  let m := primBytes (.decapsulated 0x01 set) [dk.take (384 * kemK set), c] 32
  let x := kemEncapsTo set (ekOf set dk) m
  if x.1 == c then x.2 else shake256 (dk.drop (kemDk set - 32) ++ c) 32

/-- The fixed internal message of a key generation's self-check (R218; log entry 125). -/
def selfMessage (fam : Nat) : Bytes := primBytes (.selfMessage fam) [] 32

/-- The self-check of an ML-KEM key generation: it encapsulates and decapsulates once (R218). -/
def kemSelfCheck (set : Nat) (dk : Bytes) : Bool :=
  let x := kemEncapsTo set (ekOf set dk) (selfMessage 0x01)
  kemDecapsOf set dk x.1 == x.2

/-- A result whose routine ends with VERIFY_OK as given (R235). -/
def checked (ok : Bool) (r : ItemResult) : ItemResult := { r with verifyOk := ok }

/-- A trestle's result under its own check (R281, R353). -/
def trestleChecked (ok : Bool) (r : ItemResult) : ItemResult := { r with trestleOk := ok }

/-! ### ML-KEM routines -/

def oneShotOperand (e : Entry) : Bool := entryByte e 44 % 2 == 1

/-- KeyGen_internal on d ‖ z: the dk run and ek (R248, R252). -/
def kemKeygen (origin : Nat) (seed : Bytes) (i : Item) (s : State) : ItemResult :=
  let set := setOf i.entry
  let dk := kemDkFrom set seed
  let ek := kemEkFrom set (seed.take 32)
  let pol := newPolicy (policyOperand i.entry) 1 0x01 origin (oneShotOperand i.entry)
  checked (kemSelfCheck set dk)
    (cacheNew (cacheEntryFor i 0x01 set (.handle (BitVec.ofNat 32 (reservedHandle s i))) ek)
      (keyResult s i 1 0x01 set pol dk ek))

/-- Encaps to ek with message m: c, then K (R245), unless the key fails its check. -/
def kemEncaps (bad : Bool) (ek m : Bytes) (name : KeyName) (i : Item) (s : State) : ItemResult :=
  let set := setOf i.entry
  let x := kemEncapsTo set ek m
  cacheUse s i (cacheEntryFor i 0x01 set name ek)
    (if bad then failResult .rejectEncoding else depositOr s i x.1 x.2)

/-- ek of the key an item names: an ek key's content, or the ek within a dk. -/
def namedEk (s : State) (i : Item) : Bytes :=
  let c := keyContent s i
  match keyFacts s i with
  | some k => if k.kind == 2 then c else ekOf (setOf i.entry) c
  | none => c

/-- MLKEM_KEYGEN (R245, R252): d and z from the bench DRBG. -/
def execMlkemKeygen (e : Engine) (s : State) : Host.Outcome State Fault Refusal :=
  .next (runDrawOp 0x01 0x10 (fun _ => 64) e [] (fun i d s => (kemKeygen 0 d i s, s)) s)

/-- MLKEM_KEYGEN_SEED (R252): d and z from the input; host-seeded. -/
def execMlkemKeygenSeed (e : Engine) (input : Bytes) (s : State) : Host.Outcome State Fault Refusal :=
  .next (runOp 0x01 0x14 e input (fun i s => (kemKeygen 1 input i s, s)) s)

/-- A dk given as a sealed record fails the hash check of R250. -/
def sealedDkBad (set : Nat) (s : State) (i : Item) (dk : Bytes) : Bool :=
  let sign := match keyFacts s i with | some k => k.kind == 1 | none => false
  i.record.isSome && sign && dkBad set dk

/-- MLKEM_ENCAPS (R245); a dk that a sealed record brings is checked here too (R250; log entry 126). -/
def execMlkemEncaps (e : Engine) (s : State) : Host.Outcome State Fault Refusal :=
  .next (runDrawOp 0x01 0x11 (fun _ => 32) e []
    (fun i m s =>
      let ek := namedEk s i
      let set := setOf i.entry
      (kemEncaps (sealedDkBad set s i (keyContent s i)) ek m (keyNameOf i 0x01 ek) i s, s)) s)

/-- MLKEM_ENCAPS_EK (R245, R250): the modulus check, then encapsulation to the ek in the input. -/
def execMlkemEncapsEk (e : Engine) (input : Bytes) (s : State) : Host.Outcome State Fault Refusal :=
  .next (runDrawOp 0x01 0x13 (fun _ => 32) e input
    (fun i m s =>
      let set := setOf i.entry
      (kemEncaps (ekBad set input) input m (.hash (cacheHash 0x01 input)) i s, s)) s)

/-- MLKEM_DECAPS (R253): OK for every c; K or the implicit-rejection value. -/
def execMlkemDecaps (e : Engine) (input : Bytes) (s : State) : Host.Outcome State Fault Refusal :=
  .next (runOp 0x01 0x12 e input
    (fun i s =>
      let set := setOf i.entry
      let dk := keyContent s i
      let ek := ekOf set dk
      let r := if sealedDkBad set s i dk then failResult .rejectEncoding else depositOr s i [] (kemDecapsOf set dk input)
      (cacheUse s i (cacheEntryFor i 0x01 set (keyNameOf i 0x01 ek) ek) r, s)) s)

/-! ### Hybrids (R256 to R259) -/

/-- The ML-KEM part and the classical part of a client or server share; set 0x02 has the point first. -/
def hybSplit (set kemLen : Nat) (share : Bytes) : Bytes × Bytes :=
  if set = 2 then (share.drop 97, share.take 97) else (share.take kemLen, share.drop kemLen)

def hybJoin (set : Nat) (kem cls : Bytes) : Bytes := if set = 2 then cls ++ kem else kem ++ cls

/-- The classical family and set of a hybrid: X25519, P-384 or X448. -/
def hybFam (set : Nat) : Nat := if set = 2 then 0x10 else 0x12

def hybSet (set : Nat) : Nat := if set = 1 then 1 else 2

/-- The private scalar of drawn bytes: a P-384 number from 1 to n − 1, or the bytes themselves (R252). -/
def hybScalarFrom (set : Nat) (d : Bytes) : Bytes := if set = 2 then beBytes 48 (nonZero (ecOrder 2) (beNat d)) else d

/-- The shared secret and the public value of a scalar; a P-384 point is 0x04, then its coordinates (R256). -/
def hybAgree (set : Nat) (scalar pub : Bytes) : Bytes :=
  if set = 2 then (ecAgree 2 scalar pub).getD (zeros 48) else xAgree (hybSet set) scalar pub

def hybPublic (set : Nat) (scalar : Bytes) : Bytes := if set = 2 then ecPkOf 2 scalar else xPublic (hybSet set) scalar

/-- The trestle's verdict on a classical public value (R258): a P-384 point's encoding, range and curve; an X25519 or X448
agreement that is all zero. -/
def hybClassicalBad (set : Nat) (scalar pub : Bytes) : Option Status :=
  if set = 2 then ecPkBad 2 pub
  else if hybAgree set scalar pub == zeros (hybScalar set) then some .rejectPoint
  else none

/-- HYB_KEYGEN (R258): the client share; the run holds dk, then the scalar. -/
def execHybKeygen (e : Engine) (s : State) : Host.Outcome State Fault Refusal :=
  .next (runDrawOp 0x20 0x18 (fun i => 64 + hybScalar (setOf i.entry)) e []
    (fun i d s =>
      let set := setOf i.entry
      let dk := kemDkFrom (hybKem set) (d.take 64)
      let ek := kemEkFrom (hybKem set) (d.take 32)
      let scalar := hybScalarFrom set (d.drop 64)
      let pol := newPolicy (policyOperand i.entry) 1 0x20 0 (oneShotOperand i.entry)
      (checked (kemSelfCheck (hybKem set) dk)
        (cacheNew (cacheEntryFor i 0x01 (hybKem set) (.handle (BitVec.ofNat 32 (reservedHandle s i))) ek)
          (keyResult s i 1 0x20 set pol (dk ++ scalar) (hybJoin set ek (hybPublic set scalar)))), loadPart i (hybFam set) (hybSet set) scalar [] s)) s)

/-- HYB_ENCAPS (R258). -/
def execHybEncaps (e : Engine) (input : Bytes) (s : State) : Host.Outcome State Fault Refusal :=
  .next (runDrawOp 0x20 0x19 (fun i => 32 + hybScalar (setOf i.entry)) e input
    (fun i d s =>
      let set := setOf i.entry
      let k := hybKem set
      let parts := hybSplit set (kemEk k) input
      let scalar := hybScalarFrom set (d.drop 32)
      let cached := cacheUse s i (cacheEntryFor i 0x01 k (.hash (cacheHash 0x01 parts.1)) parts.1)
      let r :=
        if ekBad k parts.1 then failResult .rejectEncoding
        else match hybClassicalBad set scalar parts.2 with
          | some st => failResult st
          | none =>
            let x := kemEncapsTo k parts.1 (d.take 32)
            depositOr s i (hybJoin set x.1 (hybPublic set scalar)) (hybJoin set x.2 (hybAgree set scalar parts.2))
      (cached r, loadPart i (hybFam set) (hybSet set) scalar parts.2 s)) s)

/-- HYB_DECAPS (R253, R258). -/
def execHybDecaps (e : Engine) (input : Bytes) (s : State) : Host.Outcome State Fault Refusal :=
  .next (runOp 0x20 0x1A e input
    (fun i s =>
      let set := setOf i.entry
      let k := hybKem set
      let key := keyContent s i
      let dk := key.take (kemDk k)
      let scalar := key.drop (kemDk k)
      let parts := hybSplit set (kemCt k) input
      let ek := ekOf k dk
      let r := if sealedDkBad k s i dk then failResult .rejectEncoding
        else match hybClassicalBad set scalar parts.2 with
        | some st => failResult st
        | none => depositOr s i [] (hybJoin set (kemDecapsOf k dk parts.1) (hybAgree set scalar parts.2))
      (cacheUse s i (cacheEntryFor i 0x01 k (keyNameOf i 0x01 ek) ek) r, loadPart i (hybFam set) (hybSet set) scalar parts.2 s)) s)

end Sys2Proof.Machine
end

