-- ==== Sys2Proof/Machine/Lattice.lean ====
section
/-! DEFINITION. Lattice signatures and composites: families 0x02, 0x03 and 0x21 (R264 to R286). -/

namespace Sys2Proof.Machine

/-! ### ML-DSA keys (R264, R271, R273) -/

/-- pk of ρ and the secret vectors: ρ, then t1. -/
def dsaPkFrom (set : Nat) (rho secret : Bytes) : Bytes := rho ++ primBytes (.publicKey 0x02 set) [rho, secret] (dsaPk set - 32)

/-- tr = H(pk). -/
def trOf (pk : Bytes) : Bytes := shake256 pk 64

/-- The public key that a private key's encoding determines. -/
def dsaPkOf (set : Nat) (sk : Bytes) : Bytes := dsaPkFrom set (sk.take 32) ((sk.take (dsaSk set)).drop 128)

/-- The private key of ξ: ρ, K, tr, then the secret vectors. -/
def dsaSkFrom (set : Nat) (seed : Bytes) : Bytes :=
  let b := primBytes (.privateKey 0x02 set) [seed] (dsaSk set - 64)
  b.take 64 ++ trOf (dsaPkFrom set (b.take 32) (b.drop 64)) ++ b.drop 64

/-- The tr that a private key stores is not H(pk). -/
def trBad (sk pk : Bytes) : Bool := slice_ sk 64 64 != trOf pk

/-- tr of the ML-DSA key within a key of this kind and family; empty for another family (R271). -/
def keyTr (kind fam set : Nat) (content : Bytes) : Bytes :=
  if fam = 0x02 then trOf (if kind = 2 then content else content.drop (dsaSk set))
  else if fam = 0x21 then
    let d := compDsa set
    trOf (if kind = 2 then content.take (dsaPk d) else slice_ content (dsaSk d) (dsaPk d))
  else []

/-- The DER object identifier of the hash that PH_ALG names (R268; log entry 188). -/
def phOid (alg : Nat) : Bytes :=
  [0x06, 0x09, 0x60, 0x86, 0x48, 0x01, 0x65, 0x03, 0x04, 0x02, ([0, 0x01, 0x02, 0x03, 0x08, 0x09, 0x0A, 0x0B, 0x0C].getD alg 0)]

/-- M′ of ctx, then M or PH(M) (R268): the pure form's for `variant` 0, else the pre-hash form's of that PH_ALG. -/
def signedMessage (variant ctxLen : Nat) (ctxM : Bytes) : Bytes :=
  if variant = 0 then [0x00, BitVec.ofNat 8 ctxLen] ++ ctxM
  else [0x01, BitVec.ofNat 8 ctxLen] ++ ctxM.take ctxLen ++ phOid variant ++ ctxM.drop ctxLen

/-- μ of M′ under tr (R268). -/
def dsaMu (tr message : Bytes) : Bytes := shake256 (tr ++ message) 64

/-- A signature over `msg`, whose context has length `ctxLen`, and its check against pk (R218, R268, R272): tr stands in the
private key. -/
def dsaSigOf (set variant ctxLen : Nat) (sk msg rnd : Bytes) : Bytes :=
  primBytes (.signature 0x02 set 0) [sk, dsaMu (slice_ sk 64 64) (signedMessage variant ctxLen msg), rnd] (dsaSig set)

def dsaHolds (set variant ctxLen : Nat) (pk msg sig : Bytes) : Bool :=
  Config.holds (.verifies 0x02 set 0) [pk, dsaMu (trOf pk) (signedMessage variant ctxLen msg), sig]

/-- The self-check of an ML-DSA key generation: it signs and verifies a fixed message (R218). -/
def dsaSelfCheck (set : Nat) (sk pk : Bytes) : Bool :=
  let m := selfMessage 0x02
  dsaHolds set 0 0 pk m (dsaSigOf set 0 0 sk m (zeros 32))

/-! ### ML-DSA routines -/

/-- The public key of a key an item names: a verify key's content, or the part of a sign key after `skLen`. -/
def namedPk (s : State) (i : Item) (skLen : Nat) : Bytes :=
  let c := keyContent s i
  match keyFacts s i with
  | some k => if k.kind == 2 then c else c.drop skLen
  | none => c

/-- ML-DSA KeyGen_internal on ξ: sk, then pk (R271, R272). -/
def dsaKeygen (origin : Nat) (seed : Bytes) (i : Item) (s : State) : ItemResult :=
  let set := setOf i.entry
  let sk := dsaSkFrom set seed
  let pk := dsaPkOf set sk
  checked (dsaSelfCheck set sk pk)
    (cacheNew (cacheEntryFor i 0x02 set (.handle (BitVec.ofNat 32 (reservedHandle s i))) pk)
      (keyResult s i 1 0x02 set (newPolicy (policyOperand i.entry) 1 0x02 origin false) (sk ++ pk) pk))

/-- A sealed ML-DSA sign key whose stored tr is not H(pk) (R273); a sealed verify key holds pk alone (R271). -/
def sealedDsaBad (set : Nat) (s : State) (i : Item) : Bool :=
  let sign := match keyFacts s i with | some k => k.kind == 1 | none => false
  i.record.isSome && sign && trBad (keyContent s i) ((keyContent s i).drop (dsaSk set))

/-- Signing with `rnd`; `variant` is 0 for the pure form, PH_ALG for a pre-hash form. -/
def dsaSign (variant : Nat) (input rnd : Bytes) (i : Item) (s : State) : ItemResult :=
  let set := setOf i.entry
  let key := keyContent s i
  let pk := key.drop (dsaSk set)
  let ctx := ctxLenOf i.entry
  let sig := dsaSigOf set variant ctx (key.take (dsaSk set)) input rnd
  cacheUse s i (cacheEntryFor i 0x02 set (keyNameOf i 0x02 pk) pk)
    (if sealedDsaBad set s i then failResult .rejectEncoding else checked (dsaHolds set variant ctx pk input sig) (okResult sig))

/-- Verification of `msg` (ctx, then M or PH(M)) and the signature after it. -/
def dsaVerify (variant : Nat) (pk : Bytes) (name : KeyName) (input : Bytes) (i : Item) (s : State) : ItemResult :=
  let set := setOf i.entry
  let n := input.length - sigLenOf i.entry
  cacheUse s i (cacheEntryFor i 0x02 set name pk)
    (verdict (sealedDsaBad set s i) (dsaHolds set variant (ctxLenOf i.entry) pk (input.take n) (input.drop n)))

/-- DETERMINISTIC (R267). -/
def deterministic (e : Entry) : Bool := entryByte e 46 % 2 == 1

/-- rnd: 32 drawn bytes, or zeros without a draw under DETERMINISTIC (R267, R272). -/
def execSignWith (op : Nat) (variant : Item → Nat) (e : Engine) (input : Bytes) (s : State) : State :=
  match servingOn s e with
  | some i =>
    if deterministic i.entry then runOp 0x02 op e input (fun i s => (dsaSign (variant i) input (zeros 32) i s, s)) s
    else runDrawOp 0x02 op (fun _ => 32) e input (fun i d s => (dsaSign (variant i) input d i s, s)) s
  | none => s

/-- MLDSA_KEYGEN (R272). -/
def execMldsaKeygen (e : Engine) (s : State) : Host.Outcome State Fault Refusal :=
  .next (runDrawOp 0x02 0x20 (fun _ => 32) e [] (fun i d s => (dsaKeygen 0 d i s, s)) s)

/-- MLDSA_KEYGEN_SEED (R272). -/
def execMldsaKeygenSeed (e : Engine) (input : Bytes) (s : State) : Host.Outcome State Fault Refusal :=
  .next (runOp 0x02 0x21 e input (fun i s => (dsaKeygen 1 input i s, s)) s)

/-- MLDSA_SIGN (R266, R272, R275). -/
def execMldsaSign (e : Engine) (input : Bytes) (s : State) : Host.Outcome State Fault Refusal :=
  .next (execSignWith 0x22 (fun _ => 0) e input s)

/-- MLDSA_SIGN_PH (R268). -/
def execMldsaSignPh (e : Engine) (input : Bytes) (s : State) : Host.Outcome State Fault Refusal :=
  .next (execSignWith 0x23 (fun i => phAlgOf i.entry) e input s)

/-- MLDSA_VERIFY (R266, R273). -/
def execMldsaVerify (e : Engine) (input : Bytes) (s : State) : Host.Outcome State Fault Refusal :=
  .next (runOp 0x02 0x24 e input
    (fun i s => let pk := namedPk s i (dsaSk (setOf i.entry)); (dsaVerify 0 pk (keyNameOf i 0x02 pk) input i s, s)) s)

/-- MLDSA_VERIFY_PH (R268). -/
def execMldsaVerifyPh (e : Engine) (input : Bytes) (s : State) : Host.Outcome State Fault Refusal :=
  .next (runOp 0x02 0x25 e input
    (fun i s => let pk := namedPk s i (dsaSk (setOf i.entry)); (dsaVerify (phAlgOf i.entry) pk (keyNameOf i 0x02 pk) input i s, s)) s)

/-- A key that arrives in the input is named by its hash (R216). -/
def inputKey (fam : Nat) (pk : Bytes) : KeyName := .hash (cacheHash fam pk)

/-- MLDSA_VERIFY_PK (R266, R273). -/
def execMldsaVerifyPk (e : Engine) (input : Bytes) (s : State) : Host.Outcome State Fault Refusal :=
  .next (runOp 0x02 0x26 e input
    (fun i s => let pk := input.take (dsaPk (setOf i.entry)); (dsaVerify 0 pk (inputKey 0x02 pk) (input.drop (dsaPk (setOf i.entry))) i s, s)) s)

/-- MLDSA_VERIFY_PK_PH (R268). -/
def execMldsaVerifyPkPh (e : Engine) (input : Bytes) (s : State) : Host.Outcome State Fault Refusal :=
  .next (runOp 0x02 0x27 e input
    (fun i s => let pk := input.take (dsaPk (setOf i.entry)); (dsaVerify (phAlgOf i.entry) pk (inputKey 0x02 pk) (input.drop (dsaPk (setOf i.entry))) i s, s)) s)

/-! ### FN-DSA encodings (R264, R273) -/

/-- Degree of a set. -/
def fnDegree (set : Nat) : Nat := 256 * 2 ^ set

/-- The 14-bit packing of h, the first coefficient in the top bits. -/
def pack14 (cs : List Nat) : Bytes := beBytes (14 * cs.length / 8) (cs.foldl (fun a c => a * 16384 + c) 0)

/-- The coefficients of a packed h. -/
def unpack14 (n : Nat) (b : Bytes) : List Nat :=
  let v := beNat b
  (List.range n).map fun j => v / 16384 ^ (n - 1 - j) % 16384

/-- A public key: its header, then h; and what makes one malformed. -/
def fnPkFrom (set : Nat) (seed : Bytes) : Bytes :=
  BitVec.ofNat 8 (0x08 + set) :: pack14 (coeffsOf 12289 (primBytes (.publicKey 0x03 set) [seed] (2 * fnDegree set)))

def fnPkBad (set : Nat) (pk : Bytes) : Bool :=
  !(pk.head? == some (BitVec.ofNat 8 (0x08 + set))) || (unpack14 (fnDegree set) (pk.drop 1)).any fun c => decide (12289 ≤ c)

/-- A private key: its header, then f, g and F. -/
def fnSkFrom (set : Nat) (seed : Bytes) : Bytes :=
  BitVec.ofNat 8 (0x58 + set) :: primBytes (.privateKey 0x03 set) [seed] (fnSk set - 1)

/-- The public key that f, g and F determine. -/
def fnPkOf (set : Nat) (sk : Bytes) : Bytes := fnPkFrom set (sk.drop 1)

/-- A signature: its header, the salt, then the compressed s2, whose length varies. -/
def fnSigOf (set : Nat) (sk msg salt : Bytes) : Bytes :=
  let args := [sk, msg, salt]
  let n := 1 + Config.variableLength (.signature 0x03 set 0) args % (fnSigMax set - 41)
  BitVec.ofNat 8 (0x38 + set) :: (salt ++ primBytes (.signature 0x03 set 0) args n)

/-- The header is right, s2 is in its canonical encoding, and the norm is within its bound (log entry 151). -/
def fnHolds (set : Nat) (pk msg sig : Bytes) : Bool :=
  sig.head? == some (BitVec.ofNat 8 (0x38 + set)) && Config.holds (.verifies 0x03 set 0) [pk, msg, slice_ sig 1 40, sig.drop 41]

/-- The self-check of an FN-DSA key generation (R218). -/
def fnSelfCheck (set : Nat) (sk pk : Bytes) : Bool :=
  let m := selfMessage 0x03
  fnHolds set pk m (fnSigOf set sk m (zeros 40))

/-! ### FN-DSA routines -/

/-- FNDSA_KEYGEN: the seed of the NTRU key from the bench DRBG, 48 bytes (log entry 15). -/
def execFndsaKeygen (e : Engine) (s : State) : Host.Outcome State Fault Refusal :=
  .next (runDrawOp 0x03 0x28 (fun _ => 48) e []
    (fun i d s =>
      let set := setOf i.entry
      let sk := fnSkFrom set d
      let pk := fnPkOf set sk
      (checked (fnSelfCheck set sk pk)
        (cacheNew (cacheEntryFor i 0x03 set (.handle (BitVec.ofNat 32 (reservedHandle s i))) pk)
          (keyResult s i 1 0x03 set (newPolicy (policyOperand i.entry) 1 0x03 0 false) (sk ++ pk) pk)), s)) s)

/-- A named FN-DSA key given as a record whose public key is malformed (R273). -/
def sealedFnBad (set : Nat) (i : Item) (pk : Bytes) : Bool := i.record.isSome && fnPkBad set pk

/-- FNDSA_SIGN (R272, R277): a fresh 40-byte salt for the attempt and for each internal restart; the signature's length
varies from 42 to the set's maximum. -/
def execFndsaSign (e : Engine) (input : Bytes) (internalRestarts : Nat) (s : State) : Host.Outcome State Fault Refusal :=
  .next (runDrawOp 0x03 0x29 (fun _ => 40) e input
    (fun i d s =>
      let set := setOf i.entry
      let pk := (keyContent s i).drop (fnSk set)
      let x := (List.range internalRestarts).foldl (fun (x : Bytes × State) _ => draw (drawInst i) 40 x.2) (d, s)
      let sig := fnSigOf set ((keyContent s i).take (fnSk set)) input x.1
      (cacheUse s i (cacheEntryFor i 0x03 set (keyNameOf i 0x03 pk) pk)
        (if sealedFnBad set i pk then failResult .rejectEncoding else checked (fnHolds set pk input sig) (okResult sig)), x.2)) s)

/-- FN-DSA verification; a malformed public key gives REJECT_ENCODING (R273). -/
def fnVerify (badKey : Bool) (pk : Bytes) (name : KeyName) (input : Bytes) (i : Item) (s : State) : ItemResult :=
  let set := setOf i.entry
  let n := input.length - sigLenOf i.entry
  cacheUse s i (cacheEntryFor i 0x03 set name pk)
    (verdict badKey (fnHolds set pk (input.take n) (input.drop n)))

/-- FNDSA_VERIFY. -/
def execFndsaVerify (e : Engine) (input : Bytes) (s : State) : Host.Outcome State Fault Refusal :=
  .next (runOp 0x03 0x2A e input
    (fun i s =>
      let set := setOf i.entry
      let pk := namedPk s i (fnSk set)
      (fnVerify (sealedFnBad set i pk) pk (keyNameOf i 0x03 pk) input i s, s)) s)

/-- FNDSA_VERIFY_PK. -/
def execFndsaVerifyPk (e : Engine) (input : Bytes) (s : State) : Host.Outcome State Fault Refusal :=
  .next (runOp 0x03 0x2B e input
    (fun i s =>
      let set := setOf i.entry
      let pk := input.take (fnPk set)
      (fnVerify (fnPkBad set pk) pk (inputKey 0x03 pk) (input.drop (fnPk set)) i s, s)) s)

/-! ### Composites (R279 to R282) -/

/-- M_r (R280). -/
def compMessage (set ctxLen : Nat) (ctxM : Bytes) : Bytes :=
  ascii "AQCS" ++ leBytes 1 1 ++ leBytes 1 set ++ leBytes 1 ctxLen ++ ctxM.take ctxLen ++ sha3_512 (ctxM.drop ctxLen)

/-- What the classical half signs: the SHA-256 or SHA-384 digest of M_r, or M_r itself for Ed448 (R280, R281). -/
def compClsMessage (set : Nat) (m : Bytes) : Bytes :=
  if set = 1 then primBytes (.digest 2) [m] 32 else if set = 2 then primBytes (.digest 3) [m] 48 else m

/-- The classical public key of a private value: SEC 1 uncompressed, or the RFC 8032 encoding (R279). -/
def compClsPkOf (set : Nat) (csk : Bytes) : Bytes := if set = 3 then edPkOf 2 csk else ecPkOf set csk

/-- The classical family and set: P-256, P-384 or Ed448. -/
def compFam (set : Nat) : Nat := if set = 3 then 0x11 else 0x10

def compCls (set : Nat) : Nat := if set = 1 then 1 else 2

/-- A classical private value from drawn bytes. -/
def compClsFrom (set : Nat) (d : Bytes) : Bytes := if set = 3 then d else beBytes (compClsSk set) (nonZero (ecOrder set) (beNat d))

/-- The classical half's signature, an ECDSA half's nonce from drawn bytes, and its check (R280, R281). -/
def compClsSign (set : Nat) (csk cpk msg d : Bytes) : Bytes :=
  if set = 3 then edSignOf 2 0 csk cpk [] msg else ecSign set csk msg d

def compClsHolds (set : Nat) (cpk msg sig : Bytes) : Bool :=
  if set = 3 then edVerifies 2 0 cpk [] msg sig else ecVerifies set cpk msg sig

/-- The classical half's judgement of a composite public key (R282). -/
def compKeyBad (set : Nat) (cls : Bytes) : Option Status :=
  if set = 3 then (if (edDecode 2 cls).isNone then some .rejectEncoding else none) else ecPkBad set cls

/-- Parts of a composite sign key's content: ML-DSA sk and pk, classical private value and public key (R271). -/
def compParts (set : Nat) (c : Bytes) : Bytes × Bytes × Bytes × Bytes :=
  let d := compDsa set
  (slice_ c 0 (dsaSk d), slice_ c (dsaSk d) (dsaPk d), slice_ c (dsaSk d + dsaPk d) (compClsSk set),
    slice_ c (dsaSk d + dsaPk d + compClsSk set) (compClsPk set))

/-- The composite public key of the key an item names. -/
def namedCompPk (s : State) (i : Item) : Bytes :=
  let c := keyContent s i
  let p := compParts (setOf i.entry) c
  match keyFacts s i with
  | some k => if k.kind == 2 then c else p.2.1 ++ p.2.2.2
  | none => c

/-- COMPOSITE_KEYGEN (R281). -/
def execCompositeKeygen (e : Engine) (s : State) : Host.Outcome State Fault Refusal :=
  .next (runDrawOp 0x21 0x2C (fun i => 32 + compClsSk (setOf i.entry)) e []
    (fun i d s =>
      let set := setOf i.entry
      let k := compDsa set
      let sk := dsaSkFrom k (d.take 32)
      let pk := dsaPkOf k sk
      let csk := compClsFrom set (d.drop 32)
      let cpk := compClsPkOf set csk
      let m := compClsMessage set (selfMessage 0x21)
      (checked (dsaSelfCheck k sk pk) (trestleChecked (compClsHolds set cpk m (compClsSign set csk cpk m (d.drop 32)))
        (cacheNew (cacheEntryFor i 0x02 k (.handle (BitVec.ofNat 32 (reservedHandle s i))) pk)
          (keyResult s i 1 0x21 set (newPolicy (policyOperand i.entry) 1 0x21 0 false) (sk ++ pk ++ csk ++ cpk) (pk ++ cpk)))),
        loadPart i (compFam set) (compCls set) csk m s)) s)

/-- The status a sealed composite key fails with: the ML-DSA half first (R282). -/
def compSealedBad (s : State) (i : Item) : Option Status :=
  let set := setOf i.entry
  let p := compParts set (keyContent s i)
  let cls := match keyFacts s i with | some k => if k.kind == 2 then (keyContent s i).drop (dsaPk (compDsa set)) else p.2.2.2 | none => []
  let sign := match keyFacts s i with | some k => k.kind == 1 | none => false
  if i.record.isNone then none
  else if sign && trBad p.1 p.2.1 then some .rejectEncoding
  else compKeyBad set cls

/-- What COMPOSITE_SIGN draws: rnd for the ML-DSA half, and an ECDSA half's nonce; pure Ed448 is deterministic (R280). -/
def compDraw (set : Nat) : Nat := if set = 3 then 32 else 32 + compClsSk set

/-- COMPOSITE_SIGN (R280, R281): both halves over M_r; the loom's verify pass checks its own. -/
def execCompositeSign (e : Engine) (input : Bytes) (s : State) : Host.Outcome State Fault Refusal :=
  .next (runDrawOp 0x21 0x2D (fun i => compDraw (setOf i.entry)) e input
    (fun i d s =>
      let set := setOf i.entry
      let k := compDsa set
      let p := compParts set (keyContent s i)
      let m := compMessage set (ctxLenOf i.entry) input
      let sig := dsaSigOf k 0 0 p.1 m (d.take 32)
      let cls := compClsSign set p.2.2.1 p.2.2.2 (compClsMessage set m) (d.drop 32)
      let r := match compSealedBad s i with
        | some st => failResult st
        | none => checked (dsaHolds k 0 0 p.2.1 m sig)
            (trestleChecked (compClsHolds set p.2.2.2 (compClsMessage set m) cls) (okResult (sig ++ cls)))
      (cacheUse s i (cacheEntryFor i 0x02 k (keyNameOf i 0x02 p.2.1) p.2.1) r,
        loadPart i (compFam set) (compCls set) p.2.2.1 (compClsMessage set m) s)) s)

/-- Both halves over one M_r (R280). -/
def compVerify (bad : Option Status) (pk : Bytes) (name : KeyName) (input : Bytes) (i : Item) (s : State) : ItemResult :=
  let set := setOf i.entry
  let k := compDsa set
  let n := input.length - sigLenOf i.entry
  let m := compMessage set (ctxLenOf i.entry) (input.take n)
  let sig := input.drop n
  cacheUse s i (cacheEntryFor i 0x02 k name (pk.take (dsaPk k)))
    (match bad with
    | some st => failResult st
    | none => verdict false (dsaHolds k 0 0 (pk.take (dsaPk k)) m (sig.take (dsaSig k))
        && compClsHolds set (pk.drop (dsaPk k)) (compClsMessage set m) (sig.drop (dsaSig k))))

/-- What a verification gives the trestle: the digest, the classical public key and the classical half (R281). -/
def compPoints (pk input : Bytes) (i : Item) : Bytes :=
  let set := setOf i.entry
  let n := input.length - sigLenOf i.entry
  compClsMessage set (compMessage set (ctxLenOf i.entry) (input.take n)) ++ pk.drop (dsaPk (compDsa set))
    ++ (input.drop n).drop (dsaSig (compDsa set))

/-- COMPOSITE_VERIFY. -/
def execCompositeVerify (e : Engine) (input : Bytes) (s : State) : Host.Outcome State Fault Refusal :=
  .next (runOp 0x21 0x2E e input
    (fun i s =>
      let pk := namedCompPk s i
      let k := compDsa (setOf i.entry)
      (compVerify (compSealedBad s i) pk (keyNameOf i 0x02 (pk.take (dsaPk k))) input i s,
        loadPart i (compFam (setOf i.entry)) (compCls (setOf i.entry)) [] (compPoints pk input i) s)) s)

/-- COMPOSITE_VERIFY_PK (R282). -/
def execCompositeVerifyPk (e : Engine) (input : Bytes) (s : State) : Host.Outcome State Fault Refusal :=
  .next (runOp 0x21 0x2F e input
    (fun i s =>
      let set := setOf i.entry
      let k := compDsa set
      let pk := input.take (compPk set)
      (compVerify (compKeyBad set (pk.drop (dsaPk k))) pk (inputKey 0x02 (pk.take (dsaPk k))) (input.drop (compPk set)) i s,
        loadPart i (compFam set) (compCls set) [] (compPoints pk (input.drop (compPk set)) i) s)) s)

end Sys2Proof.Machine
end

