-- ==== Sys2Proof/Machine/HashSig.lean ====
section
/-! DEFINITION. Hash-based signatures and the tally: families 0x04, 0x05, 0x06 and 0x31 (R287 to R318). -/

namespace Sys2Proof.Machine

/-! ### SLH-DSA routines (R289 to R291) -/

/-- PK.root of SK.seed, SK.prf and PK.seed. -/
def slhRoot (set : Nat) (seed : Bytes) : Bytes := primBytes (.privateKey 0x04 set) [seed] (slhN set)

/-- A signature over M′ of `msg`, whose context has length `ctxLen`, and its check against pk (R218, R268, R289). -/
def slhSigOf (set variant ctxLen : Nat) (sk msg opt : Bytes) : Bytes :=
  primBytes (.signature 0x04 set 0) [sk, signedMessage variant ctxLen msg, opt] (slhSig set)

def slhHolds (set variant ctxLen : Nat) (pk msg sig : Bytes) : Bool :=
  Config.holds (.verifies 0x04 set 0) [pk, signedMessage variant ctxLen msg, sig]

/-- The self-check of an SLH-DSA key generation (R218). -/
def slhSelfCheck (set : Nat) (sk : Bytes) : Bool :=
  let m := selfMessage 0x04
  slhHolds set 0 0 (sk.drop (slhPk set)) m (slhSigOf set 0 0 sk m (slice_ sk (slhPk set) (slhN set)))

/-- slh_keygen_internal on SK.seed, SK.prf and PK.seed: sk ends with PK.seed and PK.root, which are pk. -/
def slhKeygen (origin : Nat) (seed : Bytes) (i : Item) (s : State) : ItemResult :=
  let set := setOf i.entry
  let sk := seed ++ slhRoot set seed
  checked (slhSelfCheck set sk)
    (keyResult s i 1 0x04 set (newPolicy (policyOperand i.entry) 1 0x04 origin false) sk (sk.drop (slhPk set)))

/-- Signing with `opt`; `variant` is 0 for the pure form, PH_ALG for HashSLH-DSA. -/
def slhSign (variant : Nat) (input opt : Bytes) (i : Item) (s : State) : ItemResult :=
  let set := setOf i.entry
  let sk := keyContent s i
  let sig := slhSigOf set variant (ctxLenOf i.entry) sk input opt
  checked (slhHolds set variant (ctxLenOf i.entry) (sk.drop (slhPk set)) input sig) (okResult sig)

/-- A false or malformed signature gives REJECT (R291). -/
def slhVerify (variant : Nat) (pk input : Bytes) (i : Item) : ItemResult :=
  let n := input.length - sigLenOf i.entry
  verdict false (slhHolds (setOf i.entry) variant (ctxLenOf i.entry) pk (input.take n) (input.drop n))

/-- opt_rand: drawn, or PK.seed under DETERMINISTIC (R289, R290). -/
def slhSignWith (op : Nat) (variant : Item → Nat) (e : Engine) (input : Bytes) (s : State) : State :=
  match servingOn s e with
  | some i =>
    let n := slhN (setOf i.entry)
    if deterministic i.entry then
      runOp 0x04 op e input (fun i s => (slhSign (variant i) input (slice_ (keyContent s i) (2 * n) n) i s, s)) s
    else runDrawOp 0x04 op (fun _ => n) e input (fun i d s => (slhSign (variant i) input d i s, s)) s
  | none => s

/-- SLHDSA_KEYGEN: three seeds from the bench DRBG (R290). -/
def execSlhdsaKeygen (e : Engine) (s : State) : Host.Outcome State Fault Refusal :=
  .next (runDrawOp 0x04 0x30 (fun i => 3 * slhN (setOf i.entry)) e [] (fun i d s => (slhKeygen 0 d i s, s)) s)

/-- SLHDSA_KEYGEN_SEED (R289): host-seeded. -/
def execSlhdsaKeygenSeed (e : Engine) (input : Bytes) (s : State) : Host.Outcome State Fault Refusal :=
  .next (runOp 0x04 0x31 e input (fun i s => (slhKeygen 1 input i s, s)) s)

/-- SLHDSA_SIGN. -/
def execSlhdsaSign (e : Engine) (input : Bytes) (s : State) : Host.Outcome State Fault Refusal :=
  .next (slhSignWith 0x32 (fun _ => 0) e input s)

/-- SLHDSA_SIGN_PH. -/
def execSlhdsaSignPh (e : Engine) (input : Bytes) (s : State) : Host.Outcome State Fault Refusal :=
  .next (slhSignWith 0x33 (fun i => phAlgOf i.entry) e input s)

/-- SLHDSA_VERIFY. -/
def execSlhdsaVerify (e : Engine) (input : Bytes) (s : State) : Host.Outcome State Fault Refusal :=
  .next (runOp 0x04 0x34 e input (fun i s => (slhVerify 0 (namedPk s i (slhPk (setOf i.entry))) input i, s)) s)

/-- SLHDSA_VERIFY_PH. -/
def execSlhdsaVerifyPh (e : Engine) (input : Bytes) (s : State) : Host.Outcome State Fault Refusal :=
  .next (runOp 0x04 0x35 e input (fun i s => (slhVerify (phAlgOf i.entry) (namedPk s i (slhPk (setOf i.entry))) input i, s)) s)

/-- SLHDSA_VERIFY_PK. -/
def execSlhdsaVerifyPk (e : Engine) (input : Bytes) (s : State) : Host.Outcome State Fault Refusal :=
  .next (runOp 0x04 0x36 e input
    (fun i s => let n := slhPk (setOf i.entry); (slhVerify 0 (input.take n) (input.drop n) i, s)) s)

/-- SLHDSA_VERIFY_PK_PH. -/
def execSlhdsaVerifyPkPh (e : Engine) (input : Bytes) (s : State) : Host.Outcome State Fault Refusal :=
  .next (runOp 0x04 0x37 e input
    (fun i s => let n := slhPk (setOf i.entry); (slhVerify (phAlgOf i.entry) (input.take n) (input.drop n) i, s)) s)

/-! ### The tally record of a key -/

/-! ### Binding an index (R304, R306, R310, R312) -/

/-- The height of the tree that subtree `j` belongs to (R299). -/
def subtreeHeight : List Nat → Nat → Nat → Nat
  | [], _, _ => 0
  | h :: rest, trees, j =>
    let n := trees * 2 ^ (h - buildExp h)
    if j < n then h else subtreeHeight rest 3 (j - n)

/-- The nodes of subtree `j` at a position: 2^b leaves and what stands over them (R300). -/
def subtreeNodes (fam set j next : Nat) (content : Bytes) : Bytes :=
  let b := buildExp (subtreeHeight ((statefulHeights fam set).getD []) 1 j)
  primBytes (.treeNodes fam set) [content, leBytes 4 j, leBytes 8 next] (statefulN fam set * (2 ^ (b + 1) - 1))

/-! ### Stateful routines -/

/-- The OID that RFC 8391 or SP 800-208 assigns to a set of family 0x06 (R295; log entry 124). -/
def xmssOid (set : Nat) : Nat :=
  set % 32 + (if set < 128 then [0x01, 0x0D, 0x10, 0x13] else [0x01, 0x21, 0x29, 0x31]).getD (set / 32 % 4) 0

/-- The first four bytes of a stateful public key: L of the HSS encoding, or the OID (R295, R296). -/
def statefulTag (fam set : Nat) : Nat :=
  if fam = 0x05 then (match statefulHeights fam set with | some hs => hs.length | none => 0) else xmssOid set

/-- The type codes of an LMS tree and of its one-time keys (log entry 159). -/
def lmsType (set h : Nat) : Nat :=
  [5, 10, 15, 20].getD (set / 64) 0 + (if h = 5 then 0 else if h = 10 then 1 else if h = 15 then 2 else 3)

def otsType (set : Nat) : Nat := 1 + 4 * (set / 64) + set / 16 % 4

/-- The seed and I of a tree of a key: those of the key for its top tree (R300). -/
def treeKeyOf (fam set level tree : Nat) (content : Bytes) : Bytes :=
  if level = 0 then content else primBytes (.treeKey fam set) [content, leBytes 1 level, leBytes 8 tree] (statefulN fam set + 16)

/-- The public key of an LMS tree of height `h`: types, I and root (R296). -/
def lmsPk (set h : Nat) (key : Bytes) : Bytes :=
  let n := statefulN 0x05 set
  beBytes 4 (lmsType set h) ++ beBytes 4 (otsType set) ++ leBytes 16 (leNat (key.drop n))
    ++ primBytes (.publicKey 0x05 set) [leBytes 1 h, key] n

/-- The randomiser C at an index: KMAC256 of the secret seed, I and the index (R311). -/
def lmsRandomiser (set q : Nat) (key : Bytes) : Bytes :=
  let n := statefulN 0x05 set
  kmac256 (key.take n) (key.drop n ++ leBytes 4 q) n []

/-- An LMS signature at leaf `q`: index, types, C, the chains and the path (R296, R311). -/
def lmsSig (set h q : Nat) (key msg : Bytes) : Bytes :=
  let n := statefulN 0x05 set
  let c := lmsRandomiser set q key
  beBytes 4 q ++ beBytes 4 (otsType set) ++ c
    ++ primBytes (.signature 0x05 set 0) [key, leBytes 4 q, c, msg] (lmOtsP n (set / 16 % 4) * n)
    ++ beBytes 4 (lmsType set h) ++ primBytes (.treeNodes 0x05 set) [leBytes 1 h, key, leBytes 4 q] (h * n)

/-- The levels of an HSS signature at index `n` from a level down: each level above the last signs the public key of the
tree below it, which stands after that signature (R296). -/
def hssSig (set n : Nat) (content msg : Bytes) : Nat → List Nat → Bytes
  | _, [] => []
  | level, [h] => lmsSig set h (n % 2 ^ h) (treeKeyOf 0x05 set level (n / 2 ^ h) content) msg
  | level, h :: h' :: rest =>
    let q := n / 2 ^ (h' :: rest).sum
    let pk := lmsPk set h' (treeKeyOf 0x05 set (level + 1) q content)
    lmsSig set h (q % 2 ^ h) (treeKeyOf 0x05 set level (q / 2 ^ h) content) pk ++ pk ++ hssSig set n content msg (level + 1) (h' :: rest)

/-- The layers of an XMSS signature at index `n`, the lowest first, each its chains and its path; a layer above the lowest
signs the root of the tree below (R296). -/
def xmssLayers (set n : Nat) (content msg : Bytes) : Nat → List Nat → Bytes
  | _, [] => []
  | level, h :: rest =>
    let len := statefulN 0x06 set
    let q := n / 2 ^ rest.sum
    xmssLayers set n content msg (level + 1) rest
      ++ primBytes (.signature 0x06 set 0) [content, leBytes 1 level, leBytes 8 q, if rest.isEmpty then msg else []]
        (wotsLen len * len + h * len)

/-- Bytes of the index in an XMSS or XMSS^MT signature of total height `h` (R296). -/
def xmssIndexLen (set h : Nat) : Nat := if set < 128 then 4 else (h + 7) / 8

/-- An XMSS or XMSS^MT signature at an index: index, r by PRF from SK_PRF and the index, then the layers (R296, R311). -/
def xmssSig (set n : Nat) (content msg : Bytes) (hs : List Nat) : Bytes :=
  let len := statefulN 0x06 set
  let r := primBytes (.prf 0x06 set) [slice_ content len len, beBytes 32 n] len
  beBytes (xmssIndexLen set hs.sum) n ++ r ++ xmssLayers set n content (r ++ msg) 0 hs

/-- The public key of a stateful sign key's seeds: L and the top tree's, or the OID, the root and PUB_SEED. -/
def statefulPk (fam set : Nat) (content : Bytes) : Bytes :=
  let n := statefulN fam set
  beBytes 4 (statefulTag fam set)
    ++ (if fam = 0x05 then lmsPk set (((statefulHeights fam set).getD []).headD 0) content
      else primBytes (.publicKey fam set) [content] n ++ leBytes n (leNat (content.drop (2 * n))))

/-- The signature at an index, and its check (R218, R310). -/
def statefulSigOf (fam set n : Nat) (content msg : Bytes) : Bytes :=
  match statefulHeights fam set with
  | none => []
  | some hs => if fam = 0x05 then beBytes 4 (hs.length - 1) ++ hssSig set n content msg 0 hs else xmssSig set n content msg hs

def statefulHolds (fam set : Nat) (pk msg sig : Bytes) : Bool := Config.holds (.verifies fam set 0) [pk, msg, sig]

/-- The self-check of FINISH (R218): signed by no index of the key (log entry 125). -/
def statefulSelfCheck (fam set : Nat) (content : Bytes) : Bool :=
  let m := selfMessage fam
  statefulHolds fam set (statefulPk fam set content) m (primBytes (.signature fam set 2) [content, m] (statefulSigLen fam set))

/-- KEYGEN_START (R300): seeds, I and KEY_ID from the bench DRBG; RESULT has the handle and BUILD_COUNT. -/
def statefulStart (fam : Nat) (e : Engine) (s : State) : State :=
  runDrawOp fam (statefulBase fam) (fun i => statefulSeedLen fam (setOf i.entry) + 8) e []
    (fun i d s =>
      let set := setOf i.entry
      let n := statefulSeedLen fam set
      let pol := newPolicy (policyOperand i.entry) 4 fam 0 false
      ({ status := .ok, word := reservedHandle s i + buildCount fam set * 2 ^ 32
         acts := [.run 4 fam set pol (d.take n) (leNat (d.drop n)) true] }, s)) s

/-- BUILD (R300): one subtree's nodes, stored at COMMIT. -/
def statefulBuild (fam : Nat) (e : Engine) (s : State) : State :=
  runOp fam (statefulBase fam + 1) e []
    (fun i s =>
      let next := match itemTally s i with | some t => t.next | none => 0
      let nodes := subtreeNodes fam (setOf i.entry) (buildIndex i.entry) next (keyContent s i)
      ({ status := .ok, acts := [.subtree (i.keyRun.getD 0) (buildIndex i.entry) nodes] }, s)) s

/-- FINISH (R300): the public key. -/
def statefulFinish (fam : Nat) (e : Engine) (s : State) : State :=
  runOp fam (statefulBase fam + 2) e []
    (fun i s =>
      let set := setOf i.entry
      ({ status := .ok, output := statefulPk fam set (keyContent s i), acts := [.finish (i.keyRun.getD 0) (statefulPk fam set (keyContent s i))]
         verifyOk := statefulSelfCheck fam set (keyContent s i) }, s)) s

/-- The public key stored with the private key an item names (R218). -/
def storedPk (s : State) (i : Item) : Bytes := match itemRun s i with | some r => r.pk | none => []

/-- SIGN at the bound index (R310, R311): the same signature on every attempt, checked against the stored public key. -/
def statefulSign (fam : Nat) (e : Engine) (input : Bytes) (s : State) : State :=
  runOp fam (statefulBase fam + 3) e input
    (fun i s =>
      let set := setOf i.entry
      let n := i.boundIndex.getD 0
      let sig := statefulSigOf fam set n (keyContent s i) input
      ({ status := .ok, output := sig, word := n
         verifyOk := statefulHolds fam set (storedPk s i) input sig }, s)) s

/-- VERIFY and VERIFY_PK judge pk, M and σ. -/
def statefulCheck (fam set : Nat) (pk msgSig : Bytes) (e : Entry) : ItemResult :=
  let n := msgSig.length - sigLenOf e
  verdict false (statefulHolds fam set pk (msgSig.take n) (msgSig.drop n))

def statefulVerify (fam : Nat) (e : Engine) (input : Bytes) (s : State) : State :=
  runOp fam (statefulBase fam + 4) e input
    (fun i s =>
      let set := setOf i.entry
      let c := keyContent s i
      let pk := match keyFacts s i with | some k => if k.kind == 2 then c else storedPk s i | none => c
      (statefulCheck fam set pk input i.entry, s)) s

def statefulVerifyPk (fam : Nat) (e : Engine) (input : Bytes) (s : State) : State :=
  runOp fam (statefulBase fam + 5) e input
    (fun i s =>
      let set := setOf i.entry
      let n := statefulPkLen fam set
      (statefulCheck fam set (input.take n) (input.drop n) i.entry, s)) s

/-- LMS_KEYGEN_START. -/
def execLmsKeygenStart (e : Engine) (s : State) : Host.Outcome State Fault Refusal := .next (statefulStart 0x05 e s)

/-- LMS_BUILD. -/
def execLmsBuild (e : Engine) (s : State) : Host.Outcome State Fault Refusal := .next (statefulBuild 0x05 e s)

/-- LMS_FINISH. -/
def execLmsFinish (e : Engine) (s : State) : Host.Outcome State Fault Refusal := .next (statefulFinish 0x05 e s)

/-- LMS_SIGN. -/
def execLmsSign (e : Engine) (input : Bytes) (s : State) : Host.Outcome State Fault Refusal :=
  .next (statefulSign 0x05 e input s)

/-- LMS_VERIFY. -/
def execLmsVerify (e : Engine) (input : Bytes) (s : State) : Host.Outcome State Fault Refusal :=
  .next (statefulVerify 0x05 e input s)

/-- LMS_VERIFY_PK. -/
def execLmsVerifyPk (e : Engine) (input : Bytes) (s : State) : Host.Outcome State Fault Refusal :=
  .next (statefulVerifyPk 0x05 e input s)

/-- XMSS_KEYGEN_START. -/
def execXmssKeygenStart (e : Engine) (s : State) : Host.Outcome State Fault Refusal := .next (statefulStart 0x06 e s)

/-- XMSS_BUILD. -/
def execXmssBuild (e : Engine) (s : State) : Host.Outcome State Fault Refusal := .next (statefulBuild 0x06 e s)

/-- XMSS_FINISH. -/
def execXmssFinish (e : Engine) (s : State) : Host.Outcome State Fault Refusal := .next (statefulFinish 0x06 e s)

/-- XMSS_SIGN. -/
def execXmssSign (e : Engine) (input : Bytes) (s : State) : Host.Outcome State Fault Refusal :=
  .next (statefulSign 0x06 e input s)

/-- XMSS_VERIFY. -/
def execXmssVerify (e : Engine) (input : Bytes) (s : State) : Host.Outcome State Fault Refusal :=
  .next (statefulVerify 0x06 e input s)

/-- XMSS_VERIFY_PK. -/
def execXmssVerifyPk (e : Engine) (input : Bytes) (s : State) : Host.Outcome State Fault Refusal :=
  .next (statefulVerifyPk 0x06 e input s)

/-! ### Family 0x31 (R312) -/

/-- The state code QUERY reports: UNUSABLE, BUILDING, or the record's STATE. -/
def tallyStateCode (building : Bool) (t : TallyRecord) : Nat :=
  if t.unusable then 5 else if building then 1 else match tallyLatest t with | some c => c.state | none => 1

/-- The 32 bytes of QUERY. -/
def tallyReport (s : State) (r : KeyRun) : Bytes :=
  match tallyOf s r.keyId with
  | none => zeros 32
  | some t =>
    leBytes 8 t.next ++ leBytes 8 (match tallyNewest t with | some c => c.ceiling | none => 0)
      ++ leBytes 8 (statefulLimit r.family r.set) ++ leBytes 2 t.number
      ++ leBytes 1 (tallyStateCode (r.state == .building) t) ++ zeros 5

/-- TALLY_QUERY (R312). -/
def execTallyQuery (e : Engine) (s : State) : Host.Outcome State Fault Refusal :=
  .next (runOp 0x31 0x48 e []
    (fun i s => (match itemRun s i with | some r => okResult (tallyReport s r) | none => failResult .keyHandleInvalid, s)) s)

/-- TALLY_RETIRE (R312): STATE 4 is written at COMMIT, the completion once it is durable. -/
def execTallyRetire (e : Engine) (s : State) : Host.Outcome State Fault Refusal :=
  .next (runOp 0x31 0x49 e [] (fun i s => ({ status := .ok, acts := [.retire (i.keyRun.getD 0)] }, s)) s)

/-! ### Updates of the record at COMMIT, and their end (R300, R303) -/

/-- The completion a result makes. -/
def doneOf (r : ItemResult) : Done :=
  { status := r.status, outputLen := r.output.length, output := r.output, result := r.word }

/-- FINISH writes the LIVE record of a new key (R300); a key rebuilt from its record is live at once and its CEILING
stays (R313). -/
def finishKey (id : Nat) (r : KeyRun) (s : State) : State :=
  let live (s : State) : State :=
    modRuns (fun x => x.port == r.port && x.slice == r.slice && x.first == r.first) (fun x => { x with state := .live }) s
  match tallyOf s r.keyId with
  | none => live s
  | some t =>
    -- a key that a RETIRE has reached stays RETIRED (R312)
    match if (tallyLatest t).any (fun c => c.state == 4) then none else t.building with
    | none => live s
    | some b =>
      writeTally t.number
        { seq := 0, state := 2, family := r.family, set := r.set, keyId := b.1, uid := b.2
          ceiling := min 1024 (statefulLimit r.family r.set), handoff := 0, nonce := 0 } (.item id) s

/-- RETIRE writes STATE 4 with HANDOFF 0 (R312), and with NONCE 0: no later save under the nonce of an earlier handoff makes the
key live again (log entry 192). -/
def retireKey (id : Nat) (r : KeyRun) (s : State) : State :=
  match tallyOf s r.keyId with
  | none => s
  | some t =>
    match tallyLatest t, t.building with
    | some c, _ => writeTally t.number { c with state := 4, handoff := 0, nonce := 0 } (.item id) s
    | none, some b =>
      writeTally t.number
        { seq := 0, state := 4, family := r.family, set := r.set, keyId := b.1, uid := b.2, ceiling := 0, handoff := 0
          nonce := 0 } (.item id) s
    | none, none => s

/-- A committed item waits for a tally write. -/
def waitsTally (s : State) (id : Nat) : Bool :=
  s.flash.tally.any fun t => (t.writing.isSome && t.waiter == .item id) || t.queued.any fun q => q.2 == .item id

/-- The completion of an item that waited for a durable record may be written. -/
def releaseHeld (id : Nat) (s : State) : State :=
  modItem id (fun x =>
    if x.place == .done && x.done.isNone then
      { x with done := x.result.map doneOf, result := none }
    else x) s

/-- A new key's record is in flash: the key is live, and it holds its top-level pointer (R300, R306). -/
def bornKey (c : TallyCopy) (s : State) : State :=
  let s := if c.state == 2 then
      modRuns (fun r => r.kind == 4 && r.keyId == c.keyId) (fun r => { r with state := .live }) s
    else s
  if hasPointer c.family c.set then
    writeChest (fun x => { x with pointers := x.pointers ++ [(c.keyId % 2 ^ 40, 0)] }) s
  else s

/-- TALLY_WRITE_DURABLE (R303, R495): the controller is not fenced; the copy holds the update, whoever waited goes on, and the next update begins. -/
def execTallyWriteDurable (record : Nat) (s : State) : Host.Outcome State Fault Refusal :=
  .next (match s.flash.tally.find? fun t => t.number == record && !s.faults.flashFenced with
    | none => s
    | some t =>
      match t.writing with
      | none => s
      | some (toB, c) =>
        let t' : TallyRecord :=
          { t with
            copyA := if toB then t.copyA else some c
            copyB := if toB then some c else t.copyB
            writing := none
            waiter := .nobody
            building := none }
        let t' := match t'.queued with
          | q :: rest => issueTally (tallyMacKey s) q.1 q.2 { t' with queued := rest }
          | [] => t'
        let s := modTally (fun x => x.number == record) (fun _ => t') s
        let s := if t.building.isSome then bornKey c s else s
        let s := match t.waiter with | .item id => releaseHeld id s | .nobody => s
        settleAfterLeave (settleRuns (reserveIndices t' s)))

end Sys2Proof.Machine
end

