-- ==== Sys2Proof/Machine/CodeBased.lean ====
section
/-! DEFINITION. Code-based engines: families 0x07 and 0x08 (R319 to R331). -/

namespace Sys2Proof.Machine

/-! ### Sizes (R322, R324, R325) -/

def mcePages (set : Nat) : Nat := [0, 64, 128, 256, 256, 332].getD (mceColumn set) 0

/-- Bytes an attempt or an encapsulation draws from instance 16 (log entry 15). -/
def selvDraw : Nat := 32

/-! ### Classic McEliece -/

/-- SHAKE256 of a public key, truncated to 32 bytes (R324): what the module keeps of a key in place of the key. -/
def mceHash (set : Nat) (pk : Bytes) : Bytes := shake256 pk 32

/-- The pk hash of a private run, after sk, or of a registered key. -/
def mceKeyHash (set : Nat) (k : KeyFacts) (content : Bytes) : Bytes :=
  if k.kind == 3 then content.take 32 else content.drop (mceSk set)

/-- A unit's cache entry for a handle and its public key. -/
def selvEntryFor (i : Item) (h : BitVec 32) (pk : Bytes) : SelvEntry :=
  { slice := moduleIndex i.port i.slice, set := setOf i.entry, handle := h, pages := mcePages (setOf i.entry), key := pk }

/-- The serving unit's entry for a handle, by its tag (R325, R326). -/
def selvFind (s : State) (i : Item) (h : BitVec 32) : Option SelvEntry :=
  match i.engine with
  | some (.selvedge u) => s.selvs[u.val].cache.find? fun c => c.slice == moduleIndex i.port i.slice && c.set == setOf i.entry && c.handle == h
  | _ => none

/-- Bits of a ciphertext: the rest of its last byte is padding, of zeros (R329; log entry 155). -/
def mceCtBits (set : Nat) : Nat := [0, 768, 1248, 1664, 1547, 1664].getD (mceColumn set) 0

/-- c and K to a public key from an error vector's bytes. -/
def mceEncapsTo (set : Nat) (pk d : Bytes) : Bytes × Bytes :=
  let c := leBytes (mceCt set) (leNat (primBytes (.ciphertext 0x07 set) [pk, d] (mceCt set)) % 2 ^ mceCtBits set)
  (c, primBytes (.sharedSecret 0x07 set) [d, c] 32)

/-- The public key of a private one. -/
def mcePkOf (set : Nat) (sk : Bytes) : Bytes := primBytes (.publicKey 0x07 set) [sk] (mcePk set)

/-- K of c: that of the error vector c decodes to when it re-encrypts to c, else the implicit-rejection key, of sk and c
alone; non-zero padding bits never re-encrypt (R329). -/
def mceDecapsOf (set : Nat) (sk c : Bytes) : Bytes :=
  let x := mceEncapsTo set (mcePkOf set sk) (primBytes (.decapsulated 0x07 set) [sk, c] selvDraw)
  if x.1 == c then x.2 else primBytes (.rejection 0x07 set) [sk, c] 32

/-- The self-check of a key generation: the unit encapsulates to the new key and decapsulates the result (R329). -/
def mceSelfCheck (set : Nat) (sk pk : Bytes) : Bool :=
  let x := mceEncapsTo set pk (selfMessage 0x07)
  mceDecapsOf set sk x.1 == x.2

/-- c and K for a public key, from drawn bytes. -/
def mceEncaps (pk d : Bytes) (i : Item) (s : State) : ItemResult :=
  let x := mceEncapsTo (setOf i.entry) pk d
  depositOr s i x.1 x.2

/-- The streamed key has arrived, with the declared length. -/
def streamedOk (i : Item) (streamed : Option Bytes) : Bool :=
  match streamed with
  | some bs => bs.length == inputLen i.entry
  | none => false

/-- The translation of a streamed key fails: the item completes with XLATE_FAULT, installs nothing, and its reservation
returns (R134, R331). -/
def streamFault (op : Nat) (e : Engine) (s : State) : State :=
  match servingOn s e with
  | none => s
  | some i =>
    if famOf i.entry == 0x07 && opOf i.entry == op && i.result.isNone then
      -- an ENCAPS that streams has missed (R332)
      let missed (s : State) : State := match e with
        | .selvedge u => if op == 0x51 then modSelv u (fun v => { v with misses := v.misses + 1 }) s else s
        | _ => s
      settleAfterLeave (failInService .xlateFault 0 i (missed
        (modSlice i.port i.slice (fun x => { x with xlateFaults := satAdd 65535 x.xlateFaults 1 }) s)))
    else s

/-- MCELIECE_KEYGEN (R329): a draw for every attempt; after 256 failed attempts a routine error. -/
def execMcelieceKeygen (e : Engine) (attempts : Nat) (s : State) : Host.Outcome State Fault Refusal :=
  .next (match servingOn s e with
    | none => s
    | some i =>
      if famOf i.entry == 0x07 && opOf i.entry == 0x50 && i.result.isNone && decide (256 < attempts) then
        routineFault i (match e with | .selvedge u => modSelv u (fun v => { v with lastAttempts := 255 }) s | _ => s)
      else
        runDrawOp 0x07 0x50 (fun _ => selvDraw) e []
          (fun i d s =>
            let set := setOf i.entry
            let x := (List.range (attempts - 1)).foldl (fun (x : Bytes × State) _ => unitDraw i selvDraw x.2) (d, s)
            let sk := primBytes (.privateKey 0x07 set) [x.1] (mceSk set)
            let pk := mcePkOf set sk
            let r := keyResult x.2 i 1 0x07 set (newPolicy (policyOperand i.entry) 1 0x07 0 false) (sk ++ mceHash set pk) pk
            let c := selvEntryFor i (BitVec.ofNat 32 (reservedHandle x.2 i)) pk
            let s := match e with
              | .selvedge u => modSelv u (fun v => { v with lastAttempts := min 255 attempts }) x.2
              | _ => x.2
            (checked (mceSelfCheck set sk pk) { r with acts := r.acts ++ [.selvInstall c] }, s)) s)

/-- MCELIECE_ENCAPS (R326): a hit reads nothing; a miss streams the key, compares its hash and installs it; no streamed
key is a stream that failed (R331). A record has no handle, so it neither hits nor installs (log entry 17). -/
def execMcelieceEncaps (e : Engine) (streamed : Option Bytes) (s : State) : Host.Outcome State Fault Refusal :=
  .next (match servingOn s e with
    | none => s
    | some i =>
      let set := setOf i.entry
      let hit := if i.record.isSome then none else selvFind s i (keyHandle i.entry)
      let h := match keyFacts s i with | some k => mceKeyHash set k (keyContent s i) | none => []
      if hit.isNone && streamed.isNone then streamFault 0x51 e s
      else if hit.isNone && !streamedOk i streamed then s
      else
        runDrawOp 0x07 0x51 (fun _ => selvDraw) e (zeros (inputLen i.entry))
          (fun i d s =>
            match hit with
            | some c =>
              let r := mceEncaps c.key d i s
              ({ r with acts := r.acts ++ [.selvTouch c], lookup := some true }, s)
            | none =>
              let pk := streamed.getD []
              let r := mceEncaps pk d i s
              if !(mceHash set pk == h) then ({ failResult .rejectEncoding with lookup := some false }, s)
              else if i.record.isSome then ({ r with lookup := some false }, s)
              else ({ r with acts := r.acts ++ [.selvInstall (selvEntryFor i (keyHandle i.entry) pk)], lookup := some false }, s)) s)

/-- MCELIECE_ENCAPS_PK (R327): streams its key on every call. -/
def execMcelieceEncapsPk (e : Engine) (streamed : Option Bytes) (s : State) : Host.Outcome State Fault Refusal :=
  .next (match streamed with
    | none => streamFault 0x52 e s
    | some pk => runDrawOp 0x07 0x52 (fun _ => selvDraw) e pk (fun i d s => (mceEncaps pk d i s, s)) s)

/-- MCELIECE_REGISTER (R327): a one-drawer key of the hash and the set, and an entry in the serving unit. -/
def execMcelieceRegister (e : Engine) (streamed : Option Bytes) (s : State) : Host.Outcome State Fault Refusal :=
  .next (match streamed with
    | none => streamFault 0x53 e s
    | some pk => runOp 0x07 0x53 e pk
        (fun i s =>
          let set := setOf i.entry
          let r := keyResult s i 3 0x07 set (newPolicy (policyOperand i.entry) 3 0x07 2 false) (mceHash set pk ++ leBytes 1 set) []
          ({ r with acts := r.acts ++ [.selvInstall (selvEntryFor i (BitVec.ofNat 32 (reservedHandle s i)) pk)] }, s)) s)

/-- MCELIECE_DECAPS (R329): OK for every c; K or the implicit-rejection key. -/
def execMcelieceDecaps (e : Engine) (input : Bytes) (s : State) : Host.Outcome State Fault Refusal :=
  .next (runOp 0x07 0x54 e input
    (fun i s =>
      let set := setOf i.entry
      (depositOr s i [] (mceDecapsOf set ((keyContent s i).take (mceSk set)) input), s)) s)

/-! ### HQC -/

/-- n of a set, the bits of s after the 40-byte seed of a public key (R319; log entry 155). -/
def hqcN (set : Nat) : Nat := [0, 17669, 35851, 57637].getD set 0

/-- A padding bit of s beyond n is set (R329). -/
def hqcPkBad (set : Nat) (pk : Bytes) : Bool := decide (2 ^ hqcN set ≤ leNat (pk.drop 40))

/-- A private key of drawn bytes: its own part, then the public key, whose padding bits are zero. -/
def hqcSkFrom (set : Nat) (d : Bytes) : Bytes :=
  let b := primBytes (.privateKey 0x08 set) [d] (hqcSk set)
  let own := hqcSk set - hqcPk set
  b.take (own + 40) ++ leBytes (hqcPk set - 40) (leNat (b.drop (own + 40)) % 2 ^ hqcN set)

/-- c and K to a public key from a message's bytes: u comes first, and its padding bits beyond n are zero (R329; log entry 155). -/
def hqcEncapsTo (set : Nat) (pk m : Bytes) : Bytes × Bytes :=
  let b := primBytes (.ciphertext 0x08 set) [pk, m] (hqcCt set)
  let n := (hqcN set + 7) / 8
  let c := leBytes n (leNat (b.take n) % 2 ^ hqcN set) ++ b.drop n
  (c, primBytes (.sharedSecret 0x08 set) [m, c] 64)

/-- c and K to a public key, from drawn bytes. -/
def hqcEncaps (pk d : Bytes) (i : Item) (s : State) : ItemResult :=
  let x := hqcEncapsTo (setOf i.entry) pk d
  depositOr s i x.1 x.2

/-- The public key within an HQC private key: its last bytes (R324). -/
def hqcPkOf (set : Nat) (sk : Bytes) : Bytes := sk.drop (hqcSk set - hqcPk set)

/-- K of c: that of the message c decodes to when it re-encrypts to c, else the implicit-rejection key (R329). -/
def hqcDecapsOf (set : Nat) (sk c : Bytes) : Bytes :=
  let x := hqcEncapsTo set (hqcPkOf set sk) (primBytes (.decapsulated 0x08 set) [sk, c] selvDraw)
  if x.1 == c then x.2 else primBytes (.rejection 0x08 set) [sk, c] 64

/-- The self-check of a key generation (R329). -/
def hqcSelfCheck (set : Nat) (sk : Bytes) : Bool :=
  let x := hqcEncapsTo set (hqcPkOf set sk) (selfMessage 0x08)
  hqcDecapsOf set sk x.1 == x.2

/-- HQC_KEYGEN. -/
def execHqcKeygen (e : Engine) (s : State) : Host.Outcome State Fault Refusal :=
  .next (runDrawOp 0x08 0x58 (fun _ => selvDraw) e []
    (fun i d s =>
      let set := setOf i.entry
      let sk := hqcSkFrom set d
      (checked (hqcSelfCheck set sk)
        (keyResult s i 1 0x08 set (newPolicy (policyOperand i.entry) 1 0x08 0 false) sk (hqcPkOf set sk)), s)) s)

/-- HQC_ENCAPS. -/
def execHqcEncaps (e : Engine) (s : State) : Host.Outcome State Fault Refusal :=
  .next (runDrawOp 0x08 0x59 (fun _ => selvDraw) e []
    (fun i d s =>
      let c := keyContent s i
      let pk := match keyFacts s i with | some k => if k.kind == 2 then c else hqcPkOf (setOf i.entry) c | none => c
      (hqcEncaps pk d i s, s)) s)

/-- HQC_ENCAPS_EK (R329): a non-zero padding bit gives REJECT_ENCODING. -/
def execHqcEncapsEk (e : Engine) (input : Bytes) (s : State) : Host.Outcome State Fault Refusal :=
  .next (runDrawOp 0x08 0x5A (fun _ => selvDraw) e input
    (fun i d s =>
      if hqcPkBad (setOf i.entry) input then (failResult .rejectEncoding, s)
      else (hqcEncaps input d i s, s)) s)

/-- HQC_DECAPS (R329). -/
def execHqcDecaps (e : Engine) (input : Bytes) (s : State) : Host.Outcome State Fault Refusal :=
  .next (runOp 0x08 0x5B e input
    (fun i s => (depositOr s i [] (hqcDecapsOf (setOf i.entry) (keyContent s i) input), s)) s)

end Sys2Proof.Machine
end

