-- ==== Sys2Proof/Machine/Classical.lean ====
section
/-! DEFINITION. Classical public-key work on the trestles: families 0x10, 0x11, 0x12 and 0x13 (R333 to R347). -/

namespace Sys2Proof.Machine

/-! ### The judgement of keys (R342) -/

/-- An RSA e is even or below 3; an n is even or its top bit is 0. -/
def rsaPkBad (set : Nat) (key : Bytes) : Option Status :=
  if rsaE set key % 2 = 0 ∨ rsaE set key < 3 then some .rejectEncoding
  else if rsaN set key % 2 = 0 ∨ rsaN set key < 2 ^ (8 * rsaK set - 1) then some .rejectModulus
  else none

/-- dp or dq zero, or not below p − 1 or q − 1. -/
def rsaScalarBad (set : Nat) (key : Bytes) : Bool :=
  let p := rsaPart set key 0
  let q := rsaPart set key 1
  let dp := rsaPart set key 2
  let dq := rsaPart set key 3
  dp == 0 || decide (p ≤ dp + 1) || dq == 0 || decide (q ≤ dq + 1)

/-- The judgement of a whole key of a trestle family: its private part last. -/
def clsKeyBad (fam set : Nat) (isPrivate : Bool) (key : Bytes) : Option Status :=
  if fam = 0x10 then
    let pk := if isPrivate then key.drop (ecCoord set) else key
    match ecPkBad set pk with
    | some st => some st
    | none => if isPrivate && ecScalarBad set (key.take (ecCoord set)) then some .rejectScalar else none
  else if fam = 0x11 then edPkBad set (if isPrivate then key.drop (edPk set) else key)
  else if fam = 0x13 then
    match rsaPkBad set key with
    | some st => some st
    | none => if isPrivate && rsaScalarBad set key then some .rejectScalar else none
  else none

/-- A named key is judged only where a sealed record brings it (R342). -/
def namedClsBad (s : State) (i : Item) : Option Status :=
  match i.record, keyFacts s i with
  | some _, some k => clsKeyBad (famOf i.entry) (setOf i.entry) (k.kind == 1) (keyContent s i)
  | _, _ => none

/-- A job whose judgement comes first. -/
def judged (bad : Option Status) (r : ItemResult) : ItemResult :=
  match bad with
  | some st => failResult st
  | none => r

/-- 1,024 bits from instance 16 before the first step (R334). -/
def trestleDraw : Nat := 128

/-! ### ECDSA and ECDH -/

/-- d, then its public key. -/
def ecPriv (set : Nat) (d : Bytes) : Bytes := d ++ ecPkOf set d

/-- The self-verify of a key generation (R353). -/
def ecSelfCheck (set : Nat) (d bits : Bytes) : Bool :=
  let m := selfMessage 0x10
  ecVerifies set (ecPkOf set d) m (ecSign set d m bits)

/-- ECDSA_KEYGEN: family 0x10 keys for one use (R398). -/
def execEcdsaKeygen (e : Engine) (s : State) : Host.Outcome State Fault Refusal :=
  .next (runDrawOp 0x10 0x60 (fun _ => trestleDraw) e []
    (fun i bits s =>
      let set := setOf i.entry
      let d := beBytes (ecCoord set) (ecScalarFrom set bits 0)
      (trestleChecked (ecSelfCheck set d bits)
        (keyResult s i 1 0x10 set (newPolicy (policyOperand i.entry) 1 0x10 0 (oneShotOperand i.entry)) (ecPriv set d) (ecPkOf set d)), s)) s)

/-- ECDSA_SIGN: the nonce from the job's bits. -/
def execEcdsaSign (e : Engine) (input : Bytes) (s : State) : Host.Outcome State Fault Refusal :=
  .next (runDrawOp 0x10 0x61 (fun _ => trestleDraw) e input
    (fun i bits s =>
      let set := setOf i.entry
      (judged (namedClsBad s i) (okResult (ecSign set ((keyContent s i).take (ecCoord set)) input bits)), s)) s)

/-- Digest, then r and s: a defect of the signature gives REJECT (R343). -/
def ecVerify (bad : Option Status) (set : Nat) (pk input : Bytes) : ItemResult :=
  let n := input.length - 2 * ecCoord set
  judged bad (verdict false (ecVerifies set pk (input.take n) (input.drop n)))

/-- ECDSA_VERIFY. -/
def execEcdsaVerify (e : Engine) (input : Bytes) (s : State) : Host.Outcome State Fault Refusal :=
  .next (runOp 0x10 0x62 e input
    (fun i s => let set := setOf i.entry; (ecVerify (namedClsBad s i) set (namedPk s i (ecCoord set)) input, s)) s)

/-- ECDSA_VERIFY_PK. -/
def execEcdsaVerifyPk (e : Engine) (input : Bytes) (s : State) : Host.Outcome State Fault Refusal :=
  .next (runOp 0x10 0x63 e input
    (fun i s =>
      let set := setOf i.entry
      let pk := input.take (ecPk set)
      (ecVerify (ecPkBad set pk) set pk (input.drop (ecPk set)), s)) s)

/-- The first status of several judgements in the order of R342. -/
def statusOrder : Status → Nat
  | .rejectEncoding => 1
  | .rejectModulus => 2
  | .rejectRange => 3
  | .rejectPoint => 4
  | .rejectScalar => 5
  | _ => 6

def firstBad (a b : Option Status) : Option Status :=
  match a, b with
  | some x, some y => if statusOrder y < statusOrder x then some y else some x
  | some x, none => some x
  | none, b => b

/-- ECDH_AGREE: the shared x; a result at infinity gives REJECT_POINT (R342). -/
def execEcdhAgree (e : Engine) (input : Bytes) (s : State) : Host.Outcome State Fault Refusal :=
  .next (runDrawOp 0x10 0x64 (fun _ => trestleDraw) e input
    (fun i _ s =>
      let set := setOf i.entry
      let d := (keyContent s i).take (ecCoord set)
      let peer := match ecPkBad set input with
        | some st => some st
        | none => if (ecAgree set d input).isNone then some .rejectPoint else none
      (judged (firstBad (namedClsBad s i) peer) (depositOr s i [] ((ecAgree set d input).getD [])), s)) s)

/-! ### EdDSA -/

/-- EDDSA_KEYGEN: seed, then public key. -/
def execEddsaKeygen (e : Engine) (s : State) : Host.Outcome State Fault Refusal :=
  .next (runDrawOp 0x11 0x68 (fun _ => trestleDraw) e []
    (fun i bits s =>
      let set := setOf i.entry
      let seed := bits.take (edPk set)
      let pk := edPkOf set seed
      let m := selfMessage 0x11
      (trestleChecked (edVerifies set 0 pk [] m (edSignOf set 0 seed pk [] m))
        (keyResult s i 1 0x11 set (newPolicy (policyOperand i.entry) 1 0x11 0 false) (seed ++ pk) pk), s)) s)

/-- EDDSA_SIGN: the signature depends on key, context and message alone; the draw only randomises its computation
(R341). -/
def execEddsaSign (e : Engine) (input : Bytes) (s : State) : Host.Outcome State Fault Refusal :=
  .next (runDrawOp 0x11 0x69 (fun _ => trestleDraw) e input
    (fun i _ s =>
      let set := setOf i.entry
      let key := keyContent s i
      let ctx := ctxLenOf i.entry
      (judged (namedClsBad s i)
        (okResult (edSignOf set (variantOf i.entry) (key.take (edPk set)) (key.drop (edPk set)) (input.take ctx) (input.drop ctx))), s)) s)

def edVerify (bad : Option Status) (pk input : Bytes) (i : Item) : ItemResult :=
  let set := setOf i.entry
  let n := input.length - edSig set
  let ctx := ctxLenOf i.entry
  judged bad (verdict false
    (edVerifies set (variantOf i.entry) pk (input.take ctx) ((input.take n).drop ctx) (input.drop n)))

/-- EDDSA_VERIFY. -/
def execEddsaVerify (e : Engine) (input : Bytes) (s : State) : Host.Outcome State Fault Refusal :=
  .next (runOp 0x11 0x6A e input
    (fun i s => (edVerify (namedClsBad s i) (namedPk s i (edPk (setOf i.entry))) input i, s)) s)

/-- EDDSA_VERIFY_PK. -/
def execEddsaVerifyPk (e : Engine) (input : Bytes) (s : State) : Host.Outcome State Fault Refusal :=
  .next (runOp 0x11 0x6B e input
    (fun i s =>
      let n := edPk (setOf i.entry)
      (edVerify (edPkBad (setOf i.entry) (input.take n)) (input.take n) (input.drop n) i, s)) s)

/-! ### X25519 and X448 -/

/-- XDH_KEYGEN. -/
def execXdhKeygen (e : Engine) (s : State) : Host.Outcome State Fault Refusal :=
  .next (runDrawOp 0x12 0x6C (fun _ => trestleDraw) e []
    (fun i bits s =>
      let set := setOf i.entry
      let k := bits.take (xPk set)
      (keyResult s i 1 0x12 set (newPolicy (policyOperand i.entry) 1 0x12 0 (oneShotOperand i.entry)) k
        (xPublic set k), s)) s)

/-- XDH_AGREE (R342, R344): an all-zero result gives REJECT_POINT. -/
def execXdhAgree (e : Engine) (input : Bytes) (s : State) : Host.Outcome State Fault Refusal :=
  .next (runDrawOp 0x12 0x6D (fun _ => trestleDraw) e input
    (fun i _ s =>
      let set := setOf i.entry
      let z := xAgree set (keyContent s i) input
      (if z == zeros (xPk set) then failResult .rejectPoint else depositOr s i [] z, s)) s)

/-! ### RSA -/

/-- The primes that a job has accepted so far. -/
def foundPrimes (i : Item) (s : State) : List Nat :=
  match trestleOf i with
  | some t => let x := s.trestles[t.val]; if i.ctxB then x.ctxB.primes else x.ctxA.primes
  | none => []

/-- One candidate, from its own draw at the start of its test; none once two primes are found (R551). -/
def testCandidate (i : Item) (bits : Bytes) (x : List Nat × State) : List Nat × State :=
  if 2 ≤ x.1.length then x
  else
    let half := rsaK (setOf i.entry) / 2
    let d := unitDraw i (max trestleDraw half) x.2
    let c := rsaCandidate (8 * half) d.1
    (if rsaAccepts bits c then x.1 ++ [c] else x.1, d.2)

/-- The search goes on over `n` candidates: the primes found, two at most. -/
def searchPrimes (i : Item) (bits : Bytes) (n : Nat) (s : State) : List Nat × State :=
  (List.range n).foldl (fun x _ => testCandidate i bits x) (foundPrimes i s, s)

/-- The key of the two primes, checked by its self-check (R336, R340, R353). -/
def rsaKeygenResult (i : Item) (primes : List Nat) (s : State) : ItemResult :=
  let set := setOf i.entry
  let key := rsaKeyOf set (primes.getD 0 0) (primes.getD 1 0)
  let m := beNat (selfMessage 0x13)
  trestleChecked (rsaReproduces set key m (rsaPrivate set key m))
    (keyResult s i 1 0x13 set (newPolicy (policyOperand i.entry) 1 0x13 0 false) key (key.take (rsaK set + 32)))

/-- RSA_KEYGEN (R336, R340, R354, R551): the next candidates of the job; its bits come first, a candidate's draw that meets a
failed bobbin ends the job, and the second prime its search. -/
def execRsaKeygen (e : Engine) (candidates : Nat) (s : State) : Host.Outcome State Fault Refusal :=
  .next (match servingOn s e with
    | none => s
    | some i =>
      if famOf i.entry == 0x13 && opOf i.entry == 0x70 && i.result.isNone && inputLen i.entry == 0 then
        if !(s.bobbin.state == .serving) then settleAfterLeave (resumeTrestle i (failInService .entropyFail 0 i s))
        else
          let s := if (contextBits i s).isEmpty then let d := itemDraw i trestleDraw s; loadUnit i [] d.1 d.2 else s
          let x := searchPrimes i (contextBits i s) candidates s
          if 2 ≤ x.1.length then formResult i [] (rsaKeygenResult i x.1 x.2) x.2
          else modContext i (fun c => { c with primes := x.1 }) x.2
      else s)

/-- A private operation on `c`, under the check that its result reproduces `c` (R353). -/
def rsaPrivateOp (set : Nat) (key : Bytes) (c : Nat) (f : Nat → ItemResult) : ItemResult :=
  let m := rsaPrivate set key c
  trestleChecked (rsaReproduces set key c m) (f m)

/-- RSA_SIGN: PSS takes its salt from the job's bits (R338). -/
def execRsaSign (e : Engine) (input : Bytes) (s : State) : Host.Outcome State Fault Refusal :=
  .next (runDrawOp 0x13 0x71 (fun _ => trestleDraw) e input
    (fun i bits s =>
      let set := setOf i.entry
      let k := rsaK set
      let h := hashOf i.entry
      let em := if schemeOf i.entry = 1 then pssEncode k h input (bits.take (hashLenOf i.entry)) else pkcs1Encode k h input
      (judged (namedClsBad s i) (rsaPrivateOp set (keyContent s i) (beNat em) fun m => okResult (beBytes k m)), s)) s)

/-- A signature that is below n, and whose encoding holds for the digest (R343). -/
def rsaHolds (set scheme hash : Nat) (key digest sig : Bytes) : Bool :=
  let em := beBytes (rsaK set) (rsaPublic set key (beNat sig))
  decide (beNat sig < rsaN set key)
    && (if scheme = 1 then pssHolds (rsaK set) hash digest em else em == pkcs1Encode (rsaK set) hash digest)

/-- Digest, then the signature. -/
def rsaVerify (bad : Option Status) (key input : Bytes) (i : Item) : ItemResult :=
  let set := setOf i.entry
  let n := input.length - rsaK set
  judged bad (verdict false (rsaHolds set (schemeOf i.entry) (hashOf i.entry) key (input.take n) (input.drop n)))

/-- RSA_VERIFY. -/
def execRsaVerify (e : Engine) (input : Bytes) (s : State) : Host.Outcome State Fault Refusal :=
  .next (runOp 0x13 0x72 e input (fun i s => (rsaVerify (namedClsBad s i) (keyContent s i) input i, s)) s)

/-- RSA_VERIFY_PK. -/
def execRsaVerifyPk (e : Engine) (input : Bytes) (s : State) : Host.Outcome State Fault Refusal :=
  .next (runOp 0x13 0x73 e input
    (fun i s =>
      let n := rsaK (setOf i.entry) + 32
      (rsaVerify (rsaPkBad (setOf i.entry) (input.take n)) (input.take n) (input.drop n) i, s)) s)

/-- The input of a private operation is not below n. -/
def rsaRangeBad (set : Nat) (key input : Bytes) : Option Status :=
  if rsaN set key ≤ beNat input then some .rejectRange else none

/-- RSA_DECRYPT (R339, R342): a decoding that fails is judged before the modulus and dp or dq, and an input not below n before a
decoding that needs it (log entry 19). -/
def execRsaDecrypt (e : Engine) (input : Bytes) (s : State) : Host.Outcome State Fault Refusal :=
  .next (runDrawOp 0x13 0x74 (fun _ => trestleDraw) e input
    (fun i _ s =>
      let set := setOf i.entry
      let key := keyContent s i
      let decoded (m : Nat) : ItemResult :=
        match oaepDecode (rsaK set) (hashOf i.entry) (beBytes (rsaK set) m) with
        | some msg => okResult msg
        | none => failResult .rejectEncoding
      let bad := firstBad (namedClsBad s i) (rsaRangeBad set key input)
      -- a decoding that fails comes before every other failure but that of e, and of an input it cannot take
      let early := bad.isSome && bad != some .rejectRange && bad != some .rejectEncoding
        && (rsaRangeBad set key input).isNone && (oaepDecode (rsaK set) (hashOf i.entry) (beBytes (rsaK set) (rsaPrivate set key (beNat input)))).isNone
      (if early then failResult .rejectEncoding else judged bad (rsaPrivateOp set key (beNat input) decoded), s)) s)

/-- RSA_ENCRYPT_PK: the OAEP seed from the draw (R334). -/
def execRsaEncryptPk (e : Engine) (input : Bytes) (s : State) : Host.Outcome State Fault Refusal :=
  .next (runDrawOp 0x13 0x75 (fun _ => trestleDraw) e input
    (fun i bits s =>
      let set := setOf i.entry
      let k := rsaK set
      let pk := input.take (k + 32)
      let em := oaepEncode k (hashOf i.entry) (input.drop (k + 32)) (bits.take (hashLenOf i.entry))
      (judged (rsaPkBad set pk) (okResult (beBytes k (rsaPublic set pk (beNat em)))), s)) s)

/-- RSA_PRIVATE_RAW. -/
def execRsaPrivateRaw (e : Engine) (input : Bytes) (s : State) : Host.Outcome State Fault Refusal :=
  .next (runDrawOp 0x13 0x76 (fun _ => trestleDraw) e input
    (fun i _ s =>
      let set := setOf i.entry
      let key := keyContent s i
      (judged (firstBad (namedClsBad s i) (rsaRangeBad set key input))
        (rsaPrivateOp set key (beNat input) fun m => okResult (beBytes (rsaK set) m)), s)) s)

end Sys2Proof.Machine
end

