-- ==== Sys2Proof/Machine/Digest.lean ====
section
/-! DEFINITION. The digest farm and its one-shot family 0x41 (R356 to R371), and random bytes, family 0x40 (R378). -/

namespace Sys2Proof.Machine

/-! ### Algorithms (R356) -/

/-- Block length. -/
def blockLen (alg : Nat) : Nat :=
  if alg ≤ 2 then 64 else if alg ≤ 5 then 128
  else if alg = 0x11 then 144 else if alg = 0x12 then 136 else if alg = 0x13 then 104 else if alg = 0x14 then 72
  else if alg = 0x21 then 168 else 136

/-- Blocks of the padded message of `n` bytes (R369). -/
def blocksOf (alg n : Nat) : Nat :=
  let pad := if alg ≤ 2 then 9 else if alg ≤ 5 then 17 else 1
  (n + pad + blockLen alg - 1) / blockLen alg

/-- The digest of a message. -/
def digestOf (alg : Nat) (m : Bytes) (n : Nat) : Bytes := primBytes (.digest alg) [m] n

/-! ### Family 0x41 (R369) and family 0x40 (R378) -/

/-- DIGEST. -/
def execDigest (e : Engine) (input : Bytes) (s : State) : Host.Outcome State Fault Refusal :=
  .next (runOp 0x41 0x01 e input
    (fun i s =>
      let alg := setOf i.entry
      (okResult (digestOf alg input (digestSize alg (entryNat i.entry 40 3))), s)) s)

/-- RANDOM: bytes of instance 16; under PRED_RES once the reseed that its grant asked for has been applied. -/
def execRandom (e : Engine) (s : State) : Host.Outcome State Fault Refusal :=
  .next (match servingOn s e with
    | none => s
    | some i =>
      if predRes i.entry && s.bobbin.predSeed.isSome && s.bobbin.state == .serving then s
      else runDrawOp 0x40 0x01 (fun i => randomLen i.entry) e [] (fun _ d s => (okResult d, s)) s)

/-! ### Slots (R358 to R371) -/

def slotOf (s : State) (d : DigestSlot) : DigestSlotState := s.farm.slots[d.val]

/-- The port allocated the slot, so it may write its window and registers (R359). -/
def ownsSlot (s : State) (p : PortId) (d : DigestSlot) : Bool :=
  !((slotOf s d).state == .free) && (slotOf s d).port == p

/-- Bytes buffered and not yet taken by a core. -/
def slotBuffered (x : DigestSlotState) : Nat := x.absorbed - x.taken * blockLen x.alg

/-- DGF_SLOT_ROOM.ROOM (R361). -/
def slotRoom (x : DigestSlotState) : Nat := if x.state == .free then 16384 else 16384 - slotBuffered x

/-- Digest slots a slice holds. -/
def slotsOfSlice (s : State) (p : PortId) (i : Nat) : Nat :=
  (s.farm.slots.toList.filter fun x => !(x.state == .free) && x.port == p && x.slice.val == i).length

/-- The cause of refusal of an allocation, in the order of R358; 0 when it succeeds. -/
def allocReason (s : State) (p : PortId) (alg slice : Nat) : Nat :=
  if !isWorking s.mode.base || planCode s.power.plan == 0 then 1
  else match findSlice s p slice with
    | none => 2
    | some x =>
      if (digestLen alg).isNone then 3
      else if x.digestSlots ≤ slotsOfSlice s p slice then 4
      else if s.farm.slots.toList.all fun x => !(x.state == .free) then 5
      else 0

/-- The free slot an allocation takes: which one the manual leaves open (log entry 20). -/
def pickSlot (s : State) : DigestSlot × State :=
  let free := (fins 32).filter fun d => (slotOf s d).state == .free
  let f := takeFree s
  (free.getD (f.1 % free.length) 0, f.2)

/-- SLOT_ALLOC (R358): a write of DGF_SLOT_ALLOC. -/
def execSlotAlloc (p : PortId) (value : Word) (s : State) : Host.Outcome State Fault Refusal :=
  let alg := fieldOf value 24 8
  let slice := fieldOf value 8 8
  let act (s : State) : State :=
    let reason := allocReason s p alg slice
    if reason = 0 then
      let k := pickSlot s
      modPort p (fun x => { x with dgfAlg := alg, dgfSlice := slice, dgfReason := 0, dgfSlot := k.1.val + 1 })
        (modDigest k.1 (fun x =>
          { state := .absorbing, alg := alg, gen := x.gen + 1, port := p, slice := ⟨slice % 256, Nat.mod_lt _ (by decide)⟩ }) k.2)
    else modPort p (fun x => { x with dgfAlg := alg, dgfSlice := slice, dgfReason := reason, dgfSlot := 0 }) s
  .next (onWrite p act s)

/-- A data write that meets the conditions of R360. -/
def dataOk (x : DigestSlotState) (off len : Nat) : Bool :=
  x.state == .absorbing && !x.broken && off == x.absorbed % 4096 && decide (len ≤ slotRoom x) && decide (x.absorbed + len < 2 ^ 48)

/-- DIGEST_DATA_WRITE (R360, R363): appended, or dropped with BROKEN, and with LATE_WRITE where it comes after FINAL; nothing
from another port. A write that is no aligned run of 4 to 512 bytes is an Unsupported Request (R118). -/
def execDigestDataWrite (p : PortId) (d : DigestSlot) (offset : Nat) (bytes : Bytes) (s : State) :
    Host.Outcome State Fault Refusal :=
  let act (s : State) : State :=
    let x := slotOf s d
    if !ownsSlot s p d then s
    else if dataOk x offset bytes.length then
      modDigest d (fun x => { x with absorbed := x.absorbed + bytes.length, data := x.data ++ bytes }) s
    else
      let s := modDigest d (fun x => { x with broken := true, lateWrite := x.lateWrite || !(x.state == .absorbing) }) s
      if x.broken then s else raise0 0x0EB s
  .next (
    if offset < 4096 ∧ offset % 4 = 0 ∧ 4 ≤ bytes.length ∧ bytes.length ≤ 512 ∧ bytes.length % 4 = 0 then onWrite p act s
    else onBar p (fun s => emit (.unsupportedRequest p) s) s)

/-- L agrees with the bytes absorbed, and OUT_LEN suits the algorithm (R362). -/
def finalOk (x : DigestSlotState) (outLen : Nat) : Bool :=
  4 * ((x.total.toNat + 3) / 4) == x.absorbed && !x.broken && outLenOk x.alg outLen

/-- DIGEST_FINAL (R362, R363): finalisation begins on L as it stands, or the slot is DONE with DIGEST_LENGTH and a zero
result. OUT_LEN is a field of 17 bits. -/
def execDigestFinal (p : PortId) (d : DigestSlot) (outLen : Nat) (s : State) : Host.Outcome State Fault Refusal :=
  let outLen := outLen % 131072
  let act (s : State) : State :=
    let x := slotOf s d
    if !ownsSlot s p d || !(x.state == .absorbing) then s
    else if finalOk x outLen then modDigest d (fun x => { x with state := .finalising, outLen := outLen, length := x.total }) s
    else modDigest d (fun x => { x with state := .done, status := 0x0902, outLen := outLen, result := [], resultLen := 0 }) s
  .next (onWrite p act s)

/-- DIGEST_RELEASE (R367): in any state, by the owning port. -/
def execDigestRelease (p : PortId) (d : DigestSlot) (s : State) : Host.Outcome State Fault Refusal :=
  .next (onWrite p (fun s => if ownsSlot s p d then modDigest d freedSlot s else s) s)

/-- A slot has a block for a core: a full one, or the final partial one (R357). -/
def blockReady (x : DigestSlotState) : Bool :=
  match x.state with
  | .absorbing => decide ((x.taken + 1) * blockLen x.alg ≤ x.absorbed)
  | .finalising => decide (x.taken < blocksOf x.alg x.length.toNat)
  | _ => false

/-- The core's number in `Farm.last` and whether it serves an algorithm. -/
def coreIndex : FarmCore → Fin 15
  | .sha2 k => ⟨k.val, by omega⟩
  | .keccak k => ⟨12 + k.val, by omega⟩

def coreServes (c : FarmCore) (alg : Nat) : Bool :=
  match c with
  | .sha2 _ => decide (alg < 0x10)
  | .keccak _ => decide (0x10 ≤ alg)

/-- The numbers of the slots and of the one-shot engines in rotating order after number `last`. -/
def rotation (last : Nat) : List Nat := (List.range (40 - last)).map (last + 1 + ·) ++ (List.range last).map (· + 1)

/-- A block of `u` is in a core other than `k`. -/
def inOtherCore (s : State) (k : Fin 15) (u : FarmUser) : Bool :=
  (fins 15).any fun j => j != k && s.farm.held[j.val] == some u

/-- A one-shot item has blocks that no core has taken. -/
def digestDue (i : Item) : Bool := decide (i.blocks < blocksOf (setOf i.entry) (inputLen i.entry))

/-- What number `n` of the rotation offers a core: a slot, or an in-service item whose message has arrived. -/
def farmOffer (s : State) (core : FarmCore) (n : Nat) : Option FarmUser :=
  if h : 1 ≤ n ∧ n ≤ 32 then
    let d : DigestSlot := ⟨n - 1, by omega⟩
    if coreServes core (slotOf s d).alg && blockReady (slotOf s d) then some (.slot d (slotOf s d).gen) else none
  else if h : 33 ≤ n ∧ n ≤ 40 then
    match servingOn s (.digest ⟨n - 33, by omega⟩) with
    | some i => if coreServes core (setOf i.entry) && i.result.isSome && digestDue i then some (.item i.id) else none
    | none => none
  else none

/-- The next block that a core takes. -/
def farmNext (s : State) (core : FarmCore) : Option (Nat × FarmUser) :=
  (rotation s.farm.last[(coreIndex core).val]).findSome? fun n =>
    match farmOffer s core n with
    | some u => if inOtherCore s (coreIndex core) u then none else some (n, u)
    | none => none

/-- A block of a slot or of an item goes into a core. -/
def takeBlock (u : FarmUser) (s : State) : State :=
  match u with
  | .slot d _ => modDigest d (fun x => { x with taken := x.taken + 1 }) s
  | .item id => modItem id (fun i => { i with blocks := i.blocks + 1 }) s

/-- DIGEST_CORE_ASK (R357): a core that asks is free, and takes one block of the next in rotating order that has one for
it and none in another core. -/
def execDigestCoreAsk (core : FarmCore) (s : State) : Host.Outcome State Fault Refusal :=
  let k := coreIndex core
  .next (match farmNext s core with
    | none => { s with farm := { s.farm with held := s.farm.held.set k.val none } }
    | some (n, u) =>
      let s := takeBlock u s
      { s with farm := { s.farm with held := s.farm.held.set k.val (some u), last := s.farm.last.set k.val n } })

/-- DIGEST_DONE (R362): every block of the first L bytes has been taken; the result is complete. -/
def execDigestDone (d : DigestSlot) (s : State) : Host.Outcome State Fault Refusal :=
  let x := slotOf s d
  .next (
    if x.state == .finalising && decide (blocksOf x.alg x.length.toNat ≤ x.taken) then
      let n := digestSize x.alg x.outLen
      let r := digestOf x.alg (x.data.take x.length.toNat) n
      modDigest d (fun x => { x with state := .done, status := 0, result := r, resultLen := n }) s
    else s)

/-- The dword of a result at a window offset, under the reader's page (R364). -/
def resultDword (x : DigestSlotState) (page offset : Nat) : Word :=
  let k := 4096 * page + offset
  BitVec.ofNat 32 (leNat (slice_ (x.result.take x.resultLen) k 4))

/-- DIGEST_RESULT_READ (R364): any port; before DONE it reads zero and marks the slot. -/
def execDigestResultRead (p : PortId) (d : DigestSlot) (offset : Nat) (s : State) : Host.Outcome State Fault Refusal :=
  let at_ := 0x230000 + 0x1000 * d.val + offset
  let act (s : State) : State :=
    let x := slotOf s d
    if x.state == .done then emit (.readData p at_ (resultDword x s.ports[p.val].dgfPage offset)) s
    else
      let early := if x.state == .free then x.status else 0x0901
      emit (.readData p at_ 0) (modDigest d (fun x => { x with earlyRead := true, status := early }) s)
  .next (if offset < 4096 ∧ offset % 4 = 0 then onBar p act s else onBar p (fun s => emit (.unsupportedRequest p) s) s)

/-- SLOT_RECLAIMED (R367): the idle timer has passed; a write of the same fabric cycle restarts it. -/
def execSlotReclaimed (d : DigestSlot) (writeSameCycle : Bool) (s : State) : Host.Outcome State Fault Refusal :=
  .next (
    if writeSameCycle || (slotOf s d).state == .free then s
    else raise0 0x0EA (modDigest d freedSlot s))

end Sys2Proof.Machine
end

