-- ==== Sys2Proof/Machine/KeyMgmt.lean ====
section
/-! DEFINITION. Key management, family 0x30, with identity and attestation (R402 to R408, R550), and the re-sharing of
chest and drawers (R393, R394). -/

namespace Sys2Proof.Machine

/-! ### Imports: lengths, content and checks (R402, R403, R550) -/

/-- The content of a public run: an RSA run also carries R² mod n (R340). -/
def publicContent (fam set : Nat) (input : Bytes) : Bytes :=
  if fam = 0x13 then input ++ rsaPublicConstants set input else input

/-- The checks of an imported public key (R250, R273, R282, R329, R342). -/
def publicBad (fam set : Nat) (pk : Bytes) : Option Status :=
  match fam with
  | 0x01 => if ekBad set pk then some .rejectEncoding else none
  | 0x03 => if fnPkBad set pk then some .rejectEncoding else none
  | 0x08 => if hqcPkBad set pk then some .rejectEncoding else none
  | 0x21 => compKeyBad set (pk.drop (dsaPk (compDsa set)))
  | _ => clsKeyBad fam set false pk

/-- The content of a private run from the imported encoding: the module derives the public parts (R550). -/
def privateContent (fam set : Nat) (k : Bytes) : Bytes :=
  match fam with
  | 0x02 => k ++ dsaPkOf set k
  | 0x03 => k ++ fnPkOf set k
  | 0x10 => ecPriv set k
  | 0x11 => k ++ edPkOf set k
  | 0x13 => k ++ rsaPrivateConstants set k
  | 0x21 =>
    let d := compDsa set
    let sk := k.take (dsaSk d)
    let csk := k.drop (dsaSk d)
    sk ++ dsaPkOf d sk ++ csk ++ compClsPkOf set csk
  | _ => k

/-- n = p × q and qinv × q = 1 modulo p (R550). -/
def rsaConsistent (set : Nat) (key : Bytes) : Bool :=
  let p := rsaPart set key 0
  let q := rsaPart set key 1
  rsaN set key == p * q && decide (1 < p) && rsaPart set key 4 * q % p == 1

/-- The checks of a private key that a sealed record brings, by its run's content (R250, R273, R282, R342, R550). -/
def privateBad (fam set : Nat) (c : Bytes) : Option Status :=
  match fam with
  | 0x01 => if dkBad set c then some .rejectEncoding else none
  | 0x02 => if trBad c (c.drop (dsaSk set)) then some .rejectEncoding else none
  | 0x03 => if fnPkBad set (c.drop (fnSk set)) then some .rejectEncoding else none
  | 0x04 => if slhRoot set (c.take (3 * slhN set)) == c.drop (3 * slhN set) then none else some .rejectEncoding
  | 0x08 => if hqcPkBad set (hqcPkOf set c) then some .rejectEncoding else none
  | 0x13 => if rsaConsistent set c then clsKeyBad fam set true c
      else firstBad (some .rejectEncoding) (clsKeyBad fam set true c)
  | 0x20 =>
    let k := hybKem set
    if dkBad k (c.take (kemDk k)) then some .rejectEncoding
    else if set == 2 && ecScalarBad 2 (c.drop (kemDk k)) then some .rejectScalar
    else none
  | 0x21 =>
    let p := compParts set c
    if trBad p.1 p.2.1 then some .rejectEncoding
    else match compKeyBad set p.2.2.2 with
      | some st => some st
      | none => if set != 3 && ecScalarBad set p.2.2.1 then some .rejectScalar else none
  | _ => clsKeyBad fam set true c

/-- The checks of IMPORT_PRIVATE (R550): the module derives the public parts itself, so only the private parts are judged. -/
def importPrivateBad (fam set : Nat) (c : Bytes) : Option Status :=
  match fam with
  | 0x03 => none
  | 0x10 => if ecScalarBad set (c.take (ecCoord set)) then some .rejectScalar else none
  | 0x11 => none
  | 0x21 =>
    let p := compParts set c
    if trBad p.1 p.2.1 then some .rejectEncoding
    else if set != 3 && ecScalarBad set p.2.2.1 then some .rejectScalar
    else none
  | _ => privateBad fam set c

/-! ### Imports -/

/-- The public key whose expansion a loom-family import installs (R217). -/
def expansionOf (kind fam set : Nat) (c : Bytes) : Option (Nat × Nat × Bytes) :=
  -- a deposited or derived secret has no public key
  if kind != 1 && kind != 2 then none
  else match fam with
  | 0x01 => some (0x01, set, if kind == 2 then c else ekOf set c)
  | 0x02 => some (0x02, set, if kind == 2 then c else c.drop (dsaSk set))
  | 0x03 => some (0x03, set, if kind == 2 then c else c.drop (fnSk set))
  | 0x20 => some (0x01, hybKem set, ekOf (hybKem set) (c.take (kemDk (hybKem set))))
  | 0x21 => let d := compDsa set; some (0x02, d, if kind == 2 then c.take (dsaPk d) else slice_ c (dsaSk d) (dsaPk d))
  | _ => none

/-- An import places its key and, for a loom family, installs its expansion (R402, R217). -/
def importResult (kind fam set : Nat) (policy : Word) (content : Bytes) (keyId : Nat) (bad : Option Status) (i : Item)
    (s : State) : ItemResult :=
  match bad with
  | some st => failResult st
  | none =>
    let r : ItemResult := { status := .ok, word := reservedHandle s i, acts := [.run kind fam set policy content keyId (kind == 4)] }
    match expansionOf kind fam set content with
    | some x => cacheNew (cacheEntryFor i x.1 x.2.1 (.handle (BitVec.ofNat 32 (reservedHandle s i))) x.2.2) r
    | none => r

/-- IMPORT_PUBLIC. -/
def execImportPublic (e : Engine) (input : Bytes) (s : State) : Host.Outcome State Fault Refusal :=
  .next (runOp 0x30 0x80 e input
    (fun i s =>
      let fam := targetFam i.entry
      let set := setOf i.entry
      (importResult 2 fam set (newPolicy (policyOperand i.entry) 2 fam 2 false) (publicContent fam set input) 0 (publicBad fam set input) i s, s)) s)

/-- IMPORT_PRIVATE (R550): ORIGIN 2. -/
def execImportPrivate (e : Engine) (input : Bytes) (s : State) : Host.Outcome State Fault Refusal :=
  .next (runOp 0x30 0x81 e input
    (fun i s =>
      let fam := targetFam i.entry
      let set := setOf i.entry
      let c := privateContent fam set input
      (importResult 1 fam set (newPolicy (policyOperand i.entry) 1 fam 2 false) c 0 (importPrivateBad fam set c) i s, s)) s)

/-- The slice has adopted a record with this KEY_ID (R307, R313); a key that is being built has none yet. -/
def adopted (s : State) (i : Item) (keyId : Nat) : Bool :=
  !s.life.debug && s.flash.tally.any fun t => t.building.isNone && tallyKey t == some keyId && tallyUid t == some (itemUid s i)

/-- UNSEAL (R400, R403, R313): the record's policy and origin stay; a stateful key enters BUILDING. -/
def execUnseal (e : Engine) (s : State) : Host.Outcome State Fault Refusal :=
  .next (runOp 0x30 0x82 e []
    (fun i s =>
      match i.record with
      | none => (failResult .keyHandleInvalid, s)
      | some r =>
        let c := keyContent s i
        let kind := recKind r
        let bad : Option Status :=
          if kind == 1 then privateBad (recFamily r) (recSet r) c
          else if kind == 2 then publicBad (recFamily r) (recSet r) c
          else if kind == 4 && !adopted s i (recKeyId r) then some .keyHandleInvalid
          else none
        (importResult kind (recFamily r) (recSet r) (recPolicy r) c (recKeyId r) bad i s, s)) s)

/-! ### Steward operations -/

/-- Bytes 0 to 63 of a sealed record (R399). -/
def recordHeader (s : State) (i : Item) (r : KeyRun) (iv : Bytes) : Bytes :=
  ascii "AQSK" ++ leBytes 2 1 ++ zeros 2 ++ leBytes 4 (80 + r.content.length) ++ leBytes 1 r.family ++ leBytes 1 r.set
    ++ leBytes 1 r.kind ++ zeros 1 ++ leBytes 4 r.policy.toNat ++ leBytes 4 r.length ++ leBytes 8 (itemUid s i).toNat
    ++ leBytes 8 (if r.kind == 4 then r.keyId else 0) ++ leBytes 4 (draftFamilyId s) ++ iv ++ zeros 8

/-- The run is being deleted by another item (R412). -/
def deletedBy (r : KeyRun) (id : Nat) : Bool := match r.deleting with | some d => d != id | none => false

/-- SEAL (R399, R403): AES-256-GCM under the slice wrap key, with bytes 0 to 63 as additional data. -/
def execSeal (e : Engine) (s : State) : Host.Outcome State Fault Refusal :=
  .next (runDrawOp 0x30 0x83 (fun _ => 12) e []
    (fun i iv s =>
      match itemRun s i with
      | none => (failResult .keyHandleInvalid, s)
      | some r =>
        if deletedBy r i.id then (failResult .keyHandleInvalid, s)
        else
          let h := recordHeader s i r iv
          let key := wrapKey s (itemUid s i)
          let ct := gcmCipher key iv r.content
          ({ status := .ok, output := h ++ ct ++ gcmTag key iv h ct, word := 80 + r.content.length }, s)) s)

/-- DELETE (R412): the run is wiped at or after COMMIT, when its last user has completed. -/
def execDelete (e : Engine) (s : State) : Host.Outcome State Fault Refusal :=
  .next (runOp 0x30 0x84 e []
    (fun i s =>
      match itemRun s i with
      | none => (failResult .keyHandleInvalid, s)
      | some r =>
        if i.sealedFirst || deletedBy r i.id then (failResult .keyHandleInvalid, s)
        else ({ status := .ok, acts := [.delete r.first] }, s)) s)

/-- The 16 bytes of QUERY (R402). -/
def keyReport (r : KeyRun) : Bytes :=
  leBytes 1 r.kind ++ leBytes 1 r.family ++ leBytes 1 r.set ++ zeros 1 ++ leBytes 4 r.length ++ leBytes 4 r.policy.toNat
    ++ leBytes 4 r.content.length

/-- KEY_QUERY. -/
def execKeyQuery (e : Engine) (s : State) : Host.Outcome State Fault Refusal :=
  .next (runOp 0x30 0x85 e []
    (fun i s => (match itemRun s i with | some r => okResult (keyReport r) | none => failResult .keyHandleInvalid, s)) s)

/-- RESTRICT (R403): the policy lost its rights at the grant (`grantActs`), and COMMIT finds them gone. -/
def execRestrict (e : Engine) (s : State) : Host.Outcome State Fault Refusal :=
  .next (runOp 0x30 0x86 e []
    (fun i s => ({ status := .ok, acts := [.restrict (i.keyRun.getD 0) (policyOperand i.entry)] }, s)) s)

/-- The policy of a derived key: never a right its parent lacks (R404). -/
def childPolicy (op parent : Word) : Word :=
  BitVec.ofNat 32 ((if op = 0 then parent.toNat % 2 ^ 24 else (op.toNat &&& parent.toNat) % 2 ^ 24) + 4 * 2 ^ 28)

/-- DERIVE's functions by PARAM_SET: KMAC256, HKDF-Extract with the key as IKM, HKDF-Expand with the key as PRK (R404). -/
def derived (set : Nat) (key label x : Bytes) (n : Nat) : Bytes :=
  match set with
  | 1 => kmac256 key x n label
  | 2 => hmac 2 x key
  | 3 => hkdfExpand 2 key x n
  | 4 => hmac 3 x key
  | _ => hkdfExpand 3 key x n

/-- MAC's functions by PARAM_SET: HMAC over SHA-256, SHA-384 and SHA-512, and KMAC256 (R404). -/
def macTag (set : Nat) (key label m : Bytes) (n : Nat) : Bytes :=
  if set = 4 then kmac256 key m n label else hmac (set + 1) key m

/-- DERIVE (R404): KMAC256 KDF or HKDF, to the host or into a drawer. -/
def execDerive (e : Engine) (input : Bytes) (s : State) : Host.Outcome State Fault Refusal :=
  .next (runOp 0x30 0x87 e input
    (fun i s =>
      let set := setOf i.entry
      let sLen := if set = 1 then deriveS i.entry else 0
      let out := derived set (keyContent s i) (input.take sLen) (input.drop sLen) (deriveOut i.entry)
      if depositFlag i.entry then
        (keyResult s i 6 0x30 set (childPolicy (policyOperand i.entry) i.keyPolicy) out [], s)
      else (okResult out, s)) s)

/-- MAC (R404). -/
def execMac (e : Engine) (input : Bytes) (s : State) : Host.Outcome State Fault Refusal :=
  .next (runOp 0x30 0x88 e input
    (fun i s =>
      let set := setOf i.entry
      let sLen := if set = 4 then deriveS i.entry else 0
      (okResult (macTag set (keyContent s i) (input.take sLen) (input.drop sLen) (macOut i.entry)), s)) s)

/-! ### Attestation (R408) -/

/-- The P-384 identity scalar of c: (c mod (n − 1)) + 1 (R389). -/
def p384Scalar (c : Bytes) : Bytes := beBytes 48 (beNat c % (ecOrder 2 - 1) + 1)

/-- The four identity keys of their roots: sk and pk, scalar and public key, dk, private value (R389, R405). -/
def identityKeys (roots : List Bytes) : List Bytes :=
  let dsa := dsaSkFrom 3 (roots.getD 0 [])
  let ec := p384Scalar (roots.getD 1 [])
  [dsa ++ dsaPkOf 3 dsa, ec ++ ecPkOf 2 ec, kemDkFrom 3 (roots.getD 2 []), roots.getD 3 []]

/-- A key in the module area: 1 ML-DSA-87, 2 P-384, 3 ML-KEM-1024, 4 X448. -/
def identityKey (s : State) (n : Nat) : Bytes := s.cabinet.identity.getD (n - 1) []

def identityDsa (s : State) : Bytes := (identityKey s 1).take (dsaSk 3)
def identityDsaPk (s : State) : Bytes := (identityKey s 1).drop (dsaSk 3)
def identityScalar (s : State) : Bytes := (identityKey s 2).take 48

/-- The 87 drawers of the module area by key (R405), and what drawer `k` of them holds. -/
def areaDrawers : List Nat := [59, 2, 25, 1]

def areaDrawer (s : State) (k : Nat) : Bytes :=
  slice_ ((List.range 4).flatMap fun n => fill (128 * areaDrawers.getD n 0) (identityKey s (n + 1))) (128 * k) 128

/-- The state byte of LCS_STATE: 6 for an encoding that is not one (R526). -/
def lcsShown (s : State) : Nat := if s.life.invalid then 6 else s.life.state

/-- The 104-byte statement. -/
def attestStatement (s : State) (uid : BitVec 64) (nonce : Bytes) : Bytes :=
  let flags := bit s.life.debug + 2 * bit (regenerated s) + 4 * bit (ownerSet s)
  let version := match s.draft.threaded with | some d => d.version.toNat | none => 0
  ascii "AQAT" ++ leBytes 8 s.fuses.serial.toNat ++ leBytes 4 (draftFamilyId s) ++ leBytes 4 version ++ leBytes 1 (lcsShown s)
    ++ leBytes 1 (modeShown s) ++ leBytes 1 flags ++ zeros 1 ++ leBytes 4 s.backup.sticky.toNat
    ++ leBytes 4 (ownerSeq s).toNat ++ leBytes 8 uid.toNat
    ++ (if ownerSet s then (s.backup.chest.ownerDigest ++ zeros 32).take 32 else zeros 32) ++ nonce

/-- ATTEST: the statement and its two signatures over SHA3-512 of it; the loom checks its half against the identity's public
key, and the trestle signs and checks its own (R218, R281). -/
def execAttest (e : Engine) (input : Bytes) (s : State) : Host.Outcome State Fault Refusal :=
  .next (runDrawOp 0x30 0x89 (fun _ => 32 + 48) e input
    (fun i d s =>
      let st := attestStatement s (itemUid s i) input
      let h := sha3_512 st
      let sig := dsaSigOf 3 0 4 (identityDsa s) (ascii "AQAT" ++ h) (d.take 32)
      let m := primBytes (.digest 3) [h] 48
      let cls := ecSign 2 (identityScalar s) m (d.drop 32)
      (checked (dsaHolds 3 0 4 (identityDsaPk s) (ascii "AQAT" ++ h) sig)
        (trestleChecked (ecVerifies 2 (ecPkOf 2 (identityScalar s)) m cls) (okResult (st ++ sig ++ cls))),
        loadPart i 0x10 2 (identityScalar s) m s)) s)

/-! ### Re-sharing (R393, R394) -/

/-- The two shares that hold a word under a mask. -/
def sharePair (mask w : BitVec 64) : BitVec 64 × BitVec 64 := (w ^^^ mask, mask)

/-- 64 bits of a mask generator: its output in one pass, at word `k`. -/
def maskWord64 (seed : Bytes) (pass k : Nat) : BitVec 64 := Config.maskStream seed pass (2 * k) ++ Config.maskStream seed pass (2 * k + 1)

/-- Word `k` of the chest: where it lies, and the two shares that hold it, under the masks of the last pass (R393). -/
def chestPlace (s : State) (k : Nat) : Nat := Config.placement s.backup.addressKey k

def chestShares (s : State) (k : Nat) : BitVec 64 × BitVec 64 :=
  sharePair (maskWord64 s.backup.maskSeed s.backup.remasks k) (BitVec.ofNat 64 (leNat (slice_ (chestBytes s.backup.chest) (8 * k) 8)))

/-- Passes of the refresh engine over drawer `d` (R394). -/
def drawerPass (s : State) (d : Nat) : Nat := s.cabinet.refreshPasses.toNat + (if d < s.cabinet.refreshNext.toNat then 1 else 0)

/-- Word `k` of drawer `d`, whose 64 bits are `w`: where the drawer lies, and the two shares that hold the word (R394). -/
def drawerPlace (s : State) (d : Nat) : Nat := Config.placement s.cabinet.scramble d

def drawerShares (s : State) (d k : Nat) (w : BitVec 64) : BitVec 64 × BitVec 64 :=
  sharePair (maskWord64 s.cabinet.scramble (drawerPass s d) (16 * d + k)) w

/-- CHEST_REMASK: every chest word is re-shared, on main power or on the cell; no value changes. -/
def execChestRemask (s : State) : Host.Outcome State Fault Refusal :=
  .next { s with backup := { s.backup with remasks := s.backup.remasks + 1 } }

/-- DRAWER_REFRESH: the next drawer is re-shared; a pass ends at the last one. -/
def execDrawerRefresh (s : State) : Host.Outcome State Fault Refusal :=
  .next (
    if s.mode.base == .dormant then s
    else
      let n := s.cabinet.refreshNext + 1
      { s with cabinet := { s.cabinet with
        refreshNext := n
        refreshPasses := if n = 0 then s.cabinet.refreshPasses + 1 else s.cabinet.refreshPasses } })

end Sys2Proof.Machine
end

