-- ==== Sys2Proof/Machine/Commit.lean ====
section
/-! DEFINITION. How a routine ends: COMMIT and what it releases, mismatches, and routine errors (R186, R210, R217 to R219,
R235 to R238, R249, R300, R325, R402, R403, R412). -/

namespace Sys2Proof.Machine

/-! ### Mismatches on a loom (R199, R219) -/

/-- Counts a mismatch: the expansion cache is cleared, and the second of a power cycle fences the loom. -/
def countLoomMismatch (n : LoomId) (lane : Option (Fin 8)) (s : State) : State :=
  let s := modLoom n (fun l =>
    { l with
      cache := []
      mismatch := satAdd 255 l.mismatch 1
      firstLane := if l.firstLane.isNone then lane else l.firstLane }) s
  if s.looms[n.val].mismatch < 2 then s else fenceUnits true 0 [n] 0 0 s

/-- A mismatch on a loom: the item restarts elsewhere and the stores are cleared. On a loom that is fenced already the
event repeats and nothing else happens (R495). -/
def loomMismatch (n : LoomId) (lane : Option (Fin 8)) (s : State) : State :=
  let fenced := loomFenced s n
  let s := raise0 (2 * n.val) (report n.val true s)
  if fenced then s else countLoomMismatch n lane (restartAllOn true (.loom n) s)

/-- A mismatch on a selvedge unit, alike (R331). -/
def selvMismatch (u : SelvId) (s : State) : State :=
  let fenced := s.faults.selv.getLsbD u.val
  let s := raise0 (0x100 + 2 * u.val) (report (88 + u.val) true s)
  if fenced then s
  else
    let s := restartAllOn true (.selvedge u) s
    let s := modSelv u (fun v => { v with cache := [], mismatch := satAdd 255 v.mismatch 1, keygen := false }) s
    if s.selvs[u.val].mismatch < 2 then s else fenceUnits true 0 [] 0 (selvBit u.val) s

/-! ### Mismatches on a trestle (R281, R286, R353) -/

/-- Fences a trestle whose faulting jobs have restarted: what else it holds restarts uncounted (R353, R354). -/
def fenceTrestle (t : TrestleId) (s : State) : State := fenceUnits false 0 [] (trestleBit t.val) 0 s

/-- The report of a trestle's mismatch. -/
def reportTrestle (t : TrestleId) (s : State) : State := raise0 (0x0F0 + 2 * t.val) (report (80 + t.val) true s)

/-- Counts it; the second of a power cycle fences the trestle (R353). -/
def countTrestleMismatch (t : TrestleId) (s : State) : State :=
  let s := modTrestle t (fun x => { x with mismatch := satAdd 255 x.mismatch 1 }) s
  if s.trestles[t.val].mismatch < 2 then s else fenceTrestle t s

/-- The job restarts away from the trestle. -/
def trestleMismatch (t : TrestleId) (i : Item) (s : State) : State :=
  countTrestleMismatch t (restartItem true [.trestle t] i (reportTrestle t s))

/-- The trestle's own check and the loom's verify pass fail in one item: one fault restart that excludes both (R286). -/
def bothMismatch (n : LoomId) (lane : Option (Fin 8)) (t : TrestleId) (i : Item) (s : State) : State :=
  let s := reportTrestle t (raise0 (2 * n.val) (report n.val true s))
  let s := restartItem true [.loom n, .trestle t] i s
  countTrestleMismatch t (countLoomMismatch n lane s)

/-! ### What COMMIT makes visible -/

/-- The reservation becomes a run with its key; a stateful key takes its KEY_ID (R249, R300). -/
def commitRun (i : Item) (kind family set : Nat) (policy : Word) (content : Bytes) (keyId : Nat) (building : Bool)
    (s : State) : State :=
  match reservedRun s i.id with
  | none => s
  | some r =>
    let st : RunState := if building then .building else .live
    let s := modRuns (fun x => x.state == .reserved i.id)
      (fun x => { x with kind := kind, family := family, set := set, policy := policy, content := content, tr := keyTr kind family set content, keyId := keyId, state := st }) s
    if r.keyId == unnamedKey i.id then
      modTally (fun t => t.building.map (fun b => b.1) == some r.keyId)
        (fun t => { t with building := t.building.map fun b => (keyId, b.2) }) s
    else s

/-- A loom's install at COMMIT (R217). -/
def installLoom (n : LoomId) (c : CacheEntry) (s : State) : State :=
  modLoom n (fun l => { l with cache := c :: evictLoom 11 (384 - c.blocks) (l.cache.filter fun x => !(x == c)) }) s

/-- A hit makes its entry the most recently used (R217). -/
def touchLoom (n : LoomId) (c : CacheEntry) (s : State) : State :=
  modLoom n (fun l => if l.cache.contains c then { l with cache := c :: l.cache.filter fun x => !(x == c) } else l) s

/-- Two entries of a selvedge unit's cache have one tag (R325). -/
def sameTag (c x : SelvEntry) : Bool := x.slice == c.slice && x.set == c.set && x.handle == c.handle

/-- A selvedge unit's install and hit (R325). -/
def installSelv (u : SelvId) (c : SelvEntry) (s : State) : State :=
  modSelv u (fun v => { v with cache := c :: evictSelv 3 (512 - c.pages) (v.cache.filter fun x => !sameTag c x) }) s

def touchSelv (u : SelvId) (c : SelvEntry) (s : State) : State :=
  modSelv u (fun v => if v.cache.contains c then { v with cache := c :: v.cache.filter fun x => !sameTag c x } else v) s

/-- The run an act names by its first drawer. -/
def sameRun (i : Item) (first : Nat) (r : KeyRun) : Bool := r.port == i.port && r.slice == i.slice && r.first == first

/-- One thing that COMMIT makes visible. -/
def commitAct (i : Item) (a : CommitAct) (s : State) : State :=
  match a with
  | .run kind family set policy content keyId building => commitRun i kind family set policy content keyId building s
  | .loomInstall c => match i.engine with | some (.loom n) => installLoom n c s | _ => s
  | .loomTouch c => match i.engine with | some (.loom n) => touchLoom n c s | _ => s
  | .selvInstall c => match i.engine with | some (.selvedge u) => installSelv u c s | _ => s
  | .selvTouch c => match i.engine with | some (.selvedge u) => touchSelv u c s | _ => s
  | .subtree first j nodes =>
    modRuns (sameRun i first) (fun r => if hasSubtree r j then r else { r with subtrees := r.subtrees ++ [(j, nodes)] }) s
  | .finish first pk =>
    match s.runs.find? (sameRun i first) with
    | some r => finishKey i.id r (modRuns (sameRun i first) (fun x => { x with pk := pk }) s)
    | none => s
  | .delete _ => s
  | .restrict first mask => modRuns (sameRun i first) (fun r => { r with policy := restricted r.policy mask }) s
  | .retire first => match s.runs.find? (sameRun i first) with | some r => retireKey i.id r s | none => s

def isDelete : CommitAct → Bool
  | .delete _ => true
  | _ => false

/-- Counts a cache lookup (R223, R332). -/
def countLookup (i : Item) (hit : Option Bool) (s : State) : State :=
  match i.engine, hit with
  | some (.loom n), some true => modLoom n (fun l => { l with hits := l.hits + 1 }) s
  | some (.loom n), some false => modLoom n (fun l => { l with misses := l.misses + 1 }) s
  | some (.selvedge u), some true => modSelv u (fun v => { v with hits := v.hits + 1 }) s
  | some (.selvedge u), some false => modSelv u (fun v => { v with misses := v.misses + 1 }) s
  | _, _ => s

/-- A loom's moving average takes one normalised service time, with weight 1/64; the first one sets it (R186). -/
def addAverage (i : Item) (cycles : Nat) (s : State) : State :=
  match i.engine with
  | some (.loom n) =>
    match (heddleSection s).refTimes.find? fun r => r.1 == dispatchIndex (famOf i.entry) (opOf i.entry) with
    | none => s
    | some (_, ref) =>
      if ref = 0 then s
      else
        let x : Rat := (cycles : Rat) / (ref : Rat)
        modLoom n (fun l => { l with average := match l.average with | none => some x | some a => some (a + (x - a) / 64) }) s
  | _ => s

/-- What an owner's routine has formed when it reaches COMMIT on loom `n` (R235): its output buffer, within the output range,
its deposit as the run it reserved, its pending installs as one entry of the item's key, and the use of the entry that its
key hit (R217, R223). -/
def routineResult (n : LoomId) (i : Item) (c : LoomCore) (s : State) : ItemResult :=
  let fam := famOf i.entry
  let content := match c.deposit with | some d => d.2.flatMap fun w => bytesOfLanes (valueOf w) | none => []
  let run : List CommitAct := match c.deposit, reservedRun s i.id with
    | some _, some _ => [.run 5 fam (setOf i.entry) (newPolicy 0 5 fam 3 false) content 0 false]
    | _, _ => []
  let entry : CacheEntry := { ownerEntry s i with blocks := 1 + c.pending.length, data := c.pending }
  let hit := cachedEntry s n i
  let touch : List CommitAct := match hit with | some e => [.loomTouch e] | none => []
  { status := .ok
    output := c.output.take (min (outputCap i.entry) 65536)
    word := if run.isEmpty then 0 else reservedHandle s i
    acts := run ++ touch ++ (if c.pending.isEmpty then [] else [.loomInstall entry])
    lookup := if namesKey i then some hit.isSome else none
    verifyOk := c.verifyOk }

/-- The current output buffer of a loom is still being copied to the host (R210). -/
def bufferHeld (s : State) (n : LoomId) : Bool :=
  let c := s.looms[n.val].core
  c.held.any fun h => h.1 == c.current && s.heddle.items.any fun i => i.id == h.2 && i.place == .done

/-- At COMMIT the buffer passes to the shuttle, and the next item writes the other one (R210); the loom clears (R212). -/
def passBuffer (i : Item) (s : State) : State :=
  match i.engine with
  | some (.loom n) =>
    modLoom n (fun l =>
      let c := clearCore l.core
      { l with core := { c with held := (c.current, i.id) :: c.held.filter (fun h => h.1 != c.current), current := !c.current } }) s
  | _ => s

/-- The item commits with result `r`: its acts, its counts, and its completion, which waits for a tally record or for a
deleted key's last user where R300, R312 and R412 say so. -/
def commitItem (e : Engine) (cycles : Nat) (i : Item) (r : ItemResult) (s : State) : State :=
  let s := r.acts.foldl (fun s a => commitAct i a s) s
  let s := addAverage i cycles (countLookup i r.lookup s)
  let s := leaveStores i (passBuffer i (traceItem 0x06 i (returnReservation i.id s)))
  let held := waitsTally s i.id || r.acts.any isDelete
  let done (x : Item) : Item :=
    { x with
      place := .done
      done := if held then none else some (doneOf r)
      result := if held then some r else none
      doneEngine := engineCode e i.trestle
      cycles := cycles
      scratch := x.scratch }
  let s := resumeTrestle i (modItem i.id done s)
  let s := match e with | .selvedge u => modSelv u (fun v => { v with keygen := false }) s | _ => s
  settleRuns s

/-- Operations that release a signature or a new key only while VERIFY_OK is set, fixed by family and operation byte
(R235). -/
def gatedOp (fam op : Nat) : Bool :=
  (fam == 0x02 && [0x20, 0x21, 0x22, 0x23].contains op) || (fam == 0x03 && [0x28, 0x29].contains op)
    || (fam == 0x04 && [0x30, 0x31, 0x32, 0x33].contains op) || isStatefulSign fam op || isFinish fam op
    || (fam == 0x21 && [0x2C, 0x2D].contains op)

/-- Operations whose output is a signature, which the verify pass reads back (R210, R218). -/
def signsOp (fam op : Nat) : Bool :=
  (fam == 0x02 && [0x22, 0x23].contains op) || (fam == 0x03 && op == 0x29) || (fam == 0x04 && [0x32, 0x33].contains op)
    || isStatefulSign fam op || (fam == 0x21 && op == 0x2D) || (fam == 0x30 && op == 0x89)

/-- Operations whose routine checks itself before COMMIT (R218): the gated ones, the key generations of ML-KEM, alone or in a
hybrid, and ATTEST, whose ML-DSA-87 half a signing routine makes (R408). -/
def selfChecked (fam op : Nat) : Bool :=
  gatedOp fam op || (fam == 0x01 && [0x10, 0x14].contains op) || (fam == 0x20 && op == 0x18) || (fam == 0x30 && op == 0x89)

/-- A routine on a loom ends with an error (R237): a store address at FOOTPRINT, a micro-stack fault, or WATCHDOG. -/
def routineEnds (e : Engine) (s : State) : State :=
  match e, servingOn s e with
  | .loom _, some i => routineFault i s
  | _, _ => s

/-- The trestle of a hybrid or composite whose own check failed (R281). -/
def failedPart (i : Item) (r : ItemResult) : Option TrestleId := if r.trestleOk then none else i.trestle

/-- COMMIT of a routine whose result is formed: past its entry's WATCHDOG it is a routine error (R237), it waits for the
output buffer (R210), and one whose own check failed is a mismatch of the unit that checked (R218, R235, R281, R286). -/
def commitLoom (n : LoomId) (cycles : Nat) (i : Item) (r : ItemResult) (s : State) : State :=
  if pastWatchdog s n i cycles then routineEnds (.loom n) s
  else if bufferHeld s n && !r.output.isEmpty then s
  else match selfChecked (famOf i.entry) (opOf i.entry) && !r.verifyOk, failedPart i r with
    | true, some t => settleAfterLeave (bothMismatch n none t i s)
    | true, none => settleAfterLeave (loomMismatch n none s)
    | false, some t => settleAfterLeave (trestleMismatch t i s)
    | false, none => settleAfterLeave (commitItem (.loom n) cycles i r s)

/-- COMMIT on any other engine: a trestle's own check failed, a mismatch (R353), or a
selvedge unit's, a fault restart that excludes it and counts no duplicate-round difference (R329, R332; log entry 194), a one-shot digest waits for
its blocks (R357), or the item commits. -/
def commitOther (e : Engine) (cycles : Nat) (i : Item) (r : ItemResult) (s : State) : State :=
  match e, r.verifyOk, r.trestleOk with
  | .digest k, _, _ => if digestDue i then s else settleAfterLeave (commitItem (.digest k) cycles i r s)
  | .trestle t, _, false => settleAfterLeave (trestleMismatch t i s)
  | .selvedge u, false, _ => settleAfterLeave (restartAllOn true (.selvedge u) s)
  | e, _, _ => settleAfterLeave (commitItem e cycles i r s)

/-- The result that a loom's item commits with: an owner's routine formed it word by word, another's its command; the gate of
a gated operation is VERIFY_OK as its words left it (R235). -/
def committed (n : LoomId) (i : Item) (s : State) : Option ItemResult :=
  let c := s.looms[n.val].core
  if ownerItem i then some (routineResult n i c s)
  else i.result.map fun r => { r with verifyOk := r.verifyOk && (c.verifyOk || !gatedOp (famOf i.entry) (opOf i.entry)) }

/-- The loom runs the words of the item's routine: its entry stands in the bench's dispatch table (R226, R230). -/
def sequenced (n : LoomId) (i : Item) (s : State) : Bool :=
  (benchEntry s n i.entry).isSome && s.looms[n.val].core.item == some i.id

/-- COMMIT on a loom: once its words have reached it; where no table of a threaded draft holds the entry, which R92's check
COVERAGE rules out, once the operation's command has formed its result. -/
def commitRoutine (n : LoomId) (cycles : Nat) (i : Item) (s : State) : State :=
  let c := s.looms[n.val].core
  if sequenced n i s then
    if c.atCommit then match committed n i s with | some r => commitLoom n c.cycles i r s | none => s else s
  else match i.result with | some r => commitLoom n cycles i r s | none => s

/-- The item that runs on the engine commits, once its routine has formed its result (R235). -/
def commitOn (e : Engine) (cycles : Nat) (s : State) : State :=
  match servingOn s e with
  | none => s
  | some i =>
    match e, i.result with
    | .loom n, _ => commitRoutine n cycles i s
    | e, some r => commitOther e cycles i r s
    | _, none => s

/-- COMMIT (R235). -/
def execCommit (e : Engine) (cycles : Nat) (s : State) : Host.Outcome State Fault Refusal := .next (commitOn e cycles s)

/-- WATCHDOG_EXPIRY (R237): the routine on a loom passes its limit. -/
def execWatchdogExpiry (e : Engine) (s : State) : Host.Outcome State Fault Refusal := .next (routineEnds e s)

/-- ROUTINE_ERROR (R237): a store address at FOOTPRINT, or a micro-stack fault, on a loom. -/
def execRoutineError (e : Engine) (s : State) : Host.Outcome State Fault Refusal := .next (routineEnds e s)

end Sys2Proof.Machine
end

