-- ==== Sys2Proof/Machine/Calib.lean ====
section
/-! DEFINITION. The calibration set: its check and its loading at threading (R506, R507), and the identity keys'
derivation at the same step (R405). -/

namespace Sys2Proof.Machine

/-- A calibration set: the values of R506. -/
structure CalSet where
  origin : Nat
  seq : Word
  limits : Thresholds
  sensors : List Int
  aliveMin : Nat
  lockMax : Nat
  oscTrims : List Nat
  benches : List BenchCal
deriving DecidableEq, Repr

/-! ### The page (R506) -/

/-- Two bytes of the page, unsigned and signed. -/
def calNat (page : Bytes) (k : Nat) : Nat := leNat (slice_ page k 2)
def calInt (page : Bytes) (k : Nat) : Int := (BitVec.ofNat 16 (calNat page k)).toInt

/-- `n` fields of two bytes from byte `k`. -/
def calRow (page : Bytes) (k n : Nat) : List Nat := (List.range n).map fun j => calNat page (k + 2 * j)

/-- The entry of bench `b`. -/
def calBench (page : Bytes) (b : Nat) : BenchCal :=
  { baseline := calInt page (192 + 16 * b), lossMax := calNat page (194 + 16 * b), coeff := calInt page (196 + 16 * b) }

/-- ORIGIN and SEQ of a page. -/
def calOrigin (page : Bytes) : Nat := leNat (slice_ page 6 1)
def calSeq (page : Bytes) : Word := BitVec.ofNat 32 (leNat (slice_ page 16 4))

/-- The values that a page holds. -/
def calOf (page : Bytes) : CalSet :=
  { origin := calOrigin page
    seq := calSeq page
    limits :=
      { rails := calRow page 32 8
        clockGlitch := calNat page 48
        tempLow := calInt page 50
        tempHigh := calNat page 52
        dieLight := calNat page 54
        mesh := calRow page 56 4 }
    sensors := (List.range 32).map fun k => calInt page (64 + 2 * k)
    aliveMin := calNat page 128
    lockMax := calNat page 130
    oscTrims := calRow page 132 8
    benches := (List.range 16).map (calBench page) }

/-- Magic, format, serial, length and zero bytes of a page are right. -/
def calForm (serial : BitVec 64) (page : Bytes) : Bool :=
  page.length == 2048 && page.take 6 == ascii "AQCL" ++ leBytes 2 1 && slice_ page 8 8 == leBytes 8 serial.toNat
    && allZero (slice_ page 7 1 ++ slice_ page 20 12 ++ slice_ page 148 44 ++ slice_ page 448 1568)
    && (List.range 16).all fun b => allZero (slice_ page (198 + 16 * b) 10)

/-- Every field lies within its range. -/
def calRanges (c : CalSet) : Bool :=
  c.origin ≤ 1 && (c.origin == 1 || c.seq == 0)
    && c.limits.rails.all (fun r => 50 ≤ r && r ≤ 200)
    && 60 ≤ c.limits.clockGlitch && c.limits.clockGlitch ≤ 95 && (-40 : Int) ≤ c.limits.tempLow && c.limits.tempLow ≤ -10
    && 105 ≤ c.limits.tempHigh && c.limits.tempHigh ≤ 125 && 1 ≤ c.limits.dieLight && c.limits.dieLight ≤ 255
    && c.limits.mesh.all (fun m => 1 ≤ m && m ≤ 65535)
    && c.sensors.all (fun x => decide ((-160 : Int) ≤ x) && decide (x ≤ 160))
    && 1 ≤ c.aliveMin && c.aliveMin ≤ 1024 && 1 ≤ c.lockMax && c.lockMax ≤ 4095
    && c.oscTrims.all (fun t => t ≤ 1023)
    && c.benches.all (fun b => 5 ≤ b.lossMax && b.lossMax ≤ 200)

/-- A page passes R507: its form, its ranges, and the SHA3-256 of bytes 0 to 2,015. -/
def calOk (serial : BitVec 64) (page : Bytes) : Bool :=
  calForm serial page && calRanges (calOf page) && page.drop 2016 == sha3_256 (page.take 2016)

/-- The boot ROM's fail-safe values (R507): the factory's, the tightest end of a range without one, no offset and no
baseline (log entry 171). -/
def failSafe : CalSet :=
  { origin := 0
    seq := 0
    limits := {}
    sensors := List.replicate 32 0
    aliveMin := 1024
    lockMax := 1
    oscTrims := List.replicate 8 0
    benches := [] }

/-- A bench without a baseline runs at 1.3 GHz and trim 0 (R505). -/
def markBaselines (s : State) : State :=
  let one (b : Fin 16) : Bench :=
    let x := s.benches[b.val]
    let none := match s.cal.benches[b.val]? with | some c => c.baseline == 0 | none => true
    if none then { x with noBaseline := true, clkStep := 2, trim := 0 } else { x with noBaseline := false }
  { s with benches := Vector.ofFn one }

/-- Values come into use: the tamper thresholds in the watch and in the backup domain (R476, R506). -/
def useCal (valid : Bool) (c : CalSet) (s : State) : State :=
  markBaselines { s with
    cal := { s.cal with
      valid := valid
      failsafe := !valid
      origin := c.origin
      seq := c.seq
      sensors := c.sensors
      aliveMin := c.aliveMin
      lockMax := c.lockMax
      oscTrims := c.oscTrims
      benches := c.benches }
    tamper := { s.tamper with limits := c.limits }
    backup := { s.backup with limits := c.limits } }

/-- Loads the calibration set, or the boot ROM's fail-safe values with event 0x127 (R506, R507). -/
def loadCal (s : State) : State :=
  match s.flash.cal.filter (calOk s.fuses.serial) with
  | some page => useCal true (calOf page) s
  | none => useCal false failSafe (raise0 0x127 s)

end Sys2Proof.Machine
end

