-- ==== Sys2Proof/Machine/StartUp.lean ====
section
/-! DEFINITION. From power-good to Idle, and power-off (R29, R48 to R72, R81 to R98, R525, R530). -/

namespace Sys2Proof.Machine

/-! ### Power-good (R65, R66 step 1) -/

/-- The main domain turns on at t0: every main-domain register at its reset value, the chest read (R392), the counts
of R516 resumed, the plan computed from the contracts settled by then. -/
def powerUp (s : State) : State :=
  let ch := s.backup.chest
  let valid := chestPasses s.fuses.serial ch
  let slots := s.cards.slots.map fun (c : CardState) => { cdet := c.cdet, cwp := c.cwp : CardState }
  let t := { State.reset with
    pending := s.pending, out := s.out, free := s.free, fuses := s.fuses
    flash := { s.flash with powerCycle := min 16777215 (s.flash.powerCycle + 1) }
    backup := { s.backup with chest := { ch with valid := valid }, seconds := max s.backup.seconds s.flash.secondsMark, wasLost := false }
    power := { contracts := s.power.contracts, paths := s.power.paths }
    cards := { slots := slots }
    tamper := { classes := s.backup.classes, limits := s.backup.limits }
    bobbin := { vn := s.flash.conditioning == 1 }
    mode := { chestEmpty := !valid, chestRead := true, chestPassed := valid }
    log := { seconds := max s.backup.seconds s.flash.secondsMark } }
  let t := { t with power := { t.power with plan := planOf (budgetFine t) } }
  let t := if valid then t else raise0 0x0DA t
  -- a backup domain found without power fires the cell-low source (R24, R464)
  if s.backup.wasLost then evaluate [{ source := 3, scope := .all, machine := 0 }] t else t

/-- The identity keys are derived at step 9 of the threading, or at seeding when that comes later (R405). -/
def deriveIdentity (s : State) : State :=
  if s.mode.seeded && s.draft.threaded.isSome && (s.backup.chest.valid || s.life.debug) then
    { s with cabinet := { s.cabinet with identityReady := true, identity := identityKeys (rootIdentity s) } }
  else s

/-- The chest is read, once in each Wake (R392). -/
def readChest (s : State) : State :=
  if s.mode.chestRead then s
  else
    let valid := chestPasses s.fuses.serial s.backup.chest
    let s := { s with
      backup := { s.backup with chest := { s.backup.chest with valid := valid } }
      mode := { s.mode with chestRead := true, chestPassed := valid, chestEmpty := !valid } }
    if valid then s else raise0 0x0DA s

/-- POWER_GOOD (R65): in Dormant, once a port has settled its contract. -/
def execPowerGood (s : State) : Host.Outcome State Fault Refusal :=
  if s.mode.base == .dormant && s.power.contracts.any (fun c => c.valid) then .next (powerUp s) else .next s

/-! ### Straps and the life-cycle reader (R21, R525) -/

/-- LIFE_CYCLE_READ (R525); an invalid pattern fires source 19 for the life-cycle reader. -/
def readLifeCycle (s : State) : State :=
  let r := readCounter s.fuses.otp
  let st := stateCount r.1
  let s := { s with
    fuses := { s.fuses with otp := r.1 }
    life := { s.life with otpRead := r.1, repaired := r.2.1, invalid := r.2.2, state := st } }
  let s := if st = 5 then { s with mode := { s.mode with cause := 13 } } else s
  if r.2.2 then evaluate [{ source := 19, scope := .all, machine := 3 }] s else s

/-- STRAP_SAMPLE (R21): once in each power cycle, in Wake; the chest has been read by then (R392). -/
def execStrapSample (pins : Straps) (s : State) : Host.Outcome State Fault Refusal :=
  if s.mode.straps.isSome || !(s.mode.base == .wake) then .next s
  else
    let s := readChest s
    .next (readLifeCycle { s with mode := { s.mode with straps := some pins } })

/-! ### The steward's firmware (R66 step 5, R530) -/

/-- The Wake check of Analysis and Scrapped: chest, tally region and user region are blank before Wake is left (R530). -/
def blankCheck (s : State) : State :=
  if s.life.state == 4 || s.life.state == 5 then
    clearChest { s with flash := { s.flash with tally := [], ownerRecord := [], identity := none } }
  else s

/-- STEWARD_FW_VERIFIED (R66 step 5): the mirror is loaded and the latch committed ahead of every event that the queue
takes (R478, R517), the tally scanned (R305); then Wake is left or held (R50, R56). -/
def execStewardFwVerified (slotAOk slotBOk : Bool) (damagedRecords : List Word) (s : State) : Host.Outcome State Fault Refusal :=
  if s.mode.fwDone || s.mode.stewardLost || !s.mode.straps.isSome || s.mode.base == .dormant then .next s
  else
    let s := { s with
      mode := { s.mode with fwDone := true, fwRuns := slotAOk || slotBOk, fwSlotA := slotAOk, fwSlotB := slotBOk } }
    let s := blankCheck (tallyScan (commitLatch (loadMirror damagedRecords s)))
    let held := s.mode.base == .wake && bootStrap s == 3 && s.mode.fwRuns && (s.life.state == 2 || s.life.state == 3)
    let s := if held then { s with mode := { s.mode with cause := 15 } } else s
    .next (leaveWake s)

/-! ### The draft read (R66 steps 8 and 9, R68, R92, R93) -/

/-- The draft that a source holds. -/
def draftAt (s : State) (src : Nat) : Option Draft :=
  match src with
  | 0 => s.flash.slotA
  | 1 => s.flash.slotB
  | _ => s.draft.recovery

/-- Records a check's result (R111). -/
def recordCheck (src : Nat) (ownerPart : Bool) (f : CheckFail) (s : State) : State :=
  { s with draft := { s.draft with code := f.1, section_ := f.2, slot := src, ownerPart := ownerPart } }

/-- A new FAMILY_ID: every slice goes, and staged values return to the draft's defaults (R95). -/
def newFamily (d : Draft) (s : State) : State :=
  let s := destroyAllSlices s
  { s with
    shares := Vector.replicate 4 256
    ports := s.ports.map fun p => { p with idleTimeout := d.heddle.idleTimeout }
    mode := { s.mode with drawersCleared := false } }

/-- A value moved to the nearest from `lo` to `hi`, as step 5 clamps an applied value (R95, R101). -/
def stepClamp (lo hi v : Nat) : Nat := min hi (max lo v)

/-- The applied staged values of a port, each clamped to its range: those of R101, R168 and R371, since no draft field
narrows one (R95; log entry 121). -/
def clampSlice (x : Slice) : Slice :=
  { x with weight := stepClamp 1 65535 x.weight, prioCeil := stepClamp 0 7 x.prioCeil, loomCap := stepClamp 1 64 x.loomCap
           trestleShare := stepClamp 0 1024 x.trestleShare }

def clampQueue (q : Queue) : Queue :=
  { q with coalCount := stepClamp 1 255 q.coalCount, coalTime := stepClamp 0 1000 q.coalTime, poll := stepClamp 1 15625 q.poll }

/-- Step 5 clamps what the new draft no longer allows, and CLAMPED is set on the port concerned (R95). -/
def clampApplied (s : State) : State :=
  let hit (p : Fin 4) : Bool :=
    s.slices.any (fun x => x.port == p && !(clampSlice x == x)) || s.queues.any (fun q => q.port == p && !(clampQueue q == q))
  { s with
    slices := s.slices.map clampSlice
    queues := s.queues.map clampQueue
    ports := Vector.ofFn fun p : Fin 4 =>
      if hit p then { s.ports[p.val] with stage := { s.ports[p.val].stage with clamped := true } } else s.ports[p.val] }

/-- The class of a source after a threading: 0 where it is disabled, the value that the device stage applied where the
FAMILY_ID stays, else the draft's (R95, R466, R483). -/
def threadedClass (s : State) (d : Draft) (keep : Bool) (i : Fin 24) : Nat :=
  if s.fuses.fused.getLsbD i.val then 0
  else if keep && s.tamper.staged.getLsbD i.val then s.tamper.classes[i.val]
  else d.classes.getD i.val 0

/-- Steps 9 of R66 and 5 of R93: the draft loads, its owner part only where R89 and R90 let it. -/
def loadDraft (src : Nat) (other_ re : Bool) (whole : Draft) (s : State) : State :=
  let d := threadedPart s whole
  let other := match s.draft.threaded with | some o => o.familyId != d.familyId | none => false
  let s := if other then newFamily d s else clampApplied s
  let first := s.draft.threaded.isNone
  let cls : Vector Nat 24 := Vector.ofFn (threadedClass s d (!other && !first))
  let s := { s with
    draft := { s.draft with threaded := some d, source := src, runs := true, code := 0, section_ := 0, slot := src, ownerPart := whole.owner.isSome }
    tamper := { s.tamper with classes := cls, staged := if other || first then 0 else s.tamper.staged }
    backup := { s.backup with classes := cls }
    flash := { s.flash with conditioning := d.conditioning }
    looms := s.looms.map fun l => { l with cache := [], dimmed := false, hits := 0, misses := 0 }
    selvs := s.selvs.map fun u => { u with cache := [], hits := 0, misses := 0 }
    benches := Vector.ofFn fun b : Fin 16 => { s.benches[b.val] with control := controlStore d b.val }
    trestles := s.trestles.map fun t => { t with yields := 0 }
    ports := if first then s.ports.map fun p => { p with idleTimeout := d.heddle.idleTimeout } else s.ports }
  let s := enterPlanUnits (deriveIdentity (loadCal s))
  { s with mode := { s.mode with threading := .testing (!s.mode.drawersCleared || s.mode.leftHold == 8 || s.mode.leftHold == 14) other_ re } }

/-- The module reads a slot, and after a failed first slot the other (R68); a draft that fails ends in Hold 7. -/
def draftRead (readOk : Bool) (src : Nat) (other re : Bool) (s : State) : State :=
  let d := if readOk then draftAt s src else none
  let bad : Option CheckFail := match d with | none => some (1, 0) | some d => draftCheck s d
  match bad, d with
  | none, some d => loadDraft src other re d s
  | f, d =>
    let s := recordCheck src (match d with | some d => d.owner.isSome | none => false) (f.getD (1, 0)) s
    if other && src ≤ 1 then
      { s with mode := { s.mode with draftSrc := 1 - src, threading := .reading (1 - src) false re } }
    else rethreadDone .keyPolicy (enterHold 7 { s with draft := { s.draft with runs := false } })

/-- DRAFT_READ_DONE (R92). -/
def execDraftReadDone (readOk : Bool) (s : State) : Host.Outcome State Fault Refusal :=
  match s.mode.base, s.mode.threading with
  | .threading, .reading src other re => .next (settleAfterLeave (draftRead readOk src other re s))
  | _, _ => .next s

/-! ### Built-in self-test (R66 step 10, R70, R93 step 6, R499) -/

/-- Units that leave the self-test fenced: those that failed it, those whose checker stayed silent, and those whose
tamper source is still active (R467). -/
structure TestFences where
  benches : BitVec 16
  looms : List LoomId
  trestles : BitVec 8
  selvs : BitVec 4
  ports : BitVec 4
  flash : Bool
deriving DecidableEq, Repr

/-- The units that the self-test fences (R94, R499; log entry 144). -/
def testFences (r : SelfTest) (fences : List (SourceId × FenceScope)) : TestFences :=
  let silent (lo n : Nat) : List Nat := (r.silent.map fun x => x.1.val).filterMap fun v => if lo ≤ v ∧ v < lo + n then some (v - lo) else none
  let u := fences.map fun f => scopeUnits f.1 f.2
  { benches := u.foldl (fun m x => m ||| x.1) (maskOf 16 (r.benches.map (fun b => b.val) ++ silent 64 16))
    looms := (fins 64).filter fun n => r.looms.contains n || (silent 0 64).contains n.val || u.any (fun x => x.2.1.contains n)
    trestles := u.foldl (fun m x => m ||| x.2.2.1) (maskOf 8 (r.trestles.map (fun t => t.val) ++ silent 80 8))
    selvs := u.foldl (fun m x => m ||| x.2.2.2) (maskOf 4 (r.selvedge.map (fun t => t.val) ++ silent 88 4))
    ports := maskOf 4 (silent 92 4 ++ r.caches.map fun p => p.val)
    flash := (silent 102 1).length != 0 }

/-- Fences after self-test. At a re-thread the units that passed return (R93, R491); at start-up the fences that stand
stay with the new ones. -/
def applyTestFences (re : Bool) (f : TestFences) (s : State) : State :=
  let old := s.faults
  { s with
    faults := { old with
      bench := if re then f.benches else old.bench ||| f.benches
      trestle := if re then f.trestles else old.trestle ||| f.trestles
      selv := if re then f.selvs else old.selv ||| f.selvs
      port := if re then f.ports else old.port ||| f.ports
      flashFenced := old.flashFenced || f.flash }
    looms := Vector.ofFn fun n : Fin 64 => { s.looms[n.val] with fenced := f.looms.contains n || (!re && s.looms[n.val].fenced) }
    benches := Vector.ofFn fun b : Fin 16 => { s.benches[b.val] with ageFenced := s.benches[b.val].ageFenced && !re } }

/-- A re-thread clears the sticky bits of every unit that passes its self-test: looms, benches, trestles, selvedge units
and shuttle sections, and the cabinet when it was tested. The other units' bits stand. FLT_FIRST goes when no bit
remains (R94, R489; log entry 105). -/
def clearSticky (f : TestFences) (cabinet : Bool) (s : State) : State :=
  let bench (b : Nat) : Bool := f.benches.getLsbD b
  let failed : List Nat := f.looms.map (fun n => n.val) ++ ((List.range 64).filter fun n => bench (n / 4))
    ++ (bitsOf f.benches).map (fun b => 64 + b) ++ (bitsOf f.trestles).map (fun t => 80 + t)
    ++ (bitsOf f.selvs).map (fun u => 88 + u) ++ (bitsOf f.ports).map (fun p => 92 + p)
  let passed : BitVec 128 := maskOf 128 (((List.range 96).filter fun n => !failed.contains n) ++ (if cabinet then [97] else []))
  let left := s.faults.sticky &&& ~~~passed
  { s with faults := { s.faults with sticky := left, firstValid := s.faults.firstValid && !(left == 0), first := if left == 0 then 0 else s.faults.first, firstUe := s.faults.firstUe && !(left == 0) } }

/-- Every drawer is cleared and takes a fresh generation; building keys are lost, and waiting items that named a run
find their handle invalid (R94, R300, R394, R396). -/
def clearAllDrawers (s : State) : State :=
  let gone := s.heddle.items.filter fun i => waiting i && i.keyRun.isSome
  -- the placement key, and a generation for every drawer, come from instance 16 where it serves (log entry 166)
  let serves := s.bobbin.instances[16].instantiated
  let d := if serves then draw inst16 32 s else ((List.range 32).map (Config.freeByte s.free), s)
  let s := d.2
  let source := if serves then some s.bobbin.instances[16] else none
  let s := if serves then modInstance inst16 (fun x => (ctrGenerate 65536 (ctrGenerate 65536 x).2).2) s else s
  let s := { s with
    runs := []
    free := s.free + 1
    flash := { s.flash with tally := s.flash.tally.filter fun t => t.building.isNone }
    cabinet := { s.cabinet with epoch := s.free, genSource := source, gens := [], scramble := d.1 }
    mode := { s.mode with drawersCleared := true } }
  gone.foldl (fun s i => failItem .keyHandleInvalid i s) s

/-- Any sticky flag whose source's class is HALT or ZEROIZE (R480). -/
def haltFlagSet (s : State) : Bool := (fins 24).any fun i => s.backup.sticky.getLsbD i.val && 2 ≤ classOf s i

/-- The threading ends: Hold 14, Hold 9 or Idle (R480), READY set (R71). -/
def endThreading (s : State) : State :=
  let s := { s with mode := { s.mode with leftHold := 0 } }
  if !s.backup.chest.valid then
    rethreadDone .keyPolicy (enterHold 14 { s with mode := { s.mode with chestEmpty := true } })
  else if haltFlagSet s then rethreadDone .keyPolicy (enterHold 9 s)
  else
    let s := setMode .idle 2 { s with mode := { s.mode with threading := .none, chestEmpty := false, idleMs := if s.mode.idleMs = 0 then min 65535 (s.clock / 750000) else s.mode.idleMs } }
    rethreadDone .ok (endFirstThreading s)

/-- The checkers that stayed silent, each with its kind: the lockstep's is kind 4 of the steward (R486, R499). -/
def silentCheckers (r : SelfTest) : List (Fin 104 × Fin 7) := if r.wardenChecker then r.silent ++ [(100, 4)] else r.silent

/-- A silent checker of the steward or of the fault collector, which cannot be fenced (R499). -/
def wardenNeeded (r : SelfTest) : Bool := (silentCheckers r).any fun x => x.1.val == 100 || x.1.val == 103

/-- The self-test's result (R70, R94, R499). -/
def selfTest (r : SelfTest) (clear re : Bool) (s : State) : State :=
  let still := s.tamper.fences.filter fun x => s.tamper.active.getLsbD x.1.val
  let f := testFences r (if re then still else s.tamper.fences)
  -- a re-thread tests the cabinet only when it leaves Hold 8 or 14 (R94); the first threading does (R66 step 10)
  let cabinet := !re || s.mode.leftHold == 8 || s.mode.leftHold == 14
  let failing := !r.looms.isEmpty || !r.benches.isEmpty || !r.trestles.isEmpty || !r.selvedge.isEmpty || !r.caches.isEmpty
  let s := if failing then { s with draft := { s.draft with code := 0x0C } } else s
  let kinds : BitVec 7 := maskOf 7 ((silentCheckers r).map fun x => x.2.val)
  let s := { s with
    tamper := { s.tamper with fences := if re then still else s.tamper.fences }
    faults := { s.faults with testDone := true, tested := 0x7F, testFailed := kinds } }
  let s := applyTestFences re f (if re then clearSticky f (cabinet && r.cabinetOk) s else s)
  let s := (silentCheckers r).foldl (fun s x => raise 0x125 (detailOf x.2.val x.1.val 0 0 0) s) s
  let s := if clear then clearAllDrawers s else s
  if wardenNeeded r then wardenTakeover 6 s
  else if cabinet && !r.cabinetOk then rethreadDone .keyPolicy (enterHold 8 (raise0 0x0D9 s))
  else endThreading s

/-- SELF_TEST_DONE (R70). -/
def execSelfTestDone (result : SelfTest) (s : State) : Host.Outcome State Fault Refusal :=
  match s.mode.base, s.mode.threading with
  | .threading, .testing clear _ re => .next (settleAfterLeave (selfTest result clear re s))
  | _, _ => .next s

/-! ### Power-fail (R29) -/

/-- Bits the burn of a running transition has set when power goes: any number of them, in order (R529 step 2, R536;
log entry 13). -/
def tornBurn (s : State) : BitVec 24 × State :=
  match s.life.transition with
  | none => (s.fuses.otp, s)
  | some t =>
    let f := takeFree s
    let k := f.1 % (4 * (t.target - s.life.state) + 1)
    (s.fuses.otp ||| maskOf 24 ((List.range k).map fun i => 4 * s.life.state + i), f.2)

/-- The main domain switches off: everything but fuses, flash, backup domain, contracts and what a slot holds is lost
(R29, R409). -/
def powerDown (s : State) : State :=
  let b := tornBurn s
  let s := b.2
  let cell : BitVec 24 := 0xC00F
  let slots := s.cards.slots.map fun (c : CardState) => { cdet := c.cdet, cwp := c.cwp : CardState }
  let flash := { s.flash with tally := (s.flash.tally.filter fun t => t.building.isNone).map tornTally }
  let t := { State.reset with
    pending := s.pending, out := s.out, free := s.free
    fuses := { s.fuses with otp := b.1 }
    flash := flash
    backup := { s.backup with active := s.tamper.active &&& cell, alone := 0 }
    power := { contracts := s.power.contracts, paths := s.power.paths, railMask := true }
    cards := { slots := slots }
    mode := { base := .dormant } }
  if s.backup.cellOk then t else loseBackup t

/-- POWER_FAIL (R29): in every powered mode. -/
def execPowerFail (s : State) : Host.Outcome State Fault Refusal :=
  if s.mode.base == .dormant then .next s else .next (powerDown s)

end Sys2Proof.Machine
end

