-- ==== Sys2Proof/Machine/Quorum.lean ====
section
/-! DEFINITION. The split root key: Shamir sharing over GF(2^8) and the quorum (R434, R435), the identity record that a
new device root makes (R389, R406, R407), and the owner-signed command in progress (R121, R165). -/

namespace Sys2Proof.Machine

/-! ### The inner command in progress -/

/-- The operands of the accepted inner command that has not begun. -/
def ownerReady (s : State) : Option OwnerOperand :=
  match s.owner with
  | some o => if o.started then none else some o.operand
  | none => none

/-- The inner command begins and waits for its end. -/
def ownerStart (s : State) : State := { s with owner := s.owner.map fun o => { o with started := true } }

/-! ### GF(2^8), reduction polynomial x^8 + x^4 + x^3 + x + 1 (R434) -/

/-- Multiplies by x. -/
def gfDouble (a : Byte) : Byte := if a.getLsbD 7 then (a <<< 1) ^^^ 0x1B else a <<< 1

/-- The product, by the low `n` bits of `b`. -/
def gfMulBits : Nat → Byte → Byte → Byte
  | 0, _, _ => 0
  | n + 1, a, b => (if b.getLsbD 0 then a else 0) ^^^ gfMulBits n (gfDouble a) (b >>> 1)

def gfMul (a b : Byte) : Byte := gfMulBits 8 a b

def gfPow (a : Byte) : Nat → Byte
  | 0 => 1
  | n + 1 => gfMul a (gfPow a n)

/-- The inverse, a^254; 0 for 0. -/
def gfInv (a : Byte) : Byte := gfPow a 254

/-- A polynomial's value at `x`, coefficients from the constant term up. -/
def gfEval (x : Byte) : Bytes → Byte
  | [] => 0
  | c :: cs => c ^^^ gfMul x (gfEval x cs)

/-- Share `x` of a key: byte b is the value of b's own polynomial, whose constant term is the key's byte. -/
def shareOf (m : Nat) (ork coeffs : Bytes) (x : Nat) : Bytes :=
  (List.range 32).map fun b => gfEval (BitVec.ofNat 8 x) (ork.getD b 0 :: slice_ coeffs ((m - 1) * b) (m - 1))

/-- Lagrange weight at 0 of point `x` among the points `xs`. -/
def lagrange (x : Byte) (xs : Bytes) : Byte :=
  xs.foldl (fun acc y => if y = x then acc else gfMul acc (gfMul y (gfInv (y ^^^ x)))) 1

/-- The key that a list of shares reconstructs. -/
def reconstruct (shares : List ShareRecord) : Bytes :=
  let xs := shares.map fun r => BitVec.ofNat 8 r.x
  (List.range 32).map fun b =>
    shares.foldl (fun acc r => acc ^^^ gfMul (r.value.getD b 0) (lagrange (BitVec.ofNat 8 r.x) xs)) 0

/-- The set tag of a share record under a key: over bytes 0 to 17, 20 to 31 and 64 to 2,752 of its payload (R434). -/
def setTag (ork : Bytes) (r : ShareRecord) : Bytes :=
  kmac256 ork
    (leBytes 16 r.setId ++ leBytes 1 r.m ++ leBytes 1 r.n ++ leBytes 8 r.splitSerial.toNat ++ leBytes 4 r.seqAtSplit.toNat
      ++ r.owner) 32 (ascii "AQX-SHARESET")

/-! ### Quorum (R435) -/

/-- A card that may be read: identified and scanned, and neither FAILED nor DUPLICATE. -/
def cardUsable (c : CardState) : Bool := c.present && c.identified && c.found.isNone && !c.failed && !c.duplicate

/-- Inserts a share by x, once for each x (R444). -/
def insertShare (r : ShareRecord) : List ShareRecord → List ShareRecord
  | [] => [r]
  | b :: l => if r.x = b.x then b :: l else if r.x < b.x then r :: b :: l else b :: insertShare r l

/-- Share records of every readable card. -/
def presentShares (s : State) : List ShareRecord := (s.cards.slots.toList.filter cardUsable).flatMap fun c => (c.shares.filterMap id).map fun r => r.payload

/-- The present records of the set of `r`, ascending x. -/
def sharesOfSet (s : State) (r : ShareRecord) : List ShareRecord :=
  ((presentShares s).filter fun q => q.setId == r.setId && q.m == r.m).foldr insertShare []

/-- The `n`-element sublists, those with the lowest elements first. -/
def choices : Nat → List ShareRecord → List (List ShareRecord)
  | 0, _ => [[]]
  | _ + 1, [] => []
  | n + 1, a :: l => (choices n l).map (fun c => a :: c) ++ choices (n + 1) l

/-- The key a set yields: the M lowest x first, then at most six other M-subsets, until one verifies the set tag. -/
def setKey (s : State) (r : ShareRecord) : Option Bytes :=
  (((choices r.m (sharesOfSet s r)).take 7).map reconstruct).find? fun k => decide (2 ≤ r.m) && setTag k r == r.tag

/-- The first set whose shares stand under their own tag, with its key; none where a card was pulled out meanwhile (R444). -/
def setQuorum (s : State) : Option (ShareRecord × Bytes) :=
  if s.cards.quorumCut then none else (presentShares s).findSome? fun r => (setKey s r).map fun k => (r, k)

/-- Two readable cards whose identities differ. -/
def twoCards (s : State) : Bool :=
  let ids := (s.cards.slots.toList.filter cardUsable).map fun c => c.identity
  ids.any fun a => ids.any fun b => a != b

/-- A quorum stands: with an owner set, a set whose key is the chest's ORK, which Test-Root cannot reach (R60, R411; log
entry 33); with none, any two cards. A card pulled out meanwhile makes it fail (R444). -/
def quorumStands (s : State) : Bool :=
  !s.cards.quorumCut && if ownerSet s then !s.life.debug && (presentShares s).any fun r => setKey s r == some s.backup.chest.ork
  else twoCards s

/-- Event 0x10E with detail QUORUM_FAIL. -/
def quorumFails (s : State) : State := raise 0x10E (detailOf 0 0 2 0 0) s

/-! ### The identity record (R389, R406, R407) -/

/-- The 9,088 bytes of an identity record. -/
def identityBytes (r : IdentityRecord) : Bytes := r.front ++ r.dsa ++ r.ec ++ r.ek ++ r.x448 ++ r.rest ++ r.cert.bytes

/-- The serial in an identity record, and whether its magic, format, zero bytes and lengths are right (R406, R452). -/
def idSerial (r : IdentityRecord) : BitVec 64 := BitVec.ofNat 64 (leNat (slice_ r.front 8 8))
def idFormOk (r : IdentityRecord) : Bool :=
  r.front.take 6 == ascii "AQID" ++ leBytes 2 1 && r.front.length == 24 && (r.front.drop 7).take 1 == [0] && r.front.drop 16 == zeros 8
    && r.dsa.length == 2592 && r.ec.length == 97 && r.ek.length == 1568 && r.x448.length == 56 && r.rest == zeros 15
    && r.cert.bytes.length == 4736

/-- The factory certificate: a signature block of the boot ROM's keys over bytes 0 to 4,351 (R406, R452). -/
def certOk (r : IdentityRecord) : Bool :=
  horsefortVerifies (ascii "AQID-HF") (r.front ++ r.dsa ++ r.ec ++ r.ek ++ r.x448 ++ r.rest) r.cert

/-- An identity record of the present device root with a flag set, which carries no certificate. -/
def uncertifiedIdentity (s : State) (flags : Nat) : IdentityRecord :=
  { front := ascii "AQID" ++ leBytes 2 1 ++ leBytes 1 flags ++ zeros 1 ++ leBytes 8 s.fuses.serial.toNat ++ zeros 8
    dsa := dsaPkOf 3 (dsaSkFrom 3 ((rootIdentity s).getD 0 []))
    ec := ecPkOf 2 (p384Scalar ((rootIdentity s).getD 1 []))
    ek := kemEkFrom 3 (((rootIdentity s).getD 2 []).take 32)
    x448 := xPublic 2 ((rootIdentity s).getD 3 [])
    rest := zeros 15
    cert := { bytes := zeros 4736, dsa := unsigned, ec := unsigned } }

/-- A new DRK for a chest found empty, with new identity keys and record; event 0x0DB (R407). -/
def newDeviceRoot (s : State) : State :=
  let d := draw inst16 32 s
  let s := d.2
  let s := writeChest (fun _ => { valid := true, drk := d.1 }) s
  raise0 0x0DB (deriveIdentity { s with
    flash := { s.flash with identity := some (uncertifiedIdentity s 2) }
    cabinet := { s.cabinet with identityReady := false, identity := [] } })

end Sys2Proof.Machine
end

