-- ==== Sys2Proof/Machine/CardBus.lean ====
section
/-! DEFINITION. The custody-card bus: command frames and responses, the status word, data blocks, and the record layer
(R417 to R421, R423, R425, R426, R431 to R433). -/

namespace Sys2Proof.Machine

/-! ### Rates (R417) -/

/-- CCLK in hertz. -/
def cclkHz : CardRate → Nat
  | .ident => 390625
  | .mode0 => 12500000
  | .mode1 => 25000000
  | .mode2 => 50000000

/-- The active data lines. -/
def cardLines : CardRate → Nat
  | .ident => 0
  | .mode0 => 1
  | .mode1 | .mode2 => 4

/-- The rate of a card's mode. -/
def rateOf : Nat → CardRate
  | 0 => .mode0
  | 1 => .mode1
  | _ => .mode2

/-- The slew step of a transaction: a mode-2 one runs at step 2 while CCB_CFG.SLEW reads 3 (R546). -/
def slewAt (s : State) (r : CardRate) : Nat := if r = .mode2 ∧ s.cards.slew = 3 then 2 else s.cards.slew

/-- Its edge time, 10 % to 90 % into 15 pF, in tenths of a nanosecond. -/
def edgeTime (s : State) (r : CardRate) : Nat := [10, 20, 35, 70].getD (slewAt s r) 0

/-! ### CRC7 and CRC16 (R418, R426) -/

/-- CRC7, polynomial x^7 + x^3 + 1, of the low `n` bits of a number, the highest first, from `c`. -/
def crc7 (v : Nat) : Nat → BitVec 7 → BitVec 7
  | 0, c => c
  | n + 1, c => crc7 v n (if c.getLsbD 6 != v.testBit n then (c <<< 1) ^^^ 0x09 else c <<< 1)

/-- CRC16 of bits, initial value 0. -/
def crc16Bits (bits : List Bool) : BitVec 16 :=
  bits.foldl (fun c b => crc16Bit (c ^^^ (if b then 0x8000 else 0))) 0

/-! ### Frames (R418) -/

/-- A 48-bit frame: start bit 0, the direction bit, opcode, address, 30 bits, CRC7 and the end bit. -/
def cardFrame (dir : Bool) (op : BitVec 5) (addr : Nat) (arg : BitVec 30) : BitVec 48 :=
  let v := bit dir * 2 ^ 38 + op.toNat * 2 ^ 33 + addr % 8 * 2 ^ 30 + arg.toNat
  BitVec.ofNat 48 (v * 2 ^ 8 + (crc7 v 39 0).toNat * 2 + 1)

/-- A command of the module: direction bit 1. -/
def cardCommand (op : BitVec 5) (addr : Nat) (arg : Nat) : BitVec 48 := cardFrame true op addr (BitVec.ofNat 30 arg)

/-- The command set (R419). -/
def opResetAll : BitVec 5 := 0x00
def opAllIdent : BitVec 5 := 0x01
def opSetRca : BitVec 5 := 0x02
def opPollStatus : BitVec 5 := 0x03
def opAttach : BitVec 5 := 0x04
def opSwitch : BitVec 5 := 0x05
def opReadPattern : BitVec 5 := 0x06
def opReadRun : BitVec 5 := 0x08
def opWriteRun : BitVec 5 := 0x09
def opEndXfer : BitVec 5 := 0x0A

/-- A command that a card answers with a short response; 0x07 and 0x0B to 0x1F are reserved. -/
def answersShort (op : BitVec 5) : Bool := (decide (2 ≤ op.toNat) && decide (op.toNat ≤ 0x0A)) && op != 0x07

/-- READ_RUN's and WRITE_RUN's argument: the first block and the count, 0 for a run that END_XFER ends. -/
def runArg (first count : Nat) : Nat := first % 2 ^ 19 * 2 ^ 10 + (if count < 1024 then count else 0)

/-- The status word of a short response that echoes the opcode and the address under a right CRC7. -/
def shortStatus (op : BitVec 5) (addr : Nat) (w : BitVec 48) : Option (BitVec 30) :=
  let st := w.extractLsb' 8 30
  if w == cardFrame false op addr st then some st else none

/-- An answer, or the answer to the repeated command (R421). -/
def firstAnswer (op : BitVec 5) (addr : Nat) (answers : List (Option (BitVec 48))) : Option (BitVec 30) :=
  (answers.take 2).findSome? fun a => a.bind (shortStatus op addr)

/-- LAST_ERR of two attempts that failed: 2 when a response came with a wrong CRC7, else 1 (R445). -/
def answerError (answers : List (Option (BitVec 48))) : Nat := if (answers.take 2).any (fun a => a.isSome) then 2 else 1

/-! ### The status word (R420) -/

def statusState (w : BitVec 30) : Nat := (w.extractLsb' 27 3).toNat
def statusMode (w : BitVec 30) : Nat := (w.extractLsb' 25 2).toNat
def statusSlot (w : BitVec 30) : Nat := (w.extractLsb' 23 2).toNat
def statusCmdCrcErr (w : BitVec 30) : Bool := w.getLsbD 22
def statusAddrErr (w : BitVec 30) : Bool := w.getLsbD 21
def statusProgErr (w : BitVec 30) : Bool := w.getLsbD 20
def statusTagErr (w : BitVec 30) : Bool := w.getLsbD 19
def statusLastBlock (w : BitVec 30) : Nat := (w.extractLsb' 0 19).toNat

/-! ### The identity response (R418, R423) -/

/-- Bits 127 to 0 of an identity response. -/
def identityOf (w : BitVec 136) : BitVec 128 := w.extractLsb' 0 128

/-- The identity carries its CRC7 over bits 127 to 8. -/
def identityCrcOk (i : BitVec 128) : Bool := crc7 (i.toNat / 256) 120 0 == i.extractLsb' 1 7

/-- The response has its form and echoes ALL_IDENT; its CRC7, vendor 0x1D5F and product 0xC256 are right. -/
def identityOk (w : BitVec 136) : Bool :=
  let i := identityOf w
  w.extractLsb' 128 8 == 0x02 && i.getLsbD 0 && identityCrcOk i && i.extractLsb' 112 16 == 0x1D5F && i.extractLsb' 96 16 == 0xC256

/-! ### Data blocks (R425, R426) -/

/-- The bits that line `k` carries of bytes: with four lines a bit of the high nibble, then of the low one; with one, each
byte's eight, the highest first. -/
def lineBits (lines k : Nat) (bs : Bytes) : List Bool :=
  bs.flatMap fun b => if lines = 4 then [b.getLsbD (4 + k), b.getLsbD k] else (List.range 8).map fun j => b.getLsbD (7 - j)

/-- The CRC16 of each active line, over the tag and the data. -/
def lineCrcs (lines : Nat) (tag : BitVec 32) (data : Bytes) : List (BitVec 16) :=
  (List.range lines).map fun k => crc16Bits (lineBits lines k (beBytes 4 tag.toNat ++ data))

/-- The tag of a block at a place in its run. -/
def blockTag (block place : Nat) : BitVec 32 := BitVec.ofNat 32 (block % 2 ^ 19 * 2 ^ 13 + place % 2 ^ 13)

/-- The block that the module frames at a place in a run. -/
def framedBlock (rate : CardRate) (first place : Nat) (data : Bytes) : CardBlock :=
  let tag := blockTag (first + place) place
  { tag := tag, data := data, crcs := lineCrcs (cardLines rate) tag data }

/-- The bytes of a run in its blocks, the last one filled with zeros (log entry 196). -/
def framedRun (rate : CardRate) (first : Nat) (bytes : Bytes) : List CardBlock :=
  (List.range ((bytes.length + 511) / 512)).map fun k =>
    framedBlock rate first k (slice_ (bytes ++ zeros 511) (512 * k) 512)

/-- A received block has the tag of its place and a right CRC16 on every line. -/
def blockOk (rate : CardRate) (block place : Nat) (b : CardBlock) : Bool :=
  b.tag == blockTag block place && b.crcs == lineCrcs (cardLines rate) b.tag b.data

/-- A block of a run that began at `first` failed and its repeat, a read of its own, failed too (log entry 196). -/
def rereadFails (rate : CardRate) (first : Nat) (r : CardReread) : Bool :=
  !blockOk rate r.block (r.block - first) r.first && !blockOk rate r.block 0 r.again

/-- Byte `i` of the pattern block. -/
def patternByte (i : Nat) : Byte := if i < 4 then (ascii "AQSW").getD i 0 else BitVec.ofNat 8 (17 * i)

/-- The pattern block passes: tag zero, a right CRC16 on each line, and every byte (R425). -/
def patternOk (b : CardBlock) : Bool :=
  b.tag == 0 && b.crcs == lineCrcs 4 b.tag b.data && b.data == (List.range 64).map patternByte

/-- A run of `n` blocks is accepted: 0110 takes a block, 1001 has it repeated once, anything else aborts (R426). -/
def acksOk : Nat → List (BitVec 4) → Bool
  | 0, _ => true
  | _ + 1, [] => false
  | n + 1, a :: l =>
    if a = 0b0110 then acksOk n l
    else if a = 0b1001 then (match l with | b :: l => b == 0b0110 && acksOk n l | [] => false)
    else false

/-- The blocks that go over the bus: one that the card answers with 1001 goes twice, and nothing follows an abort. -/
def sentBlocks : List CardBlock → List (BitVec 4) → List CardBlock
  | [], _ => []
  | b :: _, [] => [b]
  | b :: l, a :: as =>
    if a = 0b0110 then b :: sentBlocks l as
    else if a = 0b1001 then (match as with
      | x :: as => if x = 0b0110 then b :: b :: sentBlocks l as else [b, b]
      | [] => [b, b])
    else [b]

/-- The answers end after 0110: the card still holds CDAT0 low. -/
def endsBusy (n : Nat) (acks : List (BitVec 4)) : Bool := !acksOk n acks && acks.getLastD 0b0110 == 0b0110

/-! ### The record layer (R431 to R433) -/

/-- A place on a card: the record type, the first blocks of copies A and B, and the extent in blocks (R431). -/
structure CardPlace where
  typ : Nat
  blockA : Nat
  blockB : Nat
  extent : Nat

def sharePlace (r : Nat) : CardPlace := { typ := 1, blockA := 2 + 12 * r, blockB := 8 + 12 * r, extent := 6 }
def recoveryPlace : CardPlace := { typ := 2, blockA := 98, blockB := 24674, extent := 24576 }
def imagePlace : CardPlace := { typ := 3, blockA := 49250, blockB := 180322, extent := 131072 }

/-- The payload fits the extent beside its header. -/
def fitsPlace (p : CardPlace) (n : Nat) : Bool := decide (64 + n ≤ 512 * p.extent)

/-- The 64-byte header of a copy (R432). -/
def copyHeader (p : CardPlace) (seq : Nat) (payload : Bytes) : Bytes :=
  ascii "AQCR" ++ leBytes 1 p.typ ++ zeros 3 ++ leBytes 8 seq ++ leBytes 4 payload.length ++ zeros 12 ++ sha3_256 payload

/-- SEQ in a copy's header. -/
def copySeq (h : Bytes) : Nat := leNat (slice_ h 8 8)

/-- A copy is valid: magic and type of its place, a length that fits, and its hash (R432). -/
def copyOk (p : CardPlace) (h payload : Bytes) : Bool :=
  h.take 5 == ascii "AQCR" ++ leBytes 1 p.typ && leNat (slice_ h 16 4) == payload.length && fitsPlace p payload.length
    && h.drop 32 == sha3_256 payload

/-- The record of two copies: the valid one with the higher SEQ (R432). -/
def cardRecordOf {α : Type} (p : CardPlace) (bytes : α → Bytes) (c : Option (CardCopy α) × Option (CardCopy α)) : Option (Stored α) :=
  let valid (x : Option (CardCopy α)) : Option (CardCopy α) := x.filter fun y => copyOk p y.header (bytes y.payload)
  let kept (b : Bool) (y : CardCopy α) : Stored α := { copyB := b, seq := copySeq y.header, payload := y.payload }
  match valid c.1, valid c.2 with
  | some a, some b => some (if copySeq a.header < copySeq b.header then kept true b else kept false a)
  | some a, none => some (kept false a)
  | none, some b => some (kept true b)
  | none, none => none

/-- An update goes to the copy that does not hold the record, with SEQ one higher (R433); a place without a record takes copy
A and SEQ 1 (log entry 128). -/
def nextStored {α : Type} (old : Option (Stored α)) (payload : α) : Stored α :=
  match old with
  | some r => { copyB := !r.copyB, seq := r.seq + 1, payload := payload }
  | none => { copyB := false, seq := 1, payload := payload }

/-- A copy of the card header (R431). -/
def cardHeader : Bytes := ascii "AQCC" ++ leBytes 2 1 ++ zeros 506
def headerOk (b : Bytes) : Bool := b == cardHeader

/-! ### Payloads (R434, R436, R438, R455) -/

/-- The 2,785 bytes of a share record. -/
def shareRecordBytes (r : ShareRecord) : Bytes :=
  leBytes 16 r.setId ++ leBytes 1 r.m ++ leBytes 1 r.n ++ leBytes 1 r.x ++ zeros 1 ++ leBytes 8 r.splitSerial.toNat
    ++ leBytes 4 r.seqAtSplit.toNat ++ r.value ++ r.owner ++ r.tag

/-- The 7,449 bytes of a ceremony block. -/
def ceremonyBytes (b : CeremonyBlock) : Bytes := b.front ++ b.newOwner ++ b.signature

/-- The bytes of a recovery image. -/
def recoveryBytes (r : RecoveryImage) : Bytes :=
  r.front ++ r.firmware ++ r.firmwareSig.bytes ++ draftFile r.draft ++ (match r.ceremony with | some b => ceremonyBytes b | none => [])

/-- The bytes of a slice image. -/
def imageBytes (m : SliceImage) : Bytes :=
  m.header ++ identityBytes m.source ++ m.ciphertext ++ m.ephemeral ++ m.body ++ m.tag ++ m.signature

end Sys2Proof.Machine
end

