-- ==== Sys2Proof/Machine/Cards.lean ====
section
/-! DEFINITION. Custody cards, recovery images and ceremonies (R414 to R446). -/

namespace Sys2Proof.Machine

/-! ### Slots (R415, R416, R421, R430) -/

/-- The steward works the card bus (R444). -/
def cardsRun (s : State) : Bool := !(s.mode.base == .dormant) && !s.mode.stewardLost

def cardOf (s : State) (c : CardSlot) : CardState := s.cards.slots[c.val]

/-- A slot that waits for power: its card is neither identified nor given up, nor in the 10 ms of R425; outside the Wake-only
plan also a card that was identified before its power went off (R416, R422). -/
def wantsPower (wakeOnly : Bool) (c : CardState) : Bool :=
  c.present && !c.powered && !c.failed && !c.duplicate && (if c.identified then !wakeOnly else !c.speedLimit || c.waited)

/-- In the 10 ms of R425. -/
def inFallback (c : CardState) : Bool :=
  c.present && !c.powered && c.speedLimit && !c.waited && !c.identified && !c.failed && !c.duplicate

/-- A slot whose powered card waits for its identification, the first or a renewed one. -/
def awaitsIdent (x : CardState) : Bool := x.present && x.powered && (!x.identified || x.stale) && !x.failed && !x.duplicate

/-- The slot has the bus power of R18 and its card is not done: it is not identified and scanned, holds busy, or is in the
10 ms of R425 after which it is powered again. -/
def inUse (c : CardState) : Bool := (c.powered && (awaitsIdent c || c.found.isSome || c.busy)) || inFallback c

/-- A slot's power goes off; an identified card stays identified (R416). -/
def releaseCard (c : CardState) : CardState :=
  if c.powered then { c with powered := false, phase := 0, stale := c.identified } else c

/-- The Wake-only plan powers one slot at a time (R18). -/
def oneSlot (s : State) : Bool := s.power.plan == .wakeOnly

/-- Powers the slots that wait; in the Wake-only plan one slot at a time, in slot order, once no slot is in use (R18, R415,
R416). -/
def powerSlots (s : State) : State :=
  if !cardsRun s then s
  else
    let want := (fins 4).filter fun c => wantsPower (oneSlot s) (cardOf s c)
    let on (s : State) (c : CardSlot) : State := modCard c (fun x => { x with powered := true, waited := false }) s
    if oneSlot s then
      if s.cards.slots.toList.any inUse || want.isEmpty then s
      else (want.take 1).foldl on { s with cards := { s.cards with slots := s.cards.slots.map releaseCard } }
    else want.foldl on s

/-- What a slot keeps when its card is given up or goes: the pins, PRESENT, SPEED_LIMIT and LAST_ERR. -/
def dropCard (c : CardState) : CardState :=
  { cdet := c.cdet, present := c.present, cwp := c.cwp, speedLimit := c.speedLimit, lastErr := c.lastErr }

/-- Sets bits of CCB_EVENTS. -/
def cardEvents (inserted failed removed : BitVec 4) (s : State) : State :=
  { s with cards := { s.cards with inserted := s.cards.inserted ||| inserted, failedEv := s.cards.failedEv ||| failed, removedInTransfer := s.cards.removedInTransfer ||| removed } }

def slotBit (c : CardSlot) : BitVec 4 := BitVec.ofNat 4 (2 ^ c.val)

/-- A card is marked FAILED and powered off (R415, R421, R423, R427). -/
def failCard (c : CardSlot) (ev err : Nat) (s : State) : State :=
  let s := modCard c (fun x => { dropCard x with failed := true, lastErr := err }) s
  powerSlots (raise ev (detailOf 0 c.val 0 0 0) (cardEvents 0 (slotBit c) 0 s))

/-- Cards marked DUPLICATE and powered off (R424). -/
def markDuplicate (c : CardSlot) (who : List CardSlot) (s : State) : State :=
  let s := who.foldl (fun s k => modCard k (fun x => { dropCard x with duplicate := true, lastErr := 9 }) s) s
  powerSlots (raise 0x10B (detailOf (who.map fun k => 2 ^ k.val).sum c.val 5 0 0) s)

/-- Some card holds CDAT0 low, so no data moves (R427). -/
def busBusy (s : State) : Bool := s.cards.slots.toList.any fun c => c.busy

/-- CARD_INSERT (R415). -/
def execCardInsert (c : CardSlot) (s : State) : Host.Outcome State Fault Refusal :=
  .next (
    if (cardOf s c).present then s
    else
      let s := modCard c (fun x => { x with cdet := true, present := !(s.mode.base == .dormant) }) s
      powerSlots s)

/-! ### Identification (R422 to R425) -/

/-- A command frame on CCMD. -/
def sendCard (rate : CardRate) (op : BitVec 5) (addr arg : Nat) (s : State) : State :=
  emit (.cardFrame rate (cardCommand op addr arg)) s

/-- A frame to a slot's card, at its mode (R417). -/
def sendTo (c : CardSlot) (op : BitVec 5) (arg : Nat) (s : State) : State :=
  sendCard (rateOf (cardOf s c).mode) op (cardOf s c).addr arg s

/-- ATTACH: one card is attached at a time (R419). -/
def attachCard (c : CardSlot) (s : State) : State :=
  if (cardOf s c).phase == 2 then s
  else
    let s := (fins 4).foldl (fun s k => modCard k (fun x => { x with phase := min x.phase 1 }) s) s
    sendTo c opAttach 0 (modCard c (fun x => { x with phase := 2 }) s)

/-- A read of `n` blocks; END_XFER ends a run that its count does not (R419). -/
def readRun (c : CardSlot) (first n : Nat) (s : State) : State :=
  let s := sendTo c opReadRun (runArg first n) s
  if n < 1024 then s else sendTo c opEndXfer 0 s

/-- RESET_ALL goes out when no powered card on the bus has an address: every card is being identified afresh (R419, R422). -/
def resetAll (s : State) : State :=
  if s.cards.slots.toList.any fun c => c.powered && c.identified && !c.stale then s else sendCard .ident opResetAll 0 0 s

/-- The lowest free address from 1 to 4. -/
def freeAddress (s : State) : Nat :=
  ([1, 2, 3, 4].find? fun a => !(s.cards.slots.toList.any fun c => c.identified && c.addr == a)).getD 4

/-- The default mode of STRAP_CARDSPD (R21, R425). -/
def defaultCardMode (s : State) : Nat := match s.mode.straps with | some t => bit t.cardspd | none => 0

/-- The first blocks of the scan's runs, with their lengths: blocks 0 to 97, then each copy of the two long records (R433;
log entry 129). -/
def scanRuns : List (Nat × Nat) :=
  [(0, 98), (recoveryPlace.blockA, recoveryPlace.extent), (recoveryPlace.blockB, recoveryPlace.extent),
    (imagePlace.blockA, imagePlace.extent), (imagePlace.blockB, imagePlace.extent)]

/-- The scan's reads, with a single read of each block that came wrong (R426). -/
def scanCard (c : CardSlot) (d : CardData) (s : State) : State :=
  d.rereads.foldl (fun s r => readRun c r.block 1 s) (scanRuns.foldl (fun s r => readRun c r.1 r.2 s) (attachCard c s))

/-- The place of the first block that stayed wrong in the run over block `b`, when it comes at or before `b + n`: the copy was
not read whole. -/
def copyUnread (rate : CardRate) (d : CardData) (b n : Nat) : Bool :=
  scanRuns.any fun r => decide (r.1 ≤ b ∧ b < r.1 + r.2) &&
    d.rereads.any fun q => decide (r.1 ≤ q.block ∧ q.block < b + n) && rereadFails rate r.1 q

/-- The copies of a place that the scan read. -/
def readCopies {α : Type} (rate : CardRate) (d : CardData) (p : CardPlace) (c : Option (CardCopy α) × Option (CardCopy α)) :
    Option (CardCopy α) × Option (CardCopy α) :=
  (if copyUnread rate d p.blockA p.extent then none else c.1, if copyUnread rate d p.blockB p.extent then none else c.2)

/-- The records that a scan finds (R432, R433). -/
def scannedShares (rate : CardRate) (d : CardData) : List (Option (Stored ShareRecord)) :=
  (List.range 8).map fun r =>
    cardRecordOf (sharePlace r) shareRecordBytes (readCopies rate d (sharePlace r) (d.shares.getD r (none, none)))

/-- Step 7 of R422 ends: the records of a card in its mode are scanned; in the Wake-only plan its slot is then released
(R416). A read that failed twice leaves LAST_ERR 3 (R426). -/
def acceptCard (c : CardSlot) (d : CardData) (mode : Nat) (s : State) : State :=
  let rate := rateOf mode
  let failed := d.rereads.any fun q => scanRuns.any fun r => decide (r.1 ≤ q.block ∧ q.block < r.1 + r.2) && rereadFails rate r.1 q
  let take (x : CardState) : CardState :=
    { x with
      found := none
      locked := d.tabLocked
      cwp := d.tabLocked
      blank := !(headerOk d.headers.1 || headerOk d.headers.2)
      mode := mode
      lastErr := if failed then 3 else x.lastErr
      shares := scannedShares rate d
      image := cardRecordOf imagePlace imageBytes (readCopies rate d imagePlace d.image)
      recovery := cardRecordOf recoveryPlace recoveryBytes (readCopies rate d recoveryPlace d.recovery) }
  let s := scanCard c d (modCard c take s)
  let s := if oneSlot s then modCard c releaseCard s else s
  powerSlots (raise 0x108 (detailOf 0 c.val 0 0 0) (cardEvents (slotBit c) 0 0 s))

/-- Identified cards with this identity, and the card itself. -/
def sameIdentity (s : State) (c : CardSlot) (d : CardData) : List CardSlot :=
  (fins 4).filter fun k => k == c ||
    ((cardOf s k).present && (cardOf s k).identified && (cardOf s k).identity == identityOf d.identity)

/-- The cards of the sequence that runs: those identified in it and those that still await it (R424; log entry 26). -/
def inSequence (s : State) (c : CardSlot) : List CardSlot :=
  (fins 4).filter fun k => k == c || (cardOf s k).found.isSome || awaitsIdent (cardOf s k)

/-- The switch to mode 2 is answered and the pattern block passes (R425). -/
def switchOk (addr : Nat) (d : CardData) : Bool := (d.switch.bind (shortStatus opSwitch addr)).isSome && patternOk d.pattern

/-- The card is attached, sent to mode 2 at its own, and its pattern read at mode 2 (R425). -/
def sendSwitch (c : CardSlot) (s : State) : State :=
  let s := sendTo c opSwitch 2 (attachCard c s)
  sendCard .mode2 opReadPattern (cardOf s c).addr 0 s

/-- Step 7 for a card identified in the sequence: its default mode, one try of mode 2 unless an earlier one failed, its scan. -/
def switchCard (c : CardSlot) (d : CardData) (s : State) : State :=
  let mode := (cardOf s c).mode
  if (cardOf s c).speedLimit then acceptCard c d mode (attachCard c s)
  else
    let s := sendSwitch c s
    if switchOk (cardOf s c).addr d then acceptCard c d 2 s
    else
      -- power goes off for 10 ms, and SWITCH_FALLBACK identifies the card again
      raise 0x10A (detailOf 0 c.val 0 0 0) (modCard c (fun x => { dropCard x with speedLimit := true, lastErr := 8 }) s)

/-- Once no card awaits its identification, ALL_IDENT draws no response, and step 7 takes the new cards (R422). -/
def endSequence (s : State) : State :=
  if s.cards.slots.toList.any awaitsIdent || !(s.cards.slots.toList.any fun c => c.found.isSome) then s
  else
    (fins 4).foldl (fun s c => match (cardOf s c).found with | some d => switchCard c d s | none => s)
      (sendCard .ident opAllIdent 0 0 s)

/-- The slot that the status word names, with the address just given: a duplicate, or a card for step 7 (R422 step 5, R424). -/
def identifySlot (addr : Nat) (c : CardSlot) (d : CardData) (status : BitVec 30) (s : State) : State :=
  if decide (1 < (sameIdentity s c d).length) then
    markDuplicate c ((fins 4).filter fun k => (sameIdentity s c d).contains k || (cardOf s k).found.isSome) s
  else
    modCard c (fun x => { x with
      identified := true
      stale := false
      found := some d
      addr := addr
      identity := identityOf d.identity
      mode := defaultCardMode s
      phase := 1
      status := status }) s

/-- One round of R422's sequence: RESET_ALL where it is due, ALL_IDENT, SET_RCA, POLL_STATUS. A command whose answer is wrong
goes out again (R421). -/
def identify (c : CardSlot) (d : CardData) (s : State) : State :=
  let s := sendCard .ident opAllIdent 0 0 (resetAll s)
  if !identityOk d.identity then failCard c 0x10B 2 s
  else
    let addr := freeAddress s
    let s := sendCard .ident opSetRca 0 addr s
    let s := if (firstAnswer opSetRca addr (d.rca.take 1)).isSome then s else sendCard .ident opSetRca 0 addr s
    if (firstAnswer opSetRca addr d.rca).isNone then failCard c 0x10B (answerError d.rca) s
    else
      let s := sendCard .ident opPollStatus addr 0 s
      let take (st : BitVec 30) (s : State) : State :=
        let k : CardSlot := ⟨statusSlot st % 4, Nat.mod_lt _ (by decide)⟩
        if awaitsIdent (cardOf s k) then identifySlot addr k d st s else s
      match d.poll with
      | some w :: _ =>
        match shortStatus opPollStatus addr w with
        | none => markDuplicate c (inSequence s c) s
        | some st => take st s
      | _ =>
        let s := sendCard .ident opPollStatus addr 0 s
        match firstAnswer opPollStatus addr d.poll with
        | none => failCard c 0x10B (answerError d.poll) s
        | some st => take st s

/-- A card that was identified before its power went off is identified again: with another identity the first card is
removed and a new one inserted (R416). -/
def identifyAgain (c : CardSlot) (d : CardData) (s : State) : State :=
  let x := cardOf s c
  if identityOf d.identity == x.identity then identify c d (modCard c (fun x => { dropCard x with powered := true }) s)
  else
    identify c d (raise 0x109 (detailOf 0 c.val 0 0 0)
      (modCard c (fun x => { cdet := x.cdet, present := x.present, cwp := x.cwp, powered := true : CardState }) s))

/-- A slot whose power was released in the Wake-only plan, while no slot is in use (R416). -/
def isReleased (s : State) (c : CardSlot) : Bool :=
  oneSlot s && cardUsable (cardOf s c) && !(cardOf s c).powered && !(s.cards.slots.toList.any inUse)

/-- CARD_IDENTIFY (R422): of a powered card that awaits it, while no card is busy (R444), or of a released card that the
module needs again (R416). -/
def execCardIdentify (c : CardSlot) (card : CardData) (s : State) : Host.Outcome State Fault Refusal :=
  .next (
    if !cardsRun s || busBusy s then s
    else if awaitsIdent (cardOf s c) then
      endSequence (if (cardOf s c).stale then identifyAgain c card s else identify c card s)
    else if isReleased s c then
      endSequence (identifyAgain c card { s with cards := { s.cards with slots := s.cards.slots.map releaseCard } })
    else s)

/-- SWITCH_FALLBACK (R425): the slot has power again and the card is identified at its default mode; where R18 leaves the
slot no power now, it waits for it (R415). -/
def execSwitchFallback (c : CardSlot) (card : CardData) (s : State) : Host.Outcome State Fault Refusal :=
  .next (
    if cardsRun s && inFallback (cardOf s c) && !busBusy s then
      if oneSlot s && (fins 4).any (fun k => k != c && inUse (cardOf s k)) then modCard c (fun x => { x with waited := true }) s
      else
        let s := if oneSlot s then { s with cards := { s.cards with slots := s.cards.slots.map releaseCard } } else s
        endSequence (identify c card (modCard c (fun x => { x with powered := true }) s))
    else s)

/-- CARD_REMOVE (R430): a transfer, a command or busy is abandoned, and a quorum's evaluation fails (R444). -/
def execCardRemove (r : CardRemoval) (s : State) : Host.Outcome State Fault Refusal :=
  let c := r.slot
  let x := cardOf s c
  let moving := x.busy || (x.powered && r.during == .transfer)
  let gone := modCard c (fun _ => { lastErr := if moving then 5 else 0 : CardState }) s
  .next (
    if !x.present then gone
    else
      let s := raise 0x109 (detailOf 0 c.val (if moving then 4 else 0) 0 0) (cardEvents 0 0 (if moving then slotBit c else 0) gone)
      let s := if r.during == .quorum && cardUsable x then { s with cards := { s.cards with quorumCut := true } } else s
      endSequence (powerSlots s))

/-- CARD_RESPONSE_TIMEOUT (R421): a command that a card answers is repeated once; when that fails too, the card is
FAILED. -/
def execCardResponseTimeout (c : CardSlot) (retry : CardRetry) (s : State) : Host.Outcome State Fault Refusal :=
  let x := cardOf s c
  .next (
    if cardsRun s && x.present && x.powered && answersShort retry.op then
      let s := sendTo c retry.op retry.arg.toNat s
      match retry.repeated.bind (shortStatus retry.op x.addr) with
      | some st => modCard c (fun x => { x with status := st }) s
      | none => endSequence (failCard c 0x10B (answerError [retry.repeated]) s)
    else s)

/-! ### Use of identified cards (R416, R435) -/

/-- The card's slot has power: a card identified before its power went off is identified again, at its address and in its mode
(R416; log entry 66). In the Wake-only plan every other slot is off. -/
def reachCard (c : CardSlot) (s : State) : State :=
  let x := cardOf s c
  if !x.stale then s
  else
    let s := if oneSlot s then { s with cards := { s.cards with slots := s.cards.slots.map releaseCard } } else s
    let s := modCard c (fun x => { x with powered := true, stale := false, phase := 1, mode := defaultCardMode s }) s
    let s := sendCard .ident opAllIdent 0 0 (if oneSlot s then sendCard .ident opResetAll 0 0 s else s)
    let s := sendCard .ident opAllIdent 0 0 (sendCard .ident opPollStatus x.addr 0 (sendCard .ident opSetRca 0 x.addr s))
    if x.mode = 2 then modCard c (fun y => { y with mode := 2 }) (sendSwitch c s) else s

/-- After its use a slot's power is released in the Wake-only plan, unless the card holds busy (R416). -/
def leaveCard (c : CardSlot) (s : State) : State :=
  if oneSlot s && !(cardOf s c).busy then powerSlots (modCard c releaseCard s) else s

/-- Copy `b` of a record on a card is read, `n` bytes beside its header. -/
def readCopy (c : CardSlot) (p : CardPlace) (b : Bool) (n : Nat) (s : State) : State :=
  leaveCard c (readRun c (if b then p.blockB else p.blockA) ((64 + n + 511) / 512) (attachCard c (reachCard c s)))

/-- A quorum's evaluation ends: it read each share record of each card afresh, one card at a time, unless a card held the
data line (R416, R427). -/
def readQuorum (s : State) : State :=
  let read (s : State) (c : CardSlot) : State :=
    if cardUsable (cardOf s c) && !(busBusy s) then leaveCard c (readRun c 2 96 (attachCard c (reachCard c s))) else s
  (fins 4).foldl read { s with cards := { s.cards with quorumCut := false } }

/-! ### Writing (R427, R429, R433) -/

/-- The tab stands at lock: LOCKED, LAST_ERR and event 0x10D (R429). -/
def lockSlot (c : CardSlot) (s : State) : State :=
  raise 0x10D (detailOf 0 c.val 0 0 0) (modCard c (fun x => { x with locked := true, lastErr := 6 }) s)

/-- The record does not fit: LAST_ERR 7 (R445). -/
def noRoom (c : CardSlot) (s : State) : State := modCard c (fun x => { x with lastErr := 7 }) s

/-- What the `k`-th card answers to its write: nothing where the list ends. -/
def writeOf (ws : List CardWrite) (k : Nat) : CardWrite := ws.getD k { acks := [], readBackOk := false }

/-- Blocks of a copy with this payload. -/
def copyBlocks (n : Nat) : Nat := (64 + n + 511) / 512

/-- A run that writes bytes, as the card answers it; END_XFER ends one that its count does not, or that is aborted (R419,
R426). -/
def writeRun (c : CardSlot) (first : Nat) (bytes : Bytes) (acks : List (BitVec 4)) (s : State) : State :=
  let rate := rateOf (cardOf s c).mode
  let blocks := framedRun rate first bytes
  let n := blocks.length
  let s := emit (.cardBlocks c rate (sentBlocks blocks acks)) (sendTo c opWriteRun (runArg first n) s)
  if n < 1024 && acksOk n acks then s else sendTo c opEndXfer 0 s

/-- The answers to a blank card's two header blocks come first; these are the rest. -/
def afterHeader : Nat → List (BitVec 4) → List (BitVec 4)
  | 0, l => l
  | _ + 1, [] => []
  | n + 1, a :: l => if a = 0b1001 then afterHeader n (l.drop 1) else afterHeader n l

/-- The runs that write a copy and read it back: on a blank card its header copies first (R431, R433). -/
def sendCopy (c : CardSlot) (first : Nat) (bytes : Bytes) (acks : List (BitVec 4)) (s : State) : State :=
  let s := attachCard c s
  let blank := (cardOf s c).blank
  let s := if blank then writeRun c 0 (cardHeader ++ cardHeader) acks s else s
  if blank && !acksOk 2 (acks.take (acks.length - (afterHeader 2 acks).length)) then s
  else
    let acks := if blank then afterHeader 2 acks else acks
    let n := copyBlocks (bytes.length - 64)
    let s := writeRun c first bytes acks s
    if acksOk n acks then readRun c first n s else s

/-- A record is written to its place, in the copy that does not hold it, and read back. The flag says that it is durable; a
write that fails leaves the record as it was (log entry 27). No transfer starts while a card is busy (R427). -/
def writeCard {α : Type} (c : CardSlot) (p : CardPlace) (new : Stored α) (payload : Bytes) (w : CardWrite)
    (f : CardState → CardState) (s : State) : State × Bool :=
  if busBusy s then (s, false)
  else if (cardOf s c).cwp then (lockSlot c s, false)
  else
    let n := copyBlocks payload.length + (if (cardOf s c).blank then 2 else 0)
    let s := sendCopy c (if new.copyB then p.blockB else p.blockA) (copyHeader p new.seq payload ++ payload) w.acks (reachCard c s)
    if acksOk n w.acks && w.readBackOk then
      (leaveCard c (modCard c (fun x => { f x with blank := false, locked := false }) s), true)
    else (leaveCard c (modCard c (fun x => { x with busy := endsBusy n w.acks, lastErr := 3 }) s), false)

/-- CARD_BUSY_RELEASE (R427). -/
def execCardBusyRelease (c : CardSlot) (s : State) : Host.Outcome State Fault Refusal :=
  .next (if (cardOf s c).busy then leaveCard c (modCard c (fun x => { x with busy := false }) s) else s)

/-- BUSY_TIMEOUT (R427). -/
def execBusyTimeout (c : CardSlot) (s : State) : Host.Outcome State Fault Refusal :=
  .next (if (cardOf s c).busy && cardsRun s then endSequence (failCard c 0x10C 4 s) else s)

/-- CWP_LOCK (R429): the tab moves to lock; during a write END_XFER is sent and nothing more is written. -/
def execCwpLock (c : CardSlot) (s : State) : Host.Outcome State Fault Refusal :=
  let x := cardOf s c
  let s' := modCard c (fun x => { x with cwp := true }) s
  .next (if !x.present then s else if x.busy && !x.cwp then lockSlot c (sendTo c opEndXfer 0 s') else s')

/-! ### Ceremonies (R438 to R441) -/

/-- The ceremony stops with its error; the module stays in Recovery (R440). -/
def failCeremony (err : Nat) (s : State) : State :=
  raise0 0x10F { s with ceremony := { s.ceremony with state := 6, error := err, ork := [], coeffs := [] } }

/-- The fields of a ceremony block (R438). -/
def cerKind (b : CeremonyBlock) : Nat := (b.front.getD 4 0).toNat
def cerM (b : CeremonyBlock) : Nat := (b.front.getD 5 0).toNat
def cerN (b : CeremonyBlock) : Nat := (b.front.getD 6 0).toNat
def cerSerial (b : CeremonyBlock) : BitVec 64 := BitVec.ofNat 64 (leNat (slice_ b.front 8 8))
def cerSeq (b : CeremonyBlock) : Word := BitVec.ofNat 32 (leNat (slice_ b.front 16 4))

/-- The form of a ceremony block: its magic, its kind, M and N of that kind, its zero bytes, and the owner record that it
carries or not. -/
def ceremonyForm (b : CeremonyBlock) : Bool :=
  let k := cerKind b
  b.front.length == 24 && b.newOwner.length == 2689 && b.signature.length == 4736
    && b.front.take 4 == ascii "AQCE" && b.front.getD 7 0 == 0 && b.front.drop 20 == zeros 4 && 1 ≤ k && k ≤ 5
    && (if k ≤ 3 then 2 ≤ cerM b && cerM b ≤ cerN b && cerN b ≤ 15 else cerM b == 0 && cerN b == 0)
    && ((k == 1 || k == 3) == !(b.newOwner.all fun x => x == 0))

/-- The chest state admits the kind (R439). -/
def kindAdmitted (s : State) (k : Nat) : Bool := if k = 1 ∨ k = 5 then !ownerSet s else ownerSet s

/-- A signature block over `m` under the keys of an owner record, with an ML-DSA context (R86, R391). -/
def blockHolds (owner context m block : Bytes) : Bool :=
  block.drop 4731 == zeros 5 && dsaHolds 3 0 context.length (owner.take 2592) (context ++ m) (slice_ block 8 4627)
    && ecVerifies 2 (owner.drop 2592) (primBytes (.digest 3) [m] 48) (slice_ block 4635 96)

/-- The block's signatures, over SHA3-512 of bytes 0 to 2,712 (R438). -/
def ceremonySigned (s : State) (b : CeremonyBlock) : Bool :=
  let m := sha3_512 (b.front ++ b.newOwner)
  if cerKind b = 5 then true
  else if cerKind b = 1 then blockHolds b.newOwner (ascii "AQCE-OWN") m b.signature
  else ownerRecordOk s && blockHolds s.flash.ownerRecord (ascii "AQCE-OWN") m b.signature

/-- Step 1: the error of the first check that fails, 0 for none. -/
def ceremonyCheck (s : State) (b : CeremonyBlock) : Nat :=
  if !ceremonyForm b then 1
  else if cerSerial b != s.fuses.serial then 2
  else if !kindAdmitted s (cerKind b) then 3
  else if !ceremonySigned s b then 4
  else if cerSeq b != (if cerKind b = 1 ∨ cerKind b = 5 then 0 else ownerSeq s + 1) then 5
  else 0

/-- Step 6, then step 7 unless the module restores in Hold: what the chest takes, and the owner record. -/
def commitCeremony (kind : Nat) (ork owner : Bytes) (seq : Word) (s : State) : State :=
  let s := if s.backup.chest.valid then s else newDeviceRoot s
  let s := writeChest (fun c => { c with
    ownerSet := !(kind == 4), ork := if kind = 4 then [] else ork, ownerDigest := if kind = 4 then [] else sha3_256 owner, seq := seq }) s
  let s := { s with
    flash := { s.flash with ownerRecord := if kind = 4 then s.flash.ownerRecord else owner }
    ceremony := { s.ceremony with state := 5, ork := [], coeffs := [] } }
  raise 0x10E (detailOf kind 0 0x0B 0 0) s

/-- Step 7: Threading, from the recovery image's draft. -/
def endCeremony (s : State) : State := beginThreading s.mode.draftSrc false false 12 s

/-- Step 6 of a ceremony by block. -/
def finishCeremony (b : CeremonyBlock) (s : State) : State :=
  match cerKind b with
  | 2 => endCeremony (commitCeremony 2 s.backup.chest.ork s.flash.ownerRecord (cerSeq b) s)
  | 4 => endCeremony (commitCeremony 4 [] [] (cerSeq b) s)
  | k => endCeremony (commitCeremony k s.ceremony.ork b.newOwner 0 s)

/-- Step 4: a new ORK where the kind asks for one, a new set ID and the sharing polynomials, from instance 16. -/
def drawCeremony (b : CeremonyBlock) (s : State) : State :=
  let k := if cerKind b = 2 then (s.backup.chest.ork, s) else draw inst16 32 s
  let i := draw inst16 16 k.2
  let p := draw inst16 (32 * (cerM b - 1)) i.2
  let s := p.2
  { s with ceremony := { s.ceremony with state := 4, ork := k.1, setId := leNat i.1, coeffs := p.1 } }

/-- Steps 3 to 6. -/
def runCeremony (b : CeremonyBlock) (s : State) : State :=
  let s := { s with ceremony := { s.ceremony with state := 3 } }
  match cerKind b with
  | 1 => drawCeremony b s
  | 5 =>
    match setQuorum s with
    | some (r, k) => endCeremony (commitCeremony 5 k r.owner (r.seqAtSplit + 16777216) (readQuorum s))
    | none => failCeremony 6 (quorumFails (readQuorum s))
  | _ =>
    if quorumStands s then (if cerKind b = 4 then finishCeremony b (readQuorum s) else drawCeremony b (readQuorum s))
    else failCeremony 6 (quorumFails (readQuorum s))

/-- Instance 16 answers the steward's draws (R376). -/
def stewardDraws (s : State) : Bool := s.mode.seeded && instServes s inst16

/-- Step 2: the ceremony waits for seeding, then goes on. -/
def continueCeremony (s : State) : State :=
  match s.ceremony.block with
  | some b => if s.ceremony.state == 2 && stewardDraws s && s.mode.base == .recovery then runCeremony b s else s
  | none => s

/-- Steps 1 and 2. -/
def beginCeremony (b : CeremonyBlock) (s : State) : State :=
  let s := { s with ceremony := { state := 1, kind := cerKind b, m := cerM b, n := cerN b, block := some b } }
  let e := ceremonyCheck s b
  if e = 0 then continueCeremony { s with ceremony := { s.ceremony with state := 2 } } else failCeremony e s

/-- The share a presented card is to take. -/
def nextShare (s : State) (b : CeremonyBlock) : ShareRecord :=
  let x := s.ceremony.written + 1
  let r : ShareRecord :=
    { setId := s.ceremony.setId
      m := cerM b
      n := cerN b
      x := x
      splitSerial := s.fuses.serial
      seqAtSplit := ownerSeq s
      value := shareOf (cerM b) s.ceremony.ork s.ceremony.coeffs x
      owner := if cerKind b = 2 then s.flash.ownerRecord else b.newOwner
      tag := [] }
  { r with tag := setTag s.ceremony.ork r }

/-- The lowest free share slot of a card. -/
def freeShareSlot (c : CardState) : Option Nat := (List.range 8).find? fun r => (c.shares.getD r none).isNone

/-- The card may take a share of the ceremony's set but for its room (R440 step 5). -/
def presentable (s : State) (c : CardState) : Bool :=
  cardUsable c && !c.locked && !((c.shares.filterMap id).any fun r => r.payload.setId == s.ceremony.setId)

/-- The card may take a share of the ceremony's set (R440 step 5). -/
def takesShare (s : State) (c : CardState) : Bool := presentable s c && (freeShareSlot c).isSome

/-- A card's shares with one more in slot `k`. -/
def withShare (k : Nat) (r : Stored ShareRecord) (c : CardState) : CardState :=
  { c with shares := (List.range 8).map fun j => if j = k then some r else c.shares.getD j none }

/-- CEREMONY_SHARE_WRITE (R440 step 5): after the last share the ceremony commits. -/
def execCeremonyShareWrite (c : CardSlot) (written : CardWrite) (s : State) : Host.Outcome State Fault Refusal :=
  .next (match s.ceremony.block with
    | none => s
    | some b =>
      if s.ceremony.state == 4 && s.mode.base == .recovery && cardsRun s && takesShare s (cardOf s c) && !busBusy s then
        let r := nextShare s b
        let k := (freeShareSlot (cardOf s c)).getD 0
        let new := nextStored none r
        let w := writeCard c (sharePlace k) new (shareRecordBytes r) written (withShare k new) s
        if w.2 then
          let s := w.1
          let s := { s with ceremony := { s.ceremony with written := s.ceremony.written + 1 } }
          if cerN b ≤ s.ceremony.written then finishCeremony b s else s
        else w.1
      else if s.ceremony.state == 4 && s.mode.base == .recovery && cardsRun s && presentable s (cardOf s c) then noRoom c s
      else s)

/-- CEREMONY_TIMEOUT (R440): no card accepted for 30 minutes. -/
def execCeremonyTimeout (s : State) : Host.Outcome State Fault Refusal :=
  .next (if s.ceremony.state == 4 && cardsRun s then failCeremony 7 s else s)

/-- CHEST_RESTORE (R441): in Hold with CAUSE 14, once a set stands under its own tag. -/
def execChestRestore (s : State) : Host.Outcome State Fault Refusal :=
  .next (
    if s.mode.base == .hold && s.mode.cause == 14 && !s.backup.chest.valid && cardsRun s && stewardDraws s && !busBusy s then
      match setQuorum s with
      | some (r, k) =>
        commitCeremony 5 k r.owner (r.seqAtSplit + 16777216) (readQuorum { s with ceremony := { state := 3, kind := 5 } })
      | none => readQuorum s
    else s)

/-! ### Recovery images (R436, R437) -/

/-- The flags of a recovery image's header. -/
def imageFlags (r : RecoveryImage) : Nat := leNat (slice_ r.front 8 4)

/-- The header: magic, format, DEVICE, flags, the three lengths, zeros (R436). -/
def recoveryForm (r : RecoveryImage) : Bool :=
  r.front.length == 64 && r.front.take 8 == ascii "AQRI" ++ leBytes 2 1 ++ leBytes 2 0x9640 && decide (imageFlags r < 4)
    && leNat (slice_ r.front 12 4) == r.firmware.length && decide (r.firmware.length ≤ 2097152)
    && leNat (slice_ r.front 16 4) == (draftFile r.draft).length
    && leNat (slice_ r.front 20 4) == (match r.ceremony with | some b => (ceremonyBytes b).length | none => 0)
    && r.ceremony.isSome == (imageFlags r).testBit 1 && r.front.drop 24 == zeros 40 && r.firmwareSig.bytes.length == 4736

/-- The image's form and firmware signature hold. -/
def imageVerifies (r : RecoveryImage) : Bool := recoveryForm r && horsefortVerifies (ascii "AQFW-HF") (r.front ++ r.firmware) r.firmwareSig

/-- The card whose recovery record the module takes: the lowest-numbered slot whose image verifies. -/
def recoveryCard (s : State) : Option CardSlot :=
  (fins 4).find? fun c => cardUsable (cardOf s c) && (match (cardOf s c).recovery with | some r => imageVerifies r.payload | none => false)

/-- Cards are looked at: STRAP_BOOT is 10, or no firmware slot verified. -/
def looksAtCards (s : State) : Bool := bootStrap s == 2 || !s.mode.fwRuns

/-- The image may come from this source. -/
def sourceFits (s : State) (src : RecoverySource) (r : RecoveryImage) : Bool :=
  match src with
  | .port0 => s.draft.upload == recoveryBytes r && (!looksAtCards s || (recoveryCard s).isNone)
  | .card c => looksAtCards s && recoveryCard s == some c && (cardOf s c).recovery.map (fun x => x.payload) == some r && !busBusy s

/-- The image becomes the recovery record of every identified card that is not locked (R436). -/
def copyToCards (r : RecoveryImage) (writes : List CardWrite) (s : State) : State :=
  let cards := (fins 4).filter fun c => cardUsable (cardOf s c) && !(cardOf s c).locked
  cards.zipIdx.foldl (fun s x =>
    let new := nextStored (cardOf s x.1).recovery r
    (writeCard x.1 recoveryPlace new (recoveryBytes r) (writeOf writes x.2) (fun y => { y with recovery := some new }) s).1) s

/-- RECOVERY_IMAGE_VERIFIED (R436): firmware into the slots that failed, copies to cards, then the ceremony or
Threading. -/
def execRecoveryImageVerified (source : RecoverySource) (delivery : RecoveryDelivery) (s : State) :
    Host.Outcome State Fault Refusal :=
  let image := delivery.image
  .next (
    if !(s.mode.base == .recovery) || s.mode.stewardLost || s.ceremony.state != 0 || !imageVerifies image
        || !sourceFits s source image then s
    else
      let src := match source with | .port0 => 2 | .card _ => 3
      let s := { s with
        flash := { s.flash with firmwareA := true, firmwareB := true }
        draft := { s.draft with recovery := some image.draft, upload := [] }
        mode := { s.mode with draftSrc := src } }
      let s := match source with
        | .port0 => s
        | .card c => readCopy c recoveryPlace (((cardOf s c).recovery.map fun r => r.copyB).getD false) (recoveryBytes image).length s
      let s := if (imageFlags image).testBit 0 then copyToCards image delivery.writes s else s
      match image.ceremony with
      | some b => beginCeremony b s
      | none => endCeremony s)

end Sys2Proof.Machine
end

