-- ==== Sys2Proof/Machine/Bobbin.lean ====
section
/-! DEFINITION. The bobbin: start-up, health failures, retries, reseeding and BOBBIN_RESTART (R372 to R388). -/

namespace Sys2Proof.Machine

/-! ### What a failed bobbin refuses (R384) -/

/-- Items, admin commands and challenges that wait and need randomness end with ENTROPY_FAIL. -/
def failWaiting (s : State) : State :=
  if !bobbinFailed s then s
  else
    let s := (s.heddle.items.filter fun i => waiting i && needsRandom s i).foldl (fun s i => failItem .entropyFail i s) s
    let s := (fins 4).foldl (fun s p =>
      match s.ports[p.val].admin.entry with
      | some e => if e.wait == .seed then adminDone p .entropyFail 0 [] s else s
      | none => s) s
    let s := s.life.challenges.foldl (fun s c => emit (.usb c.2.1 0x0030 c.2.2 .entropyFail []) s) s
    settleAfterLeave { s with life := { s.life with challenges := [] } }

/-- A health failure of the bobbin as a whole: RETRY_WAIT, or FAILED after three retries (R382, R383). -/
def bobbinFails (s : State) : State :=
  let s := raise0 0x0E1 (clearInstances s)
  let last := decide (3 ≤ s.bobbin.retries)
  let s := { s with bobbin := { s.bobbin with
    state := if last then .failed else .retryWait
    passed := false
    settled := false
    retesting := false
    byCommand := false
    afterFailure := true } }
  failWaiting (bobbinRestartDone .keyPolicy (if last then raise0 0x0E2 s else s))

/-! ### The start-up sequence (R381) -/

/-- Step 1: the raw conditioning code is latched (R372). -/
def beginSequence (byCommand : Bool) (s : State) : State :=
  { s with bobbin := { s.bobbin with
    state := .starting
    vn := s.flash.conditioning == 1
    live := 0
    settled := false
    passed := false
    retesting := false
    byCommand := byCommand } }

/-- BOBBIN_START (R381): after the steward's boot, with the plan at Idle only or above. -/
def execBobbinStart (s : State) : Host.Outcome State Fault Refusal :=
  .next (
    if s.bobbin.state == .off && s.mode.fwDone && !(s.mode.base == .dormant) && !(s.power.plan == .wakeOnly) then
      beginSequence false s
    else s)

/-- BOBBIN_SETTLED (R381 step 2). -/
def execBobbinSettled (s : State) : Host.Outcome State Fault Refusal :=
  .next (if s.bobbin.state == .starting then { s with bobbin := { s.bobbin with settled := true } } else s)

/-! ### The noise source and its health tests (R372, R373) -/

/-- Raw bits to debiased bits, under code 1 (von Neumann) or 0 (exclusive-or of pairs). -/
def debias (vn : Bool) : List Bool → List Bool
  | a :: b :: r => if vn then (if a == b then debias vn r else a :: debias vn r) else (a != b) :: debias vn r
  | _ => []

/-- Neighbours of a list for which `f` holds. -/
def countPairs {α : Type} (f : α → α → Bool) (xs : List α) : Nat := (xs.zip xs.tail).countP fun x => f x.1 x.2

/-- The longest run of identical bits, after a run of `n` of `b`. -/
def longestRun (b : Bool) (n : Nat) : List Bool → Nat
  | [] => n
  | x :: r => if x == b then longestRun b (n + 1) r else max n (longestRun x 1 r)

/-- How often the first value of a window occurs in it. -/
def firstCount (w : List Bool) : Nat := match w with | b :: _ => w.count b | [] => 0

/-- Cutoffs of the code in use: the adaptive ones are the smallest values that satisfy R373 (log entry 35). -/
def aptCutoff (vn : Bool) : Nat := if vn then 664 else 793
def rctCutoff (vn : Bool) : Nat := if vn then 26 else 41

/-- The test's code in LAST_TEST (R388). -/
def faultCode : PairFault → Nat
  | .alive _ => 1
  | .lock _ => 2
  | .repetition _ => 3
  | .proportion _ => 4
  | .supply _ => 7

/-- What the test saw fails it, under the code in use and the trims of the calibration set (R373, R381 step 3). -/
def pairFails (s : State) (f : PairFault) : Bool :=
  let vn := s.bobbin.vn
  match f with
  | .alive samples => samples.length == 1024 && decide (countPairs (· != ·) samples < s.cal.aliveMin)
  | .lock bins => bins.length == 4096 && decide (s.cal.lockMax < countPairs (· == ·) bins)
  | .repetition raw => decide (rctCutoff vn ≤ longestRun false 0 (debias vn raw))
  | .proportion raw =>
    let w := debias vn raw
    w.length == 1024 && decide (aptCutoff vn ≤ firstCount w)
  | .supply raw => decide ((debias vn raw).length < 16384)

/-- A pair is excluded: event 0x0E0 with the pair and the test; the pending conditioner call starts again (R374). -/
def excludePair (pair : PairId) (test : Nat) (s : State) : State :=
  raise 0x0E0 (detailOf test pair.val 0 0 0)
    { s with bobbin := { s.bobbin with
      live := setBit s.bobbin.live pair.val false, lastTest := test, lastPair := pair.val, calls := s.bobbin.calls + 1 } }

/-! ### The conditioner and seeds (R375, R376) -/

/-- The live pairs in rotating order, from the one whose turn it is (R375). -/
def pairTurns (b : Bobbin) : List Nat :=
  let live := (List.range 8).filter fun k => b.live.getLsbD k
  (live.filter fun k => decide (b.nextPair ≤ k)) ++ live.filter fun k => decide (k < b.nextPair)

/-- What a call takes: its 32 bits from each live pair in turn. -/
def callInput (b : Bobbin) : Bytes :=
  let ps := pairTurns b
  let bytes := if b.vn then 50 else 96
  ((List.range ((bytes + 3) / 4)).flatMap fun w =>
    (List.range 4).map fun j => Config.noise b.calls (ps.getD (w % ps.length) 0) (4 * (w / ps.length) + j)).take bytes

/-- One conditioner call: SHA3-256 of its debiased bits, 768 under code 0 and 400 under code 1. -/
def conditionBlock (s : State) : Bytes × State :=
  let b := s.bobbin
  let ps := pairTurns b
  let words := ((if b.vn then 50 else 96) + 3) / 4
  let block := sha3_256 (callInput b)
  (block, { s with bobbin := { b with calls := b.calls + 1, lastBlock := block, nextPair := ps.getD (words % ps.length) 0 } })

/-- The 384 bits of a seed: a block and a half. -/
def takeSeed (s : State) : Bytes × State :=
  let a := conditionBlock s
  if s.bobbin.spare.length = 16 then (s.bobbin.spare ++ a.1, { a.2 with bobbin := { a.2.bobbin with spare := [] } })
  else
    let b := conditionBlock a.2
    (a.1 ++ b.1.take 16, { b.2 with bobbin := { b.2.bobbin with spare := b.1.drop 16 } })

/-- A block of the next seed equals the block before it: the output repetition test fails (R373). -/
def seedRepeats (s : State) : Bool :=
  let a := conditionBlock s
  a.1 == s.bobbin.lastBlock || (!(s.bobbin.spare.length == 16) && (conditionBlock a.2).1 == a.1)

/-- The personalisation string of an instance: the module's serial, then its number in 8 bytes (R376). -/
def personalisation (s : State) (i : InstId) : Bytes := leBytes 8 s.fuses.serial.toNat ++ leBytes 8 i.val

/-- A seed goes into an instance: instantiation, from zero and with the personalisation string, or a reseed. -/
def seedInstance (s : State) (i : InstId) (seed : Bytes) (x : DrbgInstance) : DrbgInstance :=
  let y := if x.instantiated then ctrUpdate seed x
    else ctrUpdate (xorBytes seed (personalisation s i ++ zeros 32)) { x with key := zeros 32, v := 0 }
  { y with instantiated := true, stalled := false, pending := false, count := 0 }

/-- Instance 16 fills its buffers (R377). -/
def fillBuffers (s : State) : State :=
  (fins 12).foldl (fun s k =>
    let d := draw inst16 128 s
    { d.2 with bobbin := { d.2.bobbin with buffers := d.2.bobbin.buffers.set k.val d.1 } }) s

/-- Step 4: every instance asks for its seed, instance 16 first. -/
def instantiateAll (s : State) : State :=
  let ask (x : DrbgInstance) : DrbgInstance := { x with instantiated := false, stalled := false, pending := true, count := 0 }
  { s with bobbin := { s.bobbin with
    passed := true
    instances := s.bobbin.instances.map ask
    seedQueue := inst16 :: (fins 16).map fun i => ⟨i.val, by omega⟩ } }

/-- BOBBIN_TESTS_END (R381 steps 3 and 4, R382). -/
def execBobbinTestsEnd (failing : List (PairId × PairFault)) (knownAnswersOk : Bool) (s : State) :
    Host.Outcome State Fault Refusal :=
  .next (
    if s.bobbin.state == .starting && s.bobbin.settled && !s.bobbin.passed then
      let s := { s with bobbin := { s.bobbin with live := 0xFF } }
      let s := (failing.filter fun f => pairFails s f.2).foldl (fun s f => excludePair f.1 (faultCode f.2) s) s
      let s := if knownAnswersOk then s else { s with bobbin := { s.bobbin with lastTest := 6 } }
      if knownAnswersOk && decide (4 ≤ popcount s.bobbin.live) then instantiateAll s else bobbinFails s
    else s)

/-- The chest is moved to new places under an address key and masks from instance 16, once at each Wake (R393). -/
def moveChest (s : State) : State :=
  if s.cabinet.moved || !s.backup.chest.valid then s
  else
    let d := draw inst16 64 s
    let s := d.2
    { s with
      cabinet := { s.cabinet with moved := true }
      backup := { s.backup with remasks := 0, addressKey := d.1.take 32, maskSeed := d.1.drop 32 } }

/-- A challenge is answered with a fresh nonce of 32 bytes (R531). -/
def giveNonce (p : PortId) (seq : BitVec 16) (s : State) : State :=
  let d := draw inst16 32 s
  emit (.usb p 0x0030 seq .ok d.1) { d.2 with life := { d.2.life with nonce := some d.1 } }

/-- What waited for the seeds goes on: admin commands, challenges, items, a ceremony (R73, R440). -/
def releaseSeedWaits (s : State) : State :=
  let free (e : AdminEntry) : AdminEntry := if e.wait == .seed then { e with wait := .none } else e
  let port (p : Port) : Port := { p with admin := { p.admin with entry := p.admin.entry.map free } }
  let s := { s with ports := s.ports.map port }
  let waits := s.life.challenges
  let s := waits.foldl (fun s c => giveNonce c.2.1 c.2.2 s) { s with life := { s.life with challenges := [] } }
  continueCeremony (settleAfterLeave s)

/-- BOBBIN_SEEDED (R381 step 5, R383, R385, R393, R405). -/
def execBobbinSeeded (s : State) : Host.Outcome State Fault Refusal :=
  .next (
    if s.bobbin.state == .starting && s.bobbin.passed && s.bobbin.seedQueue.isEmpty
        && s.bobbin.instances.toList.all fun x => x.instantiated then
      let failed := s.bobbin.afterFailure
      let s := { s with
        bobbin := { s.bobbin with state := .serving, afterFailure := false, byCommand := false }
        mode := { s.mode with seeded := true, seedMs := if s.mode.seedMs = 0 then min 65535 (s.clock / 750000) else s.mode.seedMs }
        benches := s.benches.map fun b => { b with needsSeed := false } }
      let s := if failed then raise0 0x0E3 s else s
      releaseSeedWaits (bobbinRestartDone .ok (moveChest (deriveIdentity s)))
    else s)

/-! ### Exclusion, failure and retry (R374, R382, R383, R386) -/

/-- The continuous tests run: in SERVING, and in the sequence once the start-up tests have passed. -/
def testsRun (s : State) : Bool := s.bobbin.state == .serving || (s.bobbin.state == .starting && s.bobbin.passed)

/-- PAIR_EXCLUDED (R374): the count that remains is judged by HEALTH_FAIL, once for the pairs of one cycle (R386). -/
def execPairExcluded (pair : PairId) (fault : PairFault) (s : State) : Host.Outcome State Fault Refusal :=
  .next (
    if testsRun s && s.bobbin.live.getLsbD pair.val && pairFails s fault && faultCode fault != 7 then
      excludePair pair (faultCode fault) s
    else s)

/-- A health failure counts: while the tests run, and in RETRY_WAIT, whose timer then starts again (R386). -/
def mayFail (s : State) : Bool := testsRun s || s.bobbin.state == .retryWait

/-- HEALTH_FAIL (R374, R383, R386): two successive blocks of the conditioner are equal, or another cause. -/
def execHealthFail (reason : BobbinFailure) (s : State) : Host.Outcome State Fault Refusal :=
  let test (n : Nat) (s : State) : State := { s with bobbin := { s.bobbin with lastTest := n } }
  .next (match reason with
    | .tooFewPairs => if mayFail s && decide (popcount s.bobbin.live < 4) then bobbinFails s else s
    | .outputRepetition block =>
      if mayFail s && block == s.bobbin.lastBlock && !block.isEmpty then bobbinFails (test 5 s) else s
    | .knownAnswer => if s.bobbin.state == .starting then bobbinFails (test 6 s) else s
    | .conditioner =>
      if mayFail s || s.bobbin.state == .starting then bobbinFails (raise0 0x0E7 s) else s)

/-- BOBBIN_RETRY (R382). -/
def execBobbinRetry (s : State) : Host.Outcome State Fault Refusal :=
  .next (
    if s.bobbin.state == .retryWait then
      beginSequence false { s with bobbin := { s.bobbin with retries := s.bobbin.retries + 1 } }
    else s)

/-! ### Reseeding (R379) -/

/-- RESEED_REQUEST (R379): the count has reached 2^20. -/
def execReseedRequest (i : InstId) (s : State) : Host.Outcome State Fault Refusal :=
  let x := s.bobbin.instances[i.val]
  .next (if x.instantiated && !x.pending && decide (2 ^ 20 ≤ x.count) then requestSeed i s else s)

/-- INSTANCE_STALL (R379): the count has run to its end; the instance serves nothing until its seed arrives. -/
def execInstanceStall (i : InstId) (s : State) : Host.Outcome State Fault Refusal :=
  let x := s.bobbin.instances[i.val]
  .next (
    if x.instantiated && !x.stalled && decide (2 ^ 32 ≤ x.count) then
      requestSeed i (raise0 0x0E5 (modInstance i (fun x => { x with stalled := true }) s))
    else s)

/-- STRETCH_MAX of a reseed at a count: ⌈log2⌉, 20 to 32 (R388). -/
def stretchOf (count : Nat) : Nat := min 32 (max 20 (Nat.clog 2 count))

/-- The request of instance `i` at the head is the PRED_RES one. -/
def predArrives (s : State) (i : InstId) : Bool := i == inst16 && s.bobbin.predSeed == some 0

/-- RESEED_APPLIED (R373, R379): the seed at the head of the queue arrives, unless the conditioner repeats a block. -/
def execReseedApplied (i : InstId) (s : State) : Host.Outcome State Fault Refusal :=
  .next (match s.bobbin.seedQueue with
    | j :: rest =>
      if j == i && testsRun s && seedRepeats s then
        bobbinFails { (takeSeed s).2 with bobbin := { (takeSeed s).2.bobbin with lastTest := 5 } }
      else if j == i && testsRun s then
        let x := s.bobbin.instances[i.val]
        let s := if x.instantiated && decide (2 ^ 21 < x.count) then raise0 0x0E4 s else s
        let pred := predArrives s i
        let left := if pred then none else if i == inst16 then s.bobbin.predSeed.map (fun n => n - 1) else s.bobbin.predSeed
        let d := takeSeed { s with bobbin := { s.bobbin with seedQueue := rest, predSeed := left } }
        let stretch := if x.instantiated then max x.stretchMax (stretchOf x.count) else x.stretchMax
        let s := modInstance i (fun y => { seedInstance s i d.1 y with stretchMax := stretch, pending := pred && y.pending }) d.2
        let s := if i == inst16 && !x.instantiated then fillBuffers s else s
        let s := if h : i.val < 16 then
            -- a parked bench's instance is instantiated again before the bench returns (R386)
            (if x.instantiated then s else modBench ⟨i.val, h⟩ (fun b => { b with needsSeed := false }) s)
          else s
        -- instance 16 answers the steward again
        if i == inst16 && s.mode.seeded then releaseSeedWaits s else continueCeremony s
      else s
    | [] => s)

/-! ### BOBBIN_RESTART (R385) -/

/-- BOBBIN_RESTART, inner command 0x0008. -/
def execBobbinRestart (s : State) : Host.Outcome State Fault Refusal :=
  .next (match ownerReady s with
    | some .bobbinRestart =>
      match s.bobbin.state with
      | .retryWait => ownerStart (beginSequence true { s with bobbin := { s.bobbin with retries := 0 } })
      | .failed => ownerStart (beginSequence true { s with bobbin := { s.bobbin with retries := 0 } })
      | .serving => ownerStart { s with bobbin := { s.bobbin with retesting := true } }
      | _ => ownerDone .keyPolicy s
    | _ => s)

/-- PAIR_RETEST_END (R385): pairs that pass rejoin. -/
def execPairRetestEnd (passed : List PairId) (s : State) : Host.Outcome State Fault Refusal :=
  .next (
    if s.bobbin.state == .serving && s.bobbin.retesting then
      bobbinRestartDone .ok { s with bobbin := { s.bobbin with
        retesting := false, live := s.bobbin.live ||| maskOf 8 (passed.map fun p => p.val) } }
    else s)

end Sys2Proof.Machine
end

