-- ==== Sys2Proof/Machine/LifeCycle.lean ====
section
/-! DEFINITION. The life cycle and debug authorisation (R524 to R536). -/

namespace Sys2Proof.Machine

/-! ### The USB 2.0 management interface (R66 step 3, R75) -/

/-- The interface answers on an attached port from step 3 of R66 on. -/
def usbOpen (s : State) (p : PortId) : Bool :=
  !(s.mode.base == .dormant) && s.mode.straps.isSome && s.power.contracts[p.val].attached

def onUsb (p : PortId) (act : State → State) (s : State) : State := if usbOpen s p then act s else s

/-! ### Transitions (R528, R529) -/

/-- Groups up to the target's are burned, and the registers show them. -/
def burnTo (target : Nat) (s : State) : State :=
  let bits : BitVec 24 := maskOf 24 ((List.range (4 * target)).filter fun i => decide (4 * s.life.state ≤ i))
  let otp := s.fuses.otp ||| bits
  { s with fuses := { s.fuses with otp := otp }, life := { s.life with otpRead := otp, state := target } }

/-- A transition is accepted: event 0x10E with its target, and 0x0A5 + 8p of the port, which the owner's command has logged
at its own acceptance (R529 step 1; log entry 53). -/
def beginTransition (target : Nat) (byToken : Option (PortId × BitVec 16)) (s : State) : State :=
  let s := match byToken with
    | some (p, _) => raise0 (0x0A5 + 8 * p.val) s
    | none => s
  raise 0x10E (detailOf target 0 0x0A 0 0)
    { s with life := { s.life with transition := some { target := target, byToken := byToken } } }

/-- Steps 4 to 6: keys, slices, the tally region and the user region go. -/
def wipeForExit (target : Nat) (s : State) : State :=
  let s := abandonAdmin .keyPolicy (destroyAllSlices (clearDrawers (clearChest s)))
  let s := { s with flash := { s.flash with tally := [], ownerRecord := [], identity := none } }
  let s := freeSlots (fun _ => true) s
  if target = 4 then setMode .analysis 13 { s with mode := { s.mode with releasing := false } } else s

/-- Steps 2 to 7. -/
def endTransition (t : Transition) (s : State) : State :=
  let s := burnTo t.target { s with life := { s.life with transition := none } }
  let s := if t.target = 3 then s else wipeForExit t.target s
  match t.byToken with
  | some (p, seq) => emit (.usb p 0x0031 seq .ok []) s
  | none => ownerDone .ok s

/-- LC_TRANSITION_DONE (R529). -/
def execLcTransitionDone (s : State) : Host.Outcome State Fault Refusal :=
  .next (match s.life.transition with
    | some t => settleAfterLeave (endTransition t s)
    | none => s)

/-- LC_ADVANCE, inner command 0x000B (R528). -/
def execLcAdvance (s : State) : Host.Outcome State Fault Refusal :=
  .next (match ownerReady s with
    | some (.lcAdvance b) =>
      let t := b.toNat
      let fits := 3 ≤ t && t ≤ 5 && decide (s.life.state < t) && (t != 3 || s.life.state == 2)
      if !(s.mode.base == .hold) || s.life.debug || !fits then ownerDone .keyPolicy s
      else if !quorumStands s then ownerDone .keyPolicy (quorumFails (readQuorum s))
      else beginTransition t none (ownerStart (readQuorum s))
    | _ => s)

/-! ### Debug tokens (R531 to R535) -/

/-- DEBUG_CHALLENGE (R76, R531): in Wake and Hold; it waits for seeding (R72, R73). -/
def debugChallenge (p : PortId) (seq : BitVec 16) (s : State) : State :=
  if s.mode.stewardLost then emit (.usb p 0x0030 seq .unitFault []) s
  else if !(s.mode.base == .wake || s.mode.base == .hold) then emit (.usb p 0x0030 seq .keyPolicy []) s
  else if bobbinFailed s then emit (.usb p 0x0030 seq .entropyFail []) s
  else if stewardDraws s then giveNonce p seq s
  else
    { s with
      heddle := { s.heddle with nextId := s.heddle.nextId + 1 }
      life := { s.life with challenges := s.life.challenges ++ [(s.heddle.nextId, p, seq)] } }

def execDebugChallenge (p : PortId) (seq : BitVec 16) (s : State) : Host.Outcome State Fault Refusal :=
  .next (onUsb p (debugChallenge p seq) s)

/-- The fields of a token (R532). -/
def tokenPurpose (t : Token) : Nat := leNat (slice_ t.bytes 6 1)
def tokenSerial (t : Token) : BitVec 64 := BitVec.ofNat 64 (leNat (slice_ t.bytes 8 8))
def tokenNonce (t : Token) : Bytes := slice_ t.bytes 16 32

/-- Length, magic, format, PURPOSE and zero fields are right. -/
def tokenForm (t : Token) : Bool :=
  t.bytes.length == 4691 && t.bytes.take 6 == ascii "AQDT" ++ leBytes 2 1 && (tokenPurpose t == 1 || tokenPurpose t == 2)
    && allZero (slice_ t.bytes 7 1 ++ slice_ t.bytes 48 8)

/-- The signature over bytes 0 to 63, under the boot ROM's debug key (R532; log entry 100). -/
def tokenSigned (t : Token) : Bool :=
  t.signed == { key := Config.romKey .debugDsa, context := ascii "AQDT-HF", message := sha3_512 (t.bytes.take 64) }

/-- The straps request debug, or hold the module in Wake: R50 has no other row from Wake to Test-Root (R56). -/
def strapsDebug (s : State) : Bool :=
  match s.mode.straps with
  | some t => t.dbgreq || t.boot == 3
  | none => false

/-- RESULT of a token (R533): the first check that fails, 0 for none. -/
def tokenResult (s : State) (t : Token) : Nat :=
  let st := s.life.state
  if !tokenForm t then 0x01
  else if !(s.mode.base == .wake || s.mode.base == .hold) then 0x02
  else if tokenPurpose t = 1 ∧ st ≠ 2 ∧ st ≠ 3 then 0x03
  else if tokenPurpose t = 2 ∧ (st ≠ 2 ∨ ownerSet s = true) then 0x03
  else if tokenSerial t != s.fuses.serial then 0x04
  else if s.life.nonce.isNone || s.life.nonce != some (tokenNonce t) then 0x05
  else if !tokenSigned t then 0x06
  else if !quorumStands s || decide ((s.cards.slots.toList.filter cardUsable).length < 2) then 0x07
  else 0

/-- Entry to Test-Root from Wake or Hold: slices and drawers go, and the module threads the draft that the stored
selection names (R50, R56, R60, R411). -/
def enterTestRoot (s : State) : State :=
  let s := abandonAdmin .keyPolicy (destroyAllSlices (clearDrawers s))
  let s := freeSlots (fun _ => true) { s with
    life := { s.life with debug := true }
    mode := { s.mode with threading := .none, releasing := false, drawersCleared := false } }
  if s.power.plan == .wakeOnly || s.mode.base == .wake then leaveWake (setMode .wake 11 s)
  else beginThreading s.flash.select true false 11 s

/-- DEBUG_RESPONSE as the steward takes it up (R531, R533, R537). -/
def debugResponse (p : PortId) (seq : BitVec 16) (t : Token) (s : State) : State :=
  if s.mode.stewardLost then emit (.usb p 0x0031 seq .unitFault []) (useNonce s)
  else
    let r := tokenResult s t
    let stood := quorumStands s
    -- the cards are read where the check comes to them
    let s := if r = 0 ∨ r = 7 then readQuorum s else s
    let s := useNonce { s with life := { s.life with result := r } }
    if r = 1 then emit (.usb p 0x0031 seq .opUnsupported []) s
    else if r = 7 then emit (.usb p 0x0031 seq .keyPolicy []) (if stood then s else quorumFails s)
    else if r != 0 then emit (.usb p 0x0031 seq .keyPolicy []) s
    else if tokenPurpose t = 1 then
      -- without a strap R50 has no row from Wake to Test-Root: the token passes and the mode stays (log entry 178)
      emit (.usb p 0x0031 seq .ok []) (if s.mode.base == .wake && !strapsDebug s then s else settleAfterLeave (enterTestRoot s))
    else beginTransition 4 (some (p, seq)) s

end Sys2Proof.Machine
end

