-- ==== Sys2Proof/Machine/Clock.lean ====
section
/-! DEFINITION. The passing of time: fabric cycles since t0 (R61) and the operating seconds they make (R516). -/

namespace Sys2Proof.Machine

/-- Fabric cycles in one second: domain 3 runs at 750 MHz (R61). -/
def cyclesPerSecond : Nat := 750000000

/-- Moves the clock to fabric cycle `t`; operating seconds and the ageing countdown follow whole seconds since t0.
The main domain is powered in every mode but Dormant (R516); AGE_NEXT holds while the steward is lost (R512). -/
def advanceTo (t : Nat) (s : State) : State :=
  if s.mode.base = .dormant then s
  else
    let d := t / cyclesPerSecond - s.clock / cyclesPerSecond
    { s with
      clock := max t s.clock
      log := { s.log with seconds := s.log.seconds + d }
      backup := { s.backup with seconds := s.backup.seconds + d }
      cal := { s.cal with ageNext := if s.mode.stewardLost then s.cal.ageNext else s.cal.ageNext - d } }

/-- On the cell alone the backup clock counts the time since main power was lost (R478). -/
def aloneTo (t : Nat) (s : State) : State := { s with backup := { s.backup with alone := max t s.backup.alone } }

/-- The beat boundary at or after the present cycle that has not yet been taken: the next multiple of 4,096 (R106). -/
def nextBoundary (s : State) : Nat := (s.clock / 4096 + 1) * 4096

end Sys2Proof.Machine
end

