-- ==== Sys2Proof/Machine/Stage.lean ====
section
/-! DEFINITION. The stages: staged fields, their clamps, the checksum, the checks and how a stage applies (R99 to R109). -/

namespace Sys2Proof.Machine

/-! ### Staged fields (R99, R101, R137, R168, R371) -/

/-- BAR0 offset, lowest bit and width of a staged field. -/
def fieldPlace : StagedField → Nat × Nat × Nat
  | .weight i => (0x21000 + 8 * i.val, 0, 16)
  | .prioCeil i => (0x21004 + 8 * i.val, 26, 3)
  | .loomCap i => (0x21004 + 8 * i.val, 16, 7)
  | .trestleShare i => (0x21004 + 8 * i.val, 0, 11)
  | .coalCount q => (0x22000 + 4 * q, 24, 8)
  | .coalTime q => (0x22000 + 4 * q, 14, 10)
  | .poll q => (0x22000 + 4 * q, 0, 14)
  | .idleTimeout => (0x200008, 0, 16)

/-- The staged fields of the port-scope register at an offset, the highest first. -/
def fieldsAt (off : Nat) : List StagedField :=
  if off = 0x200008 then [.idleTimeout]
  else if h : 0x21000 ≤ off ∧ off < 0x21800 then
    let i : SliceIdx := ⟨(off - 0x21000) / 8, by omega⟩
    if off % 8 = 0 then [.weight i] else if off % 8 = 4 then [.prioCeil i, .loomCap i, .trestleShare i] else []
  else if 0x22000 ≤ off ∧ off < 0x23000 ∧ off % 4 = 0 then
    let q := (off - 0x22000) / 4
    [.coalCount q, .coalTime q, .poll q]
  else []

/-- DGF_IDLE_TIMEOUT as applied: the draft's default until the port's stage has set it (R371). -/
def idleTimeoutOf (s : State) (p : PortId) : Nat :=
  if s.ports[p.val].idleTimeout = 0 then (heddleSection s).idleTimeout else s.ports[p.val].idleTimeout

/-- The applied value of a field; none where its slice or queue is not live (R130, R168). -/
def appliedField (s : State) (p : PortId) (f : StagedField) : Option Nat :=
  match f with
  | .weight i => (findSlice s p i.val).map fun x => x.weight
  | .prioCeil i => (findSlice s p i.val).map fun x => x.prioCeil
  | .loomCap i => (findSlice s p i.val).map fun x => x.loomCap
  | .trestleShare i => (findSlice s p i.val).map fun x => x.trestleShare
  | .coalCount q => (findQueue s p q).map fun x => x.coalCount
  | .coalTime q => (findQueue s p q).map fun x => x.coalTime
  | .poll q => (findQueue s p q).map fun x => x.poll
  | .idleTimeout => some (idleTimeoutOf s p)

/-- `v` moved to the nearest value from `lo` to `hi`. -/
def clampTo (lo hi v : Nat) : Nat := min hi (max lo v)

/-- The nearest legal value (R101, R168, R371). -/
def clampField : StagedField → Nat → Nat
  | .weight _, v => clampTo 1 65535 v
  | .prioCeil _, v => v
  | .loomCap _, v => clampTo 1 64 v
  | .trestleShare _, v => clampTo 0 1024 v
  | .coalCount _, v => clampTo 1 255 v
  | .coalTime _, v => clampTo 0 1000 v
  | .poll _, v => clampTo 1 15625 v
  | .idleTimeout, v => clampTo 1 60000 v

/-- The staged value of a field that has an entry. -/
def entryOf (l : List (StagedField × Nat)) (f : StagedField) : Option Nat := (l.find? fun e => e.1 == f).map fun e => e.2

/-- The value a read of a staged field returns (R99). -/
def shownField (s : State) (p : PortId) (f : StagedField) : Nat :=
  match entryOf s.ports[p.val].stage.entries f with
  | some v => v
  | none => (appliedField s p f).getD 0

/-- One field takes a written value: clamped, it replaces the entry, makes one where it differs from the applied value,
or overflows (R99, R101; log entry 29). -/
def stageField (p : PortId) (value : Word) (s : State) (f : StagedField) : State :=
  let w := fieldOf value (fieldPlace f).2.1 (fieldPlace f).2.2
  let v := clampField f w
  let g := s.ports[p.val].stage
  let s := if v = w then s else modStage p (fun g => { g with clamped := true }) s
  if (entryOf g.entries f).isSome then
    modStage p (fun g => { g with entries := g.entries.map fun e => if e.1 == f then (f, v) else e }) s
  else if appliedField s p f = some v then s
  else if 4096 ≤ g.entries.length then modStage p (fun g => { g with overflow := true }) s
  else modStage p (fun g => { g with entries := g.entries ++ [(f, v)] }) s

/-- A write to a staged register of the port: dropped for a slice or queue that is not live, and with LATE while the
stage is armed (R99, R105, R130, R168). -/
def stageWrite (p : PortId) (off : Nat) (value : Word) (s : State) : State :=
  let fs := fieldsAt off
  if fs.any fun f => (appliedField s p f).isNone then s
  else if fs.isEmpty then s
  else if s.ports[p.val].stage.armed then modStage p (fun g => { g with late := true }) s
  else fs.foldl (stageField p value) s

/-! ### STG_SUM (R103) -/

/-- Inserts by ascending key. -/
def insertKey (a : Nat × Bytes) : List (Nat × Bytes) → List (Nat × Bytes)
  | [] => [a]
  | b :: l => if a.1 ≤ b.1 then a :: b :: l else b :: insertKey a l

/-- The CRC of keyed byte strings in ascending key order. -/
def keyedSum (l : List (Nat × Bytes)) : BitVec 16 := crc16 ((l.foldr insertKey []).flatMap fun e => e.2)

/-- The eight bytes of an entry, keyed by offset; fields of one register follow from the highest down (log entry 29). -/
def entryBytes (e : StagedField × Nat) : Nat × Bytes :=
  let f := fieldPlace e.1
  (32 * f.1 + (31 - f.2.1), leBytes 4 f.1 ++ leBytes 4 (e.2 * 2 ^ f.2.1))

/-- STG_SUM of a port's stage. -/
def stageSum (g : Stage) : BitVec 16 := keyedSum (g.entries.map entryBytes)

/-- The same of the device stage, whose entries are whole registers (R100). -/
def deviceSum (d : DeviceStage) : BitVec 16 := keyedSum (d.entries.map fun e => (e.1, leBytes 4 e.1 ++ leBytes 4 e.2.toNat))

/-! ### The checks (R104) -/

/-- The modes in which a stage check fails. -/
def stageModeBad (s : State) : Bool :=
  match s.mode.base with
  | .wake | .threading | .recovery | .zeroized | .analysis | .dormant => true
  | _ => false

/-- Weights and trestle shares of slices with staged values in place of applied ones. -/
def weightSum (l : List (StagedField × Nat)) (xs : List Slice) : Nat :=
  (xs.map fun x => (entryOf l (.weight x.idx)).getD x.weight).sum
def trestleSum (l : List (StagedField × Nat)) (xs : List Slice) : Nat :=
  (xs.map fun x => (entryOf l (.trestleShare x.idx)).getD x.trestleShare).sum

/-- The port's live slices. -/
def liveSlices (s : State) (p : PortId) : List Slice := s.slices.filter fun x => x.port == p && !x.installing

/-- Checks 0x04 to 0x06. -/
def stageLimits (s : State) (p : PortId) : Nat :=
  let l := s.ports[p.val].stage.entries
  if s.shares[p.val] * 1024 < weightSum l (liveSlices s p) then 0x04
  else if s.shares[p.val] < trestleSum l (liveSlices s p) then 0x05
  else if l.any fun e => (match e.1 with | .loomCap _ => decide (loomsServing s < e.2) | _ => false) then 0x06
  else 0

/-- The checks of a port stage's commit, in their order; 0 is a pass. -/
def stageCheck (s : State) (p : PortId) (sum : BitVec 16) : Nat :=
  let g := s.ports[p.val].stage
  if sum != stageSum g then 0x01
  else if g.armed then 0x02
  else if g.overflow then 0x03
  else if stageLimits s p != 0 then stageLimits s p
  else if stageModeBad s then 0x09
  else 0

/-! ### The device stage (R100) -/

/-- A register of the device stage with its value: port shares clamp to 1 to 1,021 (R101), reserved bits read zero. -/
def deviceValue (off : Nat) (v : Word) : Word :=
  if off = 0x10018 ∨ off = 0x1001C then
    packFields [(16, 11, clampTo 1 1021 (fieldOf v 16 11)), (0, 11, clampTo 1 1021 (fieldOf v 0 11))]
  else if off = 0x500010 then v &&& 0xFFFF
  else v

/-- The device-scope staged registers. -/
def deviceOffset (off : Nat) : Bool := off == 0x10018 || off == 0x1001C || off == 0x50000C || off == 0x500010

/-- The share that a write of a port-share register names for port `p`, if the register is the port's. -/
def writtenShare (p : PortId) (off : Nat) (v : Word) : Option Nat :=
  if off != (if p.val < 2 then 0x10018 else 0x1001C) then none
  else some (if p.val % 2 = 0 then fieldOf v 0 11 else fieldOf v 16 11)

/-- CLAMPED of the port whose share a device-stage write clamps (R101); the stage has no status of its own (log
entry 177). -/
def markShareClamp (off : Nat) (v : Word) (s : State) (p : PortId) : State :=
  match writtenShare p off v with
  | some w => if clampTo 1 1021 w = w then s else modStage p (fun g => { g with clamped := true }) s
  | none => s

/-- One write to the device stage; dropped while it is armed (R105). -/
def deviceWrite (s : State) (e : Word × Word) : State :=
  if s.device.armed then s
  else
    let off := e.1.toNat
    let rest := s.device.entries.filter fun x => !(x.1 == off)
    (fins 4).foldl (markShareClamp off e.2)
      { s with device := { s.device with entries := rest ++ [(off, deviceValue off e.2)] } }

def deviceEntry (s : State) (off : Nat) : Option Word := (s.device.entries.find? fun e => e.1 == off).map fun e => e.2

/-- The port share the device stage would leave. -/
def stagedShare (s : State) (p : PortId) : Nat :=
  match deviceEntry s (if p.val < 2 then 0x10018 else 0x1001C) with
  | some v => if p.val % 2 = 0 then fieldOf v 0 11 else fieldOf v 16 11
  | none => s.shares[p.val]

/-- The tamper class the device stage would leave; a disabled source's class stays 0 (R483). -/
def stagedClass (s : State) (src : SourceId) : Nat :=
  if s.fuses.fused.getLsbD src.val then 0
  else match deviceEntry s (if src.val < 16 then 0x50000C else 0x500010) with
    | some v => fieldOf v (2 * (src.val % 16)) 2
    | none => s.tamper.classes[src.val]

/-- Sources whose class register has an entry in the device stage. -/
def stagedSources (s : State) : BitVec 24 :=
  (if (deviceEntry s 0x50000C).isSome then 0xFFFF else 0) ||| (if (deviceEntry s 0x500010).isSome then 0xFF0000 else 0)

/-- The checks of the device stage's commit. -/
def deviceCheck (s : State) (sum : BitVec 16) : Nat :=
  if sum != deviceSum s.device then 0x01
  else if s.device.armed then 0x02
  else if ((fins 4).map (stagedShare s)).sum != 1024 then 0x07
  else if (fins 24).any fun i => decide (s.fuses.caps[i.val] < stagedClass s i) then 0x08
  else if stageModeBad s then 0x09
  else 0

/-! ### Applying at a beat (R106 to R108) -/

/-- The beat boundary `t` falls at least 256 fabric cycles after the check. -/
def stageDue (t armedAt : Nat) : Bool := decide (armedAt + 256 ≤ t)

/-- The stage's value reaches its unit. -/
def applyField (p : PortId) (s : State) (e : StagedField × Nat) : State :=
  match e.1 with
  | .weight i => modSlice p i (fun x => { x with weight := e.2 }) s
  | .prioCeil i => modSlice p i (fun x => { x with prioCeil := e.2 }) s
  | .loomCap i => modSlice p i (fun x => { x with loomCap := e.2 }) s
  | .trestleShare i => modSlice p i (fun x => { x with trestleShare := e.2 }) s
  | .coalCount q => modQueue p q (fun x => { x with coalCount := e.2 }) s
  | .coalTime q => modQueue p q (fun x => { x with coalTime := e.2 }) s
  | .poll q => modQueue p q (fun x => { x with poll := e.2 }) s
  | .idleTimeout => modPort p (fun x => { x with idleTimeout := e.2 }) s

/-- What the stage's check depends on besides the stage, as it stands (R107). -/
def stageInputs (s : State) (p : PortId) : StageInputs :=
  { plan := s.power.plan
    benches := s.faults.bench
    trestles := s.faults.trestle
    selvs := s.faults.selv
    looms := s.looms.toList.map fun l => l.fenced
    shares := s.shares.toList
    slices := (liveSlices s p).map fun x => (x.idx, x.weight, x.trestleShare) }

/-- The check at the beat, which runs again only where an input has changed (R107 step 4): 0 is a pass. -/
def recheckCode (s : State) (p : PortId) : Nat :=
  if s.ports[p.val].stage.inputs == some (stageInputs s p) then 0
  else if stageLimits s p != 0 then stageLimits s p
  else if stageModeBad s then 0x09
  else 0

/-- Step 4 for one port at boundary `t`: checked again where an input has changed, then applied or disarmed with
RECHECK. Entries that a destruction took are missing from it (log entry 137). -/
def applyStage (t : Nat) (s : State) (p : PortId) : State :=
  let g := s.ports[p.val].stage
  if !g.armed || !stageDue t g.armedAt then s
  else if recheckCode s p != 0 then
    modStage p (fun g => { g with armed := false, recheck := true, code := recheckCode s p, inputs := none }) s
  else
    modStage p (fun g => { g with entries := [], armed := false, applied := true, applyBeat := BitVec.ofNat 32 (t / 4096), inputs := none })
      (g.entries.foldl (applyField p) s)

/-- A port whose weights exceed its budget has them scaled, each to at least 1 (R107 step 2). -/
def scaleWeights (s : State) (p : PortId) : State :=
  let sum := weightSum [] (liveSlices s p)
  let budget := s.shares[p.val] * 1024
  if sum ≤ budget then s
  else
    let scale (x : Slice) : Slice :=
      if x.port == p && !x.installing then { x with weight := max 1 (x.weight * budget / sum) } else x
    modStage p (fun g => { g with scaled := true }) { s with slices := s.slices.map scale }

/-- Step 2 at boundary `t`: port shares and tamper classes, which the backup domain copies (R466, R476). -/
def applyDevice (t : Nat) (s : State) : State :=
  if !s.device.armed || !stageDue t s.device.armedAt then s
  else
    let cls : Vector Nat 24 := Vector.ofFn fun i : Fin 24 => stagedClass s i
    let sh : Vector Nat 4 := Vector.ofFn fun p : Fin 4 => stagedShare s p
    let s := { s with
      shares := sh
      tamper := { s.tamper with classes := cls, staged := s.tamper.staged ||| stagedSources s }
      backup := { s.backup with classes := cls }
      device := { s.device with entries := [], armed := false } }
    (fins 4).foldl scaleWeights s

/-! ### Commands -/

/-- STAGE_WRITE (R99); the admin queue has no staged field (log entry 139). -/
def execStageWrite (p : PortId) (offset : Nat) (value : Word) (s : State) : Host.Outcome State Fault Refusal :=
  .next (
    if offset % 4 != 0 || decide (barSize ≤ offset) then onBar p (emit (.unsupportedRequest p)) s else onWrite p (stageWrite p offset value) s)

/-- COMMIT with a sum (R104, R105). -/
def commitStage (p : PortId) (sum : BitVec 16) (s : State) : State :=
  let c := stageCheck s p sum
  modStage p (fun g =>
    if c = 0 then { g with armed := true, armedAt := s.clock, code := 0, recheck := false, inputs := some (stageInputs s p) }
    else { g with code := c, recheck := false }) s

/-- DISCARD (R105). -/
def discardStage (p : PortId) (s : State) : State :=
  modStage p (fun g => { g with entries := [], armed := false, overflow := false, inputs := none }) s

/-- A write of STG_BEAT (R110): DISCARD takes precedence over COMMIT. -/
def writeStgBeat (p : PortId) (value : Word) (s : State) : State :=
  if value.getLsbD 1 then discardStage p s
  else if value.getLsbD 0 then commitStage p (value.extractLsb' 16 16) s
  else s

/-- STAGE_COMMIT (R104, R105). -/
def execStageCommit (p : PortId) (sum : BitVec 16) (s : State) : Host.Outcome State Fault Refusal :=
  .next (onWrite p (commitStage p sum) s)

/-- STAGE_DISCARD (R105): a write in the cycle of the beat that applies the armed stage leaves it to that beat. -/
def execStageDiscard (p : PortId) (atApplyingBeat : Bool) (s : State) : Host.Outcome State Fault Refusal :=
  let act (s : State) : State :=
    let g := s.ports[p.val].stage
    if atApplyingBeat && g.armed && stageDue (nextBoundary s) g.armedAt then s
    else discardStage p s
  .next (onWrite p act s)

end Sys2Proof.Machine
end

