-- ==== Sys2Proof/Machine/Slices.lean ====
section
/-! DEFINITION. The admin commands of a port: slices, queues, the trace ring, and what a port reads through its admin
queue (R122 to R131, R160 to R163, R190, R406, R508, R522). -/

namespace Sys2Proof.Machine

/-! ### How an admin command runs (R122, R134, R161) -/

/-- The admin entry that the port's shuttle holds, when it carries this command and waits for nothing. -/
def adminHeld (s : State) (p : PortId) (code : Nat) : Option AdminEntry :=
  match s.ports[p.val].admin.entry with
  | some e => if opOf e.entry == code && e.wait == .none && e.done.isNone then some e else none
  | none => none

/-- Commands that the steward carries out (R122, R462, R520). -/
def needsSteward (code : Nat) : Bool := (decide (1 ≤ code) && decide (code ≤ 8)) || code == 0x0B || code == 0x80

/-- Commands that read a host buffer, and commands that write one. -/
def hasInput (e : Entry) : Bool :=
  opOf e == 0x06 || opOf e == 0x80 || (opOf e == 0x07 && entryByte e 12 == 0)
def hasOutput (e : Entry) : Bool :=
  opOf e == 0x0B || opOf e == 0x0C || opOf e == 0x0D || (opOf e == 0x06 && entryByte e 9 == 0)

/-- The command acts on its entry: not in Zeroized or Analysis unless it only reads (R161), not without the steward
(R122; which of the two goes first: log entry 182), with its buffers reached (R134) and its random bits there (R72, R384). -/
def adminCommand (p : PortId) (code : Nat) (act : AdminEntry → State → State) (s : State) : State :=
  match adminHeld s p code with
  | none => s
  | some e =>
    if s.mode.base == .dormant then s
    else if adminBarred s code then barAdmin p code s
    else if s.mode.stewardLost && needsSteward code then adminDone p .unitFault 0 [] s
    else if hasInput e.entry && !e.inputOk then adminDone p .xlateFault 0 [] s
    else if hasOutput e.entry && !e.outputOk && s.ports[p.val].atsEn then adminDone p .xlateFault 0 [] s
    else if (hasOutput e.entry || hasInput e.entry) && !portMoves s p then s
    else if adminRandom code && bobbinFailed s then adminDone p .entropyFail 0 [] s
    else if adminRandom code && !stewardDraws s then s
    else act e s

/-- The command has written `len` bytes to the host itself and ends. -/
def adminDoneLen (p : PortId) (st : Status) (result len : Nat) (s : State) : State :=
  modAdmin p (fun a => { a with entry := a.entry.map fun e =>
    { e with wait := .none, done := some { status := st, outputLen := len, result := result } } }) s

/-- The command waits. -/
def adminWait (p : PortId) (w : AdminWait) (s : State) : State :=
  modAdmin p (fun a => { a with entry := a.entry.map fun e => { e with wait := w } }) s

/-- Refusals: KEY_POLICY with the code in the command's result register (R129, R162, R452). -/
def refuseSlice (p : PortId) (code : Nat) (s : State) : State :=
  adminDone p .keyPolicy 0 [] (modPort p (fun x => { x with sliceRefuse := code }) s)
def refuseQueue (p : PortId) (code : Nat) (s : State) : State :=
  adminDone p .keyPolicy 0 [] (modPort p (fun x => { x with queueRefuse := code }) s)
def refuseMove (p : PortId) (code : Nat) (s : State) : State :=
  adminDone p .keyPolicy 0 [] (modPort p (fun x => { x with moveRefuse := code }) s)

/-! ### Pools (R127, R128) -/

/-- A port's quota of a pool. -/
def quotaOf (s : State) (p : PortId) (pool : Nat) : Nat := pool * s.shares[p.val] / 1024

/-- The port's slices, those that wait for their beat among them. -/
def slicesOf (s : State) (p : PortId) : List Slice := s.slices.filter fun x => x.port == p

/-- What the port's slices hold of an allotment. -/
def heldBy (s : State) (p : PortId) (f : Slice → Nat) : Nat := ((slicesOf s p).map f).sum

/-- A request of none of a pool is never refused on its account (R128). -/
def fitsQuota (held request quota : Nat) : Bool := request == 0 || decide (held + request ≤ quota)

/-- The values an armed stage of the port would apply (R129). -/
def armedEntries (s : State) (p : PortId) : List (StagedField × Nat) :=
  if s.ports[p.val].stage.armed then s.ports[p.val].stage.entries else []

/-- The lowest local index of the port that no slice has (R126). -/
def freeSliceIndex (s : State) (p : PortId) : Option SliceIdx :=
  (fins 256).find? fun i => !(slicesOf s p).any fun x => x.idx == i

/-- The PASID a command names in bytes 8 to 11; none with NOPASID. -/
def operandPasid (e : Entry) : Option (BitVec 20) := if entryBits e 95 1 = 1 then none else some (BitVec.ofNat 20 (entryBits e 64 20))

/-- The binding keeps R124. -/
def bindingOk (s : State) (p : PortId) (pasid : Option (BitVec 20)) : Bool :=
  if s.ports[p.val].pasidEn then pasid.isSome
  else pasid.isNone && !(slicesOf s p).any fun x => x.pasid.isNone

/-- A slice of the port names the PASID. -/
def pasidUsed (s : State) (p : PortId) (pasid : Option (BitVec 20)) : Bool :=
  pasid.isSome && (slicesOf s p).any fun x => x.pasid == pasid

/-- The UID is that of a slice on the module. -/
def uidLive (s : State) (uid : BitVec 64) : Bool := s.slices.any fun x => x.uid == uid

/-! ### CREATE_SLICE, DESTROY_SLICE (R129, R131) -/

/-- The slice that CREATE_SLICE's operands describe. -/
def operandSlice (p : PortId) (idx : SliceIdx) (e : Entry) (phys : List (Nat × Nat)) : Slice :=
  { port := p
    idx := idx
    pasid := operandPasid e
    uid := BitVec.ofNat 64 (entryNat e 12 8)
    drawers := entryNat e 20 2
    digestSlots := entryByte e 22
    prioCeil := entryByte e 23
    queueAllot := entryNat e 24 2
    tallyAllot := entryNat e 26 2
    weight := entryNat e 28 2
    loomCap := entryByte e 30
    trestleShare := entryNat e 32 2
    budget := ((2048 * entryNat e 32 2 : Nat) : Int)
    phys := phys }

/-- The first check of R129 that fails, 0 for none; while debug is enabled no tally record counts (R411). -/
def sliceRefusal (s : State) (p : PortId) (x : Slice) : Nat :=
  let l := armedEntries s p
  if !isWorking s.mode.base then 0x01
  else if 256 ≤ (slicesOf s p).length then 0x02
  else if !bindingOk s p x.pasid then 0x03
  else if pasidUsed s p x.pasid then 0x04
  else if x.uid == 0 || uidLive s x.uid then 0x05
  else if x.queueAllot = 0 ∨ 512 < x.queueAllot ∨ 1023 < heldBy s p (fun y => y.queueAllot) + x.queueAllot then 0x06
  else if !fitsQuota (heldBy s p fun y => y.drawers) x.drawers (quotaOf s p 65536) then 0x07
  else if !fitsQuota (heldBy s p fun y => y.digestSlots) x.digestSlots (quotaOf s p 32) then 0x08
  else if !fitsQuota (heldBy s p fun y => y.tallyAllot) x.tallyAllot (quotaOf s p 8192) || (!s.life.debug && decide (x.tallyAllot < tallyHeld s x.uid)) then 0x09
  else if x.weight = 0 ∨ 7 < x.prioCeil ∨ 1024 < x.trestleShare ∨ x.loomCap = 0 ∨ 64 < x.loomCap then 0x0A
  else if s.shares[p.val] * 1024 < weightSum l (slicesOf s p) + x.weight then 0x0B
  else if s.shares[p.val] < trestleSum l (slicesOf s p) + x.trestleShare then 0x0C
  else 0

/-- CREATE_SLICE (R129): the slice waits for the next beat. -/
def createSliceAct (p : PortId) (e : AdminEntry) (s : State) : State :=
  match freeSliceIndex s p with
  | none => refuseSlice p (if isWorking s.mode.base then 0x02 else 0x01) s
  | some idx =>
    let x := operandSlice p idx e.entry (allotDrawers s (entryNat e.entry 20 2))
    let r := sliceRefusal s p x
    if r != 0 then refuseSlice p r s
    else
      let s := (draw inst16 32 s).2
      let s := { s with slices := s.slices ++ [x] }
      adminWait p (.slice idx) (modPort p (fun y => { y with sliceRefuse := 0 }) s)

def execCreateSlice (p : PortId) (s : State) : Host.Outcome State Fault Refusal :=
  .next (adminCommand p 0x01 (createSliceAct p) s)

/-- The slice still has a queue. -/
def sliceHasQueue (s : State) (p : PortId) (i : SliceIdx) : Bool := s.queues.any fun q => q.port == p && q.slice == i

/-- DESTROY_SLICE (R131): the records of the slice's UID go with it (R307), but not while debug is enabled, when none is read
(R411). -/
def destroySliceAct (p : PortId) (e : AdminEntry) (s : State) : State :=
  match findSlice s p (entryByte e.entry 8) with
  | none => refuseSlice p 0x0F s
  | some x =>
    if sliceHasQueue s p x.idx then refuseSlice p 0x0D s
    else if x.frozen && !x.saved then refuseSlice p 0x0E s
    else
      let s := modPort p (fun y => { y with sliceRefuse := 0 }) (destroySlice p x.idx (!s.life.debug) s)
      settleAfterLeave (adminDone p .ok 0 [] s)

def execDestroySlice (p : PortId) (s : State) : Host.Outcome State Fault Refusal :=
  .next (adminCommand p 0x02 (destroySliceAct p) s)

/-! ### CREATE_QUEUE, DESTROY_QUEUE (R139, R162, R163) -/

/-- The port's work queues, those that wait for their beat among them. -/
def queuesOf (s : State) (p : PortId) : List Queue := s.queues.filter fun q => q.port == p

/-- The first check of R162 that fails, 0 for none. -/
def queueRefusal (s : State) (p : PortId) (e : Entry) : Nat :=
  let express := entryByte e 9 == 1
  if !isWorking s.mode.base then 0x01
  else match findSlice s p (entryByte e 8) with
    | none => 0x02
    | some x =>
      if x.frozen then 0x03
      else if x.queueAllot ≤ ((queuesOf s p).filter fun q => q.slice == x.idx).length then 0x04
      else if express && decide (8 ≤ ((queuesOf s p).filter fun q => q.express).length) then 0x05
      else if entryByte e 10 < 4 ∨ 16 < entryByte e 10 then 0x06
      else if !baseAligned (BitVec.ofNat 64 (entryNat e 16 8)) (64 * 2 ^ entryByte e 10) then 0x07
      else if 2047 < entryNat e 12 2 then 0x08
      else if entryByte e 14 = 0 ∨ 1000 < entryNat e 26 2 then 0x09
      else if !express && (entryNat e 24 2 == 0 || decide (15625 < entryNat e 24 2)) then 0x09
      else 0

/-- The lowest free port queue number and the lowest free index in the slice (R139). -/
def freeQueueNumber (s : State) (p : PortId) : Option Nat :=
  ((List.range 1023).map fun k => k + 1).find? fun n => !(queuesOf s p).any fun q => q.qnum == n
def freeQueueIndex (s : State) (p : PortId) (i : SliceIdx) : Option Nat :=
  (List.range 512).find? fun k => !(queuesOf s p).any fun q => q.slice == i && q.index == k

/-- The queue that CREATE_QUEUE's operands describe. -/
def operandQueue (p : PortId) (i : SliceIdx) (n k : Nat) (e : Entry) : Queue :=
  { port := p
    qnum := n
    slice := i
    index := k
    express := entryByte e 9 == 1
    log2 := entryByte e 10
    base := BitVec.ofNat 64 (entryNat e 16 8)
    vector := entryNat e 12 2
    coalCount := entryByte e 14
    coalTime := entryNat e 26 2
    poll := entryNat e 24 2
    installing := true }

/-- CREATE_QUEUE (R162): the queue waits for the next beat. An unknown kind is no operand of the command (log entry 30). -/
def createQueueAct (p : PortId) (e : AdminEntry) (s : State) : State :=
  if 1 < entryByte e.entry 9 then adminDone p .opUnsupported 0 [] s
  else
    let r := queueRefusal s p e.entry
    if r != 0 then refuseQueue p r s
    else match findSlice s p (entryByte e.entry 8) with
      | none => refuseQueue p 0x02 s
      | some x =>
        match freeQueueNumber s p, freeQueueIndex s p x.idx with
        | some n, some k =>
          let s := { s with queues := s.queues ++ [operandQueue p x.idx n k e.entry] }
          adminWait p (.queue n) (modPort p (fun y => { y with queueRefuse := 0 }) s)
        | _, _ => refuseQueue p 0x04 s

def execCreateQueue (p : PortId) (s : State) : Host.Outcome State Fault Refusal :=
  .next (adminCommand p 0x03 (createQueueAct p) s)

/-- A queue leaves with its staged entries and its coalescing state (R109, R163). -/
def removeQueue (p : PortId) (n : Nat) (s : State) : State :=
  let mine (f : StagedField) : Bool := match f with | .coalCount q | .coalTime q | .poll q => q == n | _ => false
  let s := pruneStage p mine s
  { s with queues := s.queues.filter fun q => !(q.port == p && q.qnum == n) }

/-- DESTROY_QUEUE (R163). -/
def destroyQueueAct (p : PortId) (e : AdminEntry) (s : State) : State :=
  let n := entryNat e.entry 8 2
  if !isWorking s.mode.base then refuseQueue p 0x01 s
  else match findQueue s p n with
    | none => refuseQueue p 0x0B s
    | some q =>
      if q.owned != 0 then refuseQueue p 0x0A s
      else adminDone p .ok 0 [] (modPort p (fun y => { y with queueRefuse := 0 }) (removeQueue p n s))

def execDestroyQueue (p : PortId) (s : State) : Host.Outcome State Fault Refusal :=
  .next (adminCommand p 0x04 (destroyQueueAct p) s)

/-! ### The beat that installs (R129, R162, R449, R459) -/

/-- A slice, with the queues a restore brought, is live. -/
def installSlice (p : PortId) (i : SliceIdx) (s : State) : State :=
  modQueues (fun q => q.port == p && q.slice == i) (fun q => { q with installing := false })
    (modSlice p i (fun x => { x with installing := false }) s)

/-- A queue is made, unless its slice has gone or is frozen by now (R162). -/
def installQueue (p : PortId) (n : Nat) (s : State) : State :=
  match s.queues.find? fun q => q.port == p && q.qnum == n && q.installing with
  | none => refuseQueue p 0x02 s
  | some q =>
    match findSlice s p q.slice.val with
    | none => refuseQueue p 0x02 (removeQueue p n s)
    | some x =>
      if x.frozen then refuseQueue p 0x03 (removeQueue p n s)
      else adminDone p .ok (q.index * 65536 + n) [] (modQueue p n (fun q => { q with installing := false }) s)

/-- A thawed slice's queues are Active, and express queues with the rescan flag scan (R449); a queue whose ring was
denied stays in Error (R149; log entry 31). -/
def thawSlice (p : PortId) (i : SliceIdx) (s : State) : State :=
  let wake (q : Queue) : Queue :=
    if q.err != 0 then { q with state := .error, rescan := false }
    else { q with state := .active, scanning := q.scanning || (q.express && q.rescan), rescan := false }
  modQueues (fun q => q.port == p && q.slice == i) wake (modSlice p i (fun x => { x with frozen := false }) s)

/-- What waits for a beat in one port's admin queue. -/
def installPort (s : State) (p : PortId) : State :=
  match s.ports[p.val].admin.entry with
  | none => s
  | some e =>
    match e.wait with
    | .slice i => adminDone p .ok i.val [] (installSlice p i s)
    | .restore i => adminDone p .ok i.val [] (installSlice p i s)
    | .queue n => installQueue p n s
    | .thaw i => adminDone p .ok 0 [] (thawSlice p i s)
    | _ => s

/-! ### The trace ring (R190, R194) -/

/-- TRACE_ENABLE (R190). -/
def traceEnableAct (p : PortId) (e : AdminEntry) (s : State) : State :=
  let k := entryByte e.entry 8
  let base : BitVec 64 := BitVec.ofNat 64 (entryNat e.entry 16 8)
  if k < 8 ∨ 20 < k ∨ baseAligned base (16 * 2 ^ k) = false then adminDone p .keyPolicy 0 [] s
  else adminDone p .ok 0 [] (modPort p (fun x => { x with trace := { enabled := true, log2 := k, base := base } }) s)

def execTraceEnable (p : PortId) (s : State) : Host.Outcome State Fault Refusal :=
  .next (adminCommand p 0x09 (traceEnableAct p) s)

/-- TRACE_DISABLE (R190): RESULT is the drop count. -/
def traceDisableAct (p : PortId) (_ : AdminEntry) (s : State) : State :=
  adminDone p .ok s.ports[p.val].trace.dropped [] (modPort p (fun x => { x with trace := { x.trace with enabled := false } }) s)

def execTraceDisable (p : PortId) (s : State) : Host.Outcome State Fault Refusal :=
  .next (adminCommand p 0x0A (traceDisableAct p) s)

/-- A value that EVT_TRACE_CONSUMED takes: not ahead of the records written, nor more than 2^k behind (R194). -/
def consumedOk (t : Trace) (v : Word) : Bool := decide ((t.produced - v).toNat ≤ 2 ^ t.log2)

/-- TRACE_CONSUMED_WRITE (R194). -/
def execTraceConsumedWrite (p : PortId) (value : Word) (s : State) : Host.Outcome State Fault Refusal :=
  .next (onWrite p (fun s =>
    if consumedOk s.ports[p.val].trace value then modPort p (fun x => { x with trace := { x.trace with consumed := value } }) s
    else s) s)

/-! ### What a port reads through its admin queue (R406, R508, R522) -/

/-- The calibration page as it stands in flash. -/
def calPage (s : State) : Bytes := s.flash.cal.getD (List.replicate 2048 0xFF)

/-- CAL_READ (R508): the set as it stands in flash. -/
def calReadAct (p : PortId) (e : AdminEntry) (s : State) : State :=
  if outputCap e.entry < 2048 then adminDoneLen p .outputShort 0 2048 s
  else adminDone p .ok 2048 (calPage s) s

def execCalRead (p : PortId) (s : State) : Host.Outcome State Fault Refusal :=
  .next (adminCommand p 0x0C (calReadAct p) s)

/-- The 9,088 bytes that IDENTITY_GET returns: the record in flash, an erased one before it is written, or the test
root's while debug is enabled (R406, R411). -/
def identityRecord (s : State) : Bytes :=
  if s.life.debug then identityBytes (uncertifiedIdentity s 1)
  else match s.flash.identity with
    | some r => identityBytes r
    | none => List.replicate 9088 0xFF

/-- IDENTITY_GET (R406). -/
def identityGetAct (p : PortId) (e : AdminEntry) (s : State) : State :=
  if outputCap e.entry < 9088 then adminDoneLen p .outputShort 0 9088 s
  else adminDone p .ok 9088 (identityRecord s) s

def execIdentityGet (p : PortId) (s : State) : Host.Outcome State Fault Refusal :=
  .next (adminCommand p 0x0D (identityGetAct p) s)

/-- Bytes of a record as a LOG_READ returns it (R515). -/
def recordBytes (r : LogRecord) : Bytes :=
  let b := leBytes 2 (r.event * 128 + r.severity * 32 + bit r.latched * 16) ++ leBytes 2 r.repeats ++ leBytes 4 r.first
    ++ leBytes 4 r.last ++ leBytes 3 r.cycle ++ zeros 1 ++ leBytes 8 r.detail.toNat ++ leBytes 4 r.seq.toNat ++ zeros 2
  b ++ leBytes 2 (crc16 b).toNat

/-- LOG_READ as an admin command (R161, R522). -/
def logReadAct (p : PortId) (e : AdminEntry) (s : State) : State :=
  let c := entryNat e.entry 12 4
  if c = 0 ∨ 4096 < c then adminDone p .keyPolicy 0 [] s
  else if outputCap e.entry < 32 * c then adminDoneLen p .outputShort 0 (32 * c) s
  else
    let rs := logSelect (BitVec.ofNat 32 (entryNat e.entry 8 4)) c s
    adminDone p .ok rs.length (rs.flatMap recordBytes) s

end Sys2Proof.Machine
end

