-- ==== Sys2Proof/Machine/Owner.lean ====
section
/-! DEFINITION. Owner-signed commands: the envelope (R121, R164, R165) and the inner commands that no other chapter
owns (R50, R51, R91, R93, R100, R166, R509). -/

namespace Sys2Proof.Machine

/-! ### The envelope -/

/-- Inner command codes (R166). -/
def innerCode : OwnerOperand → Nat
  | .deviceStage _ _ _ => 1 | .draftWrite _ _ => 2 | .draftSelect _ => 3 | .rethread _ => 4 | .hold => 5 | .holdRelease => 6
  | .calWrite _ => 7 | .bobbinRestart => 8 | .tamperClear _ => 9 | .tamperFuse _ => 10 | .lcAdvance _ => 11

/-- Fields of the first 24 bytes (R164). -/
def envSerial (e : Envelope) : BitVec 64 := BitVec.ofNat 64 (leNat (slice_ e.head 4 8))
def envSeq (e : Envelope) : Word := BitVec.ofNat 32 (leNat (slice_ e.head 12 4))
def envCode (e : Envelope) : Nat := leNat (slice_ e.head 16 2)
def envLen (e : Envelope) : Nat := leNat (slice_ e.head 20 4)

/-- Length of the operand bytes. -/
def bodyLen : EnvelopeBody → Nat
  | .bytes b => b.length
  | .draft front d => front.length + d.fileLength

/-- Bytes 24 to 23 + L. -/
def bodyBytesOf : EnvelopeBody → Bytes
  | .bytes b => b
  | .draft front d => front ++ draftFile d

/-- The entries of a DEVICE_STAGE: register offset and value, four bytes each (R166). -/
def stageEntries : Nat → Bytes → List (Word × Word)
  | 0, _ => []
  | n + 1, b => (BitVec.ofNat 32 (leNat (b.take 4)), BitVec.ofNat 32 (leNat (slice_ b 4 4))) :: stageEntries n (b.drop 8)

/-- A DEVICE_STAGE's operands: flags in bytes 0 to 3, SUM in 4 and 5, N in 8 to 11, then the entries. -/
def deviceOperands (b : Bytes) : Option OwnerOperand :=
  let n := leNat (slice_ b 8 4)
  if n ≤ 4096 ∧ b.length = 12 + 8 * n then
    some (.deviceStage (BitVec.ofNat 32 (leNat (b.take 4))) (BitVec.ofNat 16 (leNat (slice_ b 4 2))) (stageEntries n (b.drop 12)))
  else none

/-- The inner command that a code and its operand bytes spell; none where the code is unknown or L does not fit it
(R165, R166). -/
def innerOperand (code : Nat) (b : EnvelopeBody) : Option OwnerOperand :=
  match code, b with
  | 0x0001, .bytes b => deviceOperands b
  | 0x0002, .draft front d => if front.length = 8 ∧ 8 + d.fileLength ≤ 8388616 then some (.draftWrite (front.headD 0) d) else none
  | 0x0003, .bytes [slot] => some (.draftSelect slot)
  | 0x0004, .bytes [src] => some (.rethread src)
  | 0x0005, .bytes [] => some .hold
  | 0x0006, .bytes [] => some .holdRelease
  | 0x0007, .bytes page => if page.length = 2048 then some (.calWrite page) else none
  | 0x0008, .bytes [] => some .bobbinRestart
  | 0x0009, .bytes [a, b, c, d] => some (.tamperClear (BitVec.ofNat 32 (leNat [a, b, c, d])))
  | 0x000A, .bytes [src] => some (.tamperFuse src)
  | 0x000B, .bytes [target] => some (.lcAdvance target)
  | _, _ => none

/-- The form of R165: the magic "AQOC", the zero bytes, L + 4,760 bytes in all, a known code and operands that fit it. -/
def envelopeForm (e : Envelope) : Bool :=
  e.head.length == 24 && slice_ e.head 0 4 == ascii "AQOC" && allZero (slice_ e.head 18 2)
    && e.length == envLen e + 4760 && bodyLen e.body == envLen e && (innerOperand (envCode e) e.body).isSome

/-- Serial, signatures and sequence number (R121), under the keys whose digest the chest holds (R391). -/
def envelopeAccepted (s : State) (e : Envelope) : Bool :=
  envSerial e == s.fuses.serial && ownerSet s && ownerRecordOk s
    && ownerVerifies s.flash.ownerRecord (ascii "AQOC-OWN") (e.head ++ bodyBytesOf e.body) e.block && envSeq e == ownerSeq s + 1

/-- The module is held in Wake by STRAP_BOOT 11 (R56). -/
def heldInWake (s : State) : Bool := s.mode.base == .wake && bootStrap s == 3 && s.mode.fwRuns && !s.life.debug && (s.life.state == 2 || s.life.state == 3)

/-- Inner commands that the hold of R56 takes. -/
def runsHeld (code : Nat) : Bool := code == 2 || code == 3 || code == 8 || code == 9 || code == 10

/-- The steward has an owner command or a transition in hand, so the next one waits (R121, R536). -/
def stewardBusy (s : State) : Bool := s.owner.isSome || s.life.transition.isSome

/-- An accepted envelope: SEQ rises before the command takes effect, the flags a TAMPER_CLEAR acts on are those that stand
now, and the event is logged (R121, R479, R513). -/
def acceptEnvelope (p : PortId) (origin : OwnerOrigin) (e : Envelope) (op : OwnerOperand) (s : State) : State :=
  let s := { writeChest (fun c => { c with seq := envSeq e }) s with
    owner := some { origin := origin, seq := envSeq e, operand := op, clears := s.backup.sticky &&& ~~~s.tamper.active } }
  let s := raise (0x0A5 + 8 * p.val) (detailOf (innerCode op) 0 0 0 0) s
  if heldInWake s && !runsHeld (innerCode op) then ownerDone .keyPolicy s else s

/-- The checks of R165 and R121; `refuse` answers an envelope that fails them. -/
def takeEnvelope (p : PortId) (origin : OwnerOrigin) (e : Envelope) (refuse : Status → State → State) (s : State) : State :=
  if !envelopeForm e then refuse .opUnsupported s
  else if !envelopeAccepted s e then refuse .keyPolicy s
  else match innerOperand (envCode e) e.body with
    | some op => acceptEnvelope p origin e op s
    | none => refuse .opUnsupported s

/-- The envelope of an OWNER_SIGNED entry, while that entry still waits for it; it is the command's input, as long as it
says. -/
def entryEnvelope (p : PortId) (id : Nat) (env : Envelope) (s : State) : State :=
  match s.ports[p.val].admin.entry with
  | some e =>
    if e.id != id || e.wait != .owner || e.done.isSome then s
    else if env.length != inputLen e.entry then adminDone p .opUnsupported 0 [] s
    else takeEnvelope p (.admin p) env (fun st s => adminDone p st 0 [] s) s
  | none => s

/-- SIGNED_ADMIN (R76, R164): at most 1 MiB, and not in Zeroized or Scrapped. -/
def signedAdmin (p : PortId) (seq : BitVec 16) (env : Envelope) (s : State) : State :=
  let answer (st : Status) (s : State) : State := emit (.usb p 0x0010 seq st []) s
  if s.mode.base == .zeroized || s.life.state == 5 then answer .keyPolicy s
  else if s.mode.stewardLost then answer .unitFault s
  else if 1048576 < env.length then answer .opUnsupported s
  else takeEnvelope p (.usb p seq) env answer s

/-- The steward takes up a USB command. -/
def takeWork (p : PortId) (seq : BitVec 16) (w : StewardWork) (s : State) : State :=
  match w with
  | .envelope e => signedAdmin p seq e s
  | .token t => debugResponse p seq t s
  | .entry id e => entryEnvelope p id e s

/-- The steward takes the command that has waited longest, once it has none in hand (R121, R536). -/
def takeWaiting (s : State) : State :=
  match s.envelopes with
  | [] => s
  | w :: rest => if stewardBusy s then s else takeWork w.port w.seq w.work { s with envelopes := rest }

/-- A command that arrives while the steward has one in hand waits behind those that came before it (R121, R536); nothing
waits for a lost steward (R122). -/
def arriveWork (p : PortId) (seq : BitVec 16) (w : StewardWork) (s : State) : State :=
  if !s.mode.stewardLost && (stewardBusy s || !s.envelopes.isEmpty) then
    takeWaiting { s with envelopes := s.envelopes ++ [{ port := p, seq := seq, work := w }] }
  else takeWork p seq w s

/-- OWNER_SIGNED: the entry waits for the steward, in order of arrival across the ports and the USB (R121). -/
def execOwnerSigned (p : PortId) (envelope : Envelope) (s : State) : Host.Outcome State Fault Refusal :=
  .next (adminCommand p 0x80 (fun e s => arriveWork p 0 (.entry e.id envelope) (adminWait p .owner s)) s)

def execSignedAdmin (p : PortId) (seq : BitVec 16) (envelope : Envelope) (s : State) : Host.Outcome State Fault Refusal :=
  .next (onUsb p (arriveWork p seq (.envelope envelope)) s)

/-- DEBUG_RESPONSE (R76, R533). -/
def execDebugResponse (p : PortId) (seq : BitVec 16) (token : Token) (s : State) : Host.Outcome State Fault Refusal :=
  .next (onUsb p (arriveWork p seq (.token token)) s)

/-! ### DEVICE_STAGE (R100, R102, R166) -/

/-- DISCARD goes before COMMIT (R110); a failed check leaves its code. -/
def deviceCommit (discard commit : Bool) (sum : BitVec 16) (s : State) : State :=
  if discard then ownerDone .ok { s with device := { s.device with entries := [], armed := false } }
  else if !commit then ownerDone .ok s
  else
    let c := deviceCheck s sum
    let s := { s with device := { s.device with code := c } }
    if c = 0 then ownerDone .ok { s with device := { s.device with armed := true, armedAt := s.clock } }
    else ownerDone .keyPolicy s

def execDeviceStage (s : State) : Host.Outcome State Fault Refusal :=
  .next (match ownerReady s with
    | some (.deviceStage flags sum entries) =>
      if flags &&& ~~~3 != 0 || !(entries.all fun e => deviceOffset e.1.toNat) then
        ownerDone .keyPolicy s
      else deviceCommit (flags.getLsbD 1) (flags.getLsbD 0) sum (entries.foldl deviceWrite s)
    | _ => s)

/-! ### Draft slots (R91) -/

/-- The draft of a slot is threaded. -/
def slotThreaded (s : State) (slot : Nat) : Bool := s.draft.threaded.isSome && s.draft.source == slot

def execDraftWrite (s : State) : Host.Outcome State Fault Refusal :=
  .next (match ownerReady s with
    | some (.draftWrite slot d) =>
      if 1 < slot.toNat || slotThreaded s slot.toNat || !draftWriteOk s d then ownerDone .keyPolicy s
      else if slot = 0 then ownerDone .ok { s with flash := { s.flash with slotA := some d } }
      else ownerDone .ok { s with flash := { s.flash with slotB := some d } }
    | _ => s)

def execDraftSelect (s : State) : Host.Outcome State Fault Refusal :=
  .next (match ownerReady s with
    | some (.draftSelect slot) =>
      if 1 < slot.toNat then ownerDone .keyPolicy s
      else ownerDone .ok { s with flash := { s.flash with select := slot.toNat } }
    | _ => s)

/-! ### RETHREAD (R93 to R98, R480) -/

/-- The Hold that stands is not left yet: a HALT or ZEROIZE flag is set (R480), or the chest is still empty (R51). -/
def holdStands (s : State) : Bool :=
  (s.mode.cause == 9 && haltFlagSet s) || ((s.mode.holdEntry == 8 || s.mode.holdEntry == 14) && !s.backup.chest.valid)

/-- RETHREAD: step 1 in Idle and the Serve modes, step 2 in Hold. -/
def execRethread (s : State) : Host.Outcome State Fault Refusal :=
  .next (match ownerReady s with
    | some (.rethread src) =>
      if 2 < src.toNat then ownerDone .keyPolicy s
      else if isIdleServe s.mode.base then ownerStart (enterHold 6 s)
      else if s.mode.base == .hold && !holdStands s then ownerStart s
      else ownerDone .keyPolicy s
    | _ => s)

/-- Step 3: the draft read starts; with the plan at Wake only it waits in Wake (R98). -/
def beginRethread (src : Nat) (s : State) : State :=
  let from_ := if s.mode.cause = 8 ∨ s.mode.cause = 14 then s.mode.cause else s.mode.holdEntry
  let s := beginThreading (if src = 2 then s.flash.select else src) false true 6 s
  let s := { s with mode := { s.mode with leftHold := from_ } }
  if s.power.plan == .wakeOnly then setMode .wake 1 s else s

/-- RETHREAD_DRAIN_DONE (R93 step 3): nothing is dispatched any more. A HALT in step 2 keeps the Hold (R98, R480). -/
def execRethreadDrainDone (s : State) : Host.Outcome State Fault Refusal :=
  .next (match s.owner with
    | some o => match o.operand with
      | .rethread src =>
        if !o.started || !(s.mode.base == .hold) || (s.heddle.items.any fun i => i.place == .inService) then s
        else if holdStands s then ownerDone .keyPolicy s
        else beginRethread src.toNat s
      | _ => s
    | none => s)

/-! ### HOLD, HOLD_RELEASE (R50, R51) -/

def execHold (s : State) : Host.Outcome State Fault Refusal :=
  .next (match ownerReady s with
    | some .hold => if isIdleServe s.mode.base then ownerDone .ok (enterHold 5 s) else ownerDone .keyPolicy s
    | _ => s)

/-- The Hold may be released. -/
def releasable (s : State) : Bool := s.mode.base == .hold && s.mode.cause == 5 && !(s.power.plan == .wakeOnly)

/-- HOLD_RELEASE: the mode changes at the next beat. -/
def execHoldRelease (s : State) : Host.Outcome State Fault Refusal :=
  .next (match ownerReady s with
    | some .holdRelease =>
      if releasable s then ownerStart { s with mode := { s.mode with releasing := true } } else ownerDone .keyPolicy s
    | _ => s)

/-- The beat of a HOLD_RELEASE; a Hold that another cause has taken over by then stays. -/
def releaseHold (s : State) : State :=
  match s.owner with
  | some o =>
    if o.operand == .holdRelease && s.mode.releasing then
      let s := { s with mode := { s.mode with releasing := false } }
      if releasable s then ownerDone .ok (setMode (serviceMode s) 5 s) else ownerDone .keyPolicy s
    else s
  | none => s

/-! ### CAL_WRITE (R509) -/

/-- CAL_WRITE, inner command 0x0007; a page that does not read back is invalid. -/
def execCalWrite (readBackOk : Bool) (s : State) : Host.Outcome State Fault Refusal :=
  .next (match s.owner, ownerReady s with
    | some o, some (.calWrite c) =>
      if !(s.mode.base == .hold) || !calOk s.fuses.serial c || calOrigin c != 1 || calSeq c != o.seq then ownerDone .keyPolicy s
      else if readBackOk then ownerDone .ok (raise0 0x126 { s with flash := { s.flash with cal := some c } })
      else ownerDone .keyPolicy { s with flash := { s.flash with cal := none } }
    | _, _ => s)

/-! ### The other USB commands that change state or read the logbook (R76, R522) -/

/-- RECOVERY_LOAD: in Recovery on port 0, in parts of up to 1 MiB (R76; a longer one by log entry 176). -/
def recoveryLoad (p : PortId) (seq : BitVec 16) (part : Bytes) (s : State) : State :=
  if 1048576 < part.length then emit (.usb p 0x0020 seq .opUnsupported []) s
  else if p = 0 ∧ s.mode.base = .recovery then
    emit (.usb p 0x0020 seq .ok []) { s with draft := { s.draft with upload := s.draft.upload ++ part } }
  else emit (.usb p 0x0020 seq .keyPolicy []) s

def execRecoveryLoad (p : PortId) (seq : BitVec 16) (part : Bytes) (s : State) : Host.Outcome State Fault Refusal :=
  .next (onUsb p (recoveryLoad p seq part) s)

/-- LOG_READ over USB 2.0: the payload is F and C; not while the steward is lost (R520). -/
def usbLogRead (p : PortId) (seq : BitVec 16) (len : Nat) (first count : Word) (s : State) : State :=
  if s.mode.stewardLost then emit (.usb p 0x0003 seq .unitFault []) s
  else if len ≠ 8 ∨ count = 0 ∨ 4096 < count.toNat then emit (.usb p 0x0003 seq .keyPolicy []) s
  else emit (.usb p 0x0003 seq .ok ((logSelect first count.toNat s).flatMap recordBytes)) s

/-- LOG_READ (R522), by its path. -/
def execLogRead (path : LogPath) (s : State) : Host.Outcome State Fault Refusal :=
  .next (match path with
    | .admin p => adminCommand p 0x0B (logReadAct p) s
    | .usb p seq len first count => onUsb p (usbLogRead p seq len first count) s)

end Sys2Proof.Machine
end

