-- ==== Sys2Proof/Machine/Routine.lean ====
section
/-! DEFINITION. Routines run as time passes: each loom that serves an item takes its cycles through the words of its bench's
control store (R195 to R212, R230 to R237). What an operation of Horsefort's releases is stated operation by operation, and
its command forms it (log entry 116). -/

namespace Sys2Proof.Machine

/-! ### What a loom's sequencer sees -/

/-- A word of the control store of the loom's bench (R224). An address that no word was loaded to holds zero. -/
def controlWord (s : State) (n : LoomId) (a : Nat) : Microword :=
  match s.benches[n.val / 4].control.find? fun w => w.1 == a with
  | some w => w.2.1
  | none => 0

/-- Byte `k` of the item's input: what its operation's command brought, or for an owner's family what the shuttle streams
(R209; log entry 18). -/
def inputByteOf (i : Item) (k : Nat) : Byte :=
  match i.input.bind fun b => b[k]? with
  | some b => b
  | none => Config.inputByte i.id k

/-- The context of the item that the loom serves. -/
def loomContext (s : State) (n : LoomId) (i : Item) : LoomContext :=
  let d := benchEntry s n i.entry
  { order := orderOf s (n.val / 4)
    item := i.id
    entry := i.entry
    key := keyContent s i
    cached := cachedEntry s n i
    footprint := match d with | some d => deFootprint d | none => 0
    watchdog := match d with | some d => deWatchdog d | none => 0
    word := controlWord s n
    inputAt := inputByteOf i
    reachable := if portMoves s i.port then inputLen i.entry else 0
    outputFree := !bufferHeld s n
    room := (reservedRun s i.id).isSome
    signs := signsOp (famOf i.entry) (opOf i.entry)
    trestleDone := i.trestle.isSome && i.result.isSome }

/-! ### A cycle -/

/-- The item whose routine the loom runs now: its entry stands in the bench's dispatch table, its operands have come
(an operation's with its command), it is not at COMMIT, and the bench's clock is not gated. -/
def routineItem (s : State) (n : LoomId) : Option Item :=
  if s.looms[n.val].core.item.isNone || s.looms[n.val].core.atCommit || s.benches[n.val / 4].gated then none
  else (servingOn s (.loom n)).filter fun i => (benchEntry s n i.entry).isSome
    && (ownerItem i || i.result.isSome) && s.looms[n.val].core.item == some i.id

/-- A DEPOSIT takes the lowest run of free drawers that it fits in, where there is one; the routine waits for it on
CABINET_DONE (R234, R249). -/
def reserveDeposit (i : Item) (drawers : Nat) (s : State) : State :=
  match findSlice s i.port i.slice.val with
  | none => s
  | some x =>
    match freeRun s x drawers with
    | none => s
    | some first =>
      { s with runs := s.runs ++ [{
          port := i.port
          slice := i.slice
          first := first
          length := drawers
          gen := drawerGen s x first
          kind := 5
          family := famOf i.entry
          set := setOf i.entry
          policy := 0
          content := []
          state := .reserved i.id }] }

/-- One cycle of the routine of item `i` on a loom; a routine error completes the item (R237). -/
def routineCycle (n : LoomId) (i : Item) (s : State) : State :=
  let c := loomCycle (loomContext s n i) s.looms[n.val].core
  let s := modLoom n (fun l => { l with core := c }) s
  let s := match c.deposit with
    | some d => if ownerItem i && (reservedRun s i.id).isNone then reserveDeposit i d.1 s else s
    | none => s
  if c.error then routineEnds (.loom n) s else s

/-- At most `k` cycles of a loom; it stops when no routine runs. -/
def loomCycles : Nat → LoomId → State → State
  | 0, _, s => s
  | k + 1, n, s =>
    match routineItem s n with
    | none => s
    | some i => loomCycles k n (routineCycle n i s)

/-! ### Time -/

/-- Cycles that a bench's clock has made by fabric cycle `t`: 1.5, 1.4 or 1.3 GHz against 750 MHz (R61, R503). -/
def benchCycles (step t : Nat) : Nat := t * (30 - 2 * step) / 15

/-- Every loom with a routine runs from fabric cycle `t0` to `t1`. -/
def runRoutines (t0 t1 : Nat) (s : State) : State :=
  (fins 64).foldl (fun s n =>
    let step := s.benches[n.val / 4].clkStep
    loomCycles (benchCycles step t1 - benchCycles step t0) n s) s

/-- Time passes to fabric cycle `t`. -/
def passTo (t : Nat) (s : State) : State := runRoutines s.clock t (advanceTo t s)

end Sys2Proof.Machine
end

