-- ==== Sys2Proof/Machine/HostFunction.lean ====
section
/-! DEFINITION. The USB4 link, the PCIe function and its resets (R112 to R117, R135, R159). -/

namespace Sys2Proof.Machine

/-- Configuration writes reach the function: it exists, answers normally (R71), and no reset runs (R117). -/
def configOpen (s : State) (p : PortId) : Bool := functionPresent s p && s.mode.ready && !s.ports[p.val].flr

/-! ### The link (R112, R113) -/

/-- LINK_TRAINED (R113): training brings the function up for enumeration; a retrain changes the ceilings. Events 0x0A0 +
8p and 0x0A3 + 8p. The routers are off in the Wake-only plan (R35). -/
def execLinkTrained (p : PortId) (gen : Nat) (singleLane : Bool) (s : State) : Host.Outcome State Fault Refusal :=
  let below := !(gen == 3) || singleLane
  .next (
    if s.mode.base == .dormant || !s.power.contracts[p.val].attached || s.power.plan == .wakeOnly then s
    else if s.ports[p.val].trained then
      raise0 (0x0A3 + 8 * p.val) (modPort p (fun x => { x with gen := gen, singleLane := singleLane }) s)
    else
      let s := raise0 (0x0A0 + 8 * p.val) (modPort p (fun _ => { trained := true, gen := gen, singleLane := singleLane }) s)
      if below then raise0 (0x0A3 + 8 * p.val) s else s)

/-! ### Configuration changes (R116) -/

/-- BUS_MASTER_DISABLE (R116): Bus Master Enable is cleared, or D3hot entered. -/
def execBusMasterDisable (p : PortId) (d3hot : Bool) (s : State) : Host.Outcome State Fault Refusal :=
  .next (
    if !configOpen s p then s
    else if d3hot then modPort p (fun x => { x with d3hot := true }) s
    else modPort p (fun x => { x with bme := false }) s)

/-- Messages held while the port was stopped: one for each queue with a count (R159). -/
def sendHeld (p : PortId) (s : State) : State :=
  let due := (s.queues.filter fun q => q.port == p && q.counted != 0).map fun q => q.qnum
  let s := due.foldl (fun s n => queueMessage p n s) s
  if s.ports[p.val].admin.counted = 0 then s else adminMessage p s

/-- Pending bits whose vectors are open send their messages (R159). -/
def sendPending (p : PortId) (s : State) : State :=
  let x := s.ports[p.val]
  if !portMoves s p || !x.msixEn || x.msixFnMask then s
  else
    let open_ (v : Nat) : Option MsixEntry := x.table.find? fun e => e.vector == v && !e.masked
    let s := modPort p (fun x => { x with pba := x.pba.filter fun v => (open_ v).isNone }) s
    (x.pba.filterMap open_).foldl (fun s e => emit (.msix p e.vector e.address e.data) s) s

/-- BUS_MASTER_RESUME (R116, R159): the function is in D0 with Bus Master Enable set. The host sets its other
configuration bits in the same command: Memory Space Enable, MSI-X Enable, ATS Enable and the entries of the MSI-X
table (log entry 28). -/
def execBusMasterResume (p : PortId) (ats : Bool) (table : List MsixEntry) (s : State) : Host.Outcome State Fault Refusal :=
  .next (
    if !configOpen s p then s
    else
      let stopped := !s.ports[p.val].bme || s.ports[p.val].d3hot
      let up (x : Port) : Port :=
        { x with
          bme := true
          mse := true
          d3hot := false
          msixEn := true
          msixFnMask := false
          atsEn := ats
          table := table.filter fun e => decide (e.vector < 2048)
          cache := if ats then x.cache else [] }
      let s := sendPending p (modPort p up s)
      let s := if stopped then sendHeld p s else s
      pumpAdmin (settleHeddle s))

/-- MEMORY_SPACE_DISABLE (R116). -/
def execMemorySpaceDisable (p : PortId) (s : State) : Host.Outcome State Fault Refusal :=
  .next (if configOpen s p then modPort p (fun x => { x with mse := false }) s else s)

/-- PASID_ENABLE_CHANGE (R116): fetching of bound slices stops or goes on. -/
def execPasidEnableChange (p : PortId) (enable : Bool) (s : State) : Host.Outcome State Fault Refusal :=
  .next (if configOpen s p then settleHeddle (modPort p (fun x => { x with pasidEn := enable }) s) else s)

/-- ATS_ENABLE_CLEAR (R116): the port's translation-cache entries go. -/
def execAtsEnableClear (p : PortId) (s : State) : Host.Outcome State Fault Refusal :=
  .next (if configOpen s p then modPort p (fun x => { x with atsEn := false, cache := [] }) s else s)

/-! ### Function-level reset (R117) -/

/-- Steps 1 to 3: items, slices, queues, stage, translation entries, trace ring and MSI-X table of the port go. `keep`
says what of the port's state stays. -/
def resetFunction (p : PortId) (keep : Port → Port) (s : State) : State :=
  let x := s.ports[p.val]
  settleAfterLeave (modPort p (fun _ => keep x) (removeFunction p s))

/-- FUNCTION_LEVEL_RESET (R117): ignored while one runs. -/
def execFunctionLevelReset (p : PortId) (s : State) : Host.Outcome State Fault Refusal :=
  .next (
    if !configOpen s p then s
    else
      raise0 (0x0A2 + 8 * p.val)
        (resetFunction p (fun x => { trained := x.trained, gen := x.gen, singleLane := x.singleLane, flr := true }) s))

/-- FUNCTION_LEVEL_RESET_END (R117 step 4). -/
def execFunctionLevelResetEnd (p : PortId) (s : State) : Host.Outcome State Fault Refusal :=
  .next (modPort p (fun x => { x with flr := false }) s)

/-! ### ATS invalidation (R135) -/

/-- The slice of the port that a request concerns. -/
def invalidates (s : State) (p : PortId) (pasid : Option (BitVec 20)) (globalInv : Bool) (i : SliceIdx) : Bool :=
  globalInv || s.slices.any fun x => x.port == p && x.idx == i && x.pasid == pasid

/-- Queues of the port whose ring read under way uses a removed entry: a read uses the translation of each of its pages,
be it granted for that read. -/
def readingHit (s : State) (p : PortId) (hit : SliceIdx → Nat → Bool) : List Nat :=
  (s.queues.filter fun q => q.port == p && (match q.reading with | some n => (ringPages q n).any (hit q.slice) | none => false)).map
    fun q => q.qnum

/-- Items of the port in service whose input still streams through a removed entry. -/
def streamingHit (s : State) (p : PortId) (hit : SliceIdx → Nat → Bool) : List Nat :=
  (s.heddle.items.filter fun i => i.port == p && i.place == .inService && i.result.isNone
    && (pagesOf (entryNat i.entry 16 8) (inputLen i.entry)).any (hit i.slice)).map fun i => i.id

/-- An item's output pages have a removed entry among them. -/
def outputHit (p : PortId) (hit : SliceIdx → Nat → Bool) (i : Item) : Bool :=
  i.port == p && (pagesOf (outputAddr i.entry).toNat (outputCap i.entry)).any (hit i.slice)

/-- ATS_INVALIDATION (R135): entries whose 4 KiB page lies in `first` to `last` go, outputs that used one are translated
again at their copy (R133), and the completion follows the reads that use a removed entry. -/
def execAtsInvalidation (p : PortId) (pasid : Option (BitVec 20)) (globalInv : Bool) (first last : Nat) (s : State) :
    Host.Outcome State Fault Refusal :=
  let named (i : SliceIdx) (page : Nat) : Bool :=
    decide (first ≤ page) && decide (page ≤ last) && invalidates s p pasid globalInv i
  let hit (i : SliceIdx) (page : Nat) : Bool := named i page && translated s p i page
  .next (
    if functionPresent s p && !s.ports[p.val].flr then
      let d : AtsDrain := { queues := readingHit s p (if s.ports[p.val].atsEn then named else hit), items := streamingHit s p hit }
      let s := modItems (outputHit p hit) (fun i => { i with retranslate := true }) s
      settleDrains (modPort p (fun x =>
        { x with cache := x.cache.filter fun t => !hit t.slice t.page, drains := x.drains ++ [d] }) s)
    else s)

end Sys2Proof.Machine
end

