-- ==== Sys2Proof/Machine/Faults.lean ====
section
/-! DEFINITION. The fault collector's reactions and the warden's triggers (R219, R331, R353, R370, R386, R486 to R500). -/

namespace Sys2Proof.Machine

/-! ### Mismatches (R199, R219, R331, R353) -/

/-- DUPLICATE_ROUND_MISMATCH (R199, R331): in a Keccak core of a loom or a selvedge unit that runs an item. -/
def duplicateMismatch (e : Engine) (s : State) : State :=
  match e, servingOn s e with
  | .loom n, some _ => settleAfterLeave (loomMismatch n none s)
  | .selvedge u, some _ => settleAfterLeave (selvMismatch u s)
  | _, _ => s

def execDuplicateRoundMismatch (e : Engine) (s : State) : Host.Outcome State Fault Refusal := .next (duplicateMismatch e s)

/-- TRESTLE_SELF_CHECK_MISMATCH (R353): of the active job of a trestle. -/
def execTrestleSelfCheckMismatch (t : TrestleId) (s : State) : Host.Outcome State Fault Refusal :=
  .next (match activeJob s t with
    | none => s
    | some i => settleAfterLeave (trestleMismatch t i s))

/-- The verify pass of the routine on a loom finds a mismatch, alone or with the trestle part's own check. -/
def verifyMismatch (n : LoomId) (found : VerifyFinding) (s : State) : State :=
  match servingOn s (.loom n) with
  | none => s
  | some i =>
    match i.trestle, found.trestleToo with
    | some t, true => settleAfterLeave (bothMismatch n found.lane t i s)
    | _, _ => settleAfterLeave (loomMismatch n found.lane s)

/-- VERIFY_MISMATCH (R219, R286). -/
def execVerifyMismatch (n : LoomId) (found : VerifyFinding) (s : State) : Host.Outcome State Fault Refusal :=
  .next (verifyMismatch n found s)

/-! ### Correctable errors (R490) -/

/-- The event of a source's correctable error. -/
def correctedEvent (src : Nat) (s : State) : State :=
  if src < 80 then raiseUnit 0x114 src s
  else if src < 88 then raise0 (0x0F1 + 2 * (src - 80)) s
  else if src < 92 then raise0 (0x101 + 2 * (src - 88)) s
  else if src < 96 then raise0 (0x0A7 + 8 * (src - 92)) s
  else if src = 96 then raise0 0x110 s
  else if src = 97 then
    raise0 0x0D8 { s with cabinet := { s.cabinet with corrected := satAdd 65535 s.cabinet.corrected 1 } }
  else if src = 98 then raise0 0x0E9 s
  else if src = 102 then raise0 0x118 s
  else raiseUnit 0x115 src s

/-- A correctable error: corrected, counted and logged, and nothing else. -/
def correctable (src : Nat) (s : State) : State :=
  let s := report src false s
  correctedEvent src { s with faults := { s.faults with ceCount := satAdd 4294967295 s.faults.ceCount 1 } }

/-- CORRECTABLE_ERROR (R490). -/
def execCorrectableError (source : Fin 104) (s : State) : Host.Outcome State Fault Refusal :=
  .next (if s.mode.base == .dormant then s else correctable source.val s)

/-! ### Uncorrectable errors (R490 to R495) -/

/-- A UE of a bench's control store or clock monitor: every loom of the bench restarts its item, and the bench is
fenced. -/
def benchFault (b : BenchId) (s : State) : State :=
  let fenced := s.faults.bench.getLsbD b.val
  let s := raise0 (0x081 + 2 * b.val) (report (64 + b.val) true s)
  if fenced then s else fenceUnits true (benchBit b.val) [] 0 0 s

/-- A UE of a loom. -/
def loomFault (n : LoomId) (cacheOnly : Bool) (s : State) : State :=
  let fenced := loomFenced s n
  let s := raise0 (2 * n.val) (report n.val true s)
  if fenced then s
  else if cacheOnly then modLoom n (fun l => { l with cache := [] }) (restartAllOn true (.loom n) s)
  else fenceUnits true 0 [n] 0 0 s

/-- A UE of a trestle: the jobs that `hit` picks make a fault restart, the other restarts uncounted (R353). -/
def trestleFault (t : TrestleId) (hit : Item → Bool) (s : State) : State :=
  let fenced := s.faults.trestle.getLsbD t.val
  let s := raise0 (0x0F0 + 2 * t.val) (report (80 + t.val) true s)
  if fenced then s
  else
    let victims := s.heddle.items.filter fun i => i.place == .inService && trestleOf i == some t && hit i
    fenceTrestle t (victims.foldl (fun s i => restartItem true [.trestle t] i s) s)

/-- A UE of a selvedge unit (R331). -/
def selvFault (u : SelvId) (keyStore : Bool) (s : State) : State :=
  let fenced := s.faults.selv.getLsbD u.val
  let s := raise0 (0x100 + 2 * u.val) (report (88 + u.val) true s)
  if fenced then s
  else if keyStore then modSelv u (fun v => { v with cache := [] }) (restartAllOn true (.selvedge u) s)
  else fenceUnits true 0 [] 0 (selvBit u.val) s

/-- A UE of a port's shuttle section: steps 1 to 3 of R117, a fatal AER report, and the function's fence (R493). -/
def shuttleFault (p : PortId) (s : State) : State :=
  let fenced := portFenced s p
  let s := raise0 (0x0A6 + 8 * p.val) (report (92 + p.val) true s)
  if fenced then s
  else
    let keep (x : Port) : Port :=
      { trained := x.trained
        gen := x.gen
        singleLane := x.singleLane
        bme := x.bme
        mse := x.mse
        pasidEn := x.pasidEn
        atsEn := x.atsEn
        d3hot := x.d3hot
        msixEn := x.msixEn
        msixFnMask := x.msixFnMask
        flr := x.flr }
    let s := resetFunction p keep s
    let s := if functionPresent s p then emit (.aerFatal p) s else s
    { s with faults := { s.faults with port := s.faults.port ||| BitVec.ofNat 4 (2 ^ p.val) } }

/-- An item whose entry is lost: nothing of it but its ring index stays (R494). -/
def loseItem (i : Item) (s : State) : State :=
  modItem i.id (fun x =>
    { x with
      entry := 0
      place := .done
      record := none
      scratch := 0
      keyRun := none
      holdsFlow := false
      result := none
      done := none }) (settleRuns (returnReservation i.id s))

/-- A UE in a ready-list entry or a park slot (R494). -/
def entryFault (id : Nat) (copyReadable : Bool) (s : State) : State :=
  match findItem s id with
  | none => s
  | some i =>
    if !(i.place == .ready || i.place == .parked) then s
    else
      let s := report 96 true s
      if copyReadable then failItem .unitFault i (raise 0x111 (detailOf 0 0 0x0C 0 0) s)
      else loseItem i (raise 0x111 (detailOf 0 0 0x0D 0 0) s)

/-- Hold with CAUSE 8, which only Idle and the Serve modes enter (R50) and the steward runs (R495). -/
def cabinetHold (s : State) : State :=
  if isIdleServe s.mode.base && !s.mode.stewardLost then enterHold 8 s else s

/-- Hold with CAUSE 8 stands: another cabinet error is a repeat only (R495). -/
def cabinetHeld (s : State) : Bool := s.mode.base == .hold && s.mode.cause == 8

/-- An uncorrectable drawer word (R394): the items whose handle names the run that holds it complete with UNIT_FAULT
(R59), but in Hold with CAUSE 8 (R495). -/
def drawerFault (p : PortId) (slice : SliceIdx) (index : Nat) (s : State) : State :=
  let s := raise0 0x0D9 (report 97 true s)
  if cabinetHeld s then s
  else match s.runs.find? fun r => r.port == p && r.slice == slice && decide (r.first ≤ index) && decide (index < r.first + r.length) with
  | none => cabinetHold s
  | some r =>
    let one (s : State) (i : Item) : State :=
      if i.place == .inService then resumeTrestle i (failInService .unitFault 0 i (countAbandon i s)) else failItem .unitFault i s
    cabinetHold ((runUsers s r).foldl one s)

/-- An uncorrectable chest word: the tag fails at the next Wake (R393). -/
def chestFault (s : State) : State :=
  let s := raise0 0x0D9 (report 97 true s)
  cabinetHold { s with backup := { s.backup with chest := { s.backup.chest with damaged := true } } }

/-- A UE of a farm core or buffer, by slot (R370). -/
def slotFault (d : DigestSlot) (s : State) : State :=
  let s := raise0 0x0E8 (report 98 true s)
  modDigest d (fun x =>
    if x.state == .free then x else { x with state := .done, status := 0x0501, result := [], resultLen := 0 }) s

/-- A UE in an instance's state (R386): it is instantiated again; the item that draws makes a fault restart. -/
def instanceFault (i : InstId) (drawing : Option Nat) (s : State) : State :=
  let s := raise0 0x0E6 (report 99 true s)
  let s := modInstance i (fun x => { x with instantiated := false, stalled := false, count := 0 }) s
  let s := if testsRun s then requestSeed i s else s
  match drawing.bind (findItem s) with
  | some x => if x.place == .inService then restartItem true [] x s else s
  | none => s

/-- The bobbin's conditioner fails its own check (R386). -/
def conditionerFault (s : State) : State :=
  let s := raise0 0x0E7 (report 99 true s)
  if mayFail s || s.bobbin.state == .starting then bobbinFails s else s

/-- A fabric transfer outside the units (R490, source 101). -/
def fabricFault (load : FabricLoad) (s : State) : State :=
  let s := raise0 0x116 (report 101 true s)
  match load with
  | .item id =>
    (match findItem s id with
    | some i => if i.place == .inService then restartItem true [] i s else s
    | none => s)
  | .hostRead p => if functionPresent s p then emit (.completerAbort p) s else s
  | .other => s

/-- A UE of the flash and logbook controller: fenced at the second of a power cycle (R495). -/
def flashFault (s : State) : State :=
  let s := raise0 0x119 (report 102 true s)
  if s.faults.flashFenced then s
  else { s with faults := { s.faults with flashUes := s.faults.flashUes + 1, flashFenced := decide (1 ≤ s.faults.flashUes) } }

/-- The reaction to a reported uncorrectable error. -/
def uncorrectable (r : UeReport) (s : State) : State :=
  match r with
  | .loomStore n => loomFault n false s
  | .loomCache n => loomFault n true s
  | .benchControlStore b => benchFault b s
  | .benchClock b => benchFault b s
  | .trestleContext t ctxB => trestleFault t (fun i => i.ctxB == ctxB) s
  | .trestleSequencer t => trestleFault t (fun i => !i.suspended) s
  | .selvedgeWork u => selvFault u false s
  | .selvedgeKey u => selvFault u true s
  | .shuttle p => shuttleFault p s
  | .heddleEntry id readable => entryFault id readable s
  | .drawer p slice index => drawerFault p slice index s
  | .chestWord => chestFault s
  | .digestSlot d => slotFault d s
  | .digestItem k => restartAllOn true (.digest k) (raise0 0x0E8 (report 98 true s))
  | .bobbinInstance i drawing => instanceFault i drawing s
  | .bobbinConditioner => conditionerFault s
  | .fabric load => fabricFault load s
  | .flashController => flashFault s
  | .stewardSram => wardenTakeover 3 (report 100 true s)
  | .faultCollector => wardenTakeover 4 (report 103 true s)

/-- FABRIC_PARITY_ERROR (R487): repeated once; a repeat that passes is a correctable error of the receiving unit, whose
source is given, a second failure an uncorrectable one. -/
def execFabricParityError (receiver : UeReport) (source : Fin 104) (repeatFails : Bool) (s : State) :
    Host.Outcome State Fault Refusal :=
  .next (
    if s.mode.base == .dormant then s
    else if repeatFails then settleAfterLeave (uncorrectable receiver s)
    else correctable source.val s)

/-! ### The warden's other triggers (R496) -/

/-- The steward's lockstep differs; the warden takes over with `trigger`. -/
def lockstepAct (trigger : Nat) (s : State) : State :=
  if s.mode.base == .dormant then s else settleAfterLeave (wardenTakeover trigger (report 100 true s))

/-- LOCKSTEP_MISMATCH (R496). -/
def execLockstepMismatch (s : State) : Host.Outcome State Fault Refusal := .next (lockstepAct 1 s)

/-- The steward's heartbeat is missing. -/
def heartbeatAct (s : State) : State := settleAfterLeave (wardenTakeover 2 s)

/-- HEARTBEAT_TIMEOUT (R496). -/
def execHeartbeatTimeout (s : State) : Host.Outcome State Fault Refusal := .next (heartbeatAct s)

end Sys2Proof.Machine
end

