-- ==== Sys2Proof/Machine/Ageing.lean ====
section
/-! DEFINITION. The ageing monitor (R501 to R505). -/

namespace Sys2Proof.Machine

/-- The bench is measured: in the plan or about to return, and not fenced (R501). -/
def measurable (s : State) (b : BenchId) : Bool :=
  (s.power.benchOn ||| s.power.benchReturn).getLsbD b.val && !s.faults.bench.getLsbD b.val
    && !(s.mode.base == .dormant) && !s.mode.stewardLost

/-- AGEING_MEASURE (R501): a measurement of the bench starts; the first of a round restarts AGE_NEXT (R512). -/
def execAgeingMeasure (b : BenchId) (s : State) : Host.Outcome State Fault Refusal :=
  .next (
    if measurable s b then
      modBench b (fun x => { x with measuring := true })
        { s with cal := { s.cal with ageNext := if s.cal.ageNext = 0 then 86400 else s.cal.ageNext } }
    else s)

/-- LOSS in 1/100 ps: the baseline less the slack normalised to 100 °C (R501). -/
def lossOf (c : BenchCal) (slack tj : Int) : Int := 100 * c.baseline - (100 * slack + c.coeff * (100 - tj))

/-- A clock step: the bench's routines restart elsewhere, uncounted, and it returns at the next beat with its stores
kept (R503). -/
def clockStep (b : BenchId) (s : State) : State :=
  let m := benchBit b.val
  let inService := s.power.benchOn.getLsbD b.val
  let s := restartWhere 0x08 false (onBench b.val) s
  let s := modBench b (fun x => { x with clkStep := x.clkStep + 1, measuring := true }) s
  if inService then
    { s with power := { s.power with benchOn := s.power.benchOn &&& ~~~m, benchReturn := s.power.benchReturn ||| m } }
  else s

/-- One turn of R502's loop, by the loss just measured. -/
def replanBench (b : BenchId) (c : BenchCal) (s : State) : State :=
  let x := s.benches[b.val]
  let ev (code : Nat) (s : State) : State := raise (0x080 + 2 * b.val) (detailOf 0 0 code 0 0) s
  if x.loss ≤ 100 * (c.lossMax : Int) then modBench b (fun x => { x with needsMeasure := false }) s
  else if x.trim < 8 then ev 6 (modBench b (fun x => { x with trim := x.trim + 1, measuring := true }) s)
  else if x.clkStep < 2 then ev 7 (clockStep b s)
  else ev 8 (fenceUnits false (benchBit b.val) [] 0 0 (modBench b (fun x => { x with ageFenced := true }) s))

/-- A measurement ends: a bench without a baseline takes no step and is never fenced (R505). -/
def ageingDone (b : BenchId) (slack tj : Int) (s : State) : State :=
  let x := s.benches[b.val]
  if !x.measuring then s
  else
    let s := modBench b (fun x => { x with measuring := false }) s
    if !measurable s b then s
    else if x.noBaseline then modBench b (fun x => { x with needsMeasure := false }) s
    else match s.cal.benches[b.val]? with
      | none => modBench b (fun x => { x with needsMeasure := false }) s
      | some c => settleAfterLeave (replanBench b c (modBench b (fun x => { x with loss := lossOf c slack tj }) s))

/-- AGEING_MEASURE_DONE (R501, R502, R505). -/
def execAgeingMeasureDone (b : BenchId) (slack tj : Int) (s : State) : Host.Outcome State Fault Refusal :=
  .next (ageingDone b slack tj s)

end Sys2Proof.Machine
end

