-- ==== Sys2Proof/Machine/Power.lean ====
section
/-! DEFINITION. Contracts, plans, throttling and bench gating (R25 to R47, R62, R63). -/

namespace Sys2Proof.Machine

/-! ### Contracts (R25 to R27) -/

/-- The Type-C or USB 2.0 default contract (R25, R26). -/
def defaultContract (o : Offer) : Contract :=
  match o.typeC with
  | .none => { attached := true, emark5a := o.emark5a, source := 1, current := 50, voltage := 100, valid := true }
  | .a15 => { attached := true, emark5a := o.emark5a, source := 2, current := 150, voltage := 100, valid := true }
  | .a30 => { attached := true, emark5a := o.emark5a, source := 2, current := 300, voltage := 100, valid := true }

/-- A fixed offer requested at `i` (10 mA units). -/
def pdContract (o : Offer) (volts i : Nat) : Contract :=
  { attached := true, emark5a := o.emark5a, source := 3, current := i, voltage := 20 * volts, valid := true }

/-- The better of two requests: higher power, and the higher voltage on a tie (R25). -/
def betterOffer (a b : FixedOffer) : FixedOffer :=
  let pa := a.volts * min a.current 300
  let pb := b.volts * min b.current 300
  if pa < pb then b else if pb < pa then a else if a.volts < b.volts then b else a

/-- The contract the module requests for an offer (R25). -/
def chooseContract (o : Offer) : Contract :=
  let at20 := o.fixed.filter fun f => f.volts == 20
  if at20.any (fun f => 500 ≤ f.current) && o.emark5a then pdContract o 20 500
  else if at20.any (fun f => 300 ≤ f.current) then pdContract o 20 300
  else match o.fixed.filter fun f => f.volts == 20 || f.volts == 15 || f.volts == 9 || f.volts == 5 with
    | [] => defaultContract o
    | f :: rest =>
      let best := rest.foldl betterOffer f
      pdContract o best.volts (min best.current 300)

/-- The sum of contract powers, which the converters share the load by (R28). -/
def totalPower (s : State) : Nat := (s.power.contracts.toList.map contractPower).sum

/-- Every path follows its contract: limited to its current, capped at its power, its converter set to its share of the
sum; the diode of a path without a contract is open (R28, R37 step 2). -/
def settlePaths (s : State) : State :=
  let path (p : Fin 4) : Path :=
    let c := s.power.contracts[p.val]
    { diodeOpen := !c.valid
      limit := if c.valid then c.current else 0
      cap := contractPower c
      share := contractPower c
      outOf := totalPower s
      requestCap := s.power.paths[p.val].requestCap }
  { s with power := { s.power with paths := Vector.ofFn path } }

/-- What a path carries of a load, in the load's units (R28): its converter's share, never more than its cap. -/
def pathLoad (x : Path) (load : Nat) : Nat := if x.diodeOpen || x.outOf = 0 then 0 else min x.cap (load * x.share / x.outOf)

def setContract (p : PortId) (c : Contract) (s : State) : State :=
  settlePaths { s with power := { s.power with contracts := s.power.contracts.set p.val c } }

/-- Before its new request the module caps the path at the lower of the old and the new contract (R27). -/
def capPath (p : PortId) (c : Contract) (s : State) : State :=
  let cap := min (contractPower s.power.contracts[p.val]) (contractPower c)
  let old := s.power.paths[p.val]
  { s with power := { s.power with paths := s.power.paths.set p.val { old with cap := min old.cap cap, requestCap := cap } } }

/-- In a powered mode a change of contracts is re-planned; the PD engines alone run in Dormant (R39, R65). -/
def replanIfOn (s : State) : State := if s.mode.base == .dormant then s else replan s

/-- What follows a change of contracts in a powered mode: items that wait are tried again (R174, R175). -/
def settleIfOn (s : State) : State := if s.mode.base == .dormant then s else settleAfterLeave s

/-- PORT_ATTACH (R39): a source attaches and settles a contract. -/
def execPortAttach (p : PortId) (offer : Offer) (s : State) : Host.Outcome State Fault Refusal :=
  if s.power.contracts[p.val].attached then .next s
  else .next (replanIfOn (setContract p (chooseContract offer) s))

/-- A contract replaces the port's: a fall sets the port's CONTRACT_DROP bit and logs the event (R37, R46, R47). -/
def replaceContract (p : PortId) (c : Contract) (s : State) : State :=
  let falls := contractPower c < contractPower s.power.contracts[p.val]
  let s := setContract p c s
  if s.mode.base == .dormant then s
  else replan (if falls then raise0 0x11E (powerEvent (4 + p.val) s) else s)

/-- CONTRACT_CHANGE (R27): new capabilities. The path is capped before the request, and the outcome is a contract
change. -/
def execContractChange (p : PortId) (offer : Offer) (bulkLow : Bool) (s : State) : Host.Outcome State Fault Refusal :=
  if !s.power.contracts[p.val].attached then .next s
  else
    let c := chooseContract offer
    .next (settleIfOn (bulk bulkLow (replaceContract p c (capPath p c s))))

/-- A port detaches (R37): the budget is recomputed and units are parked, then the port's function is removed. When the
USB4 link alone goes down, or the host sends a hot reset, the contract stands (R17, R117). -/
def portDetach (p : PortId) (linkOnly bulkLow : Bool) (s : State) : State :=
  let gone := if linkOnly then s else setContract p {} s
  if !s.power.contracts[p.val].attached then s
  else if s.mode.base == .dormant then gone
  else if linkOnly && !s.ports[p.val].trained then s
  else settleAfterLeave (detachFunction p (bulk bulkLow (replan gone)))

/-- PORT_DETACH (R37). -/
def execPortDetach (p : PortId) (linkOnly bulkLow : Bool) (s : State) : Host.Outcome State Fault Refusal :=
  .next (portDetach p linkOnly bulkLow s)

/-- A contract lower than the present one is accepted (R37); any other is no drop. -/
def contractDrop (p : PortId) (volts current : Nat) (bulkLow : Bool) (s : State) : State :=
  let c := s.power.contracts[p.val]
  let c' := { c with voltage := volts, current := current }
  if !c.valid || contractPower c ≤ contractPower c' then s
  else settleIfOn (bulk bulkLow (replaceContract p c' s))

/-- CONTRACT_DROP (R37). -/
def execContractDrop (p : PortId) (volts current : Nat) (bulkLow : Bool) (s : State) : Host.Outcome State Fault Refusal :=
  .next (contractDrop p volts current bulkLow s)

/-- PATH_OVERCURRENT (R46). -/
def execPathOvercurrent (p : PortId) (bulkLow : Bool) (s : State) : Host.Outcome State Fault Refusal :=
  if s.mode.base == .dormant || !s.power.contracts[p.val].attached then .next s
  else .next (bulk bulkLow (raise0 0x123 s))

/-- PLAN_UP_HOLD_EXPIRY (R39): the plan rises; its units return at the next beat. -/
def execPlanUpHoldExpiry (bulkLow : Bool) (s : State) : Host.Outcome State Fault Refusal :=
  match s.power.hold with
  | none => .next s
  | some t =>
    if s.mode.base == .dormant || s.mode.stewardLost then .next s
    else .next (bulk bulkLow { s with power := { s.power with hold := none, rise := some t } })

/-- SOURCE_CAPABILITIES_TIMEOUT (R65): 620 ms after attach without capabilities, the default contract, with EMARK5A 0
(log entry 180). -/
def execSourceCapabilitiesTimeout (p : PortId) (typeC : TypeC) (s : State) : Host.Outcome State Fault Refusal :=
  if s.power.contracts[p.val].valid then .next s
  else .next (replanIfOn (setContract p (defaultContract { fixed := [], typeC := typeC, emark5a := false }) s))

/-! ### Thermal throttling (R41, R42) -/

/-- THERMAL_SAMPLE (R41); THROTTLING by log entry 133. -/
def execThermalSample (tj : Int) (s : State) : Host.Outcome State Fault Refusal :=
  if s.mode.base == .dormant then .next s
  else .next { s with power := { s.power with
    tj := tj, throttling := decide (100 ≤ tj) || (s.power.throttling && !(decide (tj < 95) && s.power.throttled == 0)) } }

/-- Benches of a role in service. -/
def roleBenches (s : State) (r : Nat) : List Nat :=
  (List.range 16).filter fun b => s.power.benchOn.getLsbD b && !s.faults.bench.getLsbD b && roleOf s b == r

/-- The bench throttling parks next: the highest-numbered of the role with the most benches in service, never a role's
last, never below four benches (R41, R42). -/
def throttleChoice (s : State) : Option Nat :=
  let counts := [1, 2, 3].map fun r => (roleBenches s r).length
  let top := counts.foldl max 0
  if counts.sum ≤ 4 || top ≤ 1 then none
  else ([1, 2, 3].flatMap fun r => if (roleBenches s r).length = top then roleBenches s r else []).max?

/-- One bench is parked, with its event (log entry 131). -/
def throttleOne (s : State) : State :=
  match throttleChoice s with
  | none => s
  | some b =>
    let s := { s with power := { s.power with throttled := setBit s.power.throttled b true } }
    raise0 0x120 (powerEvent 10 (parkBenches (benchBit b) s))

/-- THERMAL_STEP (R42): two benches are parked. -/
def execThermalStep (bulkLow : Bool) (s : State) : Host.Outcome State Fault Refusal :=
  if s.mode.base == .dormant || s.power.tj < 100 then .next s
  else .next (settleAfterLeave (bulk bulkLow (throttleOne (throttleOne s))))

/-- THERMAL_CLEAR (R41): one bench that throttling parked returns at the next beat; the manual does not say which, so
it is a free choice among them (log entry 14). -/
def execThermalClear (bulkLow : Bool) (s : State) : Host.Outcome State Fault Refusal :=
  let cand := bitsOf (s.power.throttled &&& planBenches s s.power.plan)
  if s.mode.base == .dormant || 95 ≤ s.power.tj || cand.isEmpty then .next s
  else
    let f := takeFree s
    let b := cand.getD (f.1 % cand.length) 0
    let s := f.2
    let th := setBit s.power.throttled b false
    .next (bulk bulkLow (raise0 0x121 (askBenchSeeds { s with power := { s.power with
      throttled := th, throttling := !(th == 0), benchReturn := setBit s.power.benchReturn b true } })))

/-! ### Gating (R62, R63) -/

/-- The looms' service class of a bench role (R170). -/
def benchClass (r : Nat) : Option SvcClass :=
  match r with | 1 => some .kem | 2 => some .sign | 3 => some .hash | _ => none

/-- An item of the role waits in the ready list, and no loom of an ungated bench of the role is free (R63; log entry 143). -/
def startDue (s : State) (r : Nat) : Bool :=
  (s.heddle.items.any fun i => i.place == .ready && some i.cls == benchClass r)
    && !((fins 64).any fun n => roleOf s (n.val / 4) == r && mayAsk s (.loom n))

/-- BENCH_GATE (R62): a bench in the plan, not fenced (log entry 136), whose role has no work; every store is kept. -/
def execBenchGate (b : BenchId) (s : State) : Host.Outcome State Fault Refusal :=
  let busy := s.heddle.items.any fun i =>
    (waiting i && some i.cls == benchClass (roleOf s b.val)) || itemUses (onBench b.val) i
  if !s.power.benchOn.getLsbD b.val || s.faults.bench.getLsbD b.val || busy then .next s
  else .next (unask (onBench b.val) (modBench b (fun x => { x with gated := true }) s))

/-- BENCH_START (R63): the lowest-numbered gated bench of a role whose items find no free loom is started. -/
def execBenchStart (b : BenchId) (s : State) : Host.Outcome State Fault Refusal :=
  let gated (n : Nat) : Bool := match s.benches[n]? with | some x => x.gated | none => false
  let lower := (List.range b.val).any fun n => gated n && roleOf s n == roleOf s b.val
  if !gated b.val || lower || !startDue s (roleOf s b.val) then .next s
  else .next (modBench b (fun x => { x with gated := false }) s)

end Sys2Proof.Machine
end

