-- ==== Sys2Proof/Machine/Tamper.lean ====
section
/-! DEFINITION. The tamper watch: its evaluations on main power and on the cell, the twice-decided response, the
built-in stimulus, and what the owner does to it (R464 to R485). -/

namespace Sys2Proof.Machine

/-- The debug port is open: in Raw, Factory-Test, Analysis and Test-Root, once the life-cycle reader has run (R22,
R526). -/
def debugOpen (s : State) : Bool :=
  !(s.mode.base == .dormant) && s.mode.straps.isSome && (s.life.debug || s.life.state == 0 || s.life.state == 1 || s.life.state == 4)

/-- What a source can sense at an evaluation: no pin activity while the debug port is open (R526), no rail under-voltage
in a power-fail (R472). -/
def senses (s : State) (f : Firing) : Bool :=
  let v := f.source.val
  if v = 22 then !debugOpen s else if v = 4 ∨ v = 6 ∨ v = 8 ∨ v = 10 then !s.power.railMask else true

/-! ### The second decision (R474) -/

/-- The class that a list of firings makes. -/
def topClass (l : List (Firing × Nat)) : Nat := l.foldl (fun m x => max m x.2) 0

/-- The class a source fires at in a list. -/
def classIn (s : State) (l : List (Firing × Nat)) (src : SourceId) : Nat :=
  match l.find? fun x => x.1.source == src with
  | some x => x.2
  | none => classOf s src

/-- The source that reports two decisions that differ. -/
def mismatchFiring (s : State) : Firing × Nat := ({ source := 20, scope := .all, machine := 0 }, classOf s 20)

/-- What the second evaluation of a pair applies: the higher of the two classes, and source 20 when they differ. -/
def decidedPair (first : List (Firing × Nat)) (qualifying : List SourceId) (s : State) : List (Firing × Nat) :=
  let now := (first.filter fun x => qualifying.contains x.1.source && !s.fuses.fused.getLsbD x.1.source.val).map fun x =>
    (x.1, classOf s x.1.source)
  let same := !now.isEmpty && topClass now == topClass first
  let taken := if now.isEmpty || decide (topClass now < topClass first) then first else now
  if same then taken else taken ++ [mismatchFiring s]

/-- The second evaluation of a pair. -/
def secondDecision (first : List (Firing × Nat)) (qualifying : List SourceId) (s : State) : State :=
  let all := decidedPair first qualifying s
  fireAll (classIn s all) 0 (all.map fun x => x.1) s

/-- The delay of an open pair ends. -/
def endPair (pair : Nat) (qualifying : List SourceId) (s : State) : State :=
  if s.mode.base == .dormant then s
  else match s.tamper.pairs[pair]? with
    | none => s
    | some d =>
      let s := { s with tamper := { s.tamper with pairs := s.tamper.pairs.eraseIdx pair } }
      settleAfterLeave (secondDecision d.firings qualifying s)

/-- TWICE_DECIDED_SECOND. -/
def execTwiceDecidedSecond (pair : Nat) (qualifying : List SourceId) (s : State) : Host.Outcome State Fault Refusal :=
  .next (endPair pair qualifying s)

/-! ### Sources that stay active, and that go (R470) -/

/-- One repeat more of an event that has a latch entry. -/
def latchRepeat (ev : Nat) (s : State) : State :=
  let up (e : LatchEntry) : LatchEntry := if e.event == ev then { e with repeats := satAdd 255 e.repeats 1 } else e
  { s with backup := { s.backup with latch := s.backup.latch.map up } }

/-- One repeat more of a source's firing: in the latch, in its record, or behind the event that still waits for the
steward (R470, R478, R518). -/
def tamperRepeat (src : SourceId) (s : State) : State :=
  let ev := 0xC0 + src.val
  if latching s then latchRepeat ev s
  else match s.log.queue.reverse.find? fun e => e.event == ev with
    | some e => queueEvent { e with clock := s.clock, time := s.log.seconds } s
    | none => match newestOf ev s.log.records with
      | some r => repeatRecord r.seq s.log.seconds s
      | none => s

/-- TAMPER_REPEAT (R470). -/
def execTamperRepeat (src : SourceId) (s : State) : Host.Outcome State Fault Refusal :=
  .next (
    if s.fuses.fused.getLsbD src.val then s
    else if s.mode.base == .dormant then
      if s.backup.active.getLsbD src.val then latchRepeat (0xC0 + src.val) s else s
    else if s.tamper.active.getLsbD src.val then tamperRepeat src s
    else s)

/-- SOURCE_GOES_INACTIVE (R470). -/
def execSourceGoesInactive (src : SourceId) (s : State) : Host.Outcome State Fault Refusal :=
  let s := if src.val = 3 then { s with backup := { s.backup with cellOk := true } } else s
  .next (
    if s.mode.base == .dormant then { s with backup := { s.backup with active := setBit s.backup.active src.val false } }
    else { s with tamper := { s.tamper with
      active := setBit s.tamper.active src.val false
      sensed := s.tamper.sensed.filter fun f => f.source != src } })

/-! ### On the cell alone (R476 to R478) -/

/-- Sources sensed on the cell alone (R464). -/
def cellSource (i : SourceId) : Bool := i.val < 4 || i.val == 14 || i.val == 15

/-- The class in force on the cell: the backup domain's copy (R476). -/
def cellClass (s : State) (src : SourceId) : Nat := if s.fuses.fused.getLsbD src.val then 0 else s.backup.classes[src.val]

/-- An alarm on the cell alone: its sticky flag and a latch entry with the seconds since main power was lost. -/
def cellAlarm (s : State) (src : SourceId) : State :=
  let s := { s with backup := { s.backup with sticky := setBit s.backup.sticky src.val true } }
  let c := cellClass s src
  latchEntry
    { event := 0xC0 + src.val
      severity := severityOf s (0xC0 + src.val)
      cls := c
      time := s.backup.alone / cyclesPerSecond
      cell := true
      cycle := s.flash.powerCycle } s

/-- The backup domain has power without the main domain. -/
def cellFeeds (s : State) : Bool := s.mode.base == .dormant && s.backup.cellOk && !s.backup.wasLost

/-- CELL_WINDOW (R476): windows are 8 ms apart. Only a ZEROIZE class acts, and only on the chest (R477); a cell below its
low threshold loses it (R24). -/
def execCellWindow (sources : List SourceId) (s : State) : Host.Outcome State Fault Refusal :=
  .next (
    if !cellFeeds s then s
    else
      let s := aloneTo ((s.backup.alone / 6000000 + 1) * 6000000) s
      let on := (fins 24).filter fun i => cellSource i && sources.contains i && !s.fuses.fused.getLsbD i.val
      let fresh := on.filter fun i => !s.backup.active.getLsbD i.val
      let s := fresh.foldl cellAlarm s
      let s := if fresh.any fun i => cellClass s i == 3 then clearChest s else s
      let s := { s with backup := { s.backup with active := maskOf 24 (on.map fun i => i.val) } }
      -- below its low threshold the cell no longer keeps the chest (R24)
      if sources.contains 3 then loseBackup s else s)

/-! ### The built-in stimulus (R482, R484) -/

/-- TAMPER_STIMULUS: one source at a time; its response is held. -/
def execTamperStimulus (src : SourceId) (s : State) : Host.Outcome State Fault Refusal :=
  .next (
    if s.mode.base == .dormant || s.fuses.fused.getLsbD src.val || s.tamper.stimulus.isSome then s
    else { s with tamper := { s.tamper with stimulus := some src, heldAlarm := false } })

/-- A firing that comes from a window has the scope all engines. -/
def windowFiring (src : SourceId) : Firing := { source := src, scope := .all, machine := 0 }

/-- A source that did not respond is treated as firing at min(class, HALT), detail STIM_FAIL. -/
def stimulusFails (src : SourceId) (s : State) : State :=
  let s := { s with tamper := { s.tamper with stimFail := setBit s.tamper.stimFail src.val true } }
  fireAll (fun i => min (classOf s i) 2) 3 [windowFiring src] s

/-- The window of a source ends: a source that was quiet before it and stays active fires, and so does a real alarm that
the window held. -/
def endWindow (src : SourceId) (responded stillActive : Bool) (s : State) : State :=
  let real := s.tamper.heldAlarm
  let before := s.tamper.active.getLsbD src.val && !real
  let s := { s with tamper := { s.tamper with stimulus := none, heldAlarm := false } }
  let s := if responded then { s with tamper := { s.tamper with stimFail := setBit s.tamper.stimFail src.val false } }
    else stimulusFails src s
  let s := if real || (stillActive && !before) then
      evaluate [windowFiring src] { s with tamper := { s.tamper with active := setBit s.tamper.active src.val false } }
    else s
  { s with tamper := { s.tamper with
    active := setBit s.tamper.active src.val stillActive
    sensed := if stillActive then s.tamper.sensed else s.tamper.sensed.filter fun f => f.source != src } }

/-- A source's window ends; a source fused in its window senses nothing any more. -/
def windowEnds (src : SourceId) (responded stillActive : Bool) (s : State) : State :=
  if s.mode.base == .dormant || s.tamper.stimulus != some src then s
  else if s.fuses.fused.getLsbD src.val then { s with tamper := { s.tamper with stimulus := none, heldAlarm := false } }
  else settleAfterLeave (endWindow src responded stillActive s)

/-- STIMULUS_WINDOW_END. -/
def execStimulusWindowEnd (src : SourceId) (responded stillActive : Bool) (s : State) : Host.Outcome State Fault Refusal :=
  .next (windowEnds src responded stillActive s)

/-! ### The owner's commands (R479, R483) -/

/-- The flags that a mask names; bits above 23 name none. -/
def flagsNamed (mask : Word) : List SourceId := (fins 24).filter fun i => mask.getLsbD i.val

/-- TAMPER_CLEAR, inner command 0x0009: the flags as they stood at its acceptance. -/
def execTamperClear (s : State) : Host.Outcome State Fault Refusal :=
  .next (match s.owner, ownerReady s with
    | some o, some (.tamperClear mask) =>
      let guarded := (flagsNamed mask).any fun i => decide (2 ≤ classOf s i)
      if guarded && !quorumStands s then ownerDone .keyPolicy (quorumFails (readQuorum s))
      else
        let s := if guarded then readQuorum s else s
        let m : BitVec 24 := mask.setWidth 24
        ownerDone .ok { s with backup := { s.backup with sticky := s.backup.sticky &&& ~~~(m &&& o.clears) } }
    | _, _ => s)

/-- A source stops sensing for ever. -/
def fuseSource (src : SourceId) (s : State) : State :=
  { s with
    fuses := { s.fuses with fused := setBit s.fuses.fused src.val true }
    backup := { s.backup with sticky := setBit s.backup.sticky src.val false }
    tamper := { s.tamper with
      active := setBit s.tamper.active src.val false
      sensed := s.tamper.sensed.filter fun f => f.source != src } }

/-- TAMPER_FUSE, inner command 0x000A: the first row of R483 that applies decides. -/
def execTamperFuse (s : State) : Host.Outcome State Fault Refusal :=
  .next (match ownerReady s with
    | some (.tamperFuse b) =>
      if h : b.toNat < 24 then
        let src : SourceId := ⟨b.toNat, h⟩
        if src.val = 19 then ownerDone .keyPolicy s
        else if !quorumStands s then ownerDone .keyPolicy (quorumFails (readQuorum s))
        else
          let s := readQuorum s
          ownerDone .ok (if s.fuses.fused.getLsbD src.val then s else fuseSource src s)
      else ownerDone .keyPolicy s
    | _ => s)

end Sys2Proof.Machine
end

