-- ==== Sys2Proof/Machine/Triggers.lean ====
section
/-! DEFINITION. Triggers that meet in one fabric cycle, and the order in which they take effect (R5, R57, R238). -/

namespace Sys2Proof.Machine

/-- The firings among the triggers, which are one evaluation (R471). -/
def firingsOf (ms : List Trigger) : List Firing :=
  ms.filterMap fun m => match m with
    | .tamper f => some f
    | _ => none

/-- One evaluation on main power (R468 to R471); a cell below its low threshold is known as such (R24). -/
def senseAll (firings : List Firing) (s : State) : State :=
  if s.mode.base == .dormant then s
  else
    let fs := firings.filter (senses s)
    let low := fs.any fun f => f.source.val == 3
    evaluate fs (if low then { s with backup := { s.backup with cellOk := false } } else s)

/-! ### What the watch decides in the cycle -/

/-- What an evaluation decides at once: the sources that newly fire in native mode, at their classes (R468 to R474,
R482). -/
def firesNow (s : State) (fs : List Firing) : List (Firing × Nat) :=
  if compatOn s then []
  else (fs.filter fun f => senses s f && !s.fuses.fused.getLsbD f.source.val && !s.tamper.active.getLsbD f.source.val
    && !(s.tamper.stimulus == some f.source)).map fun f => (f, classOf s f.source)

/-- What the end of a source's window decides (R482). -/
def windowDecides (s : State) (src : SourceId) (responded stillActive : Bool) : List (Firing × Nat) :=
  if s.tamper.stimulus != some src || s.fuses.fused.getLsbD src.val then []
  else
    let real := s.tamper.heldAlarm
    let fires := !compatOn s && (real || (stillActive && !(s.tamper.active.getLsbD src.val)))
    (if responded then [] else [(windowFiring src, min (classOf s src) 2)])
      ++ (if fires then [(windowFiring src, classOf s src)] else [])

/-- What a trigger of the watch decides in its cycle, an evaluation of firings apart. -/
def decides (s : State) : Trigger → List (Firing × Nat)
  | .secondDecision pair qualifying =>
    match s.tamper.pairs[pair]? with
    | some d => decidedPair d.firings qualifying s
    | none => []
  | .windowEnd src responded stillActive => windowDecides s src responded stillActive
  | _ => []

/-- All that the watch decides in a cycle. -/
def decidedIn (s : State) (ms : List Trigger) : List (Firing × Nat) := firesNow s (firingsOf ms) ++ ms.flatMap (decides s)

/-- A firing decided in the cycle of a power-fail: its flag and its latch entry stay in the backup domain. -/
def alarmAtFall (before : State) (x : Firing × Nat) (s : State) : State :=
  let ev := 0xC0 + x.1.source.val
  latchEntry
    { event := ev, severity := severityOf before ev, cls := x.2, time := before.log.seconds, cell := false
      cycle := before.flash.powerCycle }
    { s with backup := { s.backup with sticky := setBit s.backup.sticky x.1.source.val true } }

/-- Power fails in the cycle (R29): of what the watch decides, the sources the fall masks apart, a ZEROIZE still clears
the chest, whatever else it meets (R6, R472); a lower class has no row of R50 left and is only recorded (R57). -/
def fallMeeting (ms : List Trigger) (s : State) : State :=
  let d := decidedIn { s with power := { s.power with railMask := true } } ms
  let t := d.foldl (fun t x => alarmAtFall s x t) (powerDown s)
  if d.any fun x => x.2 == 3 then clearChest t else t

/-! ### The order (R57) -/

/-- An uncorrectable error whose report gives the module to the warden (R496). -/
def losesSteward : UeReport → Bool
  | .stewardSram => true
  | .faultCollector => true
  | _ => false

/-- The rank of what the watch applies at a class. -/
def classRank (top : Nat) : Nat :=
  match top with
  | 3 => 1
  | 2 => 3
  | _ => 4

/-- The rank of a trigger (R57): power-fail, zeroize, steward loss, HALT, fence, plan change. A checker's report that does
not lose the steward stands with the fences; the end of a routine comes after a fault and before a plan change (R238).
Firings rank by the highest class of their evaluation, and so does what a decision pair or a window applies. -/
def rankOf (s : State) (ms : List Trigger) : Trigger → Nat
  | .powerFail => 0
  | .tamper _ =>
    classRank (((firingsOf ms).filter (senses s)).foldl (fun m f => max m (classOf s f.source)) 0)
  | .secondDecision pair qualifying => classRank (topClass (decides s (.secondDecision pair qualifying)))
  | .windowEnd src responded stillActive => classRank (topClass (decides s (.windowEnd src responded stillActive)))
  | .lockstep => 2
  | .heartbeat => 2
  | .ue r => if losesSteward r then 2 else 4
  | .mismatch _ _ => 4
  | .duplicateRound _ => 4
  | .ageing _ _ _ => 4
  | .completionWrite _ _ => 4
  | .commit _ _ => 5
  | .routineError _ => 5
  | .watchdog _ => 5
  | .beat => 7
  | .detach _ _ => 6
  | .contractDrop _ _ _ => 6

/-- An error with a reaction of the fault collector's, which a second error can meet (R495). -/
def hasReaction : Trigger → Bool
  | .ue r => !losesSteward r
  | .mismatch _ _ => true
  | .duplicateRound _ => true
  | _ => false

/-- The warden's trigger for an error of its own: 5 when a reaction is in progress, as one reported in the same cycle is
(R495, R496; log entry 73). -/
def takeoverCode (ms : List Trigger) (own : Nat) : Nat := if ms.any hasReaction then 5 else own

/-- An uncorrectable error on a cycle with others. -/
def errorAct (ms : List Trigger) (r : UeReport) (s : State) : State :=
  match r with
  | .stewardSram => wardenTakeover (takeoverCode ms 3) (report 100 true s)
  | .faultCollector => wardenTakeover (takeoverCode ms 4) (report 103 true s)
  | r => uncorrectable r s

/-- The effect of one trigger where it still stands; the evaluation of the firings is one effect, done apart, and so is the
boundary's work. -/
def triggerAct (ms : List Trigger) (m : Trigger) (s : State) : State :=
  match m with
  | .powerFail => if s.mode.base == .dormant then s else fallMeeting ms s
  | .ageing b slack tj => ageingDone b slack tj s
  | .completionWrite id outcome => writeCompletion id outcome s
  | .secondDecision pair qualifying => endPair pair qualifying s
  | .windowEnd src responded stillActive => windowEnds src responded stillActive s
  | .tamper _ => s
  | .beat => s
  | .lockstep => lockstepAct (takeoverCode ms 1) s
  | .heartbeat => heartbeatAct s
  | .ue r => if s.mode.base == .dormant then s else errorAct ms r s
  | .mismatch n found => verifyMismatch n found s
  | .duplicateRound e => duplicateMismatch e s
  | .commit e cycles => commitOn e cycles s
  | .routineError e => routineEnds e s
  | .watchdog e => routineEnds e s
  | .detach p linkOnly => portDetach p linkOnly false s
  | .contractDrop p v c => contractDrop p v c false s

/-- The triggers of one rank. -/
def triggersAt (s : State) (ms : List Trigger) (r : Nat) : List Trigger := ms.filter fun m => rankOf s ms m == r

/-- Triggers that meet, highest rank first; each acts on what the higher ones leave. A trigger that finds no row of R50
for the mode by then changes nothing but its own event, which is its record in the logbook (log entry 111). -/
def resolveTriggers (ms : List Trigger) (s : State) : State :=
  let firing (l : List Trigger) (s : State) : State :=
    if (firingsOf l).isEmpty then s else senseAll (firingsOf l) s
  let ranked := (List.range 7).map (triggersAt s ms)
  ranked.foldl (fun s l => l.foldl (fun s m => triggerAct ms m s) (firing l s)) s

end Sys2Proof.Machine
end

