-- ==== Sys2Proof/Machine/Beat.lean ====
section
/-! DEFINITION. The beat (R106, R107): what applies at a boundary, and in which order. -/

namespace Sys2Proof.Machine

/-! ### Trestle budgets (R180) -/

/-- Trestles that held a job of the slice since the last beat. -/
def trestlesHeld (s : State) (m : Nat) : Nat := (s.trestles.toList.filter fun t => t.held.contains m).length

/-- The budget after a beat. -/
def nextBudget (s : State) (x : Slice) : Int :=
  min (2048 * (x.trestleShare : Int))
    (x.budget + 8 * (x.trestleShare : Int) - 1024 * (trestlesHeld s (moduleIndex x.port x.idx) : Int))

/-- Slices whose active jobs a trestle holds now: a suspended job is not charged (R349). -/
def holders (s : State) (t : Fin 8) : List Nat :=
  ((s.heddle.items.filter fun i => i.place == .inService && !i.suspended && trestleOf i == some t).map fun i => moduleIndex i.port i.slice).eraseDups

/-- Budgets at a beat; the count of holders begins again with those that hold on. -/
def settleBudgets (s : State) : State :=
  let pay (x : Slice) : Slice := if x.installing then x else { x with budget := nextBudget s x }
  let again (t : Fin 8) : Trestle := { s.trestles[t.val] with held := holders s t }
  { s with slices := s.slices.map pay, trestles := Vector.ofFn again }

/-! ### Classes raised at a beat (R484) -/

/-- Sources that are active and whose class has risen fire again at the new class. -/
def fireRaised (before s : State) : State :=
  let fs := s.tamper.sensed.filter fun f =>
    s.tamper.active.getLsbD f.source.val && decide (classOf before f.source < classOf s f.source)
  if fs.isEmpty then s else fireAll (classOf s) 0 fs s

/-! ### Units, modes and items -/

/-- Step 3: a risen plan's units, and benches that were waiting to return (R39, R41, R64). -/
def returnUnits (s : State) : State :=
  match s.power.rise with
  | some t => powerSlots (planRise t s)
  | none => returnBenches s

/-- Items that waited over a re-thread take the new draft's class, or end where it does not advertise their opcode
(R96). -/
def readvertise (s : State) : State :=
  if !isIdleServe s.mode.base then s
  else
    let gone := s.heddle.items.filter fun i => waiting i && (itemAdvert s i.entry).isNone
    let s := gone.foldl (fun s i => failItem .opUnsupported i s) s
    modItems waiting (fun i => { i with cls := itemClass s i.entry }) s

/-- What happens at boundary `t`, fences and plan falls apart, which have taken effect by then (R5). -/
def beatAt (t : Nat) (s : State) : State :=
  let s := settleBudgets ((fins 4).foldl installPort s)
  let s := fireRaised s (applyDevice t s)
  let s := (fins 4).foldl (applyStage t) (returnUnits s)
  let s := readvertise (releaseHold (leaveIdle s))
  pumpAdmin (settleAfterLeave s)

/-- The boundary at cycle `t`, which the clock has reached: what else falls on the cycle goes first (R5, R57). -/
def reachBeat (t : Nat) (meets : List Trigger) (s : State) : State :=
  let s := settleAfterLeave (resolveTriggers meets s)
  if s.mode.base == .dormant then s else beatAt t s

/-- The clock moves to the next boundary, on whose cycle the triggers fall. -/
def nextBeat (meets : List Trigger) (s : State) : State :=
  takeWaiting (reachBeat (nextBoundary s) meets (passTo (nextBoundary s) s))

/-- BEAT (R106, R107): in every mode but Dormant. -/
def execBeat (s : State) : Host.Outcome State Fault Refusal :=
  if s.mode.base == .dormant then .next s else .next (nextBeat [] s)

/-- Triggers of one cycle, which is a beat's where the boundary is one of them (R5). -/
def meetAll (ms : List Trigger) (s : State) : State :=
  if ms.contains .beat then nextBeat ms s else settleAfterLeave (resolveTriggers ms s)

/-- TAMPER_FIRE (R468 to R471): one evaluation on main power, with what else falls on its cycle; with no firing, a cycle
on which other triggers meet (R5, R57). -/
def execTamperFire (x : FireEvent) (s : State) : Host.Outcome State Fault Refusal :=
  if s.mode.base == .dormant then .next s
  else .next (meetAll (x.firings.map .tamper ++ x.meets) s)

/-- UNCORRECTABLE_ERROR (R490), with what else falls on its cycle. -/
def execUncorrectableError (x : UeEvent) (s : State) : Host.Outcome State Fault Refusal :=
  if s.mode.base == .dormant then .next s
  else .next (meetAll (.ue x.report :: x.meets) s)

/-- One fabric cycle passes; in Dormant as much time on the backup clock. A cycle whose count since t0 is a multiple of
4,096 is a beat (R106), and an envelope that has waited for the steward is taken (R121). -/
def tick (s : State) : State :=
  if s.mode.base == .dormant then aloneTo (s.backup.alone + 1) s
  else
    let t := s.clock + 1
    let s := passTo t s
    takeWaiting (if t % 4096 = 0 then reachBeat t [] s else s)

end Sys2Proof.Machine
end

