-- ==== Sys2Proof/Machine/Move.lean ====
section
/-! DEFINITION. Freezing and moving a slice (R314, R442, R443, R447 to R462). -/

namespace Sys2Proof.Machine

/-! ### FREEZE_SLICE, THAW_SLICE (R447 to R449) -/

/-- The slice is frozen, its queues with it; what was not dispatched completes with SLICE_FROZEN, and a dispatched item that
waits to restart goes on (R318, R462). -/
def freezeSlice (p : PortId) (i : SliceIdx) (s : State) : State :=
  let s := modSlice p i (fun x => { x with frozen := true, saved := false }) s
  let s := modQueues (fun q => q.port == p && q.slice == i) (fun q => { q with state := .frozen }) s
  let held := s.heddle.items.filter fun x => waiting x && !x.holdsFlow && x.port == p && x.slice == i
  settleAfterLeave (held.foldl (fun s x => failItem .sliceFrozen x s) s)

/-- FREEZE_SLICE: it completes when the slice's queues hold no module-owned entry. -/
def freezeSliceAct (p : PortId) (e : AdminEntry) (s : State) : State :=
  if !isWorking s.mode.base then refuseMove p 0x01 s
  else match findSlice s p (entryByte e.entry 8) with
    | none => refuseMove p 0x02 s
    | some x =>
      if x.frozen then refuseMove p 0x03 s
      else
        let s := freezeSlice p x.idx (modPort p (fun y => { y with moveRefuse := 0 }) s)
        if freezeDrained s p x.idx then adminDone p .ok 0 [] s else adminWait p (.freeze x.idx) s

def execFreezeSlice (p : PortId) (s : State) : Host.Outcome State Fault Refusal :=
  .next (adminCommand p 0x05 (freezeSliceAct p) s)

/-- FREEZE_DRAIN_DONE (R447): the last completion of the slice's queues has been written. -/
def execFreezeDrainDone (p : PortId) (s : State) : Host.Outcome State Fault Refusal :=
  .next (match s.ports[p.val].admin.entry with
    | some e => match e.wait with
      | .freeze i => if freezeDrained s p i then adminDone p .ok 0 [] s else s
      | _ => s
    | none => s)

/-- THAW_SLICE (R449): the queues are Active from the next beat. -/
def thawSliceAct (p : PortId) (e : AdminEntry) (s : State) : State :=
  if !isWorking s.mode.base then refuseMove p 0x01 s
  else match findSlice s p (entryByte e.entry 8) with
    | none => refuseMove p 0x02 s
    | some x =>
      if !x.frozen then refuseMove p 0x04 s
      else adminWait p (.thaw x.idx) (modPort p (fun y => { y with moveRefuse := 0 }) s)

def execThawSlice (p : PortId) (s : State) : Host.Outcome State Fault Refusal :=
  .next (adminCommand p 0x08 (thawSliceAct p) s)

/-! ### Tally records written at once (R303, R454, R460) -/

/-- The write in flight is in its copy. -/
def landWrite (t : TallyRecord) : TallyRecord :=
  match t.writing with
  | none => t
  | some (true, c) => { t with copyB := some c, writing := none, waiter := .nobody }
  | some (false, c) => { t with copyA := some c, writing := none, waiter := .nobody }

/-- Every update that waits is durable, then `c`. -/
def writeDurable (drk : Bytes) (c : TallyCopy) (t : TallyRecord) : TallyRecord :=
  let t := t.queued.foldl (fun t q => landWrite (issueTally drk q.1 q.2 t)) { landWrite t with queued := [] }
  landWrite (issueTally drk c .nobody t)

/-! ### SAVE_SLICE (R452 to R457) -/

/-- The low 64 bits of a receive nonce, which records store in NONCE; the high 64 are RECV_SEQ (R450). -/
def nonceLow (n : BitVec 128) : Nat := n.toNat % 2 ^ 64
def recvSeq (n : BitVec 128) : Nat := n.toNat / 2 ^ 64

/-! ### The image's body (R457) -/

/-- A queue record. -/
structure ImageQueue where
  index : Nat
  express : Bool
  log2 : Nat
  vector : Nat
  coalCount : Nat
  coalTime : Nat
  poll : Nat
  head : Nat
  tail : Nat
  base : BitVec 64
deriving DecidableEq, Repr

/-- A key run. -/
structure ImageRun where
  first : Nat
  length : Nat
  kind : Nat
  family : Nat
  set : Nat
  policy : Word
  generation : Nat
  content : Bytes
deriving DecidableEq, Repr

/-- A tally entry. -/
structure ImageTally where
  keyId : Nat
  first : Nat
  state : Nat
  family : Nat
  set : Nat
  handoff : Nat
deriving DecidableEq, Repr

/-- The body: the slice record's fields, then the queue records, key runs and tally entries. -/
structure SliceBody where
  uid : BitVec 64
  drawers : Nat
  digestSlots : Nat
  queueAllot : Nat
  tallyAllot : Nat
  weight : Nat
  prioCeil : Nat
  loomCap : Nat
  trestleShare : Nat
  queues : List ImageQueue
  runs : List ImageRun
  tally : List ImageTally
deriving DecidableEq, Repr

def queueRecord (q : ImageQueue) : Bytes :=
  leBytes 2 q.index ++ leBytes 1 (bit q.express) ++ leBytes 1 q.log2 ++ leBytes 2 q.vector ++ leBytes 1 q.coalCount ++ zeros 1
    ++ leBytes 2 q.coalTime ++ leBytes 2 q.poll ++ leBytes 4 q.head ++ leBytes 4 q.tail ++ leBytes 8 q.base.toNat ++ zeros 4

/-- A run's record, then its content over its drawers. -/
def runRecord (r : ImageRun) : Bytes :=
  leBytes 2 r.first ++ leBytes 2 r.length ++ leBytes 1 r.kind ++ leBytes 1 r.family ++ leBytes 1 r.set ++ zeros 1
    ++ leBytes 4 r.policy.toNat ++ leBytes 4 r.content.length ++ leBytes 2 r.generation ++ zeros 14
    ++ r.content ++ zeros (128 * r.length - r.content.length)

def tallyEntry (t : ImageTally) : Bytes :=
  leBytes 8 t.keyId ++ leBytes 2 t.first ++ leBytes 1 t.state ++ leBytes 1 t.family ++ leBytes 1 t.set ++ zeros 3
    ++ leBytes 8 t.handoff ++ zeros 8

/-- The body's bytes. -/
def bodyBytes (b : SliceBody) : Bytes :=
  leBytes 8 b.uid.toNat ++ leBytes 2 b.drawers ++ leBytes 1 b.digestSlots ++ leBytes 2 b.queueAllot ++ leBytes 2 b.tallyAllot
    ++ leBytes 2 b.weight ++ leBytes 1 b.prioCeil ++ leBytes 1 b.loomCap ++ leBytes 2 b.trestleShare
    ++ leBytes 2 b.queues.length ++ leBytes 4 b.runs.length ++ leBytes 2 b.tally.length ++ zeros 35
    ++ b.queues.flatMap queueRecord ++ b.runs.flatMap runRecord ++ b.tally.flatMap tallyEntry

/-- `n` bytes of a record from byte `k`, little-endian. -/
def fieldAt (b : Bytes) (k n : Nat) : Nat := leNat (slice_ b k n)

def queueOf (b : Bytes) : ImageQueue :=
  { index := fieldAt b 0 2
    express := fieldAt b 2 1 == 1
    log2 := fieldAt b 3 1
    vector := fieldAt b 4 2
    coalCount := fieldAt b 6 1
    coalTime := fieldAt b 8 2
    poll := fieldAt b 10 2
    head := fieldAt b 12 4
    tail := fieldAt b 16 4
    base := BitVec.ofNat 64 (fieldAt b 20 8) }

def tallyEntryOf (b : Bytes) : ImageTally :=
  { keyId := fieldAt b 0 8
    first := fieldAt b 8 2
    state := fieldAt b 10 1
    family := fieldAt b 11 1
    set := fieldAt b 12 1
    handoff := fieldAt b 16 8 }

/-- The next `n` runs, and the bytes after them. -/
def runsOf : Nat → Bytes → Option (List ImageRun × Bytes)
  | 0, b => some ([], b)
  | n + 1, b =>
    let len := 32 + 128 * fieldAt b 2 2
    if b.length < len then none
    else
      let r : ImageRun :=
        { first := fieldAt b 0 2
          length := fieldAt b 2 2
          kind := fieldAt b 4 1
          family := fieldAt b 5 1
          set := fieldAt b 6 1
          policy := BitVec.ofNat 32 (fieldAt b 8 4)
          generation := fieldAt b 16 2
          content := (slice_ b 32 (128 * fieldAt b 2 2)).take (fieldAt b 12 4) }
      (runsOf n (b.drop len)).map fun x => (r :: x.1, x.2)

/-- The body that bytes hold; `none` where the counts of its slice record do not fit its length. -/
def bodyOf (b : Bytes) : Option SliceBody :=
  let nq := fieldAt b 21 2
  if b.length < 64 + 32 * nq then none
  else match runsOf (fieldAt b 23 4) (b.drop (64 + 32 * nq)) with
    | none => none
    | some (rs, rest) =>
      if rest.length != 32 * fieldAt b 27 2 then none
      else some
        { uid := BitVec.ofNat 64 (fieldAt b 0 8)
          drawers := fieldAt b 8 2
          digestSlots := fieldAt b 10 1
          queueAllot := fieldAt b 11 2
          tallyAllot := fieldAt b 13 2
          weight := fieldAt b 15 2
          prioCeil := fieldAt b 17 1
          loomCap := fieldAt b 18 1
          trestleShare := fieldAt b 19 2
          queues := (List.range nq).map fun k => queueOf (slice_ b (64 + 32 * k) 32)
          runs := rs
          tally := (List.range (fieldAt b 27 2)).map fun k => tallyEntryOf (slice_ rest (32 * k) 32) }

/-- Image length (R455, R457). -/
def imageLength (b : SliceBody) : Nat :=
  15483 + 64 + 32 * b.queues.length + (b.runs.map fun r => 32 + 128 * r.length).sum + 32 * b.tally.length

/-! ### The image's header and seal (R455, R456) -/

def imgSource (m : SliceImage) : BitVec 64 := BitVec.ofNat 64 (fieldAt m.header 8 8)
def imgDest (m : SliceImage) : BitVec 64 := BitVec.ofNat 64 (fieldAt m.header 16 8)
def imgFamilyId (m : SliceImage) : Word := BitVec.ofNat 32 (fieldAt m.header 24 4)
def imgNonce (m : SliceImage) : BitVec 128 := BitVec.ofNat 128 (fieldAt m.header 32 16)
def imgUid (m : SliceImage) : BitVec 64 := BitVec.ofNat 64 (fieldAt m.header 48 8)
def imgOwner (m : SliceImage) : Bytes := slice_ m.header 56 32

/-- Magic, format, zero bytes and the lengths of the parts. -/
def sliceImageForm (m : SliceImage) : Bool :=
  m.header.length == 128 && m.header.take 8 == ascii "AQSI" ++ leBytes 2 1 ++ zeros 2 && m.header.drop 100 == zeros 28
    && fieldAt m.header 28 4 == m.body.length && (identityBytes m.source).length == 9088 && m.ciphertext.length == 1568
    && m.ephemeral.length == 56 && m.tag.length == 16 && m.signature.length == 4627

/-- The image key: KMAC256 under the two shared secrets, with S = "AQX-IMAGE", over the serials, the receive nonce and the
hash of the ciphertext and the ephemeral value (R456). -/
def imageKey (kem xdh header ciphertext ephemeral : Bytes) : Bytes :=
  kmac256 (kem ++ xdh) (slice_ header 8 16 ++ slice_ header 32 16 ++ sha3_256 (ciphertext ++ ephemeral)) 32 (ascii "AQX-IMAGE")

/-- The image key at the destination: from its own ML-KEM and X448 identity keys. -/
def receivedKey (s : State) (m : SliceImage) : Bytes :=
  imageKey (kemDecapsOf 3 (identityKey s 3) m.ciphertext)
    (xAgree 2 (identityKey s 4) m.ephemeral) m.header m.ciphertext m.ephemeral

/-- The body's bytes, under the key and with bytes 0 to 127 as additional data. -/
def openImage (s : State) (m : SliceImage) : Option Bytes :=
  gcmOpen (receivedKey s m) (slice_ m.header 88 12) m.header m.body m.tag

/-- The slice's live stateful keys, each with its record. -/
def statefulKeys (s : State) (x : Slice) : List (KeyRun × TallyRecord) :=
  (s.runs.filter fun r => r.port == x.port && r.slice == x.idx && r.kind == 4 && r.state == .live).filterMap fun r =>
    (tallyOf s r.keyId).map fun t => (r, t)

/-- The record was handed off under this nonce by an earlier save (R314, R454 step 2). -/
def handedOff (low : Nat) (c : TallyCopy) : Bool := c.state == 4 && c.nonce == low && (c.handoff != 0 || c.nonce != 0)

/-- A key has been handed off under another nonce (check 0x14). -/
def handedElsewhere (low : Nat) (t : TallyRecord) : Bool :=
  match tallyLatest t with
  | some c => c.state == 4 && c.handoff != 0 && c.nonce != low
  | none => false

/-- A run that travels (R453). -/
def travels (r : KeyRun) : Bool := r.state == .live && polHas r.policy polMigrate && !isOneShot r.policy

/-- The tally entry of a key, as it stands before the handoff. -/
def imageTally (low : Nat) (r : KeyRun) (t : TallyRecord) : ImageTally :=
  let e (st h : Nat) : ImageTally := { keyId := r.keyId, first := r.first, state := st, family := r.family, set := r.set, handoff := h }
  match tallyLatest t with
  | none => e 5 0
  | some c =>
    if t.unusable then e 5 0
    else if c.state = 2 then e 2 t.next
    else if handedOff low c then e 2 c.handoff
    else e c.state 0

def imageQueue (q : Queue) : ImageQueue :=
  { index := q.index
    express := q.express
    log2 := q.log2
    vector := q.vector
    coalCount := q.coalCount
    coalTime := q.coalTime
    poll := q.poll
    head := q.head.toNat
    tail := q.tail.toNat
    base := q.base }

def imageRun (r : KeyRun) : ImageRun :=
  { first := r.first
    length := r.length
    kind := r.kind
    family := r.family
    set := r.set
    policy := r.policy
    generation := r.gen
    content := r.content }

/-- What a slice's image holds (R453). -/
def sliceBody (x : Slice) (nonce : BitVec 128) (s : State) : SliceBody :=
  let runs := s.runs.filter fun r => r.port == x.port && r.slice == x.idx && travels r
  let tally := (statefulKeys s x).filter fun k => travels k.1
  { uid := x.uid
    drawers := x.drawers
    digestSlots := x.digestSlots
    queueAllot := x.queueAllot
    tallyAllot := x.tallyAllot
    weight := x.weight
    prioCeil := x.prioCeil
    loomCap := x.loomCap
    trestleShare := x.trestleShare
    queues := ((queuesOf s x.port).filter fun q => q.slice == x.idx && !q.installing).map imageQueue
    runs := runs.map imageRun
    tally := tally.map fun k => imageTally (nonceLow nonce) k.1 k.2 }

/-- Bytes 0 to 127 of an image. -/
def imageHeader (b : SliceBody) (dest : IdentityRecord) (nonce : BitVec 128) (iv : Bytes) (s : State) : Bytes :=
  ascii "AQSI" ++ leBytes 2 1 ++ zeros 2 ++ leBytes 8 s.fuses.serial.toNat ++ leBytes 8 (idSerial dest).toNat
    ++ leBytes 4 (draftFamilyId s) ++ leBytes 4 (bodyBytes b).length ++ leBytes 16 nonce.toNat ++ leBytes 8 b.uid.toNat
    ++ (s.backup.chest.ownerDigest ++ zeros 32).take 32 ++ iv ++ zeros 28

/-- The image of a body to a destination, from 100 drawn bytes: the message of the encapsulation, the ephemeral X448 scalar
and the GCM IV (R455, R456). -/
def sealImage (b : SliceBody) (dest : IdentityRecord) (nonce : BitVec 128) (d : Bytes) (s : State) : SliceImage :=
  let iv := d.drop 88
  let scalar := slice_ d 32 56
  let header := imageHeader b dest nonce iv s
  let source := match s.flash.identity with | some r => r | none => uncertifiedIdentity s 0
  let kem := kemEncapsTo 3 dest.ek (d.take 32)
  let ephemeral := xPublic 2 scalar
  let key := imageKey kem.2 (xAgree 2 scalar dest.x448) header kem.1 ephemeral
  let body := gcmCipher key iv (bodyBytes b)
  let tag := gcmTag key iv header body
  let m := sha3_512 (header ++ identityBytes source ++ kem.1 ++ ephemeral ++ body ++ tag)
  let signature := dsaSigOf 3 0 8 (identityDsa s) (ascii "AQSI-SRC" ++ m) (zeros 32)
  let made := dsaHolds 3 0 8 source.dsa (ascii "AQSI-SRC" ++ m) signature
  { header := header
    source := source
    ciphertext := kem.1
    ephemeral := ephemeral
    body := body
    tag := tag
    signature := signature
    signed := if made then { key := source.dsa, context := ascii "AQSI-SRC", message := m } else unsigned }

/-- Step 2: each LIVE stateful key of the slice is written RETIRED with its HANDOFF and NONCE. -/
def handOff (low : Nat) (s : State) (k : KeyRun × TallyRecord) : State :=
  match tallyLatest k.2 with
  | none => s
  | some c =>
    if c.state != 2 || k.2.unusable then s
    else
      let c' := { c with state := 4, handoff := k.2.next, nonce := low }
      countTallyWrites 1 (modTally (fun t => t.number == k.2.number) (writeDurable (tallyMacKey s) c') s)

/-- The slots that the cards operand selects. -/
def chosenSlots (e : Entry) : List CardSlot := (fins 4).filter fun c => (entryByte e 9).testBit c.val

/-- A selected slot passes R442: an identified card that is not locked, whose image extent holds `n` bytes. -/
def takesImage (s : State) (n : Nat) (c : CardSlot) : Bool := cardUsable (cardOf s c) && !(cardOf s c).locked && fitsPlace imagePlace n

/-- The chosen cards whose image extent the image does not fit take LAST_ERR 7 (R445). -/
def markNoRoom (p : PortId) (nonce : BitVec 128) (e : Entry) (s : State) : State :=
  match findSlice s p (entryByte e 8) with
  | none => s
  | some x => (chosenSlots e).foldl (fun t c => if fitsPlace imagePlace (imageLength (sliceBody x nonce s)) then t else noRoom c t) s

/-- The tests of R452 check 0x12 on an identity record. -/
def movable (r : IdentityRecord) : Bool := idFormOk r && !idTestRoot r && !idRegenerated r && certOk r

/-- The first check of R452 that fails, 0 for none. -/
def saveRefusal (s : State) (p : PortId) (e : Entry) (dest : IdentityRecord) (nonce : BitVec 128) : Nat :=
  match findSlice s p (entryByte e 8) with
  | none => 0x10
  | some x =>
    if !x.frozen then 0x10
    else if s.life.debug || !ownerSet s then 0x11
    else if !movable dest then 0x12
    else if !(chosenSlots e).all (takesImage s (imageLength (sliceBody x nonce s))) then 0x13
    else if (statefulKeys s x).any fun k => handedElsewhere (nonceLow nonce) k.2 then 0x14
    else 0

/-- The image is written to the selected cards in turn; the count says on how many it is durable (R442). -/
def saveToCards (p : PortId) (m : SliceImage) (writes : List CardWrite) (slots : List CardSlot) (s : State) : State × Nat :=
  slots.zipIdx.foldl (fun r x =>
    let new := nextStored (cardOf r.1 x.1).image m
    let w := writeCard x.1 imagePlace new (imageBytes m) (writeOf writes x.2) (fun y => { y with image := some new }) r.1
    if w.2 then (emit (.sliceImage p (some x.1) m) w.1, r.2 + 1) else (w.1, r.2)) (s, 0)

/-- SAVE_SLICE (R454). -/
def saveSliceAct (p : PortId) (dest : IdentityRecord) (nonce : BitVec 128) (writes : List CardWrite) (e : AdminEntry)
    (s : State) : State :=
  let slots := chosenSlots e.entry
  let r := saveRefusal s p e.entry dest nonce
  if inputLen e.entry != 9104 then adminDone p .lengthMismatch 0 [] s
  else if r = 0x13 then refuseMove p r (markNoRoom p nonce e.entry s)
  else if r != 0 then refuseMove p r s
  else match findSlice s p (entryByte e.entry 8) with
    | none => refuseMove p 0x10 s
    | some x =>
      let b := sliceBody x nonce s
      let n := imageLength b
      if slots.isEmpty && decide (outputCap e.entry < n) then adminDoneLen p .outputShort 0 n s
      else if !slots.isEmpty && busBusy s then s
      else
        let d := draw inst16 100 s
        let m := sealImage b dest nonce d.1 d.2
        let s := modPort p (fun y => { y with moveRefuse := 0 }) d.2
        let s := (statefulKeys s x).foldl (handOff (nonceLow nonce)) s
        let saved (s : State) : State := modSlice p x.idx (fun y => { y with saved := true }) s
        if slots.isEmpty then adminDone p .ok n (imageBytes m) (saved s)
        else
          let w := saveToCards p m writes slots s
          if w.2 = 0 then adminDone p .unitFault 0 [] w.1 else adminDone p .ok n [] (saved w.1)

/-- SAVE_SLICE: its input is the destination's identity record and the receive nonce; `writes` is what the selected cards
answer to their writes, in slot order. -/
def execSaveSlice (p : PortId) (destination : IdentityRecord) (nonce : BitVec 128) (writes : List CardWrite)
    (s : State) : Host.Outcome State Fault Refusal :=
  .next (adminCommand p 0x06 (saveSliceAct p destination nonce writes) s)

/-! ### RESTORE_SLICE (R443, R451, R458 to R460) -/

/-- The receive log takes the nonce: RECV_SEQ is not below the floor and the nonce is not in the log (R451). -/
def nonceAccepted (s : State) (n : BitVec 128) : Bool :=
  decide (s.flash.receiveFloor.toNat ≤ recvSeq n) && !s.flash.receiveLog.contains n.toNat

/-- The entry of lowest RECV_SEQ. -/
def lowestNonce : List Nat → Option Nat
  | [] => none
  | n :: l => match lowestNonce l with
    | none => some n
    | some m => some (if n / 2 ^ 64 ≤ m / 2 ^ 64 then n else m)

/-- Acceptance enters the nonce; a full log first evicts its lowest entry and raises the floor past it. -/
def logNonce (n : BitVec 128) (s : State) : State :=
  let full := if s.flash.receiveLog.length < 4096 then none else lowestNonce s.flash.receiveLog
  match full with
  | none => { s with flash := { s.flash with receiveLog := s.flash.receiveLog ++ [n.toNat] } }
  | some m =>
    { s with flash := { s.flash with
      receiveLog := (s.flash.receiveLog.filter fun k => k != m) ++ [n.toNat]
      receiveFloor := BitVec.ofNat 64 (m / 2 ^ 64 + 1) } }

/-- The record of this KEY_ID that a slice with the UID adopts (R307). -/
def recordAdopted (s : State) (uid : BitVec 64) (keyId : Nat) : Bool :=
  s.flash.tally.any fun t => tallyKey t == some keyId && tallyUid t == some uid

/-- The entries of an image that make a record. -/
def newEntries (s : State) (b : SliceBody) : List ImageTally := b.tally.filter fun t => !recordAdopted s b.uid t.keyId

/-- The image carries a LIVE stateful key (R451). -/
def carriesLive (b : SliceBody) : Bool := b.tally.any fun t => t.state == 2

/-- Pointers that the restore would add, and those its adopted records hold already. -/
def newPointers (s : State) (nonce : BitVec 128) (b : SliceBody) : Nat :=
  if nonceAccepted s nonce then ((newEntries s b).filter fun t => t.state == 2 && hasPointer t.family t.set).length else 0
def adoptedPointers (s : State) (uid : BitVec 64) : Nat :=
  (s.flash.tally.filter fun t => tallyUid t == some uid && takesPointer s t).length

/-- Records and pointers fit the allotment, the port's quota and the module's pools (check 0x2F). -/
def tallyFits (s : State) (p : PortId) (nonce : BitVec 128) (b : SliceBody) : Bool :=
  fitsQuota (heldBy s p fun y => y.tallyAllot) b.tallyAllot (quotaOf s p 8192)
    && decide (tallyHeld s b.uid + (newEntries s b).length ≤ b.tallyAllot)
    && decide (s.flash.tally.length + (newEntries s b).length ≤ 8192)
    && fitsQuota (pointersOfPort s p) (adoptedPointers s b.uid + newPointers s nonce b) (quotaOf s p 256)
    && decide (pointersHeld s + newPointers s nonce b ≤ 256)

/-- What the body asks of the port against its remaining quota and share, 0 where it fits (R458 checks 0x2B to 0x31). -/
def bodyRefusal (s : State) (p : PortId) (nonce : BitVec 128) (b : SliceBody) : Nat :=
  let l := armedEntries s p
  if uidLive s b.uid then 0x2B
  else if 512 < b.queueAllot ∨ 1023 < heldBy s p (fun y => y.queueAllot) + b.queueAllot
      ∨ 8 < ((queuesOf s p).filter fun q => q.express).length + (b.queues.filter fun q => q.express).length then 0x2C
  else if !fitsQuota (heldBy s p fun y => y.drawers) b.drawers (quotaOf s p 65536) then 0x2D
  else if !fitsQuota (heldBy s p fun y => y.digestSlots) b.digestSlots (quotaOf s p 32) then 0x2E
  else if !tallyFits s p nonce b then 0x2F
  else if s.shares[p.val] * 1024 < weightSum l (slicesOf s p) + b.weight then 0x30
  else if s.shares[p.val] < trestleSum l (slicesOf s p) + b.trestleShare then 0x31
  else 0

/-- The body of an image that opens. -/
def receivedBody (s : State) (m : SliceImage) : Option SliceBody := (openImage s m).bind bodyOf

/-- The source's signature over every preceding byte (R455). -/
def imageSigned (m : SliceImage) : Bool :=
  m.signed == { key := m.source.dsa, context := ascii "AQSI-SRC", message := sha3_512 (m.header ++ identityBytes m.source
    ++ m.ciphertext ++ m.ephemeral ++ m.body ++ m.tag) }

/-- The first check of R458 that fails, 0 for none. -/
def restoreRefusal (s : State) (p : PortId) (e : Entry) (image : Option SliceImage) : Nat :=
  let pasid := operandPasid e
  if !isWorking s.mode.base || s.life.debug then 0x20
  else if 256 ≤ (slicesOf s p).length then 0x21
  else if !bindingOk s p pasid then 0x22
  else if pasidUsed s p pasid then 0x23
  else match image with
    | none => 0x24
    | some m =>
      if !sliceImageForm m || (entryByte e 12 == 0 && inputLen e != 15483 + m.body.length) then 0x24
      else if imgDest m != s.fuses.serial then 0x25
      else if !movable m.source || idSerial m.source != imgSource m then 0x26
      else if !imageSigned m then 0x27
      else if s.draft.threaded.map (fun d => d.familyId) != some (imgFamilyId m) then 0x28
      else if !ownerSet s || imgOwner m != s.backup.chest.ownerDigest then 0x29
      else if (openImage s m).isNone then 0x2A
      -- a body that opens and does not have its form, or another slice's UID (log entry 127)
      else match receivedBody s m with
        | none => 0x24
        | some b => if b.uid != imgUid m then 0x24 else bodyRefusal s p (imgNonce m) b

/-- The record an entry becomes (R460). -/
def restoredCopy (uid : BitVec 64) (accepted : Bool) (t : ImageTally) : TallyCopy :=
  let limit := statefulLimit t.family t.set
  let st := if t.state = 2 then (if accepted then 2 else 4) else if t.state = 3 then 3 else 4
  { seq := 1
    state := st
    family := t.family
    set := t.set
    keyId := t.keyId
    uid := uid
    ceiling := if st = 3 then limit else t.handoff
    handoff := 0
    nonce := 0 }

/-- One entry: a LIVE one that is refused is counted, a LIVE one that is accepted takes its pointer. -/
def restoreTally (uid : BitVec 64) (accepted : Bool) (s : State) (t : ImageTally) : State :=
  match freeRecord s with
  | none => s
  | some n =>
    let c := sealCopy (tallyMacKey s) n (restoredCopy uid accepted t)
    let top := if t.handoff = 0 then 0 else (t.handoff - 1) / 2 ^ lowerHeights t.family t.set
    let s := { s with flash := { s.flash with tally := s.flash.tally ++ [{ number := n, copyA := some c, next := c.ceiling }] } }
    let s := if c.state == 2 && hasPointer t.family t.set then
        writeChest (fun c => { c with pointers := c.pointers ++ [(t.keyId % 2 ^ 40, top)] }) s
      else s
    countTallyWrites 1 s

/-- The frozen slice that an image makes, waiting for its beat (R459). -/
def restoredSlice (p : PortId) (i : SliceIdx) (e : Entry) (m : SliceBody) (refused : Nat)
    (phys : List (Nat × Nat)) : Slice :=
  { port := p
    idx := i
    pasid := operandPasid e
    uid := m.uid
    drawers := m.drawers
    digestSlots := m.digestSlots
    queueAllot := m.queueAllot
    tallyAllot := m.tallyAllot
    weight := m.weight
    prioCeil := m.prioCeil
    loomCap := m.loomCap
    trestleShare := m.trestleShare
    budget := ((2048 * m.trestleShare : Nat) : Int)
    frozen := true
    restored := true
    refusedKeys := refused
    phys := phys }

/-- A queue of the image takes the port's lowest free number and its record's values. -/
def restoreQueue (p : PortId) (i : SliceIdx) (s : State) (q : ImageQueue) : State :=
  match freeQueueNumber s p with
  | none => s
  | some n =>
    let new : Queue :=
      { port := p
        qnum := n
        slice := i
        index := q.index
        express := q.express
        log2 := q.log2
        base := q.base
        vector := q.vector
        coalCount := q.coalCount
        coalTime := q.coalTime
        poll := q.poll
        head := BitVec.ofNat 17 q.head
        tail := BitVec.ofNat 17 q.tail
        state := .frozen
        installing := true }
    { s with queues := s.queues ++ [new] }

/-- The next index of a stateful key that an image carries: HANDOFF of its tally entry (R460). -/
def restoredNext (m : SliceBody) (r : ImageRun) : Nat :=
  match m.tally.find? fun t => t.first == r.first with | some t => t.handoff | none => 0

/-- A run of the image, a stateful key with its whole tree (R457, R459). -/
def restoredRun (p : PortId) (i : SliceIdx) (m : SliceBody) (r : ImageRun) : KeyRun :=
  { port := p
    slice := i
    first := r.first
    length := r.length
    gen := r.generation
    kind := r.kind
    family := r.family
    set := r.set
    policy := r.policy
    content := r.content
    tr := keyTr r.kind r.family r.set r.content
    keyId := match m.tally.find? fun t => t.first == r.first with | some t => t.keyId | none => 0
    state := .live
    subtrees := if r.kind = 4 then (List.range (buildCount r.family r.set)).map fun j => (j, subtreeNodes r.family r.set j (restoredNext m r) r.content) else [] }

/-- An image passes its checks: the nonce is logged, records and runs are written, and the slice waits for its beat. -/
def restoreAct (p : PortId) (i : SliceIdx) (e : Entry) (nonce : BitVec 128) (m : SliceBody) (s : State) : State :=
  let accepted := nonceAccepted s nonce
  let fresh := newEntries s m
  let refused := if accepted then 0 else (fresh.filter fun t => t.state == 2).length
  let s := (draw inst16 32 s).2
  let s := if carriesLive m && accepted then logNonce nonce s else s
  let s := fresh.foldl (restoreTally m.uid accepted) s
  let x := restoredSlice p i e m refused (allotDrawers s m.drawers)
  let s := { s with slices := s.slices ++ [x], runs := s.runs ++ m.runs.map (restoredRun p i m) }
  let s := setGens (m.runs.map fun r => (physDrawer x.phys r.first, r.generation)) s
  let s := m.queues.foldl (restoreQueue p i) s
  adminWait p (.restore i) (modPort p (fun y => { y with moveRefuse := 0 }) s)

/-- The image that the command names: the host's, or the one on the card in the slot (R443). -/
def namedImage (s : State) (e : Entry) (image : Option SliceImage) : Option SliceImage :=
  match (fins 4).find? fun c => c.val + 1 == entryByte e 12 with
  | none => image
  | some c => if cardUsable (cardOf s c) then (cardOf s c).image.map (fun x => x.payload) else none

/-- The image record of the card that the command names is read from it. -/
def readNamed (s : State) (e : Entry) : State :=
  match (fins 4).find? fun c => c.val + 1 == entryByte e 12 with
  | none => s
  | some c => match (if cardUsable (cardOf s c) then (cardOf s c).image else none) with
    | some r => readCopy c imagePlace r.copyB (imageBytes r.payload).length s
    | none => s

/-- RESTORE_SLICE. A source beyond the four slots is no operand of the command (log entry 30). -/
def restoreSliceAct (p : PortId) (image : Option SliceImage) (e : AdminEntry) (s : State) : State :=
  if 4 < entryByte e.entry 12 then adminDone p .opUnsupported 0 [] s
  else if entryByte e.entry 12 != 0 && busBusy s then s
  else
    let m := namedImage s e.entry image
    let r := restoreRefusal s p e.entry m
    let s := readNamed s e.entry
    if r != 0 then refuseMove p r s
    else match m, m.bind (receivedBody s), freeSliceIndex s p with
      | some m, some b, some i => restoreAct p i e.entry (imgNonce m) b s
      | _, _, _ => refuseMove p 0x21 s

def execRestoreSlice (p : PortId) (image : Option SliceImage) (s : State) : Host.Outcome State Fault Refusal :=
  .next (adminCommand p 0x07 (restoreSliceAct p image) s)

end Sys2Proof.Machine
end

