-- ==== Sys2Proof/Machine/Flags.lean ====
section
/-! DEFINITION. Every status flag and register of BAR0 as a port reads it (R47, R78 to R80, R110, R111, R118, R119, R136,
R137, R168, R169, R193, R194, R223, R308, R332, R355, R371, R388, R413, R445, R463, R485, R511, R512, R523, R537). -/

namespace Sys2Proof.Machine

/-- Low and high halves of a 64-bit value. -/
def lowHalf (v : Nat) : Word := BitVec.ofNat 32 v
def highHalf (v : Nat) : Word := BitVec.ofNat 32 (v / 2 ^ 32)

/-! ### Identity, status and life cycle, 0x0000_0000 (R78, R79, R111, R119, R463, R537) -/

/-- MOD_STATUS (R78). -/
def modStatus (s : State) : Word :=
  packFields [(28, 4, modeCode s.mode.base), (24, 4, s.mode.last), (20, 4, s.mode.cause), (13, 1, bit s.mode.chestEmpty),
    (12, 1, bit s.mode.stewardLost), (11, 1, bit s.mode.seeded), (10, 1, bit s.mode.ready), (8, 2, s.mode.draftSrc),
    (7, 1, bit (isServe s.mode.base)), (0, 4, modeShown s)]

/-- MOD_STRAPS (R79). -/
def modStraps (s : State) : Word :=
  match s.mode.straps with
  | none => 0
  | some t => packFields [(5, 1, bit t.dbgreq), (4, 1, bit t.pwrmin), (3, 1, bit t.cardspd), (2, 1, bit t.compat), (0, 2, t.boot.toNat)]

/-- MOD_BOOT_TIME (R79). -/
def modBootTime (s : State) : Word := packFields [(16, 16, s.mode.idleMs), (0, 16, s.mode.seedMs)]

/-- ROLE and ORDER of a bench as the registers show them: the default draft's before a threading (R552; log entry 34). -/
def roleShown (s : State) (b : Nat) : Nat :=
  if s.draft.threaded.isSome then roleOf s b else if b < 4 then 1 else if b < 12 then 2 else 3

/-- LCS_STATE (R537). -/
def lcsState (s : State) : Word :=
  let tests := debugOpen s && (s.life.state == 0 || s.life.state == 1 || s.life.state == 4)
  packFields [(6, 1, bit s.life.invalid), (5, 1, bit s.life.repaired), (4, 1, bit tests), (3, 1, bit (debugOpen s)), (0, 3, s.life.state)]

def modReg (s : State) (p : PortId) (o : Nat) : Word :=
  let x := s.ports[p.val]
  if o = 0x000 then 0x96401D5F
  else if o = 0x004 then lowHalf s.fuses.serial.toNat
  else if o = 0x008 then highHalf s.fuses.serial.toNat
  else if o = 0x00C then packFields [(9, 1, bit x.atsEn), (8, 1, bit x.pasidEn), (6, 1, bit x.singleLane), (4, 2, x.gen), (0, 2, p.val)]
  else if o = 0x100 then modStatus s
  else if o = 0x104 then modStraps s
  else if o = 0x108 then modBootTime s
  else if o = 0x110 then (match s.draft.threaded with | some d => d.familyId | none => 0x96400001)
  else if o = 0x114 then (match s.draft.threaded with | some d => d.version | none => 0x01000000)
  else if o = 0x118 then
    packFields [(16, 8, s.draft.section_), (10, 2, s.draft.slot), (9, 1, bit s.draft.ownerPart), (0, 8, s.draft.code)]
  else if o = 0x11C then packFields ((List.range 16).map fun b => (2 * b, 2, roleShown s b))
  else if o = 0x120 then packFields ((List.range 16).map fun b => (b, 1, bit (orderOf s b == 2)))
  else if o = 0x124 then ownerSeq s
  else if o = 0x128 then lowHalf s.flash.receiveFloor.toNat
  else if o = 0x12C then highHalf s.flash.receiveFloor.toNat
  else if o = 0x200 then lcsState s
  else if o = 0x204 then packFields [(0, 24, s.life.otpRead.toNat)]
  else if o = 0x208 then
    packFields [(31, 1, bit s.life.nonce.isSome), (30, 1, bit s.life.debug), (8, 8, s.life.attempts), (0, 8, s.life.result)]
  else 0

/-! ### The stage, 0x0001_0000 (R110) -/

/-- STG_STATUS. -/
def stgStatus (g : Stage) : Word :=
  packFields [(31, 1, bit g.armed), (30, 1, bit g.applied), (29, 1, bit g.recheck), (28, 1, bit g.overflow), (27, 1, bit g.pruned),
    (26, 1, bit g.scaled), (25, 1, bit g.clamped), (24, 1, bit g.late), (8, 13, g.entries.length), (0, 8, g.code)]

def stgReg (s : State) (p : PortId) (o : Nat) : Word :=
  let g := s.ports[p.val].stage
  if o = 0x004 then stgStatus g
  else if o = 0x008 then packFields [(0, 16, (stageSum g).toNat)]
  else if o = 0x00C then BitVec.ofNat 32 (s.clock / 4096)
  else if o = 0x010 then g.applyBeat
  else if o = 0x014 then packFields [(31, 1, bit s.device.armed), (0, 8, s.device.code)]
  else if o = 0x018 then packFields [(16, 11, s.shares[1]), (0, 11, s.shares[0])]
  else if o = 0x01C then packFields [(16, 11, s.shares[3]), (0, 11, s.shares[2])]
  else 0

/-! ### The admin block, 0x0002_0000 (R137, R168, R463) -/

/-- A staged register: its fields' staged or applied values. -/
def stagedReg (s : State) (p : PortId) (off : Nat) : Word :=
  packFields ((fieldsAt off).map fun f => ((fieldPlace f).2.1, (fieldPlace f).2.2, shownField s p f))

/-- ADM_AQ_STATE. -/
def aqState (a : AdminQueue) : Word :=
  packFields [(30, 2, if a.error then 3 else bit a.enable), (26, 4, a.err), (17, 1, bit a.entry.isSome), (0, 17, a.head.toNat)]

def admReg (s : State) (p : PortId) (o : Nat) : Word :=
  let x := s.ports[p.val]
  let a := x.admin
  if o = 0x000 then lowHalf a.base.toNat
  else if o = 0x004 then highHalf a.base.toNat
  else if o = 0x008 then packFields [(31, 1, bit a.enable), (16, 11, a.vector), (0, 5, a.log2)]
  else if o = 0x010 then aqState a
  else if o = 0x100 then
    packFields [(16, 16, heldBy s p fun y => y.drawers), (10, 6, heldBy s p fun y => y.digestSlots), (0, 10, heldBy s p fun y => y.queueAllot)]
  else if o = 0x104 then packFields [(16, 9, (liveSlices s p).length), (0, 14, heldBy s p fun y => y.tallyAllot)]
  else if o = 0x108 then packFields [(16, 16, quotaOf s p 65536), (10, 6, quotaOf s p 32), (0, 10, 1023)]
  else if o = 0x10C then packFields [(16, 9, 256), (0, 14, quotaOf s p 8192)]
  else if o = 0x110 then packFields [(0, 8, x.sliceRefuse)]
  else if o = 0x114 then packFields [(0, 8, x.queueRefuse)]
  else if o = 0x118 then packFields [(0, 8, x.moveRefuse)]
  else stagedReg s p (0x20000 + o)

/-! ### Slice windows, 0x0010_0000 (R136, R169, R463) -/

/-- State code of a queue (R169). -/
def queueCode : QueueState → Nat
  | .active => 1 | .frozen => 2 | .error => 3

/-- The registers of the queue that QUE_SEL selects. -/
def queueReg (q : Queue) (o : Nat) : Word :=
  if o = 0x104 then packFields [(31, 1, 1), (30, 1, bit q.express), (25, 5, q.log2), (14, 11, q.vector), (0, 10, q.qnum)]
  else if o = 0x108 then lowHalf q.base.toNat
  else if o = 0x10C then highHalf q.base.toNat
  else if o = 0x110 then packFields [(30, 2, queueCode q.state), (26, 4, q.err), (0, 17, q.head.toNat)]
  else if o = 0x114 then packFields [(0, 17, if q.express then 0 else q.tail.toNat)]
  else if o = 0x118 then packFields [(0, 17, q.owned)]
  else 0

/-- QUE_ERRMAP `j`. -/
def errorMap (s : State) (x : Slice) (j : Nat) : Word :=
  packFields ((List.range 32).map fun k =>
    (k, 1, bit (match findLocalQueue s x.port x.idx.val (32 * j + k) with | some q => q.state == .error | none => false)))

def liveSliceReg (s : State) (x : Slice) (o : Nat) : Word :=
  if o = 0x000 then
    packFields [(31, 1, 1), (30, 1, bit x.frozen), (29, 1, bit x.pasid.isNone), (0, 20, match x.pasid with | some v => v.toNat | none => 0)]
  else if o = 0x004 then lowHalf x.uid.toNat
  else if o = 0x008 then highHalf x.uid.toNat
  else if o = 0x00C then packFields [(16, 16, x.drawers), (10, 6, x.digestSlots), (0, 10, x.queueAllot)]
  else if o = 0x010 then packFields [(0, 14, x.tallyAllot)]
  else if o = 0x014 then packFields [(0, 16, x.weight)]
  else if o = 0x018 then packFields [(26, 3, x.prioCeil), (16, 7, x.loomCap), (0, 11, x.trestleShare)]
  else if o = 0x01C then packFields [(0, 16, x.xlateFaults)]
  else if o = 0x020 then packFields [(0, 10, moduleIndex x.port x.idx)]
  else if o = 0x024 then packFields [(31, 1, bit x.saved), (30, 1, bit x.restored), (0, 14, x.refusedKeys)]
  else if o = 0x100 then packFields [(0, 9, x.queSel.toNat)]
  else if 0x104 ≤ o ∧ o ≤ 0x118 then
    match findLocalQueue s x.port x.idx.val x.queSel.toNat with | some q => queueReg q o | none => 0
  else if 0x180 ≤ o ∧ o ≤ 0x1BC then errorMap s x ((o - 0x180) / 4)
  else 0

/-- A window with no live slice reads as zero. -/
def sliceReg (s : State) (p : PortId) (o : Nat) : Word :=
  match findSlice s p (o / 0x1000) with
  | some x => liveSliceReg s x (o % 0x1000)
  | none => 0

/-! ### The digest farm, 0x0020_0000 (R371) -/

def slotCode : SlotState → Nat
  | .free => 0 | .absorbing => 1 | .finalising => 2 | .done => 3

def digestSlotReg (x : DigestSlotState) (o : Nat) : Word :=
  if o = 0x00 then
    packFields [(16, 16, x.status), (12, 4, slotCode x.state), (11, 1, bit x.broken), (10, 1, bit x.earlyRead), (9, 1, bit x.lateWrite), (0, 8, x.alg)]
  else if o = 0x04 then x.gen
  else if o = 0x08 then packFields [(0, 15, slotRoom x)]
  else if o = 0x0C then lowHalf x.absorbed
  else if o = 0x10 then packFields [(0, 16, x.absorbed / 2 ^ 32)]
  else if o = 0x14 then lowHalf x.total.toNat
  else if o = 0x18 then packFields [(0, 16, x.total.toNat / 2 ^ 32)]
  else if o = 0x20 then packFields [(0, 17, x.resultLen)]
  else 0

/-- Items that the digest engine serves. -/
def oneShots (s : State) : Nat :=
  (s.heddle.items.filter fun i => i.place == .inService && (match i.engine with | some (.digest _) => true | _ => false)).length

def dgfReg (s : State) (p : PortId) (o : Nat) : Word :=
  let x := s.ports[p.val]
  if o = 0x0 then packFields [(24, 8, x.dgfAlg), (16, 8, x.dgfReason), (8, 8, x.dgfSlice), (0, 6, x.dgfSlot)]
  else if o = 0x4 then packFields [(0, 4, x.dgfPage)]
  else if o = 0x8 then stagedReg s p 0x200008
  else if o = 0xC then
    packFields [(8, 6, (s.farm.slots.toList.filter fun d => d.state == .free).length), (0, 4, oneShots s)]
  else if h : 0x1000 ≤ o ∧ o < 0x1800 then digestSlotReg (s.farm.slots[(o - 0x1000) / 0x40]'(by omega)) (o % 0x40)
  else 0

/-! ### Events, trace and logbook, 0x0030_0000 (R193, R194, R445, R523) -/

/-- The records that stand: the mirror's, or flash's before step 5 of R66. -/
def standingRecords (s : State) : List LogRecord := if s.mode.fwDone then s.log.records else s.flash.logRecords

/-- HDL_OCC of a class. -/
def hdlOcc (s : State) (c : SvcClass) : Word :=
  let of (pl : Place) : List Item := s.heddle.items.filter fun i => i.place == pl && i.cls == c
  packFields [(16, 13, (of .ready).length), (8, 8, (maskOf 8 ((of .ready).map fun i => prioOf i.entry)).toNat), (0, 7, (of .inService).length)]

/-- HDL_CFG. -/
def hdlCfg (h : HeddleSection) : Word :=
  packFields [(24, 8, h.affAge), (20, 4, h.affWin), (17, 3, h.bulkMax), (8, 8, h.dimThresh), (0, 2, h.depthCode)]

/-- Bit `n` of a list of looms from `lo`: dimmed. -/
def dimmedMap (s : State) (lo : Nat) : Word :=
  packFields ((List.range 32).map fun k => (k, 1, bit (match s.looms[lo + k]? with | some l => l.dimmed | none => false)))

def countPlace (s : State) (pl : Place) : Nat := (s.heddle.items.filter fun i => i.place == pl).length

/-- EVT_CEREMONY. -/
def evtCeremony (c : Ceremony) : Word :=
  packFields [(28, 4, c.state), (24, 4, c.kind), (20, 4, c.m), (16, 4, c.n), (12, 4, c.written), (0, 8, c.error)]

/-- The logbook's registers. -/
def logReg (s : State) (o : Nat) : Word :=
  let rs := standingRecords s
  if o = 0x00 then packFields [(31, 1, bit (decide (4096 ≤ rs.length))), (30, 1, bit s.faults.flashFenced), (0, 13, rs.length)]
  else if o = 0x04 then (match rs.getLast? with | some r => r.seq | none => 0)
  else if o = 0x08 then (match rs.head? with | some r => r.seq | none => 0)
  else if o = 0x0C then BitVec.ofNat 32 s.flash.lost[0]
  else if o = 0x10 then BitVec.ofNat 32 s.flash.lost[1]
  else if o = 0x14 then BitVec.ofNat 32 s.flash.lost[2]
  else if o = 0x18 then BitVec.ofNat 32 s.flash.lost[3]
  else if o = 0x1C then packFields [(0, 24, s.flash.powerCycle)]
  else if o = 0x20 then BitVec.ofNat 32 s.log.seconds
  else if o = 0x24 then packFields [(0, 13, (rs.filter fun r => r.severity == 3).length)]
  else 0

def evtReg (s : State) (p : PortId) (o : Nat) : Word :=
  let t := s.ports[p.val].trace
  if o < 0x400 then logReg s o
  else if o = 0x400 then hdlCfg (heddleSection s)
  else if o = 0x410 then hdlOcc s .kem
  else if o = 0x414 then hdlOcc s .sign
  else if o = 0x418 then hdlOcc s .hash
  else if o = 0x41C then hdlOcc s .trestle
  else if o = 0x420 then hdlOcc s .selvedge
  else if o = 0x424 then hdlOcc s .local_
  else if o = 0x430 then dimmedMap s 0
  else if o = 0x434 then dimmedMap s 32
  else if o = 0x438 then packFields [(16, 16, countPlace s .parked), (0, 16, countPlace s .seedWait)]
  else if o = 0x800 then packFields [(31, 1, bit t.enabled), (0, 5, t.log2)]
  else if o = 0x804 then t.produced
  else if o = 0x808 then t.consumed
  else if o = 0x80C then BitVec.ofNat 32 t.dropped
  else if o = 0xC00 then evtCeremony s.ceremony
  else 0

/-! ### Power and clocks, 0x0040_0000 (R47, R80) -/

def contractReg (c : Contract) : Word :=
  packFields [(31, 1, bit c.valid), (18, 10, c.current), (8, 10, c.voltage), (2, 2, c.source), (1, 1, bit c.emark5a), (0, 1, bit c.attached)]

/-- PWR_PLAN; units of the plan, fenced ones too (log entry 134). -/
def pwrPlan (s : State) : Word :=
  packFields [(16, 16, s.power.benchOn.toNat), (8, 8, s.power.trestleOn.toNat), (4, 4, s.power.selvOn.toNat), (3, 1, bit s.power.belowMin),
    (0, 3, planCode s.power.plan)]

/-- The POWER section's values; the default draft's before a threading. -/
def powerSection (s : State) : PowerSection :=
  match s.draft.threaded with
  | some d => d.power
  | none => { liteBenches := [0, 4, 5, 12], liteTrestles := [0, 1], liteSelv := [0], idleUs := 50, sscDepth := 50, hdrSlew := 2 }

/-- The bench's measurement runs, for which a gated bench has its clock started (R501). -/
def benchMeasures (s : State) (b : Nat) : Bool := match s.benches[b]? with | some x => x.measuring | none => false

def benchGated (s : State) (b : Nat) : Bool := match s.benches[b]? with | some x => x.gated | none => false

/-- Clock domain `d` runs (R61). -/
def domainRuns (s : State) (d : Nat) : Bool :=
  let fed := !(s.power.plan == .wakeOnly)
  if d < 4 ∨ d = 36 ∨ d = 38 then true
  else if d < 20 then s.power.benchOn.getLsbD (d - 4) && (!benchGated s (d - 4) || benchMeasures s (d - 4))
  else if d < 28 then fed && (match s.power.contracts[(d - 20) % 4]? with | some c => c.attached | none => false)
  else if d < 32 then s.power.trestleOn.getLsbD (2 * (d - 28)) || s.power.trestleOn.getLsbD (2 * (d - 28) + 1)
  else if d < 34 then s.power.selvOn.getLsbD (2 * (d - 32)) || s.power.selvOn.getLsbD (2 * (d - 32) + 1)
  else if d = 34 ∨ d = 35 ∨ d = 39 then fed
  else if d = 37 then s.cards.slots.toList.any fun c => c.powered
  else false

def clockMap (s : State) (lo n : Nat) : Word := packFields ((List.range n).map fun k => (k, 1, bit (domainRuns s (lo + k))))

def pwrReg (s : State) (o : Nat) : Word :=
  if h : o < 0x10 ∧ o % 4 = 0 then contractReg (s.power.contracts[o / 4]'(by omega))
  else if o = 0x10 then packFields [(0, 12, budgetShown s)]
  else if o = 0x14 then pwrPlan s
  else if o = 0x18 then
    packFields [(8, 8, (s.power.tj % 256).toNat), (4, 4, popcount s.power.throttled), (0, 1, bit s.power.throttling)]
  else if o = 0x1C then packFields [(0, 12, s.power.events.toNat)]
  else if o = 0x20 then packFields [(8, 2, (powerSection s).hdrSlew), (0, 8, (powerSection s).sscDepth)]
  else if o = 0x30 then clockMap s 0 32
  else if o = 0x34 then clockMap s 32 8
  else if o = 0x38 then
    packFields [(16, 16, (maskOf 16 ((List.range 16).filter fun b => benchGated s b && s.power.benchOn.getLsbD b)).toNat), (0, 16, (powerSection s).idleUs)]
  else 0

/-! ### Tamper, 0x0050_0000 (R485) -/

/-- Two bits for each of sixteen sources from `lo`. -/
def pairMap (lo : Nat) (f : SourceId → Nat) : Word :=
  packFields ((fins 24).filterMap fun i => if lo ≤ i.val ∧ i.val < lo + 16 then some (2 * (i.val - lo), 2, f i) else none)

/-- TAM_COMPAT, with the window of `compatWindow`. -/
def tamCompat (s : State) : Word :=
  let c := match s.draft.threaded with | some d => d.compat | none => none
  let strap := match s.mode.straps with | some t => t.compat | none => false
  let draft := match c with | some c => c.enable == 1 | none => false
  let w := compatWindow s
  packFields [(31, 1, bit (compatOn s)), (30, 1, bit strap), (29, 1, bit draft), (8, 8, w.2), (0, 8, w.1)]

def tamReg (s : State) (o : Nat) : Word :=
  if o = 0x00 then packFields [(0, 24, s.tamper.active.toNat)]
  else if o = 0x04 then packFields [(0, 24, s.backup.sticky.toNat)]
  else if o = 0x08 then packFields [(0, 24, s.fuses.fused.toNat)]
  else if o = 0x0C then pairMap 0 (classOf s)
  else if o = 0x10 then pairMap 16 (classOf s)
  else if o = 0x14 then pairMap 0 fun i => s.fuses.caps[i.val]
  else if o = 0x18 then pairMap 16 fun i => s.fuses.caps[i.val]
  else if o = 0x1C then tamCompat s
  else if o = 0x20 then packFields [(0, 24, s.tamper.stimFail.toNat)]
  else if o = 0x24 then packFields [(8, 8, s.tamper.latchLost), (0, 4, s.tamper.latchCount)]
  else 0

/-! ### The fault collector, 0x0060_0000 (R223, R332, R355, R511) -/

/-- LOOM registers (R223); PARKED reads 0 until a draft is threaded (log entry 117). -/
def loomReg (s : State) (n : LoomId) (o : Nat) : Word :=
  let l := s.looms[n.val]
  let b := n.val / 4
  if o = 0x0 then
    packFields [(31, 1, bit (loomFenced s n)), (30, 1, bit (s.draft.threaded.isSome && !s.power.benchOn.getLsbD b)),
      (29, 1, bit (benchGated s b)), (28, 1, bit l.dimmed), (26, 2, match s.benches[b]? with | some x => x.clkStep | none => 0),
      (25, 1, bit (orderOf s b == 2)), (23, 2, roleShown s b), (16, 4, l.cache.length), (0, 9, (l.cache.map fun c => c.blocks).sum)]
  else if o = 0x4 then packFields [(16, 16, l.hits.toNat), (0, 16, l.misses.toNat)]
  else if o = 0x8 then
    packFields [(24, 8, l.mismatch), (16, 8, l.abandoned), (11, 1, bit l.firstLane.isSome), (8, 3, match l.firstLane with | some k => k.val | none => 0)]
  else 0

def trestleReg (s : State) (t : TrestleId) (o : Nat) : Word :=
  let x := s.trestles[t.val]
  if o = 0x0 then
    let job := activeJob s t
    let ask (f : Item → Bool) : Nat := match job with | some i => bit (f i) | none => 0
    packFields [(31, 1, bit (s.faults.trestle.getLsbD t.val)), (30, 1, bit (s.draft.threaded.isSome && !s.power.trestleOn.getLsbD t.val)), (29, 1, bit job.isSome),
      (28, 1, ask fun i => !isShort s i), (27, 1, bit (suspendedJob s t).isSome), (26, 1, ask fun i => needsBoth i.entry), (25, 1, ask fun i => i.ctxB)]
  else if o = 0x4 then packFields [(24, 8, x.mismatch), (16, 8, x.abandoned), (0, 16, x.yields.toNat)]
  else 0

def selvReg (s : State) (u : SelvId) (o : Nat) : Word :=
  let x := s.selvs[u.val]
  if o = 0x0 then
    packFields [(31, 1, bit (s.faults.selv.getLsbD u.val)), (30, 1, bit (s.draft.threaded.isSome && !s.power.selvOn.getLsbD u.val)), (29, 1, bit x.keygen),
      (16, 4, x.cache.length), (0, 10, (x.cache.map fun c => c.pages).sum)]
  else if o = 0x4 then packFields [(16, 16, x.hits.toNat), (0, 16, x.misses.toNat)]
  else if o = 0x8 then packFields [(24, 8, x.mismatch), (16, 8, x.abandoned), (0, 8, x.lastAttempts)]
  else 0

def collectorReg (s : State) (o : Nat) : Word :=
  let f := s.faults
  if o < 0x10 then BitVec.ofNat 32 (f.sticky.toNat >>> (8 * o))
  else if o = 0x10 then packFields [(31, 1, bit f.firstValid), (30, 1, bit f.firstUe), (0, 7, f.first)]
  else if o = 0x14 then packFields [(16, 16, f.bench.toNat), (8, 8, f.trestle.toNat), (4, 4, f.selv.toNat), (0, 4, f.port.toNat)]
  else if o = 0x18 then BitVec.ofNat 32 f.ceCount
  else if o = 0x1C then packFields [(31, 1, bit f.warden), (28, 3, f.trigger)]
  else if o = 0x20 then packFields [(31, 1, bit f.testDone), (8, 7, f.testFailed.toNat), (0, 7, f.tested.toNat)]
  else 0

def fltReg (s : State) (o : Nat) : Word :=
  if o < 0x1000 then collectorReg s o
  else if h : 0x1000 ≤ o ∧ o < 0x1400 then loomReg s ⟨(o - 0x1000) / 0x10, by omega⟩ (o % 0x10)
  else if h : 0x1400 ≤ o ∧ o < 0x1480 then trestleReg s ⟨(o - 0x1400) / 0x10, by omega⟩ (o % 0x10)
  else if o = 0x1480 then packFields [(0, 14, (heddleSection s).shortLimit)]
  else if h : 0x1800 ≤ o ∧ o < 0x1840 then selvReg s ⟨(o - 0x1800) / 0x10, by omega⟩ (o % 0x10)
  else 0

/-! ### The bobbin, 0x0070_0000 (R373, R375, R388) -/

def bobbinCode : BobbinState → Nat
  | .off => 0 | .starting => 1 | .serving => 2 | .retryWait => 3 | .failed => 4

/-- Conditioned supply, Mbit/s: 768 bits of 100 Mbit/s for a block under code 0 (R372, R375). -/
def supplyOf (b : Bobbin) : Nat :=
  let live := popcount b.live
  if b.vn then 32 * live else min 256 (100 * live / 3)

def bobReg (s : State) (o : Nat) : Word :=
  let b := s.bobbin
  if o = 0x0 then
    packFields [(29, 3, bobbinCode b.state), (27, 2, b.retries), (26, 1, bit b.vn), (16, 8, b.live.toNat), (12, 4, b.lastTest), (8, 4, b.lastPair)]
  else if o = 0x4 then packFields [(16, 16, s.cal.aliveMin), (0, 12, s.cal.lockMax)]
  else if o = 0x8 then packFields [(16, 10, aptCutoff b.vn), (0, 6, rctCutoff b.vn)]
  else if o = 0xC then packFields [(24, 8, b.seedQueue.length), (0, 9, supplyOf b)]
  else if h : 0x100 ≤ o ∧ o < 0x188 then
    let x := b.instances[(o - 0x100) / 8]'(by omega)
    if o % 8 = 0 then packFields [(31, 1, bit x.instantiated), (30, 1, bit x.stalled), (29, 1, bit x.pending), (0, 8, x.stretchMax)]
    else if o % 8 = 4 then BitVec.ofNat 32 (min (2 ^ 32 - 1) x.count)
    else 0
  else 0

/-! ### The cabinet, the card bus, ageing (R308, R413, R445, R512) -/

/-- CAB_SLICE_USE: drawers in runs, and live runs. -/
def sliceUse (s : State) (p : PortId) (i : Nat) : Word :=
  let rs := s.runs.filter fun r => r.port == p && r.slice.val == i
  packFields [(16, 16, (rs.map fun r => r.length).sum), (0, 16, (rs.filter fun r => r.state == .live).length)]

def cabReg (s : State) (p : PortId) (o : Nat) : Word :=
  if o = 0x0 then
    packFields [(31, 1, bit s.mode.chestPassed), (30, 1, bit (ownerSet s)), (29, 1, bit s.life.debug), (28, 1, bit (regenerated s)),
      (27, 1, bit s.cabinet.identityReady), (0, 13, 4096 - scratchUsed s)]
  else if o = 0x4 then packFields [(16, 16, s.cabinet.corrected), (0, 16, s.cabinet.refreshPasses.toNat)]
  else if 0x1000 ≤ o ∧ o < 0x1400 ∧ o % 4 = 0 then sliceUse s p ((o - 0x1000) / 4)
  else 0

/-- CCB_SLOT. -/
def cardReg (c : CardState) : Word :=
  packFields [(31, 1, bit c.present), (30, 1, bit c.powered), (29, 1, bit c.identified), (28, 1, bit c.locked), (27, 1, bit c.failed),
    (26, 1, bit c.duplicate), (25, 1, bit c.blank), (24, 1, bit c.speedLimit), (22, 2, c.mode), (19, 3, c.addr), (18, 1, bit c.busy),
    (12, 4, (c.shares.filter fun r => r.isSome).length), (11, 1, bit c.image.isSome), (10, 1, bit c.recovery.isSome), (0, 4, c.lastErr)]

def ccbReg (s : State) (o : Nat) : Word :=
  let k := s.cards
  if o = 0x0 then packFields [(0, 2, k.slew)]
  else if h : 0x10 ≤ o ∧ o < 0x20 ∧ o % 4 = 0 then cardReg (k.slots[(o - 0x10) / 4]'(by omega))
  else if o = 0x20 then packFields [(8, 4, k.removedInTransfer.toNat), (4, 4, k.failedEv.toNat), (0, 4, k.inserted.toNat)]
  else if h : 0x100 ≤ o ∧ o < 0x140 ∧ o % 4 = 0 then
    let c := k.slots[(o - 0x100) / 16]'(by omega)
    if c.identified then BitVec.ofNat 32 (c.identity.toNat >>> (8 * (o % 16))) else 0
  else 0

/-- AGE_BENCH: LOSS in whole picoseconds, rounded down (log entry 36). -/
def ageBench (b : Bench) : Word :=
  packFields [(31, 1, bit b.ageFenced), (30, 1, bit b.noBaseline), (28, 2, b.clkStep), (24, 4, b.trim), (0, 16, ((b.loss / 100) % 65536).toNat)]

def ageReg (s : State) (o : Nat) : Word :=
  if h : o < 0x40 ∧ o % 4 = 0 then ageBench (s.benches[o / 4]'(by omega))
  else if o = 0x40 then packFields [(0, 17, s.cal.ageNext)]
  else if o = 0x400 then packFields [(31, 1, bit s.cal.valid), (30, 1, bit s.cal.failsafe), (29, 1, s.cal.origin)]
  else if o = 0x404 then s.cal.seq
  else if o = 0x800 then packFields [(13, 14, recordsInFlash s), (0, 10, tallyWear s)]
  else 0

/-! ### BAR0 (R118) -/

/-- The register at an aligned BAR0 offset as port `p` reads it; offsets not listed read as zero. -/
def readReg (s : State) (p : PortId) (off : Nat) : Word :=
  if off % 4 ≠ 0 then 0
  else if off < 0x10000 then modReg s p off
  else if off < 0x20000 then stgReg s p (off - 0x10000)
  else if off < 0x100000 then admReg s p (off - 0x20000)
  else if off < 0x200000 then sliceReg s p (off - 0x100000)
  else if off < 0x300000 then dgfReg s p (off - 0x200000)
  else if off < 0x400000 then evtReg s p (off - 0x300000)
  else if off < 0x500000 then pwrReg s (off - 0x400000)
  else if off < 0x600000 then tamReg s (off - 0x500000)
  else if off < 0x700000 then fltReg s (off - 0x600000)
  else if off < 0x800000 then bobReg s (off - 0x700000)
  else if off < 0x900000 then cabReg s p (off - 0x800000)
  else if off < 0xA00000 then ccbReg s (off - 0x900000)
  else if off < 0xB00000 then ageReg s (off - 0xA00000)
  else 0

end Sys2Proof.Machine
end

