-- ==== Sys2Proof/Machine/Registers.lean ====
section
/-! DEFINITION. Plain register writes (R12, R47, R110, R118, R137, R169, R371, R445), the reads of the USB 2.0 interface
(R76) and the debug port (R22, R500, R526, R534). -/

namespace Sys2Proof.Machine

/-! ### Register writes (R12, R118) -/

/-- Clears the bits of a W1C field, `n` of them from `lo`, where the value has a one. -/
def clearOnes {n : Nat} (m : BitVec n) (value : Word) (lo : Nat) : BitVec n := m &&& ~~~(BitVec.ofNat n (fieldOf value lo n))

/-- STG_STATUS (R110): its W1C bits. -/
def writeStgStatus (p : PortId) (v : Word) (s : State) : State :=
  modStage p (fun g =>
    { g with
      applied := g.applied && !v.getLsbD 30
      pruned := g.pruned && !v.getLsbD 27
      scaled := g.scaled && !v.getLsbD 26
      clamped := g.clamped && !v.getLsbD 25
      late := g.late && !v.getLsbD 24 }) s

/-- ADM_AQ_BASE (R168): half `i` of the base, while the queue is not enabled. -/
def writeAqBase (p : PortId) (i : Nat) (v : Word) (s : State) : State :=
  modAdmin p (fun a =>
    if a.enable then a
    else if i = 0 then { a with base := a.base.extractLsb' 32 32 ++ v }
    else { a with base := v ++ a.base.extractLsb' 0 32 }) s

/-- QUE_SEL (R169) of the slice's window. -/
def writeQueSel (p : PortId) (w : Nat) (v : Word) (s : State) : State :=
  match findSlice s p w with
  | some x => modSlice p x.idx (fun x => { x with queSel := v.setWidth 9 }) s
  | none => s

/-- DGF_SLOT_TOTAL (R371): half `i` of the length, by the slot's owner. -/
def writeTotal (p : PortId) (d : DigestSlot) (i : Nat) (v : Word) (s : State) : State :=
  if !ownsSlot s p d then s
  else modDigest d (fun x =>
    { x with total := if i = 0 then x.total.extractLsb' 32 16 ++ v else v.setWidth 16 ++ x.total.extractLsb' 0 32 }) s

/-- PWR_EVENTS (R47). -/
def clearPowerEvents (v : Word) (s : State) : State := { s with power := { s.power with events := clearOnes s.power.events v 0 } }

/-- CCB_EVENTS (R445). -/
def clearCardEvents (v : Word) (s : State) : State :=
  { s with cards := { s.cards with
    inserted := clearOnes s.cards.inserted v 0
    failedEv := clearOnes s.cards.failedEv v 4
    removedInTransfer := clearOnes s.cards.removedInTransfer v 8 } }

/-- A write to an aligned offset. Registers whose writes do more are commands of their own (log entry 10); every other
offset ignores writes (R118). -/
def writeReg (p : PortId) (off : Nat) (v : Word) (s : State) : State :=
  if off = 0x10000 then writeStgBeat p v s
  else if off = 0x10004 then writeStgStatus p v s
  else if off = 0x20000 then writeAqBase p 0 v s
  else if off = 0x20004 then writeAqBase p 1 v s
  else if 0x100000 ≤ off ∧ off < 0x200000 ∧ off % 0x1000 = 0x100 then writeQueSel p ((off - 0x100000) / 0x1000) v s
  else if off = 0x200004 then modPort p (fun x => { x with dgfPage := fieldOf v 0 4 }) s
  else if h : 0x201000 ≤ off ∧ off < 0x201800 then
    let d : DigestSlot := ⟨(off - 0x201000) / 0x40, by omega⟩
    if off % 0x40 = 0x14 then writeTotal p d 0 v s else if off % 0x40 = 0x18 then writeTotal p d 1 v s else s
  else if off = 0x40001C then clearPowerEvents v s
  else if off = 0x900000 then { s with cards := { s.cards with slew := fieldOf v 0 2 } }
  else if off = 0x900020 then clearCardEvents v s
  else s

/-- REGISTER_WRITE (R12, R118): accesses that are not aligned dwords complete as Unsupported Request. -/
def execRegisterWrite (p : PortId) (offset size : Nat) (value : Word) (s : State) : Host.Outcome State Fault Refusal :=
  .next (
    if size ≠ 4 ∨ offset % 4 ≠ 0 ∨ barSize ≤ offset then onBar p (fun s => emit (.unsupportedRequest p) s) s
    else onWrite p (writeReg p offset value) s)

/-- PWR_EVENTS_CLEAR (R47): only an attached port's function reaches it. -/
def execPwrEventsClear (p : PortId) (value : Word) (s : State) : Host.Outcome State Fault Refusal :=
  .next (onWrite p (clearPowerEvents value) s)

/-! ### Reads over USB 2.0 (R76) -/

def wordBytes (w : Word) : Bytes := leBytes 4 w.toNat

/-- The codes of the other management commands (R76), each a command of its own (log entry 10). -/
def otherUsbCodes : List Nat := [0x0002, 0x0003, 0x0010, 0x0020, 0x0030, 0x0031]

/-- GET_STATUS, and what a request with a code that R76 does not list gets. -/
def getStatus (p : PortId) (r : UsbRequest) (s : State) : State :=
  if r.code = 0x0001 then
    emit (.usb p 0x0001 r.seq .ok ([modStatus s, modStraps s, modBootTime s, pwrPlan s].flatMap wordBytes)) s
  else if otherUsbCodes.contains r.code.toNat then s
  else emit (.usb p r.code.toNat r.seq .opUnsupported []) s

/-- GET_STATUS (R76). -/
def execGetStatus (p : PortId) (request : UsbRequest) (s : State) : Host.Outcome State Fault Refusal :=
  .next (onUsb p (getStatus p request) s)

/-- Blocks that READ_BLOCK reaches: MOD and LCS, EVT, PWR, TAM and FLT. -/
def blockOpen (off len : Nat) : Bool :=
  let within (lo hi : Nat) : Bool := decide (lo ≤ off) && decide (off + len ≤ hi)
  within 0 0x10000 || within 0x300000 0x400000 || within 0x400000 0x500000 || within 0x500000 0x600000 || within 0x600000 0x700000

def blockBytes (s : State) (p : PortId) (off len : Nat) : Bytes :=
  (List.range (len / 4)).flatMap fun i => wordBytes (readReg s p (off + 4 * i))

/-- READ_BLOCK: whole dwords, at most 4 KiB. -/
def execReadBlock (p : PortId) (seq : BitVec 16) (offset length : Nat) (s : State) : Host.Outcome State Fault Refusal :=
  .next (onUsb p (fun s =>
    if offset % 4 = 0 ∧ length % 4 = 0 ∧ 0 < length ∧ length ≤ 4096 ∧ blockOpen offset length = true then
      emit (.usb p 0x0002 seq .ok (blockBytes s p offset length)) s
    else emit (.usb p 0x0002 seq .keyPolicy []) s) s)

/-! ### The debug port (R22, R500, R526, R534) -/

/-- Activity while the port is closed fires source 22 (R22, R526). -/
def closedPortActivity (s : State) : State :=
  if s.mode.base == .dormant then s else settleAfterLeave (evaluate [{ source := 22, scope := .all, machine := 0 }] s)

/-- The factory and analysis flows' transitions (R526): the state's next group is burned. -/
def flowTransition (from_ target : Nat) (ok : Bool) (s : State) : State :=
  if s.life.state == from_ && !s.life.debug && ok then burnTo target s else s

/-- What an access does while the port is open; the memory test modes, in the states that reach them, have no effect that
the manual gives. -/
def openPortAccess (a : DebugAccess) (s : State) : Host.Outcome State Fault Refusal :=
  match a with
  | .pinActivity => .next s
  | .injectCorrectable src => .next (correctable src.val s)
  | .injectUncorrectable r => .next (settleAfterLeave (uncorrectable r s))
  | .readRegister off => .next (emit (.debugData off (readReg s 0 off)) s)
  | .memoryTest => if s.life.debug then .next s else .refused .debugAccessUnspecified
  | .toFactoryTest => .next (flowTransition 0 1 true s)
  | .toProvisioned => .next (flowTransition 1 2 (s.backup.chest.valid && s.flash.identity.isSome) s)
  | .toScrapped => .next (flowTransition 4 5 true s)

/-- DEBUG_PORT_ACCESS. -/
def execDebugPortAccess (access : DebugAccess) (s : State) : Host.Outcome State Fault Refusal :=
  if debugOpen s then openPortAccess access s else .next (closedPortActivity s)

end Sys2Proof.Machine
end

