-- ==== Sys2Proof/Machine/Dispatch.lean ====
section
/-! DEFINITION. One arm for each command of the table. -/

namespace Sys2Proof.Machine

/-- The effect of a command on everything but the queue. -/
def exec (i : Instr) (s : State) : Host.Outcome State Fault Refusal :=
  match i with
  | .powerGood => Sys2Proof.Machine.execPowerGood s
  | .strapSample pins => Sys2Proof.Machine.execStrapSample pins s
  | .stewardFwVerified slotAOk slotBOk damagedRecords => Sys2Proof.Machine.execStewardFwVerified slotAOk slotBOk damagedRecords s
  | .draftReadDone readOk => Sys2Proof.Machine.execDraftReadDone readOk s
  | .selfTestDone result => Sys2Proof.Machine.execSelfTestDone result s
  | .recoveryImageVerified source delivery => Sys2Proof.Machine.execRecoveryImageVerified source delivery s
  | .powerFail => Sys2Proof.Machine.execPowerFail s
  | .portAttach p offer => Sys2Proof.Machine.execPortAttach p offer s
  | .contractChange p offer bulkLow => Sys2Proof.Machine.execContractChange p offer bulkLow s
  | .portDetach p linkOnly bulkLow => Sys2Proof.Machine.execPortDetach p linkOnly bulkLow s
  | .contractDrop p volts current bulkLow => Sys2Proof.Machine.execContractDrop p volts current bulkLow s
  | .pathOvercurrent p bulkLow => Sys2Proof.Machine.execPathOvercurrent p bulkLow s
  | .planUpHoldExpiry bulkLow => Sys2Proof.Machine.execPlanUpHoldExpiry bulkLow s
  | .thermalSample tj => Sys2Proof.Machine.execThermalSample tj s
  | .thermalStep bulkLow => Sys2Proof.Machine.execThermalStep bulkLow s
  | .thermalClear bulkLow => Sys2Proof.Machine.execThermalClear bulkLow s
  | .benchGate b => Sys2Proof.Machine.execBenchGate b s
  | .benchStart b => Sys2Proof.Machine.execBenchStart b s
  | .beat => Sys2Proof.Machine.execBeat s
  | .stageWrite p offset value => Sys2Proof.Machine.execStageWrite p offset value s
  | .stageCommit p sum => Sys2Proof.Machine.execStageCommit p sum s
  | .stageDiscard p atApplyingBeat => Sys2Proof.Machine.execStageDiscard p atApplyingBeat s
  | .registerWrite p offset size value => Sys2Proof.Machine.execRegisterWrite p offset size value s
  | .pwrEventsClear p value => Sys2Proof.Machine.execPwrEventsClear p value s
  | .getStatus p request => Sys2Proof.Machine.execGetStatus p request s
  | .readBlock p seq offset length => Sys2Proof.Machine.execReadBlock p seq offset length s
  | .logRead path => Sys2Proof.Machine.execLogRead path s
  | .signedAdmin p seq envelope => Sys2Proof.Machine.execSignedAdmin p seq envelope s
  | .recoveryLoad p seq part => Sys2Proof.Machine.execRecoveryLoad p seq part s
  | .debugChallenge p seq => Sys2Proof.Machine.execDebugChallenge p seq s
  | .debugResponse p seq token => Sys2Proof.Machine.execDebugResponse p seq token s
  | .busMasterDisable p d3hot => Sys2Proof.Machine.execBusMasterDisable p d3hot s
  | .busMasterResume p ats table => Sys2Proof.Machine.execBusMasterResume p ats table s
  | .memorySpaceDisable p => Sys2Proof.Machine.execMemorySpaceDisable p s
  | .pasidEnableChange p enable => Sys2Proof.Machine.execPasidEnableChange p enable s
  | .atsEnableClear p => Sys2Proof.Machine.execAtsEnableClear p s
  | .functionLevelReset p => Sys2Proof.Machine.execFunctionLevelReset p s
  | .atsInvalidation p pasid globalInv first last => Sys2Proof.Machine.execAtsInvalidation p pasid globalInv first last s
  | .doorbellWrite p offset size value => Sys2Proof.Machine.execDoorbellWrite p offset size value s
  | .expressDoorbell p offset size => Sys2Proof.Machine.execExpressDoorbell p offset size s
  | .adminDoorbell p => Sys2Proof.Machine.execAdminDoorbell p s
  | .adminQueueEnable p value => Sys2Proof.Machine.execAdminQueueEnable p value s
  | .adminQueueDisable p => Sys2Proof.Machine.execAdminQueueDisable p s
  | .pollTick p qnum => Sys2Proof.Machine.execPollTick p qnum s
  | .ringReadComplete p qnum result => Sys2Proof.Machine.execRingReadComplete p qnum result s
  | .seedWaitTimeout id => Sys2Proof.Machine.execSeedWaitTimeout id s
  | .engineAsk e askingTrestles => Sys2Proof.Machine.execEngineAsk e askingTrestles s
  | .trestleYieldAsk ask => Sys2Proof.Machine.execTrestleYieldAsk ask s
  | .loomDim n => Sys2Proof.Machine.execLoomDim n s
  | .loomRestore n => Sys2Proof.Machine.execLoomRestore n s
  | .commit e cycles => Sys2Proof.Machine.execCommit e cycles s
  | .completionWrite id outcome => Sys2Proof.Machine.execCompletionWrite id outcome s
  | .coalesceTimeout p qnum => Sys2Proof.Machine.execCoalesceTimeout p qnum s
  | .watchdogExpiry e => Sys2Proof.Machine.execWatchdogExpiry e s
  | .routineError e => Sys2Proof.Machine.execRoutineError e s
  | .verifyMismatch n found => Sys2Proof.Machine.execVerifyMismatch n found s
  | .duplicateRoundMismatch e => Sys2Proof.Machine.execDuplicateRoundMismatch e s
  | .trestleSelfCheckMismatch t => Sys2Proof.Machine.execTrestleSelfCheckMismatch t s
  | .correctableError source => Sys2Proof.Machine.execCorrectableError source s
  | .uncorrectableError x => Sys2Proof.Machine.execUncorrectableError x s
  | .fabricParityError receiver source repeatFails => Sys2Proof.Machine.execFabricParityError receiver source repeatFails s
  | .lockstepMismatch => Sys2Proof.Machine.execLockstepMismatch s
  | .heartbeatTimeout => Sys2Proof.Machine.execHeartbeatTimeout s
  | .ageingMeasure b => Sys2Proof.Machine.execAgeingMeasure b s
  | .ageingMeasureDone b slack tj => Sys2Proof.Machine.execAgeingMeasureDone b slack tj s
  | .createSlice p => Sys2Proof.Machine.execCreateSlice p s
  | .destroySlice p => Sys2Proof.Machine.execDestroySlice p s
  | .createQueue p => Sys2Proof.Machine.execCreateQueue p s
  | .destroyQueue p => Sys2Proof.Machine.execDestroyQueue p s
  | .freezeSlice p => Sys2Proof.Machine.execFreezeSlice p s
  | .freezeDrainDone p => Sys2Proof.Machine.execFreezeDrainDone p s
  | .saveSlice p destination nonce writes => Sys2Proof.Machine.execSaveSlice p destination nonce writes s
  | .restoreSlice p image => Sys2Proof.Machine.execRestoreSlice p image s
  | .thawSlice p => Sys2Proof.Machine.execThawSlice p s
  | .traceEnable p => Sys2Proof.Machine.execTraceEnable p s
  | .traceDisable p => Sys2Proof.Machine.execTraceDisable p s
  | .traceConsumedWrite p value => Sys2Proof.Machine.execTraceConsumedWrite p value s
  | .calRead p => Sys2Proof.Machine.execCalRead p s
  | .identityGet p => Sys2Proof.Machine.execIdentityGet p s
  | .ownerSigned p envelope => Sys2Proof.Machine.execOwnerSigned p envelope s
  | .deviceStage => Sys2Proof.Machine.execDeviceStage s
  | .draftWrite => Sys2Proof.Machine.execDraftWrite s
  | .draftSelect => Sys2Proof.Machine.execDraftSelect s
  | .rethread => Sys2Proof.Machine.execRethread s
  | .rethreadDrainDone => Sys2Proof.Machine.execRethreadDrainDone s
  | .hold => Sys2Proof.Machine.execHold s
  | .holdRelease => Sys2Proof.Machine.execHoldRelease s
  | .calWrite readBackOk => Sys2Proof.Machine.execCalWrite readBackOk s
  | .bobbinRestart => Sys2Proof.Machine.execBobbinRestart s
  | .tamperClear => Sys2Proof.Machine.execTamperClear s
  | .tamperFuse => Sys2Proof.Machine.execTamperFuse s
  | .lcAdvance => Sys2Proof.Machine.execLcAdvance s
  | .lcTransitionDone => Sys2Proof.Machine.execLcTransitionDone s
  | .mlkemKeygen e => Sys2Proof.Machine.execMlkemKeygen e s
  | .mlkemKeygenSeed e input => Sys2Proof.Machine.execMlkemKeygenSeed e input s
  | .mlkemEncaps e => Sys2Proof.Machine.execMlkemEncaps e s
  | .mlkemEncapsEk e input => Sys2Proof.Machine.execMlkemEncapsEk e input s
  | .mlkemDecaps e input => Sys2Proof.Machine.execMlkemDecaps e input s
  | .hybKeygen e => Sys2Proof.Machine.execHybKeygen e s
  | .hybEncaps e input => Sys2Proof.Machine.execHybEncaps e input s
  | .hybDecaps e input => Sys2Proof.Machine.execHybDecaps e input s
  | .mldsaKeygen e => Sys2Proof.Machine.execMldsaKeygen e s
  | .mldsaKeygenSeed e input => Sys2Proof.Machine.execMldsaKeygenSeed e input s
  | .mldsaSign e input => Sys2Proof.Machine.execMldsaSign e input s
  | .mldsaSignPh e input => Sys2Proof.Machine.execMldsaSignPh e input s
  | .mldsaVerify e input => Sys2Proof.Machine.execMldsaVerify e input s
  | .mldsaVerifyPh e input => Sys2Proof.Machine.execMldsaVerifyPh e input s
  | .mldsaVerifyPk e input => Sys2Proof.Machine.execMldsaVerifyPk e input s
  | .mldsaVerifyPkPh e input => Sys2Proof.Machine.execMldsaVerifyPkPh e input s
  | .fndsaKeygen e => Sys2Proof.Machine.execFndsaKeygen e s
  | .fndsaSign e input internalRestarts => Sys2Proof.Machine.execFndsaSign e input internalRestarts s
  | .fndsaVerify e input => Sys2Proof.Machine.execFndsaVerify e input s
  | .fndsaVerifyPk e input => Sys2Proof.Machine.execFndsaVerifyPk e input s
  | .compositeKeygen e => Sys2Proof.Machine.execCompositeKeygen e s
  | .compositeSign e input => Sys2Proof.Machine.execCompositeSign e input s
  | .compositeVerify e input => Sys2Proof.Machine.execCompositeVerify e input s
  | .compositeVerifyPk e input => Sys2Proof.Machine.execCompositeVerifyPk e input s
  | .slhdsaKeygen e => Sys2Proof.Machine.execSlhdsaKeygen e s
  | .slhdsaKeygenSeed e input => Sys2Proof.Machine.execSlhdsaKeygenSeed e input s
  | .slhdsaSign e input => Sys2Proof.Machine.execSlhdsaSign e input s
  | .slhdsaSignPh e input => Sys2Proof.Machine.execSlhdsaSignPh e input s
  | .slhdsaVerify e input => Sys2Proof.Machine.execSlhdsaVerify e input s
  | .slhdsaVerifyPh e input => Sys2Proof.Machine.execSlhdsaVerifyPh e input s
  | .slhdsaVerifyPk e input => Sys2Proof.Machine.execSlhdsaVerifyPk e input s
  | .slhdsaVerifyPkPh e input => Sys2Proof.Machine.execSlhdsaVerifyPkPh e input s
  | .lmsKeygenStart e => Sys2Proof.Machine.execLmsKeygenStart e s
  | .lmsBuild e => Sys2Proof.Machine.execLmsBuild e s
  | .lmsFinish e => Sys2Proof.Machine.execLmsFinish e s
  | .lmsSign e input => Sys2Proof.Machine.execLmsSign e input s
  | .lmsVerify e input => Sys2Proof.Machine.execLmsVerify e input s
  | .lmsVerifyPk e input => Sys2Proof.Machine.execLmsVerifyPk e input s
  | .xmssKeygenStart e => Sys2Proof.Machine.execXmssKeygenStart e s
  | .xmssBuild e => Sys2Proof.Machine.execXmssBuild e s
  | .xmssFinish e => Sys2Proof.Machine.execXmssFinish e s
  | .xmssSign e input => Sys2Proof.Machine.execXmssSign e input s
  | .xmssVerify e input => Sys2Proof.Machine.execXmssVerify e input s
  | .xmssVerifyPk e input => Sys2Proof.Machine.execXmssVerifyPk e input s
  | .tallyQuery e => Sys2Proof.Machine.execTallyQuery e s
  | .tallyRetire e => Sys2Proof.Machine.execTallyRetire e s
  | .tallyWriteDurable record => Sys2Proof.Machine.execTallyWriteDurable record s
  | .mcelieceKeygen e attempts => Sys2Proof.Machine.execMcelieceKeygen e attempts s
  | .mcelieceEncaps e streamed => Sys2Proof.Machine.execMcelieceEncaps e streamed s
  | .mcelieceEncapsPk e streamed => Sys2Proof.Machine.execMcelieceEncapsPk e streamed s
  | .mcelieceRegister e streamed => Sys2Proof.Machine.execMcelieceRegister e streamed s
  | .mcelieceDecaps e input => Sys2Proof.Machine.execMcelieceDecaps e input s
  | .hqcKeygen e => Sys2Proof.Machine.execHqcKeygen e s
  | .hqcEncaps e => Sys2Proof.Machine.execHqcEncaps e s
  | .hqcEncapsEk e input => Sys2Proof.Machine.execHqcEncapsEk e input s
  | .hqcDecaps e input => Sys2Proof.Machine.execHqcDecaps e input s
  | .ecdsaKeygen e => Sys2Proof.Machine.execEcdsaKeygen e s
  | .ecdsaSign e input => Sys2Proof.Machine.execEcdsaSign e input s
  | .ecdsaVerify e input => Sys2Proof.Machine.execEcdsaVerify e input s
  | .ecdsaVerifyPk e input => Sys2Proof.Machine.execEcdsaVerifyPk e input s
  | .ecdhAgree e input => Sys2Proof.Machine.execEcdhAgree e input s
  | .eddsaKeygen e => Sys2Proof.Machine.execEddsaKeygen e s
  | .eddsaSign e input => Sys2Proof.Machine.execEddsaSign e input s
  | .eddsaVerify e input => Sys2Proof.Machine.execEddsaVerify e input s
  | .eddsaVerifyPk e input => Sys2Proof.Machine.execEddsaVerifyPk e input s
  | .xdhKeygen e => Sys2Proof.Machine.execXdhKeygen e s
  | .xdhAgree e input => Sys2Proof.Machine.execXdhAgree e input s
  | .rsaKeygen e candidates => Sys2Proof.Machine.execRsaKeygen e candidates s
  | .rsaSign e input => Sys2Proof.Machine.execRsaSign e input s
  | .rsaVerify e input => Sys2Proof.Machine.execRsaVerify e input s
  | .rsaVerifyPk e input => Sys2Proof.Machine.execRsaVerifyPk e input s
  | .rsaDecrypt e input => Sys2Proof.Machine.execRsaDecrypt e input s
  | .rsaEncryptPk e input => Sys2Proof.Machine.execRsaEncryptPk e input s
  | .rsaPrivateRaw e input => Sys2Proof.Machine.execRsaPrivateRaw e input s
  | .importPublic e input => Sys2Proof.Machine.execImportPublic e input s
  | .importPrivate e input => Sys2Proof.Machine.execImportPrivate e input s
  | .unseal e => Sys2Proof.Machine.execUnseal e s
  | .seal e => Sys2Proof.Machine.execSeal e s
  | .delete e => Sys2Proof.Machine.execDelete e s
  | .keyQuery e => Sys2Proof.Machine.execKeyQuery e s
  | .restrict e => Sys2Proof.Machine.execRestrict e s
  | .derive e input => Sys2Proof.Machine.execDerive e input s
  | .mac e input => Sys2Proof.Machine.execMac e input s
  | .attest e input => Sys2Proof.Machine.execAttest e input s
  | .random e => Sys2Proof.Machine.execRandom e s
  | .digest e input => Sys2Proof.Machine.execDigest e input s
  | .slotAlloc p value => Sys2Proof.Machine.execSlotAlloc p value s
  | .digestDataWrite p d offset bytes => Sys2Proof.Machine.execDigestDataWrite p d offset bytes s
  | .digestFinal p d outLen => Sys2Proof.Machine.execDigestFinal p d outLen s
  | .digestRelease p d => Sys2Proof.Machine.execDigestRelease p d s
  | .digestCoreAsk core => Sys2Proof.Machine.execDigestCoreAsk core s
  | .digestDone d => Sys2Proof.Machine.execDigestDone d s
  | .digestResultRead p d offset => Sys2Proof.Machine.execDigestResultRead p d offset s
  | .slotReclaimed d writeSameCycle => Sys2Proof.Machine.execSlotReclaimed d writeSameCycle s
  | .bobbinStart => Sys2Proof.Machine.execBobbinStart s
  | .bobbinSettled => Sys2Proof.Machine.execBobbinSettled s
  | .bobbinTestsEnd failing knownAnswersOk => Sys2Proof.Machine.execBobbinTestsEnd failing knownAnswersOk s
  | .bobbinSeeded => Sys2Proof.Machine.execBobbinSeeded s
  | .pairExcluded pair fault => Sys2Proof.Machine.execPairExcluded pair fault s
  | .healthFail reason => Sys2Proof.Machine.execHealthFail reason s
  | .bobbinRetry => Sys2Proof.Machine.execBobbinRetry s
  | .reseedRequest inst => Sys2Proof.Machine.execReseedRequest inst s
  | .instanceStall inst => Sys2Proof.Machine.execInstanceStall inst s
  | .reseedApplied inst => Sys2Proof.Machine.execReseedApplied inst s
  | .chestRemask => Sys2Proof.Machine.execChestRemask s
  | .drawerRefresh => Sys2Proof.Machine.execDrawerRefresh s
  | .cardInsert slot => Sys2Proof.Machine.execCardInsert slot s
  | .cardRemove removal => Sys2Proof.Machine.execCardRemove removal s
  | .cardIdentify slot card => Sys2Proof.Machine.execCardIdentify slot card s
  | .cardResponseTimeout slot retry => Sys2Proof.Machine.execCardResponseTimeout slot retry s
  | .cardBusyRelease slot => Sys2Proof.Machine.execCardBusyRelease slot s
  | .busyTimeout slot => Sys2Proof.Machine.execBusyTimeout slot s
  | .switchFallback slot card => Sys2Proof.Machine.execSwitchFallback slot card s
  | .ceremonyShareWrite slot written => Sys2Proof.Machine.execCeremonyShareWrite slot written s
  | .ceremonyTimeout => Sys2Proof.Machine.execCeremonyTimeout s
  | .chestRestore => Sys2Proof.Machine.execChestRestore s
  | .tamperFire x => Sys2Proof.Machine.execTamperFire x s
  | .twiceDecidedSecond pair qualifying => Sys2Proof.Machine.execTwiceDecidedSecond pair qualifying s
  | .tamperRepeat src => Sys2Proof.Machine.execTamperRepeat src s
  | .cellWindow sources => Sys2Proof.Machine.execCellWindow sources s
  | .tamperStimulus src => Sys2Proof.Machine.execTamperStimulus src s
  | .stimulusWindowEnd src responded stillActive => Sys2Proof.Machine.execStimulusWindowEnd src responded stillActive s
  | .eventLog => Sys2Proof.Machine.execEventLog s
  | .logRecordDurable seq => Sys2Proof.Machine.execLogRecordDurable seq s
  | .logRepeatFlush seq => Sys2Proof.Machine.execLogRepeatFlush seq s
  | .secondsCheckpoint => Sys2Proof.Machine.execSecondsCheckpoint s
  | .backupCellLoss => Sys2Proof.Machine.execBackupCellLoss s
  | .linkTrained p gen singleLane => Sys2Proof.Machine.execLinkTrained p gen singleLane s
  | .functionLevelResetEnd p => Sys2Proof.Machine.execFunctionLevelResetEnd p s
  | .cwpLock slot => Sys2Proof.Machine.execCwpLock slot s
  | .debugPortAccess access => Sys2Proof.Machine.execDebugPortAccess access s
  | .sourceGoesInactive src => Sys2Proof.Machine.execSourceGoesInactive src s
  | .pairRetestEnd passed => Sys2Proof.Machine.execPairRetestEnd passed s
  | .sourceCapabilitiesTimeout p typeC => Sys2Proof.Machine.execSourceCapabilitiesTimeout p typeC s

end Sys2Proof.Machine
end

