-- ==== Sys2Proof/Certificates/Slice0/Obligations.lean ====
section
/-! DEFINITION. The statements for the provers, with the vocabulary they are written in. -/

namespace Sys2Proof.Claims

open Sys2Proof.Machine

/-! ### Vocabulary of the statements about operations -/

/-- Item `i` runs on engine `e`, its opcode is `fam`/`op`, it has formed no result, and `input` has the declared
length. -/
def Runs (s : State) (e : Engine) (fam op : Nat) (input : Bytes) (i : Item) : Prop :=
  servingOn s e = some i ∧ famOf i.entry = fam ∧ opOf i.entry = op ∧ i.result = none ∧ input.length = inputLen i.entry

/-- The bobbin serves draws; an item in service never waits for one (R380). -/
def Draws (s : State) : Prop := s.bobbin.state = .serving

/-- `s` with the result of item `i` formed from this input, and nothing else changed. -/
def formed (i : Item) (r : ItemResult) (input : Bytes) (s : State) : State :=
  let put (x : Item) : Item := if x.id == i.id then { x with result := some r, input := some input } else x
  { s with heddle := { s.heddle with items := s.heddle.items.map put } }

/-- `s` after item `i` has drawn `n` bytes: its instance or its unit's buffer has given them, the item is marked, and nothing
else changes. -/
def drawn (i : Item) (n : Nat) (s : State) : State :=
  let b := (unitDraw i n s).2.bobbin
  let mark (y : Item) : Item := if y.id == i.id then { y with drew := true } else y
  { s with
    heddle := { s.heddle with items := s.heddle.items.map mark }
    bobbin := { s.bobbin with instances := b.instances, buffers := b.buffers } }

/-- The bytes that the draw gives. -/
def drawBytes (i : Item) (n : Nat) (s : State) : Bytes := (unitDraw i n s).1

/-- `t` is `s` but for what the unit that runs item `i` holds of the job: its trestle's contexts, accumulator and sequencer, or
its selvedge unit's work store with the mask generator's state. -/
def Loaded (i : Item) (s t : State) : Prop :=
  t = { s with trestles := t.trestles, selvs := t.selvs } ∧
    (∀ k : TrestleId, t.trestles[k.val] = { s.trestles[k.val] with ctxA := t.trestles[k.val].ctxA, ctxB := t.trestles[k.val].ctxB, accumulator := t.trestles[k.val].accumulator, sequencer := t.trestles[k.val].sequencer } ∧
      (trestleOf i ≠ some k → t.trestles[k.val] = s.trestles[k.val])) ∧
    (∀ u : SelvId, t.selvs[u.val] = { s.selvs[u.val] with maskPos := t.selvs[u.val].maskPos, work := t.selvs[u.val].work } ∧
      (i.engine ≠ some (.selvedge u) → t.selvs[u.val] = s.selvs[u.val]))

/-- The command completes with a result for which `P` holds; beside what the running unit holds of the job it changes
nothing else. -/
def Forms (c : Instr) (s : State) (i : Item) (P : ItemResult → Prop) : Prop :=
  ∃ r t input, exec c s = .next (formed i r input t) ∧ input.length = inputLen i.entry ∧ Loaded i s t ∧ P r

/-- As `Forms`, with `n` bytes drawn first. -/
def FormsDrawn (c : Instr) (s : State) (i : Item) (n : Nat) (P : Bytes → ItemResult → Prop) : Prop :=
  ∃ r t input, exec c s = .next (formed i r input t) ∧ input.length = inputLen i.entry ∧ Loaded i (drawn i n s) t ∧ P (drawBytes i n s) r

/-- As `FormsDrawn`, where the command may draw again: only the bobbin's instances and buffers and the named units' counts differ
besides. -/
def FormsDrawnMore (c : Instr) (s : State) (i : Item) (P : ItemResult → Prop) : Prop :=
  ∃ r t input, exec c s = .next (formed i r input t) ∧ input.length = inputLen i.entry ∧ P r ∧
    t = { s with heddle := (drawn i 0 s).heddle, bobbin := t.bobbin, selvs := t.selvs, trestles := t.trestles } ∧
    t.bobbin = { s.bobbin with instances := t.bobbin.instances, buffers := t.bobbin.buffers }

/-- A new key of the item's set: OK, the output of this length, the handle in RESULT, and the content kept for COMMIT
(R249). -/
def NewKey (s : State) (i : Item) (kind fam origin : Nat) (oneShot : Bool) (outLen contentLen : Nat) (r : ItemResult) : Prop :=
  r.status = .ok ∧ r.output.length = outLen ∧ r.word = reservedHandle s i ∧
    ∃ content, content.length = contentLen ∧
      CommitAct.run kind fam (setOf i.entry) (newPolicy (policyOperand i.entry) kind fam origin oneShot) content 0 false ∈ r.acts

/-- `pub` and `secret` both written, or with DEPOSIT `pub` written and the secret kept for COMMIT (R245, R249). -/
def SharedAs (s : State) (i : Item) (pub secret : Bytes) (r : ItemResult) : Prop :=
  r.status = .ok ∧
    (if depositFlag i.entry = true then
      r.output = pub ∧ r.word = reservedHandle s i ∧
        CommitAct.run 5 (famOf i.entry) (setOf i.entry) (newPolicy (policyOperand i.entry) 5 (famOf i.entry) 3 false) secret 0 false ∈ r.acts
    else r.output = pub ++ secret ∧ r.word = 0)

/-- A public part and a secret of these lengths. -/
def Shared (s : State) (i : Item) (pubLen secretLen : Nat) (r : ItemResult) : Prop :=
  ∃ pub secret, pub.length = pubLen ∧ secret.length = secretLen ∧ SharedAs s i pub secret r

/-- An output of this length and no key. -/
def Writes (n : Nat) (r : ItemResult) : Prop := r.status = .ok ∧ r.output.length = n ∧ r.word = 0

/-- A rejection: no output and no key; at most the loom's cache changes at COMMIT. -/
def Rejects (st : Status) (r : ItemResult) : Prop :=
  r.status = st ∧ r.output = [] ∧ r.word = 0 ∧ ∀ a ∈ r.acts, ∃ c, a = .loomInstall c ∨ a = .loomTouch c

/-- A status and no output. -/
def Ends (st : Status) (r : ItemResult) : Prop := r.status = st ∧ r.output = []

/-- A verification whose key is judged first: the judgement's status, or the verdict. -/
def Judged (bad : Option Status) (holds : Bool) (r : ItemResult) : Prop :=
  match bad with
  | some st => Ends st r
  | none => r.output = [] ∧ r.status = (if holds = true then .ok else .reject)

/-- The verdict of a verification. -/
def Verdict (holds : Bool) (r : ItemResult) : Prop :=
  r.output = [] ∧ r.status = (if holds = true then .ok else .reject)

end Sys2Proof.Claims

namespace Sys2Proof.Claims

open Sys2Proof.Machine

/-! ### Vocabulary of the statements about the other commands -/

/-- A write to the port's BARs reaches its register (R116, R117, R493). -/
def WriteReaches (s : State) (p : PortId) : Prop := barOpen s p = true ∧ portFenced s p = false

/-- The port's admin entry carries command `code`, waits for nothing, and nothing keeps it from acting (R122, R134,
R161, R72). -/
def AdminRuns (s : State) (p : PortId) (code : Nat) (e : AdminEntry) : Prop :=
  adminHeld s p code = some e ∧ s.mode.base ≠ .dormant ∧
    ((s.mode.base = .zeroized ∨ s.mode.base = .analysis) → code = 0x0B ∨ code = 0x0C) ∧
    (needsSteward code = true → s.mode.stewardLost = false) ∧
    (hasInput e.entry = true → e.inputOk = true) ∧ (hasOutput e.entry = true → e.outputOk = true) ∧
    portMoves s p = true ∧
    (adminRandom code = true → bobbinFailed s = false ∧ stewardDraws s = true)

/-- In `t` the port's admin entry has ended with this status and RESULT, and its completion waits to be written. -/
def AdminEnds (t : State) (p : PortId) (st : Status) (result : Nat) : Prop :=
  ∃ e d, t.ports[p.val].admin.entry = some e ∧ e.done = some d ∧ d.status = st ∧ d.result = result

/-- An accepted owner-signed command with these operands is in hand and has not begun (R121). -/
def OwnerRuns (s : State) (op : OwnerOperand) : Prop := ownerReady s = some op

/-- The answer of an owner-signed command: over USB 2.0 a response at the end of `out`, over an admin queue its entry's
completion with the accepted sequence number as RESULT (R121, R161). -/
def OwnerEnds (s t : State) (st : Status) : Prop :=
  t.owner = none ∧
    ∀ o, s.owner = some o →
      match o.origin with
      | .usb p seq => t.out.getLast? = some (.usb p 0x0010 seq st [])
      | .admin p => ∀ e, s.ports[p.val].admin.entry = some e → e.wait = .owner → AdminEnds t p st o.seq.toNat

/-- Nothing but the admin queue of a port, the owner's command and what the module sends differs. -/
def SameButAnswer (s t : State) : Prop :=
  t = { s with ports := t.ports, owner := t.owner, out := t.out } ∧
    ∀ q : PortId, t.ports[q.val] = { s.ports[q.val] with admin := t.ports[q.val].admin }

end Sys2Proof.Claims

namespace Sys2Proof.Claims

open Sys2Proof.Machine

/-! ### Vocabulary of the statements about items and units -/

/-- Item numbers name one item each and are below the next number (kept by every step: `item_numbers_kept`). -/
def IdsApart (s : State) : Prop :=
  (s.heddle.items.map fun i => i.id).Nodup ∧ ∀ i ∈ s.heddle.items, i.id < s.heddle.nextId

/-- In `t` item `id` has ended with this status, and its completion waits to be written. -/
def Ended (t : State) (id : Nat) (st : Status) : Prop :=
  ∃ j ∈ t.heddle.items, j.id = id ∧ j.place = .done ∧ ∃ d, j.done = some d ∧ d.status = st ∧ d.output = []

/-- In `t` item `id` is in service on engine `e`. -/
def InServiceOn (t : State) (id : Nat) (e : Engine) : Prop :=
  ∃ j ∈ t.heddle.items, j.id = id ∧ j.place = .inService ∧ j.engine = some e

/-- On loom `n` the item that runs stands at COMMIT with result `r` after `k` cycles: its words have reached it (R230, R235),
or, where no dispatch entry of the bench names its routine, its operation's command has formed it. -/
def AtCommit (s : State) (n : LoomId) (cycles : Nat) (i : Item) (r : ItemResult) (k : Nat) : Prop :=
  servingOn s (.loom n) = some i ∧
    ((sequenced n i s = true ∧ s.looms[n.val].core.atCommit = true ∧ committed n i s = some r ∧ k = s.looms[n.val].core.cycles) ∨
      (sequenced n i s = false ∧ i.result = some r ∧ k = cycles))

/-- COMMIT of item `i` with result `r` and `k` cycles takes effect on `e`: on a loom within WATCHDOG (R237), with a buffer for
its output (R210), and with VERIFY_OK where the routine checks itself (R218, R235); on a selvedge unit and a trestle, and
for a loom's trestle, with the check of its own passed (R281, R329, R353); a one-shot digest with every block taken
(R357). -/
def Commits (s : State) (e : Engine) (cycles : Nat) (i : Item) (r : ItemResult) (k : Nat) : Prop :=
  servingOn s e = some i ∧ ((∀ n, e ≠ .loom n) → i.result = some r ∧ k = cycles) ∧
    (∀ n, e = .loom n → AtCommit s n cycles i r k ∧ pastWatchdog s n i k = false ∧ (bufferHeld s n = false ∨ r.output = []) ∧
      (selfChecked (famOf i.entry) (opOf i.entry) = true → r.verifyOk = true)) ∧
    ((∃ tr, e = .trestle tr ∨ i.trestle = some tr) → r.trestleOk = true) ∧
    ((∃ u, e = .selvedge u) → r.verifyOk = true) ∧
    ((∃ k, e = .digest k) → digestDue i = false)

/-- The unit that a source number of FLT_ERR names has reported an error. -/
def Reported (t : State) (src : Nat) : Prop := t.faults.sticky.getLsbD src = true ∧ t.faults.firstValid = true

end Sys2Proof.Claims

namespace Sys2Proof.Claims

open Sys2Proof.Machine

/-! ### Families of commands, for frames -/

/-- The commands of the work-item operations: every one forms the result of the item in service on its engine. -/
def isOperation : Instr → Bool
  | .mlkemKeygen _ | .mlkemKeygenSeed _ _ | .mlkemEncaps _ | .mlkemEncapsEk _ _ | .mlkemDecaps _ _ => true
  | .hybKeygen _ | .hybEncaps _ _ | .hybDecaps _ _ => true
  | .mldsaKeygen _ | .mldsaKeygenSeed _ _ | .mldsaSign _ _ | .mldsaSignPh _ _ => true
  | .mldsaVerify _ _ | .mldsaVerifyPh _ _ | .mldsaVerifyPk _ _ | .mldsaVerifyPkPh _ _ => true
  | .fndsaKeygen _ | .fndsaSign _ _ _ | .fndsaVerify _ _ | .fndsaVerifyPk _ _ => true
  | .compositeKeygen _ | .compositeSign _ _ | .compositeVerify _ _ | .compositeVerifyPk _ _ => true
  | .slhdsaKeygen _ | .slhdsaKeygenSeed _ _ | .slhdsaSign _ _ | .slhdsaSignPh _ _ => true
  | .slhdsaVerify _ _ | .slhdsaVerifyPh _ _ | .slhdsaVerifyPk _ _ | .slhdsaVerifyPkPh _ _ => true
  | .lmsKeygenStart _ | .lmsBuild _ | .lmsFinish _ | .lmsSign _ _ | .lmsVerify _ _ | .lmsVerifyPk _ _ => true
  | .xmssKeygenStart _ | .xmssBuild _ | .xmssFinish _ | .xmssSign _ _ | .xmssVerify _ _ | .xmssVerifyPk _ _ => true
  | .tallyQuery _ | .tallyRetire _ => true
  | .mcelieceKeygen _ _ | .mcelieceEncaps _ _ | .mcelieceEncapsPk _ _ | .mcelieceRegister _ _ | .mcelieceDecaps _ _ => true
  | .hqcKeygen _ | .hqcEncaps _ | .hqcEncapsEk _ _ | .hqcDecaps _ _ => true
  | .ecdsaKeygen _ | .ecdsaSign _ _ | .ecdsaVerify _ _ | .ecdsaVerifyPk _ _ | .ecdhAgree _ _ => true
  | .eddsaKeygen _ | .eddsaSign _ _ | .eddsaVerify _ _ | .eddsaVerifyPk _ _ | .xdhKeygen _ | .xdhAgree _ _ => true
  | .rsaKeygen _ _ | .rsaSign _ _ | .rsaVerify _ _ | .rsaVerifyPk _ _ | .rsaDecrypt _ _ | .rsaEncryptPk _ _ | .rsaPrivateRaw _ _ => true
  | .importPublic _ _ | .importPrivate _ _ | .unseal _ | .seal _ | .delete _ | .keyQuery _ | .restrict _ => true
  | .derive _ _ | .mac _ _ | .attest _ _ | .random _ | .digest _ _ => true
  | _ => false

/-- Only what an event on its way to the logbook touches differs: the steward's queue, the backup latch, the lost counts. -/
def ButEvents (s t : State) : Prop :=
  t = { s with
    log := { s.log with queue := t.log.queue }
    backup := { s.backup with latch := t.backup.latch, lost := t.backup.lost }
    flash := { s.flash with lost := t.flash.lost } }

/-- The commands of a custody-card slot. -/
def isCardCommand : Instr → Bool
  | .cardInsert _ | .cardRemove _ | .cardIdentify _ _ | .cardResponseTimeout _ _ | .cardBusyRelease _ => true
  | .busyTimeout _ | .switchFallback _ _ | .cwpLock _ => true
  | _ => false

/-- The commands of the digest slots. -/
def isSlotCommand : Instr → Bool
  | .slotAlloc _ _ | .digestDataWrite _ _ _ _ | .digestFinal _ _ _ | .digestRelease _ _ => true
  | .digestDone _ | .digestResultRead _ _ _ | .slotReclaimed _ _ => true
  | _ => false

/-- The bobbin's commands that no other unit answers to. -/
def isBobbinCommand : Instr → Bool
  | .bobbinStart | .bobbinSettled | .bobbinRetry | .pairExcluded _ _ | .reseedRequest _ | .instanceStall _ => true
  | _ => false

/-- Reads over USB 2.0. -/
def isUsbRead : Instr → Bool
  | .getStatus _ _ | .readBlock _ _ _ _ | .logRead (.usb _ _ _ _ _) => true
  | _ => false

/-- The life-cycle counter and its registers stand as R524 has them: no bit of group 5 is burned, the state and the target
of a running transition are codes of the table. -/
def CounterLegal (s : State) : Prop :=
  s.fuses.otp >>> 20 = 0 ∧ s.life.state ≤ 5 ∧ ∀ t, s.life.transition = some t → t.target ≤ 5

end Sys2Proof.Claims

section

open Sys2Proof Sys2Proof.Machine Sys2Proof.Claims

/-- MLKEM_KEYGEN draws 64 bytes from the bench instance and MLKEM_KEYGEN_SEED, which has them in its input, draws nothing; each completes with ek as output (800, 1,184 or 1,568 bytes), the handle in RESULT, and a dk of 1,632, 2,400 or 3,168 bytes kept for COMMIT, with ORIGIN 0 or 1: the decryption key, ek, H(ek) and z, the last 32 bytes of the seed. Nothing else changes. MLKEM_ENCAPS draws its message m of 32 bytes and gives c (768, 1,088 or 1,568 bytes) and K, the first 32 bytes of G(m, H(ek)), unless a sealed record's dk fails its hash check; MLKEM_ENCAPS_EK does the same for an ek that passes the modulus check and gives REJECT_ENCODING for one that fails it. With DEPOSIT only c is written and K is kept for COMMIT. MLKEM_DECAPS with a key in drawers completes with OK and a K of 32 bytes for every c of the declared length: that of the message c decrypts to where it re-encrypts to c, else J(z, c), which no part of the key but z enters; with a sealed record it gives REJECT_ENCODING only where the record's dk fails its hash check. Nothing is drawn. (R243, R245, R250, R252, R253) -/
def Obligations.kem_completes : Prop :=
  (∀ (s : State) (e : Engine) (i : Item) (input : Bytes), 1 ≤ setOf i.entry → setOf i.entry ≤ 3 →
    (Runs s e 0x01 0x10 [] i → Draws s →
      FormsDrawn (.mlkemKeygen e) s i 64 fun d r =>
        NewKey s i 1 0x01 0 (oneShotOperand i.entry) ([0, 800, 1184, 1568].getD (setOf i.entry) 0) ([0, 1632, 2400, 3168].getD (setOf i.entry) 0) r ∧
          ∃ pke, CommitAct.run 1 0x01 (setOf i.entry) (newPolicy (policyOperand i.entry) 1 0x01 0 (oneShotOperand i.entry))
            (pke ++ r.output ++ sha3_256 r.output ++ d.drop 32) 0 false ∈ r.acts) ∧
    (Runs s e 0x01 0x14 input i → input.length = 64 →
      Forms (.mlkemKeygenSeed e input) s i fun r =>
        NewKey s i 1 0x01 1 (oneShotOperand i.entry) ([0, 800, 1184, 1568].getD (setOf i.entry) 0) ([0, 1632, 2400, 3168].getD (setOf i.entry) 0) r ∧
          ∃ pke, CommitAct.run 1 0x01 (setOf i.entry) (newPolicy (policyOperand i.entry) 1 0x01 1 (oneShotOperand i.entry))
            (pke ++ r.output ++ sha3_256 r.output ++ input.drop 32) 0 false ∈ r.acts)) ∧
  (∀ (s : State) (e : Engine) (i : Item) (input : Bytes), 1 ≤ setOf i.entry → setOf i.entry ≤ 3 → Draws s →
    (Runs s e 0x01 0x11 [] i →
      FormsDrawn (.mlkemEncaps e) s i 32 fun m r =>
        if sealedDkBad (setOf i.entry) s i (keyContent s i) = true then Rejects .rejectEncoding r
        else ∃ c, c.length = [0, 768, 1088, 1568].getD (setOf i.entry) 0 ∧ SharedAs s i c ((sha3_512 (m ++ sha3_256 (namedEk s i))).take 32) r) ∧
    (Runs s e 0x01 0x13 input i →
      FormsDrawn (.mlkemEncapsEk e input) s i 32 fun m r =>
        if ekBad (setOf i.entry) input = true then Rejects .rejectEncoding r
        else ∃ c, c.length = [0, 768, 1088, 1568].getD (setOf i.entry) 0 ∧ SharedAs s i c ((sha3_512 (m ++ sha3_256 input)).take 32) r)) ∧
  (∀ (s : State) (e : Engine) (i : Item) (input : Bytes), Runs s e 0x01 0x12 input i →
    Forms (.mlkemDecaps e input) s i fun r =>
      if sealedDkBad (setOf i.entry) s i (keyContent s i) = true then Rejects .rejectEncoding r
      else ∃ m x, x = kemEncapsTo (setOf i.entry) (ekOf (setOf i.entry) (keyContent s i)) m ∧ m.length = 32 ∧
        SharedAs s i [] (if x.1 = input then x.2 else shake256 ((keyContent s i).drop (kemDk (setOf i.entry) - 32) ++ input) 32) r ∧
        (i.record = none → r.status = .ok) ∧ Shared s i 0 32 r)

/-- HYB_KEYGEN gives the client share and keeps dk and the scalar; HYB_ENCAPS and HYB_DECAPS give the server share and the combined secret, or the secret alone, of the sizes of the set, unless one part rejects: the ML-KEM part's REJECT_ENCODING first, then the classical part's status of R258, and nothing is written. (R256, R258) -/
def Obligations.hybrid_completes : Prop :=
  ∀ (s : State) (e : Engine) (i : Item) (input : Bytes), 1 ≤ setOf i.entry → setOf i.entry ≤ 3 →
    (Runs s e 0x20 0x18 [] i → Draws s →
      FormsDrawn (.hybKeygen e) s i (64 + [0, 32, 48, 56].getD (setOf i.entry) 0) fun _ r =>
        NewKey s i 1 0x20 0 (oneShotOperand i.entry) ([0, 1216, 1665, 1624].getD (setOf i.entry) 0) ([0, 2432, 3216, 3224].getD (setOf i.entry) 0) r ∧
          (setOf i.entry = 2 → r.output.head? = some 4)) ∧
    (Runs s e 0x20 0x19 input i → Draws s →
      FormsDrawn (.hybEncaps e input) s i (32 + [0, 32, 48, 56].getD (setOf i.entry) 0) fun d r =>
        if ekBad (hybKem (setOf i.entry)) (hybSplit (setOf i.entry) (kemEk (hybKem (setOf i.entry))) input).1 = true then Rejects .rejectEncoding r
        else match hybClassicalBad (setOf i.entry) (hybScalarFrom (setOf i.entry) (d.drop 32)) (hybSplit (setOf i.entry) (kemEk (hybKem (setOf i.entry))) input).2 with
          | some st => Rejects st r
          | none => Shared s i ([0, 1120, 1665, 1624].getD (setOf i.entry) 0) ([0, 64, 80, 88].getD (setOf i.entry) 0) r) ∧
    (Runs s e 0x20 0x1A input i →
      Forms (.hybDecaps e input) s i fun r =>
        if sealedDkBad (hybKem (setOf i.entry)) s i ((keyContent s i).take (kemDk (hybKem (setOf i.entry)))) = true then Rejects .rejectEncoding r
        else match hybClassicalBad (setOf i.entry) ((keyContent s i).drop (kemDk (hybKem (setOf i.entry)))) (hybSplit (setOf i.entry) (kemCt (hybKem (setOf i.entry))) input).2 with
          | some st => Rejects st r
          | none => Shared s i 0 ([0, 64, 80, 88].getD (setOf i.entry) 0) r)

/-- MLDSA_KEYGEN draws 32 bytes and MLDSA_KEYGEN_SEED, which has them in its input, draws nothing: the output is pk, and sk with pk is kept. MLDSA_SIGN and MLDSA_SIGN_PH write a signature of the set's length; under DETERMINISTIC they draw nothing, otherwise 32 bytes. A key in drawers never gives a rejection. The four ML-DSA verify operations draw nothing, write no output, and complete with OK or REJECT by the verdict on the key, ctx and the message or its hash, and the last SIG_LEN bytes as signature; for a key in drawers and for a key in the input no other status occurs. (R264, R266, R267, R268, R272, R273) -/
def Obligations.mldsa_completes : Prop :=
  (∀ (s : State) (e : Engine) (i : Item) (input : Bytes), 1 ≤ setOf i.entry → setOf i.entry ≤ 3 →
    (Runs s e 0x02 0x20 [] i → Draws s →
      FormsDrawn (.mldsaKeygen e) s i 32 fun _ r =>
        NewKey s i 1 0x02 0 false ([0, 1312, 1952, 2592].getD (setOf i.entry) 0) ([0, 3872, 5984, 7488].getD (setOf i.entry) 0) r) ∧
    (Runs s e 0x02 0x21 input i →
      Forms (.mldsaKeygenSeed e input) s i fun r =>
        NewKey s i 1 0x02 1 false ([0, 1312, 1952, 2592].getD (setOf i.entry) 0) ([0, 3872, 5984, 7488].getD (setOf i.entry) 0) r) ∧
    (∀ c op, (c = Instr.mldsaSign e input ∧ op = 0x22) ∨ (c = Instr.mldsaSignPh e input ∧ op = 0x23) → Runs s e 0x02 op input i →
      (deterministic i.entry = true →
        Forms c s i fun r => if sealedDsaBad (setOf i.entry) s i = true then Rejects .rejectEncoding r
          else Writes ([0, 2420, 3309, 4627].getD (setOf i.entry) 0) r) ∧
      (deterministic i.entry = false → Draws s →
        FormsDrawn c s i 32 fun _ r => if sealedDsaBad (setOf i.entry) s i = true then Rejects .rejectEncoding r
          else Writes ([0, 2420, 3309, 4627].getD (setOf i.entry) 0) r)) ∧
    (i.record = none → sealedDsaBad (setOf i.entry) s i = false)) ∧
  (∀ (s : State) (e : Engine) (i : Item) (input : Bytes),
    (∀ c op variant, (c = Instr.mldsaVerify e input ∧ op = 0x24 ∧ variant = 0) ∨ (c = Instr.mldsaVerifyPh e input ∧ op = 0x25 ∧ variant = phAlgOf i.entry) →
      Runs s e 0x02 op input i →
      Forms c s i fun r =>
        if sealedDsaBad (setOf i.entry) s i = true then Ends .rejectEncoding r
        else Verdict (dsaHolds (setOf i.entry) variant (ctxLenOf i.entry) (namedPk s i (dsaSk (setOf i.entry)))
          (input.take (input.length - sigLenOf i.entry)) (input.drop (input.length - sigLenOf i.entry))) r) ∧
    (∀ c op variant, (c = Instr.mldsaVerifyPk e input ∧ op = 0x26 ∧ variant = 0) ∨ (c = Instr.mldsaVerifyPkPh e input ∧ op = 0x27 ∧ variant = phAlgOf i.entry) →
      i.record = none → Runs s e 0x02 op input i →
      Forms c s i fun r =>
        Verdict (dsaHolds (setOf i.entry) variant (ctxLenOf i.entry) (input.take (dsaPk (setOf i.entry)))
          ((input.drop (dsaPk (setOf i.entry))).take (input.length - dsaPk (setOf i.entry) - sigLenOf i.entry))
          ((input.drop (dsaPk (setOf i.entry))).drop (input.length - dsaPk (setOf i.entry) - sigLenOf i.entry))) r) ∧
    (∀ set ctxLen alg pk m sig, dsaHolds set alg ctxLen pk m sig = Config.holds (.verifies 0x02 set 0) [pk, shake256 (shake256 pk 64 ++
      (if alg = 0 then [0x00, BitVec.ofNat 8 ctxLen] ++ m else [0x01, BitVec.ofNat 8 ctxLen] ++ m.take ctxLen ++ phOid alg ++ m.drop ctxLen)) 64, sig]))

/-- FNDSA_KEYGEN gives pk, its header byte first, and keeps sk with pk; FNDSA_SIGN, however many internal restarts it has, writes a signature of 42 bytes up to the set's maximum, its header byte first; the verify operations give OK or REJECT by the signature's header, the key, the message and the rest of the signature, and REJECT_ENCODING for a malformed public key that the input or a sealed record brings. (R264, R272, R273, R277) -/
def Obligations.fndsa_completes : Prop :=
  ∀ (s : State) (e : Engine) (i : Item) (input : Bytes) (restarts : Nat), 1 ≤ setOf i.entry → setOf i.entry ≤ 2 →
    (Runs s e 0x03 0x28 [] i → Draws s →
      ∃ n, FormsDrawn (.fndsaKeygen e) s i n fun _ r =>
        NewKey s i 1 0x03 0 false ([0, 897, 1793].getD (setOf i.entry) 0) ([0, 2178, 4098].getD (setOf i.entry) 0) r ∧
          r.output.head? = some ([0, 0x09, 0x0A].getD (setOf i.entry) 0)) ∧
    (Runs s e 0x03 0x29 input i → Draws s →
      FormsDrawnMore (.fndsaSign e input restarts) s i fun r =>
        if sealedFnBad (setOf i.entry) i ((keyContent s i).drop (fnSk (setOf i.entry))) = true then Rejects .rejectEncoding r
        else r.status = .ok ∧ 42 ≤ r.output.length ∧ r.output.length ≤ [0, 666, 1280].getD (setOf i.entry) 0 ∧ r.output.head? = some ([0, 0x39, 0x3A].getD (setOf i.entry) 0)) ∧
    (Runs s e 0x03 0x2A input i →
      Forms (.fndsaVerify e input) s i fun r =>
        if sealedFnBad (setOf i.entry) i (namedPk s i (fnSk (setOf i.entry))) = true then Ends .rejectEncoding r
        else Verdict (fnHolds (setOf i.entry) (namedPk s i (fnSk (setOf i.entry))) (input.take (input.length - sigLenOf i.entry)) (input.drop (input.length - sigLenOf i.entry))) r) ∧
    (Runs s e 0x03 0x2B input i →
      Forms (.fndsaVerifyPk e input) s i fun r =>
        if fnPkBad (setOf i.entry) (input.take (fnPk (setOf i.entry))) = true then Ends .rejectEncoding r
        else Verdict (fnHolds (setOf i.entry) (input.take (fnPk (setOf i.entry)))
          ((input.drop (fnPk (setOf i.entry))).take (input.length - fnPk (setOf i.entry) - sigLenOf i.entry))
          ((input.drop (fnPk (setOf i.entry))).drop (input.length - fnPk (setOf i.entry) - sigLenOf i.entry))) r) ∧
    (∀ pk msg sig, fnHolds (setOf i.entry) pk msg sig = true → sig.head? = some ([0, 0x39, 0x3A].getD (setOf i.entry) 0))

/-- COMPOSITE_KEYGEN gives both public keys, the classical one of sets 1 and 2 in SEC 1 uncompressed form, and keeps both halves; COMPOSITE_SIGN, which draws rnd and the nonce of an ECDSA half, writes both signatures; the verify operations give OK where both halves hold over M_r and REJECT otherwise. A sealed key and a key in the input are judged first, with the status of R282. (R279, R280, R281, R282) -/
def Obligations.composite_completes : Prop :=
  ∀ (s : State) (e : Engine) (i : Item) (input : Bytes), 1 ≤ setOf i.entry → setOf i.entry ≤ 3 →
    (Runs s e 0x21 0x2C [] i → Draws s →
      FormsDrawn (.compositeKeygen e) s i (32 + [0, 32, 48, 57].getD (setOf i.entry) 0) fun _ r =>
        NewKey s i 1 0x21 0 false ([0, 2017, 2689, 2649].getD (setOf i.entry) 0) ([0, 6081, 7633, 7602].getD (setOf i.entry) 0) r ∧
          (setOf i.entry ≠ 3 → (r.output.drop (dsaPk (compDsa (setOf i.entry)))).head? = some 4)) ∧
    (Runs s e 0x21 0x2D input i → Draws s →
      FormsDrawn (.compositeSign e input) s i ([0, 64, 80, 32].getD (setOf i.entry) 0) fun _ r =>
        match compSealedBad s i with
        | some st => Rejects st r
        | none => Writes ([0, 3373, 4723, 4741].getD (setOf i.entry) 0) r) ∧
    (∀ verify pk msgSig m sig bad, (verify = Instr.compositeVerify e input ∧ Runs s e 0x21 0x2E input i ∧ pk = namedCompPk s i ∧ msgSig = input ∧ bad = compSealedBad s i) ∨
        (verify = .compositeVerifyPk e input ∧ Runs s e 0x21 0x2F input i ∧ pk = input.take (compPk (setOf i.entry)) ∧ msgSig = input.drop (compPk (setOf i.entry)) ∧
          bad = compKeyBad (setOf i.entry) (pk.drop (dsaPk (compDsa (setOf i.entry))))) →
      m = compMessage (setOf i.entry) (ctxLenOf i.entry) (msgSig.take (msgSig.length - sigLenOf i.entry)) → sig = msgSig.drop (msgSig.length - sigLenOf i.entry) →
      Forms verify s i (Judged bad (dsaHolds (compDsa (setOf i.entry)) 0 0 (pk.take (dsaPk (compDsa (setOf i.entry)))) m (sig.take (dsaSig (compDsa (setOf i.entry))))
        && compClsHolds (setOf i.entry) (pk.drop (dsaPk (compDsa (setOf i.entry)))) (compClsMessage (setOf i.entry) m) (sig.drop (dsaSig (compDsa (setOf i.entry)))))))

/-- SLHDSA_KEYGEN draws 3n bytes and SLHDSA_KEYGEN_SEED, which has them in its input, draws nothing: the output is pk of 2n bytes and sk of 4n bytes is kept. SLHDSA_SIGN and SLHDSA_SIGN_PH write a signature of the set's length and have no other outcome; under DETERMINISTIC they draw nothing, otherwise n bytes. The four SLH-DSA verify operations draw nothing, write no output, and complete with OK or REJECT by the verdict on the public key, ctx and the message or its hash, and the last SIG_LEN bytes as signature; no other status occurs. (R288, R289, R290, R291) -/
def Obligations.slhdsa_completes : Prop :=
  (∀ (s : State) (e : Engine) (i : Item) (input : Bytes), 1 ≤ setOf i.entry % 16 → setOf i.entry % 16 ≤ 6 →
    (Runs s e 0x04 0x30 [] i → Draws s →
      FormsDrawn (.slhdsaKeygen e) s i (3 * ([0, 16, 16, 24, 24, 32, 32].getD (setOf i.entry % 16) 0)) fun _ r => NewKey s i 1 0x04 0 false (2 * ([0, 16, 16, 24, 24, 32, 32].getD (setOf i.entry % 16) 0)) (4 * ([0, 16, 16, 24, 24, 32, 32].getD (setOf i.entry % 16) 0)) r) ∧
    (Runs s e 0x04 0x31 input i → input.length = 3 * ([0, 16, 16, 24, 24, 32, 32].getD (setOf i.entry % 16) 0) →
      Forms (.slhdsaKeygenSeed e input) s i fun r => NewKey s i 1 0x04 1 false (2 * ([0, 16, 16, 24, 24, 32, 32].getD (setOf i.entry % 16) 0)) (4 * ([0, 16, 16, 24, 24, 32, 32].getD (setOf i.entry % 16) 0)) r) ∧
    (∀ c op, (c = Instr.slhdsaSign e input ∧ op = 0x32) ∨ (c = Instr.slhdsaSignPh e input ∧ op = 0x33) → Runs s e 0x04 op input i →
      (deterministic i.entry = true → Forms c s i fun r => Writes ([0, 7856, 17088, 16224, 35664, 29792, 49856].getD (setOf i.entry % 16) 0) r) ∧
      (deterministic i.entry = false → Draws s → FormsDrawn c s i ([0, 16, 16, 24, 24, 32, 32].getD (setOf i.entry % 16) 0) fun _ r => Writes ([0, 7856, 17088, 16224, 35664, 29792, 49856].getD (setOf i.entry % 16) 0) r))) ∧
  (∀ (s : State) (e : Engine) (i : Item) (input : Bytes),
    (∀ c op variant, (c = Instr.slhdsaVerify e input ∧ op = 0x34 ∧ variant = 0) ∨ (c = Instr.slhdsaVerifyPh e input ∧ op = 0x35 ∧ variant = phAlgOf i.entry) →
      Runs s e 0x04 op input i →
      Forms c s i fun r => Verdict (slhHolds (setOf i.entry) variant (ctxLenOf i.entry) (namedPk s i (slhPk (setOf i.entry)))
        (input.take (input.length - sigLenOf i.entry)) (input.drop (input.length - sigLenOf i.entry))) r) ∧
    (∀ c op variant, (c = Instr.slhdsaVerifyPk e input ∧ op = 0x36 ∧ variant = 0) ∨ (c = Instr.slhdsaVerifyPkPh e input ∧ op = 0x37 ∧ variant = phAlgOf i.entry) →
      Runs s e 0x04 op input i →
      Forms c s i fun r => Verdict (slhHolds (setOf i.entry) variant (ctxLenOf i.entry) (input.take (slhPk (setOf i.entry)))
        ((input.drop (slhPk (setOf i.entry))).take (input.length - slhPk (setOf i.entry) - sigLenOf i.entry))
        ((input.drop (slhPk (setOf i.entry))).drop (input.length - slhPk (setOf i.entry) - sigLenOf i.entry))) r))

/-- KEYGEN_START of LMS and XMSS draws the seeds and an 8-byte KEY_ID, gives the handle and BUILD_COUNT in RESULT and keeps a key that is building; BUILD keeps its subtree's nodes for COMMIT; FINISH writes a public key of the set's length that begins with the number of levels, or the set's OID. Only KEYGEN_START draws. LMS and XMSS SIGN write a signature of the set's length made at the index bound at the grant, which RESULT carries, and draw nothing; it begins with L - 1 for an HSS key and with the index for an XMSS key; the verify operations write nothing and give OK or REJECT by the verdict on the public key, the message and the signature. TALLY_QUERY writes 32 bytes: next index, CEILING, LIMIT, RECORD, the state code and five zeros; TALLY_RETIRE keeps a retirement for COMMIT. (R295, R296, R297, R299, R300, R310, R311, R312) -/
def Obligations.stateful_completes : Prop :=
  (∀ (s : State) (e : Engine) (i : Item) (fam base : Nat) (start build fin : Instr),
    (fam = 0x05 ∧ base = 0x38 ∧ start = .lmsKeygenStart e ∧ build = .lmsBuild e ∧ fin = .lmsFinish e) ∨
    (fam = 0x06 ∧ base = 0x40 ∧ start = .xmssKeygenStart e ∧ build = .xmssBuild e ∧ fin = .xmssFinish e) →
    (Runs s e fam base [] i → Draws s →
      FormsDrawn start s i (statefulSeedLen fam (setOf i.entry) + 8) fun d r =>
        r.status = .ok ∧ r.output = [] ∧ r.word = reservedHandle s i + buildCount fam (setOf i.entry) * 2 ^ 32 ∧
          r.acts = [.run 4 fam (setOf i.entry) (newPolicy (policyOperand i.entry) 4 fam 0 false) (d.take (statefulSeedLen fam (setOf i.entry)))
            (leNat (d.drop (statefulSeedLen fam (setOf i.entry)))) true]) ∧
    (Runs s e fam (base + 1) [] i →
      Forms build s i fun r => ∃ next, (∀ t, itemTally s i = some t → next = t.next) ∧
        r = { status := .ok, acts := [.subtree (i.keyRun.getD 0) (buildIndex i.entry) (subtreeNodes fam (setOf i.entry) (buildIndex i.entry) next (keyContent s i))] }) ∧
    (Runs s e fam (base + 2) [] i →
      Forms fin s i fun r => r.status = .ok ∧ r.output.length = statefulPkLen fam (setOf i.entry) ∧ r.output.take 4 = beBytes 4 (statefulTag fam (setOf i.entry)) ∧ r.word = 0 ∧ r.acts = [.finish (i.keyRun.getD 0) r.output])) ∧
  (∀ (s : State) (e : Engine) (i : Item) (input : Bytes) (fam base : Nat) (sign verify verifyPk : Instr),
    (fam = 0x05 ∧ base = 0x38 ∧ sign = .lmsSign e input ∧ verify = .lmsVerify e input ∧ verifyPk = .lmsVerifyPk e input) ∨
    (fam = 0x06 ∧ base = 0x40 ∧ sign = .xmssSign e input ∧ verify = .xmssVerify e input ∧ verifyPk = .xmssVerifyPk e input) →
    (∀ n, Runs s e fam (base + 3) input i → i.boundIndex = some n →
      Forms sign s i fun r => r.status = .ok ∧ r.word = n ∧ r.acts = [] ∧
        r.output = statefulSigOf fam (setOf i.entry) n (keyContent s i) input ∧ r.output.length = statefulSigLen fam (setOf i.entry) ∧
        ∀ hs, statefulHeights fam (setOf i.entry) = some hs →
          r.output.take 4 = if fam = 0x05 then beBytes 4 (hs.length - 1) else if setOf i.entry < 128 then beBytes 4 n else r.output.take 4) ∧
    (∀ pk, Runs s e fam (base + 4) input i →
      pk = (match keyFacts s i with
        | some k => if k.kind == 2 then keyContent s i else storedPk s i
        | none => keyContent s i) →
      Forms verify s i fun r => Verdict (Config.holds (.verifies fam (setOf i.entry) 0)
        [pk, input.take (input.length - sigLenOf i.entry), input.drop (input.length - sigLenOf i.entry)]) r) ∧
    (Runs s e fam (base + 5) input i →
      Forms verifyPk s i fun r => Verdict (Config.holds (.verifies fam (setOf i.entry) 0)
        [input.take (statefulPkLen fam (setOf i.entry)),
          (input.drop (statefulPkLen fam (setOf i.entry))).take (input.length - statefulPkLen fam (setOf i.entry) - sigLenOf i.entry),
          (input.drop (statefulPkLen fam (setOf i.entry))).drop (input.length - statefulPkLen fam (setOf i.entry) - sigLenOf i.entry)]) r)) ∧
  (∀ (s : State) (e : Engine) (i : Item) (k : KeyRun) (t : TallyRecord) (c : TallyCopy),
    (Runs s e 0x31 0x48 [] i → itemRun s i = some k → tallyOf s k.keyId = some t → tallyNewest t = some c →
      Forms (.tallyQuery e) s i fun r => Writes 32 r ∧
        r.output.take 8 = leBytes 8 t.next ∧ slice_ r.output 8 8 = leBytes 8 c.ceiling ∧
        slice_ r.output 16 8 = leBytes 8 (statefulLimit k.family k.set) ∧ slice_ r.output 24 2 = leBytes 2 t.number ∧
        slice_ r.output 26 1 = leBytes 1 (tallyStateCode (k.state == .building) t) ∧ r.output.drop 27 = zeros 5) ∧
    (Runs s e 0x31 0x49 [] i →
      Forms (.tallyRetire e) s i fun r => r = { status := .ok, acts := [.retire (i.keyRun.getD 0)] }))

/-- MCELIECE_KEYGEN gives pk and keeps sk with its hash, at up to 256 attempts, and is a routine error above; ENCAPS_PK and REGISTER never reject; ENCAPS gives c and K on a cache hit and, on a miss, where the streamed key has the run's hash, REJECT_ENCODING where it has not; DECAPS gives OK and a K of 32 bytes for every c. A streamed key whose translation fails ends ENCAPS_PK and REGISTER with XLATE_FAULT. HQC_KEYGEN gives pk and keeps sk; HQC_ENCAPS and HQC_ENCAPS_EK give c and a K of 64 bytes, the latter REJECT_ENCODING for a key with a non-zero padding bit; HQC_DECAPS gives OK and a K for every c. (R134, R322, R323, R324, R327, R329, R331) -/
def Obligations.code_based_completes : Prop :=
  (∀ (s : State) (e : Engine) (i : Item) (input : Bytes) (attempts : Nat), 1 ≤ setOf i.entry → setOf i.entry ≤ 10 →
    (Runs s e 0x07 0x50 [] i → Draws s → 0 < attempts → attempts ≤ 256 →
      FormsDrawnMore (.mcelieceKeygen e attempts) s i fun r =>
        NewKey s i 1 0x07 0 false ([0, 261120, 524160, 1044992, 1047319, 1357824].getD ((setOf i.entry + 1) / 2) 0)
          ([0, 6524, 13640, 13964, 13980, 14152].getD ((setOf i.entry + 1) / 2) 0) r) ∧
    (Runs s e 0x07 0x50 [] i → 256 < attempts →
      exec (.mcelieceKeygen e attempts) s = .next (routineFault i (match e with | .selvedge u => modSelv u (fun v => { v with lastAttempts := 255 }) s | _ => s))) ∧
    (∀ u k, e = .selvedge u → Runs s e 0x07 0x51 input i → Draws s → i.record = none → keyFacts s i = some k →
      FormsDrawn (.mcelieceEncaps e (some input)) s i 32 fun _ r =>
        if (selvFind s i (keyHandle i.entry)).isSome = true ∨ mceHash (setOf i.entry) input = mceKeyHash (setOf i.entry) k (keyContent s i) then
          Shared s i ([0, 96, 156, 208, 194, 208].getD ((setOf i.entry + 1) / 2) 0) 32 r
        else r.status = .rejectEncoding ∧ r.output = []) ∧
    (Runs s e 0x07 0x52 input i → Draws s →
      FormsDrawn (.mcelieceEncapsPk e (some input)) s i 32 fun _ r => Shared s i ([0, 96, 156, 208, 194, 208].getD ((setOf i.entry + 1) / 2) 0) 32 r) ∧
    (Runs s e 0x07 0x53 input i →
      Forms (.mcelieceRegister e (some input)) s i fun r => NewKey s i 3 0x07 2 false 0 33 r) ∧
    (∀ c op, (c = Instr.mcelieceEncapsPk e none ∧ op = 0x52) ∨ (c = .mcelieceRegister e none ∧ op = 0x53) → IdsApart s → Runs s e 0x07 op input i →
      ∃ t, exec c s = .next t ∧ Ended t i.id .xlateFault) ∧
    (Runs s e 0x07 0x54 input i → Forms (.mcelieceDecaps e input) s i fun r => Shared s i 0 32 r)) ∧
  (∀ (s : State) (e : Engine) (i : Item) (input : Bytes), 1 ≤ setOf i.entry → setOf i.entry ≤ 3 →
    (Runs s e 0x08 0x58 [] i → Draws s →
      FormsDrawn (.hqcKeygen e) s i 32 fun _ r =>
        NewKey s i 1 0x08 0 false ([0, 2249, 4522, 7245].getD (setOf i.entry) 0) ([0, 2305, 4586, 7317].getD (setOf i.entry) 0) r) ∧
    (Runs s e 0x08 0x59 [] i → Draws s →
      FormsDrawn (.hqcEncaps e) s i 32 fun _ r => Shared s i ([0, 4433, 8978, 14421].getD (setOf i.entry) 0) 64 r) ∧
    (Runs s e 0x08 0x5A input i → Draws s →
      FormsDrawn (.hqcEncapsEk e input) s i 32 fun _ r =>
        if 2 ^ [0, 17669, 35851, 57637].getD (setOf i.entry) 0 ≤ leNat (input.drop 40) then Rejects .rejectEncoding r
        else Shared s i ([0, 4433, 8978, 14421].getD (setOf i.entry) 0) 64 r) ∧
    (Runs s e 0x08 0x5B input i → Forms (.hqcDecaps e input) s i fun r => Shared s i 0 64 r))

/-- ECDSA_KEYGEN gives a SEC 1 public key; ECDSA_SIGN writes r and s; ECDSA_VERIFY and ECDSA_VERIFY_PK give OK or REJECT by the verdict; ECDH_AGREE gives the shared x. A key that a sealed record or the input brings is judged first and ends the operation with its status of R342; a key in drawers is not. Every one that needs randomness draws 128 bytes. EDDSA_KEYGEN and XDH_KEYGEN give a public key; EDDSA_SIGN writes a signature that does not depend on the draw; the verify operations give OK or REJECT by the verdict. A key that a sealed record or the input brings is judged first. XDH_AGREE gives the shared value, or REJECT_POINT where it is all zero. (R334, R335, R337, R341, R342, R343, R344) -/
def Obligations.elliptic_completes : Prop :=
  (∀ (s : State) (e : Engine) (i : Item) (input : Bytes), 1 ≤ setOf i.entry → setOf i.entry ≤ 3 →
    (Runs s e 0x10 0x60 [] i → Draws s →
      FormsDrawn (.ecdsaKeygen e) s i 128 fun _ r =>
        NewKey s i 1 0x10 0 (oneShotOperand i.entry) ([0, 65, 97, 133].getD (setOf i.entry) 0) ([0, 97, 145, 199].getD (setOf i.entry) 0) r) ∧
    (Runs s e 0x10 0x61 input i → Draws s →
      FormsDrawn (.ecdsaSign e input) s i 128 fun _ r =>
        match namedClsBad s i with
        | some st => Rejects st r
        | none => Writes ([0, 64, 96, 132].getD (setOf i.entry) 0) r) ∧
    (∀ verify bad pk msgSig n, (verify = Instr.ecdsaVerify e input ∧ Runs s e 0x10 0x62 input i ∧ bad = namedClsBad s i ∧ pk = namedPk s i (ecCoord (setOf i.entry)) ∧ msgSig = input) ∨
        (verify = .ecdsaVerifyPk e input ∧ Runs s e 0x10 0x63 input i ∧ pk = input.take (ecPk (setOf i.entry)) ∧ bad = ecPkBad (setOf i.entry) pk ∧ msgSig = input.drop (ecPk (setOf i.entry))) →
      n = msgSig.length - [0, 64, 96, 132].getD (setOf i.entry) 0 →
      Forms verify s i (Judged bad (ecVerifies (setOf i.entry) pk (msgSig.take n) (msgSig.drop n)))) ∧
    (Runs s e 0x10 0x64 input i → Draws s →
      FormsDrawn (.ecdhAgree e input) s i 128 fun _ r =>
        match firstBad (namedClsBad s i) (match ecPkBad (setOf i.entry) input with
            | some st => some st
            | none => if (ecAgree (setOf i.entry) ((keyContent s i).take (ecCoord (setOf i.entry))) input).isNone = true then some .rejectPoint else none) with
        | some st => Rejects st r
        | none => Shared s i 0 ([0, 32, 48, 66].getD (setOf i.entry) 0) r) ∧
    (i.record = none → namedClsBad s i = none)) ∧
  (∀ (s : State) (e : Engine) (i : Item) (input : Bytes), 1 ≤ setOf i.entry → setOf i.entry ≤ 2 →
    (Runs s e 0x11 0x68 [] i → Draws s →
      FormsDrawn (.eddsaKeygen e) s i 128 fun _ r =>
        NewKey s i 1 0x11 0 false ([0, 32, 57].getD (setOf i.entry) 0) ([0, 64, 114].getD (setOf i.entry) 0) r) ∧
    (Runs s e 0x11 0x69 input i → Draws s →
      FormsDrawn (.eddsaSign e input) s i 128 fun _ r =>
        match namedClsBad s i with
        | some st => Rejects st r
        | none => r.status = .ok ∧ r.word = 0 ∧
          r.output.length = [0, 64, 114].getD (setOf i.entry) 0 ∧
            r.output = edSignOf (setOf i.entry) (variantOf i.entry) ((keyContent s i).take (edPk (setOf i.entry))) ((keyContent s i).drop (edPk (setOf i.entry))) (input.take (ctxLenOf i.entry)) (input.drop (ctxLenOf i.entry))) ∧
    (∀ verify bad pk msgSig n, (verify = Instr.eddsaVerify e input ∧ Runs s e 0x11 0x6A input i ∧ bad = namedClsBad s i ∧ pk = namedPk s i (edPk (setOf i.entry)) ∧ msgSig = input) ∨
        (verify = .eddsaVerifyPk e input ∧ Runs s e 0x11 0x6B input i ∧ pk = input.take (edPk (setOf i.entry)) ∧ bad = edPkBad (setOf i.entry) pk ∧ msgSig = input.drop (edPk (setOf i.entry))) →
      n = msgSig.length - [0, 64, 114].getD (setOf i.entry) 0 →
      Forms verify s i (Judged bad (edVerifies (setOf i.entry) (variantOf i.entry) pk (msgSig.take (ctxLenOf i.entry)) ((msgSig.take n).drop (ctxLenOf i.entry)) (msgSig.drop n)))) ∧
    (Runs s e 0x12 0x6C [] i → Draws s →
      FormsDrawn (.xdhKeygen e) s i 128 fun _ r =>
        NewKey s i 1 0x12 0 (oneShotOperand i.entry) ([0, 32, 56].getD (setOf i.entry) 0) ([0, 32, 56].getD (setOf i.entry) 0) r) ∧
    (Runs s e 0x12 0x6D input i → Draws s →
      FormsDrawn (.xdhAgree e input) s i 128 fun _ r =>
        if xAgree (setOf i.entry) (keyContent s i) input = zeros ([0, 32, 56].getD (setOf i.entry) 0) then Rejects .rejectPoint r
        else SharedAs s i [] (xAgree (setOf i.entry) (keyContent s i) input) r))

/-- RSA_KEYGEN tests its next candidates, keeps the primes that it finds and, at the second one, gives n and e and keeps the private key; RSA_SIGN writes k bytes; the verify operations give OK or REJECT by the verdict, the signature's encoding of R338 recovered with n and e, one not below n always REJECT; RSA_DECRYPT writes at most k - 2h - 2 bytes where the OAEP decoding succeeds; RSA_ENCRYPT_PK and RSA_PRIVATE_RAW write k bytes. A key that a sealed record or the input brings, and an input of a private operation not below n, are judged first, and the first status in the order of R342 ends the item. (R336, R337, R338, R339, R342, R343) -/
def Obligations.rsa_completes : Prop :=
  ∀ (s : State) (e : Engine) (i : Item) (input : Bytes) (candidates : Nat), 1 ≤ setOf i.entry → setOf i.entry ≤ 4 →
    (∀ b x, Runs s e 0x13 0x70 [] i → Draws s →
      b = (if (contextBits i s).isEmpty = true then loadUnit i [] (itemDraw i 128 s).1 (itemDraw i 128 s).2 else s) →
      x = searchPrimes i (contextBits i b) candidates b →
      x.2 = { b with bobbin := { b.bobbin with instances := x.2.bobbin.instances, buffers := x.2.bobbin.buffers } } ∧
      (2 ≤ x.1.length → ∃ r, exec (.rsaKeygen e candidates) s = .next (formed i r [] x.2) ∧
        NewKey s i 1 0x13 0 false ([0, 288, 416, 544, 1056].getD (setOf i.entry) 0) ([0, 1440, 2144, 2848, 5664].getD (setOf i.entry) 0) r) ∧
      (x.1.length < 2 → ∃ t, exec (.rsaKeygen e candidates) s = .next t ∧ t = { x.2 with trestles := t.trestles } ∧
        ((trestleOf i).isSome = true → foundPrimes i t = x.1))) ∧
    (Runs s e 0x13 0x71 input i → Draws s →
      FormsDrawn (.rsaSign e input) s i 128 fun _ r =>
        match namedClsBad s i with
        | some st => Rejects st r
        | none => Writes ([0, 256, 384, 512, 1024].getD (setOf i.entry) 0) r) ∧
    (∀ verify bad key msgSig n, (verify = Instr.rsaVerify e input ∧ Runs s e 0x13 0x72 input i ∧ bad = namedClsBad s i ∧ key = keyContent s i ∧ msgSig = input) ∨
        (verify = .rsaVerifyPk e input ∧ Runs s e 0x13 0x73 input i ∧ key = input.take (rsaK (setOf i.entry) + 32) ∧ bad = rsaPkBad (setOf i.entry) key ∧ msgSig = input.drop (rsaK (setOf i.entry) + 32)) →
      n = msgSig.length - rsaK (setOf i.entry) →
      Forms verify s i (Judged bad (decide (beNat (msgSig.drop n) < rsaN (setOf i.entry) key) &&
        rsaHolds (setOf i.entry) (schemeOf i.entry) (hashOf i.entry) key (msgSig.take n) (msgSig.drop n)))) ∧
    (Runs s e 0x13 0x74 input i → Draws s →
      FormsDrawn (.rsaDecrypt e input) s i 128 fun _ r =>
        match firstBad (namedClsBad s i) (if rsaN (setOf i.entry) (keyContent s i) ≤ beNat input then some .rejectRange else none) with
        | some st => if (st = .rejectModulus ∨ st = .rejectScalar) ∧ beNat input < rsaN (setOf i.entry) (keyContent s i) ∧
              oaepDecode (rsaK (setOf i.entry)) (hashOf i.entry) (beBytes (rsaK (setOf i.entry)) (rsaPrivate (setOf i.entry) (keyContent s i) (beNat input))) = none
            then Rejects .rejectEncoding r else Rejects st r
        | none => if (oaepDecode (rsaK (setOf i.entry)) (hashOf i.entry) (beBytes (rsaK (setOf i.entry)) (rsaPrivate (setOf i.entry) (keyContent s i) (beNat input)))).isSome = true then
            r.status = .ok ∧ r.word = 0 ∧ r.output.length ≤ rsaK (setOf i.entry) - 2 * hashLenOf i.entry - 2
          else Rejects .rejectEncoding r) ∧
    (Runs s e 0x13 0x75 input i → Draws s →
      FormsDrawn (.rsaEncryptPk e input) s i 128 fun _ r =>
        match rsaPkBad (setOf i.entry) (input.take (rsaK (setOf i.entry) + 32)) with
        | some st => Rejects st r
        | none => Writes ([0, 256, 384, 512, 1024].getD (setOf i.entry) 0) r) ∧
    (Runs s e 0x13 0x76 input i → Draws s →
      FormsDrawn (.rsaPrivateRaw e input) s i 128 fun _ r =>
        match firstBad (namedClsBad s i) (if rsaN (setOf i.entry) (keyContent s i) ≤ beNat input then some .rejectRange else none) with
        | some st => Rejects st r
        | none => Writes ([0, 256, 384, 512, 1024].getD (setOf i.entry) 0) r) ∧
    (i.record = none → namedClsBad s i = none)

/-- IMPORT_PUBLIC and IMPORT_PRIVATE keep a key with ORIGIN 2 when its checks pass and reject it otherwise; UNSEAL keeps the key of the record with the record's own policy; SEAL writes 80 bytes more than the key's content, a record that opens to that content, and gives its length in RESULT; DELETE and RESTRICT keep their effect for COMMIT; KEY_QUERY writes 16 bytes. (R399, R400, R402, R403, R412) -/
def Obligations.key_management_completes : Prop :=
  ∀ (s : State) (e : Engine) (i : Item) (input : Bytes),
    (Runs s e 0x30 0x80 input i →
      Forms (.importPublic e input) s i fun r =>
        match publicBad (targetFam i.entry) (setOf i.entry) input with
        | some st => Rejects st r
        | none => r.status = .ok ∧ r.output = [] ∧ r.word = reservedHandle s i ∧
            CommitAct.run 2 (targetFam i.entry) (setOf i.entry) (newPolicy (policyOperand i.entry) 2 (targetFam i.entry) 2 false)
              (publicContent (targetFam i.entry) (setOf i.entry) input) 0 false ∈ r.acts) ∧
    (Runs s e 0x30 0x81 input i →
      Forms (.importPrivate e input) s i fun r =>
        match importPrivateBad (targetFam i.entry) (setOf i.entry) (privateContent (targetFam i.entry) (setOf i.entry) input) with
        | some st => Rejects st r
        | none => r.status = .ok ∧ r.output = [] ∧ r.word = reservedHandle s i ∧
            CommitAct.run 1 (targetFam i.entry) (setOf i.entry) (newPolicy (policyOperand i.entry) 1 (targetFam i.entry) 2 false)
              (privateContent (targetFam i.entry) (setOf i.entry) input) 0 false ∈ r.acts) ∧
    (∀ rec, Runs s e 0x30 0x82 [] i → i.record = some rec →
      Forms (.unseal e) s i fun r =>
        match (if recKind rec = 1 then privateBad (recFamily rec) (recSet rec) (keyContent s i)
            else if recKind rec = 2 then publicBad (recFamily rec) (recSet rec) (keyContent s i)
            else if recKind rec = 4 ∧ adopted s i (recKeyId rec) = false then some .keyHandleInvalid else none) with
        | some st => Rejects st r
        | none => r.status = .ok ∧ r.output = [] ∧ r.word = reservedHandle s i ∧
            CommitAct.run (recKind rec) (recFamily rec) (recSet rec) (recPolicy rec) (keyContent s i) (recKeyId rec) (recKind rec == 4) ∈ r.acts) ∧
    (∀ k, Runs s e 0x30 0x83 [] i → Draws s → itemRun s i = some k →
      FormsDrawn (.seal e) s i 12 fun iv r =>
        if deletedBy k i.id = true then Rejects .keyHandleInvalid r
        else ∃ ct, r.status = .ok ∧ r.output.length = 80 + k.content.length ∧ r.word = 80 + k.content.length ∧ r.acts = [] ∧
          r.output.take 4 = ascii "AQSK" ∧ r.output = recordHeader s i k iv ++ ct ++ gcmTag (wrapKey s (itemUid s i)) iv (recordHeader s i k iv) ct ∧
          (80 + k.content.length < 2 ^ 32 → openRecord (wrapKey s (itemUid s i)) r.output = some k.content)) ∧
    (∀ k, Runs s e 0x30 0x84 [] i → itemRun s i = some k →
      Forms (.delete e) s i fun r =>
        if i.sealedFirst = true ∨ deletedBy k i.id = true then Rejects .keyHandleInvalid r else r = { status := .ok, acts := [.delete k.first] }) ∧
    (∀ k, Runs s e 0x30 0x85 [] i → itemRun s i = some k →
      Forms (.keyQuery e) s i fun r => Writes 16 r ∧ r.output.take 3 = leBytes 1 k.kind ++ leBytes 1 k.family ++ leBytes 1 k.set ∧
        slice_ r.output 8 4 = leBytes 4 k.policy.toNat) ∧
    (Runs s e 0x30 0x86 [] i →
      Forms (.restrict e) s i fun r => r = { status := .ok, acts := [.restrict (i.keyRun.getD 0) (policyOperand i.entry)] })

/-- DERIVE writes its output, or with DEPOSIT keeps it as a key of ORIGIN 4 whose rights are among its parent's; MAC writes its tag; ATTEST writes the 104-byte statement and both signatures; RANDOM writes LENGTH drawn bytes; DIGEST writes the digest of the algorithm's length. (R356, R369, R378, R404, R408) -/
def Obligations.derive_mac_attest_complete : Prop :=
  ∀ (s : State) (e : Engine) (i : Item) (input : Bytes),
    (Runs s e 0x30 0x87 input i →
      Forms (.derive e input) s i fun r =>
        if depositFlag i.entry = true then
          ∃ p content, r.output = [] ∧ r.word = reservedHandle s i ∧ content.length = deriveOut i.entry ∧
            CommitAct.run 6 0x30 (setOf i.entry) p content 0 false ∈ r.acts ∧ fieldOf p 28 4 = 4 ∧
            p.toNat % 2 ^ 24 &&& i.keyPolicy.toNat % 2 ^ 24 = p.toNat % 2 ^ 24
        else Writes (deriveOut i.entry) r) ∧
    (Runs s e 0x30 0x88 input i → Forms (.mac e input) s i fun r => Writes (macOut i.entry) r) ∧
    (Runs s e 0x30 0x89 input i → Draws s → input.length = 32 →
      FormsDrawn (.attest e input) s i 80 fun _ r => Writes 4827 r ∧ r.output.take 4 = ascii "AQAT" ∧
        slice_ r.output 4 8 = leBytes 8 s.fuses.serial.toNat ∧ slice_ r.output 20 2 = leBytes 1 (lcsShown s) ++ leBytes 1 (modeShown s) ∧
        slice_ r.output 24 4 = leBytes 4 s.backup.sticky.toNat ∧ slice_ r.output 72 32 = input) ∧
    (Runs s e 0x40 0x01 [] i → Draws s → predRes i.entry = false ∨ s.bobbin.predSeed = none →
      FormsDrawn (.random e) s i (randomLen i.entry) fun d r => r = okResult d) ∧
    (Runs s e 0x41 0x01 input i →
      Forms (.digest e input) s i fun r => Writes (digestSize (setOf i.entry) (entryNat i.entry 40 3)) r)

/-- POWER_GOOD in Dormant, with a valid contract on some port and the backup domain kept: Wake at t0, no slice, queue, item or key, every port at its reset values, contracts, fuses and drafts kept, the plan of the contracts settled, tamper classes those of the backup domain, the power-cycle count one higher, CHEST_EMPTY as the chest is. (R13, R65, R66, R392, R516) -/
def Obligations.power_good_completes : Prop :=
  ∀ s : State, s.mode.base = .dormant → s.power.contracts.any (fun c => c.valid) = true → s.backup.wasLost = false →
    ∃ t, exec .powerGood s = .next t ∧ t.mode.base = .wake ∧ t.clock = 0 ∧ t.slices = [] ∧ t.queues = [] ∧ t.runs = [] ∧
      t.heddle = {} ∧ t.ports = State.reset.ports ∧ t.bobbin.state = .off ∧ t.power.contracts = s.power.contracts ∧
      t.power.plan = planOf (budgetFine s) ∧ t.fuses = s.fuses ∧ t.flash.slotA = s.flash.slotA ∧ t.flash.slotB = s.flash.slotB ∧
      t.flash.powerCycle = min 16777215 (s.flash.powerCycle + 1) ∧ t.tamper.classes = s.backup.classes ∧
      t.mode.chestEmpty = !chestPasses s.fuses.serial s.backup.chest ∧ t.backup.sticky = s.backup.sticky

/-- POWER_FAIL in a powered mode, with the cell in place and no life-cycle transition running: Dormant, with the queue, fuses, chest, sticky flags, latch, drafts, owner record, logbook in flash and contracts kept, and slices, queues, keys and items gone. (R23, R29, R390, R476) -/
def Obligations.power_fail_completes : Prop :=
  ∀ s : State, s.mode.base ≠ .dormant → s.backup.cellOk = true → s.life.transition = none →
    ∃ t, exec .powerFail s = .next t ∧ t.mode.base = .dormant ∧ t.pending = s.pending ∧ t.fuses = s.fuses ∧
      t.backup.chest = s.backup.chest ∧ t.backup.sticky = s.backup.sticky ∧ t.backup.latch = s.backup.latch ∧
      t.backup.classes = s.backup.classes ∧ t.flash.slotA = s.flash.slotA ∧ t.flash.slotB = s.flash.slotB ∧
      t.flash.ownerRecord = s.flash.ownerRecord ∧ t.flash.logRecords = s.flash.logRecords ∧
      t.power.contracts = s.power.contracts ∧ t.slices = [] ∧ t.queues = [] ∧ t.runs = [] ∧ t.heddle.items = []

/-- STRAP_SAMPLE, once in a Wake: a chest that nothing has read in this Wake is read first, which sets its valid bit and CHEST_EMPTY; the straps are held and the life-cycle registers show the repaired bits, the state counted from them, REPAIRED and INVALID; CAUSE becomes 13 in Scrapped. With a valid pattern nothing else changes; an invalid one also sets INVALID. (R21, R392, R524, R525) -/
def Obligations.strap_sample_completes : Prop :=
  ∀ (s : State) (pins : Straps), s.mode.straps = none → s.mode.base = .wake →
    (s.mode.chestRead = true → readChest s = s) ∧
    (s.mode.chestRead = false → (readChest s).backup.chest = { s.backup.chest with valid := chestPasses s.fuses.serial s.backup.chest } ∧
      (readChest s).mode = { s.mode with chestRead := true, chestPassed := chestPasses s.fuses.serial s.backup.chest, chestEmpty := !chestPasses s.fuses.serial s.backup.chest } ∧
      ButEvents { s with mode := (readChest s).mode, backup := { s.backup with chest := (readChest s).backup.chest } } (readChest s)) ∧
    ((readCounter s.fuses.otp).2.2 = false →
      ∃ t, exec (.strapSample pins) s = .next t ∧ t = { readChest s with fuses := t.fuses, life := t.life, mode := t.mode } ∧
        t.fuses = { s.fuses with otp := (readCounter s.fuses.otp).1 } ∧
        t.life = { s.life with otpRead := (readCounter s.fuses.otp).1, repaired := (readCounter s.fuses.otp).2.1, invalid := false, state := stateCount (readCounter s.fuses.otp).1 } ∧
        t.mode = { (readChest s).mode with straps := some pins, cause := if stateCount (readCounter s.fuses.otp).1 = 5 then 13 else s.mode.cause }) ∧
    ((readCounter s.fuses.otp).2.2 = true →
      ∃ t, exec (.strapSample pins) s = .next t ∧ t.life.invalid = true ∧ t.mode.straps = some pins)

/-- The repaired bits contain the bits as found; the reader burns only the missing bits of one group; and the state counted from any counter is at most 5, the number of leading groups with three bits or four. (R524, R525) -/
def Obligations.life_cycle_reader : Prop :=
  ∀ otp : BitVec 24,
    otp &&& (readCounter otp).1 = otp ∧
    (∃ g, g ≤ 4 ∧ (readCounter otp).1 &&& ~~~(BitVec.ofNat 24 (15 * 2 ^ (4 * g))) = otp &&& ~~~(BitVec.ofNat 24 (15 * 2 ^ (4 * g)))) ∧
    stateCount otp ≤ 5 ∧ (∀ g, g < stateCount otp → 3 ≤ groupBits otp g) ∧
    (stateCount otp < 5 → groupBits otp (stateCount otp) < 3)

/-- On a Provisioned or Deployed module with straps 0, an undamaged tally-free flash and a plan of Idle only or more, STEWARD_FW_VERIFIED with a good slot begins to thread the selected slot; DRAFT_READ_DONE with a draft that passes its checks begins the self-test and holds that draft, without its owner part where the chest is empty; SELF_TEST_DONE with a clean result, a valid chest and no sticky flag of class HALT ends in Idle with READY; RECOVERY is entered where no firmware verified. (R50, R66, R70, R71, R92) -/
def Obligations.start_up_completes : Prop :=
  ∀ (s : State) (a b : Bool) (n : List Word) (c re other : Bool) (src : Nat) (d : Draft) (r : SelfTest),
    (s.mode.base = .wake → s.mode.fwDone = false → s.mode.stewardLost = false → s.mode.straps = some { boot := 0, compat := false, cardspd := false, pwrmin := false, dbgreq := false } →
      (s.life.state = 2 ∨ s.life.state = 3) → s.life.debug = false → s.power.plan ≠ .wakeOnly → s.mode.threading = .none → s.flash.tally = [] → s.backup.latch = [] → s.backup.lost = 0 → n.length ≤ 4096 →
      ∃ t, exec (.stewardFwVerified a b n) s = .next t ∧ t.mode.fwDone = true ∧ t.mode.fwRuns = (a || b) ∧
        ((a || b) = true → t.mode.base = .threading ∧ t.mode.threading = .reading s.flash.select true false ∧ t.mode.draftSrc = s.flash.select) ∧
        ((a || b) = false → t.mode.base = .recovery ∧ t.mode.cause = 12)) ∧
    (s.mode.base = .threading → s.mode.threading = .reading src other re → draftAt s src = some d → draftCheck s d = none →
      ∃ t, exec (.draftReadDone true) s = .next t ∧ t.draft.threaded = some (if s.backup.chest.valid = true ∧ s.life.debug = false then d else { d with owner := none }) ∧ t.draft.source = src ∧ t.draft.code = 0 ∧
        t.mode.base = .threading ∧ ∃ cl, t.mode.threading = .testing cl other re) ∧
    (s.mode.base = .threading → s.mode.threading = .testing c other false → s.backup.chest.valid = true → haltFlagSet s = false → s.owner = none →
      r = { looms := [], benches := [], trestles := [], selvedge := [], cabinetOk := true, caches := [], silent := [], wardenChecker := false } →
      ∃ t, exec (.selfTestDone r) s = .next t ∧ t.mode.base = .idle ∧ t.mode.cause = 2 ∧ t.mode.last = 2 ∧ t.mode.ready = true ∧ t.mode.threading = .none)

/-- In Dormant, where the PD engines alone run, PORT_ATTACH and CONTRACT_CHANGE give the port the contract that R25 chooses, SOURCE_CAPABILITIES_TIMEOUT the default contract, CONTRACT_DROP the lower contract, PORT_DETACH none, and nothing else but the port's power path changes; in a powered mode each gives the port that contract too, an attach that lowers no plan leaves the plan and every bench in service, and a detach leaves no function and no slice of the port; a path follows its contract, is open without one, and a change caps it first at the lower power; so does a link that goes down or a hot reset, which leaves every contract as it was. A source that offers 20 V at 5 A over an e-marked cable gives a contract of 20 V and 5 A; one that offers 20 V at 3 A or more gives 20 V and 3 A where the first does not apply; one without a fixed offer gives the Type-C or USB 2.0 default. (R17, R25, R26, R27, R28, R37, R39, R65) -/
def Obligations.contracts_complete : Prop :=
  (∀ (s : State) (p : PortId) (o : Offer) (low : Bool) (v i : Nat) (ty : TypeC), o.wf = true →
    (s.power.contracts[p.val].attached = false → planCode s.power.plan ≤ planCode (planOf (budgetFine (setContract p (chooseContract o) s))) →
      ∃ t, exec (.portAttach p o) s = .next t ∧ t = { s with power := t.power } ∧ t.power.contracts = s.power.contracts.set p.val (chooseContract o) ∧
        t.power.plan = s.power.plan ∧ t.power.benchOn = s.power.benchOn ∧
        t.power.paths[p.val].diodeOpen = false ∧ t.power.paths[p.val].limit = (chooseContract o).current) ∧
    (s.power.contracts[p.val].attached = true →
      (∃ t, exec (.contractChange p o low) s = .next t ∧ t.power.contracts = s.power.contracts.set p.val (chooseContract o) ∧
        t.power.paths[p.val].requestCap = min (contractPower s.power.contracts[p.val]) (contractPower (chooseContract o)) ∧
        (s.mode.base = .dormant → t = setContract p (chooseContract o) (capPath p (chooseContract o) s))) ∧
      (∃ t, exec (.portDetach p false low) s = .next t ∧ t.power.contracts = s.power.contracts.set p.val {} ∧ t.power.paths[p.val].diodeOpen = true ∧
        (s.mode.base = .dormant → t = setContract p {} s) ∧
        (s.mode.base ≠ .dormant → { t.ports[p.val] with creditHeld := false } = {} ∧ ∀ x ∈ t.slices, x.port ≠ p)) ∧
      (s.mode.base ≠ .dormant → s.ports[p.val].trained = true →
        ∃ t, exec (.portDetach p true low) s = .next t ∧ t.power.contracts = s.power.contracts ∧ { t.ports[p.val] with creditHeld := false } = {} ∧ ∀ x ∈ t.slices, x.port ≠ p)) ∧
    (s.power.contracts[p.val].valid = true → v < 1024 → i < 1024 → v * i < contractPower s.power.contracts[p.val] →
      ∃ t, exec (.contractDrop p v i low) s = .next t ∧ t.power.contracts = s.power.contracts.set p.val { s.power.contracts[p.val] with voltage := v, current := i } ∧
        (s.mode.base = .dormant → t = setContract p { s.power.contracts[p.val] with voltage := v, current := i } s)) ∧
    (s.power.contracts[p.val].valid = false →
      ∃ t, exec (.sourceCapabilitiesTimeout p ty) s = .next t ∧
        t.power.contracts = s.power.contracts.set p.val (defaultContract { fixed := [], typeC := ty, emark5a := false }) ∧
        (s.mode.base = .dormant → t = setContract p (defaultContract { fixed := [], typeC := ty, emark5a := false }) s))) ∧
  (∀ o : Offer,
    ((∃ f ∈ o.fixed, f.volts = 20 ∧ 500 ≤ f.current) → o.emark5a = true → (chooseContract o).voltage = 400 ∧ (chooseContract o).current = 500 ∧ (chooseContract o).source = 3) ∧
    ((∃ f ∈ o.fixed, f.volts = 20 ∧ 300 ≤ f.current) → o.emark5a = false → (chooseContract o).voltage = 400 ∧ (chooseContract o).current = 300) ∧
    (o.fixed = [] → (chooseContract o).voltage = 100 ∧ (chooseContract o).current = (match o.typeC with | .none => 50 | .a15 => 150 | .a30 => 300)))

/-- PATH_OVERCURRENT logs event 0x123; PLAN_UP_HOLD_EXPIRY turns a running hold into a plan that takes effect at the next beat; THERMAL_SAMPLE records the temperature and begins throttling at 100 C; each changes nothing else but the log. THERMAL_STEP at 100 C or more parks two benches where the rule of R42 finds two; THERMAL_CLEAR below 95 C takes one bench out of the throttled set and leaves it to return at the next beat; BENCH_GATE stops a bench whose role has no work and keeps its looms and the plan; BENCH_START starts the lowest gated bench of a role of which an item is ready and no loom is free. (R39, R41, R42, R46, R62, R63, R64) -/
def Obligations.power_events_complete : Prop :=
  (∀ (s : State) (p : PortId) (tj : Int) (pl : Plan), s.mode.base ≠ .dormant →
    (s.power.contracts[p.val].attached = true → exec (.pathOvercurrent p false) s = .next (raise0 0x123 s)) ∧
    (s.mode.stewardLost = false → s.power.hold = some pl →
      exec (.planUpHoldExpiry false) s = .next { s with power := { s.power with hold := none, rise := some pl } }) ∧
    (-128 ≤ tj → tj ≤ 127 →
      ∃ t, exec (.thermalSample tj) s = .next t ∧ t = { s with power := { s.power with tj := tj, throttling := t.power.throttling } } ∧
        (100 ≤ tj → t.power.throttling = true) ∧ (tj < 95 → s.power.throttled = 0 → t.power.throttling = false))) ∧
  (∀ (s : State) (b : BenchId), s.mode.base ≠ .dormant →
    (100 ≤ s.power.tj → ∀ x y, throttleChoice s = some x → throttleChoice (throttleOne s) = some y →
      ∃ t, exec (.thermalStep false) s = .next t ∧ t.power.benchOn.getLsbD x = false ∧ t.power.benchOn.getLsbD y = false ∧
        t.power.throttled.getLsbD x = true ∧ t.power.throttled.getLsbD y = true) ∧
    (s.power.tj < 95 → bitsOf (s.power.throttled &&& planBenches s s.power.plan) ≠ [] →
      ∃ t x, exec (.thermalClear false) s = .next t ∧ x ∈ bitsOf (s.power.throttled &&& planBenches s s.power.plan) ∧
        t.power.throttled = setBit s.power.throttled x false ∧ t.power.benchReturn = setBit s.power.benchReturn x true ∧ t.power.benchOn = s.power.benchOn) ∧
    (s.power.benchOn.getLsbD b.val = true → s.faults.bench.getLsbD b.val = false →
      (∀ i ∈ s.heddle.items, ¬(waiting i = true ∧ some i.cls = benchClass (roleOf s b.val)) ∧ itemUses (onBench b.val) i = false) →
      ∃ t, exec (.benchGate b) s = .next t ∧ t = { s with benches := t.benches, heddle := t.heddle } ∧ t.heddle.items = s.heddle.items ∧
        t.benches = s.benches.set b.val { s.benches[b.val] with gated := true }) ∧
    (s.benches[b.val].gated = true → (∃ i ∈ s.heddle.items, i.place = .ready ∧ some i.cls = benchClass (roleOf s b.val)) →
      (∀ n : LoomId, roleOf s (n.val / 4) = roleOf s b.val → mayAsk s (.loom n) = false) → (∀ n : BenchId, n < b → s.benches[n.val].gated = true → roleOf s n.val ≠ roleOf s b.val) →
      exec (.benchStart b) s = .next { s with benches := s.benches.set b.val { s.benches[b.val] with gated := false } }))

/-- BEAT in every powered mode answers a next state and leaves the queue, and so do alarms that fall on the boundary's cycle, whatever else meets them there; where nothing meets it the clock stands at the next multiple of 4,096, and in a quiet Idle (no plan rising, no bench waiting to return, no stage armed, no admin command, item, invalidation, envelope or owner command in hand, no source active) with the steward lost it leaves the mode, the power manager, the ports, the heddle, the keys and the shares as they were. (R33, R52, R106, R107, R180) -/
def Obligations.beat_completes : Prop :=
  ∀ (s : State) (fs : List Firing) (ms : List Trigger), s.mode.base ≠ .dormant → (∀ p v c, Trigger.contractDrop p v c ∈ ms → v < 1024 ∧ c < 1024) →
    (∃ t, exec (.tamperFire ⟨fs, .beat :: ms⟩) s = .next t ∧ t.pending = s.pending) ∧
    (∃ t, exec .beat s = .next t ∧ t.pending = s.pending ∧ t.clock = (s.clock / 4096 + 1) * 4096 ∧ t.fuses.fused = s.fuses.fused ∧
      (s.mode.base = .idle → s.mode.stewardLost = true → s.power.rise = none → s.power.benchReturn = 0 → s.device.armed = false →
        (∀ p : PortId, s.ports[p.val].creditHeld = false ∧ s.ports[p.val].stage.armed = false ∧ s.ports[p.val].admin.entry = none ∧
          s.ports[p.val].admin.scanning = false ∧ s.ports[p.val].drains = []) →
        s.heddle.items = [] → s.heddle.asking = [] → s.queues = [] → s.owner = none → s.envelopes = [] → s.tamper.sensed = [] →
        t.mode = s.mode ∧ t.power = s.power ∧ t.ports = s.ports ∧ t.heddle = s.heddle ∧ t.runs = s.runs ∧ t.shares = s.shares))

/-- A STAGE_WRITE to a live slice's weight register, with the stage neither armed nor full, leaves a read of that field at the nearest legal value; STAGE_COMMIT leaves the check's code and arms the stage when every check passes; STAGE_DISCARD empties and disarms it. Nothing outside the port's stage changes. (R99, R101, R104, R105) -/
def Obligations.stage_completes : Prop :=
  ∀ (s : State) (p : PortId) (i : SliceIdx) (v : Word) (sum : BitVec 16) (x : Slice), WriteReaches s p →
    (s.ports[p.val].stage.armed = false → s.ports[p.val].stage.entries.length < 4096 → findSlice s p i.val = some x →
      ∃ t, exec (.stageWrite p (0x21000 + 8 * i.val) v) s = .next t ∧ t = { s with ports := t.ports } ∧
        t.ports = s.ports.set p.val { s.ports[p.val] with stage := t.ports[p.val].stage } ∧
        shownField t p (.weight i) = max 1 (v.toNat % 65536) ∧
        (∀ f, f ≠ .weight i → shownField t p f = shownField s p f)) ∧
    (exec (.stageCommit p sum) s = .next (modStage p (fun g =>
      if stageCheck s p sum = 0 then { g with armed := true, armedAt := s.clock, code := 0, recheck := false, inputs := some (stageInputs s p) }
      else { g with code := stageCheck s p sum, recheck := false }) s)) ∧
    (exec (.stageDiscard p false) s = .next (modStage p (fun g => { g with entries := [], armed := false, overflow := false, inputs := none }) s))

/-- PWR_EVENTS_CLEAR and a REGISTER_WRITE of PWR_EVENTS clear exactly the bits written as one; a write of the card slew takes bits [1:0]; of ADM_AQ_BASE its low half while the queue is not enabled; an access that is no aligned dword is an Unsupported Request and changes nothing; a write to the ageing block or beyond changes nothing. While a port's function is fenced, every write to its BARs completes without effect: stage writes, commits and discards, aligned register writes, event clears, doorbells and slot writes leave the state as it was. (R12, R47, R118, R168, R445, R493) -/
def Obligations.registers_complete : Prop :=
  (∀ (s : State) (p : PortId) (v : Word) (off size : Nat), WriteReaches s p → off < 33554432 → 0 < size →
    (∀ c, c = Instr.pwrEventsClear p v ∨ c = Instr.registerWrite p 0x40001C 4 v →
      ∃ t, exec c s = .next t ∧ t = { s with power := { s.power with events := t.power.events } } ∧
        ∀ k < 12, t.power.events.getLsbD k = (s.power.events.getLsbD k && !v.getLsbD k)) ∧
    (exec (.registerWrite p 0x900000 4 v) s = .next { s with cards := { s.cards with slew := v.toNat % 4 } }) ∧
    (s.ports[p.val].admin.enable = false →
      ∃ t, exec (.registerWrite p 0x20000 4 v) s = .next t ∧ t.ports[p.val].admin.base.extractLsb' 0 32 = v ∧
        t.ports[p.val].admin.base.extractLsb' 32 32 = s.ports[p.val].admin.base.extractLsb' 32 32) ∧
    (size ≠ 4 ∨ off % 4 ≠ 0 → exec (.registerWrite p off size v) s = .next { s with out := s.out ++ [.unsupportedRequest p] }) ∧
    (0xA00000 ≤ off → off % 4 = 0 → exec (.registerWrite p off 4 v) s = .next s)) ∧
  (∀ (s : State) (p : PortId) (v : Word) (sum : BitVec 16) (off bell : Nat) (d : DigestSlot), barOpen s p = true → portFenced s p = true →
    off < 33554432 → off % 4 = 0 → bell + 4 ≤ 1048576 →
    ∀ c ∈ [Instr.stageWrite p off v, .stageCommit p sum, .stageDiscard p false, .registerWrite p off 4 v, .pwrEventsClear p v,
        .doorbellWrite p bell 4 v, .expressDoorbell p bell 4, .slotAlloc p v, .digestRelease p d, .traceConsumedWrite p v],
      exec c s = .next s)

/-- On an attached port from the strap sample on, GET_STATUS answers the four status registers, READ_BLOCK the dwords of its range, register by register, inside the blocks it reaches, LOG_READ the first C records from F on, and a code that no management command has OP_UNSUPPORTED; each appends one response that echoes the sequence number and changes nothing else. SIGNED_ADMIN with an accepted envelope raises MOD_OWNER_SEQ to its number and takes the inner command in hand; RECOVERY_LOAD in Recovery on port 0 appends its part; DEBUG_CHALLENGE in Wake or Hold answers a fresh nonce of 32 bytes that replaces the outstanding one; DEBUG_RESPONSE that the steward takes up consumes the nonce and counts the attempt, whatever its outcome, and a RETURN token that passes begins the transition to Analysis; one that arrives while the steward has a command in hand waits for it. (R75, R76, R121, R522, R531, R533, R535) -/
def Obligations.usb_complete : Prop :=
  (∀ (s : State) (p : PortId) (q : BitVec 16) (off len : Nat) (f c : Word), usbOpen s p = true →
    (exec (.getStatus p ⟨q, 0x0001⟩) s = .next { s with out := s.out ++ [.usb p 0x0001 q .ok
      (leBytes 4 (modStatus s).toNat ++ (leBytes 4 (modStraps s).toNat ++ (leBytes 4 (modBootTime s).toNat ++ (leBytes 4 (pwrPlan s).toNat ++ []))))] }) ∧
    (off % 4 = 0 → len % 4 = 0 → 0 < len → len ≤ 4096 → off < 4294967296 → blockOpen off len = true →
      ∃ bytes : Bytes, exec (.readBlock p q off len) s = .next { s with out := s.out ++ [.usb p 0x0002 q .ok bytes] } ∧ bytes.length = len ∧
        ∀ k, 4 * k < len → slice_ bytes (4 * k) 4 = leBytes 4 (readReg s p (off + 4 * k)).toNat) ∧
    (∀ code : BitVec 16, code.toNat ∉ [0x0001, 0x0002, 0x0003, 0x0010, 0x0020, 0x0030, 0x0031] →
      exec (.getStatus p ⟨q, code⟩) s = .next { s with out := s.out ++ [.usb p code.toNat q .opUnsupported []] }) ∧
    (s.mode.stewardLost = false → 0 < c.toNat → c.toNat ≤ 4096 →
      ∃ rs : List LogRecord, rs = ((if s.mode.fwDone = true then s.log.records else s.flash.logRecords).filter fun r => decide (f.toNat ≤ r.seq.toNat)).take c.toNat ∧
        exec (.logRead (.usb p q 8 f c)) s = .next { s with out := s.out ++ [.usb p 0x0003 q .ok (rs.flatMap recordBytes)] })) ∧
  (∀ (s : State) (p : PortId) (q : BitVec 16) (env : Envelope) (op : OwnerOperand) (part : Bytes) (k : Token), usbOpen s p = true → s.mode.stewardLost = false →
    (s.mode.base ≠ .zeroized → s.life.state ≠ 5 → stewardBusy s = false → env.length ≤ 1048576 → s.envelopes = [] → envelopeForm env = true → envelopeAccepted s env = true →
      innerOperand (envCode env) env.body = some op → heldInWake s = false →
      ∃ t, exec (.signedAdmin p q env) s = .next t ∧ t.backup.chest.seq = envSeq env ∧ t.owner = some { origin := .usb p q, seq := envSeq env, operand := op, clears := s.backup.sticky &&& ~~~s.tamper.active }) ∧
    (p = 0 → s.mode.base = .recovery → part.length ≤ 1048576 →
      exec (.recoveryLoad p q part) s = .next { s with draft := { s.draft with upload := s.draft.upload ++ part }, out := s.out ++ [.usb p 0x0020 q .ok []] }) ∧
    (s.mode.base = .wake ∨ s.mode.base = .hold → bobbinFailed s = false → stewardDraws s = true →
      ∃ t n, exec (.debugChallenge p q) s = .next t ∧ n.length = 32 ∧ t.life = { s.life with nonce := some n } ∧ t.out = s.out ++ [.usb p 0x0030 q .ok n]) ∧
    (stewardBusy s = false → s.envelopes = [] →
      ∃ t, exec (.debugResponse p q k) s = .next t ∧ t.life.nonce = none ∧ t.life.attempts = min 255 (s.life.attempts + 1) ∧ t.life.result = tokenResult s k ∧
        (tokenResult s k = 0 → tokenPurpose k = 2 → t.life.transition = some { target := 4, byToken := some (p, q) }) ∧
        (tokenResult s k ≠ 0 → t.life.debug = s.life.debug ∧ t.mode = s.mode)) ∧
    (stewardBusy s = true → exec (.debugResponse p q k) s = .next { s with envelopes := s.envelopes ++ [{ port := p, seq := q, work := .token k }] }))

/-- For SIGNED_ADMIN and OWNER_SIGNED alike, with no other command waiting that the steward takes up instead: where the envelope is not accepted, or its form is wrong, MOD_OWNER_SEQ and the owner's command stay as they were. (R121, R165) -/
def Obligations.envelope_consumes_sequence : Prop :=
  ∀ (s t : State) (p : PortId) (q : BitVec 16) (env : Envelope), (envelopeForm env = false ∨ envelopeAccepted s env = false) → s.envelopes = [] ∨ stewardBusy s = true →
    (exec (.signedAdmin p q env) s = .next t ∨ exec (.ownerSigned p env) s = .next t) →
    t.backup = s.backup ∧ t.owner = s.owner

/-- DEVICE_STAGE without flags leaves its entries in the device stage, a port share moved to 1 to 1,021, with DISCARD it empties the stage, and with COMMIT and every check passed it arms it; DRAFT_WRITE of a draft that passes, to a slot that is not threaded, writes that slot and leaves the other; DRAFT_SELECT of slot 0 or 1 sets the selection. Each then answers OK and changes nothing else. (R91, R100, R101, R104, R166) -/
def Obligations.owner_device_draft_completes : Prop :=
  ∀ (s : State) (fl : Word) (sum : BitVec 16) (es : List (Word × Word)) (slot : Byte) (d : Draft), es.length ≤ 4096 → (∀ e ∈ es, deviceOffset e.1.toNat = true) →
    (OwnerRuns s (.deviceStage 0 sum es) → s.device.armed = false →
      ∃ t, exec .deviceStage s = .next t ∧ OwnerEnds s t .ok ∧ SameButAnswer { s with device := t.device } t ∧ t.device.armed = false ∧
        (∀ v, es = [(0x10018, v)] → deviceEntry t 0x10018 =
          some (BitVec.ofNat 32 (min 1021 (max 1 (v.toNat / 65536 % 2048)) * 65536 + min 1021 (max 1 (v.toNat % 2048))))) ∧
        (∀ v, es = [(0x50000C, v)] → deviceEntry t 0x50000C = some v)) ∧
    (OwnerRuns s (.deviceStage fl sum es) → fl = 2 →
      ∃ t, exec .deviceStage s = .next t ∧ OwnerEnds s t .ok ∧ t.device.entries = [] ∧ t.device.armed = false ∧ SameButAnswer { s with device := t.device } t) ∧
    (OwnerRuns s (.deviceStage fl sum es) → fl = 1 → deviceCheck (es.foldl deviceWrite s) sum = 0 →
      ∃ t, exec .deviceStage s = .next t ∧ OwnerEnds s t .ok ∧ t.device.armed = true ∧ t.device.armedAt = s.clock ∧ t.device.code = 0 ∧ t.device.entries = (es.foldl deviceWrite s).device.entries ∧ SameButAnswer { s with device := t.device } t) ∧
    (OwnerRuns s (.draftWrite slot d) → slot.toNat ≤ 1 → slotThreaded s slot.toNat = false → draftWriteOk s d = true →
      ∃ t, exec .draftWrite s = .next t ∧ OwnerEnds s t .ok ∧ SameButAnswer { s with flash := t.flash } t ∧
        t.flash = (if slot = 0 then { s.flash with slotA := some d } else { s.flash with slotB := some d })) ∧
    (OwnerRuns s (.draftSelect slot) → slot.toNat ≤ 1 →
      ∃ t, exec .draftSelect s = .next t ∧ OwnerEnds s t .ok ∧ SameButAnswer { s with flash := t.flash } t ∧ t.flash = { s.flash with select := slot.toNat })

/-- HOLD in Idle or a Serve mode enters Hold with CAUSE 5 and answers OK; HOLD_RELEASE in that Hold waits for the beat; RETHREAD in Idle or a Serve mode enters Hold with CAUSE 6 and begins; RETHREAD_DRAIN_DONE, with nothing in service, begins to read the draft named. LAST_MODE is the mode left. (R50, R51, R93) -/
def Obligations.owner_hold_completes : Prop :=
  ∀ (s : State) (src : Byte) (o : OwnerCommand),
    (OwnerRuns s .hold → isIdleServe s.mode.base = true →
      ∃ t, exec .hold s = .next t ∧ OwnerEnds s t .ok ∧ t.mode.base = .hold ∧ t.mode.cause = 5 ∧ t.mode.last = modeCode s.mode.base ∧ t.slices = s.slices ∧ t.heddle = s.heddle) ∧
    (OwnerRuns s .holdRelease → s.mode.base = .hold → s.mode.cause = 5 → s.power.plan ≠ .wakeOnly →
      ∃ t, exec .holdRelease s = .next t ∧ t.mode = { s.mode with releasing := true } ∧ t.owner = s.owner.map fun o => { o with started := true }) ∧
    (OwnerRuns s (.rethread src) → src.toNat ≤ 2 → isIdleServe s.mode.base = true →
      ∃ t, exec .rethread s = .next t ∧ t.mode.base = .hold ∧ t.mode.cause = 6 ∧ t.mode.last = modeCode s.mode.base ∧ t.owner = s.owner.map fun o => { o with started := true }) ∧
    (s.owner = some o → o.operand = .rethread src → o.started = true → s.mode.base = .hold → (∀ i ∈ s.heddle.items, i.place ≠ .inService) →
      holdStands s = false → s.power.plan ≠ .wakeOnly →
      ∃ t, exec .rethreadDrainDone s = .next t ∧ t.mode.base = .threading ∧ t.mode.cause = 6 ∧
        t.mode.threading = .reading (if src = 2 then s.flash.select else src.toNat) false true ∧ t.slices = s.slices ∧ t.runs = s.runs)

/-- TAMPER_CLEAR clears the named flags that stood, of inactive sources, when it was accepted, with a quorum where a HALT or ZEROIZE class is among those named; TAMPER_FUSE with a quorum disables its source for good and clears its flag; CAL_WRITE in Hold of an owner's set that reads back replaces the set in flash. Each answers OK; without its quorum TAMPER_CLEAR and TAMPER_FUSE answer KEY_POLICY and change no flag and no fuse. (R479, R483, R509) -/
def Obligations.owner_tamper_cal_completes : Prop :=
  ∀ (s : State) (m : Word) (b : Byte) (c : Bytes) (o : OwnerCommand),
    (OwnerRuns s (.tamperClear m) → ((∀ i : SourceId, m.getLsbD i.val = true → classOf s i < 2) ∨ quorumStands s = true) →
      ∃ t, exec .tamperClear s = .next t ∧ OwnerEnds s t .ok ∧ t.tamper = s.tamper ∧ t.fuses = s.fuses ∧
        ∀ i : SourceId, s.owner = some o → t.backup.sticky.getLsbD i.val = (s.backup.sticky.getLsbD i.val && !(m.getLsbD i.val && o.clears.getLsbD i.val))) ∧
    (OwnerRuns s (.tamperClear m) → (∃ i : SourceId, m.getLsbD i.val = true ∧ 2 ≤ classOf s i) → quorumStands s = false →
      ∃ t, exec .tamperClear s = .next t ∧ OwnerEnds s t .keyPolicy ∧ t.backup.sticky = s.backup.sticky ∧ t.fuses = s.fuses) ∧
    (OwnerRuns s (.tamperFuse b) → b.toNat < 24 → b.toNat ≠ 19 → quorumStands s = true →
      ∃ t, exec .tamperFuse s = .next t ∧ OwnerEnds s t .ok ∧ t.fuses.fused.getLsbD b.toNat = true ∧
        (s.fuses.fused.getLsbD b.toNat = false → t.backup.sticky.getLsbD b.toNat = false) ∧
        ∀ k, k ≠ b.toNat → t.fuses.fused.getLsbD k = s.fuses.fused.getLsbD k) ∧
    (OwnerRuns s (.tamperFuse b) → quorumStands s = false →
      ∃ t, exec .tamperFuse s = .next t ∧ OwnerEnds s t .keyPolicy ∧ t.fuses = s.fuses ∧ t.backup.sticky = s.backup.sticky) ∧
    (s.owner = some o → o.started = false → o.operand = .calWrite c → s.mode.base = .hold → calOk s.fuses.serial c = true → calOrigin c = 1 → calSeq c = o.seq →
      ∃ t, exec (.calWrite true) s = .next t ∧ OwnerEnds s t .ok ∧ t.flash.cal = some c)

/-- LC_ADVANCE in Hold, with debug off, a quorum and a target of 3, 4 or 5 above the state (3 from Provisioned), begins the transition and burns nothing; without the quorum it answers KEY_POLICY. LC_TRANSITION_DONE burns the groups up to the target, and for Analysis or Scrapped leaves no slice, key, chest, tally record or owner record. (R528, R529) -/
def Obligations.life_cycle_completes : Prop :=
  ∀ (s : State) (b : Byte) (tr : Transition),
    (OwnerRuns s (.lcAdvance b) → s.mode.base = .hold → s.life.debug = false → 3 ≤ b.toNat → b.toNat ≤ 5 → s.life.state < b.toNat → (b.toNat = 3 → s.life.state = 2) → quorumStands s = true →
      ∃ t, exec .lcAdvance s = .next t ∧ t.life.transition = some { target := b.toNat, byToken := none } ∧ t.fuses = s.fuses ∧ t.life.state = s.life.state ∧ t.slices = s.slices) ∧
    (OwnerRuns s (.lcAdvance b) → quorumStands s = false →
      ∃ t, exec .lcAdvance s = .next t ∧ OwnerEnds s t .keyPolicy ∧ t.life = s.life ∧ t.fuses = s.fuses) ∧
    (s.life.transition = some tr → s.life.state ≤ tr.target → tr.target ≤ 5 →
      ∃ t, exec .lcTransitionDone s = .next t ∧ t.life.transition = none ∧ t.life.state = tr.target ∧
        s.fuses.otp &&& t.fuses.otp = s.fuses.otp ∧ (∀ k, 4 * s.life.state ≤ k → k < 4 * tr.target → t.fuses.otp.getLsbD k = true) ∧
        (tr.target ≠ 3 → t.slices = [] ∧ t.runs = [] ∧ t.backup.chest = {} ∧ t.flash.tally = [] ∧ t.flash.ownerRecord = []))

/-- TAMPER_FIRE makes the sources that qualify active; in native mode each sets its sticky flag. TWICE_DECIDED_SECOND closes its pair and sets the flag of every source of the pair that qualifies again. SOURCE_GOES_INACTIVE clears the source's active bit and no flag. TAMPER_STIMULUS opens the window, and STIMULUS_WINDOW_END of a source that responded and is quiet closes it and clears STIM_FAIL. CELL_WINDOW on the cell sets the sticky flags of the cell's live sources it finds, and clears the chest only for a ZEROIZE class; a cell found below its low threshold loses the backup domain. TAMPER_REPEAT of an active source, with its record in the mirror and no event of its number waiting, adds one to the newest such record's repeats and changes no flag, class or mode. (R24, R465, R468, R470, R474, R476, R482, R518) -/
def Obligations.tamper_completes : Prop :=
  (∀ (s : State) (f : Firing) (src : SourceId) (k : Nat) (d : DecisionPair) (q l : List SourceId),
    (s.mode.base ≠ .dormant → s.fuses.fused.getLsbD f.source.val = false → s.tamper.active.getLsbD f.source.val = false → s.tamper.stimulus ≠ some f.source →
      senses s f = true → compatOn s = false →
      ∃ t, exec (.tamperFire ⟨[f], []⟩) s = .next t ∧ t.tamper.active.getLsbD f.source.val = true ∧ t.backup.sticky.getLsbD f.source.val = true) ∧
    (s.mode.base ≠ .dormant → s.tamper.pairs[k]? = some d →
      ∃ t, exec (.twiceDecidedSecond k q) s = .next t ∧ t.tamper.pairs = s.tamper.pairs.eraseIdx k ∧
        ∀ x ∈ d.firings, q.contains x.1.source = true → s.fuses.fused.getLsbD x.1.source.val = false → t.backup.sticky.getLsbD x.1.source.val = true) ∧
    (s.mode.base ≠ .dormant →
      ∃ t, exec (.sourceGoesInactive src) s = .next t ∧ t.tamper.active = setBit s.tamper.active src.val false ∧ t.backup.sticky = s.backup.sticky ∧ t.tamper.classes = s.tamper.classes) ∧
    (s.mode.base ≠ .dormant → s.fuses.fused.getLsbD src.val = false → s.tamper.stimulus = none →
      exec (.tamperStimulus src) s = .next { s with tamper := { s.tamper with stimulus := some src, heldAlarm := false } }) ∧
    (s.mode.base ≠ .dormant → s.fuses.fused.getLsbD src.val = false → s.tamper.stimulus = some src → s.tamper.heldAlarm = false →
      ∃ t, exec (.stimulusWindowEnd src true false) s = .next t ∧ t.tamper.stimulus = none ∧ t.tamper.stimFail = setBit s.tamper.stimFail src.val false ∧ t.backup.sticky = s.backup.sticky) ∧
    (cellFeeds s = true → (3 : SourceId) ∈ l →
      ∃ t, exec (.cellWindow l) s = .next t ∧ t.backup.chest = {} ∧ t.backup.sticky = 0 ∧ t.backup.wasLost = true) ∧
    (cellFeeds s = true → (3 : SourceId) ∉ l →
      ∃ t, exec (.cellWindow l) s = .next t ∧
        (∀ i : SourceId, i ∈ l → cellSource i = true → s.fuses.fused.getLsbD i.val = false → s.backup.active.getLsbD i.val = false → t.backup.sticky.getLsbD i.val = true) ∧
        (∀ i : SourceId, s.backup.sticky.getLsbD i.val = true → t.backup.sticky.getLsbD i.val = true) ∧
        ((∀ i : SourceId, cellClass s i ≠ 3) → t.backup.chest = s.backup.chest))) ∧
  (∀ (s : State) (src : SourceId) (r : LogRecord), s.mode.base ≠ .dormant → s.fuses.fused.getLsbD src.val = false → s.tamper.active.getLsbD src.val = true →
    latching s = false → (∀ e ∈ s.log.queue, e.event ≠ 0xC0 + src.val) → newestOf (0xC0 + src.val) s.log.records = some r →
    ∃ t, exec (.tamperRepeat src) s = .next t ∧ t = { s with log := { s.log with records := t.log.records } } ∧
      t.log.records = s.log.records.map fun x => if x.seq == r.seq then { x with repeats := min 65535 (x.repeats + 1), last := s.log.seconds } else x)

/-- EVENT_LOG takes the oldest event of the queue; LOG_RECORD_DURABLE puts a record of the mirror into flash and marks it durable; LOG_REPEAT_FLUSH, 10 s after the record's last write, brings a durable record's repeats and last seconds to flash; SECONDS_CHECKPOINT writes the seconds; BACKUP_CELL_LOSS on main power leaves the chest and in Dormant loses it. (R23, R24, R516, R517, R519) -/
def Obligations.logbook_completes : Prop :=
  ∀ (s : State) (e : Event) (rest : List Event) (r : LogRecord), 
    (s.mode.base ≠ .dormant → latching s = false → s.log.queue = e :: rest →
      ∃ t, exec .eventLog s = .next t ∧ t.log.queue = rest ∧ t = { s with log := t.log, flash := t.flash } ∧
        (newestOf e.event s.log.records = none → s.log.records.length < 4096 →
          ∃ x, t.log.records = s.log.records ++ [x] ∧ x.event = e.event ∧ x.severity = e.severity ∧ x.detail = e.detail ∧ x.first = e.time ∧ x.last = e.time ∧ x.seq = s.flash.logSeq + 1 ∧ t.flash.logSeq = s.flash.logSeq + 1)) ∧
    (s.mode.base ≠ .dormant → s.faults.flashFenced = false → s.mode.stewardLost = false → (s.log.records.find? fun x => x.seq == r.seq && !x.durable) = some r →
      ∃ t, exec (.logRecordDurable r.seq) s = .next t ∧ t = { s with log := t.log, flash := t.flash } ∧
        { r with durable := true, flashRepeats := r.repeats, flashLast := r.last, flushed := s.log.seconds } ∈ t.flash.logRecords ∧
        { r with durable := true, flashRepeats := r.repeats, flashLast := r.last, flushed := s.log.seconds } ∈ t.log.records ∧ t.log.queue = s.log.queue) ∧
    (s.mode.base ≠ .dormant → s.faults.flashFenced = false → s.mode.stewardLost = false → (s.log.records.find? fun x => x.seq == r.seq && x.durable && decide (x.flushed + 10 ≤ s.log.seconds)) = some r →
      ∃ t x, exec (.logRepeatFlush r.seq) s = .next t ∧ x ∈ t.flash.logRecords ∧ x.seq = r.seq ∧ x.repeats = r.repeats ∧ x.flashRepeats = r.repeats ∧ x.flashLast = r.last) ∧
    (s.mode.base ≠ .dormant → s.faults.flashFenced = false → exec .secondsCheckpoint s = .next { s with flash := { s.flash with secondsMark := s.log.seconds } }) ∧
    (∃ t, exec .backupCellLoss s = .next t ∧ t.backup.cellOk = false ∧ (s.mode.base ≠ .dormant → t.backup = { s.backup with cellOk := false }) ∧
      (s.mode.base = .dormant → t.backup.chest = {} ∧ t.backup.wasLost = true))

/-- LINK_TRAINED brings up a fresh function, or changes the ceilings of a trained one; the configuration commands set and clear their bits, ATS_ENABLE_CLEAR empties the port's translation cache, ATS_INVALIDATION drops exactly the pages named and answers, at once where no read of the port is in flight, and not before the end of a ring read through such a page; BUS_MASTER_RESUME returns the function to D0. FUNCTION_LEVEL_RESET leaves no slice, queue or item of the port, closes its BARs and its requests and leaves its link trained; other ports' slices and queues stay; FUNCTION_LEVEL_RESET_END ends the reset and changes nothing else. (R113, R116, R117, R132, R135) -/
def Obligations.host_function_completes : Prop :=
  (∀ (s : State) (p : PortId) (gen : Nat) (single d3 enable ats g : Bool) (table : List MsixEntry) (pasid : Option (BitVec 20)) (a b : Nat),
    (s.mode.base ≠ .dormant → s.power.contracts[p.val].attached = true → s.power.plan ≠ .wakeOnly → 1 ≤ gen → gen ≤ 3 →
      ∃ t, exec (.linkTrained p gen single) s = .next t ∧ functionPresent t p = true ∧
        t.ports = s.ports.set p.val (if s.ports[p.val].trained = true then { s.ports[p.val] with gen := gen, singleLane := single }
          else { trained := true, gen := gen, singleLane := single })) ∧
    (configOpen s p = true →
      exec (.busMasterDisable p d3) s = .next (modPort p (fun x => if d3 = true then { x with d3hot := true } else { x with bme := false }) s) ∧
      exec (.memorySpaceDisable p) s = .next (modPort p (fun x => { x with mse := false }) s) ∧
      exec (.atsEnableClear p) s = .next (modPort p (fun x => { x with atsEn := false, cache := [] }) s) ∧
      (∃ t, exec (.pasidEnableChange p enable) s = .next t ∧ t.ports[p.val].pasidEn = enable ∧ t.slices = s.slices ∧ t.runs = s.runs) ∧
      ((∀ e ∈ table, e.vector < 2048) → ∃ t, exec (.busMasterResume p ats table) s = .next t ∧ t.ports[p.val].bme = true ∧ t.ports[p.val].mse = true ∧ t.ports[p.val].d3hot = false ∧
        t.ports[p.val].msixEn = true ∧ t.ports[p.val].atsEn = ats ∧ t.ports[p.val].table = table ∧ t.ports[p.val].msixFnMask = false ∧ (ats = false → t.ports[p.val].cache = []) ∧
        t.slices = s.slices ∧ t.runs = s.runs)) ∧
    (functionPresent s p = true → s.ports[p.val].flr = false → a ≤ b → (∀ x : PortId, s.ports[x.val].drains = []) →
      ∃ t, exec (.atsInvalidation p pasid g a b) s = .next t ∧
        ((∀ q ∈ s.queues, q.port = p → q.reading = none) → (∀ i ∈ s.heddle.items, i.port = p → i.place = .inService → i.result.isSome = true) →
          t.out = s.out ++ [.atsDone p] ∧ t.ports[p.val].drains = []) ∧
        (∀ n c q, 0 < n → findQueue s p n = some q → q.reading = some c →
          (∃ k ∈ ringPages q c, a ≤ k ∧ k ≤ b ∧ invalidates s p pasid g q.slice = true ∧ translated s p q.slice k = true) → t.out = s.out) ∧
        t.ports[p.val].cache = s.ports[p.val].cache.filter (fun x => !(decide (a ≤ x.page) && decide (x.page ≤ b) && invalidates s p pasid g x.slice)) ∧
        t = { s with out := t.out, ports := t.ports, heddle := { s.heddle with items := t.heddle.items } })) ∧
  (∀ (s : State) (p : PortId),
    (configOpen s p = true →
      ∃ t, exec (.functionLevelReset p) s = .next t ∧ t.ports[p.val].flr = true ∧ t.ports[p.val].trained = true ∧ t.ports[p.val].mse = false ∧
        t.ports[p.val].bme = false ∧ t.ports[p.val].trace.enabled = false ∧ t.ports[p.val].admin.entry = none ∧
        t.slices = s.slices.filter (fun x => !(x.port == p)) ∧ (∀ i ∈ t.heddle.items, i.port ≠ p) ∧
        t.queues.map (fun q => (q.port, q.qnum)) = (s.queues.filter fun q => !(q.port == p)).map (fun q => (q.port, q.qnum))) ∧
    exec (.functionLevelResetEnd p) s = .next (modPort p (fun x => { x with flr := false }) s))

/-- DOORBELL_WRITE sets TAIL of a standard queue; EXPRESS_DOORBELL starts a scan, or sets the rescan flag during one and while frozen; ADMIN_DOORBELL starts the admin scan, whose read is of one entry; ADMIN_QUEUE_ENABLE enables a queue of legal form and leaves code 3 for another; ADMIN_QUEUE_DISABLE with no entry held disables it; POLL_TICK reads 1 to 32 entries from HEAD under the slice's PASID. A write that is no dword at a multiple of 8 is no doorbell. (R115, R125, R138, R144, R145, R146, R148, R168) -/
def Obligations.doorbells_complete : Prop :=
  ∀ (s : State) (p : PortId) (i : SliceIdx) (k off size : Nat) (v : Word) (q : Queue), k < 512 → off + size ≤ 1048576 → 0 < size →
    (size ≠ 4 ∨ off % 8 ≠ 0 → WriteReaches s p →
      exec (.doorbellWrite p off size v) s = .next s ∧ exec (.expressDoorbell p off size) s = .next s) ∧
    (WriteReaches s p → findLocalQueue s p i.val k = some q →
      (q.express = false → exec (.doorbellWrite p (4096 * i.val + 8 * k) 4 v) s = .next (modQueue p q.qnum (fun q => { q with tail := v.setWidth 17 }) s)) ∧
      (q.express = true → q.state ≠ .error → q.scanning = true ∨ q.state = .frozen →
        exec (.expressDoorbell p (4096 * i.val + 8 * k) 4) s = .next (modQueue p q.qnum (fun q => { q with rescan := true }) s)) ∧
      (q.express = true → q.state = .active → q.scanning = false →
        ∃ t, exec (.expressDoorbell p (4096 * i.val + 8 * k) 4) s = .next t ∧ t = { s with queues := t.queues, out := t.out } ∧
          ∀ x ∈ t.queues, x.port = p → x.qnum = q.qnum → x.scanning = true)) ∧
    (WriteReaches s p → s.ports[p.val].admin.enable = true → s.ports[p.val].admin.error = false →
      (s.ports[p.val].admin.scanning = true → exec (.adminDoorbell p) s = .next (modAdmin p (fun a => { a with rescan := true }) s)) ∧
      (s.ports[p.val].admin.scanning = false → s.ports[p.val].admin.reading = false → mayFetchAdmin s p = true →
        ∃ t, exec (.adminDoorbell p) s = .next t ∧ t.ports[p.val].admin.reading = true ∧ t.ports[p.val].admin.scanning = true ∧
          Tx.ringRead p none 0 (s.ports[p.val].admin.head.toNat % 2 ^ s.ports[p.val].admin.log2) 1 ∈ t.out)) ∧
    (WriteReaches s p → s.ports[p.val].admin.enable = false → v.getLsbD 31 = true →
      ∃ t, exec (.adminQueueEnable p v) s = .next t ∧ t = { s with ports := t.ports } ∧
        t.ports[p.val].admin.log2 = fieldOf v 0 5 ∧ t.ports[p.val].admin.vector = fieldOf v 16 11 ∧
        t.ports[p.val].admin.enable = ringOk (fieldOf v 0 5) s.ports[p.val].admin.base ∧
        (ringOk (fieldOf v 0 5) s.ports[p.val].admin.base = true → t.ports[p.val].admin.head = 0 ∧ (s.ports[p.val].admin.error = false → t.ports[p.val].admin.err = 0)) ∧
        t.ports[p.val].admin.error = s.ports[p.val].admin.error ∧
        (ringOk (fieldOf v 0 5) s.ports[p.val].admin.base = false → t.ports[p.val].admin.err = 3)) ∧
    (WriteReaches s p → s.ports[p.val].admin.entry = none →
      exec (.adminQueueDisable p) s = .next (modAdmin p (fun a => { a with enable := false, scanning := false, rescan := false, reading := false }) s)) ∧
    (∀ n, 0 < n → n < 1024 → findQueue s p n = some q → q.express = false → q.reading = none → mayFetch s q = true →
      ∃ t c asks, exec (.pollTick p n) s = .next t ∧ 1 ≤ c ∧ c ≤ 32 ∧ t.out = s.out ++ asks ++ [.ringRead p (slicePasid s p q.slice) n (headIndex q) c] ∧
        (s.ports[p.val].atsEn = false → asks = []) ∧ t = { s with queues := t.queues, out := t.out })

/-- RING_READ_COMPLETE of a work queue's read with an entry that the module owns takes the entry: HEAD and OWN_COUNT rise by one and one item with the next number and this entry is on the module; a denied read puts the queue into Error with code 1. Of the admin queue's read it takes the entry as the port's one admin entry, and one of wrong form ends with OP_UNSUPPORTED. (R140, R143, R145, R146, R148, R150, R160) -/
def Obligations.ring_read_completes : Prop :=
  ∀ (s : State) (p : PortId) (n c : Nat) (q : Queue) (f : Fetched), IdsApart s → 0 < n → n < 1024 →
    (findQueue s p n = some q → q.reading = some c → q.state ≠ .error →
      ∃ t y, exec (.ringReadComplete p n .denied) s = .next t ∧ t.heddle = s.heddle ∧ findQueue t p n = some y ∧ y.state = .error ∧ y.err = 1 ∧
        y.reading = none ∧ y.head = q.head) ∧
    (findQueue s p n = some q → q.reading = some 1 → mayFetch s q = true → ownBit f.entry = true → ownedIndex s q (headIndex q) = false →
      ∃ t y j, exec (.ringReadComplete p n (.data [f])) s = .next t ∧ findQueue t p n = some y ∧ y.head = q.head + 1 ∧ y.owned = q.owned + 1 ∧
        j ∈ t.heddle.items ∧ j.id = s.heddle.nextId ∧ j.entry = f.entry ∧ j.port = p ∧ j.qnum = n ∧ j.index = headIndex q ∧ t.heddle.nextId = s.heddle.nextId + 1) ∧
    (s.ports[p.val].admin.reading = true → mayFetchAdmin s p = true → ownBit f.entry = true →
      ∃ t x, exec (.ringReadComplete p 0 (.data [f])) s = .next t ∧ t.ports[p.val].admin.entry = some x ∧ x.entry = f.entry ∧
        x.index = s.ports[p.val].admin.head.toNat % 2 ^ s.ports[p.val].admin.log2 ∧ t.ports[p.val].admin.head = s.ports[p.val].admin.head + 1 ∧
        (adminForm f.entry = false → ∃ d, x.done = some d ∧ d.status = .opUnsupported))

/-- SEED_WAIT_TIMEOUT, before the first seeding, of an item that waits for seeds, or is parked and draws, on a port that is not stopped, ends it with ENTROPY_WAIT_TIMEOUT and no output; an admin command that waits for seeds ends so too, and a waiting debug challenge is answered so. After the first seeding, and for an item or admin command of a port whose Bus Master Enable is clear or that is in D3hot, it does nothing. (R73, R116) -/
def Obligations.seed_wait_completes : Prop :=
  ∀ (s : State) (id : Nat) (i : Item) (p : PortId) (x : AdminEntry) (q : BitVec 16), IdsApart s →
    (s.mode.seeded = true → exec (.seedWaitTimeout id) s = .next s) ∧
    (s.mode.seeded = false → findItem s id = some i →
      (portStopped s i.port = true → exec (.seedWaitTimeout id) s = .next s) ∧
      (portStopped s i.port = false → i.place = .seedWait ∨ (i.place = .parked ∧ needsRandom s i = true) →
        ∃ t, exec (.seedWaitTimeout id) s = .next t ∧ Ended t id .entropyWaitTimeout)) ∧
    (s.mode.seeded = false → findItem s id = none → adminWith s id = some (p, x) → x.wait = .seed →
      (portStopped s p = true → exec (.seedWaitTimeout id) s = .next s) ∧
      (portStopped s p = false →
        ∃ t, exec (.seedWaitTimeout id) s = .next t ∧ AdminEnds t p .entropyWaitTimeout 0 ∧ SameButAnswer s t)) ∧
    (s.mode.seeded = false → findItem s id = none → adminWith s id = none → (s.life.challenges.find? fun c => c.1 == id) = some (id, p, q) →
      ∃ t, exec (.seedWaitTimeout id) s = .next t ∧ t.out = s.out ++ [.usb p 0x0030 q .entropyWaitTimeout []] ∧
        t = { s with out := t.out, life := { s.life with challenges := s.life.challenges.filter fun c => !(c.1 == id) } })

/-- ENGINE_ASK of an engine that may ask, alone in its heddle cycle: where the heddle has a choice for it and nothing ends that item at its grant, the item is in service on the engine and the engine no longer asks; with no choice the engine waits. TRESTLE_YIELD_ASK suspends the long job for a chosen short one. Dimming a loom changes its flag alone, besides the event; restoring it lets waiting items be tried again. (R177, R178, R179, R186, R349) -/
def Obligations.dispatch_completes : Prop :=
  ∀ (s : State) (e : Engine) (tr : TrestleId) (n : LoomId) (c : SvcClass) (i long : Item) (r : Nat) (m a : Rat), IdsApart s →
    (mayAsk s e = true → isServe s.mode.base = true → s.heddle.asking = [] → engineClass s e = some c → bobbinFailed s = false →
      (choose { s with heddle := { s.heddle with asking := [e] } } e [] (fun _ => true) = some (i, r) →
        grantBar { s with heddle := { s.heddle with asking := [e] } } i = none →
        ∃ t, exec (.engineAsk e []) s = .next t ∧ InServiceOn t i.id e ∧ e ∉ t.heddle.asking) ∧
      (choose { s with heddle := { s.heddle with asking := [e] } } e [] (fun _ => true) = none →
        ∃ t, exec (.engineAsk e []) s = .next t ∧ t.heddle.asking = [e])) ∧
    (isServe s.mode.base = true → yieldingJob s tr = some long → s.heddle.asking = [] → bobbinFailed s = false →
      choose s (.trestle tr) [] (isShort s) = some (i, r) → grantBar s i = none →
      ∃ t, exec (.trestleYieldAsk ⟨tr, []⟩) s = .next t ∧ InServiceOn t i.id (.trestle tr) ∧
        ∃ j ∈ t.heddle.items, j.id = long.id ∧ j.suspended = true) ∧
    (benchMedian s (benchOf n) = some m → s.looms[n.val].average = some a → s.looms[n.val].dimmed = false → ((heddleSection s).dimThresh : Rat) * m < 64 * a →
      exec (.loomDim n) s = .next (raise0 (2 * n.val + 1) (modLoom n (fun l => { l with dimmed := true }) s))) ∧
    (benchMedian s (benchOf n) = some m → s.looms[n.val].average = some a → s.looms[n.val].dimmed = true → 8 * a ≤ 9 * m →
      exec (.loomRestore n) s = .next (settleAfterLeave (modLoom n (fun l => { l with dimmed := false }) s)))

/-- COMMIT of the item that runs on an engine, on a loom once its words have reached COMMIT, within its entry's WATCHDOG, with an output buffer free and its own check passed where it makes one, ends it: its completion names the engine and the cycles; a result without acts, with no tally write to wait for, is its completion word for word, and a new key of its reservation is live with its kind, family, policy and content. On a loom a COMMIT past WATCHDOG, a watchdog expiry and a routine error end the item with UNIT_FAULT and no output; one whose own check failed restarts away from its unit, and a loom's and a trestle's counts a mismatch; one with output while both buffers are taken waits. (R210, R218, R235, R237, R249, R329, R353) -/
def Obligations.commit_completes : Prop :=
  ∀ (s : State) (e : Engine) (cycles k : Nat) (i : Item) (r : ItemResult) (n : LoomId), IdsApart s →
    (Commits s e cycles i r k →
      ∃ t j, exec (.commit e cycles) s = .next t ∧ j ∈ t.heddle.items ∧ j.id = i.id ∧ j.place = .done ∧ j.cycles = k ∧ j.doneEngine = engineCode e i.trestle ∧
        (r.acts = [] → waitsTally s i.id = false → j.done = some { status := r.status, outputLen := r.output.length, output := r.output, result := r.word })) ∧
    (∀ kind fam set pol content (v : KeyRun), Commits s e cycles i r k → r.acts = [.run kind fam set pol content 0 false] → reservedRun s i.id = some v →
      (∀ x ∈ s.runs, x.claimed = none ∧ x.deleting = none) →
      ∃ t x, exec (.commit e cycles) s = .next t ∧ x ∈ t.runs ∧ x.port = v.port ∧ x.slice = v.slice ∧ x.first = v.first ∧ x.state = .live ∧
        x.kind = kind ∧ x.family = fam ∧ x.set = set ∧ x.policy = pol ∧ x.content = content) ∧
    (servingOn s (.loom n) = some i → sequenced n i s = true → s.looms[n.val].core.atCommit = false →
      exec (.commit (.loom n) cycles) s = .next s) ∧
    (servingOn s (.loom n) = some i →
      (∀ c, c = Instr.watchdogExpiry (.loom n) ∨ c = Instr.routineError (.loom n) → ∃ t, exec c s = .next t ∧ Ended t i.id .unitFault) ∧
      (AtCommit s n cycles i r k →
        (pastWatchdog s n i k = true → ∃ t, exec (.commit (.loom n) cycles) s = .next t ∧ Ended t i.id .unitFault) ∧
        (pastWatchdog s n i k = false → bufferHeld s n = true → r.output ≠ [] → exec (.commit (.loom n) cycles) s = .next s) ∧
        (pastWatchdog s n i k = false → bufferHeld s n = false → selfChecked (famOf i.entry) (opOf i.entry) = true → r.verifyOk = false → loomFenced s n = false →
          ∃ t, exec (.commit (.loom n) cycles) s = .next t ∧ t.looms[n.val].mismatch = min 255 (s.looms[n.val].mismatch + 1) ∧
            ∀ j ∈ t.heddle.items, j.id = i.id → j.place ≠ .inService))) ∧
    (i.result = some r →
      (∀ tr : TrestleId, servingOn s (.trestle tr) = some i → r.trestleOk = false →
        ∃ t, exec (.commit (.trestle tr) cycles) s = .next t ∧ t.trestles[tr.val].mismatch = min 255 (s.trestles[tr.val].mismatch + 1)) ∧
      (∀ u : SelvId, servingOn s (.selvedge u) = some i → r.verifyOk = false → i.faultRestarts = 0 →
        ∃ t j, exec (.commit (.selvedge u) cycles) s = .next t ∧ j ∈ t.heddle.items ∧ j.id = i.id ∧ j.place = .ready ∧ .selvedge u ∈ j.excluded ∧ j.faultRestarts = 1 ∧
          t.selvs[u.val].mismatch = s.selvs[u.val].mismatch))

/-- COMPLETION_WRITE of an ended item that may be written, with no write denied: the output when there is one, the completion record, and dword 0 are sent in this order before anything else, each in the address space of its slice, the item leaves and OWN_COUNT falls; the bytes are the result's where the output range overlaps no other buffer. The same for an admin entry. COALESCE_TIMEOUT of a queue with a count sends the queue's one message, at the address and with the data of its vector's table entry. (R115, R125, R142, R152, R155, R158) -/
def Obligations.completion_write_completes : Prop :=
  ∀ (s : State) (id : Nat) (i : Item) (d : Done) (p : PortId) (x : AdminEntry) (q : Queue) (n : Nat) (w : WriteBack) (m : MsixEntry), IdsApart s →
    w = { outputUe := false, outputDenied := false, ringDenied := false } →
    (findItem s id = some i → i.done = some d → portMoves s i.port = true → flowHeld s i = false →
      ∃ t asks bytes rest, exec (.completionWrite id w) s = .next t ∧ (∀ j ∈ t.heddle.items, j.id ≠ id) ∧
        (s.ports[i.port.val].atsEn = false ∨ i.retranslate = false → asks = []) ∧
        bytes.length = d.output.length ∧ (outputOverlaps s i d.output.length = false → bytes = d.output) ∧
        t.out = s.out ++ asks ++ (if d.output = [] then [] else [Tx.output i.port (slicePasid s i.port i.slice) (outputAddr i.entry) bytes]) ++
          [.completion i.port (slicePasid s i.port i.slice) i.qnum i.index
            (completionRecord d.outputLen i.cycles i.doneEngine i.faultRestarts d.result (userTag i.entry)),
           .dword0 i.port (slicePasid s i.port i.slice) i.qnum i.index (recordDword0 d.status i.restarts)] ++ rest) ∧
    (findItem s id = none → adminWith s id = some (p, x) → x.done = some d → portMoves s p = true →
      ∃ t bytes rest, exec (.completionWrite id w) s = .next t ∧
        bytes.length = d.output.length ∧ (adminOverlaps s p x.entry d.output.length = false → bytes = d.output) ∧
        t.out = s.out ++ (if d.output = [] then [] else [Tx.output p none (outputAddr x.entry) bytes]) ++
          [.completion p none 0 x.index (completionRecord d.outputLen 0 0x7000 0 d.result (userTag x.entry)), Tx.dword0 p none 0 x.index (recordDword0 d.status 0)] ++ rest) ∧
    (0 < n → n < 1024 → findQueue s p n = some q → q.counted ≠ 0 → portMoves s p = true → s.ports[p.val].msixEn = true → s.ports[p.val].msixFnMask = false →
      (s.ports[p.val].table.find? fun e => e.vector == q.vector && !e.masked) = some m →
      exec (.coalesceTimeout p n) s = .next (emit (.msix p q.vector m.address m.data) (modQueue p n (fun y => { y with counted := 0 }) s)))

/-- VERIFY_MISMATCH and DUPLICATE_ROUND_MISMATCH on a loom in service that is not fenced clear its expansion cache and count, and the second fences it; on a selvedge unit alike, whose fence is the unit's bit, and on a trestle, which has no cache. Where the trestle's own check and the verify pass fail in one item, it restarts once, away from both. Each reports its source. (R199, R219, R286, R331, R353) -/
def Obligations.checkers_complete : Prop :=
  ∀ (s : State) (n : LoomId) (u : SelvId) (tr : TrestleId) (lane : Option (Fin 8)) (i : Item), IdsApart s →
    (servingOn s (.loom n) = some i → loomFenced s n = false → ∀ c, c = Instr.verifyMismatch n ⟨lane, false⟩ ∨ c = Instr.duplicateRoundMismatch (.loom n) →
      ∃ t, exec c s = .next t ∧ t.looms[n.val].cache = [] ∧ t.looms[n.val].mismatch = min 255 (s.looms[n.val].mismatch + 1) ∧
        (1 ≤ s.looms[n.val].mismatch → loomFenced t n = true) ∧ Reported t n.val) ∧
    (servingOn s (.loom n) = some i → i.trestle = some tr → i.faultRestarts = 0 →
      ∃ t j, exec (.verifyMismatch n ⟨lane, true⟩) s = .next t ∧ j ∈ t.heddle.items ∧ j.id = i.id ∧ j.place = .ready ∧ .loom n ∈ j.excluded ∧ .trestle tr ∈ j.excluded ∧
        j.faultRestarts = 1 ∧ t.looms[n.val].mismatch = min 255 (s.looms[n.val].mismatch + 1) ∧ t.trestles[tr.val].mismatch = min 255 (s.trestles[tr.val].mismatch + 1) ∧
        Reported t n.val ∧ Reported t (80 + tr.val)) ∧
    (servingOn s (.selvedge u) = some i → s.faults.selv.getLsbD u.val = false →
      ∃ t, exec (.duplicateRoundMismatch (.selvedge u)) s = .next t ∧ t.selvs[u.val].cache = [] ∧ t.selvs[u.val].mismatch = min 255 (s.selvs[u.val].mismatch + 1) ∧
        (1 ≤ s.selvs[u.val].mismatch → t.faults.selv.getLsbD u.val = true) ∧ Reported t (88 + u.val)) ∧
    (activeJob s tr = some i →
      ∃ t, exec (.trestleSelfCheckMismatch tr) s = .next t ∧ t.trestles[tr.val].mismatch = min 255 (s.trestles[tr.val].mismatch + 1) ∧
        (1 ≤ s.trestles[tr.val].mismatch → t.faults.trestle.getLsbD tr.val = true) ∧ Reported t (80 + tr.val))

/-- CORRECTABLE_ERROR and a parity error whose repeat passes count one and report their source, and no item, unit, mode or key changes. UNCORRECTABLE_ERROR fences the loom store's loom, the clock's bench and the shuttle's function, damages the chest word and ends the digest slot's slot; a parity error that repeats is the receiver's. LOCKSTEP_MISMATCH and HEARTBEAT_TIMEOUT lose the steward with their trigger and end the owner's command. (R59, R370, R393, R487, R490, R491, R493, R496, R497) -/
def Obligations.errors_complete : Prop :=
  ∀ (s : State) (src : Fin 104) (r : UeReport) (n : LoomId) (b : BenchId) (p : PortId) (d : DigestSlot), s.mode.base ≠ .dormant →
    (∀ c, c = Instr.correctableError src ∨ c = Instr.fabricParityError r src false →
      ∃ t, exec c s = .next t ∧ t.faults.ceCount = min 4294967295 (s.faults.ceCount + 1) ∧ Reported t src.val ∧
        t = { s with faults := t.faults, cabinet := t.cabinet, log := t.log, backup := t.backup, flash := t.flash } ∧ t.backup.chest = s.backup.chest) ∧
    exec (.fabricParityError r src true) s = exec (.uncorrectableError ⟨r, []⟩) s ∧
    (∃ t, exec (.uncorrectableError ⟨.loomStore n, []⟩) s = .next t ∧ loomFenced t n = true ∧ Reported t n.val) ∧
    (∃ t, exec (.uncorrectableError ⟨.benchClock b, []⟩) s = .next t ∧ t.faults.bench.getLsbD b.val = true ∧ Reported t (64 + b.val)) ∧
    (∃ t, exec (.uncorrectableError ⟨.shuttle p, []⟩) s = .next t ∧ portFenced t p = true ∧ Reported t (92 + p.val) ∧ (portFenced s p = false → ∀ x ∈ t.slices, x.port ≠ p)) ∧
    (∃ t, exec (.uncorrectableError ⟨.chestWord, []⟩) s = .next t ∧ t.backup.chest = { s.backup.chest with damaged := true } ∧ Reported t 97 ∧
      (isIdleServe s.mode.base = true → s.mode.stewardLost = false → t.mode.base = .hold ∧ t.mode.cause = 8)) ∧
    (s.farm.slots[d.val].state ≠ .free →
      ∃ t, exec (.uncorrectableError ⟨.digestSlot d, []⟩) s = .next t ∧ t.farm.slots[d.val].state = .done ∧ t.farm.slots[d.val].status = 0x0501 ∧ t.farm.slots[d.val].result = []) ∧
    (s.mode.stewardLost = false → ∀ c k, c = Instr.lockstepMismatch ∧ k = 1 ∨ c = Instr.heartbeatTimeout ∧ k = 2 →
      ∃ t, exec c s = .next t ∧ t.mode.stewardLost = true ∧ t.faults.warden = true ∧ t.faults.trigger = k ∧ t.owner = none ∧
        (s.mode.base = .serveFull → t.mode.base = .serveDegraded ∧ t.mode.cause = 4) ∧ (s.mode.base = .idle → t.mode.base = .idle))

/-- AGEING_MEASURE starts the measurement of a measurable bench; AGEING_MEASURE_DONE stores LOSS as R501 computes it, takes no step where it is within LOSS_MAX, and a trim step with a new measurement while fewer than eight have been taken. (R501, R502, R503, R505) -/
def Obligations.ageing_completes : Prop :=
  ∀ (s : State) (b : BenchId) (slack tj : Int) (c : BenchCal), measurable s b = true →
    (∃ t, exec (.ageingMeasure b) s = .next t ∧ t.benches[b.val] = { s.benches[b.val] with measuring := true } ∧ t = { s with benches := t.benches, cal := t.cal }) ∧
    (s.benches[b.val].measuring = true → -32768 ≤ slack → slack ≤ 32767 → -128 ≤ tj → tj ≤ 127 →
      (s.benches[b.val].noBaseline = true →
        ∃ t, exec (.ageingMeasureDone b slack tj) s = .next t ∧ t = { s with benches := t.benches } ∧ t.benches[b.val].trim = s.benches[b.val].trim ∧ t.benches[b.val].needsMeasure = false) ∧
      (s.benches[b.val].noBaseline = false → s.cal.benches[b.val]? = some c →
        ∃ t, exec (.ageingMeasureDone b slack tj) s = .next t ∧ t.benches[b.val].loss = 100 * c.baseline - (100 * slack + c.coeff * (100 - tj)) ∧
          (t.benches[b.val].loss ≤ 100 * (c.lossMax : Int) → t.benches[b.val].measuring = false ∧ t.benches[b.val].needsMeasure = false ∧
            t.benches[b.val].trim = s.benches[b.val].trim ∧ t.benches[b.val].clkStep = s.benches[b.val].clkStep ∧ t.faults.bench = s.faults.bench) ∧
          (100 * (c.lossMax : Int) < t.benches[b.val].loss → s.benches[b.val].trim < 8 → t.benches[b.val].trim = s.benches[b.val].trim + 1 ∧ t.benches[b.val].measuring = true ∧
            t.faults.bench = s.faults.bench)))

/-- CREATE_SLICE whose checks pass appends the slice its operands describe and waits for the beat; refused, it answers KEY_POLICY with the check's code and creates nothing. CREATE_QUEUE whose checks pass appends its queue alike. DESTROY_SLICE of a slice without queues leaves no slice, run or item of that index; DESTROY_QUEUE of an idle queue leaves the others. (R122, R129, R131, R162, R163) -/
def Obligations.slices_queues_complete : Prop :=
  ∀ (s : State) (p : PortId) (e : AdminEntry) (i : SliceIdx) (x : Slice) (q : Queue) (n k : Nat), IdsApart s →
    (AdminRuns s p 0x01 e → freeSliceIndex s p = some i →
      (sliceRefusal s p (operandSlice p i e.entry (allotDrawers s (entryNat e.entry 20 2))) = 0 →
        ∃ t, exec (.createSlice p) s = .next t ∧ t.slices = s.slices ++ [operandSlice p i e.entry (allotDrawers s (entryNat e.entry 20 2))] ∧ t.queues = s.queues ∧ t.runs = s.runs ∧
          t.ports[p.val].admin.entry = some { e with wait := .slice i } ∧ t.ports[p.val].sliceRefuse = 0) ∧
      (sliceRefusal s p (operandSlice p i e.entry (allotDrawers s (entryNat e.entry 20 2))) ≠ 0 →
        ∃ t, exec (.createSlice p) s = .next t ∧ AdminEnds t p .keyPolicy 0 ∧ t.slices = s.slices ∧
          t.ports[p.val].sliceRefuse = sliceRefusal s p (operandSlice p i e.entry (allotDrawers s (entryNat e.entry 20 2))))) ∧
    (AdminRuns s p 0x02 e → findSlice s p (entryByte e.entry 8) = some x → sliceHasQueue s p x.idx = false → (x.frozen = true → x.saved = true) →
      ∃ t, exec (.destroySlice p) s = .next t ∧ AdminEnds t p .ok 0 ∧ t.slices = s.slices.filter (fun y => !(y.port == p && y.idx == x.idx)) ∧
        (∀ r ∈ t.runs, ¬(r.port = p ∧ r.slice = x.idx)) ∧ (∀ j ∈ t.heddle.items, ¬(j.port = p ∧ j.slice = x.idx)) ∧ t.ports[p.val].sliceRefuse = 0) ∧
    (AdminRuns s p 0x03 e → entryByte e.entry 9 ≤ 1 → queueRefusal s p e.entry = 0 → findSlice s p (entryByte e.entry 8) = some x →
      freeQueueNumber s p = some n → freeQueueIndex s p x.idx = some k →
      ∃ t, exec (.createQueue p) s = .next t ∧ t.queues = s.queues ++ [operandQueue p x.idx n k e.entry] ∧ t.slices = s.slices ∧
        t.ports[p.val].admin.entry = some { e with wait := .queue n } ∧ t.ports[p.val].queueRefuse = 0) ∧
    (AdminRuns s p 0x04 e → isWorking s.mode.base = true → findQueue s p (entryNat e.entry 8 2) = some q → q.owned = 0 →
      ∃ t, exec (.destroyQueue p) s = .next t ∧ AdminEnds t p .ok 0 ∧ t.slices = s.slices ∧ t.heddle = s.heddle ∧
        t.queues = s.queues.filter (fun y => !(y.port == p && y.qnum == entryNat e.entry 8 2)))

/-- FREEZE_SLICE freezes the slice and its queues, and of its items only one that a restart holds waits for dispatch any more; FREEZE_DRAIN_DONE ends it once the queues own nothing; THAW_SLICE waits for its beat. SAVE_SLICE to the host answers the sealed image of what the slice holds, made with 100 drawn bytes, and its length, marks it saved and leaves every LIVE stateful record it had retired; RESTORE_SLICE of an image whose checks pass adds the slice of the body that it opens to, frozen, with its runs, and waits for its beat. (R314, R447, R449, R454, R456, R458, R459) -/
def Obligations.moving_completes : Prop :=
  ∀ (s : State) (p : PortId) (e : AdminEntry) (x : Slice) (i : SliceIdx) (dest : IdentityRecord) (nonce : BitVec 128) (m : SliceImage), IdsApart s →
    (AdminRuns s p 0x05 e → isWorking s.mode.base = true → findSlice s p (entryByte e.entry 8) = some x → x.frozen = false →
      ∃ t, exec (.freezeSlice p) s = .next t ∧ (∀ y ∈ t.slices, y.port = p → y.idx = x.idx → y.frozen = true ∧ y.saved = false) ∧
        (∀ q ∈ t.queues, q.port = p → q.slice = x.idx → q.state = .frozen) ∧ (∀ j ∈ t.heddle.items, j.port = p → j.slice = x.idx → waiting j = true → j.holdsFlow = true)) ∧
    (s.ports[p.val].admin.entry = some e → e.wait = .freeze i → freezeDrained s p i = true →
      ∃ t, exec (.freezeDrainDone p) s = .next t ∧ AdminEnds t p .ok 0 ∧ t = { s with ports := t.ports }) ∧
    (AdminRuns s p 0x08 e → isWorking s.mode.base = true → findSlice s p (entryByte e.entry 8) = some x → x.frozen = true →
      ∃ t, exec (.thawSlice p) s = .next t ∧ t = { s with ports := t.ports } ∧ t.ports[p.val].admin.entry = some { e with wait := .thaw x.idx } ∧ t.ports[p.val].moveRefuse = 0) ∧
    (AdminRuns s p 0x06 e → entryByte e.entry 9 = 0 → inputLen e.entry = 9104 → saveRefusal s p e.entry dest nonce = 0 → findSlice s p (entryByte e.entry 8) = some x →
      imageLength (sliceBody x nonce s) ≤ outputCap e.entry →
      ∃ t a d, exec (.saveSlice p dest nonce []) s = .next t ∧ AdminEnds t p .ok (imageLength (sliceBody x nonce s)) ∧
        t.ports[p.val].admin.entry = some a ∧ a.done = some d ∧ d.output = imageBytes (sealImage (sliceBody x nonce s) dest nonce (ctrGenerate 100 s.bobbin.instances[16]).1 s) ∧ (∀ y ∈ t.slices, y.port = p → y.idx = x.idx → y.saved = true) ∧
        ∀ y ∈ t.flash.tally, (∃ k ∈ statefulKeys s x, k.2.number = y.number ∧ k.2.unusable = false ∧ ∃ c, tallyLatest k.2 = some c ∧ c.state = 2) →
          ∃ c, tallyNewest y = some c ∧ c.state = 4 ∧ c.nonce = nonceLow nonce) ∧
    (AdminRuns s p 0x07 e → entryByte e.entry 12 = 0 → restoreRefusal s p e.entry (some m) = 0 → freeSliceIndex s p = some i → ∀ b, receivedBody s m = some b →
      ∃ t n, exec (.restoreSlice p (some m)) s = .next t ∧ t.slices = s.slices ++ [restoredSlice p i e.entry b n (allotDrawers s b.drawers)] ∧
        t.runs = s.runs ++ b.runs.map (restoredRun p i b) ∧ t.ports[p.val].admin.entry = some { e with wait := .restore i } ∧ t.ports[p.val].moveRefuse = 0)

/-- TRACE_ENABLE with a legal ring enables a fresh ring; TRACE_DISABLE answers the drop count; TRACE_CONSUMED_WRITE of a value it takes sets it; CAL_READ, IDENTITY_GET and LOG_READ answer the set in flash, the 9,088 bytes of the identity record, and the first COUNT records from FIRST on; OWNER_SIGNED takes an accepted envelope's command in hand and its sequence number. (R121, R161, R190, R194, R406, R508, R522) -/
def Obligations.port_reads_complete : Prop :=
  ∀ (s : State) (p : PortId) (e : AdminEntry) (v : Word) (env : Envelope) (op : OwnerOperand),
    (AdminRuns s p 0x09 e → 8 ≤ entryByte e.entry 8 → entryByte e.entry 8 ≤ 20 → baseAligned (BitVec.ofNat 64 (entryNat e.entry 16 8)) (16 * 2 ^ entryByte e.entry 8) = true →
      ∃ t, exec (.traceEnable p) s = .next t ∧ AdminEnds t p .ok 0 ∧ t = { s with ports := t.ports } ∧
        t.ports[p.val].trace = { enabled := true, log2 := entryByte e.entry 8, base := BitVec.ofNat 64 (entryNat e.entry 16 8) }) ∧
    (AdminRuns s p 0x0A e →
      ∃ t, exec (.traceDisable p) s = .next t ∧ AdminEnds t p .ok s.ports[p.val].trace.dropped ∧ t = { s with ports := t.ports } ∧
        t.ports[p.val].trace = { s.ports[p.val].trace with enabled := false }) ∧
    (WriteReaches s p → (s.ports[p.val].trace.produced - v).toNat ≤ 2 ^ s.ports[p.val].trace.log2 →
      exec (.traceConsumedWrite p v) s = .next (modPort p (fun x => { x with trace := { x.trace with consumed := v } }) s)) ∧
    (AdminRuns s p 0x0C e → 2048 ≤ outputCap e.entry →
      ∃ t x d, exec (.calRead p) s = .next t ∧ t.ports[p.val].admin.entry = some x ∧ x.done = some d ∧ d.status = .ok ∧ d.result = 2048 ∧ d.output = calPage s ∧
        t = { s with ports := t.ports }) ∧
    (AdminRuns s p 0x0D e → 9088 ≤ outputCap e.entry →
      ∃ t x d, exec (.identityGet p) s = .next t ∧ t.ports[p.val].admin.entry = some x ∧ x.done = some d ∧ d.status = .ok ∧ d.output = identityRecord s ∧ t = { s with ports := t.ports }) ∧
    (AdminRuns s p 0x0B e → 0 < entryNat e.entry 12 4 → entryNat e.entry 12 4 ≤ 4096 → 32 * entryNat e.entry 12 4 ≤ outputCap e.entry →
      ∃ t rs x d, exec (.logRead (.admin p)) s = .next t ∧
        rs = ((if s.mode.fwDone = true then s.log.records else s.flash.logRecords).filter fun r => decide (entryNat e.entry 8 4 ≤ r.seq.toNat)).take (entryNat e.entry 12 4) ∧
        t.ports[p.val].admin.entry = some x ∧ x.done = some d ∧ d.status = .ok ∧ d.result = rs.length ∧ d.output = rs.flatMap recordBytes ∧ t = { s with ports := t.ports }) ∧
    (AdminRuns s p 0x80 e → stewardBusy s = false → s.envelopes = [] → env.length = inputLen e.entry → envelopeForm env = true → envelopeAccepted s env = true →
      innerOperand (envCode env) env.body = some op → heldInWake s = false →
      ∃ t, exec (.ownerSigned p env) s = .next t ∧ t.backup.chest.seq = envSeq env ∧ t.owner = some { origin := .admin p, seq := envSeq env, operand := op, clears := s.backup.sticky &&& ~~~s.tamper.active } ∧
        t.ports[p.val].admin.entry = some { e with wait := .owner })

/-- SLOT_ALLOC whose checks pass takes a free slot for the algorithm, port and slice, with its next generation; DIGEST_DATA_WRITE appends, or breaks the slot, and after FINAL marks it besides; DIGEST_FINAL of matching lengths finalises with TOTAL as it stands; a core that asks takes one block of the slot or one-shot item it finds, and of none that has a block in another core; DIGEST_DONE puts the digest of that many first bytes into the result, which DIGEST_RESULT_READ returns; DIGEST_RELEASE and SLOT_RECLAIMED free the slot. (R357, R358, R359, R360, R362, R364, R367) -/
def Obligations.digest_farm_completes : Prop :=
  ∀ (s : State) (p : PortId) (d : DigestSlot) (v : Word) (off n : Nat) (bs : Bytes) (core : FarmCore),
    (WriteReaches s p → allocReason s p (fieldOf v 24 8) (fieldOf v 8 8) = 0 →
      ∃ t k, exec (.slotAlloc p v) s = .next t ∧ s.farm.slots[(k : DigestSlot).val].state = .free ∧ t.ports[p.val].dgfSlot = k.val + 1 ∧ t.ports[p.val].dgfReason = 0 ∧
        t.farm.slots[k.val].state = .absorbing ∧ t.farm.slots[k.val].alg = fieldOf v 24 8 ∧ t.farm.slots[k.val].port = p ∧ t.farm.slots[k.val].slice.val = fieldOf v 8 8 ∧
        t.farm.slots[k.val].gen = s.farm.slots[k.val].gen + 1 ∧ t.farm.slots[k.val].absorbed = 0 ∧ (∀ j : DigestSlot, j ≠ k → t.farm.slots[j.val] = s.farm.slots[j.val])) ∧
    (WriteReaches s p → ownsSlot s p d = true → (slotOf s d).state = .absorbing → off < 4096 → off % 4 = 0 → 4 ≤ bs.length → bs.length ≤ 512 → bs.length % 4 = 0 →
      (dataOk (slotOf s d) off bs.length = true →
        exec (.digestDataWrite p d off bs) s = .next (modDigest d (fun x => { x with absorbed := x.absorbed + bs.length, data := x.data ++ bs }) s)) ∧
      (dataOk (slotOf s d) off bs.length = false → (slotOf s d).broken = false →
        ∃ t, exec (.digestDataWrite p d off bs) s = .next t ∧ t.farm.slots = s.farm.slots.set d.val { slotOf s d with broken := true })) ∧
    (WriteReaches s p → ownsSlot s p d = true → (slotOf s d).state = .finalising ∨ (slotOf s d).state = .done → off < 4096 → off % 4 = 0 → 4 ≤ bs.length → bs.length ≤ 512 → bs.length % 4 = 0 →
      ∃ t, exec (.digestDataWrite p d off bs) s = .next t ∧ t.farm.slots = s.farm.slots.set d.val { slotOf s d with broken := true, lateWrite := true }) ∧
    (WriteReaches s p → ownsSlot s p d = true → (slotOf s d).state = .absorbing → n < 131072 → finalOk (slotOf s d) n = true →
      exec (.digestFinal p d n) s = .next (modDigest d (fun x => { x with state := .finalising, outLen := n, length := x.total }) s)) ∧
    (WriteReaches s p → ownsSlot s p d = true → exec (.digestRelease p d) s = .next (modDigest d freedSlot s)) ∧
    ((slotOf s d).state ≠ .free → ∃ t, exec (.slotReclaimed d false) s = .next t ∧ t.farm.slots = s.farm.slots.set d.val (freedSlot (slotOf s d))) ∧
    (coreServes core (slotOf s d).alg = true → blockReady (slotOf s d) = true → (∀ j : Fin 15, s.farm.held[j.val] = none) → (∀ k, servingOn s (.digest k) = none) →
      ∃ t k, exec (.digestCoreAsk core) s = .next t ∧ coreServes core (slotOf s k).alg = true ∧ blockReady (slotOf s k) = true ∧
        t.farm.slots = s.farm.slots.set (k : DigestSlot).val { slotOf s k with taken := (slotOf s k).taken + 1 } ∧ t.farm.last[(coreIndex core).val] = k.val + 1 ∧
        t.farm.held[(coreIndex core).val] = some (.slot k (slotOf s k).gen)) ∧
    (∀ m u, farmNext s core = some (m, u) →
      (∀ j : Fin 15, j ≠ coreIndex core → s.farm.held[j.val] ≠ some u) ∧
      ∃ t, exec (.digestCoreAsk core) s = .next t ∧ t.farm.held[(coreIndex core).val] = some u ∧ t.farm.last[(coreIndex core).val] = m ∧
        (∀ id, u = .item id → t.farm.slots = s.farm.slots ∧
          ∀ i ∈ s.heddle.items, i.id = id → { i with blocks := i.blocks + 1 } ∈ t.heddle.items)) ∧
    ((slotOf s d).state = .finalising → blocksOf (slotOf s d).alg (slotOf s d).length.toNat ≤ (slotOf s d).taken →
      ∃ t, exec (.digestDone d) s = .next t ∧ (slotOf t d).state = .done ∧ (slotOf t d).status = 0 ∧
        (slotOf t d).result = primBytes (.digest (slotOf s d).alg) [(slotOf s d).data.take (slotOf s d).length.toNat] (digestSize (slotOf s d).alg (slotOf s d).outLen) ∧
        t = { s with farm := t.farm }) ∧
    (barOpen s p = true → (slotOf s d).state = .done → off < 4096 → off % 4 = 0 →
      exec (.digestResultRead p d off) s = .next { s with out := s.out ++ [.readData p (0x230000 + 0x1000 * d.val + off) (resultDword (slotOf s d) s.ports[p.val].dgfPage off)] })

/-- BOBBIN_START enters STARTING; BOBBIN_TESTS_END excludes the pairs that failed a start-up test and asks for every instance's seed, instance 16 first, where four pairs remain; BOBBIN_SEEDED with every instance seeded enters SERVING; PAIR_EXCLUDED of a pair that fails its test (an oscillator with fewer than ALIVE_MIN transitions in 1,024 cycles, a phase bin repeated more than LOCK_MAX times in 4,096 samples, among others) takes it out; HEALTH_FAIL clears every instance and enters RETRY_WAIT, or FAILED after three retries; BOBBIN_RETRY counts and starts again; PAIR_RETEST_END and BOBBIN_RESTART as R385 says. (R373, R374, R381, R382, R383, R385, R386) -/
def Obligations.bobbin_completes : Prop :=
  ∀ (s : State) (failing : List (PairId × PairFault)) (pair : PairId) (f : PairFault) (ps : List PairId),
    (s.bobbin.state = .off → s.mode.fwDone = true → s.mode.base ≠ .dormant → s.power.plan ≠ .wakeOnly →
      ∃ t, exec .bobbinStart s = .next t ∧ t.bobbin.state = .starting ∧ t.bobbin.settled = false ∧ t.bobbin.passed = false ∧ t = { s with bobbin := t.bobbin }) ∧
    (s.bobbin.state = .starting → exec .bobbinSettled s = .next { s with bobbin := { s.bobbin with settled := true } }) ∧
    (s.bobbin.state = .starting → s.bobbin.settled = true → s.bobbin.passed = false →
      ∃ t, exec (.bobbinTestsEnd failing true) s = .next t ∧
        (∀ k : PairId, t.bobbin.live.getLsbD k.val = !(failing.any fun x => x.1 == k && pairFails s x.2)) ∧
        (4 ≤ popcount t.bobbin.live → t.bobbin.state = .starting ∧ t.bobbin.passed = true ∧ t.bobbin.seedQueue.head? = some inst16 ∧ t.bobbin.seedQueue.length = 17) ∧
        (popcount t.bobbin.live < 4 → t.bobbin.state = (if 3 ≤ s.bobbin.retries then .failed else .retryWait))) ∧
    (s.bobbin.state = .starting → s.bobbin.passed = true → s.bobbin.seedQueue = [] → (∀ k : InstId, s.bobbin.instances[k.val].instantiated = true) →
      ∃ t, exec .bobbinSeeded s = .next t ∧ t.bobbin.state = .serving ∧ t.mode.seeded = true ∧ t.bobbin.live = s.bobbin.live) ∧
    (testsRun s = true → s.bobbin.live.getLsbD pair.val = true → pairFails s f = true → faultCode f ≠ 7 →
      ∃ t, exec (.pairExcluded pair f) s = .next t ∧
        t.bobbin = { s.bobbin with live := setBit s.bobbin.live pair.val false, lastTest := faultCode f, lastPair := pair.val, calls := s.bobbin.calls + 1 }) ∧
    (∀ samples, pairFails s (.alive samples) = true ↔ samples.length = 1024 ∧ ((samples.zip samples.tail).countP fun x => x.1 != x.2) < s.cal.aliveMin) ∧
    (∀ bins, pairFails s (.lock bins) = true ↔ bins.length = 4096 ∧ s.cal.lockMax < (bins.zip bins.tail).countP fun x => x.1 == x.2) ∧
    (testsRun s = true → popcount s.bobbin.live < 4 →
      ∃ t, exec (.healthFail .tooFewPairs) s = .next t ∧ t.bobbin.state = (if 3 ≤ s.bobbin.retries then .failed else .retryWait) ∧ t.bobbin.seedQueue = [] ∧
        ∀ k : InstId, t.bobbin.instances[k.val].instantiated = false) ∧
    (s.bobbin.state = .retryWait → ∃ t, exec .bobbinRetry s = .next t ∧ t.bobbin.state = .starting ∧ t.bobbin.retries = s.bobbin.retries + 1 ∧ t = { s with bobbin := t.bobbin }) ∧
    (s.bobbin.state = .serving → s.bobbin.retesting = true →
      ∃ t, exec (.pairRetestEnd ps) s = .next t ∧ t.bobbin.state = .serving ∧ t.bobbin.retesting = false ∧
        ∀ k : PairId, t.bobbin.live.getLsbD k.val = (s.bobbin.live.getLsbD k.val || ps.contains k)) ∧
    (OwnerRuns s .bobbinRestart →
      (s.bobbin.state = .serving → ∃ t, exec .bobbinRestart s = .next t ∧ t.bobbin = { s.bobbin with retesting := true } ∧ t.owner = s.owner.map fun o => { o with started := true }) ∧
      (s.bobbin.state = .failed ∨ s.bobbin.state = .retryWait → ∃ t, exec .bobbinRestart s = .next t ∧ t.bobbin.state = .starting ∧ t.bobbin.retries = 0 ∧
        t.owner = s.owner.map fun o => { o with started := true }))

/-- RESEED_REQUEST at a count of 2^20 and INSTANCE_STALL at 2^32 put the instance into the seed queue, the latter with the stall; RESEED_APPLIED of the instance at the head of the queue, whose blocks the conditioner did not repeat, instantiates it, ends its stall and takes it from the queue, and sets the count of a bench's instance to 0 and its key by CTR_DRBG's update from a seed of 384 bits, with the personalisation string at an instantiation. (R376, R379) -/
def Obligations.reseeding_completes : Prop :=
  ∀ (s : State) (i : InstId) (rest : List InstId),
    (s.bobbin.instances[i.val].instantiated = true → s.bobbin.instances[i.val].pending = false → 2 ^ 20 ≤ s.bobbin.instances[i.val].count →
      ∃ t, exec (.reseedRequest i) s = .next t ∧ i ∈ t.bobbin.seedQueue ∧ t.bobbin.instances = s.bobbin.instances.set i.val { s.bobbin.instances[i.val] with pending := true }) ∧
    (s.bobbin.instances[i.val].instantiated = true → s.bobbin.instances[i.val].stalled = false → 2 ^ 32 ≤ s.bobbin.instances[i.val].count →
      ∃ t, exec (.instanceStall i) s = .next t ∧ i ∈ t.bobbin.seedQueue ∧
        t.bobbin.instances = s.bobbin.instances.set i.val { s.bobbin.instances[i.val] with stalled := true, pending := true }) ∧
    (testsRun s = true → s.bobbin.seedQueue = i :: rest → seedRepeats s = false →
      ∃ t, exec (.reseedApplied i) s = .next t ∧ t.bobbin.seedQueue = rest ∧ t.bobbin.instances[i.val].instantiated = true ∧ t.bobbin.instances[i.val].stalled = false ∧
        (predArrives s i = false → t.bobbin.instances[i.val].pending = false) ∧ (i ≠ inst16 → t.bobbin.instances[i.val].count = 0 ∧
        t.bobbin.instances[i.val].key = (if s.bobbin.instances[i.val].instantiated = true then ctrUpdate (takeSeed s).1 s.bobbin.instances[i.val]
          else ctrUpdate (xorBytes (takeSeed s).1 (leBytes 8 s.fuses.serial.toNat ++ leBytes 8 i.val ++ zeros 32)) { s.bobbin.instances[i.val] with key := zeros 32, v := 0 }).key ∧ (s.bobbin.instances[i.val].instantiated = false → ∀ b : BenchId, b.val = i.val → t.benches[b.val].needsSeed = false)))

/-- CARD_INSERT makes a card present. CARD_REMOVE leaves an empty slot; LAST_ERR and REMOVED say so when a transfer or busy was under way, and an evaluation that used the card is cut. CARD_RESPONSE_TIMEOUT sends the command again, takes a good answer's status word, and marks the card FAILED and off without one. CARD_BUSY_RELEASE frees the data line; BUSY_TIMEOUT marks the card FAILED. CWP_LOCK moves the tab, and ends a write with END_XFER. (R415, R418, R421, R427, R429, R430, R444) -/
def Obligations.card_slots_complete : Prop :=
  ∀ (s : State) (c : CardSlot) (u : CardUse) (op : BitVec 5) (arg : BitVec 30) (r : Option (BitVec 48)) (st : BitVec 30),
    ((cardOf s c).present = false → s.mode.base ≠ .dormant →
      ∃ t, exec (.cardInsert c) s = .next t ∧ (cardOf t c).present = true ∧ (cardOf t c).cdet = true ∧ t = { s with cards := t.cards }) ∧
    ((cardOf s c).present = true →
      ∃ t, exec (.cardRemove ⟨c, u⟩) s = .next t ∧
        cardOf t c = { lastErr := if (cardOf s c).busy = true ∨ ((cardOf s c).powered = true ∧ u = .transfer) then 5 else 0 } ∧
        ((cardOf s c).busy = true ∨ ((cardOf s c).powered = true ∧ u = .transfer) → t.cards.removedInTransfer.getLsbD c.val = true) ∧
        (u = .quorum → cardUsable (cardOf s c) = true → t.cards.quorumCut = true)) ∧
    (cardsRun s = true → (cardOf s c).present = true → (cardOf s c).powered = true → answersShort op = true →
      (r.bind (shortStatus op (cardOf s c).addr) = none →
        ∃ t, exec (.cardResponseTimeout c ⟨op, arg, r⟩) s = .next t ∧ (cardOf t c).failed = true ∧ (cardOf t c).lastErr = (if r.isSome = true then 2 else 1) ∧
          (cardOf t c).powered = false ∧ (cardOf t c).identified = false ∧ t.cards.failedEv.getLsbD c.val = true ∧
          Tx.cardFrame (rateOf (cardOf s c).mode) (cardCommand op (cardOf s c).addr arg.toNat) ∈ t.out) ∧
      (r.bind (shortStatus op (cardOf s c).addr) = some st →
        exec (.cardResponseTimeout c ⟨op, arg, r⟩) s = .next (modCard c (fun x => { x with status := st })
          (emit (.cardFrame (rateOf (cardOf s c).mode) (cardCommand op (cardOf s c).addr arg.toNat)) s)))) ∧
    ((cardOf s c).busy = true →
      (∃ t, exec (.cardBusyRelease c) s = .next t ∧ (cardOf t c).busy = false ∧ t = { s with cards := t.cards }) ∧
      (s.power.plan ≠ .wakeOnly → exec (.cardBusyRelease c) s = .next (modCard c (fun x => { x with busy := false }) s)) ∧
      (cardsRun s = true → ∃ t, exec (.busyTimeout c) s = .next t ∧ (cardOf t c).failed = true ∧ (cardOf t c).lastErr = 4 ∧ (cardOf t c).busy = false ∧
        (cardOf t c).powered = false ∧ t.cards.failedEv.getLsbD c.val = true)) ∧
    ((cardOf s c).present = true → (cardOf s c).busy = false → exec (.cwpLock c) s = .next (modCard c (fun x => { x with cwp := true }) s)) ∧
    ((cardOf s c).present = true → (cardOf s c).busy = true → (cardOf s c).cwp = false →
      ∃ t, exec (.cwpLock c) s = .next t ∧ (cardOf t c).cwp = true ∧ (cardOf t c).locked = true ∧ (cardOf t c).lastErr = 6 ∧
        t.out = s.out ++ [.cardFrame (rateOf (cardOf s c).mode) (cardCommand opEndXfer (cardOf s c).addr 0)])

/-- CARD_IDENTIFY of a good, unique card sends RESET_ALL where no powered card has an address, ALL_IDENT, SET_RCA of the lowest free address and POLL_STATUS in the ident mode, and gives the card that address and the default mode. After the last card a closing ALL_IDENT goes out, then ATTACH, SWITCH and READ_PATTERN; a passed switch leaves the card in mode 2 with the valid copies of its records, a failed one leaves it off with SPEED_LIMIT. A wrong identity response marks the card FAILED; an identity met twice marks both, and all cards of the sequence, DUPLICATE. SWITCH_FALLBACK identifies the card in its default mode, or waits for the Wake-only plan's power. (R417, R418, R419, R420, R422, R423, R424, R425, R432) -/
def Obligations.card_identification_completes : Prop :=
  ∀ (s : State) (c : CardSlot) (d : CardData) (w : BitVec 48) (st : BitVec 30), cardsRun s = true → busBusy s = false →
    (awaitsIdent (cardOf s c) = true → (cardOf s c).stale = false →
      (identityOk d.identity = false →
        ∃ t, exec (.cardIdentify c d) s = .next t ∧ (cardOf t c).failed = true ∧ (cardOf t c).lastErr = 2 ∧ (cardOf t c).powered = false ∧ t.cards.failedEv.getLsbD c.val = true) ∧
      (identityOk d.identity = true → (firstAnswer opSetRca (freeAddress s) (d.rca.take 1)).isSome = true → d.poll.head? = some (some w) →
        shortStatus opPollStatus (freeAddress s) w = some st → statusSlot st = c.val →
        ((∃ k, k ≠ c ∧ (cardOf s k).present = true ∧ (cardOf s k).identified = true ∧ (cardOf s k).identity = identityOf d.identity) →
          ∃ t, exec (.cardIdentify c d) s = .next t ∧
            ∀ k, k = c ∨ ((cardOf s k).present = true ∧ (cardOf s k).identified = true ∧ (cardOf s k).identity = identityOf d.identity) ∨ (cardOf s k).found.isSome = true →
              (cardOf t k).duplicate = true ∧ (cardOf t k).powered = false ∧ (cardOf t k).identified = false ∧ (cardOf t k).lastErr = 9) ∧
        ((∀ k, k ≠ c → ¬((cardOf s k).present = true ∧ (cardOf s k).identified = true ∧ (cardOf s k).identity = identityOf d.identity)) →
          ((∃ k, k ≠ c ∧ awaitsIdent (cardOf s k) = true) →
            ∃ t, exec (.cardIdentify c d) s = .next t ∧ t = { s with cards := t.cards, out := t.out } ∧ (cardOf t c).identified = true ∧ (cardOf t c).found = some d ∧
              (cardOf t c).mode = defaultCardMode s ∧ (cardOf t c).addr = freeAddress s ∧ (cardOf t c).identity = identityOf d.identity ∧ (cardOf t c).status = st ∧
              t.out = s.out ++ (if s.cards.slots.toList.any (fun x => x.powered && x.identified && !x.stale) = true then [] else [Tx.cardFrame .ident (cardCommand opResetAll 0 0)]) ++
                [.cardFrame .ident (cardCommand opAllIdent 0 0), .cardFrame .ident (cardCommand opSetRca 0 (freeAddress s)), .cardFrame .ident (cardCommand opPollStatus (freeAddress s) 0)]) ∧
          ((∀ k, k ≠ c → awaitsIdent (cardOf s k) = false ∧ (cardOf s k).found = none) → (cardOf s c).speedLimit = false →
            (switchOk (freeAddress s) d = true →
              ∃ t rest, exec (.cardIdentify c d) s = .next t ∧ (cardOf t c).identified = true ∧ (cardOf t c).found = none ∧ (cardOf t c).mode = 2 ∧ (cardOf t c).addr = freeAddress s ∧
                (cardOf t c).identity = identityOf d.identity ∧ (cardOf t c).status = st ∧ (cardOf t c).shares = scannedShares .mode2 d ∧
                (cardOf t c).image = cardRecordOf imagePlace imageBytes (readCopies .mode2 d imagePlace d.image) ∧
                (cardOf t c).recovery = cardRecordOf recoveryPlace recoveryBytes (readCopies .mode2 d recoveryPlace d.recovery) ∧ t.cards.inserted.getLsbD c.val = true ∧
                t.out = s.out ++ (if s.cards.slots.toList.any (fun x => x.powered && x.identified && !x.stale) = true then [] else [Tx.cardFrame .ident (cardCommand opResetAll 0 0)]) ++
                  [.cardFrame .ident (cardCommand opAllIdent 0 0), .cardFrame .ident (cardCommand opSetRca 0 (freeAddress s)), .cardFrame .ident (cardCommand opPollStatus (freeAddress s) 0),
                    .cardFrame .ident (cardCommand opAllIdent 0 0), .cardFrame (rateOf (defaultCardMode s)) (cardCommand opAttach (freeAddress s) 0),
                    .cardFrame (rateOf (defaultCardMode s)) (cardCommand opSwitch (freeAddress s) 2), .cardFrame .mode2 (cardCommand opReadPattern (freeAddress s) 0)] ++ rest) ∧
            (switchOk (freeAddress s) d = false →
              ∃ t, exec (.cardIdentify c d) s = .next t ∧ (cardOf t c).speedLimit = true ∧ (cardOf t c).lastErr = 8 ∧ (cardOf t c).powered = false ∧ (cardOf t c).identified = false))))) ∧
    (inFallback (cardOf s c) = true →
      (s.power.plan = .wakeOnly → (∃ k, k ≠ c ∧ inUse (cardOf s k) = true) → exec (.switchFallback c d) s = .next (modCard c (fun x => { x with waited := true }) s)) ∧
      (s.power.plan ≠ .wakeOnly → identityOk d.identity = true → (firstAnswer opSetRca (freeAddress s) (d.rca.take 1)).isSome = true → d.poll.head? = some (some w) →
        shortStatus opPollStatus (freeAddress s) w = some st → statusSlot st = c.val →
        (∀ k, k ≠ c → awaitsIdent (cardOf s k) = false ∧ (cardOf s k).found = none ∧
          ¬((cardOf s k).present = true ∧ (cardOf s k).identified = true ∧ (cardOf s k).identity = identityOf d.identity)) →
        ∃ t, exec (.switchFallback c d) s = .next t ∧ (cardOf t c).identified = true ∧ (cardOf t c).found = none ∧ (cardOf t c).mode = defaultCardMode s ∧ (cardOf t c).speedLimit = true ∧
          (cardOf t c).addr = freeAddress s ∧ (cardOf t c).identity = identityOf d.identity))

/-- RECOVERY_IMAGE_VERIFIED of port 0's image, in Recovery, threads its draft, or stops its ceremony with the first failed check's error; CEREMONY_SHARE_WRITE that the card acknowledges and reads back writes the next share in the card's lowest free share slot and, after the last of an owner's first ceremony, makes that owner the chest's with sequence number 0; a write that fails leaves the card's shares; CEREMONY_TIMEOUT stops the ceremony and wipes its key; CHEST_RESTORE from a set that stands restores its key and stays in Hold. (R426, R433, R436, R438, R440, R441) -/
def Obligations.ceremonies_complete : Prop :=
  ∀ (s : State) (im : RecoveryImage) (b : CeremonyBlock) (c : CardSlot) (r : ShareRecord) (k : Bytes) (writes : List CardWrite) (w : CardWrite),
    (s.mode.base = .recovery → s.mode.stewardLost = false → s.ceremony.state = 0 → imageVerifies im = true → sourceFits s .port0 im = true → (imageFlags im).testBit 0 = false →
      (im.ceremony = none →
        ∃ t, exec (.recoveryImageVerified .port0 ⟨im, writes⟩) s = .next t ∧ t.mode.base = .threading ∧ t.mode.cause = 12 ∧ t.mode.draftSrc = 2 ∧ t.mode.threading = .reading 2 false false ∧
          t.draft.recovery = some im.draft ∧ t.draft.upload = [] ∧ t.flash.firmwareA = true ∧ t.flash.firmwareB = true ∧ t.backup.chest = s.backup.chest ∧ t.cards = s.cards) ∧
      (im.ceremony = some b → ceremonyCheck s b ≠ 0 →
        ∃ t, exec (.recoveryImageVerified .port0 ⟨im, writes⟩) s = .next t ∧ t.mode.base = .recovery ∧ t.ceremony.state = 6 ∧ t.ceremony.error = ceremonyCheck s b ∧ t.backup.chest = s.backup.chest)) ∧
    (s.ceremony.block = some b → s.ceremony.state = 4 → s.mode.base = .recovery → cardsRun s = true → takesShare s (cardOf s c) = true → busBusy s = false → (cardOf s c).cwp = false →
      ((acksOk (copyBlocks (shareRecordBytes (nextShare s b)).length + if (cardOf s c).blank = true then 2 else 0) w.acks && w.readBackOk) = false →
        ∃ t, exec (.ceremonyShareWrite c w) s = .next t ∧ (cardOf t c).shares = (cardOf s c).shares ∧
          (cardOf t c).busy = endsBusy (copyBlocks (shareRecordBytes (nextShare s b)).length + if (cardOf s c).blank = true then 2 else 0) w.acks ∧ t = { s with cards := t.cards, out := t.out }) ∧
      ((acksOk (copyBlocks (shareRecordBytes (nextShare s b)).length + if (cardOf s c).blank = true then 2 else 0) w.acks && w.readBackOk) = true →
        (s.ceremony.written + 1 < cerN b →
          ∃ t n, exec (.ceremonyShareWrite c w) s = .next t ∧ freeShareSlot (cardOf s c) = some n ∧
            (cardOf t c).shares = ((List.range 8).map fun j => if j = n then some { copyB := false, seq := 1, payload := nextShare s b } else (cardOf s c).shares.getD j none) ∧
            t.ceremony = { s.ceremony with written := s.ceremony.written + 1 } ∧ t = { s with cards := t.cards, ceremony := t.ceremony, out := t.out }) ∧
        (cerN b ≤ s.ceremony.written + 1 → cerKind b = 1 →
          ∃ t, exec (.ceremonyShareWrite c w) s = .next t ∧ t.backup.chest.valid = true ∧ t.backup.chest.ownerSet = true ∧ t.backup.chest.ork = s.ceremony.ork ∧
            t.backup.chest.ownerDigest = sha3_256 b.newOwner ∧ t.backup.chest.seq = 0 ∧ t.flash.ownerRecord = b.newOwner ∧ t.ceremony.state = 5 ∧ t.ceremony.ork = [] ∧ t.mode.base = .threading))) ∧
    (s.ceremony.state = 4 → cardsRun s = true →
      ∃ t, exec .ceremonyTimeout s = .next t ∧ t.ceremony.state = 6 ∧ t.ceremony.error = 7 ∧ t.ceremony.ork = [] ∧ t.mode = s.mode) ∧
    (s.mode.base = .hold → s.mode.cause = 14 → s.backup.chest.valid = false → cardsRun s = true → stewardDraws s = true → busBusy s = false → setQuorum s = some (r, k) →
      ∃ t, exec .chestRestore s = .next t ∧ t.backup.chest.valid = true ∧ t.backup.chest.ownerSet = true ∧ t.backup.chest.ork = k ∧ t.backup.chest.ownerDigest = sha3_256 r.owner ∧
        t.backup.chest.seq = r.seqAtSplit + 16777216 ∧ t.mode = s.mode)

/-- TALLY_WRITE_DURABLE, with the flash controller not fenced, puts the update into its copy of the record; CHEST_REMASK and DRAWER_REFRESH change no value of the chest and no run; DEBUG_PORT_ACCESS on an open port reads a register, injects a correctable error, and in Analysis scraps the module; on a closed port it is activity that fires source 22. (R22, R303, R393, R394, R526, R534) -/
def Obligations.durable_and_debug_complete : Prop :=
  ∀ (s : State) (rec : TallyRecord) (toB : Bool) (c : TallyCopy) (off : Nat) (src : Fin 104),
    (s.flash.tally.find? (fun t => t.number == rec.number) = some rec → rec.writing = some (toB, c) → rec.queued = [] → s.faults.flashFenced = false →
      ∃ t, exec (.tallyWriteDurable rec.number) s = .next t ∧ ∃ y ∈ t.flash.tally, y.number = rec.number ∧ y.building = none ∧
        (toB = true → y.copyB = some c ∧ y.copyA = rec.copyA) ∧ (toB = false → y.copyA = some c ∧ y.copyB = rec.copyB)) ∧
    (∃ t, exec .chestRemask s = .next t ∧ t.backup.chest = s.backup.chest ∧ t = { s with backup := t.backup }) ∧
    (s.mode.base ≠ .dormant → ∃ t, exec .drawerRefresh s = .next t ∧ t.cabinet.refreshNext = s.cabinet.refreshNext + 1 ∧ t = { s with cabinet := t.cabinet }) ∧
    (debugOpen s = true →
      exec (.debugPortAccess (.readRegister off)) s = .next { s with out := s.out ++ [.debugData off (readReg s 0 off)] } ∧
      (∃ t, exec (.debugPortAccess (.injectCorrectable src)) s = .next t ∧ t.faults.ceCount = min 4294967295 (s.faults.ceCount + 1)) ∧
      (s.life.state = 4 → s.life.debug = false →
        ∃ t, exec (.debugPortAccess .toScrapped) s = .next t ∧ t.life.state = 5 ∧ s.fuses.otp &&& t.fuses.otp = s.fuses.otp)) ∧
    (debugOpen s = false → s.mode.base ≠ .dormant → s.fuses.fused.getLsbD 22 = false → s.tamper.active.getLsbD 22 = false → s.tamper.stimulus ≠ some 22 → compatOn s = false →
      ∃ t, exec (.debugPortAccess .pinActivity) s = .next t ∧ t.backup.sticky.getLsbD 22 = true ∧ t.tamper.active.getLsbD 22 = true)

/-- STG_SUM is the CRC-16 of R103 (polynomial 0x1021, initial value 0xFFFF, no final XOR) over the entries in ascending place, each as its register offset and the register's stored value with its other fields zero, little-endian; so it depends on the set of entries alone, and an empty stage reads 0xFFFF. (R103) -/
def Obligations.stage_sum : Prop :=
  ∀ g : Stage, (g.entries.map fun e => (entryBytes e).1).Nodup →
    (∃ l : List (StagedField × Nat), l.Perm g.entries ∧ (l.map fun e => (entryBytes e).1).Pairwise (fun a b => a < b) ∧
      stageSum g = (l.flatMap fun e => leBytes 4 (fieldPlace e.1).1 ++ leBytes 4 (e.2 * 2 ^ (fieldPlace e.1).2.1)).foldl
        (fun (c : BitVec 16) (b : Byte) => (List.range 8).foldl (fun (c : BitVec 16) (k : Nat) => if c.getLsbD 15 != b.getLsbD (7 - k) then (c <<< 1) ^^^ 0x1021 else c <<< 1) c) (0xFFFF : BitVec 16)) ∧
    (g.entries = [] → stageSum g = 0xFFFF)

/-- No command, in any state, enables a tamper source that the fuses disable; and TAMPER_FUSE with a quorum disables any source but 19 in the field. The serial, the caps and burned life-cycle bits are one-way alike. (R2) -/
def Obligations.fused_sources_stay_disabled : Prop :=
  (∀ (c : Instr) (s t : State), exec c s = .next t →
    (∀ k, s.fuses.fused.getLsbD k = true → t.fuses.fused.getLsbD k = true) ∧
    t.fuses.serial = s.fuses.serial ∧ t.fuses.caps = s.fuses.caps ∧ s.fuses.otp &&& t.fuses.otp = s.fuses.otp) ∧
  (∀ (s : State) (b : Byte), OwnerRuns s (.tamperFuse b) → b.toNat < 24 → b.toNat ≠ 19 → quorumStands s = true →
    ∃ t, exec .tamperFuse s = .next t ∧ t.fuses.fused.getLsbD b.toNat = true)

/-- DEBUG_CHALLENGE that is answered draws 32 bytes from instance 16, returns them and makes them the outstanding nonce, whatever nonce stood before; every DEBUG_RESPONSE that the steward takes up consumes the nonce, whatever its outcome; POWER_FAIL loses it. (R531) -/
def Obligations.challenge_nonce : Prop :=
  ∀ (s t : State) (p : PortId) (q : BitVec 16) (k : Token),
    (usbOpen s p = true → s.mode.stewardLost = false → (s.mode.base = .wake ∨ s.mode.base = .hold) → bobbinFailed s = false → stewardDraws s = true →
      ∃ u n, exec (.debugChallenge p q) s = .next u ∧ n = (ctrGenerate 32 s.bobbin.instances[16]).1 ∧
        u.life.nonce = some n ∧ u.out = s.out ++ [.usb p 0x0030 q .ok n] ∧ u.bobbin.instances[16] = (ctrGenerate 32 s.bobbin.instances[16]).2) ∧
    (usbOpen s p = true → (stewardBusy s = false ∧ s.envelopes = []) ∨ s.mode.stewardLost = true → exec (.debugResponse p q k) s = .next t → t.life.nonce = none) ∧
    (s.mode.base ≠ .dormant → exec .powerFail s = .next t → t.life.nonce = none)

/-- Where the bobbin does not serve, the command of each of the twenty drawing operations listed ends its item with ENTROPY_FAIL and no output; the bobbin's state stays as it is. (R384) -/
def Obligations.draws_fail : Prop :=
  ∀ (s : State) (e : Engine) (i : Item) (input : Bytes) (fam op : Nat) (c : Instr), IdsApart s → s.bobbin.state ≠ .serving →
    (fam, op, c) ∈ [(0x01, 0x10, Instr.mlkemKeygen e), (0x01, 0x11, .mlkemEncaps e), (0x01, 0x13, .mlkemEncapsEk e input), (0x20, 0x18, .hybKeygen e),
      (0x20, 0x19, .hybEncaps e input), (0x02, 0x20, .mldsaKeygen e), (0x03, 0x28, .fndsaKeygen e), (0x03, 0x29, .fndsaSign e input 0), (0x21, 0x2C, .compositeKeygen e),
      (0x21, 0x2D, .compositeSign e input), (0x04, 0x30, .slhdsaKeygen e), (0x05, 0x38, .lmsKeygenStart e), (0x06, 0x40, .xmssKeygenStart e), (0x08, 0x58, .hqcKeygen e),
      (0x10, 0x60, .ecdsaKeygen e), (0x10, 0x61, .ecdsaSign e input), (0x11, 0x68, .eddsaKeygen e), (0x12, 0x6C, .xdhKeygen e), (0x13, 0x71, .rsaSign e input), (0x40, 0x01, .random e)] →
    (∀ inp, (inp = input ∧ c ∈ [Instr.mlkemEncapsEk e input, .hybEncaps e input, .fndsaSign e input 0, .compositeSign e input, .ecdsaSign e input, .rsaSign e input]) ∨
        (inp = [] ∧ c ∉ [Instr.mlkemEncapsEk e input, .hybEncaps e input, .fndsaSign e input 0, .compositeSign e input, .ecdsaSign e input, .rsaSign e input]) →
      Runs s e fam op inp i →
      ∃ t, exec c s = .next t ∧ Ended t i.id .entropyFail ∧ t.bobbin = s.bobbin)

/-- An operation changes no register, mode, pin, queue, port, slot or unit register: only the item, the instance it draws from, what its early end releases (drawers, records, the core of its loom, the trestle that resumes), a selvedge unit's last attempts and the event queue; where it ends its item, what waited is tried again. A card, digest-slot or bobbin command changes only its own unit, what goes out on the card bus or to the host, and the event queue, a read over USB 2.0 only sends its answer. (R4, R235, R249) -/
def Obligations.frames : Prop :=
  ∀ (c : Instr) (s t : State), exec c s = .next t →
    (isOperation c = true →
      ∃ u, (t = u ∨ t = settleAfterLeave u) ∧ u = { s with
        heddle := { s.heddle with items := u.heddle.items }
        bobbin := { s.bobbin with instances := u.bobbin.instances, buffers := u.bobbin.buffers }
        selvs := u.selvs
        looms := u.looms
        trestles := u.trestles
        runs := u.runs
        slices := u.slices
        cabinet := { s.cabinet with gens := u.cabinet.gens }
        flash := { s.flash with tally := u.flash.tally, lost := u.flash.lost }
        log := { s.log with queue := u.log.queue }
        backup := { s.backup with latch := u.backup.latch, lost := u.backup.lost, chest := { s.backup.chest with pointers := u.backup.chest.pointers, tag := u.backup.chest.tag } } }) ∧
    (isCardCommand c = true → ButEvents { s with cards := t.cards, out := t.out } t) ∧
    (isSlotCommand c = true → ButEvents { s with farm := t.farm, ports := t.ports, out := t.out, free := t.free } t) ∧
    (∀ core, c = .digestCoreAsk core → t = { s with farm := t.farm, heddle := { s.heddle with items := t.heddle.items } }) ∧
    (isBobbinCommand c = true → ButEvents { s with bobbin := t.bobbin } t) ∧
    (isUsbRead c = true → t = { s with out := t.out })

/-- With a command at the front of the queue, a step is exec of that command on the state with the queue's rest. With an empty queue the step is the model's choice (log entry 9): one fabric cycle passes, and the command queue stays empty. (R61) -/
def Obligations.step_runs_front : Prop :=
  (∀ (c : Instr) (rest : List Instr) (s : State), step { s with pending := c :: rest } = exec c { s with pending := rest }) ∧
  (∀ s : State, s.pending = [] → ∃ t, step s = .next t ∧ t.pending = [] ∧ (s.mode.base ≠ .dormant → t.clock = s.clock + 1))

/-- exec leaves the queue of waiting commands as it is, whatever the command and the state, so commands take effect first in, first out. (R121) -/
def Obligations.queue_untouched : Prop :=
  ∀ (c : Instr) (s t : State), exec c s = .next t → t.pending = s.pending ∧ ∃ l, t.out = s.out ++ l

/-- After reset the module is in Wake with an empty queue, no slice, queue or item; MOD_ID, the stage registers and MOD_STATUS read the reset values of their tables through every port; and the invariants of item numbers and of the life-cycle counter hold. The counter's own bits at reset are the model's choice (log entry 8). (R78, R110, R119) -/
def Obligations.reset_state : Prop :=
  State.reset.pending = [] ∧ State.reset.slices = [] ∧ State.reset.queues = [] ∧ State.reset.heddle.items = [] ∧ State.reset.mode.base = .wake ∧
  (∀ p : PortId, readReg State.reset p 0x0 = 0x96401D5F ∧ readReg State.reset p 0x10004 = 0 ∧ readReg State.reset p 0x10008 = 0x0000FFFF ∧
    readReg State.reset p 0x1000C = 0 ∧ readReg State.reset p 0x10014 = 0 ∧ readReg State.reset p 0x10018 = 0x01000100 ∧ readReg State.reset p 0x1001C = 0x01000100) ∧
  fieldOf (readReg State.reset 0 0x100) 0 4 = 1 ∧ IdsApart State.reset ∧ CounterLegal State.reset

/-- From every state in which each item has a number of its own below the next number, a step to a next state leads to such a state. (R143, R188) -/
def Obligations.item_numbers_kept : Prop :=
  ∀ s t : State, IdsApart s → step s = .next t → IdsApart t

/-- From every state in which no bit of group 5 is burned and the state and a running transition's target are codes up to 5, a step to a next state leads to such a state; and a burned bit stays burned. (R524, R525, R528, R529) -/
def Obligations.counter_kept : Prop :=
  ∀ s t : State, CounterLegal s → step s = .next t → CounterLegal t ∧ s.fuses.otp &&& t.fuses.otp = s.fuses.otp

end
end

