-- ==== Sys2Proof/Laws/Operations.lean ====
section
/-! SUPPORT. What an operation's command does to the item in service: one lemma for an operation without a draw and one
for an operation that draws, each with the states in which the command has no effect. -/

namespace Sys2Proof.Machine

/-- The command of the opcode in service loads its unit and forms the result; it changes nothing else that `f` does not. -/
theorem runOp_runs {fam op : Nat} {e : Engine} {input : Bytes} {f : Item → State → ItemResult × State} {s : State} {i : Item}
    (hs : servingOn s e = some i) (hf : famOf i.entry = fam) (ho : opOf i.entry = op) (hr : i.result = none)
    (hl : input.length = inputLen i.entry) :
    runOp fam op e input f s = formResult i input (f i (loadUnit i input [] s)).1 (f i (loadUnit i input [] s)).2 := by
  simp [runOp, hs, hf, ho, hr, hl]

/-- An engine with no item in service leaves the command without effect. -/
theorem runOp_idle {fam op : Nat} {e : Engine} {input : Bytes} {f : Item → State → ItemResult × State} {s : State}
    (hs : servingOn s e = none) : runOp fam op e input f s = s := by
  simp [runOp, hs]

/-- The same of an operation that draws, while the bobbin serves. -/
theorem runDrawOp_runs {fam op : Nat} {bytes : Item → Nat} {e : Engine} {input : Bytes}
    {f : Item → Bytes → State → ItemResult × State} {s : State} {i : Item}
    (hs : servingOn s e = some i) (hf : famOf i.entry = fam) (ho : opOf i.entry = op) (hr : i.result = none)
    (hl : input.length = inputLen i.entry) (hb : s.bobbin.state = .serving) :
    runDrawOp fam op bytes e input f s =
      formResult i input (f i (itemDraw i (bytes i) s).1 (loadUnit i input (itemDraw i (bytes i) s).1 (itemDraw i (bytes i) s).2)).1
        (f i (itemDraw i (bytes i) s).1 (loadUnit i input (itemDraw i (bytes i) s).1 (itemDraw i (bytes i) s).2)).2 := by
  simp [runDrawOp, hs, hf, ho, hr, hl, hb]

/-- With the bobbin out of service the item ends at once with ENTROPY_FAIL (R384). -/
theorem runDrawOp_fails {fam op : Nat} {bytes : Item → Nat} {e : Engine} {input : Bytes}
    {f : Item → Bytes → State → ItemResult × State} {s : State} {i : Item}
    (hs : servingOn s e = some i) (hf : famOf i.entry = fam) (ho : opOf i.entry = op) (hr : i.result = none)
    (hl : input.length = inputLen i.entry) (hb : s.bobbin.state ≠ .serving) :
    runDrawOp fam op bytes e input f s = settleAfterLeave (resumeTrestle i (failInService .entropyFail 0 i s)) := by
  simp [runDrawOp, hs, hf, ho, hr, hl, hb]

/-- An engine with no item in service leaves the command without effect. -/
theorem runDrawOp_idle {fam op : Nat} {bytes : Item → Nat} {e : Engine} {input : Bytes}
    {f : Item → Bytes → State → ItemResult × State} {s : State} (hs : servingOn s e = none) :
    runDrawOp fam op bytes e input f s = s := by
  simp [runDrawOp, hs]

/-- A value of an outside standard has the length asked for. -/
@[simp] theorem primBytes_length (p : Prim) (args : List Bytes) (n : Nat) : (primBytes p args n).length = n := by
  simp [primBytes]

@[simp] theorem leBytes_length (n v : Nat) : (leBytes n v).length = n := by simp [leBytes]

@[simp] theorem beBytes_length (n v : Nat) : (beBytes n v).length = n := by simp [beBytes]

@[simp] theorem zeros_length (n : Nat) : (zeros n).length = n := by simp [zeros]

/-- Loading a unit touches the trestles' contexts and the selvedge units' work stores alone. -/
theorem modContext_frame (i : Item) (f : JobContext → JobContext) (s : State) :
    modContext i f s = { s with trestles := (modContext i f s).trestles } := by
  unfold modContext
  split <;> rfl

theorem workContext_frame (i : Item) (fam set : Nat) (operands secret bits : Bytes) (s : State) :
    workContext i fam set operands secret bits s = { s with trestles := (workContext i fam set operands secret bits s).trestles } := by
  unfold workContext modContext
  cases trestleOf i <;> rfl

theorem loadUnit_frame (i : Item) (input drawn : Bytes) (s : State) :
    loadUnit i input drawn s = { s with trestles := (loadUnit i input drawn s).trestles, selvs := (loadUnit i input drawn s).selvs } := by
  unfold loadUnit
  split
  · rfl
  · rw [workContext_frame]
  · rfl

theorem loadPart_frame (i : Item) (fam set : Nat) (secret operands : Bytes) (s : State) :
    loadPart i fam set secret operands s = { s with trestles := (loadPart i fam set secret operands s).trestles } :=
  workContext_frame i fam set operands secret (contextBits i s) s

/-- Several Generate calls of `n` bytes give as many bytes as they ask for. -/
theorem ctrCalls_length (n k : Nat) (x : DrbgInstance) : (ctrCalls n k x).1.length = k * n := by
  induction k generalizing x with
  | zero => simp [ctrCalls]
  | succ k ih => simp [ctrCalls, ih, ctrGenerate, Nat.add_mul, Nat.add_comm]

/-- The drawn bytes are as many as asked for. -/
@[simp] theorem draw_length (i : InstId) (n : Nat) (s : State) : (draw i n s).1.length = n := by
  simp only [draw, List.length_take, ctrCalls_length, requestsOf]
  split <;> omega

@[simp] theorem drawBuffer_length (k : Fin 12) (n : Nat) (s : State) : (drawBuffer k n s).1.length = n := by
  simp [drawBuffer]

@[simp] theorem unitDraw_length (i : Item) (n : Nat) (s : State) : (unitDraw i n s).1.length = n := by
  unfold unitDraw
  split <;> simp

/-- A draw changes the bobbin alone. -/
theorem unitDraw_frame (i : Item) (n : Nat) (s : State) : (unitDraw i n s).2 = { s with bobbin := (unitDraw i n s).2.bobbin } := by
  unfold unitDraw
  split <;> rfl

/-- Of the bobbin it changes the instances and the buffers. -/
theorem unitDraw_bobbin (i : Item) (n : Nat) (s : State) :
    (unitDraw i n s).2.bobbin =
      { s.bobbin with instances := (unitDraw i n s).2.bobbin.instances, buffers := (unitDraw i n s).2.bobbin.buffers } := by
  unfold unitDraw
  split <;> rfl

/-- An item's draw changes the bobbin and the item's mark only. -/
theorem itemDraw_frame (i : Item) (n : Nat) (s : State) :
    (itemDraw i n s).2 = { s with heddle := (itemDraw i n s).2.heddle, bobbin := (itemDraw i n s).2.bobbin } := by
  unfold itemDraw unitDraw
  dsimp only
  split <;> rfl

@[simp] theorem itemDraw_length (i : Item) (n : Nat) (s : State) : (itemDraw i n s).1.length = n := by simp [itemDraw]

@[simp] theorem itemDraw_runs (i : Item) (n : Nat) (s : State) : (itemDraw i n s).2.runs = s.runs := by rw [itemDraw_frame]
@[simp] theorem itemDraw_slices (i : Item) (n : Nat) (s : State) : (itemDraw i n s).2.slices = s.slices := by rw [itemDraw_frame]
@[simp] theorem itemDraw_looms (i : Item) (n : Nat) (s : State) : (itemDraw i n s).2.looms = s.looms := by rw [itemDraw_frame]
@[simp] theorem itemDraw_selvs (i : Item) (n : Nat) (s : State) : (itemDraw i n s).2.selvs = s.selvs := by rw [itemDraw_frame]
@[simp] theorem itemDraw_backup (i : Item) (n : Nat) (s : State) : (itemDraw i n s).2.backup = s.backup := by rw [itemDraw_frame]

/-! ### The chest, its shares and the keyed hashes (R390 to R394, R404) -/

@[simp] theorem kmac256_length (key x : Bytes) (n : Nat) (label : Bytes) : (kmac256 key x n label).length = n := by simp [kmac256]
@[simp] theorem sha_length (alg : Nat) (m : Bytes) : (sha alg m).length = shaLen alg := by simp [sha]
@[simp] theorem hmac_length (alg : Nat) (key m : Bytes) : (hmac alg key m).length = shaLen alg := by simp [hmac]

theorem hkdfBlocks_length (alg : Nat) (prk info : Bytes) (n i : Nat) (prev : Bytes) :
    (hkdfBlocks alg prk info n i prev).length = n * shaLen alg := by
  induction n generalizing i prev with
  | zero => simp [hkdfBlocks]
  | succ n ih => simp [hkdfBlocks, ih, Nat.add_mul]; omega

@[simp] theorem hkdfExpand_length (alg : Nat) (prk info : Bytes) (n : Nat) : (hkdfExpand alg prk info n).length = n := by
  have h : n ≤ (n + shaLen alg - 1) / shaLen alg * shaLen alg := by
    have : 0 < shaLen alg := by unfold shaLen; split <;> (try split) <;> omega
    have := Nat.div_add_mod (n + shaLen alg - 1) (shaLen alg)
    have := Nat.mod_lt (n + shaLen alg - 1) ‹0 < shaLen alg›
    rw [Nat.mul_comm]; omega
  simp [hkdfExpand, hkdfBlocks_length]; omega

/-- A write of the chest touches nothing else, and leaves a right tag. -/
theorem writeChest_frame (f : Chest → Chest) (s : State) :
    writeChest f s = { s with backup := { s.backup with chest := (writeChest f s).backup.chest } } := rfl

theorem writeChest_tag (f : Chest → Chest) (s : State) :
    (writeChest f s).backup.chest.tag = chestTag s.fuses.serial (writeChest f s).backup.chest := rfl

/-- Two shares join to their word, whatever the mask. -/
theorem sharePair_joins (mask w : BitVec 64) : (sharePair mask w).1 ^^^ (sharePair mask w).2 = w := by
  simp [sharePair]

/-! ### Lengths of stateful signatures (R296) -/

@[simp] theorem lmsSig_length (set h q : Nat) (key msg : Bytes) :
    (lmsSig set h q key msg).length = lmsSigLen (statefulN 0x05 set) (set / 16 % 4) h := by
  simp [lmsSig, lmsSigLen, lmsRandomiser]; omega

@[simp] theorem lmsPk_length (set h : Nat) (key : Bytes) : (lmsPk set h key).length = 24 + statefulN 0x05 set := by
  simp [lmsPk]; omega

theorem hssSig_length (set n : Nat) (content msg : Bytes) (hs : List Nat) (level : Nat) (hne : hs ≠ []) :
    (hssSig set n content msg level hs).length =
      (hs.dropLast.map fun h => lmsSigLen (statefulN 0x05 set) (set / 16 % 4) h + 24 + statefulN 0x05 set).sum
        + lmsSigLen (statefulN 0x05 set) (set / 16 % 4) (hs.getLastD 0) := by
  induction hs generalizing level with
  | nil => contradiction
  | cons h rest ih =>
    cases rest with
    | nil => simp [hssSig]
    | cons h' rest =>
      have := ih (level + 1) (by simp)
      simp [hssSig, this]
      omega

theorem xmssLayers_length (set n : Nat) (content msg : Bytes) (hs : List Nat) (level : Nat) :
    (xmssLayers set n content msg level hs).length =
      hs.length * (wotsLen (statefulN 0x06 set) * statefulN 0x06 set) + hs.sum * statefulN 0x06 set := by
  induction hs generalizing level with
  | nil => simp [xmssLayers]
  | cons h rest ih =>
    simp [xmssLayers, ih]
    ring

/-- A stateful signature has the length that R296 gives its set. -/
theorem statefulSigOf_length (fam set n : Nat) (content msg : Bytes) (hf : fam = 0x05 ∨ fam = 0x06) :
    (statefulSigOf fam set n content msg).length = statefulSigLen fam set := by
  rcases hf with rfl | rfl
  · have hne : ∀ hs, statefulHeights 0x05 set = some hs → hs ≠ [] := by
      intro hs h he
      subst he
      revert h
      simp only [statefulHeights, lmsHeights, ↓reduceIte]
      split <;> simp
    cases h : statefulHeights 0x05 set with
    | none => simp [statefulSigOf, statefulSigLen, h]
    | some hs => simp [statefulSigOf, statefulSigLen, h, hssSig_length set n content msg hs 0 (hne hs h)]; omega
  · cases h : statefulHeights 0x06 set with
    | none => simp [statefulSigOf, statefulSigLen, h]
    | some hs =>
      have one : set < 128 → hs.length = 1 := by
        intro hl
        revert h
        simp only [statefulHeights, xmssHeights, hl]
        intro h
        simp at h
        revert h
        split <;> intro h <;> simp at h <;> subst h <;> rfl
      by_cases hl : set < 128
      · simp [statefulSigOf, statefulSigLen, xmssSig, h, xmssLayers_length, xmssIndexLen, hl, one hl]; omega
      · simp [statefulSigOf, statefulSigLen, xmssSig, h, xmssLayers_length, xmssIndexLen, hl]; omega

/-- What a key stream covers it uncovers. -/
theorem xorBytes_xorBytes (a b : Bytes) (h : a.length ≤ b.length) : xorBytes (xorBytes a b) b = a := by
  induction a generalizing b with
  | nil => simp [xorBytes]
  | cons x xs ih =>
    cases b with
    | nil => simp at h
    | cons y ys => simpa [xorBytes, BitVec.xor_assoc] using ih ys (by simpa using h)

@[simp] theorem gcmCipher_length (key iv text : Bytes) : (gcmCipher key iv text).length = text.length := by
  simp [gcmCipher, gcmStream, xorBytes]

/-- A ciphertext with its tag opens to the text (R399, R456). -/
theorem gcmOpen_gcmCipher (key iv aad text : Bytes) :
    gcmOpen key iv aad (gcmCipher key iv text) (gcmTag key iv aad (gcmCipher key iv text)) = some text := by
  have h : gcmCipher key iv (gcmCipher key iv text) = text := by
    unfold gcmCipher
    rw [show (xorBytes text (gcmStream key iv text.length)).length = text.length from gcmCipher_length key iv text]
    exact xorBytes_xorBytes _ _ (by simp [gcmStream])
  simp [gcmOpen, h]

end Sys2Proof.Machine
end

