-- ==== Sys2Proof/Laws/State.lean ====
section
/-! SUPPORT. What each update of one unit, each event and each transaction leaves unchanged, and what it gives back for the
unit it replaces: one lemma per field, true by unfolding the update. -/

namespace Sys2Proof.Machine

/-! ### `modPort` -/

@[simp] theorem modPort_pending (p : PortId) (f : Port → Port) (s : State) : (modPort p f s).pending = s.pending := rfl
@[simp] theorem modPort_out (p : PortId) (f : Port → Port) (s : State) : (modPort p f s).out = s.out := rfl
@[simp] theorem modPort_clock (p : PortId) (f : Port → Port) (s : State) : (modPort p f s).clock = s.clock := rfl
@[simp] theorem modPort_free (p : PortId) (f : Port → Port) (s : State) : (modPort p f s).free = s.free := rfl
@[simp] theorem modPort_fuses (p : PortId) (f : Port → Port) (s : State) : (modPort p f s).fuses = s.fuses := rfl
@[simp] theorem modPort_flash (p : PortId) (f : Port → Port) (s : State) : (modPort p f s).flash = s.flash := rfl
@[simp] theorem modPort_backup (p : PortId) (f : Port → Port) (s : State) : (modPort p f s).backup = s.backup := rfl
@[simp] theorem modPort_power (p : PortId) (f : Port → Port) (s : State) : (modPort p f s).power = s.power := rfl
@[simp] theorem modPort_mode (p : PortId) (f : Port → Port) (s : State) : (modPort p f s).mode = s.mode := rfl
@[simp] theorem modPort_draft (p : PortId) (f : Port → Port) (s : State) : (modPort p f s).draft = s.draft := rfl
@[simp] theorem modPort_shares (p : PortId) (f : Port → Port) (s : State) : (modPort p f s).shares = s.shares := rfl
@[simp] theorem modPort_device (p : PortId) (f : Port → Port) (s : State) : (modPort p f s).device = s.device := rfl
@[simp] theorem modPort_slices (p : PortId) (f : Port → Port) (s : State) : (modPort p f s).slices = s.slices := rfl
@[simp] theorem modPort_queues (p : PortId) (f : Port → Port) (s : State) : (modPort p f s).queues = s.queues := rfl
@[simp] theorem modPort_heddle (p : PortId) (f : Port → Port) (s : State) : (modPort p f s).heddle = s.heddle := rfl
@[simp] theorem modPort_looms (p : PortId) (f : Port → Port) (s : State) : (modPort p f s).looms = s.looms := rfl
@[simp] theorem modPort_benches (p : PortId) (f : Port → Port) (s : State) : (modPort p f s).benches = s.benches := rfl
@[simp] theorem modPort_trestles (p : PortId) (f : Port → Port) (s : State) : (modPort p f s).trestles = s.trestles := rfl
@[simp] theorem modPort_selvs (p : PortId) (f : Port → Port) (s : State) : (modPort p f s).selvs = s.selvs := rfl
@[simp] theorem modPort_farm (p : PortId) (f : Port → Port) (s : State) : (modPort p f s).farm = s.farm := rfl
@[simp] theorem modPort_bobbin (p : PortId) (f : Port → Port) (s : State) : (modPort p f s).bobbin = s.bobbin := rfl
@[simp] theorem modPort_cabinet (p : PortId) (f : Port → Port) (s : State) : (modPort p f s).cabinet = s.cabinet := rfl
@[simp] theorem modPort_runs (p : PortId) (f : Port → Port) (s : State) : (modPort p f s).runs = s.runs := rfl
@[simp] theorem modPort_cards (p : PortId) (f : Port → Port) (s : State) : (modPort p f s).cards = s.cards := rfl
@[simp] theorem modPort_ceremony (p : PortId) (f : Port → Port) (s : State) : (modPort p f s).ceremony = s.ceremony := rfl
@[simp] theorem modPort_tamper (p : PortId) (f : Port → Port) (s : State) : (modPort p f s).tamper = s.tamper := rfl
@[simp] theorem modPort_faults (p : PortId) (f : Port → Port) (s : State) : (modPort p f s).faults = s.faults := rfl
@[simp] theorem modPort_cal (p : PortId) (f : Port → Port) (s : State) : (modPort p f s).cal = s.cal := rfl
@[simp] theorem modPort_log (p : PortId) (f : Port → Port) (s : State) : (modPort p f s).log = s.log := rfl
@[simp] theorem modPort_life (p : PortId) (f : Port → Port) (s : State) : (modPort p f s).life = s.life := rfl
@[simp] theorem modPort_owner (p : PortId) (f : Port → Port) (s : State) : (modPort p f s).owner = s.owner := rfl
@[simp] theorem modPort_envelopes (p : PortId) (f : Port → Port) (s : State) : (modPort p f s).envelopes = s.envelopes := rfl

/-! ### `modLoom` -/

@[simp] theorem modLoom_pending (n : LoomId) (f : Loom → Loom) (s : State) : (modLoom n f s).pending = s.pending := rfl
@[simp] theorem modLoom_out (n : LoomId) (f : Loom → Loom) (s : State) : (modLoom n f s).out = s.out := rfl
@[simp] theorem modLoom_clock (n : LoomId) (f : Loom → Loom) (s : State) : (modLoom n f s).clock = s.clock := rfl
@[simp] theorem modLoom_free (n : LoomId) (f : Loom → Loom) (s : State) : (modLoom n f s).free = s.free := rfl
@[simp] theorem modLoom_fuses (n : LoomId) (f : Loom → Loom) (s : State) : (modLoom n f s).fuses = s.fuses := rfl
@[simp] theorem modLoom_flash (n : LoomId) (f : Loom → Loom) (s : State) : (modLoom n f s).flash = s.flash := rfl
@[simp] theorem modLoom_backup (n : LoomId) (f : Loom → Loom) (s : State) : (modLoom n f s).backup = s.backup := rfl
@[simp] theorem modLoom_power (n : LoomId) (f : Loom → Loom) (s : State) : (modLoom n f s).power = s.power := rfl
@[simp] theorem modLoom_mode (n : LoomId) (f : Loom → Loom) (s : State) : (modLoom n f s).mode = s.mode := rfl
@[simp] theorem modLoom_draft (n : LoomId) (f : Loom → Loom) (s : State) : (modLoom n f s).draft = s.draft := rfl
@[simp] theorem modLoom_shares (n : LoomId) (f : Loom → Loom) (s : State) : (modLoom n f s).shares = s.shares := rfl
@[simp] theorem modLoom_device (n : LoomId) (f : Loom → Loom) (s : State) : (modLoom n f s).device = s.device := rfl
@[simp] theorem modLoom_ports (n : LoomId) (f : Loom → Loom) (s : State) : (modLoom n f s).ports = s.ports := rfl
@[simp] theorem modLoom_slices (n : LoomId) (f : Loom → Loom) (s : State) : (modLoom n f s).slices = s.slices := rfl
@[simp] theorem modLoom_queues (n : LoomId) (f : Loom → Loom) (s : State) : (modLoom n f s).queues = s.queues := rfl
@[simp] theorem modLoom_heddle (n : LoomId) (f : Loom → Loom) (s : State) : (modLoom n f s).heddle = s.heddle := rfl
@[simp] theorem modLoom_benches (n : LoomId) (f : Loom → Loom) (s : State) : (modLoom n f s).benches = s.benches := rfl
@[simp] theorem modLoom_trestles (n : LoomId) (f : Loom → Loom) (s : State) : (modLoom n f s).trestles = s.trestles := rfl
@[simp] theorem modLoom_selvs (n : LoomId) (f : Loom → Loom) (s : State) : (modLoom n f s).selvs = s.selvs := rfl
@[simp] theorem modLoom_farm (n : LoomId) (f : Loom → Loom) (s : State) : (modLoom n f s).farm = s.farm := rfl
@[simp] theorem modLoom_bobbin (n : LoomId) (f : Loom → Loom) (s : State) : (modLoom n f s).bobbin = s.bobbin := rfl
@[simp] theorem modLoom_cabinet (n : LoomId) (f : Loom → Loom) (s : State) : (modLoom n f s).cabinet = s.cabinet := rfl
@[simp] theorem modLoom_runs (n : LoomId) (f : Loom → Loom) (s : State) : (modLoom n f s).runs = s.runs := rfl
@[simp] theorem modLoom_cards (n : LoomId) (f : Loom → Loom) (s : State) : (modLoom n f s).cards = s.cards := rfl
@[simp] theorem modLoom_ceremony (n : LoomId) (f : Loom → Loom) (s : State) : (modLoom n f s).ceremony = s.ceremony := rfl
@[simp] theorem modLoom_tamper (n : LoomId) (f : Loom → Loom) (s : State) : (modLoom n f s).tamper = s.tamper := rfl
@[simp] theorem modLoom_faults (n : LoomId) (f : Loom → Loom) (s : State) : (modLoom n f s).faults = s.faults := rfl
@[simp] theorem modLoom_cal (n : LoomId) (f : Loom → Loom) (s : State) : (modLoom n f s).cal = s.cal := rfl
@[simp] theorem modLoom_log (n : LoomId) (f : Loom → Loom) (s : State) : (modLoom n f s).log = s.log := rfl
@[simp] theorem modLoom_life (n : LoomId) (f : Loom → Loom) (s : State) : (modLoom n f s).life = s.life := rfl
@[simp] theorem modLoom_owner (n : LoomId) (f : Loom → Loom) (s : State) : (modLoom n f s).owner = s.owner := rfl
@[simp] theorem modLoom_envelopes (n : LoomId) (f : Loom → Loom) (s : State) : (modLoom n f s).envelopes = s.envelopes := rfl

/-! ### `modBench` -/

@[simp] theorem modBench_pending (b : BenchId) (f : Bench → Bench) (s : State) : (modBench b f s).pending = s.pending := rfl
@[simp] theorem modBench_out (b : BenchId) (f : Bench → Bench) (s : State) : (modBench b f s).out = s.out := rfl
@[simp] theorem modBench_clock (b : BenchId) (f : Bench → Bench) (s : State) : (modBench b f s).clock = s.clock := rfl
@[simp] theorem modBench_free (b : BenchId) (f : Bench → Bench) (s : State) : (modBench b f s).free = s.free := rfl
@[simp] theorem modBench_fuses (b : BenchId) (f : Bench → Bench) (s : State) : (modBench b f s).fuses = s.fuses := rfl
@[simp] theorem modBench_flash (b : BenchId) (f : Bench → Bench) (s : State) : (modBench b f s).flash = s.flash := rfl
@[simp] theorem modBench_backup (b : BenchId) (f : Bench → Bench) (s : State) : (modBench b f s).backup = s.backup := rfl
@[simp] theorem modBench_power (b : BenchId) (f : Bench → Bench) (s : State) : (modBench b f s).power = s.power := rfl
@[simp] theorem modBench_mode (b : BenchId) (f : Bench → Bench) (s : State) : (modBench b f s).mode = s.mode := rfl
@[simp] theorem modBench_draft (b : BenchId) (f : Bench → Bench) (s : State) : (modBench b f s).draft = s.draft := rfl
@[simp] theorem modBench_shares (b : BenchId) (f : Bench → Bench) (s : State) : (modBench b f s).shares = s.shares := rfl
@[simp] theorem modBench_device (b : BenchId) (f : Bench → Bench) (s : State) : (modBench b f s).device = s.device := rfl
@[simp] theorem modBench_ports (b : BenchId) (f : Bench → Bench) (s : State) : (modBench b f s).ports = s.ports := rfl
@[simp] theorem modBench_slices (b : BenchId) (f : Bench → Bench) (s : State) : (modBench b f s).slices = s.slices := rfl
@[simp] theorem modBench_queues (b : BenchId) (f : Bench → Bench) (s : State) : (modBench b f s).queues = s.queues := rfl
@[simp] theorem modBench_heddle (b : BenchId) (f : Bench → Bench) (s : State) : (modBench b f s).heddle = s.heddle := rfl
@[simp] theorem modBench_looms (b : BenchId) (f : Bench → Bench) (s : State) : (modBench b f s).looms = s.looms := rfl
@[simp] theorem modBench_trestles (b : BenchId) (f : Bench → Bench) (s : State) : (modBench b f s).trestles = s.trestles := rfl
@[simp] theorem modBench_selvs (b : BenchId) (f : Bench → Bench) (s : State) : (modBench b f s).selvs = s.selvs := rfl
@[simp] theorem modBench_farm (b : BenchId) (f : Bench → Bench) (s : State) : (modBench b f s).farm = s.farm := rfl
@[simp] theorem modBench_bobbin (b : BenchId) (f : Bench → Bench) (s : State) : (modBench b f s).bobbin = s.bobbin := rfl
@[simp] theorem modBench_cabinet (b : BenchId) (f : Bench → Bench) (s : State) : (modBench b f s).cabinet = s.cabinet := rfl
@[simp] theorem modBench_runs (b : BenchId) (f : Bench → Bench) (s : State) : (modBench b f s).runs = s.runs := rfl
@[simp] theorem modBench_cards (b : BenchId) (f : Bench → Bench) (s : State) : (modBench b f s).cards = s.cards := rfl
@[simp] theorem modBench_ceremony (b : BenchId) (f : Bench → Bench) (s : State) : (modBench b f s).ceremony = s.ceremony := rfl
@[simp] theorem modBench_tamper (b : BenchId) (f : Bench → Bench) (s : State) : (modBench b f s).tamper = s.tamper := rfl
@[simp] theorem modBench_faults (b : BenchId) (f : Bench → Bench) (s : State) : (modBench b f s).faults = s.faults := rfl
@[simp] theorem modBench_cal (b : BenchId) (f : Bench → Bench) (s : State) : (modBench b f s).cal = s.cal := rfl
@[simp] theorem modBench_log (b : BenchId) (f : Bench → Bench) (s : State) : (modBench b f s).log = s.log := rfl
@[simp] theorem modBench_life (b : BenchId) (f : Bench → Bench) (s : State) : (modBench b f s).life = s.life := rfl
@[simp] theorem modBench_owner (b : BenchId) (f : Bench → Bench) (s : State) : (modBench b f s).owner = s.owner := rfl
@[simp] theorem modBench_envelopes (b : BenchId) (f : Bench → Bench) (s : State) : (modBench b f s).envelopes = s.envelopes := rfl

/-! ### `modTrestle` -/

@[simp] theorem modTrestle_pending (t : TrestleId) (f : Trestle → Trestle) (s : State) : (modTrestle t f s).pending = s.pending := rfl
@[simp] theorem modTrestle_out (t : TrestleId) (f : Trestle → Trestle) (s : State) : (modTrestle t f s).out = s.out := rfl
@[simp] theorem modTrestle_clock (t : TrestleId) (f : Trestle → Trestle) (s : State) : (modTrestle t f s).clock = s.clock := rfl
@[simp] theorem modTrestle_free (t : TrestleId) (f : Trestle → Trestle) (s : State) : (modTrestle t f s).free = s.free := rfl
@[simp] theorem modTrestle_fuses (t : TrestleId) (f : Trestle → Trestle) (s : State) : (modTrestle t f s).fuses = s.fuses := rfl
@[simp] theorem modTrestle_flash (t : TrestleId) (f : Trestle → Trestle) (s : State) : (modTrestle t f s).flash = s.flash := rfl
@[simp] theorem modTrestle_backup (t : TrestleId) (f : Trestle → Trestle) (s : State) : (modTrestle t f s).backup = s.backup := rfl
@[simp] theorem modTrestle_power (t : TrestleId) (f : Trestle → Trestle) (s : State) : (modTrestle t f s).power = s.power := rfl
@[simp] theorem modTrestle_mode (t : TrestleId) (f : Trestle → Trestle) (s : State) : (modTrestle t f s).mode = s.mode := rfl
@[simp] theorem modTrestle_draft (t : TrestleId) (f : Trestle → Trestle) (s : State) : (modTrestle t f s).draft = s.draft := rfl
@[simp] theorem modTrestle_shares (t : TrestleId) (f : Trestle → Trestle) (s : State) : (modTrestle t f s).shares = s.shares := rfl
@[simp] theorem modTrestle_device (t : TrestleId) (f : Trestle → Trestle) (s : State) : (modTrestle t f s).device = s.device := rfl
@[simp] theorem modTrestle_ports (t : TrestleId) (f : Trestle → Trestle) (s : State) : (modTrestle t f s).ports = s.ports := rfl
@[simp] theorem modTrestle_slices (t : TrestleId) (f : Trestle → Trestle) (s : State) : (modTrestle t f s).slices = s.slices := rfl
@[simp] theorem modTrestle_queues (t : TrestleId) (f : Trestle → Trestle) (s : State) : (modTrestle t f s).queues = s.queues := rfl
@[simp] theorem modTrestle_heddle (t : TrestleId) (f : Trestle → Trestle) (s : State) : (modTrestle t f s).heddle = s.heddle := rfl
@[simp] theorem modTrestle_looms (t : TrestleId) (f : Trestle → Trestle) (s : State) : (modTrestle t f s).looms = s.looms := rfl
@[simp] theorem modTrestle_benches (t : TrestleId) (f : Trestle → Trestle) (s : State) : (modTrestle t f s).benches = s.benches := rfl
@[simp] theorem modTrestle_selvs (t : TrestleId) (f : Trestle → Trestle) (s : State) : (modTrestle t f s).selvs = s.selvs := rfl
@[simp] theorem modTrestle_farm (t : TrestleId) (f : Trestle → Trestle) (s : State) : (modTrestle t f s).farm = s.farm := rfl
@[simp] theorem modTrestle_bobbin (t : TrestleId) (f : Trestle → Trestle) (s : State) : (modTrestle t f s).bobbin = s.bobbin := rfl
@[simp] theorem modTrestle_cabinet (t : TrestleId) (f : Trestle → Trestle) (s : State) : (modTrestle t f s).cabinet = s.cabinet := rfl
@[simp] theorem modTrestle_runs (t : TrestleId) (f : Trestle → Trestle) (s : State) : (modTrestle t f s).runs = s.runs := rfl
@[simp] theorem modTrestle_cards (t : TrestleId) (f : Trestle → Trestle) (s : State) : (modTrestle t f s).cards = s.cards := rfl
@[simp] theorem modTrestle_ceremony (t : TrestleId) (f : Trestle → Trestle) (s : State) : (modTrestle t f s).ceremony = s.ceremony := rfl
@[simp] theorem modTrestle_tamper (t : TrestleId) (f : Trestle → Trestle) (s : State) : (modTrestle t f s).tamper = s.tamper := rfl
@[simp] theorem modTrestle_faults (t : TrestleId) (f : Trestle → Trestle) (s : State) : (modTrestle t f s).faults = s.faults := rfl
@[simp] theorem modTrestle_cal (t : TrestleId) (f : Trestle → Trestle) (s : State) : (modTrestle t f s).cal = s.cal := rfl
@[simp] theorem modTrestle_log (t : TrestleId) (f : Trestle → Trestle) (s : State) : (modTrestle t f s).log = s.log := rfl
@[simp] theorem modTrestle_life (t : TrestleId) (f : Trestle → Trestle) (s : State) : (modTrestle t f s).life = s.life := rfl
@[simp] theorem modTrestle_owner (t : TrestleId) (f : Trestle → Trestle) (s : State) : (modTrestle t f s).owner = s.owner := rfl
@[simp] theorem modTrestle_envelopes (t : TrestleId) (f : Trestle → Trestle) (s : State) : (modTrestle t f s).envelopes = s.envelopes := rfl

/-! ### `modSelv` -/

@[simp] theorem modSelv_pending (u : SelvId) (f : Selvedge → Selvedge) (s : State) : (modSelv u f s).pending = s.pending := rfl
@[simp] theorem modSelv_out (u : SelvId) (f : Selvedge → Selvedge) (s : State) : (modSelv u f s).out = s.out := rfl
@[simp] theorem modSelv_clock (u : SelvId) (f : Selvedge → Selvedge) (s : State) : (modSelv u f s).clock = s.clock := rfl
@[simp] theorem modSelv_free (u : SelvId) (f : Selvedge → Selvedge) (s : State) : (modSelv u f s).free = s.free := rfl
@[simp] theorem modSelv_fuses (u : SelvId) (f : Selvedge → Selvedge) (s : State) : (modSelv u f s).fuses = s.fuses := rfl
@[simp] theorem modSelv_flash (u : SelvId) (f : Selvedge → Selvedge) (s : State) : (modSelv u f s).flash = s.flash := rfl
@[simp] theorem modSelv_backup (u : SelvId) (f : Selvedge → Selvedge) (s : State) : (modSelv u f s).backup = s.backup := rfl
@[simp] theorem modSelv_power (u : SelvId) (f : Selvedge → Selvedge) (s : State) : (modSelv u f s).power = s.power := rfl
@[simp] theorem modSelv_mode (u : SelvId) (f : Selvedge → Selvedge) (s : State) : (modSelv u f s).mode = s.mode := rfl
@[simp] theorem modSelv_draft (u : SelvId) (f : Selvedge → Selvedge) (s : State) : (modSelv u f s).draft = s.draft := rfl
@[simp] theorem modSelv_shares (u : SelvId) (f : Selvedge → Selvedge) (s : State) : (modSelv u f s).shares = s.shares := rfl
@[simp] theorem modSelv_device (u : SelvId) (f : Selvedge → Selvedge) (s : State) : (modSelv u f s).device = s.device := rfl
@[simp] theorem modSelv_ports (u : SelvId) (f : Selvedge → Selvedge) (s : State) : (modSelv u f s).ports = s.ports := rfl
@[simp] theorem modSelv_slices (u : SelvId) (f : Selvedge → Selvedge) (s : State) : (modSelv u f s).slices = s.slices := rfl
@[simp] theorem modSelv_queues (u : SelvId) (f : Selvedge → Selvedge) (s : State) : (modSelv u f s).queues = s.queues := rfl
@[simp] theorem modSelv_heddle (u : SelvId) (f : Selvedge → Selvedge) (s : State) : (modSelv u f s).heddle = s.heddle := rfl
@[simp] theorem modSelv_looms (u : SelvId) (f : Selvedge → Selvedge) (s : State) : (modSelv u f s).looms = s.looms := rfl
@[simp] theorem modSelv_benches (u : SelvId) (f : Selvedge → Selvedge) (s : State) : (modSelv u f s).benches = s.benches := rfl
@[simp] theorem modSelv_trestles (u : SelvId) (f : Selvedge → Selvedge) (s : State) : (modSelv u f s).trestles = s.trestles := rfl
@[simp] theorem modSelv_farm (u : SelvId) (f : Selvedge → Selvedge) (s : State) : (modSelv u f s).farm = s.farm := rfl
@[simp] theorem modSelv_bobbin (u : SelvId) (f : Selvedge → Selvedge) (s : State) : (modSelv u f s).bobbin = s.bobbin := rfl
@[simp] theorem modSelv_cabinet (u : SelvId) (f : Selvedge → Selvedge) (s : State) : (modSelv u f s).cabinet = s.cabinet := rfl
@[simp] theorem modSelv_runs (u : SelvId) (f : Selvedge → Selvedge) (s : State) : (modSelv u f s).runs = s.runs := rfl
@[simp] theorem modSelv_cards (u : SelvId) (f : Selvedge → Selvedge) (s : State) : (modSelv u f s).cards = s.cards := rfl
@[simp] theorem modSelv_ceremony (u : SelvId) (f : Selvedge → Selvedge) (s : State) : (modSelv u f s).ceremony = s.ceremony := rfl
@[simp] theorem modSelv_tamper (u : SelvId) (f : Selvedge → Selvedge) (s : State) : (modSelv u f s).tamper = s.tamper := rfl
@[simp] theorem modSelv_faults (u : SelvId) (f : Selvedge → Selvedge) (s : State) : (modSelv u f s).faults = s.faults := rfl
@[simp] theorem modSelv_cal (u : SelvId) (f : Selvedge → Selvedge) (s : State) : (modSelv u f s).cal = s.cal := rfl
@[simp] theorem modSelv_log (u : SelvId) (f : Selvedge → Selvedge) (s : State) : (modSelv u f s).log = s.log := rfl
@[simp] theorem modSelv_life (u : SelvId) (f : Selvedge → Selvedge) (s : State) : (modSelv u f s).life = s.life := rfl
@[simp] theorem modSelv_owner (u : SelvId) (f : Selvedge → Selvedge) (s : State) : (modSelv u f s).owner = s.owner := rfl
@[simp] theorem modSelv_envelopes (u : SelvId) (f : Selvedge → Selvedge) (s : State) : (modSelv u f s).envelopes = s.envelopes := rfl

/-! ### `modCard` -/

@[simp] theorem modCard_pending (c : CardSlot) (f : CardState → CardState) (s : State) : (modCard c f s).pending = s.pending := rfl
@[simp] theorem modCard_out (c : CardSlot) (f : CardState → CardState) (s : State) : (modCard c f s).out = s.out := rfl
@[simp] theorem modCard_clock (c : CardSlot) (f : CardState → CardState) (s : State) : (modCard c f s).clock = s.clock := rfl
@[simp] theorem modCard_free (c : CardSlot) (f : CardState → CardState) (s : State) : (modCard c f s).free = s.free := rfl
@[simp] theorem modCard_fuses (c : CardSlot) (f : CardState → CardState) (s : State) : (modCard c f s).fuses = s.fuses := rfl
@[simp] theorem modCard_flash (c : CardSlot) (f : CardState → CardState) (s : State) : (modCard c f s).flash = s.flash := rfl
@[simp] theorem modCard_backup (c : CardSlot) (f : CardState → CardState) (s : State) : (modCard c f s).backup = s.backup := rfl
@[simp] theorem modCard_power (c : CardSlot) (f : CardState → CardState) (s : State) : (modCard c f s).power = s.power := rfl
@[simp] theorem modCard_mode (c : CardSlot) (f : CardState → CardState) (s : State) : (modCard c f s).mode = s.mode := rfl
@[simp] theorem modCard_draft (c : CardSlot) (f : CardState → CardState) (s : State) : (modCard c f s).draft = s.draft := rfl
@[simp] theorem modCard_shares (c : CardSlot) (f : CardState → CardState) (s : State) : (modCard c f s).shares = s.shares := rfl
@[simp] theorem modCard_device (c : CardSlot) (f : CardState → CardState) (s : State) : (modCard c f s).device = s.device := rfl
@[simp] theorem modCard_ports (c : CardSlot) (f : CardState → CardState) (s : State) : (modCard c f s).ports = s.ports := rfl
@[simp] theorem modCard_slices (c : CardSlot) (f : CardState → CardState) (s : State) : (modCard c f s).slices = s.slices := rfl
@[simp] theorem modCard_queues (c : CardSlot) (f : CardState → CardState) (s : State) : (modCard c f s).queues = s.queues := rfl
@[simp] theorem modCard_heddle (c : CardSlot) (f : CardState → CardState) (s : State) : (modCard c f s).heddle = s.heddle := rfl
@[simp] theorem modCard_looms (c : CardSlot) (f : CardState → CardState) (s : State) : (modCard c f s).looms = s.looms := rfl
@[simp] theorem modCard_benches (c : CardSlot) (f : CardState → CardState) (s : State) : (modCard c f s).benches = s.benches := rfl
@[simp] theorem modCard_trestles (c : CardSlot) (f : CardState → CardState) (s : State) : (modCard c f s).trestles = s.trestles := rfl
@[simp] theorem modCard_selvs (c : CardSlot) (f : CardState → CardState) (s : State) : (modCard c f s).selvs = s.selvs := rfl
@[simp] theorem modCard_farm (c : CardSlot) (f : CardState → CardState) (s : State) : (modCard c f s).farm = s.farm := rfl
@[simp] theorem modCard_bobbin (c : CardSlot) (f : CardState → CardState) (s : State) : (modCard c f s).bobbin = s.bobbin := rfl
@[simp] theorem modCard_cabinet (c : CardSlot) (f : CardState → CardState) (s : State) : (modCard c f s).cabinet = s.cabinet := rfl
@[simp] theorem modCard_runs (c : CardSlot) (f : CardState → CardState) (s : State) : (modCard c f s).runs = s.runs := rfl
@[simp] theorem modCard_ceremony (c : CardSlot) (f : CardState → CardState) (s : State) : (modCard c f s).ceremony = s.ceremony := rfl
@[simp] theorem modCard_tamper (c : CardSlot) (f : CardState → CardState) (s : State) : (modCard c f s).tamper = s.tamper := rfl
@[simp] theorem modCard_faults (c : CardSlot) (f : CardState → CardState) (s : State) : (modCard c f s).faults = s.faults := rfl
@[simp] theorem modCard_cal (c : CardSlot) (f : CardState → CardState) (s : State) : (modCard c f s).cal = s.cal := rfl
@[simp] theorem modCard_log (c : CardSlot) (f : CardState → CardState) (s : State) : (modCard c f s).log = s.log := rfl
@[simp] theorem modCard_life (c : CardSlot) (f : CardState → CardState) (s : State) : (modCard c f s).life = s.life := rfl
@[simp] theorem modCard_owner (c : CardSlot) (f : CardState → CardState) (s : State) : (modCard c f s).owner = s.owner := rfl
@[simp] theorem modCard_envelopes (c : CardSlot) (f : CardState → CardState) (s : State) : (modCard c f s).envelopes = s.envelopes := rfl

/-! ### `modDigest` -/

@[simp] theorem modDigest_pending (d : DigestSlot) (f : DigestSlotState → DigestSlotState) (s : State) : (modDigest d f s).pending = s.pending := rfl
@[simp] theorem modDigest_out (d : DigestSlot) (f : DigestSlotState → DigestSlotState) (s : State) : (modDigest d f s).out = s.out := rfl
@[simp] theorem modDigest_clock (d : DigestSlot) (f : DigestSlotState → DigestSlotState) (s : State) : (modDigest d f s).clock = s.clock := rfl
@[simp] theorem modDigest_free (d : DigestSlot) (f : DigestSlotState → DigestSlotState) (s : State) : (modDigest d f s).free = s.free := rfl
@[simp] theorem modDigest_fuses (d : DigestSlot) (f : DigestSlotState → DigestSlotState) (s : State) : (modDigest d f s).fuses = s.fuses := rfl
@[simp] theorem modDigest_flash (d : DigestSlot) (f : DigestSlotState → DigestSlotState) (s : State) : (modDigest d f s).flash = s.flash := rfl
@[simp] theorem modDigest_backup (d : DigestSlot) (f : DigestSlotState → DigestSlotState) (s : State) : (modDigest d f s).backup = s.backup := rfl
@[simp] theorem modDigest_power (d : DigestSlot) (f : DigestSlotState → DigestSlotState) (s : State) : (modDigest d f s).power = s.power := rfl
@[simp] theorem modDigest_mode (d : DigestSlot) (f : DigestSlotState → DigestSlotState) (s : State) : (modDigest d f s).mode = s.mode := rfl
@[simp] theorem modDigest_draft (d : DigestSlot) (f : DigestSlotState → DigestSlotState) (s : State) : (modDigest d f s).draft = s.draft := rfl
@[simp] theorem modDigest_shares (d : DigestSlot) (f : DigestSlotState → DigestSlotState) (s : State) : (modDigest d f s).shares = s.shares := rfl
@[simp] theorem modDigest_device (d : DigestSlot) (f : DigestSlotState → DigestSlotState) (s : State) : (modDigest d f s).device = s.device := rfl
@[simp] theorem modDigest_ports (d : DigestSlot) (f : DigestSlotState → DigestSlotState) (s : State) : (modDigest d f s).ports = s.ports := rfl
@[simp] theorem modDigest_slices (d : DigestSlot) (f : DigestSlotState → DigestSlotState) (s : State) : (modDigest d f s).slices = s.slices := rfl
@[simp] theorem modDigest_queues (d : DigestSlot) (f : DigestSlotState → DigestSlotState) (s : State) : (modDigest d f s).queues = s.queues := rfl
@[simp] theorem modDigest_heddle (d : DigestSlot) (f : DigestSlotState → DigestSlotState) (s : State) : (modDigest d f s).heddle = s.heddle := rfl
@[simp] theorem modDigest_looms (d : DigestSlot) (f : DigestSlotState → DigestSlotState) (s : State) : (modDigest d f s).looms = s.looms := rfl
@[simp] theorem modDigest_benches (d : DigestSlot) (f : DigestSlotState → DigestSlotState) (s : State) : (modDigest d f s).benches = s.benches := rfl
@[simp] theorem modDigest_trestles (d : DigestSlot) (f : DigestSlotState → DigestSlotState) (s : State) : (modDigest d f s).trestles = s.trestles := rfl
@[simp] theorem modDigest_selvs (d : DigestSlot) (f : DigestSlotState → DigestSlotState) (s : State) : (modDigest d f s).selvs = s.selvs := rfl
@[simp] theorem modDigest_bobbin (d : DigestSlot) (f : DigestSlotState → DigestSlotState) (s : State) : (modDigest d f s).bobbin = s.bobbin := rfl
@[simp] theorem modDigest_cabinet (d : DigestSlot) (f : DigestSlotState → DigestSlotState) (s : State) : (modDigest d f s).cabinet = s.cabinet := rfl
@[simp] theorem modDigest_runs (d : DigestSlot) (f : DigestSlotState → DigestSlotState) (s : State) : (modDigest d f s).runs = s.runs := rfl
@[simp] theorem modDigest_cards (d : DigestSlot) (f : DigestSlotState → DigestSlotState) (s : State) : (modDigest d f s).cards = s.cards := rfl
@[simp] theorem modDigest_ceremony (d : DigestSlot) (f : DigestSlotState → DigestSlotState) (s : State) : (modDigest d f s).ceremony = s.ceremony := rfl
@[simp] theorem modDigest_tamper (d : DigestSlot) (f : DigestSlotState → DigestSlotState) (s : State) : (modDigest d f s).tamper = s.tamper := rfl
@[simp] theorem modDigest_faults (d : DigestSlot) (f : DigestSlotState → DigestSlotState) (s : State) : (modDigest d f s).faults = s.faults := rfl
@[simp] theorem modDigest_cal (d : DigestSlot) (f : DigestSlotState → DigestSlotState) (s : State) : (modDigest d f s).cal = s.cal := rfl
@[simp] theorem modDigest_log (d : DigestSlot) (f : DigestSlotState → DigestSlotState) (s : State) : (modDigest d f s).log = s.log := rfl
@[simp] theorem modDigest_life (d : DigestSlot) (f : DigestSlotState → DigestSlotState) (s : State) : (modDigest d f s).life = s.life := rfl
@[simp] theorem modDigest_owner (d : DigestSlot) (f : DigestSlotState → DigestSlotState) (s : State) : (modDigest d f s).owner = s.owner := rfl
@[simp] theorem modDigest_envelopes (d : DigestSlot) (f : DigestSlotState → DigestSlotState) (s : State) : (modDigest d f s).envelopes = s.envelopes := rfl

/-! ### `modInstance` -/

@[simp] theorem modInstance_pending (i : InstId) (f : DrbgInstance → DrbgInstance) (s : State) : (modInstance i f s).pending = s.pending := rfl
@[simp] theorem modInstance_out (i : InstId) (f : DrbgInstance → DrbgInstance) (s : State) : (modInstance i f s).out = s.out := rfl
@[simp] theorem modInstance_clock (i : InstId) (f : DrbgInstance → DrbgInstance) (s : State) : (modInstance i f s).clock = s.clock := rfl
@[simp] theorem modInstance_free (i : InstId) (f : DrbgInstance → DrbgInstance) (s : State) : (modInstance i f s).free = s.free := rfl
@[simp] theorem modInstance_fuses (i : InstId) (f : DrbgInstance → DrbgInstance) (s : State) : (modInstance i f s).fuses = s.fuses := rfl
@[simp] theorem modInstance_flash (i : InstId) (f : DrbgInstance → DrbgInstance) (s : State) : (modInstance i f s).flash = s.flash := rfl
@[simp] theorem modInstance_backup (i : InstId) (f : DrbgInstance → DrbgInstance) (s : State) : (modInstance i f s).backup = s.backup := rfl
@[simp] theorem modInstance_power (i : InstId) (f : DrbgInstance → DrbgInstance) (s : State) : (modInstance i f s).power = s.power := rfl
@[simp] theorem modInstance_mode (i : InstId) (f : DrbgInstance → DrbgInstance) (s : State) : (modInstance i f s).mode = s.mode := rfl
@[simp] theorem modInstance_draft (i : InstId) (f : DrbgInstance → DrbgInstance) (s : State) : (modInstance i f s).draft = s.draft := rfl
@[simp] theorem modInstance_shares (i : InstId) (f : DrbgInstance → DrbgInstance) (s : State) : (modInstance i f s).shares = s.shares := rfl
@[simp] theorem modInstance_device (i : InstId) (f : DrbgInstance → DrbgInstance) (s : State) : (modInstance i f s).device = s.device := rfl
@[simp] theorem modInstance_ports (i : InstId) (f : DrbgInstance → DrbgInstance) (s : State) : (modInstance i f s).ports = s.ports := rfl
@[simp] theorem modInstance_slices (i : InstId) (f : DrbgInstance → DrbgInstance) (s : State) : (modInstance i f s).slices = s.slices := rfl
@[simp] theorem modInstance_queues (i : InstId) (f : DrbgInstance → DrbgInstance) (s : State) : (modInstance i f s).queues = s.queues := rfl
@[simp] theorem modInstance_heddle (i : InstId) (f : DrbgInstance → DrbgInstance) (s : State) : (modInstance i f s).heddle = s.heddle := rfl
@[simp] theorem modInstance_looms (i : InstId) (f : DrbgInstance → DrbgInstance) (s : State) : (modInstance i f s).looms = s.looms := rfl
@[simp] theorem modInstance_benches (i : InstId) (f : DrbgInstance → DrbgInstance) (s : State) : (modInstance i f s).benches = s.benches := rfl
@[simp] theorem modInstance_trestles (i : InstId) (f : DrbgInstance → DrbgInstance) (s : State) : (modInstance i f s).trestles = s.trestles := rfl
@[simp] theorem modInstance_selvs (i : InstId) (f : DrbgInstance → DrbgInstance) (s : State) : (modInstance i f s).selvs = s.selvs := rfl
@[simp] theorem modInstance_farm (i : InstId) (f : DrbgInstance → DrbgInstance) (s : State) : (modInstance i f s).farm = s.farm := rfl
@[simp] theorem modInstance_cabinet (i : InstId) (f : DrbgInstance → DrbgInstance) (s : State) : (modInstance i f s).cabinet = s.cabinet := rfl
@[simp] theorem modInstance_runs (i : InstId) (f : DrbgInstance → DrbgInstance) (s : State) : (modInstance i f s).runs = s.runs := rfl
@[simp] theorem modInstance_cards (i : InstId) (f : DrbgInstance → DrbgInstance) (s : State) : (modInstance i f s).cards = s.cards := rfl
@[simp] theorem modInstance_ceremony (i : InstId) (f : DrbgInstance → DrbgInstance) (s : State) : (modInstance i f s).ceremony = s.ceremony := rfl
@[simp] theorem modInstance_tamper (i : InstId) (f : DrbgInstance → DrbgInstance) (s : State) : (modInstance i f s).tamper = s.tamper := rfl
@[simp] theorem modInstance_faults (i : InstId) (f : DrbgInstance → DrbgInstance) (s : State) : (modInstance i f s).faults = s.faults := rfl
@[simp] theorem modInstance_cal (i : InstId) (f : DrbgInstance → DrbgInstance) (s : State) : (modInstance i f s).cal = s.cal := rfl
@[simp] theorem modInstance_log (i : InstId) (f : DrbgInstance → DrbgInstance) (s : State) : (modInstance i f s).log = s.log := rfl
@[simp] theorem modInstance_life (i : InstId) (f : DrbgInstance → DrbgInstance) (s : State) : (modInstance i f s).life = s.life := rfl
@[simp] theorem modInstance_owner (i : InstId) (f : DrbgInstance → DrbgInstance) (s : State) : (modInstance i f s).owner = s.owner := rfl
@[simp] theorem modInstance_envelopes (i : InstId) (f : DrbgInstance → DrbgInstance) (s : State) : (modInstance i f s).envelopes = s.envelopes := rfl

/-! ### `modStage` -/

@[simp] theorem modStage_pending (p : PortId) (f : Stage → Stage) (s : State) : (modStage p f s).pending = s.pending := rfl
@[simp] theorem modStage_out (p : PortId) (f : Stage → Stage) (s : State) : (modStage p f s).out = s.out := rfl
@[simp] theorem modStage_clock (p : PortId) (f : Stage → Stage) (s : State) : (modStage p f s).clock = s.clock := rfl
@[simp] theorem modStage_free (p : PortId) (f : Stage → Stage) (s : State) : (modStage p f s).free = s.free := rfl
@[simp] theorem modStage_fuses (p : PortId) (f : Stage → Stage) (s : State) : (modStage p f s).fuses = s.fuses := rfl
@[simp] theorem modStage_flash (p : PortId) (f : Stage → Stage) (s : State) : (modStage p f s).flash = s.flash := rfl
@[simp] theorem modStage_backup (p : PortId) (f : Stage → Stage) (s : State) : (modStage p f s).backup = s.backup := rfl
@[simp] theorem modStage_power (p : PortId) (f : Stage → Stage) (s : State) : (modStage p f s).power = s.power := rfl
@[simp] theorem modStage_mode (p : PortId) (f : Stage → Stage) (s : State) : (modStage p f s).mode = s.mode := rfl
@[simp] theorem modStage_draft (p : PortId) (f : Stage → Stage) (s : State) : (modStage p f s).draft = s.draft := rfl
@[simp] theorem modStage_shares (p : PortId) (f : Stage → Stage) (s : State) : (modStage p f s).shares = s.shares := rfl
@[simp] theorem modStage_device (p : PortId) (f : Stage → Stage) (s : State) : (modStage p f s).device = s.device := rfl
@[simp] theorem modStage_slices (p : PortId) (f : Stage → Stage) (s : State) : (modStage p f s).slices = s.slices := rfl
@[simp] theorem modStage_queues (p : PortId) (f : Stage → Stage) (s : State) : (modStage p f s).queues = s.queues := rfl
@[simp] theorem modStage_heddle (p : PortId) (f : Stage → Stage) (s : State) : (modStage p f s).heddle = s.heddle := rfl
@[simp] theorem modStage_looms (p : PortId) (f : Stage → Stage) (s : State) : (modStage p f s).looms = s.looms := rfl
@[simp] theorem modStage_benches (p : PortId) (f : Stage → Stage) (s : State) : (modStage p f s).benches = s.benches := rfl
@[simp] theorem modStage_trestles (p : PortId) (f : Stage → Stage) (s : State) : (modStage p f s).trestles = s.trestles := rfl
@[simp] theorem modStage_selvs (p : PortId) (f : Stage → Stage) (s : State) : (modStage p f s).selvs = s.selvs := rfl
@[simp] theorem modStage_farm (p : PortId) (f : Stage → Stage) (s : State) : (modStage p f s).farm = s.farm := rfl
@[simp] theorem modStage_bobbin (p : PortId) (f : Stage → Stage) (s : State) : (modStage p f s).bobbin = s.bobbin := rfl
@[simp] theorem modStage_cabinet (p : PortId) (f : Stage → Stage) (s : State) : (modStage p f s).cabinet = s.cabinet := rfl
@[simp] theorem modStage_runs (p : PortId) (f : Stage → Stage) (s : State) : (modStage p f s).runs = s.runs := rfl
@[simp] theorem modStage_cards (p : PortId) (f : Stage → Stage) (s : State) : (modStage p f s).cards = s.cards := rfl
@[simp] theorem modStage_ceremony (p : PortId) (f : Stage → Stage) (s : State) : (modStage p f s).ceremony = s.ceremony := rfl
@[simp] theorem modStage_tamper (p : PortId) (f : Stage → Stage) (s : State) : (modStage p f s).tamper = s.tamper := rfl
@[simp] theorem modStage_faults (p : PortId) (f : Stage → Stage) (s : State) : (modStage p f s).faults = s.faults := rfl
@[simp] theorem modStage_cal (p : PortId) (f : Stage → Stage) (s : State) : (modStage p f s).cal = s.cal := rfl
@[simp] theorem modStage_log (p : PortId) (f : Stage → Stage) (s : State) : (modStage p f s).log = s.log := rfl
@[simp] theorem modStage_life (p : PortId) (f : Stage → Stage) (s : State) : (modStage p f s).life = s.life := rfl
@[simp] theorem modStage_owner (p : PortId) (f : Stage → Stage) (s : State) : (modStage p f s).owner = s.owner := rfl
@[simp] theorem modStage_envelopes (p : PortId) (f : Stage → Stage) (s : State) : (modStage p f s).envelopes = s.envelopes := rfl

/-! ### `modAdmin` -/

@[simp] theorem modAdmin_pending (p : PortId) (f : AdminQueue → AdminQueue) (s : State) : (modAdmin p f s).pending = s.pending := rfl
@[simp] theorem modAdmin_out (p : PortId) (f : AdminQueue → AdminQueue) (s : State) : (modAdmin p f s).out = s.out := rfl
@[simp] theorem modAdmin_clock (p : PortId) (f : AdminQueue → AdminQueue) (s : State) : (modAdmin p f s).clock = s.clock := rfl
@[simp] theorem modAdmin_free (p : PortId) (f : AdminQueue → AdminQueue) (s : State) : (modAdmin p f s).free = s.free := rfl
@[simp] theorem modAdmin_fuses (p : PortId) (f : AdminQueue → AdminQueue) (s : State) : (modAdmin p f s).fuses = s.fuses := rfl
@[simp] theorem modAdmin_flash (p : PortId) (f : AdminQueue → AdminQueue) (s : State) : (modAdmin p f s).flash = s.flash := rfl
@[simp] theorem modAdmin_backup (p : PortId) (f : AdminQueue → AdminQueue) (s : State) : (modAdmin p f s).backup = s.backup := rfl
@[simp] theorem modAdmin_power (p : PortId) (f : AdminQueue → AdminQueue) (s : State) : (modAdmin p f s).power = s.power := rfl
@[simp] theorem modAdmin_mode (p : PortId) (f : AdminQueue → AdminQueue) (s : State) : (modAdmin p f s).mode = s.mode := rfl
@[simp] theorem modAdmin_draft (p : PortId) (f : AdminQueue → AdminQueue) (s : State) : (modAdmin p f s).draft = s.draft := rfl
@[simp] theorem modAdmin_shares (p : PortId) (f : AdminQueue → AdminQueue) (s : State) : (modAdmin p f s).shares = s.shares := rfl
@[simp] theorem modAdmin_device (p : PortId) (f : AdminQueue → AdminQueue) (s : State) : (modAdmin p f s).device = s.device := rfl
@[simp] theorem modAdmin_slices (p : PortId) (f : AdminQueue → AdminQueue) (s : State) : (modAdmin p f s).slices = s.slices := rfl
@[simp] theorem modAdmin_queues (p : PortId) (f : AdminQueue → AdminQueue) (s : State) : (modAdmin p f s).queues = s.queues := rfl
@[simp] theorem modAdmin_heddle (p : PortId) (f : AdminQueue → AdminQueue) (s : State) : (modAdmin p f s).heddle = s.heddle := rfl
@[simp] theorem modAdmin_looms (p : PortId) (f : AdminQueue → AdminQueue) (s : State) : (modAdmin p f s).looms = s.looms := rfl
@[simp] theorem modAdmin_benches (p : PortId) (f : AdminQueue → AdminQueue) (s : State) : (modAdmin p f s).benches = s.benches := rfl
@[simp] theorem modAdmin_trestles (p : PortId) (f : AdminQueue → AdminQueue) (s : State) : (modAdmin p f s).trestles = s.trestles := rfl
@[simp] theorem modAdmin_selvs (p : PortId) (f : AdminQueue → AdminQueue) (s : State) : (modAdmin p f s).selvs = s.selvs := rfl
@[simp] theorem modAdmin_farm (p : PortId) (f : AdminQueue → AdminQueue) (s : State) : (modAdmin p f s).farm = s.farm := rfl
@[simp] theorem modAdmin_bobbin (p : PortId) (f : AdminQueue → AdminQueue) (s : State) : (modAdmin p f s).bobbin = s.bobbin := rfl
@[simp] theorem modAdmin_cabinet (p : PortId) (f : AdminQueue → AdminQueue) (s : State) : (modAdmin p f s).cabinet = s.cabinet := rfl
@[simp] theorem modAdmin_runs (p : PortId) (f : AdminQueue → AdminQueue) (s : State) : (modAdmin p f s).runs = s.runs := rfl
@[simp] theorem modAdmin_cards (p : PortId) (f : AdminQueue → AdminQueue) (s : State) : (modAdmin p f s).cards = s.cards := rfl
@[simp] theorem modAdmin_ceremony (p : PortId) (f : AdminQueue → AdminQueue) (s : State) : (modAdmin p f s).ceremony = s.ceremony := rfl
@[simp] theorem modAdmin_tamper (p : PortId) (f : AdminQueue → AdminQueue) (s : State) : (modAdmin p f s).tamper = s.tamper := rfl
@[simp] theorem modAdmin_faults (p : PortId) (f : AdminQueue → AdminQueue) (s : State) : (modAdmin p f s).faults = s.faults := rfl
@[simp] theorem modAdmin_cal (p : PortId) (f : AdminQueue → AdminQueue) (s : State) : (modAdmin p f s).cal = s.cal := rfl
@[simp] theorem modAdmin_log (p : PortId) (f : AdminQueue → AdminQueue) (s : State) : (modAdmin p f s).log = s.log := rfl
@[simp] theorem modAdmin_life (p : PortId) (f : AdminQueue → AdminQueue) (s : State) : (modAdmin p f s).life = s.life := rfl
@[simp] theorem modAdmin_owner (p : PortId) (f : AdminQueue → AdminQueue) (s : State) : (modAdmin p f s).owner = s.owner := rfl
@[simp] theorem modAdmin_envelopes (p : PortId) (f : AdminQueue → AdminQueue) (s : State) : (modAdmin p f s).envelopes = s.envelopes := rfl

/-! ### `modItems` -/

@[simp] theorem modItems_pending (sel : Item → Bool) (f : Item → Item) (s : State) : (modItems sel f s).pending = s.pending := rfl
@[simp] theorem modItems_out (sel : Item → Bool) (f : Item → Item) (s : State) : (modItems sel f s).out = s.out := rfl
@[simp] theorem modItems_clock (sel : Item → Bool) (f : Item → Item) (s : State) : (modItems sel f s).clock = s.clock := rfl
@[simp] theorem modItems_free (sel : Item → Bool) (f : Item → Item) (s : State) : (modItems sel f s).free = s.free := rfl
@[simp] theorem modItems_fuses (sel : Item → Bool) (f : Item → Item) (s : State) : (modItems sel f s).fuses = s.fuses := rfl
@[simp] theorem modItems_flash (sel : Item → Bool) (f : Item → Item) (s : State) : (modItems sel f s).flash = s.flash := rfl
@[simp] theorem modItems_backup (sel : Item → Bool) (f : Item → Item) (s : State) : (modItems sel f s).backup = s.backup := rfl
@[simp] theorem modItems_power (sel : Item → Bool) (f : Item → Item) (s : State) : (modItems sel f s).power = s.power := rfl
@[simp] theorem modItems_mode (sel : Item → Bool) (f : Item → Item) (s : State) : (modItems sel f s).mode = s.mode := rfl
@[simp] theorem modItems_draft (sel : Item → Bool) (f : Item → Item) (s : State) : (modItems sel f s).draft = s.draft := rfl
@[simp] theorem modItems_shares (sel : Item → Bool) (f : Item → Item) (s : State) : (modItems sel f s).shares = s.shares := rfl
@[simp] theorem modItems_device (sel : Item → Bool) (f : Item → Item) (s : State) : (modItems sel f s).device = s.device := rfl
@[simp] theorem modItems_ports (sel : Item → Bool) (f : Item → Item) (s : State) : (modItems sel f s).ports = s.ports := rfl
@[simp] theorem modItems_slices (sel : Item → Bool) (f : Item → Item) (s : State) : (modItems sel f s).slices = s.slices := rfl
@[simp] theorem modItems_queues (sel : Item → Bool) (f : Item → Item) (s : State) : (modItems sel f s).queues = s.queues := rfl
@[simp] theorem modItems_looms (sel : Item → Bool) (f : Item → Item) (s : State) : (modItems sel f s).looms = s.looms := rfl
@[simp] theorem modItems_benches (sel : Item → Bool) (f : Item → Item) (s : State) : (modItems sel f s).benches = s.benches := rfl
@[simp] theorem modItems_trestles (sel : Item → Bool) (f : Item → Item) (s : State) : (modItems sel f s).trestles = s.trestles := rfl
@[simp] theorem modItems_selvs (sel : Item → Bool) (f : Item → Item) (s : State) : (modItems sel f s).selvs = s.selvs := rfl
@[simp] theorem modItems_farm (sel : Item → Bool) (f : Item → Item) (s : State) : (modItems sel f s).farm = s.farm := rfl
@[simp] theorem modItems_bobbin (sel : Item → Bool) (f : Item → Item) (s : State) : (modItems sel f s).bobbin = s.bobbin := rfl
@[simp] theorem modItems_cabinet (sel : Item → Bool) (f : Item → Item) (s : State) : (modItems sel f s).cabinet = s.cabinet := rfl
@[simp] theorem modItems_runs (sel : Item → Bool) (f : Item → Item) (s : State) : (modItems sel f s).runs = s.runs := rfl
@[simp] theorem modItems_cards (sel : Item → Bool) (f : Item → Item) (s : State) : (modItems sel f s).cards = s.cards := rfl
@[simp] theorem modItems_ceremony (sel : Item → Bool) (f : Item → Item) (s : State) : (modItems sel f s).ceremony = s.ceremony := rfl
@[simp] theorem modItems_tamper (sel : Item → Bool) (f : Item → Item) (s : State) : (modItems sel f s).tamper = s.tamper := rfl
@[simp] theorem modItems_faults (sel : Item → Bool) (f : Item → Item) (s : State) : (modItems sel f s).faults = s.faults := rfl
@[simp] theorem modItems_cal (sel : Item → Bool) (f : Item → Item) (s : State) : (modItems sel f s).cal = s.cal := rfl
@[simp] theorem modItems_log (sel : Item → Bool) (f : Item → Item) (s : State) : (modItems sel f s).log = s.log := rfl
@[simp] theorem modItems_life (sel : Item → Bool) (f : Item → Item) (s : State) : (modItems sel f s).life = s.life := rfl
@[simp] theorem modItems_owner (sel : Item → Bool) (f : Item → Item) (s : State) : (modItems sel f s).owner = s.owner := rfl
@[simp] theorem modItems_envelopes (sel : Item → Bool) (f : Item → Item) (s : State) : (modItems sel f s).envelopes = s.envelopes := rfl

/-! ### `modItem` -/

@[simp] theorem modItem_pending (id : Nat) (f : Item → Item) (s : State) : (modItem id f s).pending = s.pending := rfl
@[simp] theorem modItem_out (id : Nat) (f : Item → Item) (s : State) : (modItem id f s).out = s.out := rfl
@[simp] theorem modItem_clock (id : Nat) (f : Item → Item) (s : State) : (modItem id f s).clock = s.clock := rfl
@[simp] theorem modItem_free (id : Nat) (f : Item → Item) (s : State) : (modItem id f s).free = s.free := rfl
@[simp] theorem modItem_fuses (id : Nat) (f : Item → Item) (s : State) : (modItem id f s).fuses = s.fuses := rfl
@[simp] theorem modItem_flash (id : Nat) (f : Item → Item) (s : State) : (modItem id f s).flash = s.flash := rfl
@[simp] theorem modItem_backup (id : Nat) (f : Item → Item) (s : State) : (modItem id f s).backup = s.backup := rfl
@[simp] theorem modItem_power (id : Nat) (f : Item → Item) (s : State) : (modItem id f s).power = s.power := rfl
@[simp] theorem modItem_mode (id : Nat) (f : Item → Item) (s : State) : (modItem id f s).mode = s.mode := rfl
@[simp] theorem modItem_draft (id : Nat) (f : Item → Item) (s : State) : (modItem id f s).draft = s.draft := rfl
@[simp] theorem modItem_shares (id : Nat) (f : Item → Item) (s : State) : (modItem id f s).shares = s.shares := rfl
@[simp] theorem modItem_device (id : Nat) (f : Item → Item) (s : State) : (modItem id f s).device = s.device := rfl
@[simp] theorem modItem_ports (id : Nat) (f : Item → Item) (s : State) : (modItem id f s).ports = s.ports := rfl
@[simp] theorem modItem_slices (id : Nat) (f : Item → Item) (s : State) : (modItem id f s).slices = s.slices := rfl
@[simp] theorem modItem_queues (id : Nat) (f : Item → Item) (s : State) : (modItem id f s).queues = s.queues := rfl
@[simp] theorem modItem_looms (id : Nat) (f : Item → Item) (s : State) : (modItem id f s).looms = s.looms := rfl
@[simp] theorem modItem_benches (id : Nat) (f : Item → Item) (s : State) : (modItem id f s).benches = s.benches := rfl
@[simp] theorem modItem_trestles (id : Nat) (f : Item → Item) (s : State) : (modItem id f s).trestles = s.trestles := rfl
@[simp] theorem modItem_selvs (id : Nat) (f : Item → Item) (s : State) : (modItem id f s).selvs = s.selvs := rfl
@[simp] theorem modItem_farm (id : Nat) (f : Item → Item) (s : State) : (modItem id f s).farm = s.farm := rfl
@[simp] theorem modItem_bobbin (id : Nat) (f : Item → Item) (s : State) : (modItem id f s).bobbin = s.bobbin := rfl
@[simp] theorem modItem_cabinet (id : Nat) (f : Item → Item) (s : State) : (modItem id f s).cabinet = s.cabinet := rfl
@[simp] theorem modItem_runs (id : Nat) (f : Item → Item) (s : State) : (modItem id f s).runs = s.runs := rfl
@[simp] theorem modItem_cards (id : Nat) (f : Item → Item) (s : State) : (modItem id f s).cards = s.cards := rfl
@[simp] theorem modItem_ceremony (id : Nat) (f : Item → Item) (s : State) : (modItem id f s).ceremony = s.ceremony := rfl
@[simp] theorem modItem_tamper (id : Nat) (f : Item → Item) (s : State) : (modItem id f s).tamper = s.tamper := rfl
@[simp] theorem modItem_faults (id : Nat) (f : Item → Item) (s : State) : (modItem id f s).faults = s.faults := rfl
@[simp] theorem modItem_cal (id : Nat) (f : Item → Item) (s : State) : (modItem id f s).cal = s.cal := rfl
@[simp] theorem modItem_log (id : Nat) (f : Item → Item) (s : State) : (modItem id f s).log = s.log := rfl
@[simp] theorem modItem_life (id : Nat) (f : Item → Item) (s : State) : (modItem id f s).life = s.life := rfl
@[simp] theorem modItem_owner (id : Nat) (f : Item → Item) (s : State) : (modItem id f s).owner = s.owner := rfl
@[simp] theorem modItem_envelopes (id : Nat) (f : Item → Item) (s : State) : (modItem id f s).envelopes = s.envelopes := rfl

/-! ### `dropItems` -/

@[simp] theorem dropItems_pending (sel : Item → Bool) (s : State) : (dropItems sel s).pending = s.pending := rfl
@[simp] theorem dropItems_out (sel : Item → Bool) (s : State) : (dropItems sel s).out = s.out := rfl
@[simp] theorem dropItems_clock (sel : Item → Bool) (s : State) : (dropItems sel s).clock = s.clock := rfl
@[simp] theorem dropItems_free (sel : Item → Bool) (s : State) : (dropItems sel s).free = s.free := rfl
@[simp] theorem dropItems_fuses (sel : Item → Bool) (s : State) : (dropItems sel s).fuses = s.fuses := rfl
@[simp] theorem dropItems_flash (sel : Item → Bool) (s : State) : (dropItems sel s).flash = s.flash := rfl
@[simp] theorem dropItems_backup (sel : Item → Bool) (s : State) : (dropItems sel s).backup = s.backup := rfl
@[simp] theorem dropItems_power (sel : Item → Bool) (s : State) : (dropItems sel s).power = s.power := rfl
@[simp] theorem dropItems_mode (sel : Item → Bool) (s : State) : (dropItems sel s).mode = s.mode := rfl
@[simp] theorem dropItems_draft (sel : Item → Bool) (s : State) : (dropItems sel s).draft = s.draft := rfl
@[simp] theorem dropItems_shares (sel : Item → Bool) (s : State) : (dropItems sel s).shares = s.shares := rfl
@[simp] theorem dropItems_device (sel : Item → Bool) (s : State) : (dropItems sel s).device = s.device := rfl
@[simp] theorem dropItems_ports (sel : Item → Bool) (s : State) : (dropItems sel s).ports = s.ports := rfl
@[simp] theorem dropItems_slices (sel : Item → Bool) (s : State) : (dropItems sel s).slices = s.slices := rfl
@[simp] theorem dropItems_queues (sel : Item → Bool) (s : State) : (dropItems sel s).queues = s.queues := rfl
@[simp] theorem dropItems_looms (sel : Item → Bool) (s : State) : (dropItems sel s).looms = s.looms := rfl
@[simp] theorem dropItems_benches (sel : Item → Bool) (s : State) : (dropItems sel s).benches = s.benches := rfl
@[simp] theorem dropItems_trestles (sel : Item → Bool) (s : State) : (dropItems sel s).trestles = s.trestles := rfl
@[simp] theorem dropItems_selvs (sel : Item → Bool) (s : State) : (dropItems sel s).selvs = s.selvs := rfl
@[simp] theorem dropItems_farm (sel : Item → Bool) (s : State) : (dropItems sel s).farm = s.farm := rfl
@[simp] theorem dropItems_bobbin (sel : Item → Bool) (s : State) : (dropItems sel s).bobbin = s.bobbin := rfl
@[simp] theorem dropItems_cabinet (sel : Item → Bool) (s : State) : (dropItems sel s).cabinet = s.cabinet := rfl
@[simp] theorem dropItems_runs (sel : Item → Bool) (s : State) : (dropItems sel s).runs = s.runs := rfl
@[simp] theorem dropItems_cards (sel : Item → Bool) (s : State) : (dropItems sel s).cards = s.cards := rfl
@[simp] theorem dropItems_ceremony (sel : Item → Bool) (s : State) : (dropItems sel s).ceremony = s.ceremony := rfl
@[simp] theorem dropItems_tamper (sel : Item → Bool) (s : State) : (dropItems sel s).tamper = s.tamper := rfl
@[simp] theorem dropItems_faults (sel : Item → Bool) (s : State) : (dropItems sel s).faults = s.faults := rfl
@[simp] theorem dropItems_cal (sel : Item → Bool) (s : State) : (dropItems sel s).cal = s.cal := rfl
@[simp] theorem dropItems_log (sel : Item → Bool) (s : State) : (dropItems sel s).log = s.log := rfl
@[simp] theorem dropItems_life (sel : Item → Bool) (s : State) : (dropItems sel s).life = s.life := rfl
@[simp] theorem dropItems_owner (sel : Item → Bool) (s : State) : (dropItems sel s).owner = s.owner := rfl
@[simp] theorem dropItems_envelopes (sel : Item → Bool) (s : State) : (dropItems sel s).envelopes = s.envelopes := rfl

/-! ### `modQueues` -/

@[simp] theorem modQueues_pending (sel : Queue → Bool) (f : Queue → Queue) (s : State) : (modQueues sel f s).pending = s.pending := rfl
@[simp] theorem modQueues_out (sel : Queue → Bool) (f : Queue → Queue) (s : State) : (modQueues sel f s).out = s.out := rfl
@[simp] theorem modQueues_clock (sel : Queue → Bool) (f : Queue → Queue) (s : State) : (modQueues sel f s).clock = s.clock := rfl
@[simp] theorem modQueues_free (sel : Queue → Bool) (f : Queue → Queue) (s : State) : (modQueues sel f s).free = s.free := rfl
@[simp] theorem modQueues_fuses (sel : Queue → Bool) (f : Queue → Queue) (s : State) : (modQueues sel f s).fuses = s.fuses := rfl
@[simp] theorem modQueues_flash (sel : Queue → Bool) (f : Queue → Queue) (s : State) : (modQueues sel f s).flash = s.flash := rfl
@[simp] theorem modQueues_backup (sel : Queue → Bool) (f : Queue → Queue) (s : State) : (modQueues sel f s).backup = s.backup := rfl
@[simp] theorem modQueues_power (sel : Queue → Bool) (f : Queue → Queue) (s : State) : (modQueues sel f s).power = s.power := rfl
@[simp] theorem modQueues_mode (sel : Queue → Bool) (f : Queue → Queue) (s : State) : (modQueues sel f s).mode = s.mode := rfl
@[simp] theorem modQueues_draft (sel : Queue → Bool) (f : Queue → Queue) (s : State) : (modQueues sel f s).draft = s.draft := rfl
@[simp] theorem modQueues_shares (sel : Queue → Bool) (f : Queue → Queue) (s : State) : (modQueues sel f s).shares = s.shares := rfl
@[simp] theorem modQueues_device (sel : Queue → Bool) (f : Queue → Queue) (s : State) : (modQueues sel f s).device = s.device := rfl
@[simp] theorem modQueues_ports (sel : Queue → Bool) (f : Queue → Queue) (s : State) : (modQueues sel f s).ports = s.ports := rfl
@[simp] theorem modQueues_slices (sel : Queue → Bool) (f : Queue → Queue) (s : State) : (modQueues sel f s).slices = s.slices := rfl
@[simp] theorem modQueues_heddle (sel : Queue → Bool) (f : Queue → Queue) (s : State) : (modQueues sel f s).heddle = s.heddle := rfl
@[simp] theorem modQueues_looms (sel : Queue → Bool) (f : Queue → Queue) (s : State) : (modQueues sel f s).looms = s.looms := rfl
@[simp] theorem modQueues_benches (sel : Queue → Bool) (f : Queue → Queue) (s : State) : (modQueues sel f s).benches = s.benches := rfl
@[simp] theorem modQueues_trestles (sel : Queue → Bool) (f : Queue → Queue) (s : State) : (modQueues sel f s).trestles = s.trestles := rfl
@[simp] theorem modQueues_selvs (sel : Queue → Bool) (f : Queue → Queue) (s : State) : (modQueues sel f s).selvs = s.selvs := rfl
@[simp] theorem modQueues_farm (sel : Queue → Bool) (f : Queue → Queue) (s : State) : (modQueues sel f s).farm = s.farm := rfl
@[simp] theorem modQueues_bobbin (sel : Queue → Bool) (f : Queue → Queue) (s : State) : (modQueues sel f s).bobbin = s.bobbin := rfl
@[simp] theorem modQueues_cabinet (sel : Queue → Bool) (f : Queue → Queue) (s : State) : (modQueues sel f s).cabinet = s.cabinet := rfl
@[simp] theorem modQueues_runs (sel : Queue → Bool) (f : Queue → Queue) (s : State) : (modQueues sel f s).runs = s.runs := rfl
@[simp] theorem modQueues_cards (sel : Queue → Bool) (f : Queue → Queue) (s : State) : (modQueues sel f s).cards = s.cards := rfl
@[simp] theorem modQueues_ceremony (sel : Queue → Bool) (f : Queue → Queue) (s : State) : (modQueues sel f s).ceremony = s.ceremony := rfl
@[simp] theorem modQueues_tamper (sel : Queue → Bool) (f : Queue → Queue) (s : State) : (modQueues sel f s).tamper = s.tamper := rfl
@[simp] theorem modQueues_faults (sel : Queue → Bool) (f : Queue → Queue) (s : State) : (modQueues sel f s).faults = s.faults := rfl
@[simp] theorem modQueues_cal (sel : Queue → Bool) (f : Queue → Queue) (s : State) : (modQueues sel f s).cal = s.cal := rfl
@[simp] theorem modQueues_log (sel : Queue → Bool) (f : Queue → Queue) (s : State) : (modQueues sel f s).log = s.log := rfl
@[simp] theorem modQueues_life (sel : Queue → Bool) (f : Queue → Queue) (s : State) : (modQueues sel f s).life = s.life := rfl
@[simp] theorem modQueues_owner (sel : Queue → Bool) (f : Queue → Queue) (s : State) : (modQueues sel f s).owner = s.owner := rfl
@[simp] theorem modQueues_envelopes (sel : Queue → Bool) (f : Queue → Queue) (s : State) : (modQueues sel f s).envelopes = s.envelopes := rfl

/-! ### `modQueue` -/

@[simp] theorem modQueue_pending (p : PortId) (n : Nat) (f : Queue → Queue) (s : State) : (modQueue p n f s).pending = s.pending := rfl
@[simp] theorem modQueue_out (p : PortId) (n : Nat) (f : Queue → Queue) (s : State) : (modQueue p n f s).out = s.out := rfl
@[simp] theorem modQueue_clock (p : PortId) (n : Nat) (f : Queue → Queue) (s : State) : (modQueue p n f s).clock = s.clock := rfl
@[simp] theorem modQueue_free (p : PortId) (n : Nat) (f : Queue → Queue) (s : State) : (modQueue p n f s).free = s.free := rfl
@[simp] theorem modQueue_fuses (p : PortId) (n : Nat) (f : Queue → Queue) (s : State) : (modQueue p n f s).fuses = s.fuses := rfl
@[simp] theorem modQueue_flash (p : PortId) (n : Nat) (f : Queue → Queue) (s : State) : (modQueue p n f s).flash = s.flash := rfl
@[simp] theorem modQueue_backup (p : PortId) (n : Nat) (f : Queue → Queue) (s : State) : (modQueue p n f s).backup = s.backup := rfl
@[simp] theorem modQueue_power (p : PortId) (n : Nat) (f : Queue → Queue) (s : State) : (modQueue p n f s).power = s.power := rfl
@[simp] theorem modQueue_mode (p : PortId) (n : Nat) (f : Queue → Queue) (s : State) : (modQueue p n f s).mode = s.mode := rfl
@[simp] theorem modQueue_draft (p : PortId) (n : Nat) (f : Queue → Queue) (s : State) : (modQueue p n f s).draft = s.draft := rfl
@[simp] theorem modQueue_shares (p : PortId) (n : Nat) (f : Queue → Queue) (s : State) : (modQueue p n f s).shares = s.shares := rfl
@[simp] theorem modQueue_device (p : PortId) (n : Nat) (f : Queue → Queue) (s : State) : (modQueue p n f s).device = s.device := rfl
@[simp] theorem modQueue_ports (p : PortId) (n : Nat) (f : Queue → Queue) (s : State) : (modQueue p n f s).ports = s.ports := rfl
@[simp] theorem modQueue_slices (p : PortId) (n : Nat) (f : Queue → Queue) (s : State) : (modQueue p n f s).slices = s.slices := rfl
@[simp] theorem modQueue_heddle (p : PortId) (n : Nat) (f : Queue → Queue) (s : State) : (modQueue p n f s).heddle = s.heddle := rfl
@[simp] theorem modQueue_looms (p : PortId) (n : Nat) (f : Queue → Queue) (s : State) : (modQueue p n f s).looms = s.looms := rfl
@[simp] theorem modQueue_benches (p : PortId) (n : Nat) (f : Queue → Queue) (s : State) : (modQueue p n f s).benches = s.benches := rfl
@[simp] theorem modQueue_trestles (p : PortId) (n : Nat) (f : Queue → Queue) (s : State) : (modQueue p n f s).trestles = s.trestles := rfl
@[simp] theorem modQueue_selvs (p : PortId) (n : Nat) (f : Queue → Queue) (s : State) : (modQueue p n f s).selvs = s.selvs := rfl
@[simp] theorem modQueue_farm (p : PortId) (n : Nat) (f : Queue → Queue) (s : State) : (modQueue p n f s).farm = s.farm := rfl
@[simp] theorem modQueue_bobbin (p : PortId) (n : Nat) (f : Queue → Queue) (s : State) : (modQueue p n f s).bobbin = s.bobbin := rfl
@[simp] theorem modQueue_cabinet (p : PortId) (n : Nat) (f : Queue → Queue) (s : State) : (modQueue p n f s).cabinet = s.cabinet := rfl
@[simp] theorem modQueue_runs (p : PortId) (n : Nat) (f : Queue → Queue) (s : State) : (modQueue p n f s).runs = s.runs := rfl
@[simp] theorem modQueue_cards (p : PortId) (n : Nat) (f : Queue → Queue) (s : State) : (modQueue p n f s).cards = s.cards := rfl
@[simp] theorem modQueue_ceremony (p : PortId) (n : Nat) (f : Queue → Queue) (s : State) : (modQueue p n f s).ceremony = s.ceremony := rfl
@[simp] theorem modQueue_tamper (p : PortId) (n : Nat) (f : Queue → Queue) (s : State) : (modQueue p n f s).tamper = s.tamper := rfl
@[simp] theorem modQueue_faults (p : PortId) (n : Nat) (f : Queue → Queue) (s : State) : (modQueue p n f s).faults = s.faults := rfl
@[simp] theorem modQueue_cal (p : PortId) (n : Nat) (f : Queue → Queue) (s : State) : (modQueue p n f s).cal = s.cal := rfl
@[simp] theorem modQueue_log (p : PortId) (n : Nat) (f : Queue → Queue) (s : State) : (modQueue p n f s).log = s.log := rfl
@[simp] theorem modQueue_life (p : PortId) (n : Nat) (f : Queue → Queue) (s : State) : (modQueue p n f s).life = s.life := rfl
@[simp] theorem modQueue_owner (p : PortId) (n : Nat) (f : Queue → Queue) (s : State) : (modQueue p n f s).owner = s.owner := rfl
@[simp] theorem modQueue_envelopes (p : PortId) (n : Nat) (f : Queue → Queue) (s : State) : (modQueue p n f s).envelopes = s.envelopes := rfl

/-! ### `modSlice` -/

@[simp] theorem modSlice_pending (p : PortId) (i : SliceIdx) (f : Slice → Slice) (s : State) : (modSlice p i f s).pending = s.pending := rfl
@[simp] theorem modSlice_out (p : PortId) (i : SliceIdx) (f : Slice → Slice) (s : State) : (modSlice p i f s).out = s.out := rfl
@[simp] theorem modSlice_clock (p : PortId) (i : SliceIdx) (f : Slice → Slice) (s : State) : (modSlice p i f s).clock = s.clock := rfl
@[simp] theorem modSlice_free (p : PortId) (i : SliceIdx) (f : Slice → Slice) (s : State) : (modSlice p i f s).free = s.free := rfl
@[simp] theorem modSlice_fuses (p : PortId) (i : SliceIdx) (f : Slice → Slice) (s : State) : (modSlice p i f s).fuses = s.fuses := rfl
@[simp] theorem modSlice_flash (p : PortId) (i : SliceIdx) (f : Slice → Slice) (s : State) : (modSlice p i f s).flash = s.flash := rfl
@[simp] theorem modSlice_backup (p : PortId) (i : SliceIdx) (f : Slice → Slice) (s : State) : (modSlice p i f s).backup = s.backup := rfl
@[simp] theorem modSlice_power (p : PortId) (i : SliceIdx) (f : Slice → Slice) (s : State) : (modSlice p i f s).power = s.power := rfl
@[simp] theorem modSlice_mode (p : PortId) (i : SliceIdx) (f : Slice → Slice) (s : State) : (modSlice p i f s).mode = s.mode := rfl
@[simp] theorem modSlice_draft (p : PortId) (i : SliceIdx) (f : Slice → Slice) (s : State) : (modSlice p i f s).draft = s.draft := rfl
@[simp] theorem modSlice_shares (p : PortId) (i : SliceIdx) (f : Slice → Slice) (s : State) : (modSlice p i f s).shares = s.shares := rfl
@[simp] theorem modSlice_device (p : PortId) (i : SliceIdx) (f : Slice → Slice) (s : State) : (modSlice p i f s).device = s.device := rfl
@[simp] theorem modSlice_ports (p : PortId) (i : SliceIdx) (f : Slice → Slice) (s : State) : (modSlice p i f s).ports = s.ports := rfl
@[simp] theorem modSlice_queues (p : PortId) (i : SliceIdx) (f : Slice → Slice) (s : State) : (modSlice p i f s).queues = s.queues := rfl
@[simp] theorem modSlice_heddle (p : PortId) (i : SliceIdx) (f : Slice → Slice) (s : State) : (modSlice p i f s).heddle = s.heddle := rfl
@[simp] theorem modSlice_looms (p : PortId) (i : SliceIdx) (f : Slice → Slice) (s : State) : (modSlice p i f s).looms = s.looms := rfl
@[simp] theorem modSlice_benches (p : PortId) (i : SliceIdx) (f : Slice → Slice) (s : State) : (modSlice p i f s).benches = s.benches := rfl
@[simp] theorem modSlice_trestles (p : PortId) (i : SliceIdx) (f : Slice → Slice) (s : State) : (modSlice p i f s).trestles = s.trestles := rfl
@[simp] theorem modSlice_selvs (p : PortId) (i : SliceIdx) (f : Slice → Slice) (s : State) : (modSlice p i f s).selvs = s.selvs := rfl
@[simp] theorem modSlice_farm (p : PortId) (i : SliceIdx) (f : Slice → Slice) (s : State) : (modSlice p i f s).farm = s.farm := rfl
@[simp] theorem modSlice_bobbin (p : PortId) (i : SliceIdx) (f : Slice → Slice) (s : State) : (modSlice p i f s).bobbin = s.bobbin := rfl
@[simp] theorem modSlice_cabinet (p : PortId) (i : SliceIdx) (f : Slice → Slice) (s : State) : (modSlice p i f s).cabinet = s.cabinet := rfl
@[simp] theorem modSlice_runs (p : PortId) (i : SliceIdx) (f : Slice → Slice) (s : State) : (modSlice p i f s).runs = s.runs := rfl
@[simp] theorem modSlice_cards (p : PortId) (i : SliceIdx) (f : Slice → Slice) (s : State) : (modSlice p i f s).cards = s.cards := rfl
@[simp] theorem modSlice_ceremony (p : PortId) (i : SliceIdx) (f : Slice → Slice) (s : State) : (modSlice p i f s).ceremony = s.ceremony := rfl
@[simp] theorem modSlice_tamper (p : PortId) (i : SliceIdx) (f : Slice → Slice) (s : State) : (modSlice p i f s).tamper = s.tamper := rfl
@[simp] theorem modSlice_faults (p : PortId) (i : SliceIdx) (f : Slice → Slice) (s : State) : (modSlice p i f s).faults = s.faults := rfl
@[simp] theorem modSlice_cal (p : PortId) (i : SliceIdx) (f : Slice → Slice) (s : State) : (modSlice p i f s).cal = s.cal := rfl
@[simp] theorem modSlice_log (p : PortId) (i : SliceIdx) (f : Slice → Slice) (s : State) : (modSlice p i f s).log = s.log := rfl
@[simp] theorem modSlice_life (p : PortId) (i : SliceIdx) (f : Slice → Slice) (s : State) : (modSlice p i f s).life = s.life := rfl
@[simp] theorem modSlice_owner (p : PortId) (i : SliceIdx) (f : Slice → Slice) (s : State) : (modSlice p i f s).owner = s.owner := rfl
@[simp] theorem modSlice_envelopes (p : PortId) (i : SliceIdx) (f : Slice → Slice) (s : State) : (modSlice p i f s).envelopes = s.envelopes := rfl

/-! ### `modRuns` -/

@[simp] theorem modRuns_pending (sel : KeyRun → Bool) (f : KeyRun → KeyRun) (s : State) : (modRuns sel f s).pending = s.pending := rfl
@[simp] theorem modRuns_out (sel : KeyRun → Bool) (f : KeyRun → KeyRun) (s : State) : (modRuns sel f s).out = s.out := rfl
@[simp] theorem modRuns_clock (sel : KeyRun → Bool) (f : KeyRun → KeyRun) (s : State) : (modRuns sel f s).clock = s.clock := rfl
@[simp] theorem modRuns_free (sel : KeyRun → Bool) (f : KeyRun → KeyRun) (s : State) : (modRuns sel f s).free = s.free := rfl
@[simp] theorem modRuns_fuses (sel : KeyRun → Bool) (f : KeyRun → KeyRun) (s : State) : (modRuns sel f s).fuses = s.fuses := rfl
@[simp] theorem modRuns_flash (sel : KeyRun → Bool) (f : KeyRun → KeyRun) (s : State) : (modRuns sel f s).flash = s.flash := rfl
@[simp] theorem modRuns_backup (sel : KeyRun → Bool) (f : KeyRun → KeyRun) (s : State) : (modRuns sel f s).backup = s.backup := rfl
@[simp] theorem modRuns_power (sel : KeyRun → Bool) (f : KeyRun → KeyRun) (s : State) : (modRuns sel f s).power = s.power := rfl
@[simp] theorem modRuns_mode (sel : KeyRun → Bool) (f : KeyRun → KeyRun) (s : State) : (modRuns sel f s).mode = s.mode := rfl
@[simp] theorem modRuns_draft (sel : KeyRun → Bool) (f : KeyRun → KeyRun) (s : State) : (modRuns sel f s).draft = s.draft := rfl
@[simp] theorem modRuns_shares (sel : KeyRun → Bool) (f : KeyRun → KeyRun) (s : State) : (modRuns sel f s).shares = s.shares := rfl
@[simp] theorem modRuns_device (sel : KeyRun → Bool) (f : KeyRun → KeyRun) (s : State) : (modRuns sel f s).device = s.device := rfl
@[simp] theorem modRuns_ports (sel : KeyRun → Bool) (f : KeyRun → KeyRun) (s : State) : (modRuns sel f s).ports = s.ports := rfl
@[simp] theorem modRuns_slices (sel : KeyRun → Bool) (f : KeyRun → KeyRun) (s : State) : (modRuns sel f s).slices = s.slices := rfl
@[simp] theorem modRuns_queues (sel : KeyRun → Bool) (f : KeyRun → KeyRun) (s : State) : (modRuns sel f s).queues = s.queues := rfl
@[simp] theorem modRuns_heddle (sel : KeyRun → Bool) (f : KeyRun → KeyRun) (s : State) : (modRuns sel f s).heddle = s.heddle := rfl
@[simp] theorem modRuns_looms (sel : KeyRun → Bool) (f : KeyRun → KeyRun) (s : State) : (modRuns sel f s).looms = s.looms := rfl
@[simp] theorem modRuns_benches (sel : KeyRun → Bool) (f : KeyRun → KeyRun) (s : State) : (modRuns sel f s).benches = s.benches := rfl
@[simp] theorem modRuns_trestles (sel : KeyRun → Bool) (f : KeyRun → KeyRun) (s : State) : (modRuns sel f s).trestles = s.trestles := rfl
@[simp] theorem modRuns_selvs (sel : KeyRun → Bool) (f : KeyRun → KeyRun) (s : State) : (modRuns sel f s).selvs = s.selvs := rfl
@[simp] theorem modRuns_farm (sel : KeyRun → Bool) (f : KeyRun → KeyRun) (s : State) : (modRuns sel f s).farm = s.farm := rfl
@[simp] theorem modRuns_bobbin (sel : KeyRun → Bool) (f : KeyRun → KeyRun) (s : State) : (modRuns sel f s).bobbin = s.bobbin := rfl
@[simp] theorem modRuns_cabinet (sel : KeyRun → Bool) (f : KeyRun → KeyRun) (s : State) : (modRuns sel f s).cabinet = s.cabinet := rfl
@[simp] theorem modRuns_cards (sel : KeyRun → Bool) (f : KeyRun → KeyRun) (s : State) : (modRuns sel f s).cards = s.cards := rfl
@[simp] theorem modRuns_ceremony (sel : KeyRun → Bool) (f : KeyRun → KeyRun) (s : State) : (modRuns sel f s).ceremony = s.ceremony := rfl
@[simp] theorem modRuns_tamper (sel : KeyRun → Bool) (f : KeyRun → KeyRun) (s : State) : (modRuns sel f s).tamper = s.tamper := rfl
@[simp] theorem modRuns_faults (sel : KeyRun → Bool) (f : KeyRun → KeyRun) (s : State) : (modRuns sel f s).faults = s.faults := rfl
@[simp] theorem modRuns_cal (sel : KeyRun → Bool) (f : KeyRun → KeyRun) (s : State) : (modRuns sel f s).cal = s.cal := rfl
@[simp] theorem modRuns_log (sel : KeyRun → Bool) (f : KeyRun → KeyRun) (s : State) : (modRuns sel f s).log = s.log := rfl
@[simp] theorem modRuns_life (sel : KeyRun → Bool) (f : KeyRun → KeyRun) (s : State) : (modRuns sel f s).life = s.life := rfl
@[simp] theorem modRuns_owner (sel : KeyRun → Bool) (f : KeyRun → KeyRun) (s : State) : (modRuns sel f s).owner = s.owner := rfl
@[simp] theorem modRuns_envelopes (sel : KeyRun → Bool) (f : KeyRun → KeyRun) (s : State) : (modRuns sel f s).envelopes = s.envelopes := rfl

/-! ### `modTally` -/

@[simp] theorem modTally_pending (sel : TallyRecord → Bool) (f : TallyRecord → TallyRecord) (s : State) : (modTally sel f s).pending = s.pending := rfl
@[simp] theorem modTally_out (sel : TallyRecord → Bool) (f : TallyRecord → TallyRecord) (s : State) : (modTally sel f s).out = s.out := rfl
@[simp] theorem modTally_clock (sel : TallyRecord → Bool) (f : TallyRecord → TallyRecord) (s : State) : (modTally sel f s).clock = s.clock := rfl
@[simp] theorem modTally_free (sel : TallyRecord → Bool) (f : TallyRecord → TallyRecord) (s : State) : (modTally sel f s).free = s.free := rfl
@[simp] theorem modTally_fuses (sel : TallyRecord → Bool) (f : TallyRecord → TallyRecord) (s : State) : (modTally sel f s).fuses = s.fuses := rfl
@[simp] theorem modTally_backup (sel : TallyRecord → Bool) (f : TallyRecord → TallyRecord) (s : State) : (modTally sel f s).backup = s.backup := rfl
@[simp] theorem modTally_power (sel : TallyRecord → Bool) (f : TallyRecord → TallyRecord) (s : State) : (modTally sel f s).power = s.power := rfl
@[simp] theorem modTally_mode (sel : TallyRecord → Bool) (f : TallyRecord → TallyRecord) (s : State) : (modTally sel f s).mode = s.mode := rfl
@[simp] theorem modTally_draft (sel : TallyRecord → Bool) (f : TallyRecord → TallyRecord) (s : State) : (modTally sel f s).draft = s.draft := rfl
@[simp] theorem modTally_shares (sel : TallyRecord → Bool) (f : TallyRecord → TallyRecord) (s : State) : (modTally sel f s).shares = s.shares := rfl
@[simp] theorem modTally_device (sel : TallyRecord → Bool) (f : TallyRecord → TallyRecord) (s : State) : (modTally sel f s).device = s.device := rfl
@[simp] theorem modTally_ports (sel : TallyRecord → Bool) (f : TallyRecord → TallyRecord) (s : State) : (modTally sel f s).ports = s.ports := rfl
@[simp] theorem modTally_slices (sel : TallyRecord → Bool) (f : TallyRecord → TallyRecord) (s : State) : (modTally sel f s).slices = s.slices := rfl
@[simp] theorem modTally_queues (sel : TallyRecord → Bool) (f : TallyRecord → TallyRecord) (s : State) : (modTally sel f s).queues = s.queues := rfl
@[simp] theorem modTally_heddle (sel : TallyRecord → Bool) (f : TallyRecord → TallyRecord) (s : State) : (modTally sel f s).heddle = s.heddle := rfl
@[simp] theorem modTally_looms (sel : TallyRecord → Bool) (f : TallyRecord → TallyRecord) (s : State) : (modTally sel f s).looms = s.looms := rfl
@[simp] theorem modTally_benches (sel : TallyRecord → Bool) (f : TallyRecord → TallyRecord) (s : State) : (modTally sel f s).benches = s.benches := rfl
@[simp] theorem modTally_trestles (sel : TallyRecord → Bool) (f : TallyRecord → TallyRecord) (s : State) : (modTally sel f s).trestles = s.trestles := rfl
@[simp] theorem modTally_selvs (sel : TallyRecord → Bool) (f : TallyRecord → TallyRecord) (s : State) : (modTally sel f s).selvs = s.selvs := rfl
@[simp] theorem modTally_farm (sel : TallyRecord → Bool) (f : TallyRecord → TallyRecord) (s : State) : (modTally sel f s).farm = s.farm := rfl
@[simp] theorem modTally_bobbin (sel : TallyRecord → Bool) (f : TallyRecord → TallyRecord) (s : State) : (modTally sel f s).bobbin = s.bobbin := rfl
@[simp] theorem modTally_cabinet (sel : TallyRecord → Bool) (f : TallyRecord → TallyRecord) (s : State) : (modTally sel f s).cabinet = s.cabinet := rfl
@[simp] theorem modTally_runs (sel : TallyRecord → Bool) (f : TallyRecord → TallyRecord) (s : State) : (modTally sel f s).runs = s.runs := rfl
@[simp] theorem modTally_cards (sel : TallyRecord → Bool) (f : TallyRecord → TallyRecord) (s : State) : (modTally sel f s).cards = s.cards := rfl
@[simp] theorem modTally_ceremony (sel : TallyRecord → Bool) (f : TallyRecord → TallyRecord) (s : State) : (modTally sel f s).ceremony = s.ceremony := rfl
@[simp] theorem modTally_tamper (sel : TallyRecord → Bool) (f : TallyRecord → TallyRecord) (s : State) : (modTally sel f s).tamper = s.tamper := rfl
@[simp] theorem modTally_faults (sel : TallyRecord → Bool) (f : TallyRecord → TallyRecord) (s : State) : (modTally sel f s).faults = s.faults := rfl
@[simp] theorem modTally_cal (sel : TallyRecord → Bool) (f : TallyRecord → TallyRecord) (s : State) : (modTally sel f s).cal = s.cal := rfl
@[simp] theorem modTally_log (sel : TallyRecord → Bool) (f : TallyRecord → TallyRecord) (s : State) : (modTally sel f s).log = s.log := rfl
@[simp] theorem modTally_life (sel : TallyRecord → Bool) (f : TallyRecord → TallyRecord) (s : State) : (modTally sel f s).life = s.life := rfl
@[simp] theorem modTally_owner (sel : TallyRecord → Bool) (f : TallyRecord → TallyRecord) (s : State) : (modTally sel f s).owner = s.owner := rfl
@[simp] theorem modTally_envelopes (sel : TallyRecord → Bool) (f : TallyRecord → TallyRecord) (s : State) : (modTally sel f s).envelopes = s.envelopes := rfl

/-! ### `emit` -/

@[simp] theorem emit_pending (x : Tx) (s : State) : (emit x s).pending = s.pending := rfl
@[simp] theorem emit_clock (x : Tx) (s : State) : (emit x s).clock = s.clock := rfl
@[simp] theorem emit_free (x : Tx) (s : State) : (emit x s).free = s.free := rfl
@[simp] theorem emit_fuses (x : Tx) (s : State) : (emit x s).fuses = s.fuses := rfl
@[simp] theorem emit_flash (x : Tx) (s : State) : (emit x s).flash = s.flash := rfl
@[simp] theorem emit_backup (x : Tx) (s : State) : (emit x s).backup = s.backup := rfl
@[simp] theorem emit_power (x : Tx) (s : State) : (emit x s).power = s.power := rfl
@[simp] theorem emit_mode (x : Tx) (s : State) : (emit x s).mode = s.mode := rfl
@[simp] theorem emit_draft (x : Tx) (s : State) : (emit x s).draft = s.draft := rfl
@[simp] theorem emit_shares (x : Tx) (s : State) : (emit x s).shares = s.shares := rfl
@[simp] theorem emit_device (x : Tx) (s : State) : (emit x s).device = s.device := rfl
@[simp] theorem emit_ports (x : Tx) (s : State) : (emit x s).ports = s.ports := rfl
@[simp] theorem emit_slices (x : Tx) (s : State) : (emit x s).slices = s.slices := rfl
@[simp] theorem emit_queues (x : Tx) (s : State) : (emit x s).queues = s.queues := rfl
@[simp] theorem emit_heddle (x : Tx) (s : State) : (emit x s).heddle = s.heddle := rfl
@[simp] theorem emit_looms (x : Tx) (s : State) : (emit x s).looms = s.looms := rfl
@[simp] theorem emit_benches (x : Tx) (s : State) : (emit x s).benches = s.benches := rfl
@[simp] theorem emit_trestles (x : Tx) (s : State) : (emit x s).trestles = s.trestles := rfl
@[simp] theorem emit_selvs (x : Tx) (s : State) : (emit x s).selvs = s.selvs := rfl
@[simp] theorem emit_farm (x : Tx) (s : State) : (emit x s).farm = s.farm := rfl
@[simp] theorem emit_bobbin (x : Tx) (s : State) : (emit x s).bobbin = s.bobbin := rfl
@[simp] theorem emit_cabinet (x : Tx) (s : State) : (emit x s).cabinet = s.cabinet := rfl
@[simp] theorem emit_runs (x : Tx) (s : State) : (emit x s).runs = s.runs := rfl
@[simp] theorem emit_cards (x : Tx) (s : State) : (emit x s).cards = s.cards := rfl
@[simp] theorem emit_ceremony (x : Tx) (s : State) : (emit x s).ceremony = s.ceremony := rfl
@[simp] theorem emit_tamper (x : Tx) (s : State) : (emit x s).tamper = s.tamper := rfl
@[simp] theorem emit_faults (x : Tx) (s : State) : (emit x s).faults = s.faults := rfl
@[simp] theorem emit_cal (x : Tx) (s : State) : (emit x s).cal = s.cal := rfl
@[simp] theorem emit_log (x : Tx) (s : State) : (emit x s).log = s.log := rfl
@[simp] theorem emit_life (x : Tx) (s : State) : (emit x s).life = s.life := rfl
@[simp] theorem emit_owner (x : Tx) (s : State) : (emit x s).owner = s.owner := rfl
@[simp] theorem emit_envelopes (x : Tx) (s : State) : (emit x s).envelopes = s.envelopes := rfl

/-! ### `readmit` -/

@[simp] theorem readmit_pending (i : Item) (s : State) : (readmit i s).pending = s.pending := rfl
@[simp] theorem readmit_out (i : Item) (s : State) : (readmit i s).out = s.out := rfl
@[simp] theorem readmit_clock (i : Item) (s : State) : (readmit i s).clock = s.clock := rfl
@[simp] theorem readmit_free (i : Item) (s : State) : (readmit i s).free = s.free := rfl
@[simp] theorem readmit_fuses (i : Item) (s : State) : (readmit i s).fuses = s.fuses := rfl
@[simp] theorem readmit_flash (i : Item) (s : State) : (readmit i s).flash = s.flash := rfl
@[simp] theorem readmit_backup (i : Item) (s : State) : (readmit i s).backup = s.backup := rfl
@[simp] theorem readmit_power (i : Item) (s : State) : (readmit i s).power = s.power := rfl
@[simp] theorem readmit_mode (i : Item) (s : State) : (readmit i s).mode = s.mode := rfl
@[simp] theorem readmit_draft (i : Item) (s : State) : (readmit i s).draft = s.draft := rfl
@[simp] theorem readmit_shares (i : Item) (s : State) : (readmit i s).shares = s.shares := rfl
@[simp] theorem readmit_device (i : Item) (s : State) : (readmit i s).device = s.device := rfl
@[simp] theorem readmit_ports (i : Item) (s : State) : (readmit i s).ports = s.ports := rfl
@[simp] theorem readmit_slices (i : Item) (s : State) : (readmit i s).slices = s.slices := rfl
@[simp] theorem readmit_queues (i : Item) (s : State) : (readmit i s).queues = s.queues := rfl
@[simp] theorem readmit_looms (i : Item) (s : State) : (readmit i s).looms = s.looms := rfl
@[simp] theorem readmit_benches (i : Item) (s : State) : (readmit i s).benches = s.benches := rfl
@[simp] theorem readmit_trestles (i : Item) (s : State) : (readmit i s).trestles = s.trestles := rfl
@[simp] theorem readmit_selvs (i : Item) (s : State) : (readmit i s).selvs = s.selvs := rfl
@[simp] theorem readmit_farm (i : Item) (s : State) : (readmit i s).farm = s.farm := rfl
@[simp] theorem readmit_bobbin (i : Item) (s : State) : (readmit i s).bobbin = s.bobbin := rfl
@[simp] theorem readmit_cabinet (i : Item) (s : State) : (readmit i s).cabinet = s.cabinet := rfl
@[simp] theorem readmit_runs (i : Item) (s : State) : (readmit i s).runs = s.runs := rfl
@[simp] theorem readmit_cards (i : Item) (s : State) : (readmit i s).cards = s.cards := rfl
@[simp] theorem readmit_ceremony (i : Item) (s : State) : (readmit i s).ceremony = s.ceremony := rfl
@[simp] theorem readmit_tamper (i : Item) (s : State) : (readmit i s).tamper = s.tamper := rfl
@[simp] theorem readmit_faults (i : Item) (s : State) : (readmit i s).faults = s.faults := rfl
@[simp] theorem readmit_cal (i : Item) (s : State) : (readmit i s).cal = s.cal := rfl
@[simp] theorem readmit_log (i : Item) (s : State) : (readmit i s).log = s.log := rfl
@[simp] theorem readmit_life (i : Item) (s : State) : (readmit i s).life = s.life := rfl
@[simp] theorem readmit_owner (i : Item) (s : State) : (readmit i s).owner = s.owner := rfl
@[simp] theorem readmit_envelopes (i : Item) (s : State) : (readmit i s).envelopes = s.envelopes := rfl

/-! ### `unask` -/

@[simp] theorem unask_pending (sel : Engine → Bool) (s : State) : (unask sel s).pending = s.pending := rfl
@[simp] theorem unask_out (sel : Engine → Bool) (s : State) : (unask sel s).out = s.out := rfl
@[simp] theorem unask_clock (sel : Engine → Bool) (s : State) : (unask sel s).clock = s.clock := rfl
@[simp] theorem unask_free (sel : Engine → Bool) (s : State) : (unask sel s).free = s.free := rfl
@[simp] theorem unask_fuses (sel : Engine → Bool) (s : State) : (unask sel s).fuses = s.fuses := rfl
@[simp] theorem unask_flash (sel : Engine → Bool) (s : State) : (unask sel s).flash = s.flash := rfl
@[simp] theorem unask_backup (sel : Engine → Bool) (s : State) : (unask sel s).backup = s.backup := rfl
@[simp] theorem unask_power (sel : Engine → Bool) (s : State) : (unask sel s).power = s.power := rfl
@[simp] theorem unask_mode (sel : Engine → Bool) (s : State) : (unask sel s).mode = s.mode := rfl
@[simp] theorem unask_draft (sel : Engine → Bool) (s : State) : (unask sel s).draft = s.draft := rfl
@[simp] theorem unask_shares (sel : Engine → Bool) (s : State) : (unask sel s).shares = s.shares := rfl
@[simp] theorem unask_device (sel : Engine → Bool) (s : State) : (unask sel s).device = s.device := rfl
@[simp] theorem unask_ports (sel : Engine → Bool) (s : State) : (unask sel s).ports = s.ports := rfl
@[simp] theorem unask_slices (sel : Engine → Bool) (s : State) : (unask sel s).slices = s.slices := rfl
@[simp] theorem unask_queues (sel : Engine → Bool) (s : State) : (unask sel s).queues = s.queues := rfl
@[simp] theorem unask_looms (sel : Engine → Bool) (s : State) : (unask sel s).looms = s.looms := rfl
@[simp] theorem unask_benches (sel : Engine → Bool) (s : State) : (unask sel s).benches = s.benches := rfl
@[simp] theorem unask_trestles (sel : Engine → Bool) (s : State) : (unask sel s).trestles = s.trestles := rfl
@[simp] theorem unask_selvs (sel : Engine → Bool) (s : State) : (unask sel s).selvs = s.selvs := rfl
@[simp] theorem unask_farm (sel : Engine → Bool) (s : State) : (unask sel s).farm = s.farm := rfl
@[simp] theorem unask_bobbin (sel : Engine → Bool) (s : State) : (unask sel s).bobbin = s.bobbin := rfl
@[simp] theorem unask_cabinet (sel : Engine → Bool) (s : State) : (unask sel s).cabinet = s.cabinet := rfl
@[simp] theorem unask_runs (sel : Engine → Bool) (s : State) : (unask sel s).runs = s.runs := rfl
@[simp] theorem unask_cards (sel : Engine → Bool) (s : State) : (unask sel s).cards = s.cards := rfl
@[simp] theorem unask_ceremony (sel : Engine → Bool) (s : State) : (unask sel s).ceremony = s.ceremony := rfl
@[simp] theorem unask_tamper (sel : Engine → Bool) (s : State) : (unask sel s).tamper = s.tamper := rfl
@[simp] theorem unask_faults (sel : Engine → Bool) (s : State) : (unask sel s).faults = s.faults := rfl
@[simp] theorem unask_cal (sel : Engine → Bool) (s : State) : (unask sel s).cal = s.cal := rfl
@[simp] theorem unask_log (sel : Engine → Bool) (s : State) : (unask sel s).log = s.log := rfl
@[simp] theorem unask_life (sel : Engine → Bool) (s : State) : (unask sel s).life = s.life := rfl
@[simp] theorem unask_owner (sel : Engine → Bool) (s : State) : (unask sel s).owner = s.owner := rfl
@[simp] theorem unask_envelopes (sel : Engine → Bool) (s : State) : (unask sel s).envelopes = s.envelopes := rfl

/-! ### `powerEvent` -/

@[simp] theorem powerEvent_pending (i : Nat) (s : State) : (powerEvent i s).pending = s.pending := rfl
@[simp] theorem powerEvent_out (i : Nat) (s : State) : (powerEvent i s).out = s.out := rfl
@[simp] theorem powerEvent_clock (i : Nat) (s : State) : (powerEvent i s).clock = s.clock := rfl
@[simp] theorem powerEvent_free (i : Nat) (s : State) : (powerEvent i s).free = s.free := rfl
@[simp] theorem powerEvent_fuses (i : Nat) (s : State) : (powerEvent i s).fuses = s.fuses := rfl
@[simp] theorem powerEvent_flash (i : Nat) (s : State) : (powerEvent i s).flash = s.flash := rfl
@[simp] theorem powerEvent_backup (i : Nat) (s : State) : (powerEvent i s).backup = s.backup := rfl
@[simp] theorem powerEvent_mode (i : Nat) (s : State) : (powerEvent i s).mode = s.mode := rfl
@[simp] theorem powerEvent_draft (i : Nat) (s : State) : (powerEvent i s).draft = s.draft := rfl
@[simp] theorem powerEvent_shares (i : Nat) (s : State) : (powerEvent i s).shares = s.shares := rfl
@[simp] theorem powerEvent_device (i : Nat) (s : State) : (powerEvent i s).device = s.device := rfl
@[simp] theorem powerEvent_ports (i : Nat) (s : State) : (powerEvent i s).ports = s.ports := rfl
@[simp] theorem powerEvent_slices (i : Nat) (s : State) : (powerEvent i s).slices = s.slices := rfl
@[simp] theorem powerEvent_queues (i : Nat) (s : State) : (powerEvent i s).queues = s.queues := rfl
@[simp] theorem powerEvent_heddle (i : Nat) (s : State) : (powerEvent i s).heddle = s.heddle := rfl
@[simp] theorem powerEvent_looms (i : Nat) (s : State) : (powerEvent i s).looms = s.looms := rfl
@[simp] theorem powerEvent_benches (i : Nat) (s : State) : (powerEvent i s).benches = s.benches := rfl
@[simp] theorem powerEvent_trestles (i : Nat) (s : State) : (powerEvent i s).trestles = s.trestles := rfl
@[simp] theorem powerEvent_selvs (i : Nat) (s : State) : (powerEvent i s).selvs = s.selvs := rfl
@[simp] theorem powerEvent_farm (i : Nat) (s : State) : (powerEvent i s).farm = s.farm := rfl
@[simp] theorem powerEvent_bobbin (i : Nat) (s : State) : (powerEvent i s).bobbin = s.bobbin := rfl
@[simp] theorem powerEvent_cabinet (i : Nat) (s : State) : (powerEvent i s).cabinet = s.cabinet := rfl
@[simp] theorem powerEvent_runs (i : Nat) (s : State) : (powerEvent i s).runs = s.runs := rfl
@[simp] theorem powerEvent_cards (i : Nat) (s : State) : (powerEvent i s).cards = s.cards := rfl
@[simp] theorem powerEvent_ceremony (i : Nat) (s : State) : (powerEvent i s).ceremony = s.ceremony := rfl
@[simp] theorem powerEvent_tamper (i : Nat) (s : State) : (powerEvent i s).tamper = s.tamper := rfl
@[simp] theorem powerEvent_faults (i : Nat) (s : State) : (powerEvent i s).faults = s.faults := rfl
@[simp] theorem powerEvent_cal (i : Nat) (s : State) : (powerEvent i s).cal = s.cal := rfl
@[simp] theorem powerEvent_log (i : Nat) (s : State) : (powerEvent i s).log = s.log := rfl
@[simp] theorem powerEvent_life (i : Nat) (s : State) : (powerEvent i s).life = s.life := rfl
@[simp] theorem powerEvent_owner (i : Nat) (s : State) : (powerEvent i s).owner = s.owner := rfl
@[simp] theorem powerEvent_envelopes (i : Nat) (s : State) : (powerEvent i s).envelopes = s.envelopes := rfl

/-! ### `freeSlots` -/

@[simp] theorem freeSlots_pending (sel : DigestSlotState → Bool) (s : State) : (freeSlots sel s).pending = s.pending := rfl
@[simp] theorem freeSlots_out (sel : DigestSlotState → Bool) (s : State) : (freeSlots sel s).out = s.out := rfl
@[simp] theorem freeSlots_clock (sel : DigestSlotState → Bool) (s : State) : (freeSlots sel s).clock = s.clock := rfl
@[simp] theorem freeSlots_free (sel : DigestSlotState → Bool) (s : State) : (freeSlots sel s).free = s.free := rfl
@[simp] theorem freeSlots_fuses (sel : DigestSlotState → Bool) (s : State) : (freeSlots sel s).fuses = s.fuses := rfl
@[simp] theorem freeSlots_flash (sel : DigestSlotState → Bool) (s : State) : (freeSlots sel s).flash = s.flash := rfl
@[simp] theorem freeSlots_backup (sel : DigestSlotState → Bool) (s : State) : (freeSlots sel s).backup = s.backup := rfl
@[simp] theorem freeSlots_power (sel : DigestSlotState → Bool) (s : State) : (freeSlots sel s).power = s.power := rfl
@[simp] theorem freeSlots_mode (sel : DigestSlotState → Bool) (s : State) : (freeSlots sel s).mode = s.mode := rfl
@[simp] theorem freeSlots_draft (sel : DigestSlotState → Bool) (s : State) : (freeSlots sel s).draft = s.draft := rfl
@[simp] theorem freeSlots_shares (sel : DigestSlotState → Bool) (s : State) : (freeSlots sel s).shares = s.shares := rfl
@[simp] theorem freeSlots_device (sel : DigestSlotState → Bool) (s : State) : (freeSlots sel s).device = s.device := rfl
@[simp] theorem freeSlots_ports (sel : DigestSlotState → Bool) (s : State) : (freeSlots sel s).ports = s.ports := rfl
@[simp] theorem freeSlots_slices (sel : DigestSlotState → Bool) (s : State) : (freeSlots sel s).slices = s.slices := rfl
@[simp] theorem freeSlots_queues (sel : DigestSlotState → Bool) (s : State) : (freeSlots sel s).queues = s.queues := rfl
@[simp] theorem freeSlots_heddle (sel : DigestSlotState → Bool) (s : State) : (freeSlots sel s).heddle = s.heddle := rfl
@[simp] theorem freeSlots_looms (sel : DigestSlotState → Bool) (s : State) : (freeSlots sel s).looms = s.looms := rfl
@[simp] theorem freeSlots_benches (sel : DigestSlotState → Bool) (s : State) : (freeSlots sel s).benches = s.benches := rfl
@[simp] theorem freeSlots_trestles (sel : DigestSlotState → Bool) (s : State) : (freeSlots sel s).trestles = s.trestles := rfl
@[simp] theorem freeSlots_selvs (sel : DigestSlotState → Bool) (s : State) : (freeSlots sel s).selvs = s.selvs := rfl
@[simp] theorem freeSlots_bobbin (sel : DigestSlotState → Bool) (s : State) : (freeSlots sel s).bobbin = s.bobbin := rfl
@[simp] theorem freeSlots_cabinet (sel : DigestSlotState → Bool) (s : State) : (freeSlots sel s).cabinet = s.cabinet := rfl
@[simp] theorem freeSlots_runs (sel : DigestSlotState → Bool) (s : State) : (freeSlots sel s).runs = s.runs := rfl
@[simp] theorem freeSlots_cards (sel : DigestSlotState → Bool) (s : State) : (freeSlots sel s).cards = s.cards := rfl
@[simp] theorem freeSlots_ceremony (sel : DigestSlotState → Bool) (s : State) : (freeSlots sel s).ceremony = s.ceremony := rfl
@[simp] theorem freeSlots_tamper (sel : DigestSlotState → Bool) (s : State) : (freeSlots sel s).tamper = s.tamper := rfl
@[simp] theorem freeSlots_faults (sel : DigestSlotState → Bool) (s : State) : (freeSlots sel s).faults = s.faults := rfl
@[simp] theorem freeSlots_cal (sel : DigestSlotState → Bool) (s : State) : (freeSlots sel s).cal = s.cal := rfl
@[simp] theorem freeSlots_log (sel : DigestSlotState → Bool) (s : State) : (freeSlots sel s).log = s.log := rfl
@[simp] theorem freeSlots_life (sel : DigestSlotState → Bool) (s : State) : (freeSlots sel s).life = s.life := rfl
@[simp] theorem freeSlots_owner (sel : DigestSlotState → Bool) (s : State) : (freeSlots sel s).owner = s.owner := rfl
@[simp] theorem freeSlots_envelopes (sel : DigestSlotState → Bool) (s : State) : (freeSlots sel s).envelopes = s.envelopes := rfl

/-! ### `clearChest` -/

@[simp] theorem clearChest_pending (s : State) : (clearChest s).pending = s.pending := rfl
@[simp] theorem clearChest_out (s : State) : (clearChest s).out = s.out := rfl
@[simp] theorem clearChest_clock (s : State) : (clearChest s).clock = s.clock := rfl
@[simp] theorem clearChest_free (s : State) : (clearChest s).free = s.free := rfl
@[simp] theorem clearChest_fuses (s : State) : (clearChest s).fuses = s.fuses := rfl
@[simp] theorem clearChest_flash (s : State) : (clearChest s).flash = s.flash := rfl
@[simp] theorem clearChest_power (s : State) : (clearChest s).power = s.power := rfl
@[simp] theorem clearChest_mode (s : State) : (clearChest s).mode = s.mode := rfl
@[simp] theorem clearChest_draft (s : State) : (clearChest s).draft = s.draft := rfl
@[simp] theorem clearChest_shares (s : State) : (clearChest s).shares = s.shares := rfl
@[simp] theorem clearChest_device (s : State) : (clearChest s).device = s.device := rfl
@[simp] theorem clearChest_ports (s : State) : (clearChest s).ports = s.ports := rfl
@[simp] theorem clearChest_slices (s : State) : (clearChest s).slices = s.slices := rfl
@[simp] theorem clearChest_queues (s : State) : (clearChest s).queues = s.queues := rfl
@[simp] theorem clearChest_heddle (s : State) : (clearChest s).heddle = s.heddle := rfl
@[simp] theorem clearChest_looms (s : State) : (clearChest s).looms = s.looms := rfl
@[simp] theorem clearChest_benches (s : State) : (clearChest s).benches = s.benches := rfl
@[simp] theorem clearChest_trestles (s : State) : (clearChest s).trestles = s.trestles := rfl
@[simp] theorem clearChest_selvs (s : State) : (clearChest s).selvs = s.selvs := rfl
@[simp] theorem clearChest_farm (s : State) : (clearChest s).farm = s.farm := rfl
@[simp] theorem clearChest_bobbin (s : State) : (clearChest s).bobbin = s.bobbin := rfl
@[simp] theorem clearChest_cabinet (s : State) : (clearChest s).cabinet = s.cabinet := rfl
@[simp] theorem clearChest_runs (s : State) : (clearChest s).runs = s.runs := rfl
@[simp] theorem clearChest_cards (s : State) : (clearChest s).cards = s.cards := rfl
@[simp] theorem clearChest_ceremony (s : State) : (clearChest s).ceremony = s.ceremony := rfl
@[simp] theorem clearChest_tamper (s : State) : (clearChest s).tamper = s.tamper := rfl
@[simp] theorem clearChest_faults (s : State) : (clearChest s).faults = s.faults := rfl
@[simp] theorem clearChest_cal (s : State) : (clearChest s).cal = s.cal := rfl
@[simp] theorem clearChest_log (s : State) : (clearChest s).log = s.log := rfl
@[simp] theorem clearChest_life (s : State) : (clearChest s).life = s.life := rfl
@[simp] theorem clearChest_owner (s : State) : (clearChest s).owner = s.owner := rfl
@[simp] theorem clearChest_envelopes (s : State) : (clearChest s).envelopes = s.envelopes := rfl

/-! ### `wipeDrawers` -/

@[simp] theorem wipeDrawers_pending (x : Slice) (first n : Nat) (s : State) : (wipeDrawers x first n s).pending = s.pending := rfl
@[simp] theorem wipeDrawers_out (x : Slice) (first n : Nat) (s : State) : (wipeDrawers x first n s).out = s.out := rfl
@[simp] theorem wipeDrawers_clock (x : Slice) (first n : Nat) (s : State) : (wipeDrawers x first n s).clock = s.clock := rfl
@[simp] theorem wipeDrawers_free (x : Slice) (first n : Nat) (s : State) : (wipeDrawers x first n s).free = s.free := rfl
@[simp] theorem wipeDrawers_fuses (x : Slice) (first n : Nat) (s : State) : (wipeDrawers x first n s).fuses = s.fuses := rfl
@[simp] theorem wipeDrawers_flash (x : Slice) (first n : Nat) (s : State) : (wipeDrawers x first n s).flash = s.flash := rfl
@[simp] theorem wipeDrawers_backup (x : Slice) (first n : Nat) (s : State) : (wipeDrawers x first n s).backup = s.backup := rfl
@[simp] theorem wipeDrawers_power (x : Slice) (first n : Nat) (s : State) : (wipeDrawers x first n s).power = s.power := rfl
@[simp] theorem wipeDrawers_mode (x : Slice) (first n : Nat) (s : State) : (wipeDrawers x first n s).mode = s.mode := rfl
@[simp] theorem wipeDrawers_draft (x : Slice) (first n : Nat) (s : State) : (wipeDrawers x first n s).draft = s.draft := rfl
@[simp] theorem wipeDrawers_shares (x : Slice) (first n : Nat) (s : State) : (wipeDrawers x first n s).shares = s.shares := rfl
@[simp] theorem wipeDrawers_device (x : Slice) (first n : Nat) (s : State) : (wipeDrawers x first n s).device = s.device := rfl
@[simp] theorem wipeDrawers_ports (x : Slice) (first n : Nat) (s : State) : (wipeDrawers x first n s).ports = s.ports := rfl
@[simp] theorem wipeDrawers_slices (x : Slice) (first n : Nat) (s : State) : (wipeDrawers x first n s).slices = s.slices := rfl
@[simp] theorem wipeDrawers_queues (x : Slice) (first n : Nat) (s : State) : (wipeDrawers x first n s).queues = s.queues := rfl
@[simp] theorem wipeDrawers_heddle (x : Slice) (first n : Nat) (s : State) : (wipeDrawers x first n s).heddle = s.heddle := rfl
@[simp] theorem wipeDrawers_looms (x : Slice) (first n : Nat) (s : State) : (wipeDrawers x first n s).looms = s.looms := rfl
@[simp] theorem wipeDrawers_benches (x : Slice) (first n : Nat) (s : State) : (wipeDrawers x first n s).benches = s.benches := rfl
@[simp] theorem wipeDrawers_trestles (x : Slice) (first n : Nat) (s : State) : (wipeDrawers x first n s).trestles = s.trestles := rfl
@[simp] theorem wipeDrawers_selvs (x : Slice) (first n : Nat) (s : State) : (wipeDrawers x first n s).selvs = s.selvs := rfl
@[simp] theorem wipeDrawers_farm (x : Slice) (first n : Nat) (s : State) : (wipeDrawers x first n s).farm = s.farm := rfl
@[simp] theorem wipeDrawers_bobbin (x : Slice) (first n : Nat) (s : State) : (wipeDrawers x first n s).bobbin = s.bobbin := rfl
@[simp] theorem wipeDrawers_runs (x : Slice) (first n : Nat) (s : State) : (wipeDrawers x first n s).runs = s.runs := rfl
@[simp] theorem wipeDrawers_cards (x : Slice) (first n : Nat) (s : State) : (wipeDrawers x first n s).cards = s.cards := rfl
@[simp] theorem wipeDrawers_ceremony (x : Slice) (first n : Nat) (s : State) : (wipeDrawers x first n s).ceremony = s.ceremony := rfl
@[simp] theorem wipeDrawers_tamper (x : Slice) (first n : Nat) (s : State) : (wipeDrawers x first n s).tamper = s.tamper := rfl
@[simp] theorem wipeDrawers_faults (x : Slice) (first n : Nat) (s : State) : (wipeDrawers x first n s).faults = s.faults := rfl
@[simp] theorem wipeDrawers_cal (x : Slice) (first n : Nat) (s : State) : (wipeDrawers x first n s).cal = s.cal := rfl
@[simp] theorem wipeDrawers_log (x : Slice) (first n : Nat) (s : State) : (wipeDrawers x first n s).log = s.log := rfl
@[simp] theorem wipeDrawers_life (x : Slice) (first n : Nat) (s : State) : (wipeDrawers x first n s).life = s.life := rfl
@[simp] theorem wipeDrawers_owner (x : Slice) (first n : Nat) (s : State) : (wipeDrawers x first n s).owner = s.owner := rfl
@[simp] theorem wipeDrawers_envelopes (x : Slice) (first n : Nat) (s : State) : (wipeDrawers x first n s).envelopes = s.envelopes := rfl

/-! ### `holdTrestle` -/

@[simp] theorem holdTrestle_pending (t : TrestleId) (m : Nat) (s : State) : (holdTrestle t m s).pending = s.pending := rfl
@[simp] theorem holdTrestle_out (t : TrestleId) (m : Nat) (s : State) : (holdTrestle t m s).out = s.out := rfl
@[simp] theorem holdTrestle_clock (t : TrestleId) (m : Nat) (s : State) : (holdTrestle t m s).clock = s.clock := rfl
@[simp] theorem holdTrestle_free (t : TrestleId) (m : Nat) (s : State) : (holdTrestle t m s).free = s.free := rfl
@[simp] theorem holdTrestle_fuses (t : TrestleId) (m : Nat) (s : State) : (holdTrestle t m s).fuses = s.fuses := rfl
@[simp] theorem holdTrestle_flash (t : TrestleId) (m : Nat) (s : State) : (holdTrestle t m s).flash = s.flash := rfl
@[simp] theorem holdTrestle_backup (t : TrestleId) (m : Nat) (s : State) : (holdTrestle t m s).backup = s.backup := rfl
@[simp] theorem holdTrestle_power (t : TrestleId) (m : Nat) (s : State) : (holdTrestle t m s).power = s.power := rfl
@[simp] theorem holdTrestle_mode (t : TrestleId) (m : Nat) (s : State) : (holdTrestle t m s).mode = s.mode := rfl
@[simp] theorem holdTrestle_draft (t : TrestleId) (m : Nat) (s : State) : (holdTrestle t m s).draft = s.draft := rfl
@[simp] theorem holdTrestle_shares (t : TrestleId) (m : Nat) (s : State) : (holdTrestle t m s).shares = s.shares := rfl
@[simp] theorem holdTrestle_device (t : TrestleId) (m : Nat) (s : State) : (holdTrestle t m s).device = s.device := rfl
@[simp] theorem holdTrestle_ports (t : TrestleId) (m : Nat) (s : State) : (holdTrestle t m s).ports = s.ports := rfl
@[simp] theorem holdTrestle_slices (t : TrestleId) (m : Nat) (s : State) : (holdTrestle t m s).slices = s.slices := rfl
@[simp] theorem holdTrestle_queues (t : TrestleId) (m : Nat) (s : State) : (holdTrestle t m s).queues = s.queues := rfl
@[simp] theorem holdTrestle_heddle (t : TrestleId) (m : Nat) (s : State) : (holdTrestle t m s).heddle = s.heddle := rfl
@[simp] theorem holdTrestle_looms (t : TrestleId) (m : Nat) (s : State) : (holdTrestle t m s).looms = s.looms := rfl
@[simp] theorem holdTrestle_benches (t : TrestleId) (m : Nat) (s : State) : (holdTrestle t m s).benches = s.benches := rfl
@[simp] theorem holdTrestle_selvs (t : TrestleId) (m : Nat) (s : State) : (holdTrestle t m s).selvs = s.selvs := rfl
@[simp] theorem holdTrestle_farm (t : TrestleId) (m : Nat) (s : State) : (holdTrestle t m s).farm = s.farm := rfl
@[simp] theorem holdTrestle_bobbin (t : TrestleId) (m : Nat) (s : State) : (holdTrestle t m s).bobbin = s.bobbin := rfl
@[simp] theorem holdTrestle_cabinet (t : TrestleId) (m : Nat) (s : State) : (holdTrestle t m s).cabinet = s.cabinet := rfl
@[simp] theorem holdTrestle_runs (t : TrestleId) (m : Nat) (s : State) : (holdTrestle t m s).runs = s.runs := rfl
@[simp] theorem holdTrestle_cards (t : TrestleId) (m : Nat) (s : State) : (holdTrestle t m s).cards = s.cards := rfl
@[simp] theorem holdTrestle_ceremony (t : TrestleId) (m : Nat) (s : State) : (holdTrestle t m s).ceremony = s.ceremony := rfl
@[simp] theorem holdTrestle_tamper (t : TrestleId) (m : Nat) (s : State) : (holdTrestle t m s).tamper = s.tamper := rfl
@[simp] theorem holdTrestle_faults (t : TrestleId) (m : Nat) (s : State) : (holdTrestle t m s).faults = s.faults := rfl
@[simp] theorem holdTrestle_cal (t : TrestleId) (m : Nat) (s : State) : (holdTrestle t m s).cal = s.cal := rfl
@[simp] theorem holdTrestle_log (t : TrestleId) (m : Nat) (s : State) : (holdTrestle t m s).log = s.log := rfl
@[simp] theorem holdTrestle_life (t : TrestleId) (m : Nat) (s : State) : (holdTrestle t m s).life = s.life := rfl
@[simp] theorem holdTrestle_owner (t : TrestleId) (m : Nat) (s : State) : (holdTrestle t m s).owner = s.owner := rfl
@[simp] theorem holdTrestle_envelopes (t : TrestleId) (m : Nat) (s : State) : (holdTrestle t m s).envelopes = s.envelopes := rfl

/-! ### `setContract` -/

@[simp] theorem setContract_pending (p : PortId) (c : Contract) (s : State) : (setContract p c s).pending = s.pending := rfl
@[simp] theorem setContract_out (p : PortId) (c : Contract) (s : State) : (setContract p c s).out = s.out := rfl
@[simp] theorem setContract_clock (p : PortId) (c : Contract) (s : State) : (setContract p c s).clock = s.clock := rfl
@[simp] theorem setContract_free (p : PortId) (c : Contract) (s : State) : (setContract p c s).free = s.free := rfl
@[simp] theorem setContract_fuses (p : PortId) (c : Contract) (s : State) : (setContract p c s).fuses = s.fuses := rfl
@[simp] theorem setContract_flash (p : PortId) (c : Contract) (s : State) : (setContract p c s).flash = s.flash := rfl
@[simp] theorem setContract_backup (p : PortId) (c : Contract) (s : State) : (setContract p c s).backup = s.backup := rfl
@[simp] theorem setContract_mode (p : PortId) (c : Contract) (s : State) : (setContract p c s).mode = s.mode := rfl
@[simp] theorem setContract_draft (p : PortId) (c : Contract) (s : State) : (setContract p c s).draft = s.draft := rfl
@[simp] theorem setContract_shares (p : PortId) (c : Contract) (s : State) : (setContract p c s).shares = s.shares := rfl
@[simp] theorem setContract_device (p : PortId) (c : Contract) (s : State) : (setContract p c s).device = s.device := rfl
@[simp] theorem setContract_ports (p : PortId) (c : Contract) (s : State) : (setContract p c s).ports = s.ports := rfl
@[simp] theorem setContract_slices (p : PortId) (c : Contract) (s : State) : (setContract p c s).slices = s.slices := rfl
@[simp] theorem setContract_queues (p : PortId) (c : Contract) (s : State) : (setContract p c s).queues = s.queues := rfl
@[simp] theorem setContract_heddle (p : PortId) (c : Contract) (s : State) : (setContract p c s).heddle = s.heddle := rfl
@[simp] theorem setContract_looms (p : PortId) (c : Contract) (s : State) : (setContract p c s).looms = s.looms := rfl
@[simp] theorem setContract_benches (p : PortId) (c : Contract) (s : State) : (setContract p c s).benches = s.benches := rfl
@[simp] theorem setContract_trestles (p : PortId) (c : Contract) (s : State) : (setContract p c s).trestles = s.trestles := rfl
@[simp] theorem setContract_selvs (p : PortId) (c : Contract) (s : State) : (setContract p c s).selvs = s.selvs := rfl
@[simp] theorem setContract_farm (p : PortId) (c : Contract) (s : State) : (setContract p c s).farm = s.farm := rfl
@[simp] theorem setContract_bobbin (p : PortId) (c : Contract) (s : State) : (setContract p c s).bobbin = s.bobbin := rfl
@[simp] theorem setContract_cabinet (p : PortId) (c : Contract) (s : State) : (setContract p c s).cabinet = s.cabinet := rfl
@[simp] theorem setContract_runs (p : PortId) (c : Contract) (s : State) : (setContract p c s).runs = s.runs := rfl
@[simp] theorem setContract_cards (p : PortId) (c : Contract) (s : State) : (setContract p c s).cards = s.cards := rfl
@[simp] theorem setContract_ceremony (p : PortId) (c : Contract) (s : State) : (setContract p c s).ceremony = s.ceremony := rfl
@[simp] theorem setContract_tamper (p : PortId) (c : Contract) (s : State) : (setContract p c s).tamper = s.tamper := rfl
@[simp] theorem setContract_faults (p : PortId) (c : Contract) (s : State) : (setContract p c s).faults = s.faults := rfl
@[simp] theorem setContract_cal (p : PortId) (c : Contract) (s : State) : (setContract p c s).cal = s.cal := rfl
@[simp] theorem setContract_log (p : PortId) (c : Contract) (s : State) : (setContract p c s).log = s.log := rfl
@[simp] theorem setContract_life (p : PortId) (c : Contract) (s : State) : (setContract p c s).life = s.life := rfl
@[simp] theorem setContract_owner (p : PortId) (c : Contract) (s : State) : (setContract p c s).owner = s.owner := rfl
@[simp] theorem setContract_envelopes (p : PortId) (c : Contract) (s : State) : (setContract p c s).envelopes = s.envelopes := rfl

/-! ### `sendCard` -/

@[simp] theorem sendCard_pending (rate : CardRate) (op : BitVec 5) (addr arg : Nat) (s : State) : (sendCard rate op addr arg s).pending = s.pending := rfl
@[simp] theorem sendCard_clock (rate : CardRate) (op : BitVec 5) (addr arg : Nat) (s : State) : (sendCard rate op addr arg s).clock = s.clock := rfl
@[simp] theorem sendCard_free (rate : CardRate) (op : BitVec 5) (addr arg : Nat) (s : State) : (sendCard rate op addr arg s).free = s.free := rfl
@[simp] theorem sendCard_fuses (rate : CardRate) (op : BitVec 5) (addr arg : Nat) (s : State) : (sendCard rate op addr arg s).fuses = s.fuses := rfl
@[simp] theorem sendCard_flash (rate : CardRate) (op : BitVec 5) (addr arg : Nat) (s : State) : (sendCard rate op addr arg s).flash = s.flash := rfl
@[simp] theorem sendCard_backup (rate : CardRate) (op : BitVec 5) (addr arg : Nat) (s : State) : (sendCard rate op addr arg s).backup = s.backup := rfl
@[simp] theorem sendCard_power (rate : CardRate) (op : BitVec 5) (addr arg : Nat) (s : State) : (sendCard rate op addr arg s).power = s.power := rfl
@[simp] theorem sendCard_mode (rate : CardRate) (op : BitVec 5) (addr arg : Nat) (s : State) : (sendCard rate op addr arg s).mode = s.mode := rfl
@[simp] theorem sendCard_draft (rate : CardRate) (op : BitVec 5) (addr arg : Nat) (s : State) : (sendCard rate op addr arg s).draft = s.draft := rfl
@[simp] theorem sendCard_shares (rate : CardRate) (op : BitVec 5) (addr arg : Nat) (s : State) : (sendCard rate op addr arg s).shares = s.shares := rfl
@[simp] theorem sendCard_device (rate : CardRate) (op : BitVec 5) (addr arg : Nat) (s : State) : (sendCard rate op addr arg s).device = s.device := rfl
@[simp] theorem sendCard_ports (rate : CardRate) (op : BitVec 5) (addr arg : Nat) (s : State) : (sendCard rate op addr arg s).ports = s.ports := rfl
@[simp] theorem sendCard_slices (rate : CardRate) (op : BitVec 5) (addr arg : Nat) (s : State) : (sendCard rate op addr arg s).slices = s.slices := rfl
@[simp] theorem sendCard_queues (rate : CardRate) (op : BitVec 5) (addr arg : Nat) (s : State) : (sendCard rate op addr arg s).queues = s.queues := rfl
@[simp] theorem sendCard_heddle (rate : CardRate) (op : BitVec 5) (addr arg : Nat) (s : State) : (sendCard rate op addr arg s).heddle = s.heddle := rfl
@[simp] theorem sendCard_looms (rate : CardRate) (op : BitVec 5) (addr arg : Nat) (s : State) : (sendCard rate op addr arg s).looms = s.looms := rfl
@[simp] theorem sendCard_benches (rate : CardRate) (op : BitVec 5) (addr arg : Nat) (s : State) : (sendCard rate op addr arg s).benches = s.benches := rfl
@[simp] theorem sendCard_trestles (rate : CardRate) (op : BitVec 5) (addr arg : Nat) (s : State) : (sendCard rate op addr arg s).trestles = s.trestles := rfl
@[simp] theorem sendCard_selvs (rate : CardRate) (op : BitVec 5) (addr arg : Nat) (s : State) : (sendCard rate op addr arg s).selvs = s.selvs := rfl
@[simp] theorem sendCard_farm (rate : CardRate) (op : BitVec 5) (addr arg : Nat) (s : State) : (sendCard rate op addr arg s).farm = s.farm := rfl
@[simp] theorem sendCard_bobbin (rate : CardRate) (op : BitVec 5) (addr arg : Nat) (s : State) : (sendCard rate op addr arg s).bobbin = s.bobbin := rfl
@[simp] theorem sendCard_cabinet (rate : CardRate) (op : BitVec 5) (addr arg : Nat) (s : State) : (sendCard rate op addr arg s).cabinet = s.cabinet := rfl
@[simp] theorem sendCard_runs (rate : CardRate) (op : BitVec 5) (addr arg : Nat) (s : State) : (sendCard rate op addr arg s).runs = s.runs := rfl
@[simp] theorem sendCard_cards (rate : CardRate) (op : BitVec 5) (addr arg : Nat) (s : State) : (sendCard rate op addr arg s).cards = s.cards := rfl
@[simp] theorem sendCard_ceremony (rate : CardRate) (op : BitVec 5) (addr arg : Nat) (s : State) : (sendCard rate op addr arg s).ceremony = s.ceremony := rfl
@[simp] theorem sendCard_tamper (rate : CardRate) (op : BitVec 5) (addr arg : Nat) (s : State) : (sendCard rate op addr arg s).tamper = s.tamper := rfl
@[simp] theorem sendCard_faults (rate : CardRate) (op : BitVec 5) (addr arg : Nat) (s : State) : (sendCard rate op addr arg s).faults = s.faults := rfl
@[simp] theorem sendCard_cal (rate : CardRate) (op : BitVec 5) (addr arg : Nat) (s : State) : (sendCard rate op addr arg s).cal = s.cal := rfl
@[simp] theorem sendCard_log (rate : CardRate) (op : BitVec 5) (addr arg : Nat) (s : State) : (sendCard rate op addr arg s).log = s.log := rfl
@[simp] theorem sendCard_life (rate : CardRate) (op : BitVec 5) (addr arg : Nat) (s : State) : (sendCard rate op addr arg s).life = s.life := rfl
@[simp] theorem sendCard_owner (rate : CardRate) (op : BitVec 5) (addr arg : Nat) (s : State) : (sendCard rate op addr arg s).owner = s.owner := rfl
@[simp] theorem sendCard_envelopes (rate : CardRate) (op : BitVec 5) (addr arg : Nat) (s : State) : (sendCard rate op addr arg s).envelopes = s.envelopes := rfl

/-! ### `clearInstances` -/

@[simp] theorem clearInstances_pending (s : State) : (clearInstances s).pending = s.pending := rfl
@[simp] theorem clearInstances_out (s : State) : (clearInstances s).out = s.out := rfl
@[simp] theorem clearInstances_clock (s : State) : (clearInstances s).clock = s.clock := rfl
@[simp] theorem clearInstances_free (s : State) : (clearInstances s).free = s.free := rfl
@[simp] theorem clearInstances_fuses (s : State) : (clearInstances s).fuses = s.fuses := rfl
@[simp] theorem clearInstances_flash (s : State) : (clearInstances s).flash = s.flash := rfl
@[simp] theorem clearInstances_backup (s : State) : (clearInstances s).backup = s.backup := rfl
@[simp] theorem clearInstances_power (s : State) : (clearInstances s).power = s.power := rfl
@[simp] theorem clearInstances_mode (s : State) : (clearInstances s).mode = s.mode := rfl
@[simp] theorem clearInstances_draft (s : State) : (clearInstances s).draft = s.draft := rfl
@[simp] theorem clearInstances_shares (s : State) : (clearInstances s).shares = s.shares := rfl
@[simp] theorem clearInstances_device (s : State) : (clearInstances s).device = s.device := rfl
@[simp] theorem clearInstances_ports (s : State) : (clearInstances s).ports = s.ports := rfl
@[simp] theorem clearInstances_slices (s : State) : (clearInstances s).slices = s.slices := rfl
@[simp] theorem clearInstances_queues (s : State) : (clearInstances s).queues = s.queues := rfl
@[simp] theorem clearInstances_heddle (s : State) : (clearInstances s).heddle = s.heddle := rfl
@[simp] theorem clearInstances_looms (s : State) : (clearInstances s).looms = s.looms := rfl
@[simp] theorem clearInstances_benches (s : State) : (clearInstances s).benches = s.benches := rfl
@[simp] theorem clearInstances_trestles (s : State) : (clearInstances s).trestles = s.trestles := rfl
@[simp] theorem clearInstances_selvs (s : State) : (clearInstances s).selvs = s.selvs := rfl
@[simp] theorem clearInstances_farm (s : State) : (clearInstances s).farm = s.farm := rfl
@[simp] theorem clearInstances_cabinet (s : State) : (clearInstances s).cabinet = s.cabinet := rfl
@[simp] theorem clearInstances_runs (s : State) : (clearInstances s).runs = s.runs := rfl
@[simp] theorem clearInstances_cards (s : State) : (clearInstances s).cards = s.cards := rfl
@[simp] theorem clearInstances_ceremony (s : State) : (clearInstances s).ceremony = s.ceremony := rfl
@[simp] theorem clearInstances_tamper (s : State) : (clearInstances s).tamper = s.tamper := rfl
@[simp] theorem clearInstances_faults (s : State) : (clearInstances s).faults = s.faults := rfl
@[simp] theorem clearInstances_cal (s : State) : (clearInstances s).cal = s.cal := rfl
@[simp] theorem clearInstances_log (s : State) : (clearInstances s).log = s.log := rfl
@[simp] theorem clearInstances_life (s : State) : (clearInstances s).life = s.life := rfl
@[simp] theorem clearInstances_owner (s : State) : (clearInstances s).owner = s.owner := rfl
@[simp] theorem clearInstances_envelopes (s : State) : (clearInstances s).envelopes = s.envelopes := rfl

/-! ### `pruneStage` -/

@[simp] theorem pruneStage_pending (p : PortId) (sel : StagedField → Bool) (s : State) : (pruneStage p sel s).pending = s.pending := rfl
@[simp] theorem pruneStage_out (p : PortId) (sel : StagedField → Bool) (s : State) : (pruneStage p sel s).out = s.out := rfl
@[simp] theorem pruneStage_clock (p : PortId) (sel : StagedField → Bool) (s : State) : (pruneStage p sel s).clock = s.clock := rfl
@[simp] theorem pruneStage_free (p : PortId) (sel : StagedField → Bool) (s : State) : (pruneStage p sel s).free = s.free := rfl
@[simp] theorem pruneStage_fuses (p : PortId) (sel : StagedField → Bool) (s : State) : (pruneStage p sel s).fuses = s.fuses := rfl
@[simp] theorem pruneStage_flash (p : PortId) (sel : StagedField → Bool) (s : State) : (pruneStage p sel s).flash = s.flash := rfl
@[simp] theorem pruneStage_backup (p : PortId) (sel : StagedField → Bool) (s : State) : (pruneStage p sel s).backup = s.backup := rfl
@[simp] theorem pruneStage_power (p : PortId) (sel : StagedField → Bool) (s : State) : (pruneStage p sel s).power = s.power := rfl
@[simp] theorem pruneStage_mode (p : PortId) (sel : StagedField → Bool) (s : State) : (pruneStage p sel s).mode = s.mode := rfl
@[simp] theorem pruneStage_draft (p : PortId) (sel : StagedField → Bool) (s : State) : (pruneStage p sel s).draft = s.draft := rfl
@[simp] theorem pruneStage_shares (p : PortId) (sel : StagedField → Bool) (s : State) : (pruneStage p sel s).shares = s.shares := rfl
@[simp] theorem pruneStage_device (p : PortId) (sel : StagedField → Bool) (s : State) : (pruneStage p sel s).device = s.device := rfl
@[simp] theorem pruneStage_slices (p : PortId) (sel : StagedField → Bool) (s : State) : (pruneStage p sel s).slices = s.slices := rfl
@[simp] theorem pruneStage_queues (p : PortId) (sel : StagedField → Bool) (s : State) : (pruneStage p sel s).queues = s.queues := rfl
@[simp] theorem pruneStage_heddle (p : PortId) (sel : StagedField → Bool) (s : State) : (pruneStage p sel s).heddle = s.heddle := rfl
@[simp] theorem pruneStage_looms (p : PortId) (sel : StagedField → Bool) (s : State) : (pruneStage p sel s).looms = s.looms := rfl
@[simp] theorem pruneStage_benches (p : PortId) (sel : StagedField → Bool) (s : State) : (pruneStage p sel s).benches = s.benches := rfl
@[simp] theorem pruneStage_trestles (p : PortId) (sel : StagedField → Bool) (s : State) : (pruneStage p sel s).trestles = s.trestles := rfl
@[simp] theorem pruneStage_selvs (p : PortId) (sel : StagedField → Bool) (s : State) : (pruneStage p sel s).selvs = s.selvs := rfl
@[simp] theorem pruneStage_farm (p : PortId) (sel : StagedField → Bool) (s : State) : (pruneStage p sel s).farm = s.farm := rfl
@[simp] theorem pruneStage_bobbin (p : PortId) (sel : StagedField → Bool) (s : State) : (pruneStage p sel s).bobbin = s.bobbin := rfl
@[simp] theorem pruneStage_cabinet (p : PortId) (sel : StagedField → Bool) (s : State) : (pruneStage p sel s).cabinet = s.cabinet := rfl
@[simp] theorem pruneStage_runs (p : PortId) (sel : StagedField → Bool) (s : State) : (pruneStage p sel s).runs = s.runs := rfl
@[simp] theorem pruneStage_cards (p : PortId) (sel : StagedField → Bool) (s : State) : (pruneStage p sel s).cards = s.cards := rfl
@[simp] theorem pruneStage_ceremony (p : PortId) (sel : StagedField → Bool) (s : State) : (pruneStage p sel s).ceremony = s.ceremony := rfl
@[simp] theorem pruneStage_tamper (p : PortId) (sel : StagedField → Bool) (s : State) : (pruneStage p sel s).tamper = s.tamper := rfl
@[simp] theorem pruneStage_faults (p : PortId) (sel : StagedField → Bool) (s : State) : (pruneStage p sel s).faults = s.faults := rfl
@[simp] theorem pruneStage_cal (p : PortId) (sel : StagedField → Bool) (s : State) : (pruneStage p sel s).cal = s.cal := rfl
@[simp] theorem pruneStage_log (p : PortId) (sel : StagedField → Bool) (s : State) : (pruneStage p sel s).log = s.log := rfl
@[simp] theorem pruneStage_life (p : PortId) (sel : StagedField → Bool) (s : State) : (pruneStage p sel s).life = s.life := rfl
@[simp] theorem pruneStage_owner (p : PortId) (sel : StagedField → Bool) (s : State) : (pruneStage p sel s).owner = s.owner := rfl
@[simp] theorem pruneStage_envelopes (p : PortId) (sel : StagedField → Bool) (s : State) : (pruneStage p sel s).envelopes = s.envelopes := rfl

/-! ### The unit that an update replaces -/

@[simp] theorem modPort_at (p : PortId) (f : Port → Port) (s : State) : (modPort p f s).ports[p.val] = f s.ports[p.val] := by
  simp [modPort]

theorem modPort_other (p q : PortId) (h : p ≠ q) (f : Port → Port) (s : State) :
    (modPort p f s).ports[q.val] = s.ports[q.val] := by
  have : p.val ≠ q.val := fun e => h (Fin.ext e)
  simp [modPort, this]

@[simp] theorem modAdmin_at (p : PortId) (f : AdminQueue → AdminQueue) (s : State) :
    (modAdmin p f s).ports[p.val].admin = f s.ports[p.val].admin := by simp [modAdmin]

@[simp] theorem modStage_at (p : PortId) (f : Stage → Stage) (s : State) :
    (modStage p f s).ports[p.val].stage = f s.ports[p.val].stage := by simp [modStage]

@[simp] theorem modLoom_at (n : LoomId) (f : Loom → Loom) (s : State) : (modLoom n f s).looms[n.val] = f s.looms[n.val] := by
  simp [modLoom]

@[simp] theorem modBench_at (b : BenchId) (f : Bench → Bench) (s : State) :
    (modBench b f s).benches[b.val] = f s.benches[b.val] := by simp [modBench]

@[simp] theorem modTrestle_at (t : TrestleId) (f : Trestle → Trestle) (s : State) :
    (modTrestle t f s).trestles[t.val] = f s.trestles[t.val] := by simp [modTrestle]

@[simp] theorem modSelv_at (u : SelvId) (f : Selvedge → Selvedge) (s : State) :
    (modSelv u f s).selvs[u.val] = f s.selvs[u.val] := by simp [modSelv]

@[simp] theorem modCard_at (c : CardSlot) (f : CardState → CardState) (s : State) :
    (modCard c f s).cards.slots[c.val] = f s.cards.slots[c.val] := by simp [modCard]

@[simp] theorem modDigest_at (d : DigestSlot) (f : DigestSlotState → DigestSlotState) (s : State) :
    (modDigest d f s).farm.slots[d.val] = f s.farm.slots[d.val] := by simp [modDigest]

@[simp] theorem modInstance_at (i : InstId) (f : DrbgInstance → DrbgInstance) (s : State) :
    (modInstance i f s).bobbin.instances[i.val] = f s.bobbin.instances[i.val] := by simp [modInstance]

@[simp] theorem emit_out (x : Tx) (s : State) : (emit x s).out = s.out ++ [x] := rfl

/-! ### Events -/

/-- An entry of the latch touches the latch and its lost count alone. -/
theorem latchEntry_touches (e : LatchEntry) (s : State) :
    ∃ l n, latchEntry e s = { s with backup := { s.backup with latch := l, lost := n } } := by
  unfold latchEntry
  dsimp only
  split
  · exact ⟨_, _, rfl⟩
  · split <;> exact ⟨_, _, rfl⟩

/-- An event for the steward touches its queue or a lost count alone. -/
theorem queueEvent_touches (e : Event) (s : State) :
    ∃ q k, queueEvent e s = { s with log := { s.log with queue := q }, flash := { s.flash with lost := k } } := by
  unfold queueEvent countLost
  split
  · exact ⟨_, s.flash.lost, rfl⟩
  · split
    · exact ⟨s.log.queue, _, rfl⟩
    · exact ⟨s.log.queue, s.flash.lost, rfl⟩

/-- Raising an event touches the steward's queue, the latch and the lost counts alone. -/
theorem raise_touches (ev : Nat) (d : BitVec 64) (s : State) :
    ∃ q l n k, raise ev d s = { s with
      log := { s.log with queue := q }
      backup := { s.backup with latch := l, lost := n }
      flash := { s.flash with lost := k } } := by
  unfold raise
  split
  · exact ⟨s.log.queue, s.backup.latch, s.backup.lost, s.flash.lost, rfl⟩
  · split
    · obtain ⟨l, n, h⟩ := latchEntry_touches
        { event := ev, severity := severityOf s ev, cls := d.toNat % 256, time := s.log.seconds, cell := false,
          cycle := s.flash.powerCycle } s
      exact ⟨s.log.queue, l, n, s.flash.lost, h⟩
    · obtain ⟨q, k, h⟩ := queueEvent_touches { event := ev, severity := severityOf s ev, detail := d, clock := s.clock, time := s.log.seconds } s
      exact ⟨q, s.backup.latch, s.backup.lost, k, h⟩

/-! ### `raise` -/

@[simp] theorem raise_pending (ev : Nat) (d : BitVec 64) (s : State) : (raise ev d s).pending = s.pending := by
  obtain ⟨_, _, _, _, h⟩ := raise_touches ev d s; rw [h]
@[simp] theorem raise_out (ev : Nat) (d : BitVec 64) (s : State) : (raise ev d s).out = s.out := by
  obtain ⟨_, _, _, _, h⟩ := raise_touches ev d s; rw [h]
@[simp] theorem raise_clock (ev : Nat) (d : BitVec 64) (s : State) : (raise ev d s).clock = s.clock := by
  obtain ⟨_, _, _, _, h⟩ := raise_touches ev d s; rw [h]
@[simp] theorem raise_free (ev : Nat) (d : BitVec 64) (s : State) : (raise ev d s).free = s.free := by
  obtain ⟨_, _, _, _, h⟩ := raise_touches ev d s; rw [h]
@[simp] theorem raise_fuses (ev : Nat) (d : BitVec 64) (s : State) : (raise ev d s).fuses = s.fuses := by
  obtain ⟨_, _, _, _, h⟩ := raise_touches ev d s; rw [h]
@[simp] theorem raise_power (ev : Nat) (d : BitVec 64) (s : State) : (raise ev d s).power = s.power := by
  obtain ⟨_, _, _, _, h⟩ := raise_touches ev d s; rw [h]
@[simp] theorem raise_mode (ev : Nat) (d : BitVec 64) (s : State) : (raise ev d s).mode = s.mode := by
  obtain ⟨_, _, _, _, h⟩ := raise_touches ev d s; rw [h]
@[simp] theorem raise_draft (ev : Nat) (d : BitVec 64) (s : State) : (raise ev d s).draft = s.draft := by
  obtain ⟨_, _, _, _, h⟩ := raise_touches ev d s; rw [h]
@[simp] theorem raise_shares (ev : Nat) (d : BitVec 64) (s : State) : (raise ev d s).shares = s.shares := by
  obtain ⟨_, _, _, _, h⟩ := raise_touches ev d s; rw [h]
@[simp] theorem raise_device (ev : Nat) (d : BitVec 64) (s : State) : (raise ev d s).device = s.device := by
  obtain ⟨_, _, _, _, h⟩ := raise_touches ev d s; rw [h]
@[simp] theorem raise_ports (ev : Nat) (d : BitVec 64) (s : State) : (raise ev d s).ports = s.ports := by
  obtain ⟨_, _, _, _, h⟩ := raise_touches ev d s; rw [h]
@[simp] theorem raise_slices (ev : Nat) (d : BitVec 64) (s : State) : (raise ev d s).slices = s.slices := by
  obtain ⟨_, _, _, _, h⟩ := raise_touches ev d s; rw [h]
@[simp] theorem raise_queues (ev : Nat) (d : BitVec 64) (s : State) : (raise ev d s).queues = s.queues := by
  obtain ⟨_, _, _, _, h⟩ := raise_touches ev d s; rw [h]
@[simp] theorem raise_heddle (ev : Nat) (d : BitVec 64) (s : State) : (raise ev d s).heddle = s.heddle := by
  obtain ⟨_, _, _, _, h⟩ := raise_touches ev d s; rw [h]
@[simp] theorem raise_looms (ev : Nat) (d : BitVec 64) (s : State) : (raise ev d s).looms = s.looms := by
  obtain ⟨_, _, _, _, h⟩ := raise_touches ev d s; rw [h]
@[simp] theorem raise_benches (ev : Nat) (d : BitVec 64) (s : State) : (raise ev d s).benches = s.benches := by
  obtain ⟨_, _, _, _, h⟩ := raise_touches ev d s; rw [h]
@[simp] theorem raise_trestles (ev : Nat) (d : BitVec 64) (s : State) : (raise ev d s).trestles = s.trestles := by
  obtain ⟨_, _, _, _, h⟩ := raise_touches ev d s; rw [h]
@[simp] theorem raise_selvs (ev : Nat) (d : BitVec 64) (s : State) : (raise ev d s).selvs = s.selvs := by
  obtain ⟨_, _, _, _, h⟩ := raise_touches ev d s; rw [h]
@[simp] theorem raise_farm (ev : Nat) (d : BitVec 64) (s : State) : (raise ev d s).farm = s.farm := by
  obtain ⟨_, _, _, _, h⟩ := raise_touches ev d s; rw [h]
@[simp] theorem raise_bobbin (ev : Nat) (d : BitVec 64) (s : State) : (raise ev d s).bobbin = s.bobbin := by
  obtain ⟨_, _, _, _, h⟩ := raise_touches ev d s; rw [h]
@[simp] theorem raise_cabinet (ev : Nat) (d : BitVec 64) (s : State) : (raise ev d s).cabinet = s.cabinet := by
  obtain ⟨_, _, _, _, h⟩ := raise_touches ev d s; rw [h]
@[simp] theorem raise_runs (ev : Nat) (d : BitVec 64) (s : State) : (raise ev d s).runs = s.runs := by
  obtain ⟨_, _, _, _, h⟩ := raise_touches ev d s; rw [h]
@[simp] theorem raise_cards (ev : Nat) (d : BitVec 64) (s : State) : (raise ev d s).cards = s.cards := by
  obtain ⟨_, _, _, _, h⟩ := raise_touches ev d s; rw [h]
@[simp] theorem raise_ceremony (ev : Nat) (d : BitVec 64) (s : State) : (raise ev d s).ceremony = s.ceremony := by
  obtain ⟨_, _, _, _, h⟩ := raise_touches ev d s; rw [h]
@[simp] theorem raise_tamper (ev : Nat) (d : BitVec 64) (s : State) : (raise ev d s).tamper = s.tamper := by
  obtain ⟨_, _, _, _, h⟩ := raise_touches ev d s; rw [h]
@[simp] theorem raise_faults (ev : Nat) (d : BitVec 64) (s : State) : (raise ev d s).faults = s.faults := by
  obtain ⟨_, _, _, _, h⟩ := raise_touches ev d s; rw [h]
@[simp] theorem raise_cal (ev : Nat) (d : BitVec 64) (s : State) : (raise ev d s).cal = s.cal := by
  obtain ⟨_, _, _, _, h⟩ := raise_touches ev d s; rw [h]
@[simp] theorem raise_life (ev : Nat) (d : BitVec 64) (s : State) : (raise ev d s).life = s.life := by
  obtain ⟨_, _, _, _, h⟩ := raise_touches ev d s; rw [h]
@[simp] theorem raise_owner (ev : Nat) (d : BitVec 64) (s : State) : (raise ev d s).owner = s.owner := by
  obtain ⟨_, _, _, _, h⟩ := raise_touches ev d s; rw [h]
@[simp] theorem raise_envelopes (ev : Nat) (d : BitVec 64) (s : State) : (raise ev d s).envelopes = s.envelopes := by
  obtain ⟨_, _, _, _, h⟩ := raise_touches ev d s; rw [h]

@[simp] theorem raise_backup_chest (ev : Nat) (d : BitVec 64) (s : State) : (raise ev d s).backup.chest = s.backup.chest := by
  obtain ⟨_, _, _, _, h⟩ := raise_touches ev d s; rw [h]
@[simp] theorem raise_backup_sticky (ev : Nat) (d : BitVec 64) (s : State) : (raise ev d s).backup.sticky = s.backup.sticky := by
  obtain ⟨_, _, _, _, h⟩ := raise_touches ev d s; rw [h]
@[simp] theorem raise_backup_classes (ev : Nat) (d : BitVec 64) (s : State) : (raise ev d s).backup.classes = s.backup.classes := by
  obtain ⟨_, _, _, _, h⟩ := raise_touches ev d s; rw [h]
@[simp] theorem raise_backup_seconds (ev : Nat) (d : BitVec 64) (s : State) : (raise ev d s).backup.seconds = s.backup.seconds := by
  obtain ⟨_, _, _, _, h⟩ := raise_touches ev d s; rw [h]
@[simp] theorem raise_backup_cellOk (ev : Nat) (d : BitVec 64) (s : State) : (raise ev d s).backup.cellOk = s.backup.cellOk := by
  obtain ⟨_, _, _, _, h⟩ := raise_touches ev d s; rw [h]
@[simp] theorem raise_backup_remasks (ev : Nat) (d : BitVec 64) (s : State) : (raise ev d s).backup.remasks = s.backup.remasks := by
  obtain ⟨_, _, _, _, h⟩ := raise_touches ev d s; rw [h]
@[simp] theorem raise_backup_addressKey (ev : Nat) (d : BitVec 64) (s : State) : (raise ev d s).backup.addressKey = s.backup.addressKey := by
  obtain ⟨_, _, _, _, h⟩ := raise_touches ev d s; rw [h]
@[simp] theorem raise_backup_maskSeed (ev : Nat) (d : BitVec 64) (s : State) : (raise ev d s).backup.maskSeed = s.backup.maskSeed := by
  obtain ⟨_, _, _, _, h⟩ := raise_touches ev d s; rw [h]
@[simp] theorem raise_backup_limits (ev : Nat) (d : BitVec 64) (s : State) : (raise ev d s).backup.limits = s.backup.limits := by
  obtain ⟨_, _, _, _, h⟩ := raise_touches ev d s; rw [h]
@[simp] theorem raise_backup_wasLost (ev : Nat) (d : BitVec 64) (s : State) : (raise ev d s).backup.wasLost = s.backup.wasLost := by
  obtain ⟨_, _, _, _, h⟩ := raise_touches ev d s; rw [h]
@[simp] theorem raise_backup_active (ev : Nat) (d : BitVec 64) (s : State) : (raise ev d s).backup.active = s.backup.active := by
  obtain ⟨_, _, _, _, h⟩ := raise_touches ev d s; rw [h]
@[simp] theorem raise_backup_alone (ev : Nat) (d : BitVec 64) (s : State) : (raise ev d s).backup.alone = s.backup.alone := by
  obtain ⟨_, _, _, _, h⟩ := raise_touches ev d s; rw [h]
@[simp] theorem raise_flash_slotA (ev : Nat) (d : BitVec 64) (s : State) : (raise ev d s).flash.slotA = s.flash.slotA := by
  obtain ⟨_, _, _, _, h⟩ := raise_touches ev d s; rw [h]
@[simp] theorem raise_flash_slotB (ev : Nat) (d : BitVec 64) (s : State) : (raise ev d s).flash.slotB = s.flash.slotB := by
  obtain ⟨_, _, _, _, h⟩ := raise_touches ev d s; rw [h]
@[simp] theorem raise_flash_select (ev : Nat) (d : BitVec 64) (s : State) : (raise ev d s).flash.select = s.flash.select := by
  obtain ⟨_, _, _, _, h⟩ := raise_touches ev d s; rw [h]
@[simp] theorem raise_flash_conditioning (ev : Nat) (d : BitVec 64) (s : State) : (raise ev d s).flash.conditioning = s.flash.conditioning := by
  obtain ⟨_, _, _, _, h⟩ := raise_touches ev d s; rw [h]
@[simp] theorem raise_flash_firmwareA (ev : Nat) (d : BitVec 64) (s : State) : (raise ev d s).flash.firmwareA = s.flash.firmwareA := by
  obtain ⟨_, _, _, _, h⟩ := raise_touches ev d s; rw [h]
@[simp] theorem raise_flash_firmwareB (ev : Nat) (d : BitVec 64) (s : State) : (raise ev d s).flash.firmwareB = s.flash.firmwareB := by
  obtain ⟨_, _, _, _, h⟩ := raise_touches ev d s; rw [h]
@[simp] theorem raise_flash_ownerRecord (ev : Nat) (d : BitVec 64) (s : State) : (raise ev d s).flash.ownerRecord = s.flash.ownerRecord := by
  obtain ⟨_, _, _, _, h⟩ := raise_touches ev d s; rw [h]
@[simp] theorem raise_flash_identity (ev : Nat) (d : BitVec 64) (s : State) : (raise ev d s).flash.identity = s.flash.identity := by
  obtain ⟨_, _, _, _, h⟩ := raise_touches ev d s; rw [h]
@[simp] theorem raise_flash_tally (ev : Nat) (d : BitVec 64) (s : State) : (raise ev d s).flash.tally = s.flash.tally := by
  obtain ⟨_, _, _, _, h⟩ := raise_touches ev d s; rw [h]
@[simp] theorem raise_flash_tallyWrites (ev : Nat) (d : BitVec 64) (s : State) : (raise ev d s).flash.tallyWrites = s.flash.tallyWrites := by
  obtain ⟨_, _, _, _, h⟩ := raise_touches ev d s; rw [h]
@[simp] theorem raise_flash_receiveLog (ev : Nat) (d : BitVec 64) (s : State) : (raise ev d s).flash.receiveLog = s.flash.receiveLog := by
  obtain ⟨_, _, _, _, h⟩ := raise_touches ev d s; rw [h]
@[simp] theorem raise_flash_receiveFloor (ev : Nat) (d : BitVec 64) (s : State) : (raise ev d s).flash.receiveFloor = s.flash.receiveFloor := by
  obtain ⟨_, _, _, _, h⟩ := raise_touches ev d s; rw [h]
@[simp] theorem raise_flash_cal (ev : Nat) (d : BitVec 64) (s : State) : (raise ev d s).flash.cal = s.flash.cal := by
  obtain ⟨_, _, _, _, h⟩ := raise_touches ev d s; rw [h]
@[simp] theorem raise_flash_logRecords (ev : Nat) (d : BitVec 64) (s : State) : (raise ev d s).flash.logRecords = s.flash.logRecords := by
  obtain ⟨_, _, _, _, h⟩ := raise_touches ev d s; rw [h]
@[simp] theorem raise_flash_logSeq (ev : Nat) (d : BitVec 64) (s : State) : (raise ev d s).flash.logSeq = s.flash.logSeq := by
  obtain ⟨_, _, _, _, h⟩ := raise_touches ev d s; rw [h]
@[simp] theorem raise_flash_secondsMark (ev : Nat) (d : BitVec 64) (s : State) : (raise ev d s).flash.secondsMark = s.flash.secondsMark := by
  obtain ⟨_, _, _, _, h⟩ := raise_touches ev d s; rw [h]
@[simp] theorem raise_flash_powerCycle (ev : Nat) (d : BitVec 64) (s : State) : (raise ev d s).flash.powerCycle = s.flash.powerCycle := by
  obtain ⟨_, _, _, _, h⟩ := raise_touches ev d s; rw [h]
@[simp] theorem raise_log_records (ev : Nat) (d : BitVec 64) (s : State) : (raise ev d s).log.records = s.log.records := by
  obtain ⟨_, _, _, _, h⟩ := raise_touches ev d s; rw [h]
@[simp] theorem raise_log_seconds (ev : Nat) (d : BitVec 64) (s : State) : (raise ev d s).log.seconds = s.log.seconds := by
  obtain ⟨_, _, _, _, h⟩ := raise_touches ev d s; rw [h]

/-- `raise0` and `raiseUnit` are `raise`. -/
@[simp] theorem raise0_raise (ev : Nat) (s : State) : raise0 ev s = raise ev 0 s := rfl
@[simp] theorem raiseUnit_raise (ev u : Nat) (s : State) : raiseUnit ev u s = raise ev (detailOf 0 u 0 0 0) s := rfl

end Sys2Proof.Machine
end

