-- ==== Sys2Proof/Machine/Attach.lean ====
section
/-! DEFINITION. What a host finds on a port: the PCIe function's configuration space and BARs (R114 to R117), and the
management device on the USB 2.0 lines (R74). -/

namespace Sys2Proof.Machine

/-! ### Configuration space (R114) -/

/-- The items of R114, with the bits that R116 and R117 name. -/
structure ConfigSpace where
  vendor : Nat := 0x1D5F
  device : Nat := 0x9640
  revision : Nat := 0x01
  classCode : Nat := 0x108000
  subsystemVendor : Nat := 0x1D5F
  subsystem : Nat := 0x0001
  linkGen : Nat := 4
  linkLanes : Nat := 4
  maxPayload : Nat := 512
  maxReadRequest : Nat := 4096
  tagBits : Nat := 10
  /-- Power Management: D0 and D3hot, No_Soft_Reset (R116). -/
  d3hotSupported : Bool := true
  noSoftReset : Bool := true
  inD3hot : Bool := false
  msixVectors : Nat := 2048
  msixEnable : Bool := false
  msixFunctionMask : Bool := true
  advancedErrors : Bool := true
  deviceSerial : BitVec 64 := 0
  pasidBits : Nat := 20
  pasidExecute : Bool := false
  pasidPrivileged : Bool := false
  pasidEnable : Bool := false
  atsQueueDepth : Nat := 32
  atsEnable : Bool := false
  functionLevelReset : Bool := true
  busMaster : Bool := false
  memorySpace : Bool := false
  /-- PRI, SR-IOV, ACS, peer-to-peer requests, MSI and legacy interrupts are not present. -/
  pri : Bool := false
  srIov : Bool := false
  acs : Bool := false
  peerToPeer : Bool := false
  msi : Bool := false
  legacyInterrupts : Bool := false
deriving DecidableEq, Repr

/-- What a configuration request meets. -/
inductive ConfigAnswer where
  /-- No function: no source is attached, or its link is not trained. -/
  | absent
  /-- Configuration Request Retry Status (R66, R71, R117). -/
  | retry
  | space (c : ConfigSpace)
deriving DecidableEq, Repr

/-- The port's configuration space. -/
def configSpace (s : State) (p : PortId) : ConfigSpace :=
  let x := s.ports[p.val]
  { subsystem := if s.fuses.codeL then 0x0002 else 0x0001
    inD3hot := x.d3hot
    msixEnable := x.msixEn
    msixFunctionMask := x.msixFnMask
    deviceSerial := s.fuses.serial
    pasidEnable := x.pasidEn
    atsEnable := x.atsEn
    busMaster := x.bme
    memorySpace := x.mse }

/-- A configuration request to a port. -/
def configRead (s : State) (p : PortId) : ConfigAnswer :=
  if !functionPresent s p then .absent
  else if !s.mode.ready || s.ports[p.val].flr then .retry
  else .space (configSpace s p)

/-! ### The BARs (R115) -/

/-- A BAR: its size, and its width in bits. No BAR is prefetchable. -/
structure Bar where
  size : Nat
  width : Nat := 64
  prefetchable : Bool := false
deriving DecidableEq, Repr

/-- BAR0, BAR2 and BAR4, each with the next as its upper half. -/
def barOf (n : Nat) : Option Bar :=
  match n with
  | 0 => some { size := barSize }
  | 2 => some { size := doorbellSize }
  | 4 => some { size := 65536 }
  | _ => none

/-- A dword of a doorbell page: reads of the page of a slice that is not live return zero (R115), and a doorbell is
written only (R144; log entry 112). -/
def readDoorbell (_s : State) (_p : PortId) (_offset : Nat) : Word := 0

/-- Dword `k` of the MSI-X table entry of a vector: address low, address high, data, and vector control. -/
def tableWord (x : Port) (vector k : Nat) : Word :=
  match x.table.find? fun e => e.vector == vector with
  | none => if k = 3 then 1 else 0
  | some e =>
    match k with
    | 0 => e.address.extractLsb' 0 32
    | 1 => e.address.extractLsb' 32 32
    | 2 => e.data
    | _ => if e.masked then 1 else 0

/-- A dword of BAR4: the table at 0x0000, the pending bits at 0x8000. -/
def readMsix (s : State) (p : PortId) (offset : Nat) : Word :=
  let x := s.ports[p.val]
  if offset < 0x8000 then tableWord x (offset / 16) (offset % 16 / 4)
  else if offset < 0x8100 then maskOf 32 ((x.pba.filter fun v => v / 32 == (offset - 0x8000) / 4).map fun v => v % 32)
  else 0

/-- A dword read through a BAR, while the port's BARs are open. -/
def readBar (s : State) (p : PortId) (bar offset : Nat) : Option Word :=
  if !barOpen s p then none
  else match bar with
    | 0 => some (readReg s p offset)
    | 2 => some (readDoorbell s p offset)
    | 4 => some (readMsix s p offset)
    | _ => none

/-! ### The management device (R74) -/

/-- What the device on the USB 2.0 lines enumerates with. -/
structure UsbDevice where
  highSpeed : Bool := true
  vendor : Nat := 0x1D5F
  product : Nat := 0x9641
  deviceClass : Nat := 0xFF
  interfaces : Nat := 1
  /-- Endpoint addresses with their packet sizes. -/
  control : Nat × Nat := (0x00, 64)
  bulkOut : Nat × Nat := (0x01, 512)
  bulkIn : Nat × Nat := (0x81, 512)
  serial : BitVec 64 := 0
  currentMa : Nat := 100
deriving DecidableEq, Repr

/-- Enumeration on a port: the device answers wherever its commands are taken (R74, R75). -/
def usbDevice (s : State) (p : PortId) : Option UsbDevice := if usbOpen s p then some { serial := s.fuses.serial } else none

/-- The serial number string: sixteen hexadecimal digits, most significant first (log entry 181). -/
def serialDigits (d : UsbDevice) : List (Fin 16) :=
  (List.range 16).map fun i => ⟨d.serial.toNat / 16 ^ (15 - i) % 16, Nat.mod_lt _ (by decide)⟩

/-- The device's draw falls within the port's contract (R74), in milliamperes. -/
def usbFits (s : State) (p : PortId) (d : UsbDevice) : Bool := decide (d.currentMa ≤ 10 * s.power.contracts[p.val].current)

end Sys2Proof.Machine
end

