-- ==== Sys2Proof/Safety.lean ====
section
/-! DEFINITION. A safe run: no step of it ends in a fault or a refusal. -/

namespace Sys2Proof

open Machine

/-- The first `n` steps from `s` all answer a next state. -/
def Safe : Nat → State → Prop
  | 0, _ => True
  | n + 1, s => ∃ t, step s = .next t ∧ Safe n t

end Sys2Proof
end

