-- ==== Sys2Proof/Tests/Slice0.lean ====
section
/-! SUPPORT. Tests of the model: an ill-formed command for each check of `Instr.wf`, and for each statement a state and
operands that meet each clause's hypotheses. -/

namespace Sys2Proof.Tests

open Sys2Proof.Machine Sys2Proof.Claims

set_option Elab.async false

/-! ### Small states -/

/-- Straps all 0. -/
def straps0 : Straps := { boot := 0, compat := false, cardspd := false, pwrmin := false, dbgreq := false }

/-- A 100 W contract. -/
def contract100 : Contract := { attached := true, emark5a := true, source := 3, current := 500, voltage := 400, valid := true }

/-- A microprogram of one word and a draft that threads: benches 0 to 3 KEM, 4 to 11 SIGN, 12 to 15 HASH. -/
def imageEntries : List DispatchEntry :=
  (List.range 256).map fun k => if k < 0x80 then BitVec.ofNat 64 (1 + 2 ^ 17 + 7 * 2 ^ 18 + 2 ^ 37) else 0
def imageWords : List Microword := [BitVec.ofNat 160 (5 * 2 ^ 157), BitVec.ofNat 160 (7 * 2 ^ 157)]

/-- Its bytes as R225 lays them out: N = 2, E = 0, twelve zeros, 256 entries of 8 bytes, two words of 20 bytes. -/
def image : Image where
  bytes := leBytes 2 2 ++ leBytes 2 0 ++ zeros 12 ++ (imageEntries.flatMap fun x => leBytes 8 x.toNat) ++ imageWords.flatMap fun x => leBytes 20 x.toNat
  dispatch := imageEntries
  exports := []
  words := imageWords

/-- A signature block under these keys (R86). -/
def blockFor (dsaKey ecKey context m : Bytes) : SignatureBlock where
  bytes := zeros 4736
  dsa := { key := dsaKey, context := context, message := sha3_512 m }
  ec := { key := ecKey, context := [], message := sha3_512 m }

theorem block_for_holds (dsaKey ecKey context m : Bytes) : blockVerifies dsaKey ecKey context m (blockFor dsaKey ecKey context m) = true := by
  have hz : ((zeros 4736).length == 4736 && (zeros 4736).drop 4731 == zeros 5) = true := by decide +kernel
  simp only [blockVerifies, blockFor, hz, beq_self_eq_true, Bool.and_true]

def unsignedDraft : Draft where
  magicOk := true
  format := 1
  device := 0x9640
  familyId := 0x96400001
  version := 0x01000000
  hfSigned := 4096
  hfLength := 4096 + 4736
  sectionCount := 5
  flags := 0
  zeros := true
  fileLength := 4096 + 4736
  sections := (List.range 5).map fun k =>
    { typ := k + 1, offset := 192 + 64 * k, length := 2, zero := true, crc := crc32 [1, 2], bytes := [1, 2] }
  benches := (List.range 16).map fun b => { role := if b < 4 then 1 else if b < 12 then 2 else 3, order := 1, image := 0, zero := true }
  conditioning := 0
  images := [image]
  sequencer := List.replicate 2048 0
  selvTables := []
  adverts := [{ family := 1, op := 1, set := 2, role := 1, tag := 0, zero := true }]
  heddle := { depthCode := 1, affAge := 8, affWin := 8, bulkMax := 4, dimThresh := 80, shortLimit := 1000, idleTimeout := 1000, refTimes := [] }
  classes := defaultClasses.toList
  severities := []
  power := { liteBenches := [0, 4, 5, 12], liteTrestles := [0, 1], liteSelv := [0], idleUs := 50, sscDepth := 50, hdrSlew := 2 }
  compat := none
  hfBlock := { bytes := [], dsa := unsigned, ec := unsigned }
  owner := none

def draft : Draft :=
  { unsignedDraft with hfBlock := blockFor (Config.romKey .draftDsa) (Config.romKey .draftEc) (ascii "AQDF-HF") (signedArea unsignedDraft) }

/-- The block stands outside the bytes it signs. -/
theorem signed_area_block (d : Draft) (b : SignatureBlock) : signedArea { d with hfBlock := b } = signedArea d := rfl

theorem draft_signed : hfSigOk draft = true := by
  rw [hfSigOk, horsefortVerifies, draft, signed_area_block]
  exact block_for_holds _ _ _ _

/-- A function of the host on port 0, answering and moving. -/
def port0 : Port where
  trained := true
  gen := 3
  bme := true
  mse := true
  msixEn := true
  msixFnMask := false
  table := [{ vector := 0, address := 0xFEE00000, data := 5, masked := false }, { vector := 7, address := 0xFEE00040, data := 6, masked := false }]

def slice0 : Slice where
  port := 0
  idx := 0
  pasid := none
  uid := 1
  drawers := 100
  digestSlots := 4
  queueAllot := 8
  tallyAllot := 4
  weight := 1
  prioCeil := 7
  loomCap := 64
  trestleShare := 16
  budget := 2048
  installing := false

def queue1 : Queue where
  port := 0
  qnum := 1
  slice := 0
  index := 0
  express := false
  log2 := 4
  base := 0
  vector := 7
  coalCount := 1
  coalTime := 1
  poll := 1

/-- The module serving on port 0. -/
def live : State :=
  { State.reset with
    power := { State.reset.power with
      contracts := #v[contract100, {}, {}, {}]
      plan := .full
      benchOn := 0xFFFF
      trestleOn := 0xFF
      selvOn := 0xF }
    mode := { base := .serveFull, ready := true, seeded := true, straps := some straps0, fwDone := true, fwRuns := true }
    backup := { chest := { valid := true, drk := [1, 2] } }
    draft := { threaded := some draft, runs := true }
    life := { state := 2 }
    ports := State.reset.ports.set 0 port0
    slices := [slice0]
    queues := [queue1]
    bobbin := { state := .serving, live := 0xFF, passed := true, instances := Vector.replicate 17 { instantiated := true } } }

/-- A descriptor with an opcode, a set and an input length. -/
def word (fam op set len : Nat) : Entry := BitVec.ofNat 512 (fam * 2 ^ 8 + op + set * 2 ^ 56 + len * 2 ^ 192)

/-- An item in service. -/
def itemOn (e : Engine) (w : Entry) : Item where
  id := 0
  port := 0
  qnum := 1
  slice := 0
  index := 0
  entry := w
  cls := .kem
  place := .inService
  keyRun := some 3
  engine := some e

/-- A key of the item's slice. -/
def key3 : KeyRun where
  port := 0
  slice := 0
  first := 3
  length := 1
  gen := 1
  kind := 3
  family := 7
  set := 1
  policy := 0
  content := [0]
  state := .live

/-- The module with that item alone in service. -/
def busy (e : Engine) (w : Entry) : State :=
  { live with heddle := { nextId := 1, items := [itemOn e w] }, runs := [key3] }

/-- The item of the opcode in service with an input of the declared length, and its instance serves. -/
abbrev Ready (e : Engine) (fam op set : Nat) (input : Bytes) : Prop :=
  Runs (busy e (word fam op set input.length)) e fam op input (itemOn e (word fam op set input.length)) ∧
    Draws (busy e (word fam op set input.length)) ∧
    setOf (itemOn e (word fam op set input.length)).entry = set ∧ (itemOn e (word fam op set input.length)).record = none

/-! ### Well-formed commands -/

/-- An ill-formed command for each check of `Instr.wf`, each with a well-formed neighbour. -/
def illFormed : List Instr :=
  [.stewardFwVerified true true (List.replicate 4097 0), .portAttach 0 { fixed := [{ volts := 0, current := 1 }], typeC := .none, emark5a := false },
   .contractChange 0 { fixed := [{ volts := 52, current := 1 }], typeC := .none, emark5a := false } false,
   .portAttach 0 { fixed := [{ volts := 5, current := 1024 }], typeC := .none, emark5a := false },
   .contractDrop 0 1024 0 false, .contractDrop 0 0 1024 false, .thermalSample 128, .thermalSample (-129), .stageWrite 0 33554432 0,
   .registerWrite 0 33554432 4 0, .registerWrite 0 0 0 0, .readBlock 0 0 4294967296 4, .readBlock 0 0 0 4294967296,
   .tamperFire ⟨[], [.contractDrop 0 0 1024]⟩, .uncorrectableError ⟨.chestWord, [.contractDrop 0 1024 0]⟩,
   .busMasterResume 0 false [{ vector := 2048, address := 0, data := 0, masked := false }],
   .atsInvalidation 0 none true 1 0, .doorbellWrite 0 1048573 4 0, .doorbellWrite 0 0 0 0, .expressDoorbell 0 1048576 1, .expressDoorbell 0 0 0, .pollTick 0 0, .pollTick 0 1024,
   .ringReadComplete 0 1024 .denied, .ringReadComplete 0 1 (.data []), .coalesceTimeout 0 0, .coalesceTimeout 0 1024,
   .ageingMeasureDone 0 32768 0, .ageingMeasureDone 0 (-32769) 0, .ageingMeasureDone 0 0 128, .mcelieceKeygen (.selvedge 0) 0,
   .rsaKeygen (.trestle 0) 0, .digestDataWrite 0 0 4096 [0, 0, 0, 0], .digestFinal 0 0 131072, .digestResultRead 0 0 4096,
   .linkTrained 0 0 false, .linkTrained 0 4 false]

def wellFormed : List Instr :=
  [.stewardFwVerified true true (List.replicate 4096 0), .portAttach 0 { fixed := [{ volts := 51, current := 1023 }], typeC := .none, emark5a := false },
   .contractDrop 0 1023 1023 false, .thermalSample 127, .thermalSample (-128), .stageWrite 0 33554431 0, .registerWrite 0 33554431 1 0,
   .readBlock 0 0 4294967295 4294967295, .tamperFire ⟨[], [.beat, .contractDrop 0 1023 0]⟩, .uncorrectableError ⟨.chestWord, [.contractDrop 0 0 1023]⟩,
   .busMasterResume 0 false [{ vector := 2047, address := 0, data := 0, masked := false }],
   .atsInvalidation 0 none true 1 1, .doorbellWrite 0 1048572 4 0, .expressDoorbell 0 1048575 1, .pollTick 0 1,
   .pollTick 0 1023, .ringReadComplete 0 1023 .denied, .coalesceTimeout 0 1023, .ageingMeasureDone 0 32767 127,
   .ageingMeasureDone 0 (-32768) (-128), .mcelieceKeygen (.selvedge 0) 1, .rsaKeygen (.trestle 0) 1,
   .digestDataWrite 0 0 4095 [0], .digestFinal 0 0 131071, .digestResultRead 0 0 4095,
   .linkTrained 0 1 false, .linkTrained 0 3 true]

theorem test_ill_formed : (∀ c ∈ illFormed, c.wf = false) ∧ ∀ c ∈ wellFormed, c.wf = true := by decide +kernel

/-! ### Operations -/

theorem witness_kem_completes :
    (∀ op ∈ [0x10, 0x11, 0x12, 0x13], ∀ set ∈ [1, 3], Ready (.loom 0) 0x01 op set []) ∧ ∀ set ∈ [1, 3], Ready (.loom 0) 0x01 0x14 set (List.replicate 64 0) := by
  unfold Ready Runs Draws; decide +kernel

theorem witness_hybrid_completes : ∀ op ∈ [0x18, 0x19, 0x1A], ∀ set ∈ [1, 3], Ready (.loom 0) 0x20 op set [] := by
  unfold Ready Runs Draws; decide +kernel

theorem witness_mldsa_completes :
    (∀ op ∈ [0x20, 0x21, 0x22, 0x23, 0x24, 0x25, 0x26, 0x27], ∀ set ∈ [1, 3], Ready (.loom 16) 0x02 op set []) ∧
    deterministic (word 0x02 0x22 1 0) = false ∧
    (∃ w, deterministic w = true ∧ Runs (busy (.loom 16) w) (.loom 16) 0x02 0x22 [] (itemOn (.loom 16) w)) := by
  refine ⟨by unfold Ready Runs Draws; decide +kernel, by decide +kernel, word 0x02 0x22 1 0 ||| BitVec.ofNat 512 (2 ^ 368), ?_⟩
  unfold Runs; decide +kernel

theorem witness_fndsa_completes : ∀ op ∈ [0x28, 0x29, 0x2A, 0x2B], ∀ set ∈ [1, 2], Ready (.loom 16) 0x03 op set [] := by
  unfold Ready Runs Draws; decide +kernel

theorem witness_composite_completes : ∀ op ∈ [0x2C, 0x2D, 0x2E, 0x2F], ∀ set ∈ [1, 3], Ready (.loom 16) 0x21 op set [] := by
  unfold Ready Runs Draws; decide +kernel

theorem witness_slhdsa_completes :
    (∀ op ∈ [0x30, 0x32, 0x33, 0x34, 0x35, 0x36, 0x37], ∀ set ∈ [1, 6, 0x11, 0x16], Ready (.loom 48) 0x04 op set []) ∧
    Ready (.loom 48) 0x04 0x31 1 (List.replicate 48 0) ∧ Ready (.loom 48) 0x04 0x31 6 (List.replicate 96 0) ∧
    (∃ w, deterministic w = true ∧ Runs (busy (.loom 48) w) (.loom 48) 0x04 0x32 [] (itemOn (.loom 48) w)) := by
  refine ⟨by unfold Ready Runs Draws; decide +kernel, by unfold Ready Runs Draws; decide +kernel, by unfold Ready Runs Draws; decide +kernel,
    word 0x04 0x32 1 0 ||| BitVec.ofNat 512 (2 ^ 368), ?_⟩
  unfold Runs; decide +kernel

/-- A live stateful key with its record. -/
def copyLive : TallyCopy where
  seq := 1
  state := 2
  family := 5
  set := 0
  keyId := 9
  uid := 1
  ceiling := 32
  handoff := 0
  nonce := 0
  tag := [1, 2]

def tallyRec : TallyRecord := { number := 0, copyA := some copyLive, copyB := some copyLive, next := 5 }

def keyLive : KeyRun := { key3 with kind := 4, family := 5, set := 0, keyId := 9, subtrees := [(0, [])] }

/-- The module with a stateful key in drawer 3 and an item on a HASH loom. -/
def tallied (e : Engine) (w : Entry) : State :=
  { busy e w with runs := [keyLive], flash := { State.reset.flash with tally := [tallyRec] } }

theorem witness_stateful_completes :
    (∀ op ∈ [0x38, 0x39, 0x3A, 0x3C, 0x3D], Ready (.loom 48) 0x05 op 0 []) ∧ (∀ op ∈ [0x40, 0x41, 0x42, 0x44, 0x45], Ready (.loom 48) 0x06 op 0 []) ∧
    (∃ i, i.boundIndex = some 4 ∧ Runs { live with heddle := { items := [i] } } (.loom 48) 0x05 0x3B [] i) ∧
    (∃ i, i.boundIndex = some 4 ∧ Runs { live with heddle := { items := [i] } } (.loom 48) 0x06 0x43 [] i) ∧
    (Runs (tallied .steward (word 0x31 0x48 0 0)) .steward 0x31 0x48 [] (itemOn .steward (word 0x31 0x48 0 0)) ∧
      itemRun (tallied .steward (word 0x31 0x48 0 0)) (itemOn .steward (word 0x31 0x48 0 0)) = some keyLive ∧
      tallyOf (tallied .steward (word 0x31 0x48 0 0)) 9 = some tallyRec ∧ tallyNewest tallyRec = some copyLive) ∧
    Runs (tallied .steward (word 0x31 0x49 0 0)) .steward 0x31 0x49 [] (itemOn .steward (word 0x31 0x49 0 0)) := by
  refine ⟨by unfold Ready Runs Draws; decide +kernel, by unfold Ready Runs Draws; decide +kernel,
    ⟨{ itemOn (.loom 48) (word 5 0x3B 0 0) with boundIndex := some 4 }, ?_⟩, ⟨{ itemOn (.loom 48) (word 6 0x43 0 0) with boundIndex := some 4 }, ?_⟩, ?_⟩ <;>
    unfold Runs <;> decide +kernel

theorem witness_code_based_completes :
    (∀ op ∈ [0x50, 0x51, 0x52, 0x53, 0x54], ∀ set ∈ [1, 10], Ready (.selvedge 3) 0x07 op set []) ∧
    (∀ op ∈ [0x58, 0x59, 0x5A, 0x5B], ∀ set ∈ [1, 3], Ready (.selvedge 0) 0x08 op set []) ∧
    (keyFacts (busy (.selvedge 3) (word 7 0x51 1 0)) (itemOn (.selvedge 3) (word 7 0x51 1 0))).isSome = true ∧ IdsApart (busy (.selvedge 3) (word 7 0x52 1 0)) := by
  refine ⟨by unfold Ready Runs Draws; decide +kernel, by unfold Ready Runs Draws; decide +kernel, by decide +kernel, by unfold IdsApart; decide +kernel⟩

theorem witness_elliptic_completes :
    (∀ op ∈ [0x60, 0x61, 0x62, 0x63, 0x64], ∀ set ∈ [1, 3], Ready (.trestle 7) 0x10 op set []) ∧
    (∀ op ∈ [0x68, 0x69, 0x6A, 0x6B], ∀ set ∈ [1, 2], Ready (.trestle 0) 0x11 op set []) ∧
    (∀ op ∈ [0x6C, 0x6D], ∀ set ∈ [1, 2], Ready (.trestle 0) 0x12 op set []) := by
  refine ⟨?_, ?_, ?_⟩ <;> unfold Ready Runs Draws <;> decide +kernel

theorem witness_rsa_completes : ∀ op ∈ [0x70, 0x71, 0x72, 0x73, 0x74, 0x75, 0x76], ∀ set ∈ [1, 4], Ready (.trestle 2) 0x13 op set [] := by
  unfold Ready Runs Draws; decide +kernel

theorem witness_key_management_completes :
    (∀ op ∈ [0x80, 0x81, 0x83, 0x84, 0x85, 0x86], Ready .steward 0x30 op 0 []) ∧
    itemRun (busy .steward (word 0x30 0x83 0 0)) (itemOn .steward (word 0x30 0x83 0 0)) = some key3 ∧ key3.deleting = none ∧
    (∃ i, i.record = some (List.replicate 96 0) ∧ Runs { live with heddle := { items := [i] } } .steward 0x30 0x82 [] i) := by
  refine ⟨by unfold Ready Runs Draws; decide +kernel, by decide +kernel, by decide +kernel,
    { itemOn .steward (word 0x30 0x82 0 0) with record := some (List.replicate 96 0) }, ?_⟩
  unfold Runs; decide +kernel

theorem witness_derive_mac_attest_complete :
    Ready .steward 0x30 0x87 0 [] ∧ Ready .steward 0x30 0x88 0 [] ∧ Ready (.loom 16) 0x30 0x89 0 (List.replicate 32 0) ∧ Ready .bobbin 0x40 0x01 0 [] ∧
    predRes (word 0x40 0x01 0 0) = false ∧ Ready (.digest 7) 0x41 0x01 2 [] := by
  unfold Ready Runs Draws; decide +kernel

/-! ### Power and start-up -/

def asleep : State := { live with mode := { base := .dormant } }

theorem witness_power_good_completes : asleep.mode.base = .dormant ∧ asleep.power.contracts.any (fun c => c.valid) = true ∧ asleep.backup.wasLost = false := by decide +kernel

theorem witness_power_fail_completes : live.mode.base ≠ .dormant ∧ live.backup.cellOk = true ∧ live.life.transition = none := by decide +kernel

/-- A counter whose group 5 has a bit, beside the legal one of reset. -/
theorem witness_strap_sample_completes :
    (State.reset.mode.straps = none ∧ State.reset.mode.base = .wake ∧ State.reset.mode.chestRead = false ∧ (readCounter State.reset.fuses.otp).2.2 = false) ∧
    ({ State.reset with mode := { State.reset.mode with chestRead := true } } : State).mode.chestRead = true ∧
    (readCounter 0x1000FF).2.2 = true := by decide +kernel

/-- The counter read as R524 and R525 say: complete, weak, torn, past a gap. -/
theorem test_read_counter :
    readCounter 0x0000FF = (0x0000FF, false, false) ∧ readCounter 0x0007FF = (0x000FFF, true, false) ∧
    readCounter 0x0000F1 = (0x0000FF, true, true) ∧ readCounter 0x000001 = (0x00000F, true, false) ∧
    stateCount 0x0000FF = 2 ∧ stateCount 0x00007F = 2 ∧ stateCount 0x0FFFFF = 5 ∧ stateCount 0 = 0 := by decide +kernel

def waking : State :=
  { State.reset with
    power := { State.reset.power with contracts := #v[contract100, {}, {}, {}], plan := .full }
    mode := { base := .wake, straps := some straps0 }
    backup := { chest := { valid := true } }
    flash := { State.reset.flash with slotA := some draft }
    life := { state := 2 } }

def cleanTest : SelfTest :=
  { looms := [], benches := [], trestles := [], selvedge := [], cabinetOk := true, silent := [], wardenChecker := false }

def reading : State := { waking with mode := { base := .threading, straps := some straps0, fwDone := true, threading := .reading 0 true false } }
def testing : State := { waking with mode := { base := .threading, straps := some straps0, fwDone := true, threading := .testing true true false } }

theorem witness_start_up_completes :
    (waking.mode.base = .wake ∧ waking.mode.fwDone = false ∧ waking.mode.stewardLost = false ∧ waking.mode.straps = some straps0 ∧ waking.life.state = 2 ∧
      waking.life.debug = false ∧ waking.power.plan ≠ .wakeOnly ∧ waking.mode.threading = .none ∧ waking.flash.tally = [] ∧ waking.backup.latch = [] ∧ waking.backup.lost = 0) ∧
    (reading.mode.base = .threading ∧ reading.mode.threading = .reading 0 true false ∧ draftAt reading 0 = some draft ∧ draftCheck reading draft = none) ∧
    (testing.mode.base = .threading ∧ testing.mode.threading = .testing true true false ∧ testing.backup.chest.valid = true ∧ haltFlagSet testing = false ∧ testing.owner = none) := by
  refine ⟨by decide +kernel, ⟨rfl, rfl, rfl, ?_⟩, by decide +kernel⟩
  unfold draftCheck
  rw [draft_signed]
  decide +kernel

def offer20 : Offer := { fixed := [{ volts := 20, current := 500 }, { volts := 5, current := 300 }], typeC := .a30, emark5a := true }

theorem witness_contracts_complete :
    offer20.wf = true ∧ State.reset.power.contracts[0].attached = false ∧
    planCode State.reset.power.plan ≤ planCode (planOf (budgetFine (setContract 0 (chooseContract offer20) State.reset))) ∧
    (asleep.power.contracts[0].attached = true ∧ asleep.mode.base = .dormant) ∧
    (live.power.contracts[0].attached = true ∧ live.mode.base ≠ .dormant ∧ live.ports[0].trained = true ∧ live.power.contracts[1].valid = false) ∧
    (asleep.power.contracts[0].valid = true ∧ 400 * 499 < contractPower asleep.power.contracts[0]) ∧ asleep.power.contracts[1].valid = false ∧
    ((∃ f ∈ offer20.fixed, f.volts = 20 ∧ 500 ≤ f.current) ∧ offer20.emark5a = true) ∧
    ((∃ f ∈ ({ offer20 with emark5a := false } : Offer).fixed, f.volts = 20 ∧ 300 ≤ f.current) ∧ ({ offer20 with emark5a := false } : Offer).emark5a = false) ∧
    ({ offer20 with fixed := [] } : Offer).fixed = [] := by decide +kernel

/-- R26's defaults and the tie rule of R25. -/
theorem test_choose_contract :
    (chooseContract offer20).current = 500 ∧ (chooseContract { offer20 with emark5a := false }).current = 300 ∧
    (chooseContract { fixed := [{ volts := 9, current := 300 }, { volts := 15, current := 180 }], typeC := .none, emark5a := false }).voltage = 300 ∧
    (chooseContract { fixed := [], typeC := .none, emark5a := false }).current = 50 := by decide +kernel

def hot : State := { live with power := { live.power with tj := 100 } }
def cool : State := { live with power := { live.power with tj := 94, throttled := 0x8000, benchOn := 0x7FFF } }
/-- Benches 0 to 2 out of service, bench 3 gated, and a KEM item ready. -/
def starved : State :=
  { live with
    power := { live.power with benchOn := 0xFFF8 }
    benches := live.benches.set 3 { gated := true }
    heddle := { nextId := 1, items := [{ itemOn .steward (word 1 0x10 1 0) with place := .ready, engine := none }] } }

theorem witness_power_events_complete :
    (live.mode.base ≠ .dormant ∧ live.power.contracts[0].attached = true) ∧
    (let s : State := { live with power := { live.power with hold := some .full } }
     s.mode.stewardLost = false ∧ s.power.hold = some .full) ∧
    (100 ≤ hot.power.tj ∧ throttleChoice hot = some 11 ∧ throttleChoice (throttleOne hot) = some 10) ∧
    (cool.power.tj < 95 ∧ bitsOf (cool.power.throttled &&& planBenches cool cool.power.plan) ≠ []) ∧
    (live.power.benchOn.getLsbD 0 = true ∧ live.faults.bench.getLsbD 0 = false ∧ live.heddle.items = []) ∧
    (starved.benches[3].gated = true ∧ (∃ i ∈ starved.heddle.items, i.place = .ready ∧ some i.cls = benchClass (roleOf starved 3)) ∧
      (∀ n : LoomId, roleOf starved (n.val / 4) = roleOf starved 3 → mayAsk starved (.loom n) = false) ∧
      ∀ n : BenchId, n < 3 → starved.benches[n.val].gated = true → roleOf starved n.val ≠ roleOf starved 3) := by decide +kernel

/-! ### Beat, registers, USB 2.0 -/

/-- Idle with the steward lost and nothing in hand. -/
def quiet : State := { State.reset with mode := { base := .idle, stewardLost := true } }

theorem witness_beat_completes :
    (∀ p v c, Trigger.contractDrop p v c ∈ [Trigger.powerFail, .contractDrop 0 100 50] → v < 1024 ∧ c < 1024) ∧
    quiet.mode.base = .idle ∧ quiet.mode.stewardLost = true ∧ quiet.power.rise = none ∧ quiet.power.benchReturn = 0 ∧ quiet.device.armed = false ∧
    (∀ p : PortId, quiet.ports[p.val].creditHeld = false ∧ quiet.ports[p.val].stage.armed = false ∧ quiet.ports[p.val].admin.entry = none ∧
      quiet.ports[p.val].admin.scanning = false ∧ quiet.ports[p.val].drains = []) ∧
    quiet.heddle.items = [] ∧ quiet.heddle.asking = [] ∧ quiet.queues = [] ∧ quiet.owner = none ∧ quiet.envelopes = [] ∧ quiet.tamper.sensed = [] := by
  refine ⟨?_, by decide +kernel⟩
  intro p v c h
  simp at h
  omega

theorem witness_stage_completes :
    WriteReaches live 0 ∧ live.ports[0].stage.armed = false ∧ live.ports[0].stage.entries.length < 4096 ∧ findSlice live 0 0 = some slice0 := by
  unfold WriteReaches; decide +kernel

/-- Port 0's function is fenced. -/
def fencedPort : State := { live with faults := { port := 1 } }

theorem witness_registers_complete :
    WriteReaches live 0 ∧ live.ports[0].admin.enable = false ∧ barOpen fencedPort 0 = true ∧ portFenced fencedPort 0 = true := by
  unfold WriteReaches; decide +kernel

theorem witness_usb_reads_complete :
    usbOpen live 0 = true ∧ blockOpen 0 16 = true ∧ blockOpen 0x10000 16 = false ∧ (7 : BitVec 16).toNat ∉ [0x0001, 0x0002, 0x0003, 0x0010, 0x0020, 0x0030, 0x0031] ∧ live.mode.stewardLost = false := by decide +kernel

/-- An envelope of sequence number 1 for serial 0: an inner command's code and operand bytes. -/
def envelopeHead (code n : Nat) : Bytes := ascii "AQOC" ++ leBytes 8 0 ++ leBytes 4 1 ++ leBytes 2 code ++ zeros 2 ++ leBytes 4 n

def envelope (code : Nat) (operand : Bytes) : Envelope where
  head := envelopeHead code operand.length
  body := .bytes operand
  length := operand.length + 4760
  block := blockFor [7] [] (ascii "AQOC-OWN") (envelopeHead code operand.length ++ operand)

/-- HOLD. -/
def holdEnvelope : Envelope := envelope 5 []

/-- Every inner command of R166 but the two with records, spelt by its bytes. -/
theorem test_inner_operands :
    innerOperand 1 (.bytes (leBytes 4 1 ++ leBytes 2 9 ++ zeros 2 ++ leBytes 4 1 ++ leBytes 4 0x10018 ++ leBytes 4 7)) = some (.deviceStage 1 9 [(0x10018, 7)]) ∧
    innerOperand 3 (.bytes [1]) = some (.draftSelect 1) ∧ innerOperand 4 (.bytes [2]) = some (.rethread 2) ∧ innerOperand 5 (.bytes []) = some .hold ∧
    innerOperand 5 (.bytes [0]) = none ∧ innerOperand 6 (.bytes []) = some .holdRelease ∧ innerOperand 8 (.bytes []) = some .bobbinRestart ∧
    innerOperand 9 (.bytes [1, 2, 0, 0]) = some (.tamperClear 0x201) ∧ innerOperand 0x0A (.bytes [23]) = some (.tamperFuse 23) ∧
    innerOperand 0x0B (.bytes [5]) = some (.lcAdvance 5) ∧ innerOperand 0x0C (.bytes []) = none := by decide +kernel

/-- What the steward asks of an envelope (R121), where the block is that of the owner record's keys. -/
theorem accepted {s : State} {e : Envelope} (hs : envSerial e = s.fuses.serial) (ho : ownerSet s = true)
    (hb : ownerVerifies s.flash.ownerRecord (ascii "AQOC-OWN") (e.head ++ bodyBytesOf e.body) e.block = true)
    (hd : s.backup.chest.ownerDigest = sha3_256 s.flash.ownerRecord) (hr : s.flash.ownerRecord.isEmpty = false) (hq : envSeq e = ownerSeq s + 1) :
    envelopeAccepted s e = true := by
  simp [envelopeAccepted, ownerRecordOk, hs, ho, hb, hd, hr, hq]

/-- A module with an owner, in a mode. -/
def owned (m : Mode) (cause : Nat) : State :=
  { live with
    mode := { live.mode with base := m, cause := cause }
    backup := { chest := { valid := true, ownerSet := true, drk := [1, 2], ork := [3], ownerDigest := sha3_256 [7] } }
    flash := { live.flash with ownerRecord := [7] } }

theorem owned_accepts (m : Mode) (cause : Nat) : envelopeAccepted (owned m cause) holdEnvelope = true :=
  accepted (by show _ = (0 : BitVec 64); decide +kernel) rfl (block_for_holds _ _ _ _) rfl rfl (by show _ = (0 : Word) + 1; decide +kernel)

/-- A card with these share records in its first slots, identified. -/
def card (n : Nat) (shares : List ShareRecord) : CardState where
  cdet := true
  present := true
  powered := true
  identified := true
  identity := BitVec.ofNat 128 n
  addr := n
  phase := 1
  shares := shares.map fun r => some { copyB := false, seq := 1, payload := r }

/-- Two cards, in slots 0 and 1. -/
def twoIn : CardBus := { slots := #v[card 1 [], card 2 [], {}, {}] }

/-- No owner is set, two cards are in place and the operand is in hand. -/
def inHand (m : Mode) (cause : Nat) (op : OwnerOperand) : State :=
  { live with
    mode := { live.mode with base := m, cause := cause }
    cards := twoIn
    owner := some { origin := .usb 0 5, seq := 1, operand := op } }

/-- A return token for a module without an owner. -/
def tokenBytes : Bytes := ascii "AQDT" ++ leBytes 2 1 ++ [2, 0] ++ leBytes 8 0 ++ List.replicate 32 9 ++ zeros 8 ++ leBytes 8 3 ++ zeros 4627

def returnToken : Token where
  bytes := tokenBytes
  signed := { key := Config.romKey .debugDsa, context := ascii "AQDT-HF", message := sha3_512 (tokenBytes.take 64) }

theorem token_signed : tokenSigned returnToken = true := by simp [tokenSigned, returnToken]

def challenged : State :=
  { live with mode := { live.mode with base := .hold, cause := 5 }, cards := twoIn, life := { state := 2, nonce := some (List.replicate 32 9) } }

theorem return_token_passes : tokenResult challenged returnToken = 0 := by
  unfold tokenResult
  rw [token_signed]
  decide +kernel

theorem witness_usb_commands_complete :
    (usbOpen (owned .idle 2) 0 = true ∧ (owned .idle 2).mode.stewardLost = false ∧ stewardBusy (owned .idle 2) = false ∧
      holdEnvelope.length ≤ 1048576 ∧ (owned .idle 2).envelopes = [] ∧ (owned .idle 2).mode.base ≠ .zeroized ∧ (owned .idle 2).life.state ≠ 5 ∧
      envelopeForm holdEnvelope = true ∧ envelopeAccepted (owned .idle 2) holdEnvelope = true ∧
      innerOperand (envCode holdEnvelope) holdEnvelope.body = some .hold ∧ heldInWake (owned .idle 2) = false) ∧
    usbOpen (owned .recovery 12) 0 = true ∧
    (usbOpen challenged 0 = true ∧ challenged.mode.base = .hold ∧ bobbinFailed challenged = false ∧ stewardDraws challenged = true) ∧
    (stewardBusy challenged = false ∧ challenged.envelopes = [] ∧ tokenResult challenged returnToken = 0 ∧ tokenPurpose returnToken = 2) ∧
    (usbOpen live 0 = true ∧ stewardBusy live = false ∧ live.envelopes = [] ∧ tokenResult live returnToken ≠ 0) ∧
    (usbOpen (inHand .hold 5 .hold) 0 = true ∧ (inHand .hold 5 .hold).mode.stewardLost = false ∧ stewardBusy (inHand .hold 5 .hold) = true) := by
  refine ⟨⟨by decide +kernel, by decide +kernel, by decide +kernel, by decide +kernel, by decide +kernel, by decide +kernel, by decide +kernel, by decide +kernel,
    owned_accepts .idle 2, by decide +kernel, by decide +kernel⟩, by decide +kernel, by decide +kernel,
    ⟨by decide +kernel, by decide +kernel, return_token_passes, by decide +kernel⟩, by decide +kernel, by decide +kernel⟩

/-- Whether an outcome is a next state. -/
def isNext : Host.Outcome State Fault Refusal → Bool
  | .next _ => true
  | _ => false

theorem exists_next {o : Host.Outcome State Fault Refusal} (h : isNext o = true) : ∃ t, o = .next t := by
  cases o with
  | next t => exact ⟨t, rfl⟩
  | fault _ => cases h
  | refused _ => cases h

theorem witness_envelope_consumes_sequence :
    envelopeForm (envelope 0x0C []) = false ∧ envelopeForm { holdEnvelope with length := 4761 } = false ∧ envelopeAccepted live holdEnvelope = false ∧ live.envelopes = [] ∧
    isNext (exec (.signedAdmin 0 5 holdEnvelope) live) = true ∧ isNext (exec (.ownerSigned 0 holdEnvelope) live) = true := by decide +kernel

/-! ### Owner commands -/

theorem witness_owner_device_draft_completes :
    (deviceOffset 0x10018 = true ∧ deviceOffset 0x50000C = true ∧ deviceOffset 0x20000 = false) ∧
    (OwnerRuns (inHand .idle 2 (.deviceStage 0 0 [(0x10018, 7)])) (.deviceStage 0 0 [(0x10018, 7)]) ∧ (inHand .idle 2 .hold).device.armed = false) ∧
    (OwnerRuns (inHand .idle 2 (.deviceStage 2 0 [])) (.deviceStage 2 0 []) ∧
      OwnerRuns (inHand .idle 2 (.deviceStage 1 0xFFFF [])) (.deviceStage 1 0xFFFF []) ∧ deviceCheck (inHand .idle 2 .hold) 0xFFFF = 0) ∧
    (OwnerRuns (inHand .idle 2 (.draftWrite 0 draft)) (.draftWrite 0 draft) ∧ draftWriteOk (inHand .idle 2 (.draftWrite 0 draft)) draft = true ∧
      slotThreaded { inHand .idle 2 (.draftWrite 1 draft) with draft := { threaded := some draft } } 1 = false) ∧
    OwnerRuns (inHand .idle 2 (.draftSelect 1)) (.draftSelect 1) := by
  refine ⟨by decide +kernel, by unfold OwnerRuns; decide +kernel, by unfold OwnerRuns; decide +kernel, ⟨rfl, ?_, by decide +kernel⟩, by unfold OwnerRuns; decide +kernel⟩
  unfold draftWriteOk
  rw [draft_signed]
  decide +kernel

def rethreading (c : Nat) (op : OwnerOperand) : State :=
  { inHand .hold c op with owner := some { origin := .usb 0 5, seq := 1, operand := op, started := true } }

theorem witness_owner_hold_completes :
    (OwnerRuns (inHand .idle 2 .hold) .hold ∧ isIdleServe (inHand .idle 2 .hold).mode.base = true) ∧
    (OwnerRuns (inHand .hold 5 .holdRelease) .holdRelease ∧ (inHand .hold 5 .holdRelease).mode.base = .hold ∧
      (inHand .hold 5 .holdRelease).mode.cause = 5 ∧ (inHand .hold 5 .holdRelease).power.plan ≠ .wakeOnly) ∧
    (OwnerRuns (inHand .serveFull 2 (.rethread 2)) (.rethread 2) ∧ isIdleServe (inHand .serveFull 2 (.rethread 2)).mode.base = true) ∧
    ((rethreading 6 (.rethread 2)).owner = some { origin := .usb 0 5, seq := 1, operand := .rethread 2, started := true } ∧
      (rethreading 6 (.rethread 2)).mode.base = .hold ∧ (rethreading 6 (.rethread 2)).heddle.items = [] ∧
      holdStands (rethreading 6 (.rethread 2)) = false ∧ (rethreading 6 (.rethread 2)).power.plan ≠ .wakeOnly) := by
  unfold OwnerRuns; decide +kernel

/-- Bytes 0 to 2,015 of an owner's calibration page: ORIGIN 1, SEQ 1, serial 0, TEMP_LOW -20. -/
def calHead : Bytes :=
  ascii "AQCL" ++ leBytes 2 1 ++ [1, 0] ++ zeros 8 ++ leBytes 4 1 ++ zeros 12 ++ (List.range 8).flatMap (fun _ => leBytes 2 100)
    ++ leBytes 2 80 ++ leBytes 2 65516 ++ leBytes 2 115 ++ leBytes 2 1 ++ (List.range 4).flatMap (fun _ => leBytes 2 1)
    ++ zeros 64 ++ leBytes 2 1 ++ leBytes 2 4095 ++ (List.range 8).flatMap (fun _ => leBytes 2 512) ++ zeros 44
    ++ (List.range 16).flatMap (fun _ => leBytes 2 100 ++ leBytes 2 20 ++ leBytes 2 65533 ++ zeros 10) ++ zeros 1568

/-- The page with its hash. -/
def calPage1 : Bytes := calHead ++ sha3_256 calHead

theorem calHead_length : calHead.length = 2016 := by decide +kernel

theorem calPage1_take : calPage1.take 2016 = calHead := by
  rw [calPage1, List.take_append_of_le_length (by rw [calHead_length]), ← calHead_length, List.take_length]

theorem calPage1_drop : calPage1.drop 2016 = sha3_256 calHead := by
  rw [calPage1, ← calHead_length, List.drop_left]

theorem calPage1_ok : calOk 0 calPage1 = true := by
  have h : (calForm 0 calPage1 && calRanges (calOf calPage1)) = true := by decide +kernel
  unfold calOk
  rw [h, calPage1_take, calPage1_drop]
  simp

theorem witness_owner_tamper_cal_completes :
    (OwnerRuns (inHand .idle 2 (.tamperClear 8)) (.tamperClear 8) ∧
      ∀ i : SourceId, (8 : Word).getLsbD i.val = true → classOf (inHand .idle 2 (.tamperClear 8)) i < 2) ∧
    (OwnerRuns (inHand .idle 2 (.tamperClear 1)) (.tamperClear 1) ∧ quorumStands (inHand .idle 2 (.tamperClear 1)) = true) ∧
    (OwnerRuns { inHand .idle 2 (.tamperClear 1) with cards := {} } (.tamperClear 1) ∧ (1 : Word).getLsbD 0 = true ∧
      2 ≤ classOf { inHand .idle 2 (.tamperClear 1) with cards := {} } 0 ∧ quorumStands { inHand .idle 2 (.tamperClear 1) with cards := {} } = false) ∧
    (OwnerRuns (inHand .idle 2 (.tamperFuse 23)) (.tamperFuse 23) ∧ quorumStands (inHand .idle 2 (.tamperFuse 23)) = true) ∧
    (OwnerRuns { inHand .idle 2 (.tamperFuse 23) with cards := {} } (.tamperFuse 23) ∧
      quorumStands { inHand .idle 2 (.tamperFuse 23) with cards := {} } = false) ∧
    ((inHand .hold 5 (.calWrite calPage1)).owner = some { origin := .usb 0 5, seq := 1, operand := .calWrite calPage1 } ∧
      calOk (inHand .hold 5 (.calWrite calPage1)).fuses.serial calPage1 = true ∧ calOrigin calPage1 = 1 ∧ calSeq calPage1 = 1) := by
  refine ⟨?_, ?_, ?_, ?_, ?_, rfl, calPage1_ok, by decide +kernel, by decide +kernel⟩ <;> (unfold OwnerRuns; decide +kernel)

theorem witness_life_cycle_completes :
    (OwnerRuns (inHand .hold 5 (.lcAdvance 5)) (.lcAdvance 5) ∧ (inHand .hold 5 (.lcAdvance 5)).mode.base = .hold ∧
      (inHand .hold 5 (.lcAdvance 5)).life.debug = false ∧ (inHand .hold 5 (.lcAdvance 5)).life.state = 2 ∧
      quorumStands (inHand .hold 5 (.lcAdvance 5)) = true) ∧
    (OwnerRuns (inHand .hold 5 (.lcAdvance 3)) (.lcAdvance 3)) ∧
    (OwnerRuns { inHand .hold 5 (.lcAdvance 5) with cards := {} } (.lcAdvance 5) ∧
      quorumStands { inHand .hold 5 (.lcAdvance 5) with cards := {} } = false) ∧
    (∃ s : State, s.life.transition = some { target := 5, byToken := none } ∧ s.life.state ≤ 5) ∧
    (∃ s : State, s.life.transition = some { target := 3, byToken := none } ∧ s.life.state ≤ 3) := by
  refine ⟨by unfold OwnerRuns; decide +kernel, by unfold OwnerRuns; decide +kernel, by unfold OwnerRuns; decide +kernel,
    ⟨{ live with life := { state := 3, transition := some { target := 5, byToken := none } } }, by decide +kernel⟩,
    ⟨{ live with life := { state := 2, transition := some { target := 3, byToken := none } } }, by decide +kernel⟩⟩

/-! ### Tamper watch, logbook -/

/-- The state with source 2 active and its record in the mirror. -/
def record2 : LogRecord := { event := 0xC2, severity := 2, latched := false, repeats := 65535, first := 1, last := 1, cycle := 1, detail := 0, seq := 4 }

def alarmed : State := { live with tamper := { active := 4 }, log := { records := [record2] } }

theorem witness_tamper_completes :
    (live.mode.base ≠ .dormant ∧ live.fuses.fused.getLsbD 23 = false ∧ live.tamper.active.getLsbD 23 = false ∧ live.tamper.stimulus ≠ some 23 ∧
      (∀ f : Firing, f.source = 23 → senses live f = true) ∧ compatOn live = false) ∧
    (∃ s : State, s.mode.base ≠ .dormant ∧ ∃ d, s.tamper.pairs[0]? = some d) ∧
    live.tamper.stimulus = none ∧
    (∃ s : State, s.mode.base ≠ .dormant ∧ s.fuses.fused.getLsbD 0 = false ∧ s.tamper.stimulus = some 0 ∧ s.tamper.heldAlarm = false) ∧
    (cellFeeds asleep = true ∧ (3 : SourceId) ∈ [(3 : SourceId)]) ∧
    (cellFeeds asleep = true ∧ (3 : SourceId) ∉ [(2 : SourceId)] ∧ (2 : SourceId) ∈ [(2 : SourceId)] ∧ cellSource 2 = true ∧ asleep.fuses.fused.getLsbD 2 = false ∧
      asleep.backup.active.getLsbD 2 = false) ∧
    (∃ s : State, cellFeeds s = true ∧ ∀ i : SourceId, cellClass s i ≠ 3) ∧
    (alarmed.mode.base ≠ .dormant ∧ alarmed.tamper.active.getLsbD 2 = true ∧ latching alarmed = false ∧ alarmed.log.queue = [] ∧
      newestOf 0xC2 alarmed.log.records = some record2) := by
  refine ⟨⟨by decide +kernel, by decide +kernel, by decide +kernel, by decide +kernel, fun f h => ?_, by decide +kernel⟩,
    ⟨{ live with tamper := { pairs := [{ firings := [], delay := 2 }] } }, by decide +kernel, _, rfl⟩, by decide +kernel,
    ⟨{ live with tamper := { stimulus := some 0 } }, by decide +kernel⟩, by decide +kernel, by decide +kernel,
    ⟨{ asleep with backup := { classes := Vector.replicate 24 2 } }, by decide +kernel⟩, by decide +kernel⟩
  simp [senses, h]

def event9 : Event := { event := 9, severity := 1, detail := 0 }
def withRecord (r : LogRecord) : State := { live with log := { records := [r] } }

theorem witness_logbook_completes :
    (∃ s : State, s.mode.base ≠ .dormant ∧ latching s = false ∧ s.log.queue = [event9] ∧ newestOf 9 s.log.records = none ∧ s.log.records.length < 4096) ∧
    ((withRecord record2).mode.base ≠ .dormant ∧ (withRecord record2).faults.flashFenced = false ∧ (withRecord record2).mode.stewardLost = false ∧
      ((withRecord record2).log.records.find? fun x => x.seq == record2.seq && !x.durable) = some record2) ∧
    (∃ s : State, s.log.seconds = 20 ∧ (s.log.records.find? fun x => x.seq == record2.seq && x.durable && decide (x.flushed + 10 ≤ s.log.seconds)) = some { record2 with durable := true, flushed := 10 }) ∧
    live.mode.base ≠ .dormant ∧ asleep.mode.base = .dormant := by
  refine ⟨⟨{ live with log := { queue := [event9] } }, by decide +kernel⟩, by decide +kernel,
    ⟨{ live with log := { seconds := 20, records := [{ record2 with durable := true, flushed := 10 }] } }, by decide +kernel⟩, by decide +kernel, by decide +kernel⟩

/-- Events of one fabric cycle stand in ascending number, behind those of earlier cycles (R517). -/
theorem test_event_order :
    ((raise0 0x0A0 (raise0 0x0C2 { live with log := { queue := [event9] }, clock := 7 })).log.queue.map fun e => e.event) = [9, 0x0A0, 0x0C2] := by
  decide +kernel

/-! ### Host function, doorbells, ring reads -/

def bare : State := { live with ports := State.reset.ports, slices := [], queues := [] }

/-- A ring read through page 0 is under way on queue 1, and the page is in the port's cache. -/
def readingPage : State :=
  { live with
    queues := [{ queue1 with reading := some 1 }]
    ports := live.ports.set 0 { port0 with atsEn := true, cache := [{ slice := 0, page := 0, target := 9 }] } }

theorem witness_host_function_completes :
    (bare.power.contracts[0].attached = true ∧ bare.power.plan ≠ .wakeOnly ∧ bare.ports[0].trained = false ∧ live.ports[0].trained = true) ∧
    configOpen live 0 = true ∧ (functionPresent live 0 = true ∧ live.ports[0].flr = false ∧ (∀ x : PortId, live.ports[x.val].drains = []) ∧
      (∀ q ∈ live.queues, q.port = 0 → q.reading = none) ∧ live.heddle.items = []) ∧
    (functionPresent readingPage 0 = true ∧ (∀ x : PortId, readingPage.ports[x.val].drains = []) ∧ findQueue readingPage 0 1 = some { queue1 with reading := some 1 } ∧
      ∃ k ∈ ringPages { queue1 with reading := some 1 } 1, 0 ≤ k ∧ k ≤ 0 ∧ invalidates readingPage 0 none true 0 = true ∧ translated readingPage 0 0 k = true) ∧
    (∀ e ∈ port0.table, e.vector < 2048) := by decide +kernel

def express1 (st : QueueState) (scan : Bool) : State := { live with queues := [{ queue1 with express := true, state := st, scanning := scan }] }
def withAdmin (a : AdminQueue) : State := { live with ports := live.ports.set 0 { port0 with admin := a } }

theorem witness_doorbells_complete :
    (WriteReaches live 0 ∧ (2 ≠ 4 ∨ 12 % 8 ≠ 0)) ∧ (WriteReaches live 0 ∧ findLocalQueue live 0 0 0 = some queue1 ∧ queue1.express = false) ∧
    (WriteReaches (express1 .frozen false) 0 ∧ (findLocalQueue (express1 .frozen false) 0 0 0).isSome = true) ∧
    (WriteReaches (express1 .active true) 0 ∧ (findLocalQueue (express1 .active true) 0 0 0).isSome = true) ∧
    (WriteReaches (express1 .active false) 0 ∧ (findLocalQueue (express1 .active false) 0 0 0).isSome = true) ∧
    (WriteReaches (withAdmin { enable := true, log2 := 4, scanning := true }) 0) ∧
    (WriteReaches (withAdmin { enable := true, log2 := 4 }) 0 ∧ mayFetchAdmin (withAdmin { enable := true, log2 := 4 }) 0 = true) ∧
    (WriteReaches (withAdmin {}) 0 ∧ (0x80000004 : Word).getLsbD 31 = true ∧ ringOk 4 0 = true ∧ ringOk 3 0 = false) ∧
    (withAdmin {}).ports[0].admin.entry = none ∧
    (findQueue live 0 1 = some queue1 ∧ queue1.reading = none ∧ mayFetch live queue1 = true) := by
  unfold WriteReaches; decide +kernel

def reading1 : Queue := { queue1 with reading := some 1 }
def ringing : State := { live with queues := [reading1] }
def fetched (w : Entry) : Fetched := { entry := w, inputOk := true, outputOk := true, sealedRecord := none }
def adminReading : State := withAdmin { enable := true, log2 := 4, scanning := true, reading := true }

theorem witness_ring_read_completes :
    (IdsApart ringing ∧ findQueue ringing 0 1 = some reading1 ∧ mayFetch ringing reading1 = true ∧
      ownBit (fetched (word 1 0x10 1 0 ||| 0x80000000)).entry = true ∧ ownedIndex ringing reading1 (headIndex reading1) = false) ∧
    (IdsApart adminReading ∧ adminReading.ports[0].admin.reading = true ∧ mayFetchAdmin adminReading 0 = true ∧ adminForm (word 0 0x7F 0 0 ||| 0x80000000) = false) := by
  unfold IdsApart; decide +kernel

/-! ### Dispatch, commit, completion -/

/-- The item ready for a grant, its input read and its run reserved. -/
def readyItem (fam op set : Nat) (c : SvcClass) : Item := { itemOn .steward (word fam op set 0) with place := .ready, engine := none, cls := c, keyRun := none }

def readyState (i : Item) : State := { live with heddle := { nextId := 8, items := [i] }, queues := [{ queue1 with owned := 1 }] }

/-- A long job on trestle 0 and a short one that waits. -/
def longJob : Item := { itemOn (.trestle 0) (word 0x13 0x70 3 0) with id := 1, cls := .trestle, keyRun := none }
def shortJob : Item := { readyItem 0x10 0x62 1 .trestle with id := 2, keyRun := some 3 }
def yieldState : State := { live with heddle := { nextId := 8, items := [longJob, shortJob] }, queues := [{ queue1 with owned := 2 }], runs := [key3] }

def averaged (a : Nat → Rat) (dim : Bool) : State :=
  { live with
    looms := Vector.ofFn (fun n : Fin 64 => { average := some (a n.val), dimmed := dim && n.val == 0 })
    draft := { threaded := some { draft with heddle := { draft.heddle with dimThresh := 80 } } } }

theorem witness_dispatch_completes :
    (IdsApart (readyState (readyItem 1 0x10 1 .kem)) ∧ mayAsk (readyState (readyItem 1 0x10 1 .kem)) (.loom 0) = true ∧
      engineClass (readyState (readyItem 1 0x10 1 .kem)) (.loom 0) = some .kem ∧ bobbinFailed (readyState (readyItem 1 0x10 1 .kem)) = false ∧
      ∃ r, choose { readyState (readyItem 1 0x10 1 .kem) with heddle := { (readyState (readyItem 1 0x10 1 .kem)).heddle with asking := [.loom 0] } } (.loom 0) []
          (fun _ => true) = some (readyItem 1 0x10 1 .kem, r) ∧
        grantBar { readyState (readyItem 1 0x10 1 .kem) with heddle := { (readyState (readyItem 1 0x10 1 .kem)).heddle with asking := [.loom 0] } }
          (readyItem 1 0x10 1 .kem) = none) ∧
    (mayAsk live (.loom 0) = true ∧ engineClass live (.loom 0) = some .kem ∧
      choose { live with heddle := { live.heddle with asking := [.loom 0] } } (.loom 0) [] (fun _ => true) = none) ∧
    (IdsApart yieldState ∧ yieldingJob yieldState 0 = some longJob ∧ (∃ r, choose yieldState (.trestle 0) [] (isShort yieldState) = some (shortJob, r)) ∧
      grantBar yieldState shortJob = none) ∧
    (∃ m a, benchMedian (averaged (fun n => if n = 0 then 2 else 1) false) (benchOf 0) = some m ∧
      (averaged (fun n => if n = 0 then 2 else 1) false).looms[0].average = some a ∧ ((heddleSection (averaged (fun n => if n = 0 then 2 else 1) false)).dimThresh : Rat) * m < 64 * a) ∧
    (∃ m a, benchMedian (averaged (fun _ => 1) true) (benchOf 0) = some m ∧ (averaged (fun _ => 1) true).looms[0].average = some a ∧
      (averaged (fun _ => 1) true).looms[0].dimmed = true ∧ 8 * a ≤ 9 * m) := by
  refine ⟨⟨by unfold IdsApart; decide +kernel, by decide +kernel, by decide +kernel, by decide +kernel, 3, by decide +kernel, by decide +kernel⟩, by decide +kernel,
    ⟨by unfold IdsApart; decide +kernel, by decide +kernel, ⟨3, by decide +kernel⟩, by decide +kernel⟩, ⟨1, 2, by decide +kernel⟩, ⟨1, 1, by decide +kernel⟩⟩

/-- The item on loom 0 with a formed result. -/
def formedItem (r : ItemResult) : Item := { itemOn (.loom 0) (word 1 0x10 1 0) with result := some r, keyRun := none }
def formedState (r : ItemResult) (rs : List KeyRun) : State :=
  { live with heddle := { nextId := 1, items := [formedItem r] }, runs := rs, queues := [{ queue1 with owned := 1 }] }
def reserved0 : KeyRun := { key3 with state := .reserved 0 }
def newRun : CommitAct := .run 1 1 1 0 [5] 0 false

/-- A routine run word by word on loom 0, at its COMMIT or before it. -/
def worded (atCommit : Bool) : State :=
  { formedState { status := .ok } [] with looms := live.looms.set 0 { core := { item := some 0, atCommit := atCommit, cycles := 9 } } }

/-- The item on loom 0 signs, and its own check has left VERIFY_OK clear. -/
def signing (held : List (Bool × Nat)) : State :=
  { formedState { status := .ok } [] with
    heddle := { nextId := 2, items := [{ itemOn (.loom 0) (word 2 0x22 1 0) with result := some { status := .ok, output := [1], verifyOk := false } },
      { itemOn (.loom 1) (word 1 0x10 1 0) with id := 1, place := .done }] }
    looms := live.looms.set 0 { core := { held := held } } }

/-- An item on a trestle or a selvedge unit whose own check failed. -/
def checkFailed (e : Engine) (w : Entry) (r : ItemResult) : State :=
  { live with heddle := { nextId := 1, items := [{ itemOn e w with result := some r }] } }

theorem witness_commit_completes :
    (IdsApart (formedState { status := .ok } []) ∧ AtCommit (formedState { status := .ok } []) 0 1024 (formedItem { status := .ok }) { status := .ok } 1024 ∧
      pastWatchdog (formedState { status := .ok } []) 0 (formedItem { status := .ok }) 1024 = false ∧ bufferHeld (formedState { status := .ok } []) 0 = false ∧
      selfChecked 1 0x10 = true ∧ waitsTally (formedState { status := .ok } []) 0 = false) ∧
    (IdsApart (worded true) ∧ AtCommit (worded true) 0 5 (formedItem { status := .ok }) { status := .ok } 9 ∧
      pastWatchdog (worded true) 0 (formedItem { status := .ok }) 9 = false ∧ bufferHeld (worded true) 0 = false) ∧
    (servingOn (worded false) (.loom 0) = some (formedItem { status := .ok }) ∧ sequenced 0 (formedItem { status := .ok }) (worded false) = true ∧ (worded false).looms[0].core.atCommit = false) ∧
    (IdsApart (formedState { status := .ok, acts := [newRun] } [reserved0]) ∧
      AtCommit (formedState { status := .ok, acts := [newRun] } [reserved0]) 0 5 (formedItem { status := .ok, acts := [newRun] }) { status := .ok, acts := [newRun] } 5 ∧
      pastWatchdog (formedState { status := .ok, acts := [newRun] } [reserved0]) 0 (formedItem { status := .ok, acts := [newRun] }) 5 = false ∧
      bufferHeld (formedState { status := .ok, acts := [newRun] } [reserved0]) 0 = false ∧
      reservedRun (formedState { status := .ok, acts := [newRun] } [reserved0]) 0 = some reserved0 ∧ reserved0.claimed = none ∧ reserved0.deleting = none) ∧
    (AtCommit (formedState { status := .ok } []) 0 1025 (formedItem { status := .ok }) { status := .ok } 1025 ∧
      pastWatchdog (formedState { status := .ok } []) 0 (formedItem { status := .ok }) 1025 = true) ∧
    (IdsApart (signing []) ∧ (∃ i r, AtCommit (signing [(false, 1)]) 0 5 i r 5 ∧ r.output ≠ []) ∧ bufferHeld (signing [(false, 1)]) 0 = true ∧
      (∃ i r, AtCommit (signing []) 0 5 i r 5 ∧ r.verifyOk = false) ∧ bufferHeld (signing []) 0 = false ∧ selfChecked 2 0x22 = true ∧ loomFenced (signing []) 0 = false) ∧
    (∃ i r, servingOn (checkFailed (.trestle 3) (word 0x10 0x61 1 0) { status := .ok, trestleOk := false }) (.trestle 3) = some i ∧ i.result = some r ∧ r.trestleOk = false) ∧
    (∃ i r, servingOn (checkFailed (.selvedge 2) (word 7 0x50 1 0) { status := .ok, verifyOk := false }) (.selvedge 2) = some i ∧ i.result = some r ∧ r.verifyOk = false ∧
      i.faultRestarts = 0) := by
  refine ⟨by unfold IdsApart AtCommit; decide +kernel, by unfold IdsApart AtCommit; decide +kernel, by decide +kernel, by unfold IdsApart AtCommit; decide +kernel,
    by unfold AtCommit; decide +kernel, ⟨by unfold IdsApart; decide +kernel, ⟨_, _, ⟨rfl, .inr ⟨by decide +kernel, rfl, rfl⟩⟩, by decide⟩, by decide +kernel,
      ⟨_, _, ⟨rfl, .inr ⟨by decide +kernel, rfl, rfl⟩⟩, rfl⟩, by decide +kernel⟩, ⟨_, _, rfl, rfl, rfl⟩, ⟨_, _, rfl, rfl, rfl, rfl⟩⟩

def doneItem : Item := { itemOn (.loom 0) (word 1 0x10 1 0 ||| BitVec.ofNat 512 (65536 * 2 ^ 256)) with place := .done, done := some { status := .ok, outputLen := 1, output := [1] } }
def endedState : State := { live with heddle := { nextId := 1, items := [doneItem] } }
def adminDoneEntry : AdminEntry :=
  { id := 3, entry := word 0 0x0C 0 0 ||| BitVec.ofNat 512 (65536 * 2 ^ 256), index := 0, done := some { status := .ok, outputLen := 1, output := [1] } }

theorem witness_completion_write_completes :
    (IdsApart endedState ∧ findItem endedState 0 = some doneItem ∧ portMoves endedState 0 = true ∧ flowHeld endedState doneItem = false ∧
      outputOverlaps endedState doneItem 1 = false) ∧
    (findItem (withAdmin { entry := some adminDoneEntry }) 3 = none ∧ adminWith (withAdmin { entry := some adminDoneEntry }) 3 = some (0, adminDoneEntry) ∧
      portMoves (withAdmin { entry := some adminDoneEntry }) 0 = true ∧ adminOverlaps (withAdmin { entry := some adminDoneEntry }) 0 adminDoneEntry.entry 1 = false) ∧
    (findQueue { live with queues := [{ queue1 with counted := 2 }] } 0 1 = some { queue1 with counted := 2 } ∧ portMoves live 0 = true ∧ live.ports[0].msixEn = true ∧
      live.ports[0].msixFnMask = false ∧
      (live.ports[0].table.find? fun e => e.vector == queue1.vector && !e.masked) = some { vector := 7, address := 0xFEE00040, data := 6, masked := false }) := by
  unfold IdsApart; decide +kernel

theorem witness_checkers_complete :
    (IdsApart (busy (.loom 5) (word 2 0x24 1 0)) ∧ (servingOn (busy (.loom 5) (word 2 0x24 1 0)) (.loom 5)).isSome = true ∧
      loomFenced (busy (.loom 5) (word 2 0x24 1 0)) 5 = false) ∧
    (∃ s : State, IdsApart s ∧ ∃ i, servingOn s (.loom 5) = some i ∧ i.trestle = some 1 ∧ i.faultRestarts = 0) ∧
    ((servingOn (busy (.selvedge 2) (word 7 0x51 1 0)) (.selvedge 2)).isSome = true ∧ (busy (.selvedge 2) (word 7 0x51 1 0)).faults.selv.getLsbD 2 = false) ∧
    (activeJob (busy (.trestle 3) (word 0x10 0x62 1 0)) 3).isSome = true ∧
    (∃ s : State, (servingOn s (.loom 5)).isSome = true ∧ loomFenced s 5 = false ∧ 1 ≤ s.looms[5].mismatch) := by
  refine ⟨by unfold IdsApart; decide +kernel,
    ⟨{ live with heddle := { nextId := 1, items := [{ itemOn (.loom 5) (word 0x21 0x2D 1 0) with trestle := some 1 }] } }, by unfold IdsApart; decide +kernel, _, rfl, rfl, rfl⟩,
    by decide +kernel, by decide +kernel,
    { busy (.loom 5) (word 2 0x24 1 0) with looms := live.looms.set 5 { mismatch := 1 } }, by decide +kernel⟩

/-! ### Errors, ageing -/

theorem witness_errors_complete :
    live.mode.base ≠ .dormant ∧ portFenced live 0 = false ∧ isIdleServe live.mode.base = true ∧ live.mode.base = .serveFull ∧ live.mode.stewardLost = false ∧
    (∃ s : State, s.mode.base = .idle ∧ s.mode.stewardLost = false) ∧
    (∃ s : State, s.mode.base ≠ .dormant ∧ s.farm.slots[0].state ≠ .free) :=
  ⟨by decide +kernel, by decide +kernel, by decide +kernel, by decide +kernel, by decide +kernel, ⟨owned .idle 2, by decide +kernel⟩,
    ⟨{ live with farm := { slots := Vector.replicate 32 { state := .absorbing } } }, by decide +kernel⟩⟩

def benchCal0 : BenchCal := { baseline := 100, lossMax := 20, coeff := -3 }
def measuringState (noBaseline : Bool) : State :=
  { live with
    benches := live.benches.set 2 { measuring := true, noBaseline := noBaseline }
    cal := { benches := List.replicate 16 benchCal0 } }

theorem witness_ageing_completes :
    measurable live 2 = true ∧
    (measurable (measuringState true) 2 = true ∧ (measuringState true).benches[2].measuring = true ∧ (measuringState true).benches[2].noBaseline = true) ∧
    (measurable (measuringState false) 2 = true ∧ (measuringState false).benches[2].measuring = true ∧ (measuringState false).benches[2].noBaseline = false ∧
      (measuringState false).cal.benches[2]? = some benchCal0 ∧ (measuringState false).benches[2].trim < 8 ∧
      100 * benchCal0.baseline - (100 * 90 + benchCal0.coeff * (100 - 100)) ≤ 100 * (benchCal0.lossMax : Int) ∧
      100 * (benchCal0.lossMax : Int) < 100 * benchCal0.baseline - (100 * 70 + benchCal0.coeff * (100 - 100))) := by decide +kernel

/-- R501 at 60 degrees: 40 degrees below 100 add 40 coefficients to the slack. -/
theorem test_loss : lossOf benchCal0 90 60 = 10000 - (9000 - 120) ∧ lossOf benchCal0 90 100 = 1000 := by decide +kernel

/-! ### Admin commands -/

/-- A descriptor of family 0 with these bytes: place and value. -/
def admin (code : Nat) (fields : List (Nat × Nat)) : Entry := BitVec.ofNat 512 (code + (fields.map fun f => f.2 * 2 ^ (8 * f.1)).sum)

def adminEntry (w : Entry) : AdminEntry := { id := 0, entry := w, index := 0 }

/-- The module with that admin entry in hand on port 0. -/
def asked (w : Entry) : State := { withAdmin { enable := true, log2 := 4, entry := some (adminEntry w) } with heddle := { nextId := 1 } }

/-- Slice operands: PASID-less, UID 2, one queue, weight 1, loom cap 1. -/
def sliceOps : Entry := admin 0x01 [(8, 0x80000000), (12, 2), (24, 1), (28, 1), (30, 1)]
/-- Queue operands: slice 0, ring of 16, base 0, vector 7, coalescing count 1 and time 1, poll 1. -/
def queueOps : Entry := admin 0x03 [(10, 4), (12, 7), (14, 1), (24, 1), (26, 1)]

theorem witness_slices_queues_complete :
    (∃ s e, IdsApart s ∧ AdminRuns s 0 0x01 e ∧ freeSliceIndex s 0 = some 0 ∧ sliceRefusal s 0 (operandSlice 0 0 e.entry (allotDrawers s (entryNat e.entry 20 2))) = 0) ∧
    (∃ e, IdsApart (asked sliceOps) ∧ AdminRuns (asked sliceOps) 0 0x01 e ∧ freeSliceIndex (asked sliceOps) 0 = some 1 ∧
      sliceRefusal (asked sliceOps) 0 (operandSlice 0 1 e.entry (allotDrawers (asked sliceOps) (entryNat e.entry 20 2))) ≠ 0) ∧
    (∃ s e, IdsApart s ∧ AdminRuns s 0 0x02 e ∧ findSlice s 0 (entryByte e.entry 8) = some slice0 ∧ sliceHasQueue s 0 0 = false ∧ (slice0.frozen = true → slice0.saved = true)) ∧
    (∃ s e, IdsApart s ∧ AdminRuns s 0 0x03 e ∧ entryByte e.entry 9 ≤ 1 ∧ queueRefusal s 0 e.entry = 0 ∧ findSlice s 0 (entryByte e.entry 8) = some slice0 ∧
      (freeQueueNumber s 0).isSome = true ∧ (freeQueueIndex s 0 0).isSome = true) ∧
    (∃ s e, IdsApart s ∧ AdminRuns s 0 0x04 e ∧ isWorking s.mode.base = true ∧ findQueue s 0 (entryNat e.entry 8 2) = some queue1 ∧ queue1.owned = 0) := by
  refine ⟨⟨{ asked sliceOps with slices := [], queues := [] }, adminEntry sliceOps, ?_⟩, ⟨adminEntry sliceOps, ?_⟩,
    ⟨{ asked (admin 2 []) with queues := [] }, adminEntry (admin 2 []), ?_⟩, ⟨asked queueOps, adminEntry queueOps, ?_⟩,
    ⟨asked (admin 4 [(8, 1)]), adminEntry (admin 4 [(8, 1)]), ?_⟩⟩ <;>
    unfold IdsApart AdminRuns <;> decide +kernel

def frozen0 : Slice := { slice0 with frozen := true }
/-- A certified identity record of a module with this serial. -/
def identityFront (n : Nat) : Bytes := ascii "AQID" ++ leBytes 2 1 ++ leBytes 1 0 ++ zeros 1 ++ leBytes 8 n ++ zeros 8

def identityRec (n : Nat) : IdentityRecord where
  front := identityFront n
  dsa := zeros 2592
  ec := zeros 97
  ek := zeros 1568
  x448 := zeros 56
  rest := zeros 15
  cert := blockFor (Config.romKey .draftDsa) (Config.romKey .draftEc) (ascii "AQID-HF")
    (identityFront n ++ zeros 2592 ++ zeros 97 ++ zeros 1568 ++ zeros 56 ++ zeros 15)

theorem identity_certified (n : Nat) : certOk (identityRec n) = true := by
  rw [certOk, horsefortVerifies, identityRec]
  exact block_for_holds _ _ _ _

theorem identity_movable : movable (identityRec 8) = true ∧ movable (identityRec 9) = true := by
  unfold movable
  rw [identity_certified, identity_certified]
  decide +kernel

/-- A slice without keys: 10 drawers, one digest slot, one queue to allot, weight 1, cap 1. -/
def body0 : SliceBody where
  uid := 77
  drawers := 10
  digestSlots := 1
  queueAllot := 1
  tallyAllot := 0
  weight := 1
  prioCeil := 0
  loomCap := 1
  trestleShare := 0
  queues := []
  runs := []
  tally := []

/-- Bytes 0 to 127 of its image: source 9, destination 0, nonce 5. -/
def header0 : Bytes :=
  ascii "AQSI" ++ leBytes 2 1 ++ zeros 2 ++ leBytes 8 9 ++ leBytes 8 0 ++ leBytes 4 0x96400001 ++ leBytes 4 64 ++ leBytes 16 5 ++ leBytes 8 77 ++ List.replicate 32 7
    ++ zeros 12 ++ zeros 28

/-- The key that opens it at `s`. -/
def key0 (s : State) : Bytes :=
  imageKey (kemDecapsOf 3 (identityKey s 3) (zeros 1568)) (xAgree 2 (identityKey s 4) (zeros 56)) header0 (zeros 1568) (zeros 56)

/-- Its ciphertext and its tag. -/
def cipher0 (s : State) : Bytes := gcmCipher (key0 s) (slice_ header0 88 12) (bodyBytes body0)
def tag0 (s : State) : Bytes := gcmTag (key0 s) (slice_ header0 88 12) header0 (cipher0 s)

def imageOf (s : State) : SliceImage where
  header := header0
  source := identityRec 9
  ciphertext := zeros 1568
  ephemeral := zeros 56
  body := cipher0 s
  tag := tag0 s
  signature := zeros 4627
  signed :=
    { key := zeros 2592, context := ascii "AQSI-SRC", message := sha3_512 (header0 ++ identityBytes (identityRec 9) ++ zeros 1568 ++ zeros 56 ++ cipher0 s ++ tag0 s) }

theorem image_signed (s : State) : imageSigned (imageOf s) = true := by simp [imageSigned, imageOf, identityRec]

/-- A slice with a queue, two runs and a tally entry. -/
def body1 : SliceBody :=
  { body0 with
    queues := [{ index := 3, express := true, log2 := 4, vector := 2047, coalCount := 9, coalTime := 300, poll := 2, head := 70000, tail := 131071, base := 0x1122334455667788 }]
    runs := [{ first := 2, length := 1, kind := 4, family := 5, set := 1, policy := 0x40000001, generation := 65535, content := [1, 2, 3] },
      { first := 5, length := 2, kind := 1, family := 2, set := 1, policy := 7, generation := 1, content := List.replicate 200 4 }]
    tally := [{ keyId := 2 ^ 40 + 1, first := 2, state := 2, family := 5, set := 1, handoff := 99 }] }

/-- A body's bytes hold the body, and make the image's length (R457). -/
theorem test_body_bytes : bodyOf (bodyBytes body1) = some body1 ∧ (bodyBytes body1).length + 15483 = imageLength body1 := by decide +kernel

theorem image_opens (s : State) : openImage s (imageOf s) = some (bodyBytes body0) := gcmOpen_gcmCipher _ _ _ _

theorem image_body (s : State) : receivedBody s (imageOf s) = some body0 := by
  unfold receivedBody
  rw [image_opens]
  show bodyOf (bodyBytes body0) = some body0
  decide +kernel

/-- The owned module with an admin entry in hand. -/
def askedOwned (w : Entry) : State :=
  { owned .serveFull 2 with ports := live.ports.set 0 { port0 with admin := { enable := true, log2 := 4, entry := some (adminEntry w) } }, heddle := { nextId := 1 } }

/-- Input of 9,104 bytes, output room. -/
def saveOps : Entry := admin 0x06 [(24, 9104), (28, 65536)]
def restoreOps : Entry := admin 0x07 [(8, 0x80000000), (24, 15547)]

/-- The module that is to take the image: no slice, and an owner whose digest the image names. -/
def receiving : State :=
  { askedOwned restoreOps with slices := [], queues := [], backup := { chest := { valid := true, ownerSet := true, drk := [1, 2], ork := [3], ownerDigest := List.replicate 32 7 } } }

theorem receiving_takes : restoreRefusal receiving 0 restoreOps (some (imageOf receiving)) = 0 := by
  unfold restoreRefusal
  rw [if_neg (by decide +kernel), if_neg (by decide +kernel), if_neg (by decide +kernel), if_neg (by decide +kernel)]
  dsimp only
  rw [if_neg (by decide +kernel), if_neg (by decide +kernel), show movable (imageOf receiving).source = true from identity_movable.2, image_signed, if_neg (by decide +kernel),
    if_neg (by decide +kernel), if_neg (by decide +kernel), if_neg (by decide +kernel), image_opens, image_body]
  decide +kernel

def saving : State := { askedOwned saveOps with slices := [frozen0], queues := [] }

theorem saving_goes : saveRefusal saving 0 saveOps (identityRec 8) 5 = 0 := by
  unfold saveRefusal
  rw [identity_movable.1]
  decide +kernel

theorem witness_moving_completes :
    (∃ s e, IdsApart s ∧ AdminRuns s 0 0x05 e ∧ isWorking s.mode.base = true ∧ findSlice s 0 (entryByte e.entry 8) = some slice0 ∧ slice0.frozen = false) ∧
    (∃ (s : State) (e : AdminEntry), IdsApart s ∧ s.ports[0].admin.entry = some e ∧ e.wait = .freeze 0 ∧ freezeDrained s 0 0 = true) ∧
    (∃ s e, IdsApart s ∧ AdminRuns s 0 0x08 e ∧ isWorking s.mode.base = true ∧ findSlice s 0 (entryByte e.entry 8) = some frozen0) ∧
    (∃ s e, IdsApart s ∧ AdminRuns s 0 0x06 e ∧ entryByte e.entry 9 = 0 ∧ inputLen e.entry = 9104 ∧ saveRefusal s 0 e.entry (identityRec 8) 5 = 0 ∧
      findSlice s 0 (entryByte e.entry 8) = some frozen0 ∧ imageLength (sliceBody frozen0 5 s) ≤ outputCap e.entry) ∧
    (∃ s e, IdsApart s ∧ AdminRuns s 0 0x07 e ∧ entryByte e.entry 12 = 0 ∧ (∃ m, restoreRefusal s 0 e.entry (some m) = 0 ∧ receivedBody s m = some body0) ∧ freeSliceIndex s 0 = some 0) := by
  refine ⟨⟨asked (admin 5 []), adminEntry (admin 5 []), ?_⟩,
    ⟨{ asked (admin 5 []) with ports := live.ports.set 0 { port0 with admin := { entry := some { adminEntry (admin 5 []) with wait := .freeze 0 } } } }, _, ?_, rfl, rfl, ?_⟩,
    ⟨{ asked (admin 8 []) with slices := [frozen0] }, adminEntry (admin 8 []), ?_⟩,
    ⟨saving, adminEntry saveOps, by unfold IdsApart; decide +kernel, by unfold AdminRuns; decide +kernel, by decide +kernel, by decide +kernel, saving_goes, by decide +kernel⟩,
    ⟨receiving, adminEntry restoreOps, by unfold IdsApart; decide +kernel, by unfold AdminRuns; decide +kernel, by decide +kernel,
      ⟨imageOf receiving, receiving_takes, image_body receiving⟩, by decide +kernel⟩⟩ <;>
    (try unfold IdsApart) <;> (try unfold AdminRuns) <;> decide +kernel

theorem witness_port_reads_complete :
    (∃ s e, AdminRuns s 0 0x09 e ∧ 8 ≤ entryByte e.entry 8 ∧ entryByte e.entry 8 ≤ 20 ∧
      baseAligned (BitVec.ofNat 64 (entryNat e.entry 16 8)) (16 * 2 ^ entryByte e.entry 8) = true) ∧
    (∃ s e, AdminRuns s 0 0x0A e) ∧
    (WriteReaches live 0 ∧ (live.ports[0].trace.produced - 0).toNat ≤ 2 ^ live.ports[0].trace.log2) ∧
    (∃ s e, AdminRuns s 0 0x0C e ∧ 2048 ≤ outputCap e.entry) ∧ (∃ s e, AdminRuns s 0 0x0D e ∧ 9088 ≤ outputCap e.entry) ∧
    (∃ s e, AdminRuns s 0 0x0B e ∧ 0 < entryNat e.entry 12 4 ∧ entryNat e.entry 12 4 ≤ 4096 ∧ 32 * entryNat e.entry 12 4 ≤ outputCap e.entry) ∧
    (∃ s e, AdminRuns s 0 0x80 e ∧ stewardBusy s = false ∧ s.envelopes = [] ∧ holdEnvelope.length = inputLen e.entry ∧ envelopeForm holdEnvelope = true ∧
      envelopeAccepted s holdEnvelope = true ∧ innerOperand (envCode holdEnvelope) holdEnvelope.body = some .hold ∧ heldInWake s = false) := by
  refine ⟨⟨asked (admin 9 [(8, 8), (16, 4096)]), adminEntry (admin 9 [(8, 8), (16, 4096)]), ?_⟩, ⟨asked (admin 0x0A []), adminEntry (admin 0x0A []), ?_⟩, ?_,
    ⟨asked (admin 0x0C [(28, 2048)]), adminEntry (admin 0x0C [(28, 2048)]), ?_⟩, ⟨asked (admin 0x0D [(28, 9088)]), adminEntry (admin 0x0D [(28, 9088)]), ?_⟩,
    ⟨asked (admin 0x0B [(12, 2), (28, 64)]), adminEntry (admin 0x0B [(12, 2), (28, 64)]), ?_⟩, ⟨askedOwned (admin 0x80 [(24, 4760)]), adminEntry (admin 0x80 [(24, 4760)]), by unfold AdminRuns; decide +kernel, by decide +kernel, by decide +kernel,
      by decide +kernel, by decide +kernel, accepted (by decide +kernel) rfl (block_for_holds _ _ _ _) rfl rfl (by show _ = (0 : Word) + 1; decide +kernel), by decide +kernel, by decide +kernel⟩⟩ <;>
    (try unfold WriteReaches) <;> (try unfold AdminRuns) <;> decide +kernel

/-! ### Digest farm, bobbin -/

/-- Slot 1 holds a SHA-256 stream of 128 bytes of port 0's slice 0. -/
def stream (st : SlotState) (taken : Nat) : DigestSlotState where
  state := st
  alg := 1
  gen := 1
  absorbed := 128
  total := 128
  length := 128
  taken := taken
  data := List.replicate 128 0

def farming (x : DigestSlotState) : State := { live with farm := { slots := (Vector.replicate 32 {}).set 0 x } }

theorem witness_digest_farm_completes :
    (WriteReaches live 0 ∧ allocReason live 0 (fieldOf (0x01000000 : Word) 24 8) (fieldOf (0x01000000 : Word) 8 8) = 0) ∧
    (WriteReaches (farming (stream .absorbing 0)) 0 ∧ ownsSlot (farming (stream .absorbing 0)) 0 0 = true ∧
      (slotOf (farming (stream .absorbing 0)) 0).state = .absorbing ∧ dataOk (slotOf (farming (stream .absorbing 0)) 0) 128 512 = true ∧
      dataOk (slotOf (farming (stream .absorbing 0)) 0) 132 4 = false ∧ finalOk (slotOf (farming (stream .absorbing 0)) 0) 0 = true ∧
      coreServes (.sha2 3) 1 = true ∧ blockReady (slotOf (farming (stream .absorbing 0)) 0) = true) ∧
    (blocksOf 1 128 = 3 ∧ (slotOf (farming (stream .finalising 3)) 0).state = .finalising ∧ blocksOf 1 (slotOf (farming (stream .finalising 3)) 0).length.toNat ≤ 3 ∧
      WriteReaches (farming (stream .finalising 3)) 0 ∧ ownsSlot (farming (stream .finalising 3)) 0 0 = true) ∧
    (barOpen (farming (stream .done 3)) 0 = true ∧ (slotOf (farming (stream .done 3)) 0).state = .done) := by
  unfold WriteReaches; decide +kernel

def bobbinAt (b : Bobbin) : State := { live with bobbin := b }
def seeding : Bobbin := { state := .starting, settled := true, passed := true, live := 0xFF, instances := Vector.replicate 17 { instantiated := true } }

theorem witness_bobbin_completes :
    ((bobbinAt {}).bobbin.state = .off ∧ live.mode.fwDone = true ∧ live.mode.base ≠ .dormant ∧ live.power.plan ≠ .wakeOnly) ∧
    (bobbinAt { seeding with passed := false }).bobbin.passed = false ∧ (bobbinAt { seeding with seedQueue := [] }).bobbin.seedQueue = [] ∧
    (testsRun live = true ∧ live.bobbin.live.getLsbD 7 = true ∧ pairFails live (.repetition (List.replicate 82 false)) = true) ∧ (testsRun (bobbinAt { seeding with live := 7 }) = true ∧ popcount (7 : BitVec 8) < 4) ∧
    (bobbinAt { state := .retryWait }).bobbin.state = .retryWait ∧ (bobbinAt { live.bobbin with retesting := true }).bobbin.retesting = true ∧
    (OwnerRuns (inHand .idle 2 .bobbinRestart) .bobbinRestart ∧ (inHand .idle 2 .bobbinRestart).bobbin.state = .serving) ∧
    (OwnerRuns { inHand .idle 2 .bobbinRestart with bobbin := { state := .failed } } .bobbinRestart) := by
  unfold OwnerRuns; decide +kernel

def counted (n : Nat) (queue : List InstId) : State :=
  bobbinAt { live.bobbin with instances := live.bobbin.instances.set 2 { instantiated := true, count := n }, seedQueue := queue }

/-- An instance's request at the head, with half a block left over from the last seed. -/
def seedDue (i : InstId) : State := bobbinAt { live.bobbin with seedQueue := [i], spare := zeros 16, lastBlock := [] }

theorem seed_due_new (i : InstId) : seedRepeats (seedDue i) = false := by
  have h : (conditionBlock (seedDue i)).1 ≠ [] := fun h => by
    have h := congrArg List.length h
    simp [conditionBlock, sha3_256, primBytes] at h
  have hl : (seedDue i).bobbin.lastBlock = [] := rfl
  have hs : ((seedDue i).bobbin.spare.length == 16) = true := rfl
  simp only [seedRepeats, hl, hs, Bool.not_true, Bool.false_and, Bool.or_false]
  simpa using h

theorem witness_reseeding_completes :
    ((counted (2 ^ 20) []).bobbin.instances[2].instantiated = true ∧ (counted (2 ^ 20) []).bobbin.instances[2].pending = false ∧
      2 ^ 20 ≤ (counted (2 ^ 20) []).bobbin.instances[2].count) ∧
    ((counted 4294967296 []).bobbin.instances[2].stalled = false ∧ 2 ^ 32 ≤ (counted 4294967296 []).bobbin.instances[2].count) ∧
    (testsRun (seedDue 2) = true ∧ (seedDue 2).bobbin.seedQueue = 2 :: [] ∧ seedRepeats (seedDue 2) = false ∧ predArrives (seedDue 2) 2 = false) := by
  refine ⟨by decide +kernel, by decide +kernel, by decide +kernel, by decide +kernel, seed_due_new 2, by decide +kernel⟩

/-! ### Cards, ceremonies -/

/-- The published check values of CRC-16 and CRC-32 over the digits 1 to 9, and the CRC7 of 0x40 and four zero bytes. -/
theorem test_crcs : crc16 (ascii "123456789") = 0x29B1 ∧ crc32 (ascii "123456789") = 0xCBF43926 ∧ crc7 0x4000000000 40 0 = 0x4A := by decide +kernel

/-- Vendor 0x1D5F, product 0xC256, number 44, its CRC7 and the end bit. -/
def identity44 : Nat :=
  let top := 0x1D5F * 2 ^ 112 + 0xC256 * 2 ^ 96 + 44 * 2 ^ 8
  top + 2 * (crc7 (top / 256) 120 0).toNat + 1

/-- A blank card that takes address `a`: its status word names slot 0 in standby. -/
def cardFound (a : Nat) : CardData where
  identity := BitVec.ofNat 136 (0x02 * 2 ^ 128 + identity44)
  rca := [some (cardFrame false opSetRca a 0x8000000)]
  poll := [some (cardFrame false opPollStatus a 0x8000000)]
  switch := some (cardFrame false opSwitch a 0xC000000)
  pattern := { tag := 0, data := (List.range 64).map patternByte, crcs := lineCrcs 4 0 ((List.range 64).map patternByte) }
  tabLocked := false
  headers := (zeros 512, zeros 512)
  shares := []
  image := (none, none)
  recovery := (none, none)
  rereads := []

def slot0 (c : CardState) : State := { live with cards := { slots := #v[c, {}, {}, {}] } }
def plain : CardState := { cdet := true, present := true, powered := true }

/-- The good answers of a card at the lowest free address, in slot 0. -/
abbrev AnswersAt (s : State) : Prop :=
  identityOk (cardFound (freeAddress s)).identity = true ∧ (firstAnswer opSetRca (freeAddress s) ((cardFound (freeAddress s)).rca.take 1)).isSome = true ∧
    (cardFound (freeAddress s)).poll.head? = some (some (cardFrame false opPollStatus (freeAddress s) 0x8000000)) ∧
    shortStatus opPollStatus (freeAddress s) (cardFrame false opPollStatus (freeAddress s) 0x8000000) = some 0x8000000 ∧ statusSlot 0x8000000 = 0

theorem witness_card_slots_complete :
    ((cardOf live 0).present = false ∧ live.mode.base ≠ .dormant) ∧
    ((cardOf (slot0 plain) 0).present = true ∧ (cardOf (slot0 plain) 0).powered = true ∧ cardUsable (cardOf (slot0 (card 1 [])) 0) = true) ∧
    (cardsRun (slot0 plain) = true ∧ answersShort opPollStatus = true ∧ (none : Option (BitVec 48)).bind (shortStatus opPollStatus 0) = none ∧
      (some 0 : Option (BitVec 48)).bind (shortStatus opPollStatus 0) = none ∧ (some (cardFrame false opPollStatus 0 5) : Option (BitVec 48)).bind (shortStatus opPollStatus 0) = some 5) ∧
    (let s := slot0 { plain with identified := true, busy := true }
     (cardOf s 0).busy = true ∧ s.power.plan ≠ .wakeOnly ∧ cardsRun s = true ∧ (cardOf s 0).present = true ∧ (cardOf s 0).cwp = false) ∧
    ((cardOf (slot0 plain) 0).busy = false) := by decide +kernel

/-- Cards in slots 0 and 1. -/
def slots01 (a b : CardState) : State := { live with cards := { slots := #v[a, b, {}, {}] } }

/-- An identified card of the identity that `cardFound` answers. -/
def twin : CardState := { card 2 [] with identity := identityOf (cardFound 1).identity }

/-- In the 10 ms after a failed switch. -/
def falling : CardState := { plain with powered := false, speedLimit := true }

theorem witness_card_identification_completes :
    (cardsRun (slot0 plain) = true ∧ busBusy (slot0 plain) = false ∧ awaitsIdent (cardOf (slot0 plain) 0) = true ∧ (cardOf (slot0 plain) 0).stale = false ∧
      identityOk { cardFound 1 with identity := 0 }.identity = false ∧ AnswersAt (slot0 plain)) ∧
    (awaitsIdent (cardOf (slots01 plain twin) 0) = true ∧ AnswersAt (slots01 plain twin) ∧ (cardOf (slots01 plain twin) 1).present = true ∧
      (cardOf (slots01 plain twin) 1).identified = true ∧ (cardOf (slots01 plain twin) 1).identity = identityOf (cardFound (freeAddress (slots01 plain twin))).identity) ∧
    (AnswersAt (slots01 plain plain) ∧ awaitsIdent (cardOf (slots01 plain plain) 1) = true ∧ ∀ k : CardSlot, (cardOf (slots01 plain plain) k).identified = false) ∧
    ((∀ k : CardSlot, k ≠ 0 → awaitsIdent (cardOf (slot0 plain) k) = false ∧ (cardOf (slot0 plain) k).found = none ∧ (cardOf (slot0 plain) k).identified = false) ∧
      (cardOf (slot0 plain) 0).speedLimit = false ∧ switchOk 1 (cardFound 1) = true ∧ switchOk 1 { cardFound 1 with switch := none } = false ∧ freeAddress (slot0 plain) = 1) ∧
    (cardsRun (slot0 falling) = true ∧ busBusy (slot0 falling) = false ∧ inFallback (cardOf (slot0 falling) 0) = true ∧ AnswersAt (slot0 falling) ∧ (slot0 falling).power.plan ≠ .wakeOnly ∧
      ∀ k : CardSlot, k ≠ 0 → awaitsIdent (cardOf (slot0 falling) k) = false ∧ (cardOf (slot0 falling) k).found = none ∧ (cardOf (slot0 falling) k).identified = false) ∧
    (let s : State := { slots01 falling plain with power := { live.power with plan := .wakeOnly } }
     inFallback (cardOf s 0) = true ∧ s.power.plan = .wakeOnly ∧ inUse (cardOf s 1) = true ∧ busBusy s = false) := by
  refine ⟨?_, ?_, ?_, ?_, ?_, ?_⟩ <;> decide +kernel

/-- A ceremony block of a first owner: M = 2, N = 3, for a serial. -/
def block1 (serial : Nat) : CeremonyBlock :=
  { front := ascii "AQCE" ++ [1, 2, 3, 0] ++ leBytes 8 serial ++ leBytes 4 0 ++ zeros 4, newOwner := List.replicate 2689 8, signature := zeros 4736 }

/-- A recovery image with this ceremony. -/
def recoveryFront (c : Option CeremonyBlock) : Bytes :=
  ascii "AQRI" ++ leBytes 2 1 ++ leBytes 2 0x9640 ++ leBytes 4 (if c.isSome then 2 else 0) ++ leBytes 4 3 ++ leBytes 4 8832
    ++ leBytes 4 (match c with | some b => (ceremonyBytes b).length | none => 0) ++ zeros 40

def recoveryImage (c : Option CeremonyBlock) : RecoveryImage where
  front := recoveryFront c
  firmware := [1, 2, 3]
  firmwareSig := blockFor (Config.romKey .draftDsa) (Config.romKey .draftEc) (ascii "AQFW-HF") (recoveryFront c ++ [1, 2, 3])
  ceremony := c
  draft := draft

theorem recovery_signed (c : Option CeremonyBlock) :
    horsefortVerifies (ascii "AQFW-HF") ((recoveryImage c).front ++ (recoveryImage c).firmware) (recoveryImage c).firmwareSig = true := block_for_holds _ _ _ _

theorem recovery_verifies : imageVerifies (recoveryImage none) = true ∧ imageVerifies (recoveryImage (some (block1 4))) = true := by
  unfold imageVerifies
  rw [recovery_signed, recovery_signed]
  decide +kernel

/-- Recovery on port 0, an image received, no ceremony. -/
def recovering (upload : Bytes) : State :=
  { live with
    mode := { base := .recovery, cause := 12, straps := some straps0, fwDone := true, fwRuns := true }
    draft := { upload := upload }
    backup := {} }

/-- The shares of a first ceremony are written. -/
def writing (w : Nat) : State :=
  { recovering [] with
    cards := { slots := #v[card 1 [], {}, {}, {}] }
    ceremony := { state := 4, kind := 1, m := 2, n := 3, written := w, block := some (block1 0), ork := List.replicate 32 5, setId := 9, coeffs := List.replicate 32 1 } }

/-- A share of set 9 at x, of the key 5 5 ... with coefficients 1, its tag as R434 forms it. -/
def share (x : Nat) : ShareRecord :=
  let r : ShareRecord :=
    { setId := 9, m := 2, n := 3, x := x, splitSerial := 0, seqAtSplit := 3, value := shareOf 2 (List.replicate 32 5) (List.replicate 32 1) x, owner := [7], tag := [] }
  { r with tag := setTag (List.replicate 32 5) r }

/-- Hold with an empty chest and two shares of one set. -/
def restoring : State :=
  { live with
    mode := { live.mode with base := .hold, cause := 14 }
    backup := {}
    cards := { slots := #v[card 1 [share 1], card 2 [share 2], {}, {}] } }

theorem shares_reconstruct : reconstruct [share 1, share 2] = List.replicate 32 5 := by decide +kernel

theorem restoring_shares : presentShares restoring = [share 1, share 2] := by rfl

theorem set_key_share : setKey restoring (share 1) = some (List.replicate 32 5) := by
  have h : (((choices (share 1).m (sharesOfSet restoring (share 1))).take 7).map reconstruct) = [List.replicate 32 5] := by
    unfold sharesOfSet
    rw [restoring_shares]
    decide +kernel
  have hm : decide (2 ≤ (share 1).m) = true := rfl
  have ht : (share 1).tag = setTag (List.replicate 32 5) (share 1) := rfl
  unfold setKey
  rw [h, List.find?_cons_of_pos]
  rw [hm, ht]
  simp

theorem next_share_length (w : Nat) : (shareRecordBytes (nextShare (writing w) (block1 0))).length = 2785 := by
  have h (r : ShareRecord) (hv : r.value.length = 32) (ho : r.owner.length = 2689) (ht : r.tag.length = 32) : (shareRecordBytes r).length = 2785 := by
    simp [shareRecordBytes, hv, ho, ht]
  exact h _ (by simp [nextShare, shareOf]) List.length_replicate (primBytes_length _ _ _)

/-- The acknowledgements of a record's six blocks. -/
def written6 (ok : Bool) : CardWrite := { acks := List.replicate 6 0b0110, readBackOk := ok }

theorem recovery_fits (c : Option CeremonyBlock) : sourceFits (recovering (recoveryBytes (recoveryImage c))) .port0 (recoveryImage c) = true := by
  show (recoveryBytes (recoveryImage c) == recoveryBytes (recoveryImage c) && _) = true
  rw [beq_self_eq_true]
  rfl

theorem witness_ceremonies_complete :
    ((recovering (recoveryBytes (recoveryImage none))).mode.base = .recovery ∧ (recovering []).mode.stewardLost = false ∧ (recovering []).ceremony.state = 0 ∧
      imageVerifies (recoveryImage none) = true ∧ sourceFits (recovering (recoveryBytes (recoveryImage none))) .port0 (recoveryImage none) = true ∧
      (imageFlags (recoveryImage none)).testBit 0 = false ∧ imageVerifies (recoveryImage (some (block1 4))) = true ∧
      sourceFits (recovering (recoveryBytes (recoveryImage (some (block1 4))))) .port0 (recoveryImage (some (block1 4))) = true ∧
      (imageFlags (recoveryImage (some (block1 4)))).testBit 0 = false ∧ ceremonyCheck (recovering []) (block1 4) ≠ 0) ∧
    ((writing 0).ceremony.block = some (block1 0) ∧ (writing 0).mode.base = .recovery ∧ cardsRun (writing 0) = true ∧ takesShare (writing 0) (cardOf (writing 0) 0) = true ∧
      busBusy (writing 0) = false ∧ (cardOf (writing 0) 0).cwp = false ∧ (writing 0).ceremony.written + 1 < cerN (block1 0) ∧
      ∀ ok, (acksOk (copyBlocks (shareRecordBytes (nextShare (writing 0) (block1 0))).length + if (cardOf (writing 0) 0).blank = true then 2 else 0) (written6 ok).acks &&
        (written6 ok).readBackOk) = ok) ∧
    (takesShare (writing 2) (cardOf (writing 2) 0) = true ∧ cerN (block1 0) ≤ (writing 2).ceremony.written + 1 ∧ cerKind (block1 0) = 1 ∧ (writing 2).ceremony.state = 4 ∧
      (acksOk (copyBlocks (shareRecordBytes (nextShare (writing 2) (block1 0))).length + if (cardOf (writing 2) 0).blank = true then 2 else 0) (written6 true).acks &&
        (written6 true).readBackOk) = true) ∧
    (restoring.mode.base = .hold ∧ restoring.mode.cause = 14 ∧ restoring.backup.chest.valid = false ∧ cardsRun restoring = true ∧ stewardDraws restoring = true ∧
      busBusy restoring = false ∧ setQuorum restoring = some (share 1, List.replicate 32 5)) := by
  rw [next_share_length, next_share_length]
  refine ⟨⟨rfl, rfl, rfl, recovery_verifies.1, recovery_fits _, by decide +kernel, recovery_verifies.2, recovery_fits _, by decide +kernel, by decide +kernel⟩,
    ⟨rfl, rfl, rfl, by decide +kernel, rfl, rfl, by decide +kernel, by decide +kernel⟩, by decide +kernel, rfl, rfl, rfl, rfl, by decide +kernel, rfl, ?_⟩
  unfold setQuorum
  rw [restoring_shares, List.findSome?_cons, set_key_share]
  rfl

/-! ### Seed wait -/

/-- Not yet seeded: an item waits for seeds, one is parked, an admin command and a debug challenge wait too. -/
def unseeded : State :=
  { withAdmin { enable := true, log2 := 4, entry := some { id := 5, entry := word 0 1 0 0, index := 0, wait := .seed } } with
    mode := { live.mode with seeded := false }
    bobbin := { state := .starting }
    heddle := { nextId := 8, items := [{ itemOn .steward (word 1 0x10 1 0) with place := .seedWait, engine := none },
      { itemOn .steward (word 1 0x10 1 0) with id := 1, place := .parked, engine := none }] }
    life := { challenges := [(7, 0, 9)] } }

theorem witness_seed_wait_completes :
    (IdsApart unseeded ∧ unseeded.mode.seeded = false ∧ (∃ i, findItem unseeded 0 = some i ∧ portStopped unseeded i.port = false ∧ i.place = .seedWait) ∧
      (∃ i, findItem unseeded 1 = some i ∧ portStopped unseeded i.port = false ∧ i.place = .parked ∧ needsRandom unseeded i = true) ∧
      (findItem unseeded 5 = none ∧ ∃ x, adminWith unseeded 5 = some (0, x) ∧ x.wait = .seed ∧ portStopped unseeded 0 = false) ∧
      (findItem unseeded 7 = none ∧ adminWith unseeded 7 = none ∧ (unseeded.life.challenges.find? fun c => c.1 == 7) = some (7, 0, 9))) ∧
    (IdsApart live ∧ live.mode.seeded = true) ∧
    portStopped { unseeded with ports := unseeded.ports.set 0 { port0 with bme := false } } 0 = true := by
  refine ⟨⟨by unfold IdsApart; decide +kernel, rfl, ⟨_, rfl, rfl, rfl⟩, ⟨_, rfl, rfl, rfl, by decide +kernel⟩, ⟨rfl, _, rfl, rfl, rfl⟩, by decide +kernel⟩,
    by unfold IdsApart; decide +kernel, by decide +kernel⟩

/-! ### The inside of a loom -/

/-- R196: the Montgomery factors invert 2^32 modulo each modulus. -/
theorem test_montgomery : ∀ q ∈ [3329, 8380417, 12289], 2 ^ 32 * montgomeryInverse q % q = 1 := by decide +kernel

/-- R202, R205: shares make the value they were made from, at both orders and after a refresh. -/
theorem test_shares :
    let v : List Word := [0, 1, 3328, 5, 6, 7, 8, 9]
    let mask (k : Nat) : Word := BitVec.ofNat 32 (k * 2654435761 + 12345)
    ∀ order ∈ [1, 2], ∀ sh ∈ [Sharing.arith 3329, .boolean],
      valueOf (maskWord sh order mask v) = v ∧ valueOf (refreshWord order mask (maskWord sh order mask v)) = v ∧ (maskWord sh order mask v).shares.length = order + 1 := by
  decide +kernel

/-- Sums, a quotient and a root in IEEE 754's binary64: 1 + 2, 0.1 + 0.2, 1 / 3, the root of 2; 2.5 rounds to 2. -/
theorem test_binary64 :
    fpOp 1 0x3FF0000000000000 0x4000000000000000 0 = 0x4008000000000000 ∧ fpOp 1 0x3FB999999999999A 0x3FC999999999999A 0 = 0x3FD3333333333334 ∧
    fpOp 5 0x3FF0000000000000 0x4008000000000000 0 = 0x3FD5555555555555 ∧ fpOp 6 0x4000000000000000 0 0 = 0x3FF6A09E667F3BCD ∧ fpToInt 0x4004000000000000 = 2 := by
  decide +kernel

/-- A microword: SEQ, TARGET, COND, COND_SENSE, COUNTERS, IMMEDIATE. -/
def mword (seq target cond sense counters imm : Nat) : Microword :=
  BitVec.ofNat 160 (seq * 2 ^ 157 + target * 2 ^ 145 + cond * 2 ^ 140 + sense * 2 ^ 139 + counters * 2 ^ 48 + imm * 2 ^ 16)

/-- Load counter 0 with 3; count down; branch back while it is not zero; COMMIT. Word 9 is a RETURN. -/
def loop (a : Nat) : Microword :=
  match a with
  | 1 => mword 0 0 0 0 0x08 3
  | 2 => mword 0 0 0 0 0x10 0
  | 3 => mword 2 2 0x01 1 0 0
  | 4 => mword 7 0 0 0 0 0
  | _ => mword 4 0 0 0 0 0

def loopContext : LoomContext where
  order := 1
  item := 0
  entry := word 0xC0 1 0 0
  key := []
  cached := none
  footprint := 0
  watchdog := 1
  word := loop
  inputAt := fun _ => 0
  reachable := 0
  outputFree := true
  room := false
  signs := false
  trestleDone := false

/-- R230, R231, R233: the loop takes eight words to its COMMIT; a RETURN on an empty micro-stack is a routine error. -/
theorem test_routine :
    let c := (List.range 12).foldl (fun c _ => loomCycle loopContext c) (startCore 0 1 none {})
    c.atCommit = true ∧ c.addr = 4 ∧ c.cycles = 8 ∧ c.counters[0] = 0 ∧ c.error = false ∧ (loomCycle loopContext (startCore 0 9 none {})).error = true := by
  decide +kernel

/-! ### Durable writes, debug port, the whole module -/

def tallyWriting (toB : Bool) : State := { live with flash := { live.flash with tally := [{ tallyRec with writing := some (toB, copyLive) }] } }
def debugging : State := { live with life := { state := 4 }, mode := { live.mode with base := .analysis } }

theorem witness_durable_and_debug_complete :
    (∀ toB : Bool, (tallyWriting toB).flash.tally.find? (fun t => t.number == tallyRec.number) = some { tallyRec with writing := some (toB, copyLive) } ∧
      (tallyWriting toB).faults.flashFenced = false) ∧
    (debugOpen debugging = true ∧ debugging.life.state = 4 ∧ debugging.life.debug = false) ∧
    (debugOpen live = false ∧ live.mode.base ≠ .dormant ∧ live.fuses.fused.getLsbD 22 = false ∧ live.tamper.active.getLsbD 22 = false ∧ live.tamper.stimulus ≠ some 22 ∧
      compatOn live = false) := by decide +kernel

theorem witness_stage_sum : (([(.weight 3, 5), (.loomCap 3, 64), (.idleTimeout, 9)] : List (StagedField × Nat)).map fun e => (entryBytes e).1).Nodup := by decide +kernel

theorem witness_fused_sources_stay_disabled :
    (∃ t, exec .secondsCheckpoint { live with fuses := { live.fuses with fused := 3 } } = .next t) ∧ ({ live with fuses := { live.fuses with fused := 3 } } : State).fuses.fused.getLsbD 1 = true ∧
    (OwnerRuns (inHand .hold 5 (.tamperFuse 0)) (.tamperFuse 0) ∧ quorumStands (inHand .hold 5 (.tamperFuse 0)) = true) :=
  ⟨⟨_, rfl⟩, by decide +kernel, by unfold OwnerRuns; decide +kernel⟩

theorem witness_challenge_nonce :
    (usbOpen challenged 0 = true ∧ challenged.mode.stewardLost = false ∧ challenged.mode.base = .hold ∧ bobbinFailed challenged = false ∧ stewardDraws challenged = true) ∧
    ((stewardBusy challenged = false ∧ challenged.envelopes = []) ∧ ∃ t, exec (.debugResponse 0 1 returnToken) challenged = .next t) ∧
    (challenged.mode.base ≠ .dormant ∧ ∃ t, exec .powerFail challenged = .next t) :=
  ⟨by decide +kernel, ⟨by decide +kernel, exists_next (by decide +kernel)⟩, by decide +kernel, exists_next (by decide +kernel)⟩

theorem witness_draws_fail :
    ∃ s : State, IdsApart s ∧ s.bobbin.state ≠ .serving ∧ Runs s (.loom 0) 1 0x10 [] (itemOn (.loom 0) (word 1 0x10 1 0)) := by
  refine ⟨{ busy (.loom 0) (word 1 0x10 1 0) with bobbin := { state := .retryWait } }, ?_⟩
  unfold IdsApart Runs; decide +kernel

theorem witness_frames :
    (isOperation (.mlkemKeygen (.loom 0)) = true ∧ ∃ t, exec (.mlkemKeygen (.loom 0)) (busy (.loom 0) (word 1 0x10 1 0)) = .next t) ∧
    (isCardCommand (.cardInsert 0) = true ∧ ∃ t, exec (.cardInsert 0) live = .next t) ∧
    (isSlotCommand (.digestDone 0) = true ∧ ∃ t, exec (.digestDone 0) (farming (stream .finalising 3)) = .next t) ∧
    (isBobbinCommand .bobbinStart = true ∧ ∃ t, exec .bobbinStart (bobbinAt {}) = .next t) ∧
    (isUsbRead (.getStatus 0 ⟨0, 1⟩) = true ∧ ∃ t, exec (.getStatus 0 ⟨0, 1⟩) live = .next t) :=
  ⟨⟨rfl, exists_next (by decide +kernel)⟩, ⟨rfl, exists_next (by decide +kernel)⟩, ⟨rfl, exists_next (by decide +kernel)⟩, ⟨rfl, exists_next (by decide +kernel)⟩,
    ⟨rfl, exists_next (by decide +kernel)⟩⟩

theorem witness_step_runs_front : (∃ s : State, s.pending = []) ∧ live.mode.base ≠ .dormant := ⟨⟨State.reset, rfl⟩, by decide +kernel⟩

theorem witness_queue_untouched : ∃ t, exec (.beat) live = .next t := exists_next (by decide +kernel)

theorem witness_item_numbers_kept : IdsApart endedState ∧ ∃ t, step { endedState with pending := [.beat] } = .next t :=
  ⟨by unfold IdsApart; decide +kernel, exists_next (by decide +kernel)⟩

theorem witness_counter_kept :
    CounterLegal { challenged with fuses := { challenged.fuses with otp := 0xFF } } ∧ ∃ t, step { challenged with pending := [.powerFail] } = .next t :=
  ⟨⟨by decide +kernel, by decide +kernel, fun t h => by cases h⟩, exists_next (by decide +kernel)⟩

/-- Raw conditioning (R372) and the repetition count's cutoff of 41 (R373). -/
theorem test_debias : debias true [false, true, true, false, true, true] = [false, true] ∧ debias false [false, true, true, true] = [true, false] ∧
    pairFails live (.repetition (List.replicate 80 false)) = false := by decide +kernel

/-! ### Curves (RFC 7748 section 5.2; SP 800-186) -/

theorem test_x25519 :
    xAgree 1 (beBytes 32 0xa546e36bf0527c9d3b16154b82465edd62144c0ac1fc5a18506a2244ba449ac4)
      (beBytes 32 0xe6db6867583030db3594c1a424b15f7c726624ec26b3353b10a903a6d0ab1c4c)
      = beBytes 32 0xc3da55379de9c6908e94ea4df28d084f32eccf03491c71f754b4075577a28552 := by decide +kernel

theorem test_p256_order : ecOnCurve 1 (ecPkOf 1 (beBytes 32 2)) = true ∧ (ecGroup 1).mul (ecOrder 1) (ecBase 1) = ecInfinity := by
  decide +kernel

end Sys2Proof.Tests
end

section
/-! PROOFS. Power-good, and the writes to a port's registers (R12, R47, R65, R116 to R118, R168, R493). -/

namespace Sys2Proof.Machine

open Sys2Proof.Claims

/-! ### Power-good (R65) -/

theorem execPowerGood_starts {s : State} (hd : s.mode.base = .dormant) (hc : s.power.contracts.any (fun c => c.valid) = true) :
    exec .powerGood s = .next (powerUp s) := by
  simp [exec, execPowerGood, hd, hc]

/-- Settles O13: the event of an empty chest is all that the chest's check decides. -/
theorem powerGoodCompletes : Obligations.power_good_completes := by
  intro s hd hc hl
  refine ⟨powerUp s, execPowerGood_starts hd hc, ?_⟩
  by_cases hv : chestPasses s.fuses.serial s.backup.chest = true
  · simp [powerUp, hl, hv, State.reset, budgetFine]
  · simp [powerUp, hl, hv, State.reset, budgetFine]

/-! ### Writes to a port's BARs (R116, R117, R493) -/

theorem onBar_open {p : PortId} {act : State → State} {s : State} (h : barOpen s p = true) : onBar p act s = act s := by
  simp [onBar, h]

theorem onWrite_reaches {p : PortId} {act : State → State} {s : State} (h : WriteReaches s p) : onWrite p act s = act s := by
  simp [onWrite, onBar_open h.1, h.2]

theorem onWrite_fenced {p : PortId} {act : State → State} {s : State} (ho : barOpen s p = true) (hf : portFenced s p = true) :
    onWrite p act s = s := by
  simp [onWrite, onBar_open ho, hf]

theorem execRegisterWrite_aligned {p : PortId} {off : Nat} {v : Word} {s : State} (ho : off < 33554432) (ha : off % 4 = 0) :
    exec (.registerWrite p off 4 v) s = .next (onWrite p (writeReg p off v) s) := by
  simp [exec, execRegisterWrite, barSize, ha, ho]

/-- Exactly the bits written as one are cleared. -/
theorem getLsbD_clearOnes {n k : Nat} (m : BitVec n) (v : Word) (lo : Nat) (hk : k < n) :
    (clearOnes m v lo).getLsbD k = (m.getLsbD k && !v.getLsbD (lo + k)) := by
  have hbit : (BitVec.ofNat n (fieldOf v lo n)).getLsbD k = v.getLsbD (lo + k) := by
    simp [fieldOf, BitVec.getLsbD, hk]
  rw [clearOnes, BitVec.getLsbD_and, BitVec.getLsbD_not, hbit, decide_eq_true hk, Bool.true_and]

theorem fieldOf_zero_two (v : Word) : fieldOf v 0 2 = v.toNat % 4 := by simp [fieldOf]

/-- A write of the low half of ADM_AQ_BASE leaves the high half. -/
theorem writeAqBase_low {p : PortId} {v : Word} {s : State} (h : s.ports[p.val].admin.enable = false) :
    (writeAqBase p 0 v s).ports[p.val].admin.base = s.ports[p.val].admin.base.extractLsb' 32 32 ++ v := by
  simp [writeAqBase, h]

/-- No register stands in the ageing block or beyond it. -/
theorem writeReg_beyond {p : PortId} {off : Nat} {v : Word} {s : State} (h : 0xA00000 ≤ off) : writeReg p off v s = s := by
  unfold writeReg
  repeat rw [if_neg (by omega)]
  rw [dif_neg (by omega)]

/-- Settles O22, part by part: a write that reaches the BARs is its register's own, one to a fenced function is none. -/
theorem registersComplete : Obligations.registers_complete := by
  refine ⟨fun s p v off size hw ho hs => ⟨?_, ?_, ?_, ?_, ?_⟩, fun s p v sum off bell d hb hf ho ha hl c hc => ?_⟩
  · intro c hc
    refine ⟨clearPowerEvents v s, ?_, rfl, fun k hk => ?_⟩
    · rcases hc with rfl | rfl
      · simp [exec, execPwrEventsClear, onWrite_reaches hw]
      · rw [execRegisterWrite_aligned (by omega) (by omega), onWrite_reaches hw]
        simp [writeReg]
    · simp [clearPowerEvents, getLsbD_clearOnes _ _ _ hk]
  · rw [execRegisterWrite_aligned (by omega) (by omega), onWrite_reaches hw]
    simp [writeReg, fieldOf_zero_two]
  · intro he
    refine ⟨writeAqBase p 0 v s, ?_, ?_, ?_⟩
    · rw [execRegisterWrite_aligned (by omega) (by omega), onWrite_reaches hw]
      simp [writeReg]
    · rw [writeAqBase_low he]
      exact BitVec.extractLsb'_append_eq_right
    · rw [writeAqBase_low he]
      exact BitVec.extractLsb'_append_eq_left
  · intro h
    have hor : size ≠ 4 ∨ off % 4 ≠ 0 ∨ barSize ≤ off := by tauto
    simp only [exec, execRegisterWrite, if_pos hor, onBar_open hw.1, emit]
  · intro hge ha
    rw [execRegisterWrite_aligned ho ha, onWrite_reaches hw, writeReg_beyond hge]
  · have hin : ¬ barSize ≤ off := Nat.not_le.mpr ho
    have hbar : ¬(off % 4 != 0 || decide (barSize ≤ off)) = true := by simp [ha, hin]
    have hreg : ¬(4 ≠ 4 ∨ off % 4 ≠ 0 ∨ barSize ≤ off) := by simp [ha, hin]
    simp only [List.mem_cons, List.not_mem_nil, or_false] at hc
    rcases hc with rfl | rfl | rfl | rfl | rfl | rfl | rfl | rfl | rfl | rfl <;>
      simp only [exec, execStageWrite, execStageCommit, execStageDiscard, execRegisterWrite, execPwrEventsClear, execDoorbellWrite,
        execExpressDoorbell, execSlotAlloc, execDigestRelease, execTraceConsumedWrite, if_neg hbar, if_neg hreg, onWrite_fenced hb hf]

end Sys2Proof.Machine
end

section
/-! PROOFS. What families of commands leave unchanged (R4, R235, R249). A frame names the fields that may differ; a function
keeps a frame where it changes those alone, so functions that keep it compose. -/

namespace Sys2Proof.Machine

open Sys2Proof.Claims

/-! ### Frames -/

/-- `take t s` is `s` with the frame's fields as `t` has them. -/
structure Frame where
  take : State → State → State
  self : ∀ s, take s s = s
  last : ∀ s t u, take u (take t s) = take u s

namespace Frame

/-- Only the frame's fields differ. -/
def Keeps (F : Frame) (s t : State) : Prop := t = F.take t s

variable {F : Frame} {s t u : State}

theorem Keeps.refl (s : State) : F.Keeps s s := (F.self s).symm

theorem Keeps.trans (h : F.Keeps s t) (k : F.Keeps t u) : F.Keeps s u :=
  calc u = F.take u t := k
    _ = F.take u (F.take t s) := congrArg (F.take u) h
    _ = F.take u s := F.last s t u

theorem Keeps.foldl {α : Type} {f : State → α → State} (h : ∀ s a, F.Keeps s (f s a)) (l : List α) (s : State) :
    F.Keeps s (l.foldl f s) := by
  induction l generalizing s with
  | nil => exact .refl s
  | cons a l ih => exact (h s a).trans (ih _)

end Frame

/-- What an operation may change. -/
def Frame.operation : Frame where
  take u s := { s with
    heddle := { s.heddle with items := u.heddle.items }
    bobbin := { s.bobbin with instances := u.bobbin.instances, buffers := u.bobbin.buffers }
    selvs := u.selvs
    looms := u.looms
    trestles := u.trestles
    runs := u.runs
    slices := u.slices
    cabinet := { s.cabinet with gens := u.cabinet.gens }
    flash := { s.flash with tally := u.flash.tally, lost := u.flash.lost }
    log := { s.log with queue := u.log.queue }
    backup := { s.backup with
      latch := u.backup.latch
      lost := u.backup.lost
      chest := { s.backup.chest with pointers := u.backup.chest.pointers, tag := u.backup.chest.tag } } }
  self _ := rfl
  last _ _ _ := rfl

/-! ### How an item ends -/

section Ends

theorem raise_keepsOperation (ev : Nat) (d : BitVec 64) (s : State) : Frame.operation.Keeps s (raise ev d s) := by
  obtain ⟨_, _, _, _, h⟩ := raise_touches ev d s
  rw [h]
  rfl

theorem modItem_keepsOperation (id : Nat) (f : Item → Item) (s : State) : Frame.operation.Keeps s (modItem id f s) := rfl

theorem modContext_keepsOperation (i : Item) (f : JobContext → JobContext) (s : State) :
    Frame.operation.Keeps s (modContext i f s) := by
  rw [modContext_frame]
  rfl

theorem eraseTally_keepsOperation (sel : TallyRecord → Bool) (s : State) : Frame.operation.Keeps s (eraseTally sel s) := by
  unfold eraseTally
  dsimp only
  split <;> rfl

theorem wipeRun_keepsOperation (r : KeyRun) (erase : Bool) (s : State) : Frame.operation.Keeps s (wipeRun r erase s) := by
  have hwipe : ∀ t, Frame.operation.Keeps s t →
      Frame.operation.Keeps s { t with runs := t.runs.filter (fun q => !(q.port == r.port && q.slice == r.slice && q.first == r.first)) } :=
    fun t h => h.trans rfl
  unfold wipeRun
  dsimp only
  split
  · refine .trans (hwipe _ ?_) (eraseTally_keepsOperation _ _)
    split <;> rfl
  · apply hwipe
    split <;> rfl

theorem settleRuns_keepsOperation (s : State) : Frame.operation.Keeps s (settleRuns s) := by
  refine Frame.Keeps.foldl (fun s r => ?_) _ s
  dsimp only
  have hunused : Frame.operation.Keeps s (if r.claimed.isSome && (runUsers s r).isEmpty then wipeRun r true s else s) := by
    split
    · exact wipeRun_keepsOperation r true s
    · exact .refl s
  split
  · split
    · split
      · split
        · exact (wipeRun_keepsOperation r true s).trans rfl
        · exact .refl s
      · exact hunused
    · exact hunused
  · exact hunused

theorem endItem_keepsOperation (id : Nat) (d : Done) (eng : Nat) (s : State) : Frame.operation.Keeps s (endItem id d eng s) :=
  Frame.Keeps.trans (t := modItem id _ (returnReservation id s)) rfl (settleRuns_keepsOperation _)

theorem leaveStores_keepsOperation (i : Item) (s : State) : Frame.operation.Keeps s (leaveStores i s) := by
  unfold leaveStores
  extract_lets s₁ s₂
  have h₁ : Frame.operation.Keeps s s₁ := by
    unfold s₁
    split
    · split <;> rfl
    · rfl
  have h₂ : Frame.operation.Keeps s s₂ := h₁.trans (modContext_keepsOperation i _ s₁)
  split
  · exact h₂.trans rfl
  · exact h₂

theorem leaveUnits_keepsOperation (i : Item) (s : State) : Frame.operation.Keeps s (leaveUnits i s) := by
  unfold leaveUnits
  refine (leaveStores_keepsOperation i s).trans ?_
  split <;> rfl

theorem failInService_keepsOperation (st : Status) (cycles : Nat) (i : Item) (s : State) :
    Frame.operation.Keeps s (failInService st cycles i s) :=
  ((leaveUnits_keepsOperation i s).trans (modItem_keepsOperation _ _ _)).trans (endItem_keepsOperation _ _ _ _)

theorem holdTrestle_keepsOperation (t : TrestleId) (m : Nat) (s : State) : Frame.operation.Keeps s (holdTrestle t m s) := rfl

theorem resumeTrestle_keepsOperation (i : Item) (s : State) : Frame.operation.Keeps s (resumeTrestle i s) := by
  unfold resumeTrestle
  split
  · exact .refl s
  · split
    · exact .refl s
    · exact (Frame.Keeps.foldl (fun s x => holdTrestle_keepsOperation _ _ s) _ s).trans rfl

end Ends

/-! ### What an operation's command does -/

/-- The command's own changes, and where it ends its item what waited is tried again. -/
def OperationEffect (s t : State) : Prop := ∃ u, (t = u ∨ t = settleAfterLeave u) ∧ Frame.operation.Keeps s u

theorem OperationEffect.of_keeps {s t : State} (h : Frame.operation.Keeps s t) : OperationEffect s t := ⟨t, .inl rfl, h⟩

theorem OperationEffect.of_keeps_trans {s t u : State} (h : Frame.operation.Keeps s t) (k : OperationEffect t u) : OperationEffect s u := by
  obtain ⟨v, hu, hv⟩ := k
  exact ⟨v, hu, h.trans hv⟩

theorem OperationEffect.refl (s : State) : OperationEffect s s := .of_keeps (.refl s)

/-- An item that ends at once: its units are left, its trestle resumes, and what waited is tried again. -/
theorem failInService_effect (st : Status) (i : Item) (s : State) :
    OperationEffect s (settleAfterLeave (resumeTrestle i (failInService st 0 i s))) :=
  ⟨_, .inr rfl, (failInService_keepsOperation st 0 i s).trans (resumeTrestle_keepsOperation i _)⟩

theorem loadUnit_keepsOperation (i : Item) (input drawn : Bytes) (s : State) : Frame.operation.Keeps s (loadUnit i input drawn s) := by
  rw [loadUnit_frame]
  rfl

theorem loadPart_keepsOperation (i : Item) (fam set : Nat) (secret operands : Bytes) (s : State) :
    Frame.operation.Keeps s (loadPart i fam set secret operands s) := by
  rw [loadPart_frame]
  rfl

theorem unitDraw_keepsOperation (i : Item) (n : Nat) (s : State) : Frame.operation.Keeps s (unitDraw i n s).2 := by
  rw [unitDraw_frame, unitDraw_bobbin]
  rfl

theorem itemDraw_keepsOperation (i : Item) (n : Nat) (s : State) : Frame.operation.Keeps s (itemDraw i n s).2 :=
  (unitDraw_keepsOperation i n s).trans (modItem_keepsOperation _ _ _)

theorem formResult_keepsOperation (i : Item) (input : Bytes) (r : ItemResult) (s : State) :
    Frame.operation.Keeps s (formResult i input r s) := rfl

theorem runOp_effect {fam op : Nat} {e : Engine} {input : Bytes} {f : Item → State → ItemResult × State} {s : State}
    (hf : ∀ i s, Frame.operation.Keeps s (f i s).2) : OperationEffect s (runOp fam op e input f s) := by
  unfold runOp
  split
  · exact .refl s
  · split
    · exact .of_keeps ((loadUnit_keepsOperation _ _ _ s).trans ((hf _ _).trans (formResult_keepsOperation _ _ _ _)))
    · exact .refl s

theorem runDrawOp_effect {fam op : Nat} {bytes : Item → Nat} {e : Engine} {input : Bytes}
    {f : Item → Bytes → State → ItemResult × State} {s : State} (hf : ∀ i d s, Frame.operation.Keeps s (f i d s).2) :
    OperationEffect s (runDrawOp fam op bytes e input f s) := by
  unfold runDrawOp
  split
  · exact .refl s
  · split
    · split
      · exact failInService_effect _ _ s
      · exact .of_keeps ((itemDraw_keepsOperation _ _ s).trans ((loadUnit_keepsOperation _ _ _ _).trans
          ((hf _ _ _).trans (formResult_keepsOperation _ _ _ _))))
    · exact .refl s

/-- An operation that only reads the state. -/
theorem runOp_reads_effect {fam op : Nat} {e : Engine} {input : Bytes} {f : Item → State → ItemResult} {s : State} :
    OperationEffect s (runOp fam op e input (fun i s => (f i s, s)) s) :=
  runOp_effect fun _ s => .refl s

theorem runDrawOp_reads_effect {fam op : Nat} {bytes : Item → Nat} {e : Engine} {input : Bytes}
    {f : Item → Bytes → State → ItemResult} {s : State} :
    OperationEffect s (runDrawOp fam op bytes e input (fun i d s => (f i d s, s)) s) :=
  runDrawOp_effect fun _ _ s => .refl s

/-! ### Operations whose command does more -/

theorem draw_keepsOperation (i : InstId) (n : Nat) (s : State) : Frame.operation.Keeps s (draw i n s).2 := rfl

/-- Draws repeated over a list, of which the last bytes count. -/
theorem repeatedDraws_keepOperation {α : Type} {f : State → Bytes × State} (hf : ∀ s, Frame.operation.Keeps s (f s).2) (l : List α)
    (x : Bytes × State) : Frame.operation.Keeps x.2 (l.foldl (fun (x : Bytes × State) _ => f x.2) x).2 := by
  induction l generalizing x with
  | nil => exact .refl x.2
  | cons a l ih => exact (hf x.2).trans (ih _)

theorem execSignWith_effect (op : Nat) (variant : Item → Nat) (e : Engine) (input : Bytes) (s : State) :
    OperationEffect s (execSignWith op variant e input s) := by
  unfold execSignWith
  split
  · split
    · exact runOp_reads_effect
    · exact runDrawOp_reads_effect
  · exact .refl s

theorem slhSignWith_effect (op : Nat) (variant : Item → Nat) (e : Engine) (input : Bytes) (s : State) :
    OperationEffect s (slhSignWith op variant e input s) := by
  unfold slhSignWith
  split
  · dsimp only
    split
    · exact runOp_reads_effect
    · exact runDrawOp_reads_effect
  · exact .refl s

theorem execRandom_effect {e : Engine} {s t : State} (h : execRandom e s = .next t) : OperationEffect s t := by
  cases h
  split
  · exact .refl s
  · split
    · exact .refl s
    · exact runDrawOp_reads_effect

theorem execFndsaSign_effect {e : Engine} {input : Bytes} {n : Nat} {s t : State} (h : execFndsaSign e input n s = .next t) :
    OperationEffect s t := by
  cases h
  exact runDrawOp_effect fun i d s => repeatedDraws_keepOperation (fun s => draw_keepsOperation (drawInst i) 40 s) _ (d, s)

/-- A routine error raises the loom's event and ends the item. -/
theorem routineFault_effect (i : Item) (s : State) : OperationEffect s (routineFault i s) := by
  unfold routineFault
  refine .of_keeps_trans ?_ (failInService_effect .unitFault i _)
  split
  · exact raise_keepsOperation _ _ s
  · exact .refl s

theorem streamFault_effect (op : Nat) (e : Engine) (s : State) : OperationEffect s (streamFault op e s) := by
  unfold streamFault
  split
  · exact .refl s
  · split
    · refine ⟨_, .inr rfl, .trans ?_ (failInService_keepsOperation _ _ _ _)⟩
      cases e with
      | selvedge u =>
        dsimp only
        split <;> rfl
      | _ => rfl
    · exact .refl s

theorem execMcelieceKeygen_effect {e : Engine} {n : Nat} {s t : State} (h : execMcelieceKeygen e n s = .next t) :
    OperationEffect s t := by
  cases h
  split
  · exact .refl s
  · split
    · refine .of_keeps_trans ?_ (routineFault_effect _ _)
      split <;> rfl
    · refine runDrawOp_effect fun i d s => ?_
      extract_lets set x sk pk r c s₁
      have hx : Frame.operation.Keeps s x.2 := repeatedDraws_keepOperation (unitDraw_keepsOperation i selvDraw) _ (d, s)
      have h₁ : Frame.operation.Keeps x.2 s₁ := by
        unfold s₁
        split <;> rfl
      exact hx.trans h₁

theorem execMcelieceEncaps_effect {e : Engine} {streamed : Option Bytes} {s t : State} (h : execMcelieceEncaps e streamed s = .next t) :
    OperationEffect s t := by
  cases h
  split
  · exact .refl s
  · extract_lets set hit hash
    split
    · exact streamFault_effect _ e s
    · split
      · exact .refl s
      · refine runDrawOp_effect fun i d s => ?_
        clear_value hit
        cases hit with
        | some c => exact .refl s
        | none =>
          dsimp only
          split
          · exact .refl s
          · split <;> exact .refl s

theorem execMcelieceEncapsPk_effect {e : Engine} {streamed : Option Bytes} {s t : State} (h : execMcelieceEncapsPk e streamed s = .next t) :
    OperationEffect s t := by
  cases h
  split
  · exact streamFault_effect _ e s
  · exact runDrawOp_reads_effect

theorem execMcelieceRegister_effect {e : Engine} {streamed : Option Bytes} {s t : State} (h : execMcelieceRegister e streamed s = .next t) :
    OperationEffect s t := by
  cases h
  split
  · exact streamFault_effect _ e s
  · exact runOp_reads_effect

theorem testCandidate_keepsOperation (i : Item) (bits : Bytes) (x : List Nat × State) :
    Frame.operation.Keeps x.2 (testCandidate i bits x).2 := by
  unfold testCandidate
  split
  · exact .refl x.2
  · exact unitDraw_keepsOperation i _ x.2

theorem searchPrimes_keepsOperation (i : Item) (bits : Bytes) (n : Nat) (s : State) :
    Frame.operation.Keeps s (searchPrimes i bits n s).2 := by
  have hfold : ∀ (l : List Nat) (x : List Nat × State),
      Frame.operation.Keeps x.2 (l.foldl (fun x _ => testCandidate i bits x) x).2 := by
    intro l
    induction l with
    | nil => exact fun x => .refl x.2
    | cons a l ih => exact fun x => (testCandidate_keepsOperation i bits x).trans (ih _)
  exact hfold _ (foundPrimes i s, s)

theorem execRsaKeygen_effect {e : Engine} {n : Nat} {s t : State} (h : execRsaKeygen e n s = .next t) : OperationEffect s t := by
  cases h
  split
  · exact .refl s
  · rename_i i _
    split
    · split
      · exact failInService_effect _ i s
      · extract_lets d s₁ x
        have h₁ : Frame.operation.Keeps s s₁ := by
          unfold s₁
          split
          · exact (itemDraw_keepsOperation i _ s).trans (loadUnit_keepsOperation i _ _ _)
          · exact .refl s
        have hx : Frame.operation.Keeps s x.2 := h₁.trans (searchPrimes_keepsOperation i _ n s₁)
        split
        · exact .of_keeps (hx.trans (formResult_keepsOperation _ _ _ _))
        · exact .of_keeps (hx.trans (modContext_keepsOperation _ _ _))
    · exact .refl s

theorem execUnseal_effect {e : Engine} {s t : State} (h : execUnseal e s = .next t) : OperationEffect s t := by
  cases h
  refine runOp_effect fun i s => ?_
  split <;> rfl

theorem execSeal_effect {e : Engine} {s t : State} (h : execSeal e s = .next t) : OperationEffect s t := by
  cases h
  refine runDrawOp_effect fun i d s => ?_
  split
  · rfl
  · split <;> rfl

theorem operation_effect {c : Instr} {s t : State} (hc : isOperation c = true) (h : exec c s = .next t) : OperationEffect s t := by
  cases c <;> cases hc
  -- the command forms a result from what the state holds
  case mlkemKeygenSeed | mlkemDecaps | mldsaKeygenSeed | mldsaVerify | mldsaVerifyPh | mldsaVerifyPk | mldsaVerifyPkPh | fndsaVerify |
      fndsaVerifyPk | slhdsaKeygenSeed | slhdsaVerify | slhdsaVerifyPh | slhdsaVerifyPk | slhdsaVerifyPkPh | lmsBuild | lmsFinish |
      lmsSign | lmsVerify | lmsVerifyPk | xmssBuild | xmssFinish | xmssSign | xmssVerify | xmssVerifyPk | tallyQuery | tallyRetire |
      mcelieceDecaps | hqcDecaps | ecdsaVerify | ecdsaVerifyPk | eddsaVerify | eddsaVerifyPk | rsaVerify | rsaVerifyPk | importPublic |
      importPrivate | keyQuery | restrict | mac | digest =>
    cases h
    exact runOp_reads_effect
  -- and from bytes that it draws
  case mlkemKeygen | mlkemEncaps | mlkemEncapsEk | mldsaKeygen | fndsaKeygen | slhdsaKeygen | lmsKeygenStart | xmssKeygenStart |
      hqcKeygen | hqcEncaps | ecdsaKeygen | ecdsaSign | ecdhAgree | eddsaKeygen | eddsaSign | xdhKeygen | xdhAgree | rsaSign |
      rsaDecrypt | rsaEncryptPk | rsaPrivateRaw =>
    cases h
    exact runDrawOp_reads_effect
  -- a trestle beside the loom takes its part
  case hybDecaps | compositeVerify | compositeVerifyPk =>
    cases h
    exact runOp_effect fun i s => loadPart_keepsOperation _ _ _ _ _ _
  case hybKeygen | hybEncaps | compositeKeygen | compositeSign | attest =>
    cases h
    exact runDrawOp_effect fun i d s => loadPart_keepsOperation _ _ _ _ _ _
  -- the result depends on a case
  case delete =>
    cases h
    refine runOp_effect fun i s => ?_
    split
    · rfl
    · split <;> rfl
  case derive =>
    cases h
    refine runOp_effect fun i s => ?_
    dsimp only
    split <;> rfl
  case hqcEncapsEk =>
    cases h
    refine runDrawOp_effect fun i d s => ?_
    split <;> rfl
  case mldsaSign | mldsaSignPh =>
    cases h
    exact execSignWith_effect _ _ _ _ s
  case slhdsaSign | slhdsaSignPh =>
    cases h
    exact slhSignWith_effect _ _ _ _ s
  case fndsaSign => exact execFndsaSign_effect h
  case mcelieceKeygen => exact execMcelieceKeygen_effect h
  case mcelieceEncaps => exact execMcelieceEncaps_effect h
  case mcelieceEncapsPk => exact execMcelieceEncapsPk_effect h
  case mcelieceRegister => exact execMcelieceRegister_effect h
  case rsaKeygen => exact execRsaKeygen_effect h
  case random => exact execRandom_effect h
  -- UNSEAL and SEAL, whose constructors bear names that Lean reserves
  · exact execUnseal_effect h
  · exact execSeal_effect h

end Sys2Proof.Machine
end

section
/-! PROOFS. The frames of the card, digest-slot and bobbin commands and of the reads over USB 2.0 (R4). -/

namespace Sys2Proof.Machine

open Sys2Proof.Claims

/-! ### The card bus -/

/-- What the card bus changes: the cards, what goes out, and the events on their way to the logbook. -/
def Frame.cards : Frame where
  take t s := { s with
    cards := t.cards
    out := t.out
    log := { s.log with queue := t.log.queue }
    backup := { s.backup with latch := t.backup.latch, lost := t.backup.lost }
    flash := { s.flash with lost := t.flash.lost } }
  self _ := rfl
  last _ _ _ := rfl

theorem raise_keepsCards (ev : Nat) (d : BitVec 64) (s : State) : Frame.cards.Keeps s (raise ev d s) := by
  obtain ⟨_, _, _, _, h⟩ := raise_touches ev d s
  rw [h]
  rfl

theorem modCard_keepsCards (c : CardSlot) (f : CardState → CardState) (s : State) : Frame.cards.Keeps s (modCard c f s) := rfl

theorem cardEvents_keepsCards (a b c : BitVec 4) (s : State) : Frame.cards.Keeps s (cardEvents a b c s) := rfl

theorem sendCard_keepsCards (rate : CardRate) (op : BitVec 5) (addr arg : Nat) (s : State) :
    Frame.cards.Keeps s (sendCard rate op addr arg s) := rfl

theorem sendTo_keepsCards (c : CardSlot) (op : BitVec 5) (arg : Nat) (s : State) : Frame.cards.Keeps s (sendTo c op arg s) := rfl

theorem powerSlots_keepsCards (s : State) : Frame.cards.Keeps s (powerSlots s) := by
  unfold powerSlots
  split
  · exact .refl s
  · extract_lets want on
    have hon : ∀ (l : List CardSlot) s, Frame.cards.Keeps s (l.foldl on s) := .foldl fun s c => modCard_keepsCards c _ s
    split
    · split
      · exact .refl s
      · exact .trans (t := { s with cards := { s.cards with slots := s.cards.slots.map releaseCard } }) rfl (hon _ _)
    · exact hon _ s

theorem failCard_keepsCards (c : CardSlot) (ev err : Nat) (s : State) : Frame.cards.Keeps s (failCard c ev err s) :=
  ((modCard_keepsCards c _ s).trans (cardEvents_keepsCards _ _ _ _)).trans ((raise_keepsCards _ _ _).trans (powerSlots_keepsCards _))

theorem markDuplicate_keepsCards (c : CardSlot) (who : List CardSlot) (s : State) : Frame.cards.Keeps s (markDuplicate c who s) :=
  (Frame.Keeps.foldl (fun s k => modCard_keepsCards k _ s) who s).trans ((raise_keepsCards _ _ _).trans (powerSlots_keepsCards _))

/-- Frames to a card that is attached first. -/
theorem attachCard_keepsCards (c : CardSlot) (s : State) : Frame.cards.Keeps s (attachCard c s) := by
  unfold attachCard
  split
  · exact .refl s
  · exact (Frame.Keeps.foldl (fun s k => modCard_keepsCards k _ s) _ s).trans
      ((modCard_keepsCards c _ _).trans (sendTo_keepsCards c _ _ _))

theorem readRun_keepsCards (c : CardSlot) (first n : Nat) (s : State) : Frame.cards.Keeps s (readRun c first n s) := by
  unfold readRun
  dsimp only
  split
  · exact sendTo_keepsCards c _ _ s
  · exact (sendTo_keepsCards c _ _ s).trans (sendTo_keepsCards c _ _ _)

theorem resetAll_keepsCards (s : State) : Frame.cards.Keeps s (resetAll s) := by
  unfold resetAll
  split <;> rfl

theorem readRuns_keepCards {α : Type} (c : CardSlot) (first count : α → Nat) (l : List α) (s : State) :
    Frame.cards.Keeps s (l.foldl (fun s r => readRun c (first r) (count r) s) s) :=
  .foldl (fun s r => readRun_keepsCards c (first r) (count r) s) l s

theorem scanCard_keepsCards (c : CardSlot) (d : CardData) (s : State) : Frame.cards.Keeps s (scanCard c d s) := by
  unfold scanCard
  generalize scanRuns = runs
  have h₁ := readRuns_keepCards c Prod.fst Prod.snd runs (attachCard c s)
  have h₂ := readRuns_keepCards c CardReread.block (fun _ => 1) d.rereads
    (runs.foldl (fun s r => readRun c r.1 r.2 s) (attachCard c s))
  exact (attachCard_keepsCards c s).trans (h₁.trans h₂)

theorem acceptCard_keepsCards (c : CardSlot) (d : CardData) (mode : Nat) (s : State) : Frame.cards.Keeps s (acceptCard c d mode s) := by
  unfold acceptCard
  extract_lets rate failed take s₁ s₂
  have h₁ : Frame.cards.Keeps s s₁ := (modCard_keepsCards c take s).trans (scanCard_keepsCards c d _)
  have h₂ : Frame.cards.Keeps s₁ s₂ := by
    unfold s₂
    split <;> rfl
  exact (h₁.trans h₂).trans ((cardEvents_keepsCards _ _ _ _).trans ((raise_keepsCards _ _ _).trans (powerSlots_keepsCards _)))

theorem sendSwitch_keepsCards (c : CardSlot) (s : State) : Frame.cards.Keeps s (sendSwitch c s) :=
  (attachCard_keepsCards c s).trans ((sendTo_keepsCards c _ _ _).trans (sendCard_keepsCards _ _ _ _ _))

theorem switchCard_keepsCards (c : CardSlot) (d : CardData) (s : State) : Frame.cards.Keeps s (switchCard c d s) := by
  unfold switchCard
  dsimp only
  split
  · exact (attachCard_keepsCards c s).trans (acceptCard_keepsCards c d _ _)
  · split
    · exact (sendSwitch_keepsCards c s).trans (acceptCard_keepsCards c d _ _)
    · exact (sendSwitch_keepsCards c s).trans ((modCard_keepsCards c _ _).trans (raise_keepsCards _ _ _))

theorem endSequence_keepsCards (s : State) : Frame.cards.Keeps s (endSequence s) := by
  unfold endSequence
  split
  · exact .refl s
  · refine (sendCard_keepsCards _ _ _ _ s).trans (.foldl (fun s c => ?_) _ _)
    split
    · exact switchCard_keepsCards c _ s
    · exact .refl s

theorem identifySlot_keepsCards (addr : Nat) (c : CardSlot) (d : CardData) (st : BitVec 30) (s : State) :
    Frame.cards.Keeps s (identifySlot addr c d st s) := by
  unfold identifySlot
  split
  · exact markDuplicate_keepsCards c _ s
  · rfl

theorem identify_keepsCards (c : CardSlot) (d : CardData) (s : State) : Frame.cards.Keeps s (identify c d s) := by
  unfold identify
  extract_lets s₁ addr s₂ s₃ s₄ take s₅
  have h₁ : Frame.cards.Keeps s s₁ := (resetAll_keepsCards s).trans (sendCard_keepsCards _ _ _ _ _)
  have h₃ : Frame.cards.Keeps s s₃ := by
    unfold s₃
    split
    · exact h₁.trans (sendCard_keepsCards _ _ _ _ _)
    · exact h₁.trans ((sendCard_keepsCards _ _ _ _ _).trans (sendCard_keepsCards _ _ _ _ _))
  have h₄ : Frame.cards.Keeps s s₄ := h₃.trans (sendCard_keepsCards _ _ _ _ _)
  have h₅ : Frame.cards.Keeps s s₅ := h₄.trans (sendCard_keepsCards _ _ _ _ _)
  have htake : ∀ st t, Frame.cards.Keeps s t → Frame.cards.Keeps s (take st t) := by
    intro st t ht
    unfold take
    dsimp only
    split
    · exact ht.trans (identifySlot_keepsCards _ _ _ _ _)
    · exact ht
  split
  · exact h₁.trans (failCard_keepsCards _ _ _ _)
  · split
    · exact h₃.trans (failCard_keepsCards _ _ _ _)
    · split
      · split
        · exact h₄.trans (markDuplicate_keepsCards _ _ _)
        · exact htake _ _ h₄
      · split
        · exact h₅.trans (failCard_keepsCards _ _ _ _)
        · exact htake _ _ h₅

theorem identifyAgain_keepsCards (c : CardSlot) (d : CardData) (s : State) : Frame.cards.Keeps s (identifyAgain c d s) := by
  unfold identifyAgain
  dsimp only
  split
  · exact (modCard_keepsCards c _ s).trans (identify_keepsCards c d _)
  · exact (modCard_keepsCards c _ s).trans ((raise_keepsCards _ _ _).trans (identify_keepsCards c d _))

theorem releaseSlots_keepsCards (s : State) :
    Frame.cards.Keeps s { s with cards := { s.cards with slots := s.cards.slots.map releaseCard } } := rfl

theorem leaveCard_keepsCards (c : CardSlot) (s : State) : Frame.cards.Keeps s (leaveCard c s) := by
  unfold leaveCard
  split
  · exact (modCard_keepsCards c _ s).trans (powerSlots_keepsCards _)
  · exact .refl s

theorem lockSlot_keepsCards (c : CardSlot) (s : State) : Frame.cards.Keeps s (lockSlot c s) :=
  (modCard_keepsCards c _ s).trans (raise_keepsCards _ _ _)

/-! ### The card commands -/

theorem execCardInsert_keepsCards {c : CardSlot} {s t : State} (h : execCardInsert c s = .next t) : Frame.cards.Keeps s t := by
  cases h
  split
  · exact .refl s
  · exact (modCard_keepsCards c _ s).trans (powerSlots_keepsCards _)

theorem execCardRemove_keepsCards {r : CardRemoval} {s t : State} (h : execCardRemove r s = .next t) : Frame.cards.Keeps s t := by
  cases h
  split
  · rfl
  · have hgone : ∀ (g : CardState → CardState) f e, Frame.cards.Keeps s (raise 0x109 e (cardEvents 0 0 f (modCard r.slot g s))) :=
      fun g f e => (modCard_keepsCards r.slot g s).trans ((cardEvents_keepsCards 0 0 f _).trans (raise_keepsCards _ e _))
    dsimp only
    refine .trans ?_ ((powerSlots_keepsCards _).trans (endSequence_keepsCards _))
    split
    · exact .trans (hgone _ _ _) rfl
    · exact hgone _ _ _

theorem execCardIdentify_keepsCards {c : CardSlot} {d : CardData} {s t : State} (h : execCardIdentify c d s = .next t) :
    Frame.cards.Keeps s t := by
  cases h
  split
  · exact .refl s
  · split
    · refine .trans ?_ (endSequence_keepsCards _)
      split
      · exact identifyAgain_keepsCards c d s
      · exact identify_keepsCards c d s
    · split
      · exact (releaseSlots_keepsCards s).trans ((identifyAgain_keepsCards c d _).trans (endSequence_keepsCards _))
      · exact .refl s

theorem execSwitchFallback_keepsCards {c : CardSlot} {d : CardData} {s t : State} (h : execSwitchFallback c d s = .next t) :
    Frame.cards.Keeps s t := by
  cases h
  split
  · split
    · rfl
    · dsimp only
      refine .trans ?_ ((modCard_keepsCards c _ _).trans ((identify_keepsCards c d _).trans (endSequence_keepsCards _)))
      split <;> rfl
  · exact .refl s

theorem execCardResponseTimeout_keepsCards {c : CardSlot} {r : CardRetry} {s t : State} (h : execCardResponseTimeout c r s = .next t) :
    Frame.cards.Keeps s t := by
  cases h
  split
  · dsimp only
    split
    · exact (sendTo_keepsCards c _ _ s).trans (modCard_keepsCards c _ _)
    · exact (sendTo_keepsCards c _ _ s).trans ((failCard_keepsCards c _ _ _).trans (endSequence_keepsCards _))
  · exact .refl s

theorem cardCommand_keepsCards {c : Instr} {s t : State} (hc : isCardCommand c = true) (h : exec c s = .next t) : Frame.cards.Keeps s t := by
  cases c <;> cases hc
  case cardInsert => exact execCardInsert_keepsCards h
  case cardRemove => exact execCardRemove_keepsCards h
  case cardIdentify => exact execCardIdentify_keepsCards h
  case cardResponseTimeout => exact execCardResponseTimeout_keepsCards h
  case switchFallback => exact execSwitchFallback_keepsCards h
  case cardBusyRelease c =>
    cases h
    split
    · exact (modCard_keepsCards c _ s).trans (leaveCard_keepsCards c _)
    · exact .refl s
  case busyTimeout c =>
    cases h
    split
    · exact (failCard_keepsCards c _ _ s).trans (endSequence_keepsCards _)
    · exact .refl s
  case cwpLock c =>
    cases h
    split
    · exact .refl s
    · split
      · exact (modCard_keepsCards c _ s).trans ((sendTo_keepsCards c _ _ _).trans (lockSlot_keepsCards c _))
      · rfl

/-! ### The digest slots -/

/-- What a digest slot's command changes. -/
def Frame.slots : Frame where
  take t s := { s with
    farm := t.farm
    ports := t.ports
    out := t.out
    free := t.free
    log := { s.log with queue := t.log.queue }
    backup := { s.backup with latch := t.backup.latch, lost := t.backup.lost }
    flash := { s.flash with lost := t.flash.lost } }
  self _ := rfl
  last _ _ _ := rfl

theorem raise_keepsSlots (ev : Nat) (d : BitVec 64) (s : State) : Frame.slots.Keeps s (raise ev d s) := by
  obtain ⟨_, _, _, _, h⟩ := raise_touches ev d s
  rw [h]
  rfl

theorem modDigest_keepsSlots (d : DigestSlot) (f : DigestSlotState → DigestSlotState) (s : State) :
    Frame.slots.Keeps s (modDigest d f s) := rfl

theorem emit_keepsSlots (x : Tx) (s : State) : Frame.slots.Keeps s (emit x s) := rfl

/-- An access that reaches a port's BARs keeps what its action keeps, where an answer may go out. -/
theorem onBar_keepsSlots (p : PortId) {act : State → State} (h : ∀ s, Frame.slots.Keeps s (act s)) (s : State) :
    Frame.slots.Keeps s (onBar p act s) := by
  unfold onBar
  split
  · exact h s
  · split <;> rfl

theorem onWrite_keepsSlots (p : PortId) {act : State → State} (h : ∀ s, Frame.slots.Keeps s (act s)) (s : State) :
    Frame.slots.Keeps s (onWrite p act s) := by
  refine onBar_keepsSlots p (fun s => ?_) s
  split
  · exact .refl s
  · exact h s

theorem slotCommand_keepsSlots {c : Instr} {s t : State} (hc : isSlotCommand c = true) (h : exec c s = .next t) : Frame.slots.Keeps s t := by
  cases c <;> cases hc <;> cases h
  case slotAlloc p v =>
    refine onWrite_keepsSlots p (fun s => ?_) s
    dsimp only
    split <;> rfl
  case digestDataWrite p d off bytes =>
    split
    · refine onWrite_keepsSlots p (fun s => ?_) s
      dsimp only
      split
      · exact .refl s
      · split
        · rfl
        · split
          · rfl
          · exact (modDigest_keepsSlots d _ s).trans (raise_keepsSlots _ _ _)
    · exact onBar_keepsSlots p (fun s => emit_keepsSlots _ s) s
  case digestFinal p d n =>
    refine onWrite_keepsSlots p (fun s => ?_) s
    dsimp only
    split
    · exact .refl s
    · split <;> rfl
  case digestRelease p d =>
    refine onWrite_keepsSlots p (fun s => ?_) s
    split <;> rfl
  case digestDone d => split <;> rfl
  case digestResultRead p d off =>
    split
    · refine onBar_keepsSlots p (fun s => ?_) s
      dsimp only
      split <;> rfl
    · exact onBar_keepsSlots p (fun s => emit_keepsSlots _ s) s
  case slotReclaimed d w =>
    split
    · exact .refl s
    · exact (modDigest_keepsSlots d _ s).trans (raise_keepsSlots _ _ _)

/-- DIGEST_CORE_ASK counts a block of a slot or of an item. -/
theorem execDigestCoreAsk_frame {core : FarmCore} {s t : State} (h : exec (.digestCoreAsk core) s = .next t) :
    t = { s with farm := t.farm, heddle := { s.heddle with items := t.heddle.items } } := by
  cases h
  split
  · rfl
  · rename_i n u _
    cases u <;> rfl

/-! ### The bobbin -/

/-- What the bobbin's own commands change. -/
def Frame.bobbin : Frame where
  take t s := { s with
    bobbin := t.bobbin
    log := { s.log with queue := t.log.queue }
    backup := { s.backup with latch := t.backup.latch, lost := t.backup.lost }
    flash := { s.flash with lost := t.flash.lost } }
  self _ := rfl
  last _ _ _ := rfl

theorem raise_keepsBobbin (ev : Nat) (d : BitVec 64) (s : State) : Frame.bobbin.Keeps s (raise ev d s) := by
  obtain ⟨_, _, _, _, h⟩ := raise_touches ev d s
  rw [h]
  rfl

theorem modInstance_keepsBobbin (i : InstId) (f : DrbgInstance → DrbgInstance) (s : State) :
    Frame.bobbin.Keeps s (modInstance i f s) := rfl

theorem requestSeed_keepsBobbin (i : InstId) (s : State) : Frame.bobbin.Keeps s (requestSeed i s) := by
  unfold requestSeed
  dsimp only
  split <;> rfl

theorem bobbinCommand_keepsBobbin {c : Instr} {s t : State} (hc : isBobbinCommand c = true) (h : exec c s = .next t) :
    Frame.bobbin.Keeps s t := by
  cases c <;> cases hc <;> cases h
  case bobbinStart | bobbinSettled | bobbinRetry => split <;> rfl
  case pairExcluded pair fault =>
    split
    · exact .trans (t := { s with bobbin := _ }) rfl (raise_keepsBobbin _ _ _)
    · exact .refl s
  case reseedRequest i =>
    split
    · exact requestSeed_keepsBobbin i s
    · exact .refl s
  case instanceStall i =>
    split
    · exact (modInstance_keepsBobbin i _ s).trans ((raise_keepsBobbin _ _ _).trans (requestSeed_keepsBobbin i _))
    · exact .refl s

/-! ### Reads over USB 2.0 -/

/-- A command over USB 2.0 that only answers. -/
theorem onUsb_answers (p : PortId) {act : State → State} (h : ∀ s, act s = { s with out := (act s).out }) (s : State) :
    onUsb p act s = { s with out := (onUsb p act s).out } := by
  unfold onUsb
  split
  · exact h s
  · rfl

theorem usbRead_answers {c : Instr} {s t : State} (hc : isUsbRead c = true) (h : exec c s = .next t) : t = { s with out := t.out } := by
  cases c
  case getStatus p r =>
    cases h
    refine onUsb_answers p (fun s => ?_) s
    unfold getStatus
    split
    · rfl
    · split <;> rfl
  case readBlock p q off len =>
    cases h
    refine onUsb_answers p (fun s => ?_) s
    split <;> rfl
  case logRead path =>
    cases path with
    | admin p => cases hc
    | usb p q len first count =>
      cases h
      refine onUsb_answers p (fun s => ?_) s
      unfold usbLogRead
      split
      · rfl
      · split <;> rfl
  all_goals cases hc

/-! ### The frames, as the statement writes them -/

theorem butEvents_of_keepsCards {s t : State} (h : Frame.cards.Keeps s t) : ButEvents { s with cards := t.cards, out := t.out } t := by
  unfold ButEvents
  exact h

theorem butEvents_of_keepsSlots {s t : State} (h : Frame.slots.Keeps s t) :
    ButEvents { s with farm := t.farm, ports := t.ports, out := t.out, free := t.free } t := by
  unfold ButEvents
  exact h

theorem butEvents_of_keepsBobbin {s t : State} (h : Frame.bobbin.Keeps s t) : ButEvents { s with bobbin := t.bobbin } t := by
  unfold ButEvents
  exact h

/-- Settles O55, family by family: what the commands' parts keep, their compositions keep. -/
theorem frames : Obligations.frames := by
  intro c s t h
  refine ⟨fun hc => operation_effect hc h, fun hc => butEvents_of_keepsCards (cardCommand_keepsCards hc h),
    fun hc => butEvents_of_keepsSlots (slotCommand_keepsSlots hc h), ?_,
    fun hc => butEvents_of_keepsBobbin (bobbinCommand_keepsBobbin hc h), fun hc => usbRead_answers hc h⟩
  rintro core rfl
  exact execDigestCoreAsk_frame h

end Sys2Proof.Machine
end

section
/-! PROOFS. No state operation but the burning ones changes the fuses (R2). Each function that an instruction runs leaves them as they
are: one rule a function, in the model's order, from which `simp` composes the next. -/

namespace Sys2Proof.Machine

/-! ### How the rules compose -/

theorem operation_fuses {s t : State} (h : Frame.operation.Keeps s t) : t.fuses = s.fuses := by
  rw [h]
  rfl

theorem slots_fuses {s t : State} (h : Frame.slots.Keeps s t) : t.fuses = s.fuses := by
  rw [h]
  rfl

theorem bobbin_fuses {s t : State} (h : Frame.bobbin.Keeps s t) : t.fuses = s.fuses := by
  rw [h]
  rfl

theorem cards_fuses {s t : State} (h : Frame.cards.Keeps s t) : t.fuses = s.fuses := by
  rw [h]
  rfl

theorem foldl_fuses_of {α β : Type} (g : β → State) {f : β → α → β} (h : ∀ x a, (g (f x a)).fuses = (g x).fuses)
    (l : List α) (x : β) : (g (l.foldl f x)).fuses = (g x).fuses := by
  induction l generalizing x with
  | nil => rfl
  | cons a l ih => exact (ih _).trans (h x a)

@[simp] theorem foldl_fuses {α : Type} {f : State → α → State} (l : List α) (s : State) (h : ∀ s a, (f s a).fuses = s.fuses) :
    (l.foldl f s).fuses = s.fuses :=
  foldl_fuses_of id h l s

@[simp] theorem ite_fuses {c : Prop} [Decidable c] (s t : State) : (if c then s else t).fuses = if c then s.fuses else t.fuses :=
  apply_ite State.fuses c s t

@[simp] theorem foldl_emit_fuses {α : Type} (x : α → Tx) (l : List α) (s : State) :
    (l.foldl (fun s a => emit (x a) s) s).fuses = s.fuses :=
  foldl_fuses l s fun _ _ => rfl

@[simp] theorem foldl_modCard_fuses (f : CardSlot → CardState → CardState) (l : List CardSlot) (s : State) :
    (l.foldl (fun s c => modCard c (f c) s) s).fuses = s.fuses :=
  foldl_fuses l s fun _ _ => rfl

@[simp] theorem foldl_modLoom_fuses (f : LoomId → Loom → Loom) (l : List LoomId) (s : State) :
    (l.foldl (fun s n => modLoom n (f n) s) s).fuses = s.fuses :=
  foldl_fuses l s fun _ _ => rfl

@[simp] theorem foldl_holdTrestle_fuses (t : TrestleId) (m : Item → Nat) (l : List Item) (s : State) :
    (l.foldl (fun s x => holdTrestle t (m x) s) s).fuses = s.fuses :=
  foldl_fuses l s fun _ _ => rfl

/-! ### Events and the log -/

@[simp] theorem latchEntry_fuses (e : LatchEntry) (s : State) : (latchEntry e s).fuses = s.fuses := by simp [latchEntry]

@[simp] theorem countLost_fuses (severity : Nat) (s : State) : (countLost severity s).fuses = s.fuses := by
  unfold countLost
  split <;> simp

@[simp] theorem queueEvent_fuses (e : Event) (s : State) : (queueEvent e s).fuses = s.fuses := by simp [queueEvent]
@[simp] theorem raise0_fuses (ev : Nat) (s : State) : (raise0 ev s).fuses = s.fuses := by simp [raise0]

/-! ### Writes from the host, the chest, draws -/

@[simp] theorem onBar_fuses (p : PortId) (act : State → State) (s : State) (h : ∀ t, (act t).fuses = t.fuses) :
    (onBar p act s).fuses = s.fuses := by
  unfold onBar
  split
  · exact h s
  · split <;> simp

@[simp] theorem onWrite_fuses (p : PortId) (act : State → State) (s : State) (h : ∀ t, (act t).fuses = t.fuses) :
    (onWrite p act s).fuses = s.fuses := by
  simp [onWrite, h]

@[simp] theorem onBar_emit_fuses (p : PortId) (x : Tx) (s : State) : (onBar p (emit x) s).fuses = s.fuses :=
  onBar_fuses p _ s fun _ => rfl

@[simp] theorem writeChest_fuses (f : Chest → Chest) (s : State) : (writeChest f s).fuses = s.fuses := by simp [writeChest]
@[simp] theorem takeFree_fuses (s : State) : (takeFree s).2.fuses = s.fuses := by simp [takeFree]

@[simp] theorem draw_fuses (i : InstId) (n : Nat) (s : State) : (draw i n s).2.fuses = s.fuses :=
  operation_fuses (draw_keepsOperation _ _ s)

@[simp] theorem drawBuffer_fuses (k : Fin 12) (n : Nat) (s : State) : (drawBuffer k n s).2.fuses = s.fuses := by simp [drawBuffer]

/-! ### How items end, and what a slice leaves -/

@[simp] theorem traceRecord_fuses (p : PortId) (engine : Nat) (i : Option Item) (reason cls : Nat) (s : State) :
    (traceRecord p engine i reason cls s).fuses = s.fuses := by
  simp [traceRecord]

@[simp] theorem traceItem_fuses (reason : Nat) (i : Item) (s : State) : (traceItem reason i s).fuses = s.fuses := by simp [traceItem]

@[simp] theorem eraseTally_fuses (sel : TallyRecord → Bool) (s : State) : (eraseTally sel s).fuses = s.fuses :=
  operation_fuses (eraseTally_keepsOperation _ s)

@[simp] theorem settleRuns_fuses (s : State) : (settleRuns s).fuses = s.fuses := operation_fuses (settleRuns_keepsOperation s)
@[simp] theorem returnReservation_fuses (id : Nat) (s : State) : (returnReservation id s).fuses = s.fuses := by simp [returnReservation]

@[simp] theorem endItem_fuses (id : Nat) (d : Done) (eng : Nat) (s : State) : (endItem id d eng s).fuses = s.fuses :=
  operation_fuses (endItem_keepsOperation _ _ _ s)

@[simp] theorem failItem_fuses (st : Status) (i : Item) (s : State) : (failItem st i s).fuses = s.fuses := by simp [failItem]

@[simp] theorem modContext_fuses (i : Item) (f : JobContext → JobContext) (s : State) : (modContext i f s).fuses = s.fuses :=
  operation_fuses (modContext_keepsOperation _ _ s)

@[simp] theorem leaveStores_fuses (i : Item) (s : State) : (leaveStores i s).fuses = s.fuses :=
  operation_fuses (leaveStores_keepsOperation _ s)

@[simp] theorem leaveUnits_fuses (i : Item) (s : State) : (leaveUnits i s).fuses = s.fuses :=
  operation_fuses (leaveUnits_keepsOperation _ s)

@[simp] theorem failInService_fuses (st : Status) (cycles : Nat) (i : Item) (s : State) : (failInService st cycles i s).fuses = s.fuses :=
  operation_fuses (failInService_keepsOperation _ _ _ s)

@[simp] theorem countAbandon_fuses (i : Item) (s : State) : (countAbandon i s).fuses = s.fuses := by
  unfold countAbandon
  (repeat' split) <;> simp

@[simp] theorem resumeTrestle_fuses (i : Item) (s : State) : (resumeTrestle i s).fuses = s.fuses :=
  operation_fuses (resumeTrestle_keepsOperation _ s)

@[simp] theorem restartCoded_fuses (code : Nat) (fault : Bool) (excl : List Engine) (i : Item) (s : State) :
    (restartCoded code fault excl i s).fuses = s.fuses := by
  simp [restartCoded]

@[simp] theorem restartItem_fuses (fault : Bool) (excl : List Engine) (i : Item) (s : State) :
    (restartItem fault excl i s).fuses = s.fuses := by
  simp [restartItem]

@[simp] theorem restartAllOn_fuses (fault : Bool) (e : Engine) (s : State) : (restartAllOn fault e s).fuses = s.fuses := by
  simp [restartAllOn]

@[simp] theorem discardItems_fuses (p : PortId) (i : SliceIdx) (s : State) : (discardItems p i s).fuses = s.fuses := by simp [discardItems]

@[simp] theorem destroySlice_fuses (p : PortId) (i : SliceIdx) (erase : Bool) (s : State) : (destroySlice p i erase s).fuses = s.fuses := by
  unfold destroySlice
  extract_lets old uid s₁ s₂ s₃ keys m s₄ s₅ s₆ cards s₇
  have h₁ : s₁.fuses = s.fuses := by
    unfold s₁
    cases old <;> simp
  have h₇ : s₇.fuses = s.fuses := by simp [s₇, s₆, s₅, s₄, s₃, s₂, h₁]
  split <;> simp [h₇]

@[simp] theorem destroyAllSlices_fuses (s : State) : (destroyAllSlices s).fuses = s.fuses := by simp [destroyAllSlices]

/-! ### Modes, fences, plans, answers -/

@[simp] theorem adminDone_fuses (p : PortId) (st : Status) (result : Nat) (output : Bytes) (s : State) :
    (adminDone p st result output s).fuses = s.fuses := by
  simp [adminDone]

@[simp] theorem ownerDone_fuses (st : Status) (s : State) : (ownerDone st s).fuses = s.fuses := by
  unfold ownerDone
  split
  · rfl
  · dsimp only
    split
    · split
      · split <;> simp
      · rfl
    · rfl

@[simp] theorem rethreadDone_fuses (st : Status) (s : State) : (rethreadDone st s).fuses = s.fuses := by
  unfold rethreadDone
  (repeat' split) <;> simp

@[simp] theorem setMode_fuses (m : Mode) (cause : Nat) (s : State) : (setMode m cause s).fuses = s.fuses := by simp [setMode]
@[simp] theorem endFirstThreading_fuses (s : State) : (endFirstThreading s).fuses = s.fuses := by simp [endFirstThreading]
@[simp] theorem enterHold_fuses (cause : Nat) (s : State) : (enterHold cause s).fuses = s.fuses := by simp [enterHold]

@[simp] theorem beginThreading_fuses (src : Nat) (other re : Bool) (cause : Nat) (s : State) :
    (beginThreading src other re cause s).fuses = s.fuses := by
  simp [beginThreading, disarmStages]

@[simp] theorem leaveWake_fuses (s : State) : (leaveWake s).fuses = s.fuses := by
  unfold leaveWake
  (repeat' split) <;> simp

@[simp] theorem leaveIdle_fuses (s : State) : (leaveIdle s).fuses = s.fuses := by simp [leaveIdle]
@[simp] theorem degrade_fuses (cause : Nat) (s : State) : (degrade cause s).fuses = s.fuses := by simp [degrade]

@[simp] theorem restartWhere_fuses (code : Nat) (fault : Bool) (sel : Engine → Bool) (s : State) :
    (restartWhere code fault sel s).fuses = s.fuses := by
  unfold restartWhere
  dsimp only
  rw [unask_fuses]
  refine foldl_fuses _ _ fun s i => ?_
  split <;> simp

@[simp] theorem fenceUnits_fuses (fault : Bool) (benches : BitVec 16) (looms : List LoomId) (trestles : BitVec 8) (selvs : BitVec 4) (s : State) :
    (fenceUnits fault benches looms trestles selvs s).fuses = s.fuses := by
  unfold fenceUnits
  dsimp only
  split <;> simp

@[simp] theorem queueSeed_fuses (i : InstId) (s : State) : (queueSeed i s).fuses = s.fuses := by simp [queueSeed]
@[simp] theorem requestSeed_fuses (i : InstId) (s : State) : (requestSeed i s).fuses = s.fuses := by simp [requestSeed]
@[simp] theorem askBenchSeeds_fuses (s : State) : (askBenchSeeds s).fuses = s.fuses := by simp [askBenchSeeds]

@[simp] theorem bobbinRestartDone_fuses (st : Status) (s : State) : (bobbinRestartDone st s).fuses = s.fuses := by
  unfold bobbinRestartDone
  (repeat' split) <;> simp

@[simp] theorem parkBenches_fuses (m : BitVec 16) (s : State) : (parkBenches m s).fuses = s.fuses := by simp [parkBenches, parkBench]
@[simp] theorem settleBelowMin_fuses (s : State) : (settleBelowMin s).fuses = s.fuses := by simp [settleBelowMin]

@[simp] theorem removeFunction_fuses (p : PortId) (s : State) : (removeFunction p s).fuses = s.fuses := by
  simp [removeFunction, destroyPortSlices]

@[simp] theorem detachFunction_fuses (p : PortId) (s : State) : (detachFunction p s).fuses = s.fuses := by simp [detachFunction]

@[simp] theorem oneSlotPowered_fuses (s : State) : (oneSlotPowered s).fuses = s.fuses := by
  unfold oneSlotPowered
  split <;> simp [cutSlot]

@[simp] theorem planFallMode_fuses (s : State) : (planFallMode s).fuses = s.fuses := by
  unfold planFallMode
  split <;> simp [bobbinOff]

@[simp] theorem replan_fuses (s : State) : (replan s).fuses = s.fuses := by simp [replan, planFall]
@[simp] theorem bulk_fuses (low : Bool) (s : State) : (bulk low s).fuses = s.fuses := by simp [bulk]
@[simp] theorem returnBenches_fuses (s : State) : (returnBenches s).fuses = s.fuses := by simp [returnBenches]

@[simp] theorem clearDrawers_fuses (s : State) : (clearDrawers s).fuses = s.fuses :=
  foldl_fuses _ _ fun _ _ => foldl_fuses _ _ fun _ _ => rfl

@[simp] theorem abandonAll_fuses (st : Status) (s : State) : (abandonAll st s).fuses = s.fuses := by
  refine foldl_fuses _ _ fun s i => ?_
  split
  · split <;> simp
  · simp
  · simp

@[simp] theorem abandonAdmin_fuses (st : Status) (s : State) : (abandonAdmin st s).fuses = s.fuses := by
  unfold abandonAdmin
  extract_lets
  rw [foldl_fuses, foldl_fuses _ _ fun s x => destroySlice_fuses ..]
  intro s p
  split
  · split <;> simp
  · rfl

@[simp] theorem zeroizeLine_fuses (s : State) : (zeroizeLine s).fuses = s.fuses := by simp [zeroizeLine, stopCeremony]

@[simp] theorem tamperFence_fuses (src : SourceId) (sc : FenceScope) (s : State) : (tamperFence src sc s).fuses = s.fuses := by
  simp [tamperFence]

@[simp] theorem haltResponse_fuses (s : State) : (haltResponse s).fuses = s.fuses := by simp [haltResponse]

@[simp] theorem markFiring_fuses (src : SourceId) (machine code cls : Nat) (s : State) :
    (markFiring src machine code cls s).fuses = s.fuses := by
  simp [markFiring]

@[simp] theorem openPair_fuses (fs : List (Firing × Nat)) (s : State) : (openPair fs s).fuses = s.fuses := by simp [openPair]
@[simp] theorem useNonce_fuses (s : State) : (useNonce s).fuses = s.fuses := by simp [useNonce]

@[simp] theorem abandonWork_fuses (s : State) (w : WaitingEnvelope) : (abandonWork s w).fuses = s.fuses := by
  unfold abandonWork
  split <;> simp

@[simp] theorem abandonSteward_fuses (s : State) : (abandonSteward s).fuses = s.fuses := by simp [abandonSteward]

/-! ### The logbook -/

@[simp] theorem takeRecord_fuses (r : LogRecord) (s : State) : (takeRecord r s).fuses = s.fuses := by
  unfold takeRecord
  (repeat' split) <;> simp

@[simp] theorem repeatRecord_fuses (seq : Word) (t : Nat) (s : State) : (repeatRecord seq t s).fuses = s.fuses := by simp [repeatRecord]

@[simp] theorem takeEvent_fuses (e : Event) (s : State) : (takeEvent e s).fuses = s.fuses := by
  unfold takeEvent
  split <;> simp

@[simp] theorem writeRecord_fuses (r : LogRecord) (s : State) : (writeRecord r s).fuses = s.fuses := by simp [writeRecord]
@[simp] theorem loseBackup_fuses (s : State) : (loseBackup s).fuses = s.fuses := by simp [loseBackup]

/-! ### The tally region -/

@[simp] theorem countTallyWrites_fuses (n : Nat) (s : State) : (countTallyWrites n s).fuses = s.fuses := by simp [countTallyWrites]

@[simp] theorem scanRecord_fuses (s : State) (t : TallyRecord) : (scanRecord s t).fuses = s.fuses := by
  unfold scanRecord
  dsimp only
  split
  · simp
  · split
    · split <;> simp
    · simp

@[simp] theorem writeTally_fuses (number : Nat) (c : TallyCopy) (w : TallyWaiter) (s : State) :
    (writeTally number c w s).fuses = s.fuses := by
  simp [writeTally]

@[simp] theorem reserveTally_fuses (id : Nat) (uid : BitVec 64) (s : State) : (reserveTally id uid s).fuses = s.fuses := by
  unfold reserveTally
  split <;> rfl

@[simp] theorem reserveIndices_fuses (t : TallyRecord) (s : State) : (reserveIndices t s).fuses = s.fuses := by
  unfold reserveIndices
  split <;> simp

@[simp] theorem reserveFor_fuses (i : Item) (s : State) : (reserveFor i s).fuses = s.fuses := by
  unfold reserveFor
  (repeat' split) <;> simp

@[simp] theorem bindIndex_fuses (i : Item) (s : State) : (bindIndex i s).fuses = s.fuses := by
  unfold bindIndex
  (repeat' split) <;> simp [raisePointer]

@[simp] theorem markExhausted_fuses (i : Item) (s : State) : (markExhausted i s).fuses = s.fuses := by
  unfold markExhausted
  (repeat' split) <;> simp

/-! ### Reports to the host -/

@[simp] theorem sendMessage_fuses (p : PortId) (vector : Nat) (s : State) : (sendMessage p vector s).fuses = s.fuses := by
  unfold sendMessage
  dsimp only
  split
  · rfl
  · split <;> simp

@[simp] theorem queueMessage_fuses (p : PortId) (n : Nat) (s : State) : (queueMessage p n s).fuses = s.fuses := by
  unfold queueMessage
  split <;> simp

@[simp] theorem adminMessage_fuses (p : PortId) (s : State) : (adminMessage p s).fuses = s.fuses := by simp [adminMessage]

@[simp] theorem countWritten_fuses (p : PortId) (n : Nat) (e : Entry) (s : State) : (countWritten p n e s).fuses = s.fuses := by
  unfold countWritten
  dsimp only
  split <;> simp

@[simp] theorem queueError_fuses (p : PortId) (n err : Nat) (s : State) : (queueError p n err s).fuses = s.fuses := by
  unfold queueError
  (repeat' split) <;> simp

@[simp] theorem report_fuses (src : Nat) (ue : Bool) (s : State) : (report src ue s).fuses = s.fuses := by simp [report]

/-! ### Admission and ring reads -/

@[simp] theorem takeScratch_fuses (id : Nat) (s : State) : (takeScratch id s).fuses = s.fuses := by
  unfold takeScratch
  (repeat' split) <;> simp

@[simp] theorem enterList_fuses (id : Nat) (s : State) : (enterList id s).fuses = s.fuses := by
  unfold enterList
  split <;> simp

@[simp] theorem park_fuses (full : Bool) (id : Nat) (s : State) : (park full id s).fuses = s.fuses := by
  unfold park
  split <;> simp

@[simp] theorem offer_fuses (id : Nat) (s : State) : (offer id s).fuses = s.fuses := by
  unfold offer
  dsimp only
  split <;> simp

@[simp] theorem settleCredit_fuses (s : State) : (settleCredit s).fuses = s.fuses := by simp [settleCredit]

@[simp] theorem askPages_fuses (p : PortId) (i : SliceIdx) (pages : List Nat) (s : State) : (askPages p i pages s).fuses = s.fuses := by
  simp [askPages]

@[simp] theorem touchPages_fuses (p : PortId) (i : SliceIdx) (pages : List Nat) (s : State) : (touchPages p i pages s).fuses = s.fuses := by
  simp [touchPages]

@[simp] theorem issueRead_fuses (q : Queue) (n : Nat) (s : State) : (issueRead q n s).fuses = s.fuses := by simp [issueRead]

@[simp] theorem pumpScans_fuses (s : State) : (pumpScans s).fuses = s.fuses := by
  refine foldl_fuses _ _ fun s q => ?_
  split <;> simp

@[simp] theorem pumpAdmin_fuses (s : State) : (pumpAdmin s).fuses = s.fuses := by simp [pumpAdmin]

@[simp] theorem settleDrains_fuses (s : State) : (settleDrains s).fuses = s.fuses := by
  refine foldl_fuses _ _ fun s p => ?_
  dsimp only
  split <;> simp

@[simp] theorem settleHeddle_fuses (s : State) : (settleHeddle s).fuses = s.fuses := by simp [settleHeddle, markOldest]
@[simp] theorem settleAfterLeave_fuses (s : State) : (settleAfterLeave s).fuses = s.fuses := by simp [settleAfterLeave, retryParked]

@[simp] theorem touchFetch_fuses (q : Queue) (f : Fetched) (reached : Bool) (s : State) : (touchFetch q f reached s).fuses = s.fuses := by
  simp [touchFetch]

@[simp] theorem reserve_fuses (id : Nat) (x : Slice) (info : OpInfo) (e : Entry) (s : State) : (reserve id x info e s).fuses = s.fuses := by
  unfold reserve
  (repeat' split) <;> simp

@[simp] theorem failAtFetch_fuses (id : Nat) (x : Slice) (ff : FetchFail) (s : State) : (failAtFetch id x ff s).fuses = s.fuses := by
  unfold failAtFetch
  dsimp only
  split <;> simp

@[simp] theorem placeItem_fuses (id : Nat) (random : Bool) (s : State) : (placeItem id random s).fuses = s.fuses := by
  unfold placeItem
  split <;> simp

@[simp] theorem takeEntry_fuses (q : Queue) (x : Slice) (f : Fetched) (s : State) : (takeEntry q x f s).fuses = s.fuses := by
  unfold takeEntry
  extract_lets id e info fail claim named i s₁ items s₂ s₃ s₄
  have h₃ : s₃.fuses = s.fuses := by simp [s₃, s₂, s₁]
  have h₄ : s₄.fuses = s.fuses := by
    unfold s₄
    cases claim <;> simp [h₃]
  cases fail <;> simp [h₄]

@[simp] theorem takeEntries_fuses (p : PortId) (n : Nat) (l : List Fetched) (s : State) : (takeEntries p n l s).1.fuses = s.fuses := by
  induction l generalizing s with
  | nil => rfl
  | cons f l ih =>
    unfold takeEntries
    split
    · rfl
    · split
      · rfl
      · split
        · rfl
        · split
          · rfl
          · rw [ih, settleCredit_fuses, takeEntry_fuses]

@[simp] theorem afterRead_fuses (p : PortId) (n : Nat) (stopped : Bool) (s : State) : (afterRead p n stopped s).fuses = s.fuses := by
  unfold afterRead
  split <;> simp

@[simp] theorem workRead_fuses (p : PortId) (n count : Nat) (r : RingResult) (s : State) : (workRead p n count r s).fuses = s.fuses := by
  unfold workRead
  dsimp only
  split <;> simp

@[simp] theorem barAdmin_fuses (p : PortId) (code : Nat) (s : State) : (barAdmin p code s).fuses = s.fuses := by simp [barAdmin]

@[simp] theorem adminRead_fuses (p : PortId) (r : RingResult) (s : State) : (adminRead p r s).fuses = s.fuses := by
  unfold adminRead
  (repeat' split) <;> simp [takeAdmin]

@[simp] theorem outputFault_fuses (e : Engine) (s : State) : (outputFault e s).fuses = s.fuses := by
  unfold outputFault
  split <;> simp

@[simp] theorem writtenBytes_fuses (overlaps : Bool) (bs : Bytes) (s : State) : (writtenBytes overlaps bs s).2.fuses = s.fuses := by
  unfold writtenBytes
  split <;> simp

@[simp] theorem writeItem_fuses (i : Item) (d : Done) (w : WriteBack) (s : State) : (writeItem i d w s).fuses = s.fuses := by
  unfold writeItem
  (repeat' split) <;> simp [writeOutput, outputBytes]

@[simp] theorem writeCompletion_fuses (id : Nat) (outcome : WriteBack) (s : State) : (writeCompletion id outcome s).fuses = s.fuses := by
  unfold writeCompletion
  (repeat' split) <;> simp [writeAdmin]

/-! ### The heddle -/

@[simp] theorem enterContext_fuses (i : Item) (draws : Bool) (s : State) : (enterContext i draws s).fuses = s.fuses := by
  unfold enterContext
  (repeat' split) <;> simp

@[simp] theorem grantDraws_fuses (e : Engine) (i : Item) (s : State) : (grantDraws e i s).fuses = s.fuses := by
  unfold grantDraws
  split <;> simp [startRoutine]

@[simp] theorem grantActs_fuses (e : Engine) (i : Item) (s : State) : (grantActs e i s).fuses = s.fuses := by
  unfold grantActs
  (repeat' split) <;> simp [requestPred]

@[simp] theorem suspendLong_fuses (t : TrestleId) (s : State) : (suspendLong t s).fuses = s.fuses := by
  unfold suspendLong
  split <;> simp

@[simp] theorem grant_fuses (e : Engine) (yielding : List TrestleId) (i : Item) (reason : Nat) (s : State) :
    (grant e yielding i reason s).fuses = s.fuses := by
  unfold grant
  extract_lets partner t s₁ ctx placed s₂ m s₃ s₄ c last heddle s₅ s₆ s₇
  have h₁ : s₁.fuses = s.fuses := by
    unfold s₁
    cases t <;> simp
  have h₃ : s₃.fuses = s₂.fuses := by
    unfold s₃
    cases t <;> simp
  have h₇ : s₇.fuses = s.fuses := by simp [s₇, s₆, s₅, s₄, h₃, s₂, h₁]
  split
  · split <;> simp [h₇]
  · simp [h₇]

@[simp] theorem grantLoop_fuses (n : Nat) (e : Engine) (y : List TrestleId) (only : Item → Bool) (s : State) :
    (grantLoop n e y only s).1.fuses = s.fuses := by
  induction n generalizing s with
  | zero => rfl
  | succ n ih =>
    unfold grantLoop
    split
    · rfl
    · split
      · simp [ih]
      · exact grant_fuses ..

@[simp] theorem serveFirst_fuses (y : List TrestleId) (l : List Engine) (s : State) : (serveFirst y l s).1.fuses = s.fuses := by
  induction l generalizing s with
  | nil => rfl
  | cons e l ih =>
    unfold serveFirst
    dsimp only
    split
    · exact grantLoop_fuses ..
    · rw [ih, grantLoop_fuses]

@[simp] theorem serveClass_fuses (x : State × List TrestleId × Bool) (c : SvcClass) : (serveClass x c).1.fuses = x.1.fuses := by
  unfold serveClass
  dsimp only
  split
  · rfl
  · split <;> exact serveFirst_fuses ..

@[simp] theorem heddleCycle_fuses (y : List TrestleId) (s : State) : (heddleCycle y s).fuses = s.fuses := by
  unfold heddleCycle
  rw [ite_fuses, foldl_fuses_of Prod.fst serveClass_fuses]
  exact ite_self _

@[simp] theorem serveYield_fuses (l : List Engine) (s : State) : (serveYield l s).fuses = s.fuses := by
  induction l generalizing s with
  | nil => rfl
  | cons e l ih =>
    unfold serveYield
    dsimp only
    split
    · exact grantLoop_fuses ..
    · rw [ih, grantLoop_fuses]

@[simp] theorem routineFault_fuses (i : Item) (s : State) : (routineFault i s).fuses = s.fuses := by
  unfold routineFault
  split <;> simp

@[simp] theorem finishKey_fuses (id : Nat) (r : KeyRun) (s : State) : (finishKey id r s).fuses = s.fuses := by
  unfold finishKey
  (repeat' split) <;> simp

@[simp] theorem retireKey_fuses (id : Nat) (r : KeyRun) (s : State) : (retireKey id r s).fuses = s.fuses := by
  unfold retireKey
  (repeat' split) <;> simp

@[simp] theorem takeBlock_fuses (u : FarmUser) (s : State) : (takeBlock u s).fuses = s.fuses := by
  unfold takeBlock
  split <;> simp

/-! ### Commits -/

@[simp] theorem countLoomMismatch_fuses (n : LoomId) (lane : Option (Fin 8)) (s : State) :
    (countLoomMismatch n lane s).fuses = s.fuses := by
  simp [countLoomMismatch]

@[simp] theorem loomMismatch_fuses (n : LoomId) (lane : Option (Fin 8)) (s : State) : (loomMismatch n lane s).fuses = s.fuses := by
  simp [loomMismatch]

@[simp] theorem selvMismatch_fuses (u : SelvId) (s : State) : (selvMismatch u s).fuses = s.fuses := by simp [selvMismatch]
@[simp] theorem fenceTrestle_fuses (t : TrestleId) (s : State) : (fenceTrestle t s).fuses = s.fuses := by simp [fenceTrestle]
@[simp] theorem reportTrestle_fuses (t : TrestleId) (s : State) : (reportTrestle t s).fuses = s.fuses := by simp [reportTrestle]

@[simp] theorem countTrestleMismatch_fuses (t : TrestleId) (s : State) : (countTrestleMismatch t s).fuses = s.fuses := by
  simp [countTrestleMismatch]

@[simp] theorem trestleMismatch_fuses (t : TrestleId) (i : Item) (s : State) : (trestleMismatch t i s).fuses = s.fuses := by
  simp [trestleMismatch]

@[simp] theorem bothMismatch_fuses (n : LoomId) (lane : Option (Fin 8)) (t : TrestleId) (i : Item) (s : State) :
    (bothMismatch n lane t i s).fuses = s.fuses := by
  simp [bothMismatch]

@[simp] theorem commitRun_fuses (i : Item) (kind family set : Nat) (policy : Word) (content : Bytes) (keyId : Nat) (building : Bool) (s : State) :
    (commitRun i kind family set policy content keyId building s).fuses = s.fuses := by
  unfold commitRun
  split <;> simp

@[simp] theorem commitAct_fuses (i : Item) (a : CommitAct) (s : State) : (commitAct i a s).fuses = s.fuses := by
  unfold commitAct
  (repeat' split) <;> simp [installLoom, touchLoom, installSelv, touchSelv]

@[simp] theorem countLookup_fuses (i : Item) (hit : Option Bool) (s : State) : (countLookup i hit s).fuses = s.fuses := by
  unfold countLookup
  split <;> simp

@[simp] theorem addAverage_fuses (i : Item) (cycles : Nat) (s : State) : (addAverage i cycles s).fuses = s.fuses := by
  unfold addAverage
  (repeat' split) <;> simp

@[simp] theorem passBuffer_fuses (i : Item) (s : State) : (passBuffer i s).fuses = s.fuses := by
  unfold passBuffer
  split <;> simp

@[simp] theorem commitItem_fuses (e : Engine) (cycles : Nat) (i : Item) (r : ItemResult) (s : State) :
    (commitItem e cycles i r s).fuses = s.fuses := by
  unfold commitItem
  split <;> simp

@[simp] theorem routineEnds_fuses (e : Engine) (s : State) : (routineEnds e s).fuses = s.fuses := by
  unfold routineEnds
  split <;> simp

@[simp] theorem commitLoom_fuses (n : LoomId) (cycles : Nat) (i : Item) (r : ItemResult) (s : State) :
    (commitLoom n cycles i r s).fuses = s.fuses := by
  unfold commitLoom
  (repeat' split) <;> simp

@[simp] theorem commitOther_fuses (e : Engine) (cycles : Nat) (i : Item) (r : ItemResult) (s : State) :
    (commitOther e cycles i r s).fuses = s.fuses := by
  unfold commitOther
  split
  · split <;> simp
  · simp
  · simp
  · simp

@[simp] theorem commitRoutine_fuses (n : LoomId) (cycles : Nat) (i : Item) (s : State) : (commitRoutine n cycles i s).fuses = s.fuses := by
  unfold commitRoutine
  (repeat' split) <;> simp

@[simp] theorem commitOn_fuses (e : Engine) (cycles : Nat) (s : State) : (commitOn e cycles s).fuses = s.fuses := by
  unfold commitOn
  (repeat' split) <;> simp

/-! ### Start-up -/

@[simp] theorem loadCal_fuses (s : State) : (loadCal s).fuses = s.fuses := by
  unfold loadCal
  split <;> simp [useCal, markBaselines]

@[simp] theorem deriveIdentity_fuses (s : State) : (deriveIdentity s).fuses = s.fuses := by simp [deriveIdentity]
@[simp] theorem readChest_fuses (s : State) : (readChest s).fuses = s.fuses := by simp [readChest]

@[simp] theorem recordCheck_fuses (src : Nat) (ownerPart : Bool) (f : CheckFail) (s : State) :
    (recordCheck src ownerPart f s).fuses = s.fuses := by
  simp [recordCheck]

@[simp] theorem loadDraft_fuses (src : Nat) (other_ re : Bool) (whole : Draft) (s : State) :
    (loadDraft src other_ re whole s).fuses = s.fuses := by
  simp [loadDraft, enterPlanUnits, newFamily, clampApplied]

@[simp] theorem draftRead_fuses (readOk : Bool) (src : Nat) (other re : Bool) (s : State) :
    (draftRead readOk src other re s).fuses = s.fuses := by
  unfold draftRead
  dsimp only
  split <;> simp

@[simp] theorem applyTestFences_fuses (re : Bool) (f : TestFences) (s : State) : (applyTestFences re f s).fuses = s.fuses := by
  simp [applyTestFences]

@[simp] theorem clearSticky_fuses (f : TestFences) (cabinet : Bool) (s : State) : (clearSticky f cabinet s).fuses = s.fuses := by
  simp [clearSticky]

@[simp] theorem clearAllDrawers_fuses (s : State) : (clearAllDrawers s).fuses = s.fuses := by
  unfold clearAllDrawers
  dsimp only
  rw [foldl_fuses _ _ fun s i => failItem_fuses _ i s]
  dsimp only
  split
  · rw [modInstance_fuses, draw_fuses]
  · rfl

@[simp] theorem endThreading_fuses (s : State) : (endThreading s).fuses = s.fuses := by simp [endThreading]

@[simp] theorem tornBurn_fuses (s : State) : (tornBurn s).2.fuses = s.fuses := by
  unfold tornBurn
  split <;> simp

@[simp] theorem ownerStart_fuses (s : State) : (ownerStart s).fuses = s.fuses := by simp [ownerStart]
@[simp] theorem quorumFails_fuses (s : State) : (quorumFails s).fuses = s.fuses := by simp [quorumFails]

/-! ### Cards and ceremonies -/

@[simp] theorem powerSlots_fuses (s : State) : (powerSlots s).fuses = s.fuses := cards_fuses (powerSlots_keepsCards s)

@[simp] theorem sendTo_fuses (c : CardSlot) (op : BitVec 5) (arg : Nat) (s : State) : (sendTo c op arg s).fuses = s.fuses :=
  cards_fuses (sendTo_keepsCards _ _ _ s)

@[simp] theorem attachCard_fuses (c : CardSlot) (s : State) : (attachCard c s).fuses = s.fuses := cards_fuses (attachCard_keepsCards _ s)

@[simp] theorem readRun_fuses (c : CardSlot) (first n : Nat) (s : State) : (readRun c first n s).fuses = s.fuses :=
  cards_fuses (readRun_keepsCards _ _ _ s)

@[simp] theorem reachCard_fuses (c : CardSlot) (s : State) : (reachCard c s).fuses = s.fuses := by simp [reachCard, sendSwitch]
@[simp] theorem leaveCard_fuses (c : CardSlot) (s : State) : (leaveCard c s).fuses = s.fuses := cards_fuses (leaveCard_keepsCards _ s)

@[simp] theorem readCopy_fuses (c : CardSlot) (p : CardPlace) (b : Bool) (n : Nat) (s : State) : (readCopy c p b n s).fuses = s.fuses := by
  simp [readCopy]

@[simp] theorem readQuorum_fuses (s : State) : (readQuorum s).fuses = s.fuses := by simp [readQuorum]
@[simp] theorem lockSlot_fuses (c : CardSlot) (s : State) : (lockSlot c s).fuses = s.fuses := cards_fuses (lockSlot_keepsCards _ s)
@[simp] theorem noRoom_fuses (c : CardSlot) (s : State) : (noRoom c s).fuses = s.fuses := by simp [noRoom]

@[simp] theorem sendCopy_fuses (c : CardSlot) (first : Nat) (bytes : Bytes) (acks : List (BitVec 4)) (s : State) :
    (sendCopy c first bytes acks s).fuses = s.fuses := by
  simp [sendCopy, writeRun]

@[simp] theorem writeCard_fuses {α : Type} (c : CardSlot) (p : CardPlace) (new : Stored α) (payload : Bytes) (w : CardWrite)
    (f : CardState → CardState) (s : State) : (writeCard c p new payload w f s).1.fuses = s.fuses := by
  unfold writeCard
  split
  · rfl
  · split
    · simp
    · extract_lets n s₁
      split <;> simp [s₁]

@[simp] theorem failCeremony_fuses (err : Nat) (s : State) : (failCeremony err s).fuses = s.fuses := by simp [failCeremony]

@[simp] theorem commitCeremony_fuses (kind : Nat) (ork owner : Bytes) (seq : Word) (s : State) :
    (commitCeremony kind ork owner seq s).fuses = s.fuses := by
  simp [commitCeremony, newDeviceRoot]

@[simp] theorem endCeremony_fuses (s : State) : (endCeremony s).fuses = s.fuses := by simp [endCeremony]

@[simp] theorem finishCeremony_fuses (b : CeremonyBlock) (s : State) : (finishCeremony b s).fuses = s.fuses := by
  unfold finishCeremony
  split <;> simp

@[simp] theorem drawCeremony_fuses (b : CeremonyBlock) (s : State) : (drawCeremony b s).fuses = s.fuses := by
  unfold drawCeremony
  split <;> simp

@[simp] theorem runCeremony_fuses (b : CeremonyBlock) (s : State) : (runCeremony b s).fuses = s.fuses := by
  unfold runCeremony
  dsimp only
  split
  · simp
  · split <;> simp
  · split
    · split <;> simp
    · simp

@[simp] theorem continueCeremony_fuses (s : State) : (continueCeremony s).fuses = s.fuses := by
  unfold continueCeremony
  split <;> simp

/-! ### The bobbin -/

@[simp] theorem failWaiting_fuses (s : State) : (failWaiting s).fuses = s.fuses := by
  unfold failWaiting
  split
  · rfl
  · rw [settleAfterLeave_fuses]
    dsimp only
    rw [foldl_fuses _ _ fun s c => emit_fuses _ s, foldl_fuses, foldl_fuses _ _ fun s i => failItem_fuses _ i s]
    intro s p
    split
    · split <;> simp
    · rfl

@[simp] theorem bobbinFails_fuses (s : State) : (bobbinFails s).fuses = s.fuses := by simp [bobbinFails]

@[simp] theorem takeSeed_fuses (s : State) : (takeSeed s).2.fuses = s.fuses := by
  unfold takeSeed
  split <;> simp [conditionBlock]

@[simp] theorem giveNonce_fuses (p : PortId) (seq : BitVec 16) (s : State) : (giveNonce p seq s).fuses = s.fuses := by simp [giveNonce]
@[simp] theorem releaseSeedWaits_fuses (s : State) : (releaseSeedWaits s).fuses = s.fuses := by simp [releaseSeedWaits]

/-! ### Life cycle, stages -/

@[simp] theorem onUsb_fuses (p : PortId) (act : State → State) (s : State) (h : ∀ t, (act t).fuses = t.fuses) :
    (onUsb p act s).fuses = s.fuses := by
  simp [onUsb, h]

@[simp] theorem beginTransition_fuses (target : Nat) (byToken : Option (PortId × BitVec 16)) (s : State) :
    (beginTransition target byToken s).fuses = s.fuses := by
  unfold beginTransition
  split <;> simp

@[simp] theorem wipeForExit_fuses (target : Nat) (s : State) : (wipeForExit target s).fuses = s.fuses := by simp [wipeForExit]

/-! ### ? -/

@[simp] theorem aloneTo_fuses (t : Nat) (s : State) : (aloneTo t s).fuses = s.fuses := by simp [aloneTo]

@[simp] theorem markShareClamp_fuses (off : Nat) (v : Word) (s : State) (p : PortId) : (markShareClamp off v s p).fuses = s.fuses := by
  unfold markShareClamp
  split <;> simp

@[simp] theorem applyField_fuses (p : PortId) (s : State) (e : StagedField × Nat) : (applyField p s e).fuses = s.fuses := by
  unfold applyField
  split <;> simp

@[simp] theorem applyStage_fuses (t : Nat) (s : State) (p : PortId) : (applyStage t s p).fuses = s.fuses := by simp [applyStage]
@[simp] theorem applyDevice_fuses (t : Nat) (s : State) : (applyDevice t s).fuses = s.fuses := by simp [applyDevice, scaleWeights]

@[simp] theorem commitStage_fuses (p : PortId) (sum : BitVec 16) (s : State) : (commitStage p sum s).fuses = s.fuses := by
  simp [commitStage]

@[simp] theorem discardStage_fuses (p : PortId) (s : State) : (discardStage p s).fuses = s.fuses := by simp [discardStage]

/-! ### Slices and queues -/

@[simp] theorem adminCommand_fuses (p : PortId) (code : Nat) (act : AdminEntry → State → State) (s : State)
    (h : ∀ e t, (act e t).fuses = t.fuses) : (adminCommand p code act s).fuses = s.fuses := by
  unfold adminCommand
  split
  · rfl
  · simp [h]

@[simp] theorem adminDoneLen_fuses (p : PortId) (st : Status) (result len : Nat) (s : State) :
    (adminDoneLen p st result len s).fuses = s.fuses := by
  simp [adminDoneLen]

@[simp] theorem adminWait_fuses (p : PortId) (w : AdminWait) (s : State) : (adminWait p w s).fuses = s.fuses := by simp [adminWait]
@[simp] theorem refuseSlice_fuses (p : PortId) (code : Nat) (s : State) : (refuseSlice p code s).fuses = s.fuses := by simp [refuseSlice]
@[simp] theorem refuseQueue_fuses (p : PortId) (code : Nat) (s : State) : (refuseQueue p code s).fuses = s.fuses := by simp [refuseQueue]
@[simp] theorem refuseMove_fuses (p : PortId) (code : Nat) (s : State) : (refuseMove p code s).fuses = s.fuses := by simp [refuseMove]

@[simp] theorem createSliceAct_fuses (p : PortId) (e : AdminEntry) (s : State) : (createSliceAct p e s).fuses = s.fuses := by
  unfold createSliceAct
  split <;> simp

@[simp] theorem destroySliceAct_fuses (p : PortId) (e : AdminEntry) (s : State) : (destroySliceAct p e s).fuses = s.fuses := by
  unfold destroySliceAct
  split <;> simp

@[simp] theorem createQueueAct_fuses (p : PortId) (e : AdminEntry) (s : State) : (createQueueAct p e s).fuses = s.fuses := by
  unfold createQueueAct
  (repeat' split) <;> simp

@[simp] theorem removeQueue_fuses (p : PortId) (n : Nat) (s : State) : (removeQueue p n s).fuses = s.fuses := by simp [removeQueue]

@[simp] theorem destroyQueueAct_fuses (p : PortId) (e : AdminEntry) (s : State) : (destroyQueueAct p e s).fuses = s.fuses := by
  unfold destroyQueueAct
  dsimp only
  split
  · simp
  · split <;> simp

@[simp] theorem installQueue_fuses (p : PortId) (n : Nat) (s : State) : (installQueue p n s).fuses = s.fuses := by
  unfold installQueue
  (repeat' split) <;> simp

@[simp] theorem installPort_fuses (s : State) (p : PortId) : (installPort s p).fuses = s.fuses := by
  unfold installPort
  (repeat' split) <;> simp [installSlice, thawSlice]

/-! ### Owner commands -/

@[simp] theorem acceptEnvelope_fuses (p : PortId) (origin : OwnerOrigin) (e : Envelope) (op : OwnerOperand) (s : State) :
    (acceptEnvelope p origin e op s).fuses = s.fuses := by
  simp [acceptEnvelope]

@[simp] theorem takeEnvelope_fuses (p : PortId) (origin : OwnerOrigin) (e : Envelope) (refuse : Status → State → State) (s : State)
    (h : ∀ st t, (refuse st t).fuses = t.fuses) : (takeEnvelope p origin e refuse s).fuses = s.fuses := by
  unfold takeEnvelope
  split
  · exact h _ _
  · split
    · exact h _ _
    · split
      · simp
      · exact h _ _

@[simp] theorem entryEnvelope_fuses (p : PortId) (id : Nat) (env : Envelope) (s : State) : (entryEnvelope p id env s).fuses = s.fuses := by
  unfold entryEnvelope
  split <;> simp

@[simp] theorem signedAdmin_fuses (p : PortId) (seq : BitVec 16) (env : Envelope) (s : State) :
    (signedAdmin p seq env s).fuses = s.fuses := by
  have henvelope := takeEnvelope_fuses p (.usb p seq) env (fun st s => emit (.usb p 0x0010 seq st []) s) (h := fun _ _ => rfl) s
  simp [signedAdmin, henvelope]

@[simp] theorem takeWork_fuses (p : PortId) (seq : BitVec 16) (w : StewardWork) (s : State) : (takeWork p seq w s).fuses = s.fuses := by
  unfold takeWork
  split <;> simp [debugResponse, enterTestRoot]

@[simp] theorem takeWaiting_fuses (s : State) : (takeWaiting s).fuses = s.fuses := by
  unfold takeWaiting
  split <;> simp

@[simp] theorem arriveWork_fuses (p : PortId) (seq : BitVec 16) (w : StewardWork) (s : State) : (arriveWork p seq w s).fuses = s.fuses := by
  simp [arriveWork]

@[simp] theorem releaseHold_fuses (s : State) : (releaseHold s).fuses = s.fuses := by
  unfold releaseHold
  split <;> simp

/-! ### Routines -/

@[simp] theorem reserveDeposit_fuses (i : Item) (drawers : Nat) (s : State) : (reserveDeposit i drawers s).fuses = s.fuses := by
  unfold reserveDeposit
  (repeat' split) <;> simp

@[simp] theorem routineCycle_fuses (n : LoomId) (i : Item) (s : State) : (routineCycle n i s).fuses = s.fuses := by
  unfold routineCycle
  dsimp only
  split
  · rw [routineEnds_fuses]
    split <;> simp
  · split <;> simp

@[simp] theorem loomCycles_fuses (k : Nat) (n : LoomId) (s : State) : (loomCycles k n s).fuses = s.fuses := by
  induction k generalizing s with
  | zero => rfl
  | succ k ih =>
    unfold loomCycles
    split
    · rfl
    · rw [ih, routineCycle_fuses]

@[simp] theorem runRoutines_fuses (t0 t1 : Nat) (s : State) : (runRoutines t0 t1 s).fuses = s.fuses :=
  foldl_fuses _ _ fun s n => loomCycles_fuses _ n s

@[simp] theorem passTo_fuses (t : Nat) (s : State) : (passTo t s).fuses = s.fuses := by simp [passTo, advanceTo]

/-! ### The host function -/

@[simp] theorem sendPending_fuses (p : PortId) (s : State) : (sendPending p s).fuses = s.fuses := by
  unfold sendPending
  dsimp only
  split <;> simp

@[simp] theorem resetFunction_fuses (p : PortId) (keep : Port → Port) (s : State) : (resetFunction p keep s).fuses = s.fuses := by
  simp [resetFunction]

/-! ### Mismatches and faults -/

@[simp] theorem duplicateMismatch_fuses (e : Engine) (s : State) : (duplicateMismatch e s).fuses = s.fuses := by
  unfold duplicateMismatch
  split <;> simp

@[simp] theorem verifyMismatch_fuses (n : LoomId) (found : VerifyFinding) (s : State) : (verifyMismatch n found s).fuses = s.fuses := by
  unfold verifyMismatch
  (repeat' split) <;> simp

@[simp] theorem correctable_fuses (src : Nat) (s : State) : (correctable src s).fuses = s.fuses := by
  simp [correctable, correctedEvent, raiseUnit]

@[simp] theorem benchFault_fuses (b : BenchId) (s : State) : (benchFault b s).fuses = s.fuses := by simp [benchFault]

@[simp] theorem loomFault_fuses (n : LoomId) (cacheOnly : Bool) (s : State) : (loomFault n cacheOnly s).fuses = s.fuses := by
  simp [loomFault]

@[simp] theorem trestleFault_fuses (t : TrestleId) (hit : Item → Bool) (s : State) : (trestleFault t hit s).fuses = s.fuses := by
  simp [trestleFault]

@[simp] theorem selvFault_fuses (u : SelvId) (keyStore : Bool) (s : State) : (selvFault u keyStore s).fuses = s.fuses := by
  simp [selvFault]

@[simp] theorem shuttleFault_fuses (p : PortId) (s : State) : (shuttleFault p s).fuses = s.fuses := by
  unfold shuttleFault
  dsimp only
  split
  · simp
  · split <;> simp

@[simp] theorem entryFault_fuses (id : Nat) (copyReadable : Bool) (s : State) : (entryFault id copyReadable s).fuses = s.fuses := by
  unfold entryFault
  split <;> simp [loseItem]

@[simp] theorem cabinetHold_fuses (s : State) : (cabinetHold s).fuses = s.fuses := by simp [cabinetHold]

@[simp] theorem drawerFault_fuses (p : PortId) (slice : SliceIdx) (index : Nat) (s : State) :
    (drawerFault p slice index s).fuses = s.fuses := by
  unfold drawerFault
  dsimp only
  split
  · simp
  · split <;> simp

@[simp] theorem chestFault_fuses (s : State) : (chestFault s).fuses = s.fuses := by simp [chestFault]
@[simp] theorem slotFault_fuses (d : DigestSlot) (s : State) : (slotFault d s).fuses = s.fuses := by simp [slotFault]

@[simp] theorem instanceFault_fuses (i : InstId) (drawing : Option Nat) (s : State) : (instanceFault i drawing s).fuses = s.fuses := by
  unfold instanceFault
  extract_lets s₁ s₂ s₃
  have h₃ : s₃.fuses = s.fuses := by
    unfold s₃
    split <;> simp [s₂, s₁]
  split
  · split <;> simp [h₃]
  · exact h₃

@[simp] theorem conditionerFault_fuses (s : State) : (conditionerFault s).fuses = s.fuses := by simp [conditionerFault]

@[simp] theorem fabricFault_fuses (load : FabricLoad) (s : State) : (fabricFault load s).fuses = s.fuses := by
  unfold fabricFault
  extract_lets s₁
  have h₁ : s₁.fuses = s.fuses := by simp [s₁]
  split
  · split
    · split <;> simp [h₁]
    · exact h₁
  · split <;> simp [h₁]
  · exact h₁

@[simp] theorem flashFault_fuses (s : State) : (flashFault s).fuses = s.fuses := by simp [flashFault]

/-! ### Ageing, power, tamper repeats -/

@[simp] theorem replanBench_fuses (b : BenchId) (c : BenchCal) (s : State) : (replanBench b c s).fuses = s.fuses := by
  simp [replanBench, clockStep]

@[simp] theorem ageingDone_fuses (b : BenchId) (slack tj : Int) (s : State) : (ageingDone b slack tj s).fuses = s.fuses := by
  unfold ageingDone
  dsimp only
  split
  · rfl
  · split
    · simp
    · split
      · simp
      · split <;> simp

@[simp] theorem replanIfOn_fuses (s : State) : (replanIfOn s).fuses = s.fuses := by simp [replanIfOn]
@[simp] theorem settleIfOn_fuses (s : State) : (settleIfOn s).fuses = s.fuses := by simp [settleIfOn]

@[simp] theorem replaceContract_fuses (p : PortId) (c : Contract) (s : State) : (replaceContract p c s).fuses = s.fuses := by
  simp [replaceContract]

@[simp] theorem portDetach_fuses (p : PortId) (linkOnly bulkLow : Bool) (s : State) :
    (portDetach p linkOnly bulkLow s).fuses = s.fuses := by
  simp [portDetach]

@[simp] theorem contractDrop_fuses (p : PortId) (volts current : Nat) (bulkLow : Bool) (s : State) :
    (contractDrop p volts current bulkLow s).fuses = s.fuses := by
  simp [contractDrop]

@[simp] theorem throttleOne_fuses (s : State) : (throttleOne s).fuses = s.fuses := by
  unfold throttleOne
  split <;> simp

@[simp] theorem latchRepeat_fuses (ev : Nat) (s : State) : (latchRepeat ev s).fuses = s.fuses := by simp [latchRepeat]

@[simp] theorem tamperRepeat_fuses (src : SourceId) (s : State) : (tamperRepeat src s).fuses = s.fuses := by
  unfold tamperRepeat
  dsimp only
  split
  · simp
  · split
    · simp
    · split <;> simp

@[simp] theorem alarmAtFall_fuses (before : State) (x : Firing × Nat) (s : State) : (alarmAtFall before x s).fuses = s.fuses := by
  simp [alarmAtFall]

/-! ### The beat -/

@[simp] theorem settleBudgets_fuses (s : State) : (settleBudgets s).fuses = s.fuses := by simp [settleBudgets]

@[simp] theorem returnUnits_fuses (s : State) : (returnUnits s).fuses = s.fuses := by
  unfold returnUnits
  split <;> simp [planRise]

@[simp] theorem readvertise_fuses (s : State) : (readvertise s).fuses = s.fuses := by simp [readvertise]

/-! ### Slices that move -/

@[simp] theorem freezeSlice_fuses (p : PortId) (i : SliceIdx) (s : State) : (freezeSlice p i s).fuses = s.fuses := by simp [freezeSlice]

@[simp] theorem freezeSliceAct_fuses (p : PortId) (e : AdminEntry) (s : State) : (freezeSliceAct p e s).fuses = s.fuses := by
  unfold freezeSliceAct
  (repeat' split) <;> simp

@[simp] theorem thawSliceAct_fuses (p : PortId) (e : AdminEntry) (s : State) : (thawSliceAct p e s).fuses = s.fuses := by
  unfold thawSliceAct
  (repeat' split) <;> simp

@[simp] theorem handOff_fuses (low : Nat) (s : State) (k : KeyRun × TallyRecord) : (handOff low s k).fuses = s.fuses := by
  unfold handOff
  split <;> simp

@[simp] theorem markNoRoom_fuses (p : PortId) (nonce : BitVec 128) (e : Entry) (s : State) : (markNoRoom p nonce e s).fuses = s.fuses := by
  unfold markNoRoom
  split <;> simp

@[simp] theorem saveToCards_fuses (p : PortId) (m : SliceImage) (writes : List CardWrite) (slots : List CardSlot) (s : State) :
    (saveToCards p m writes slots s).1.fuses = s.fuses := by
  refine foldl_fuses_of Prod.fst (fun r x => ?_) _ _
  dsimp only
  split <;> simp

@[simp] theorem saveSliceAct_fuses (p : PortId) (dest : IdentityRecord) (nonce : BitVec 128) (writes : List CardWrite) (e : AdminEntry) (s : State) :
    (saveSliceAct p dest nonce writes e s).fuses = s.fuses := by
  unfold saveSliceAct
  (repeat' split) <;> simp

@[simp] theorem logNonce_fuses (n : BitVec 128) (s : State) : (logNonce n s).fuses = s.fuses := by
  unfold logNonce
  dsimp only
  split <;> rfl

@[simp] theorem restoreTally_fuses (uid : BitVec 64) (accepted : Bool) (s : State) (t : ImageTally) :
    (restoreTally uid accepted s t).fuses = s.fuses := by
  unfold restoreTally
  split
  · rfl
  · dsimp only
    split <;> simp

@[simp] theorem restoreQueue_fuses (p : PortId) (i : SliceIdx) (s : State) (q : ImageQueue) : (restoreQueue p i s q).fuses = s.fuses := by
  unfold restoreQueue
  split <;> rfl

@[simp] theorem restoreAct_fuses (p : PortId) (i : SliceIdx) (e : Entry) (nonce : BitVec 128) (m : SliceBody) (s : State) :
    (restoreAct p i e nonce m s).fuses = s.fuses := by
  simp [restoreAct, setGens]

@[simp] theorem readNamed_fuses (s : State) (e : Entry) : (readNamed s e).fuses = s.fuses := by
  unfold readNamed
  (repeat' split) <;> simp

@[simp] theorem restoreSliceAct_fuses (p : PortId) (image : Option SliceImage) (e : AdminEntry) (s : State) :
    (restoreSliceAct p image e s).fuses = s.fuses := by
  unfold restoreSliceAct
  dsimp only
  split
  · simp
  · split
    · rfl
    · split
      · simp
      · split <;> simp

/-! ### Registers -/

@[simp] theorem writeQueSel_fuses (p : PortId) (w : Nat) (v : Word) (s : State) : (writeQueSel p w v s).fuses = s.fuses := by
  unfold writeQueSel
  split <;> simp

@[simp] theorem clearPowerEvents_fuses (v : Word) (s : State) : (clearPowerEvents v s).fuses = s.fuses := by simp [clearPowerEvents]

@[simp] theorem writeReg_fuses (p : PortId) (off : Nat) (v : Word) (s : State) : (writeReg p off v s).fuses = s.fuses := by
  unfold writeReg
  (repeat' split) <;> simp [writeStgBeat, writeStgStatus, writeAqBase, writeTotal, clearCardEvents]

end Sys2Proof.Machine
end

section
/-! PROOFS. What is burned stays burned (R2): the functions that burn the fuses only add to them, and so does every command. -/

namespace Sys2Proof.Machine

/-! ### Fuses that only gain bits -/

/-- Serial and caps stay; a disabled source and a burned life-cycle bit stay as well. -/
structure FusesGrow (a b : Fuses) : Prop where
  fused : ∀ k, a.fused.getLsbD k = true → b.fused.getLsbD k = true
  serial : b.serial = a.serial
  caps : b.caps = a.caps
  otp : a.otp &&& b.otp = a.otp

namespace FusesGrow

variable {a b c : Fuses}

theorem refl (a : Fuses) : FusesGrow a a := ⟨fun _ h => h, rfl, rfl, BitVec.and_self⟩

theorem of_eq (h : b = a) : FusesGrow a b := h ▸ refl a

theorem trans (h : FusesGrow a b) (k : FusesGrow b c) : FusesGrow a c where
  fused n hn := k.fused n (h.fused n hn)
  serial := k.serial.trans h.serial
  caps := k.caps.trans h.caps
  otp := by
    calc a.otp &&& c.otp = a.otp &&& (b.otp &&& c.otp) := by rw [← BitVec.and_assoc, h.otp]
      _ = a.otp := by rw [k.otp, h.otp]

theorem burn (a : Fuses) (bits : BitVec 24) : FusesGrow a { a with otp := a.otp ||| bits } where
  fused _ h := h
  serial := rfl
  caps := rfl
  otp := by
    ext i
    simpa using Or.inl

/-- The step starts from a state with the same fuses. -/
theorem after {s u t : State} (h : FusesGrow u.fuses t.fuses) (e : u.fuses = s.fuses) : FusesGrow s.fuses t.fuses := e ▸ h

theorem of_next {s t u : State} (h : (.next u : Host.Outcome State Fault Refusal) = .next t) (hu : FusesGrow s.fuses u.fuses) :
    FusesGrow s.fuses t.fuses :=
  Host.Outcome.next.inj h ▸ hu

/-- A list of steps that each only add. -/
theorem foldl {α : Type} {f : State → α → State} (h : ∀ s x, FusesGrow s.fuses (f s x).fuses) (l : List α) (s : State) :
    FusesGrow s.fuses (l.foldl f s).fuses := by
  induction l generalizing s with
  | nil => exact .refl s.fuses
  | cons x l ih => exact (h s x).trans (ih _)

end FusesGrow

/-! ### The burns -/

theorem getLsbD_setBit_of_set {w : Nat} {m : BitVec w} {k n : Nat} (h : m.getLsbD k = true) : (setBit m n true).getLsbD k = true := by
  simp [setBit, h]

theorem fuseSource_grows (src : SourceId) (s : State) : FusesGrow s.fuses (fuseSource src s).fuses where
  fused _ h := getLsbD_setBit_of_set h
  serial := rfl
  caps := rfl
  otp := BitVec.and_self

theorem burnTo_grows (target : Nat) (s : State) : FusesGrow s.fuses (burnTo target s).fuses := .burn s.fuses _

theorem cutTransition_grows (st : Status) (s : State) : FusesGrow s.fuses (cutTransition st s).fuses := by
  unfold cutTransition
  split
  · exact .refl _
  · extract_lets f k bits burned s₁ fuses life s₂
    have h₂ : FusesGrow s.fuses s₂.fuses := .burn s.fuses burned
    split
    · simpa using h₂
    · split
      · split <;> simpa using h₂
      · exact h₂

theorem readCounter_grows (a : Fuses) : FusesGrow a { a with otp := (readCounter a.otp).1 } := by
  unfold readCounter
  dsimp only
  split
  · exact .burn a _
  · exact .refl a

theorem tornBurn_grows (s : State) : FusesGrow s.fuses { s.fuses with otp := (tornBurn s).1 } := by
  unfold tornBurn
  split
  · exact .refl _
  · exact .burn s.fuses _

theorem powerDown_grows (s : State) : FusesGrow s.fuses (powerDown s).fuses := by
  have hburn : FusesGrow s.fuses { (tornBurn s).2.fuses with otp := (tornBurn s).1 } := by
    rw [tornBurn_fuses]
    exact tornBurn_grows s
  unfold powerDown
  dsimp only
  split
  · exact hburn
  · simpa using hburn

/-! ### Firings, and the steward's end -/

theorem zeroizeResponse_grows (s : State) : FusesGrow s.fuses (zeroizeResponse s).fuses := by
  have hcut := cutTransition_grows .keyPolicy (zeroizeLine s)
  unfold zeroizeResponse
  split
  · exact .refl _
  · dsimp only
    split <;> simpa using hcut

theorem applyClass_grows (cls : Nat) (fs : List (SourceId × FenceScope)) (s : State) : FusesGrow s.fuses (applyClass cls fs s).fuses := by
  unfold applyClass
  split
  · exact .refl _
  · exact .of_eq (by simp)
  · exact .of_eq (by simp)
  · exact zeroizeResponse_grows s

theorem fireAll_grows (cls : SourceId → Nat) (code : Nat) (fs : List Firing) (s : State) :
    FusesGrow s.fuses (fireAll cls code fs s).fuses := by
  unfold fireAll
  extract_lets live s' top
  have h' : s'.fuses = s.fuses := by simp [s']
  exact .after (applyClass_grows _ _ s') h'

theorem fireRaised_grows (before s : State) : FusesGrow s.fuses (fireRaised before s).fuses := by
  unfold fireRaised
  dsimp only
  split
  · exact .refl _
  · exact fireAll_grows _ _ _ s

theorem evaluate_grows (fs : List Firing) (s : State) : FusesGrow s.fuses (evaluate fs s).fuses := by
  unfold evaluate
  extract_lets live held now tamper s₁
  split
  · exact .refl _
  · split
    · exact .of_eq (by simp [s₁])
    · exact fireAll_grows _ _ _ s₁

theorem wardenTakeover_grows (trigger : Nat) (s : State) : FusesGrow s.fuses (wardenTakeover trigger s).fuses := by
  unfold wardenTakeover
  split
  · exact .refl _
  · extract_lets power mode faults s₁ s₂
    have h₂ : FusesGrow s.fuses s₂.fuses := by
      simpa [s₁] using cutTransition_grows .unitFault (abandonSteward (ownerDone .unitFault (raise 0x124 (detailOf trigger 0 0 0 0) s₁)))
    refine h₂.trans (.of_eq ?_)
    split
    · simp
    · simp
    · split <;> simp
    · simp
    · simp
    · rfl

theorem uncorrectable_grows (r : UeReport) (s : State) : FusesGrow s.fuses (uncorrectable r s).fuses := by
  have htakeover := fun code e => wardenTakeover_grows code (report e true s)
  cases r
  case stewardSram => simpa [uncorrectable] using htakeover 3 100
  case faultCollector => simpa [uncorrectable] using htakeover 4 103
  all_goals exact .of_eq (by simp [uncorrectable])

theorem errorAct_grows (ms : List Trigger) (r : UeReport) (s : State) : FusesGrow s.fuses (errorAct ms r s).fuses := by
  have htakeover := fun code e => wardenTakeover_grows code (report e true s)
  unfold errorAct
  split
  · simpa using htakeover _ 100
  · simpa using htakeover _ 103
  · exact uncorrectable_grows r s

/-! ### Power, start-up, the life cycle -/

theorem powerUp_grows (s : State) : FusesGrow s.fuses (powerUp s).fuses := by
  unfold powerUp
  extract_lets ch valid slots initial flash backup s₁ power s₂ s₃
  have h₃ : s₃.fuses = s.fuses := by
    unfold s₃
    split
    · rfl
    · exact raise0_fuses _ s₂
  split
  · exact .after (evaluate_grows _ s₃) h₃
  · exact .of_eq h₃

theorem readLifeCycle_grows (s : State) : FusesGrow s.fuses (readLifeCycle s).fuses := by
  unfold readLifeCycle
  extract_lets r st fuses life s₁ mode s₂
  have h₂ : FusesGrow s.fuses s₂.fuses := by
    unfold s₂
    split <;> exact readCounter_grows s.fuses
  split
  · exact h₂.trans (evaluate_grows _ s₂)
  · exact h₂

theorem endTransition_grows (t : Transition) (s : State) : FusesGrow s.fuses (endTransition t s).fuses := by
  unfold endTransition
  extract_lets life s₁ s₂
  have h₁ : FusesGrow s.fuses s₁.fuses := .after (burnTo_grows t.target _) rfl
  have h₂ : FusesGrow s.fuses s₂.fuses := by
    unfold s₂
    split
    · exact h₁
    · simpa using h₁
  split <;> simpa using h₂

theorem selfTest_grows (r : SelfTest) (clear re : Bool) (s : State) : FusesGrow s.fuses (selfTest r clear re s).fuses := by
  unfold selfTest
  extract_lets still f cabinet failing draft s₁ kinds tamper faults s₂ s₃ s₄ s₅
  have h₁ : s₁.fuses = s.fuses := by
    unfold s₁
    split <;> rfl
  have h₃ : s₃.fuses = s₂.fuses := by
    unfold s₃
    split <;> simp
  have h₅ : s₅.fuses = s.fuses := by
    unfold s₅
    split <;> simp [s₄, h₃, s₂, h₁]
  split
  · exact .after (wardenTakeover_grows 6 s₅) h₅
  · split <;> exact .of_eq (by simp [h₅])

theorem flowTransition_grows (from_ target : Nat) (ok : Bool) (s : State) : FusesGrow s.fuses (flowTransition from_ target ok s).fuses := by
  unfold flowTransition
  split
  · exact burnTo_grows target s
  · exact .refl _

/-! ### Stimulus windows and decision pairs -/

theorem stimulusFails_grows (src : SourceId) (s : State) : FusesGrow s.fuses (stimulusFails src s).fuses := by
  unfold stimulusFails
  exact .after (fireAll_grows _ _ _ _) rfl

theorem endWindow_grows (src : SourceId) (responded stillActive : Bool) (s : State) :
    FusesGrow s.fuses (endWindow src responded stillActive s).fuses := by
  unfold endWindow
  extract_lets real before tamper s₁ tamper₁ s₂ tamper₂ s₃
  have h₂ : FusesGrow s.fuses s₂.fuses := by
    unfold s₂
    split
    · exact .refl _
    · exact stimulusFails_grows src s₁
  have h₃ : FusesGrow s₂.fuses s₃.fuses := by
    unfold s₃
    split
    · exact .after (evaluate_grows _ _) rfl
    · exact .refl _
  exact h₂.trans h₃

theorem windowEnds_grows (src : SourceId) (responded stillActive : Bool) (s : State) :
    FusesGrow s.fuses (windowEnds src responded stillActive s).fuses := by
  unfold windowEnds
  split
  · exact .refl _
  · split
    · exact .refl _
    · simpa using endWindow_grows src responded stillActive s

theorem secondDecision_grows (first : List (Firing × Nat)) (qualifying : List SourceId) (s : State) :
    FusesGrow s.fuses (secondDecision first qualifying s).fuses := by
  unfold secondDecision
  exact fireAll_grows _ _ _ s

theorem endPair_grows (pair : Nat) (qualifying : List SourceId) (s : State) : FusesGrow s.fuses (endPair pair qualifying s).fuses := by
  unfold endPair
  split
  · exact .refl _
  · split
    · exact .refl _
    · rw [settleAfterLeave_fuses]
      exact .after (secondDecision_grows _ _ _) rfl

/-! ### Triggers that meet, and the beat -/

theorem lockstepAct_grows (trigger : Nat) (s : State) : FusesGrow s.fuses (lockstepAct trigger s).fuses := by
  unfold lockstepAct
  split
  · exact .refl _
  · simpa using wardenTakeover_grows trigger (report 100 true s)

theorem heartbeatAct_grows (s : State) : FusesGrow s.fuses (heartbeatAct s).fuses := by
  simpa [heartbeatAct] using wardenTakeover_grows 2 s

theorem fallMeeting_grows (ms : List Trigger) (s : State) : FusesGrow s.fuses (fallMeeting ms s).fuses := by
  unfold fallMeeting
  extract_lets power d t
  have ht : FusesGrow s.fuses t.fuses := by simpa [t] using powerDown_grows s
  split <;> simpa using ht

theorem senseAll_grows (fs : List Firing) (s : State) : FusesGrow s.fuses (senseAll fs s).fuses := by
  unfold senseAll
  split
  · exact .refl _
  · dsimp only
    split <;> exact .after (evaluate_grows _ _) rfl

theorem triggerAct_grows (ms : List Trigger) (m : Trigger) (s : State) : FusesGrow s.fuses (triggerAct ms m s).fuses := by
  cases m with
  | powerFail =>
    simp only [triggerAct]
    split
    · exact .refl _
    · exact fallMeeting_grows ms s
  | secondDecision pair qualifying => exact endPair_grows pair qualifying s
  | windowEnd src responded stillActive => exact windowEnds_grows src responded stillActive s
  | lockstep => exact lockstepAct_grows _ s
  | heartbeat => exact heartbeatAct_grows s
  | ue r =>
    simp only [triggerAct]
    split
    · exact .refl _
    · exact errorAct_grows ms r s
  | _ => exact .of_eq (by simp [triggerAct])

theorem resolveTriggers_grows (ms : List Trigger) (s : State) : FusesGrow s.fuses (resolveTriggers ms s).fuses := by
  refine FusesGrow.foldl (fun s l => ?_) _ s
  refine .trans ?_ (.foldl (fun s m => triggerAct_grows ms m s) l _)
  dsimp only
  split
  · exact .refl _
  · exact senseAll_grows _ s

theorem beatAt_grows (t : Nat) (s : State) : FusesGrow s.fuses (beatAt t s).fuses := by
  simpa [beatAt] using fireRaised_grows (settleBudgets ((fins 4).foldl installPort s))
    (applyDevice t (settleBudgets ((fins 4).foldl installPort s)))

theorem reachBeat_grows (t : Nat) (meets : List Trigger) (s : State) : FusesGrow s.fuses (reachBeat t meets s).fuses := by
  unfold reachBeat
  extract_lets s₁
  have h₁ : FusesGrow s.fuses s₁.fuses := by simpa [s₁] using resolveTriggers_grows meets s
  split
  · exact h₁
  · exact h₁.trans (beatAt_grows t s₁)

theorem nextBeat_grows (meets : List Trigger) (s : State) : FusesGrow s.fuses (nextBeat meets s).fuses := by
  simpa [nextBeat] using reachBeat_grows (nextBoundary s) meets (passTo (nextBoundary s) s)

theorem meetAll_grows (ms : List Trigger) (s : State) : FusesGrow s.fuses (meetAll ms s).fuses := by
  unfold meetAll
  split
  · exact nextBeat_grows ms s
  · simpa using resolveTriggers_grows ms s

end Sys2Proof.Machine
end

section
/-! PROOFS. What is burned stays burned (R2), command by command. -/

namespace Sys2Proof.Machine

open Sys2Proof.Claims

/-! ### Commands that leave the fuses -/

theorem fuses_of_next {s t u : State} (h : (.next u : Host.Outcome State Fault Refusal) = .next t) (hu : u.fuses = s.fuses) :
    t.fuses = s.fuses :=
  Host.Outcome.next.inj h ▸ hu

theorem execEventLog_fuses {s t : State} (h : execEventLog s = .next t) : t.fuses = s.fuses := by
  unfold execEventLog at h
  (repeat' split at h) <;> cases h <;> simp

theorem execLogRecordDurable_fuses {seq : Word} {s t : State} (h : execLogRecordDurable seq s = .next t) : t.fuses = s.fuses := by
  unfold execLogRecordDurable at h
  (repeat' split at h) <;> cases h <;> simp

theorem execLogRepeatFlush_fuses {seq : Word} {s t : State} (h : execLogRepeatFlush seq s = .next t) : t.fuses = s.fuses := by
  unfold execLogRepeatFlush at h
  (repeat' split at h) <;> cases h <;> simp

theorem execSecondsCheckpoint_fuses {s t : State} (h : execSecondsCheckpoint s = .next t) : t.fuses = s.fuses := by
  unfold execSecondsCheckpoint at h
  split at h <;> cases h <;> simp

theorem execBackupCellLoss_fuses {s t : State} (h : execBackupCellLoss s = .next t) : t.fuses = s.fuses := by
  dsimp only [execBackupCellLoss] at h
  split at h <;> cases h <;> simp

theorem execDoorbellWrite_fuses {p : PortId} {offset size : Nat} {value : Word} {s t : State}
    (h : execDoorbellWrite p offset size value s = .next t) : t.fuses = s.fuses := by
  cases h
  refine onWrite_fuses _ _ _ fun s => ?_
  split
  · split <;> simp
  · rfl

theorem execExpressDoorbell_fuses {p : PortId} {offset size : Nat} {s t : State}
    (h : execExpressDoorbell p offset size s = .next t) : t.fuses = s.fuses := by
  cases h
  refine onWrite_fuses _ _ _ fun s => ?_
  split
  · split
    · rfl
    · split <;> simp
  · rfl

theorem execAdminDoorbell_fuses {p : PortId} {s t : State} (h : execAdminDoorbell p s = .next t) : t.fuses = s.fuses := by cases h; simp

theorem execAdminQueueEnable_fuses {p : PortId} {value : Word} {s t : State}
    (h : execAdminQueueEnable p value s = .next t) : t.fuses = s.fuses := by cases h; simp

theorem execAdminQueueDisable_fuses {p : PortId} {s t : State} (h : execAdminQueueDisable p s = .next t) : t.fuses = s.fuses := by
  cases h
  simp

theorem execPollTick_fuses {p : PortId} {qnum : Nat} {s t : State} (h : execPollTick p qnum s = .next t) : t.fuses = s.fuses := by
  cases h
  split <;> simp

theorem execRingReadComplete_fuses {p : PortId} {qnum : Nat} {result : RingResult} {s t : State}
    (h : execRingReadComplete p qnum result s = .next t) : t.fuses = s.fuses := by
  cases h
  (repeat' split) <;> simp

theorem execSeedWaitTimeout_fuses {id : Nat} {s t : State} (h : execSeedWaitTimeout id s = .next t) : t.fuses = s.fuses := by
  cases h
  (repeat' split) <;> simp

theorem execCompletionWrite_fuses {id : Nat} {outcome : WriteBack} {s t : State}
    (h : execCompletionWrite id outcome s = .next t) : t.fuses = s.fuses := by cases h; simp

theorem execCoalesceTimeout_fuses {p : PortId} {qnum : Nat} {s t : State}
    (h : execCoalesceTimeout p qnum s = .next t) : t.fuses = s.fuses := by
  cases h
  split <;> simp

theorem execEngineAsk_fuses {e : Engine} {askingTrestles : List TrestleId} {s t : State}
    (h : execEngineAsk e askingTrestles s = .next t) : t.fuses = s.fuses := by cases h; simp

theorem execTrestleYieldAsk_fuses {ask : YieldAsk} {s t : State} (h : execTrestleYieldAsk ask s = .next t) : t.fuses = s.fuses := by
  cases h
  simp

theorem execLoomDim_fuses {n : LoomId} {s t : State} (h : execLoomDim n s = .next t) : t.fuses = s.fuses := by
  cases h
  split <;> simp

theorem execLoomRestore_fuses {n : LoomId} {s t : State} (h : execLoomRestore n s = .next t) : t.fuses = s.fuses := by
  cases h
  split <;> simp

theorem execTallyWriteDurable_fuses {record : Nat} {s t : State} (h : execTallyWriteDurable record s = .next t) : t.fuses = s.fuses := by
  cases h
  (repeat' split) <;> simp [releaseHeld, bornKey]

theorem execDigestCoreAsk_fuses {core : FarmCore} {s t : State} (h : execDigestCoreAsk core s = .next t) : t.fuses = s.fuses := by
  cases h
  split <;> simp

theorem execChestRemask_fuses {s t : State} (h : execChestRemask s = .next t) : t.fuses = s.fuses := by cases h; simp
theorem execDrawerRefresh_fuses {s t : State} (h : execDrawerRefresh s = .next t) : t.fuses = s.fuses := by cases h; simp

theorem execCommit_fuses {e : Engine} {cycles : Nat} {s t : State} (h : execCommit e cycles s = .next t) : t.fuses = s.fuses := by
  cases h
  simp

theorem execWatchdogExpiry_fuses {e : Engine} {s t : State} (h : execWatchdogExpiry e s = .next t) : t.fuses = s.fuses := by cases h; simp
theorem execRoutineError_fuses {e : Engine} {s t : State} (h : execRoutineError e s = .next t) : t.fuses = s.fuses := by cases h; simp

theorem execStewardFwVerified_fuses {slotAOk slotBOk : Bool} {damagedRecords : List Word} {s t : State}
    (h : execStewardFwVerified slotAOk slotBOk damagedRecords s = .next t) : t.fuses = s.fuses := by
  unfold execStewardFwVerified at h
  split at h <;> cases h <;> simp [commitLatch, commitLatchEntry, loadMirror, tallyScan, blankCheck]

theorem execDraftReadDone_fuses {readOk : Bool} {s t : State} (h : execDraftReadDone readOk s = .next t) : t.fuses = s.fuses := by
  unfold execDraftReadDone at h
  split at h
  · exact fuses_of_next h (by simp)
  · exact fuses_of_next h rfl

theorem execCeremonyShareWrite_fuses {c : CardSlot} {written : CardWrite} {s t : State}
    (h : execCeremonyShareWrite c written s = .next t) : t.fuses = s.fuses := by
  cases h
  split <;> simp

theorem execCeremonyTimeout_fuses {s t : State} (h : execCeremonyTimeout s = .next t) : t.fuses = s.fuses := by cases h; simp

theorem execChestRestore_fuses {s t : State} (h : execChestRestore s = .next t) : t.fuses = s.fuses := by
  cases h
  (repeat' split) <;> simp

theorem execRecoveryImageVerified_fuses {source : RecoverySource} {delivery : RecoveryDelivery} {s t : State}
    (h : execRecoveryImageVerified source delivery s = .next t) : t.fuses = s.fuses := by
  cases h
  (repeat' split) <;> simp [beginCeremony, copyToCards]

theorem execBobbinTestsEnd_fuses {failing : List (PairId × PairFault)} {knownAnswersOk : Bool} {s t : State}
    (h : execBobbinTestsEnd failing knownAnswersOk s = .next t) : t.fuses = s.fuses := by cases h; simp [excludePair, instantiateAll]

theorem execBobbinSeeded_fuses {s t : State} (h : execBobbinSeeded s = .next t) : t.fuses = s.fuses := by cases h; simp [moveChest]

theorem execHealthFail_fuses {reason : BobbinFailure} {s t : State} (h : execHealthFail reason s = .next t) : t.fuses = s.fuses := by
  cases h
  split <;> simp

theorem execReseedApplied_fuses {i : InstId} {s t : State} (h : execReseedApplied i s = .next t) : t.fuses = s.fuses := by
  cases h
  (repeat' split) <;> simp [fillBuffers]

theorem execBobbinRestart_fuses {s t : State} (h : execBobbinRestart s = .next t) : t.fuses = s.fuses := by
  cases h
  (repeat' split) <;> simp [beginSequence]

theorem execPairRetestEnd_fuses {passed : List PairId} {s t : State} (h : execPairRetestEnd passed s = .next t) : t.fuses = s.fuses := by
  cases h
  simp

theorem execLcAdvance_fuses {s t : State} (h : execLcAdvance s = .next t) : t.fuses = s.fuses := by
  cases h
  split <;> simp

theorem execDebugChallenge_fuses {p : PortId} {seq : BitVec 16} {s t : State}
    (h : execDebugChallenge p seq s = .next t) : t.fuses = s.fuses := by cases h; simp [debugChallenge]

theorem execStageWrite_fuses {p : PortId} {offset : Nat} {value : Word} {s t : State}
    (h : execStageWrite p offset value s = .next t) : t.fuses = s.fuses := by
  cases h
  simp [stageWrite, stageField]

theorem execStageCommit_fuses {p : PortId} {sum : BitVec 16} {s t : State} (h : execStageCommit p sum s = .next t) : t.fuses = s.fuses := by
  cases h
  simp

theorem execStageDiscard_fuses {p : PortId} {atApplyingBeat : Bool} {s t : State}
    (h : execStageDiscard p atApplyingBeat s = .next t) : t.fuses = s.fuses := by cases h; simp

theorem execCreateSlice_fuses {p : PortId} {s t : State} (h : execCreateSlice p s = .next t) : t.fuses = s.fuses := by cases h; simp
theorem execDestroySlice_fuses {p : PortId} {s t : State} (h : execDestroySlice p s = .next t) : t.fuses = s.fuses := by cases h; simp
theorem execCreateQueue_fuses {p : PortId} {s t : State} (h : execCreateQueue p s = .next t) : t.fuses = s.fuses := by cases h; simp
theorem execDestroyQueue_fuses {p : PortId} {s t : State} (h : execDestroyQueue p s = .next t) : t.fuses = s.fuses := by cases h; simp

theorem execTraceEnable_fuses {p : PortId} {s t : State} (h : execTraceEnable p s = .next t) : t.fuses = s.fuses := by
  cases h
  simp [traceEnableAct]

theorem execTraceDisable_fuses {p : PortId} {s t : State} (h : execTraceDisable p s = .next t) : t.fuses = s.fuses := by
  cases h
  simp [traceDisableAct]

theorem execTraceConsumedWrite_fuses {p : PortId} {value : Word} {s t : State}
    (h : execTraceConsumedWrite p value s = .next t) : t.fuses = s.fuses := by cases h; simp

theorem execCalRead_fuses {p : PortId} {s t : State} (h : execCalRead p s = .next t) : t.fuses = s.fuses := by cases h; simp [calReadAct]

theorem execIdentityGet_fuses {p : PortId} {s t : State} (h : execIdentityGet p s = .next t) : t.fuses = s.fuses := by
  cases h
  simp [identityGetAct]

theorem execOwnerSigned_fuses {p : PortId} {envelope : Envelope} {s t : State}
    (h : execOwnerSigned p envelope s = .next t) : t.fuses = s.fuses := by cases h; simp

theorem execSignedAdmin_fuses {p : PortId} {seq : BitVec 16} {envelope : Envelope} {s t : State}
    (h : execSignedAdmin p seq envelope s = .next t) : t.fuses = s.fuses := by cases h; simp

theorem execDebugResponse_fuses {p : PortId} {seq : BitVec 16} {token : Token} {s t : State}
    (h : execDebugResponse p seq token s = .next t) : t.fuses = s.fuses := by cases h; simp

theorem execDeviceStage_fuses {s t : State} (h : execDeviceStage s = .next t) : t.fuses = s.fuses := by
  cases h
  split <;> simp [deviceWrite, deviceCommit]

theorem execDraftWrite_fuses {s t : State} (h : execDraftWrite s = .next t) : t.fuses = s.fuses := by
  cases h
  split <;> simp

theorem execDraftSelect_fuses {s t : State} (h : execDraftSelect s = .next t) : t.fuses = s.fuses := by
  cases h
  split <;> simp

theorem execRethread_fuses {s t : State} (h : execRethread s = .next t) : t.fuses = s.fuses := by
  cases h
  split <;> simp

theorem execRethreadDrainDone_fuses {s t : State} (h : execRethreadDrainDone s = .next t) : t.fuses = s.fuses := by
  cases h
  (repeat' split) <;> simp [beginRethread]

theorem execHold_fuses {s t : State} (h : execHold s = .next t) : t.fuses = s.fuses := by
  cases h
  split <;> simp

theorem execHoldRelease_fuses {s t : State} (h : execHoldRelease s = .next t) : t.fuses = s.fuses := by
  cases h
  split <;> simp

theorem execCalWrite_fuses {readBackOk : Bool} {s t : State} (h : execCalWrite readBackOk s = .next t) : t.fuses = s.fuses := by
  cases h
  split <;> simp

theorem execRecoveryLoad_fuses {p : PortId} {seq : BitVec 16} {part : Bytes} {s t : State}
    (h : execRecoveryLoad p seq part s = .next t) : t.fuses = s.fuses := by cases h; simp [recoveryLoad]

theorem execLogRead_fuses {path : LogPath} {s t : State} (h : execLogRead path s = .next t) : t.fuses = s.fuses := by
  cases h
  split <;> simp [logReadAct, usbLogRead]

theorem execLinkTrained_fuses {p : PortId} {gen : Nat} {singleLane : Bool} {s t : State}
    (h : execLinkTrained p gen singleLane s = .next t) : t.fuses = s.fuses := by cases h; simp

theorem execBusMasterDisable_fuses {p : PortId} {d3hot : Bool} {s t : State}
    (h : execBusMasterDisable p d3hot s = .next t) : t.fuses = s.fuses := by cases h; simp

theorem execBusMasterResume_fuses {p : PortId} {ats : Bool} {table : List MsixEntry} {s t : State}
    (h : execBusMasterResume p ats table s = .next t) : t.fuses = s.fuses := by cases h; simp [sendHeld]

theorem execMemorySpaceDisable_fuses {p : PortId} {s t : State} (h : execMemorySpaceDisable p s = .next t) : t.fuses = s.fuses := by
  cases h
  simp

theorem execPasidEnableChange_fuses {p : PortId} {enable : Bool} {s t : State}
    (h : execPasidEnableChange p enable s = .next t) : t.fuses = s.fuses := by cases h; simp

theorem execAtsEnableClear_fuses {p : PortId} {s t : State} (h : execAtsEnableClear p s = .next t) : t.fuses = s.fuses := by cases h; simp

theorem execFunctionLevelReset_fuses {p : PortId} {s t : State} (h : execFunctionLevelReset p s = .next t) : t.fuses = s.fuses := by
  cases h
  simp

theorem execFunctionLevelResetEnd_fuses {p : PortId} {s t : State} (h : execFunctionLevelResetEnd p s = .next t) : t.fuses = s.fuses := by
  cases h
  simp

theorem execAtsInvalidation_fuses {p : PortId} {pasid : Option (BitVec 20)} {globalInv : Bool} {first last : Nat} {s t : State}
    (h : execAtsInvalidation p pasid globalInv first last s = .next t) : t.fuses = s.fuses := by cases h; simp

theorem execDuplicateRoundMismatch_fuses {e : Engine} {s t : State} (h : execDuplicateRoundMismatch e s = .next t) : t.fuses = s.fuses := by
  cases h
  simp

theorem execTrestleSelfCheckMismatch_fuses {u : TrestleId} {s t : State}
    (h : execTrestleSelfCheckMismatch u s = .next t) : t.fuses = s.fuses := by
  cases h
  split <;> simp

theorem execVerifyMismatch_fuses {n : LoomId} {found : VerifyFinding} {s t : State}
    (h : execVerifyMismatch n found s = .next t) : t.fuses = s.fuses := by cases h; simp

theorem execCorrectableError_fuses {source : Fin 104} {s t : State} (h : execCorrectableError source s = .next t) : t.fuses = s.fuses := by
  cases h
  simp

theorem execAgeingMeasure_fuses {b : BenchId} {s t : State} (h : execAgeingMeasure b s = .next t) : t.fuses = s.fuses := by cases h; simp

theorem execAgeingMeasureDone_fuses {b : BenchId} {slack tj : Int} {s t : State}
    (h : execAgeingMeasureDone b slack tj s = .next t) : t.fuses = s.fuses := by cases h; simp

theorem execPortAttach_fuses {p : PortId} {offer : Offer} {s t : State} (h : execPortAttach p offer s = .next t) : t.fuses = s.fuses := by
  unfold execPortAttach at h
  split at h <;> cases h <;> simp

theorem execContractChange_fuses {p : PortId} {offer : Offer} {bulkLow : Bool} {s t : State}
    (h : execContractChange p offer bulkLow s = .next t) : t.fuses = s.fuses := by
  unfold execContractChange at h
  split at h <;> cases h <;> simp [capPath]

theorem execPortDetach_fuses {p : PortId} {linkOnly bulkLow : Bool} {s t : State}
    (h : execPortDetach p linkOnly bulkLow s = .next t) : t.fuses = s.fuses := by cases h; simp

theorem execContractDrop_fuses {p : PortId} {volts current : Nat} {bulkLow : Bool} {s t : State}
    (h : execContractDrop p volts current bulkLow s = .next t) : t.fuses = s.fuses := by cases h; simp

theorem execPathOvercurrent_fuses {p : PortId} {bulkLow : Bool} {s t : State}
    (h : execPathOvercurrent p bulkLow s = .next t) : t.fuses = s.fuses := by
  unfold execPathOvercurrent at h
  split at h <;> cases h <;> simp

theorem execPlanUpHoldExpiry_fuses {bulkLow : Bool} {s t : State} (h : execPlanUpHoldExpiry bulkLow s = .next t) : t.fuses = s.fuses := by
  unfold execPlanUpHoldExpiry at h
  (repeat' split at h) <;> cases h <;> simp

theorem execSourceCapabilitiesTimeout_fuses {p : PortId} {typeC : TypeC} {s t : State}
    (h : execSourceCapabilitiesTimeout p typeC s = .next t) : t.fuses = s.fuses := by
  unfold execSourceCapabilitiesTimeout at h
  split at h <;> cases h <;> simp

theorem execThermalSample_fuses {tj : Int} {s t : State} (h : execThermalSample tj s = .next t) : t.fuses = s.fuses := by
  unfold execThermalSample at h
  split at h <;> cases h <;> simp

theorem execThermalStep_fuses {bulkLow : Bool} {s t : State} (h : execThermalStep bulkLow s = .next t) : t.fuses = s.fuses := by
  unfold execThermalStep at h
  split at h
  · exact fuses_of_next h rfl
  · exact fuses_of_next h (by simp)

theorem execThermalClear_fuses {bulkLow : Bool} {s t : State} (h : execThermalClear bulkLow s = .next t) : t.fuses = s.fuses := by
  dsimp only [execThermalClear] at h
  split at h <;> cases h <;> simp

theorem execBenchGate_fuses {b : BenchId} {s t : State} (h : execBenchGate b s = .next t) : t.fuses = s.fuses := by
  dsimp only [execBenchGate] at h
  split at h <;> cases h <;> simp

theorem execBenchStart_fuses {b : BenchId} {s t : State} (h : execBenchStart b s = .next t) : t.fuses = s.fuses := by
  unfold execBenchStart at h
  extract_lets gated lower at h
  split at h <;> cases h <;> simp

theorem execTamperRepeat_fuses {src : SourceId} {s t : State} (h : execTamperRepeat src s = .next t) : t.fuses = s.fuses := by cases h; simp

theorem execSourceGoesInactive_fuses {src : SourceId} {s t : State} (h : execSourceGoesInactive src s = .next t) : t.fuses = s.fuses := by
  cases h
  simp

theorem execCellWindow_fuses {sources : List SourceId} {s t : State} (h : execCellWindow sources s = .next t) : t.fuses = s.fuses := by
  cases h
  simp [cellAlarm]

theorem execTamperStimulus_fuses {src : SourceId} {s t : State} (h : execTamperStimulus src s = .next t) : t.fuses = s.fuses := by
  cases h
  simp

theorem execTamperClear_fuses {s t : State} (h : execTamperClear s = .next t) : t.fuses = s.fuses := by
  cases h
  split <;> simp

theorem execFreezeSlice_fuses {p : PortId} {s t : State} (h : execFreezeSlice p s = .next t) : t.fuses = s.fuses := by cases h; simp

theorem execFreezeDrainDone_fuses {p : PortId} {s t : State} (h : execFreezeDrainDone p s = .next t) : t.fuses = s.fuses := by
  cases h
  (repeat' split) <;> simp

theorem execThawSlice_fuses {p : PortId} {s t : State} (h : execThawSlice p s = .next t) : t.fuses = s.fuses := by cases h; simp

theorem execSaveSlice_fuses {p : PortId} {destination : IdentityRecord} {nonce : BitVec 128} {writes : List CardWrite} {s t : State}
    (h : execSaveSlice p destination nonce writes s = .next t) : t.fuses = s.fuses := by cases h; simp

theorem execRestoreSlice_fuses {p : PortId} {image : Option SliceImage} {s t : State}
    (h : execRestoreSlice p image s = .next t) : t.fuses = s.fuses := by cases h; simp

theorem execRegisterWrite_fuses {p : PortId} {offset size : Nat} {value : Word} {s t : State}
    (h : execRegisterWrite p offset size value s = .next t) : t.fuses = s.fuses := by
  cases h
  simp

theorem execPwrEventsClear_fuses {p : PortId} {value : Word} {s t : State}
    (h : execPwrEventsClear p value s = .next t) : t.fuses = s.fuses := by cases h; simp

theorem execGetStatus_fuses {p : PortId} {request : UsbRequest} {s t : State}
    (h : execGetStatus p request s = .next t) : t.fuses = s.fuses := by cases h; simp [getStatus]

theorem execReadBlock_fuses {p : PortId} {seq : BitVec 16} {offset length : Nat} {s t : State}
    (h : execReadBlock p seq offset length s = .next t) : t.fuses = s.fuses := by cases h; simp

/-! ### Commands that may burn -/

theorem execPowerGood_grows {s t : State} (h : execPowerGood s = .next t) : FusesGrow s.fuses t.fuses := by
  unfold execPowerGood at h
  split at h
  · exact .of_next h (powerUp_grows s)
  · exact .of_next h (.refl _)

theorem execPowerFail_grows {s t : State} (h : execPowerFail s = .next t) : FusesGrow s.fuses t.fuses := by
  unfold execPowerFail at h
  split at h
  · exact .of_next h (.refl _)
  · exact .of_next h (powerDown_grows s)

theorem execStrapSample_grows {pins : Straps} {s t : State} (h : execStrapSample pins s = .next t) : FusesGrow s.fuses t.fuses := by
  unfold execStrapSample at h
  split at h
  · exact .of_next h (.refl _)
  · exact .of_next h (.after (readLifeCycle_grows _) (readChest_fuses s))

theorem execSelfTestDone_grows {r : SelfTest} {s t : State} (h : execSelfTestDone r s = .next t) : FusesGrow s.fuses t.fuses := by
  unfold execSelfTestDone at h
  split at h
  · exact .of_next h (by simpa using selfTest_grows r _ _ s)
  · exact .of_next h (.refl _)

theorem execBeat_grows {s t : State} (h : execBeat s = .next t) : FusesGrow s.fuses t.fuses := by
  unfold execBeat at h
  split at h
  · exact .of_next h (.refl _)
  · exact .of_next h (nextBeat_grows [] s)

theorem execUncorrectableError_grows {x : UeEvent} {s t : State} (h : execUncorrectableError x s = .next t) : FusesGrow s.fuses t.fuses := by
  unfold execUncorrectableError at h
  split at h
  · exact .of_next h (.refl _)
  · exact .of_next h (meetAll_grows _ s)

theorem execTamperFire_grows {x : FireEvent} {s t : State} (h : execTamperFire x s = .next t) : FusesGrow s.fuses t.fuses := by
  unfold execTamperFire at h
  split at h
  · exact .of_next h (.refl _)
  · exact .of_next h (meetAll_grows _ s)

theorem execFabricParityError_grows {receiver : UeReport} {source : Fin 104} {repeatFails : Bool} {s t : State}
    (h : execFabricParityError receiver source repeatFails s = .next t) : FusesGrow s.fuses t.fuses := by
  refine .of_next h ?_
  split
  · exact .refl _
  · split
    · simpa using uncorrectable_grows receiver s
    · exact .of_eq (by simp)

theorem execTamperFuse_grows {s t : State} (h : execTamperFuse s = .next t) : FusesGrow s.fuses t.fuses := by
  refine .of_next h ?_
  split
  · split
    · dsimp only
      split
      · exact .of_eq (by simp)
      · split
        · exact .of_eq (by simp)
        · split
          · exact .of_eq (by simp)
          · simpa using fuseSource_grows _ (readQuorum s)
    · exact .of_eq (by simp)
  · exact .refl _

theorem execLcTransitionDone_grows {s t : State} (h : execLcTransitionDone s = .next t) : FusesGrow s.fuses t.fuses := by
  refine .of_next h ?_
  split
  · simpa using endTransition_grows _ s
  · exact .refl _

theorem closedPortActivity_grows (s : State) : FusesGrow s.fuses (closedPortActivity s).fuses := by
  unfold closedPortActivity
  split
  · exact .refl _
  · simpa using evaluate_grows _ s

theorem openPortAccess_grows {a : DebugAccess} {s t : State} (h : openPortAccess a s = .next t) : FusesGrow s.fuses t.fuses := by
  cases a with
  | pinActivity => exact .of_next h (.refl _)
  | injectCorrectable src => exact .of_next h (.of_eq (correctable_fuses _ s))
  | injectUncorrectable r => exact .of_next h (by simpa using uncorrectable_grows r s)
  | readRegister off => exact .of_next h (.of_eq rfl)
  | memoryTest =>
    simp only [openPortAccess] at h
    split at h
    · exact .of_next h (.refl _)
    · cases h
  | toFactoryTest => exact .of_next h (flowTransition_grows 0 1 _ s)
  | toProvisioned => exact .of_next h (flowTransition_grows 1 2 _ s)
  | toScrapped => exact .of_next h (flowTransition_grows 4 5 _ s)

theorem execDebugPortAccess_grows {a : DebugAccess} {s t : State} (h : execDebugPortAccess a s = .next t) : FusesGrow s.fuses t.fuses := by
  unfold execDebugPortAccess at h
  split at h
  · exact openPortAccess_grows h
  · exact .of_next h (closedPortActivity_grows s)

/-! ### Every command -/

theorem operationEffect_fuses {s t : State} (h : OperationEffect s t) : t.fuses = s.fuses := by
  obtain ⟨u, ht, hu⟩ := h
  cases ht with
  | inl ht => rw [ht, operation_fuses hu]
  | inr ht => rw [ht, settleAfterLeave_fuses, operation_fuses hu]

/-- A command that is neither an operation nor one of a card slot, a digest slot or the bobbin. -/
theorem otherCommand_grows {c : Instr} {s t : State} (hop : isOperation c = false) (hcard : isCardCommand c = false)
    (hslot : isSlotCommand c = false) (hbobbin : isBobbinCommand c = false) (h : exec c s = .next t) : FusesGrow s.fuses t.fuses := by
  cases c <;> cases hop <;> cases hcard <;> cases hslot <;> cases hbobbin
  case powerGood => exact execPowerGood_grows h
  case powerFail => exact execPowerFail_grows h
  case strapSample => exact execStrapSample_grows h
  case selfTestDone => exact execSelfTestDone_grows h
  case beat => exact execBeat_grows h
  case uncorrectableError => exact execUncorrectableError_grows h
  case fabricParityError => exact execFabricParityError_grows h
  case lockstepMismatch => exact .of_next h (lockstepAct_grows 1 s)
  case heartbeatTimeout => exact .of_next h (heartbeatAct_grows s)
  case tamperFire => exact execTamperFire_grows h
  case tamperFuse => exact execTamperFuse_grows h
  case twiceDecidedSecond pair qualifying => exact .of_next h (endPair_grows pair qualifying s)
  case stimulusWindowEnd src responded stillActive => exact .of_next h (windowEnds_grows src responded stillActive s)
  case lcTransitionDone => exact execLcTransitionDone_grows h
  case debugPortAccess => exact execDebugPortAccess_grows h
  case eventLog => exact .of_eq (execEventLog_fuses h)
  case logRecordDurable => exact .of_eq (execLogRecordDurable_fuses h)
  case logRepeatFlush => exact .of_eq (execLogRepeatFlush_fuses h)
  case secondsCheckpoint => exact .of_eq (execSecondsCheckpoint_fuses h)
  case backupCellLoss => exact .of_eq (execBackupCellLoss_fuses h)
  case doorbellWrite => exact .of_eq (execDoorbellWrite_fuses h)
  case expressDoorbell => exact .of_eq (execExpressDoorbell_fuses h)
  case adminDoorbell => exact .of_eq (execAdminDoorbell_fuses h)
  case adminQueueEnable => exact .of_eq (execAdminQueueEnable_fuses h)
  case adminQueueDisable => exact .of_eq (execAdminQueueDisable_fuses h)
  case pollTick => exact .of_eq (execPollTick_fuses h)
  case ringReadComplete => exact .of_eq (execRingReadComplete_fuses h)
  case seedWaitTimeout => exact .of_eq (execSeedWaitTimeout_fuses h)
  case completionWrite => exact .of_eq (execCompletionWrite_fuses h)
  case coalesceTimeout => exact .of_eq (execCoalesceTimeout_fuses h)
  case engineAsk => exact .of_eq (execEngineAsk_fuses h)
  case trestleYieldAsk => exact .of_eq (execTrestleYieldAsk_fuses h)
  case loomDim => exact .of_eq (execLoomDim_fuses h)
  case loomRestore => exact .of_eq (execLoomRestore_fuses h)
  case tallyWriteDurable => exact .of_eq (execTallyWriteDurable_fuses h)
  case digestCoreAsk => exact .of_eq (execDigestCoreAsk_fuses h)
  case chestRemask => exact .of_eq (execChestRemask_fuses h)
  case drawerRefresh => exact .of_eq (execDrawerRefresh_fuses h)
  case commit => exact .of_eq (execCommit_fuses h)
  case watchdogExpiry => exact .of_eq (execWatchdogExpiry_fuses h)
  case routineError => exact .of_eq (execRoutineError_fuses h)
  case stewardFwVerified => exact .of_eq (execStewardFwVerified_fuses h)
  case draftReadDone => exact .of_eq (execDraftReadDone_fuses h)
  case ceremonyShareWrite => exact .of_eq (execCeremonyShareWrite_fuses h)
  case ceremonyTimeout => exact .of_eq (execCeremonyTimeout_fuses h)
  case chestRestore => exact .of_eq (execChestRestore_fuses h)
  case recoveryImageVerified => exact .of_eq (execRecoveryImageVerified_fuses h)
  case bobbinTestsEnd => exact .of_eq (execBobbinTestsEnd_fuses h)
  case bobbinSeeded => exact .of_eq (execBobbinSeeded_fuses h)
  case healthFail => exact .of_eq (execHealthFail_fuses h)
  case reseedApplied => exact .of_eq (execReseedApplied_fuses h)
  case bobbinRestart => exact .of_eq (execBobbinRestart_fuses h)
  case pairRetestEnd => exact .of_eq (execPairRetestEnd_fuses h)
  case lcAdvance => exact .of_eq (execLcAdvance_fuses h)
  case debugChallenge => exact .of_eq (execDebugChallenge_fuses h)
  case stageWrite => exact .of_eq (execStageWrite_fuses h)
  case stageCommit => exact .of_eq (execStageCommit_fuses h)
  case stageDiscard => exact .of_eq (execStageDiscard_fuses h)
  case createSlice => exact .of_eq (execCreateSlice_fuses h)
  case destroySlice => exact .of_eq (execDestroySlice_fuses h)
  case createQueue => exact .of_eq (execCreateQueue_fuses h)
  case destroyQueue => exact .of_eq (execDestroyQueue_fuses h)
  case traceEnable => exact .of_eq (execTraceEnable_fuses h)
  case traceDisable => exact .of_eq (execTraceDisable_fuses h)
  case traceConsumedWrite => exact .of_eq (execTraceConsumedWrite_fuses h)
  case calRead => exact .of_eq (execCalRead_fuses h)
  case identityGet => exact .of_eq (execIdentityGet_fuses h)
  case ownerSigned => exact .of_eq (execOwnerSigned_fuses h)
  case signedAdmin => exact .of_eq (execSignedAdmin_fuses h)
  case debugResponse => exact .of_eq (execDebugResponse_fuses h)
  case deviceStage => exact .of_eq (execDeviceStage_fuses h)
  case draftWrite => exact .of_eq (execDraftWrite_fuses h)
  case draftSelect => exact .of_eq (execDraftSelect_fuses h)
  case rethread => exact .of_eq (execRethread_fuses h)
  case rethreadDrainDone => exact .of_eq (execRethreadDrainDone_fuses h)
  case hold => exact .of_eq (execHold_fuses h)
  case holdRelease => exact .of_eq (execHoldRelease_fuses h)
  case calWrite => exact .of_eq (execCalWrite_fuses h)
  case recoveryLoad => exact .of_eq (execRecoveryLoad_fuses h)
  case logRead => exact .of_eq (execLogRead_fuses h)
  case linkTrained => exact .of_eq (execLinkTrained_fuses h)
  case busMasterDisable => exact .of_eq (execBusMasterDisable_fuses h)
  case busMasterResume => exact .of_eq (execBusMasterResume_fuses h)
  case memorySpaceDisable => exact .of_eq (execMemorySpaceDisable_fuses h)
  case pasidEnableChange => exact .of_eq (execPasidEnableChange_fuses h)
  case atsEnableClear => exact .of_eq (execAtsEnableClear_fuses h)
  case functionLevelReset => exact .of_eq (execFunctionLevelReset_fuses h)
  case functionLevelResetEnd => exact .of_eq (execFunctionLevelResetEnd_fuses h)
  case atsInvalidation => exact .of_eq (execAtsInvalidation_fuses h)
  case duplicateRoundMismatch => exact .of_eq (execDuplicateRoundMismatch_fuses h)
  case trestleSelfCheckMismatch => exact .of_eq (execTrestleSelfCheckMismatch_fuses h)
  case verifyMismatch => exact .of_eq (execVerifyMismatch_fuses h)
  case correctableError => exact .of_eq (execCorrectableError_fuses h)
  case ageingMeasure => exact .of_eq (execAgeingMeasure_fuses h)
  case ageingMeasureDone => exact .of_eq (execAgeingMeasureDone_fuses h)
  case portAttach => exact .of_eq (execPortAttach_fuses h)
  case contractChange => exact .of_eq (execContractChange_fuses h)
  case portDetach => exact .of_eq (execPortDetach_fuses h)
  case contractDrop => exact .of_eq (execContractDrop_fuses h)
  case pathOvercurrent => exact .of_eq (execPathOvercurrent_fuses h)
  case planUpHoldExpiry => exact .of_eq (execPlanUpHoldExpiry_fuses h)
  case sourceCapabilitiesTimeout => exact .of_eq (execSourceCapabilitiesTimeout_fuses h)
  case thermalSample => exact .of_eq (execThermalSample_fuses h)
  case thermalStep => exact .of_eq (execThermalStep_fuses h)
  case thermalClear => exact .of_eq (execThermalClear_fuses h)
  case benchGate => exact .of_eq (execBenchGate_fuses h)
  case benchStart => exact .of_eq (execBenchStart_fuses h)
  case tamperRepeat => exact .of_eq (execTamperRepeat_fuses h)
  case sourceGoesInactive => exact .of_eq (execSourceGoesInactive_fuses h)
  case cellWindow => exact .of_eq (execCellWindow_fuses h)
  case tamperStimulus => exact .of_eq (execTamperStimulus_fuses h)
  case tamperClear => exact .of_eq (execTamperClear_fuses h)
  case freezeSlice => exact .of_eq (execFreezeSlice_fuses h)
  case freezeDrainDone => exact .of_eq (execFreezeDrainDone_fuses h)
  case thawSlice => exact .of_eq (execThawSlice_fuses h)
  case saveSlice => exact .of_eq (execSaveSlice_fuses h)
  case restoreSlice => exact .of_eq (execRestoreSlice_fuses h)
  case registerWrite => exact .of_eq (execRegisterWrite_fuses h)
  case pwrEventsClear => exact .of_eq (execPwrEventsClear_fuses h)
  case getStatus => exact .of_eq (execGetStatus_fuses h)
  case readBlock => exact .of_eq (execReadBlock_fuses h)

theorem exec_grows {c : Instr} {s t : State} (h : exec c s = .next t) : FusesGrow s.fuses t.fuses := by
  cases hop : isOperation c
  · cases hcard : isCardCommand c
    · cases hslot : isSlotCommand c
      · cases hbobbin : isBobbinCommand c
        · exact otherCommand_grows hop hcard hslot hbobbin h
        · exact .of_eq (bobbin_fuses (bobbinCommand_keepsBobbin hbobbin h))
      · exact .of_eq (slots_fuses (slotCommand_keepsSlots hslot h))
    · exact .of_eq (cards_fuses (cardCommand_keepsCards hcard h))
  · exact .of_eq (operationEffect_fuses (operation_effect hop h))

/-! ### TAMPER_FUSE disables its source -/

theorem getLsbD_setBit_self {w n : Nat} (m : BitVec w) (h : n < w) : (setBit m n true).getLsbD n = true := by
  rw [setBit, if_pos rfl, BitVec.getLsbD_or, BitVec.getLsbD_ofNat, Nat.testBit_two_pow_self, decide_eq_true h]
  simp only [Bool.and_true, Bool.or_true]

theorem fuseSource_disables (src : SourceId) (s : State) : (fuseSource src s).fuses.fused.getLsbD src.val = true :=
  getLsbD_setBit_self _ src.isLt

/-- The command's source is disabled where the quorum stands and R483 permits it. -/
theorem execTamperFuse_disables {s : State} {b : Byte} (hb : b.toNat < 24) (hreset : b.toNat ≠ 19) (hquorum : quorumStands s = true)
    (howner : ownerReady s = some (.tamperFuse b)) :
    ∃ t, execTamperFuse s = .next t ∧ t.fuses.fused.getLsbD b.toNat = true := by
  unfold execTamperFuse
  simp only [howner, dif_pos hb, if_neg hreset, hquorum, Bool.not_true, Bool.false_eq_true, if_false]
  refine ⟨_, rfl, ?_⟩
  rw [ownerDone_fuses]
  split
  · assumption
  · exact fuseSource_disables ⟨b.toNat, hb⟩ _

/-- Settles O52: every command only adds to the fuses, and TAMPER_FUSE adds its source. -/
theorem fusedSourcesStayDisabled : Obligations.fused_sources_stay_disabled := by
  refine ⟨fun c s t h => ?_, fun s b howner hb hreset hquorum => ?_⟩
  · obtain ⟨hfused, hserial, hcaps, hotp⟩ := exec_grows h
    exact ⟨hfused, hserial, hcaps, hotp⟩
  · exact execTamperFuse_disables hb hreset hquorum howner

end Sys2Proof.Machine
end

section
/-! PROOFS. Power-fail (R29), and the commands of the logbook (R515 to R519). -/

namespace Sys2Proof.Machine

open Sys2Proof.Claims

/-! ### Power-fail -/

/-- Without a transition no burn is torn. -/
theorem tornBurn_none {s : State} (h : s.life.transition = none) : tornBurn s = (s.fuses.otp, s) := by
  rw [tornBurn, h]

theorem execPowerFail_falls {s : State} (hd : s.mode.base ≠ .dormant) : exec .powerFail s = .next (powerDown s) := by
  simp [exec, execPowerFail, hd]

/-- Settles O14: what has power of its own stays, the main domain is as after reset. -/
theorem powerFailCompletes : Obligations.power_fail_completes := by
  intro s hd hcell hlife
  refine ⟨powerDown s, execPowerFail_falls hd, ?_⟩
  simp [powerDown, tornBurn_none hlife, hcell, State.reset]

/-! ### Records -/

/-- A record as flash holds it once it is written. -/
def writtenRecord (r : LogRecord) (now : Nat) : LogRecord :=
  { r with durable := true, flashRepeats := r.repeats, flashLast := r.last, flushed := now }

theorem writeRecord_frame (r : LogRecord) (s : State) :
    writeRecord r s = { s with
      log := { s.log with records := (writeRecord r s).log.records }
      flash := { s.flash with logRecords := (writeRecord r s).flash.logRecords } } := rfl

theorem writtenRecord_mem_flash (r : LogRecord) (s : State) :
    writtenRecord r s.log.seconds ∈ (writeRecord r s).flash.logRecords := by
  simp [writeRecord, writtenRecord]

theorem writtenRecord_mem_mirror {r : LogRecord} {s : State} (h : r ∈ s.log.records) :
    writtenRecord r s.log.seconds ∈ (writeRecord r s).log.records :=
  List.mem_map.mpr ⟨r, h, if_pos (beq_self_eq_true r.seq)⟩

/-- An event without a record of its number makes a new one where the mirror has room. -/
theorem takeEvent_new {e : Event} {s : State} (hnew : newestOf e.event s.log.records = none) (hroom : s.log.records.length < 4096) :
    takeEvent e s = { s with
      log := { s.log with records := s.log.records ++
        [{ recordOf e.event e.severity false e.time s.flash.powerCycle e.detail with seq := s.flash.logSeq + 1 }] }
      flash := { s.flash with logSeq := s.flash.logSeq + 1 } } := by
  simp [takeEvent, hnew, takeRecord, hroom, recordOf]

/-- Taking an event touches the records, SEQ and the lost counts alone. -/
theorem takeEvent_touches (e : Event) (s : State) :
    ∃ r q l, takeEvent e s = { s with log := { s.log with records := r }, flash := { s.flash with logSeq := q, lost := l } } := by
  have htake (r : LogRecord) : ∃ rs q l,
      takeRecord r s = { s with log := { s.log with records := rs }, flash := { s.flash with logSeq := q, lost := l } } := by
    unfold takeRecord countLost
    dsimp only
    split
    · exact ⟨_, _, s.flash.lost, rfl⟩
    · split
      · exact ⟨_, _, s.flash.lost, rfl⟩
      · split
        · exact ⟨s.log.records, s.flash.logSeq, _, rfl⟩
        · exact ⟨s.log.records, s.flash.logSeq, s.flash.lost, rfl⟩
  unfold takeEvent
  split
  · split
    · exact ⟨_, s.flash.logSeq, s.flash.lost, rfl⟩
    · exact htake _
  · exact htake _

/-! ### The logbook's commands -/

theorem execEventLog_takes {s : State} {e : Event} {rest : List Event} (hd : s.mode.base ≠ .dormant) (hl : latching s = false)
    (hq : s.log.queue = e :: rest) :
    exec .eventLog s = .next (takeEvent e { s with log := { s.log with queue := rest } }) := by
  simp [exec, execEventLog, hd, hl, hq]

theorem execLogRecordDurable_writes {s : State} {r : LogRecord} {seq : Word} (hd : s.mode.base ≠ .dormant)
    (hf : s.faults.flashFenced = false) (hs : s.mode.stewardLost = false)
    (hr : (s.log.records.find? fun x => x.seq == seq && !x.durable) = some r) :
    exec (.logRecordDurable seq) s = .next (writeRecord r s) := by
  simp only [exec, execLogRecordDurable, hf, hs, hr, beq_iff_eq, hd, Bool.or_false, if_false]

theorem execLogRepeatFlush_writes {s : State} {r : LogRecord} {seq : Word} (hd : s.mode.base ≠ .dormant)
    (hf : s.faults.flashFenced = false) (hs : s.mode.stewardLost = false)
    (hr : (s.log.records.find? fun x => x.seq == seq && x.durable && decide (x.flushed + 10 ≤ s.log.seconds)) = some r) :
    exec (.logRepeatFlush seq) s = .next (writeRecord { r with replaces := none } s) := by
  simp only [exec, execLogRepeatFlush, hf, hs, hr, beq_iff_eq, hd, Bool.or_false, if_false]

theorem execBackupCellLoss_next (s : State) :
    ∃ t, exec .backupCellLoss s = .next t ∧ t.backup.cellOk = false ∧ (s.mode.base ≠ .dormant → t.backup = { s.backup with cellOk := false }) ∧
      (s.mode.base = .dormant → t.backup.chest = {} ∧ t.backup.wasLost = true) := by
  by_cases hd : s.mode.base = .dormant
  · exact ⟨loseBackup { s with backup := { s.backup with cellOk := false } }, by simp [exec, execBackupCellLoss, hd], rfl,
      fun h => absurd hd h, fun _ => ⟨rfl, rfl⟩⟩
  · exact ⟨{ s with backup := { s.backup with cellOk := false } }, by simp [exec, execBackupCellLoss, hd], rfl, fun _ => rfl,
      fun h => absurd h hd⟩

/-- Settles O30, command by command. -/
theorem logbookCompletes : Obligations.logbook_completes := by
  intro s e rest r
  refine ⟨fun hd hl hq => ?_, fun hd hf hs hr => ?_, fun hd hf hs hr => ?_, fun hd hf => ?_, execBackupCellLoss_next s⟩
  · refine ⟨_, execEventLog_takes hd hl hq, ?_⟩
    obtain ⟨rs, q, l, htouch⟩ := takeEvent_touches e { s with log := { s.log with queue := rest } }
    refine ⟨by rw [htouch], by rw [htouch], fun hnew hroom => ?_⟩
    rw [takeEvent_new (s := { s with log := { s.log with queue := rest } }) hnew hroom]
    exact ⟨_, rfl, rfl, rfl, rfl, rfl, rfl, rfl, rfl⟩
  · exact ⟨_, execLogRecordDurable_writes hd hf hs hr, rfl, writtenRecord_mem_flash r s,
      writtenRecord_mem_mirror (List.mem_of_find?_eq_some hr), rfl⟩
  · exact ⟨_, _, execLogRepeatFlush_writes hd hf hs hr, writtenRecord_mem_flash _ s, rfl, rfl, rfl, rfl⟩
  · simp [exec, execSecondsCheckpoint, hd, hf]

end Sys2Proof.Machine
end

section
/-! PROOFS. A key that a DELETE takes while its record is being written (R303, R307, R412). -/

namespace Sys2Proof.Machine

open Sys2Proof.Claims

/-- The record of the key in copy A, and in `writing` the same with STATE 4, as TALLY_RETIRE writes it. -/
def retiringCopy : TallyCopy :=
  { seq := 2, state := 4, family := 5, set := 0, keyId := 7, uid := 1, ceiling := 32, handoff := 0, nonce := 0 }

/-- A record whose update to STATE 4 is on its way into copy B; item 1, the TALLY_RETIRE, waits for it. -/
def retiringRecord : TallyRecord :=
  { number := 0, copyA := some { retiringCopy with seq := 1, state := 2 }, writing := some (true, retiringCopy), waiter := .item 1 }

/-- An item of the key that has committed and whose completion waits. -/
def committedItem (id : Nat) : Item :=
  { id := id, port := 0, qnum := 1, slice := 0, index := id, entry := 0, cls := .local_, place := .done, keyRun := some 0
    result := some { status := .ok } }

/-- TALLY_RETIRE (item 1) has committed and waits for its record, and DELETE of the same key (item 2) has committed behind it. -/
def deletingState : State :=
  { State.reset with
    mode := { State.reset.mode with base := .idle }
    heddle := { State.reset.heddle with items := [committedItem 1, committedItem 2] }
    flash := { State.reset.flash with tally := [retiringRecord] }
    runs := [{ port := 0, slice := 0, first := 0, length := 1, gen := 1, kind := 4, family := 5, set := 0, policy := 0, content := []
               keyId := 7, state := .live, deleting := some 2 }] }

/-- The write that becomes durable is what the DELETE waited for: the key's run is wiped, and its record is erased with it. -/
theorem execTallyWriteDurable_erases : ∃ t, exec (.tallyWriteDurable 0) deletingState = .next t ∧ t.flash.tally = [] :=
  ⟨_, rfl, rfl⟩

/-- Refutes O50: TALLY_WRITE_DURABLE also runs a DELETE that waited for the write, which erases the record (R307, R412). -/
theorem not_durableAndDebugComplete : ¬ Obligations.durable_and_debug_complete := by
  intro h
  obtain ⟨hwrite, -⟩ := h deletingState retiringRecord true retiringCopy 0 0
  obtain ⟨t, hexec, y, hy, -⟩ := hwrite rfl rfl rfl rfl
  obtain ⟨u, hexec', hnone⟩ := execTallyWriteDurable_erases
  obtain rfl : u = t := Host.Outcome.next.inj (hexec'.symm.trans hexec)
  simp [hnone] at hy

end Sys2Proof.Machine
end

section
/-! PROOFS. What follows an item that leaves (R73, R135, R146, R174, R175): parked items are offered, credit is settled, scans go
on, and invalidations that waited are answered. Only the heddle, the queues, the ports and what they report differ. -/

namespace Sys2Proof.Machine

open Sys2Proof.Claims

/-- What the settling of the heddle may change. -/
def Frame.settling : Frame where
  take u s := { s with
    heddle := u.heddle
    queues := u.queues
    ports := u.ports
    out := u.out
    log := { s.log with queue := u.log.queue }
    backup := { s.backup with latch := u.backup.latch, lost := u.backup.lost }
    flash := { s.flash with lost := u.flash.lost } }
  self _ := rfl
  last _ _ _ := rfl

theorem raise_keepsSettling (ev : Nat) (d : BitVec 64) (s : State) : Frame.settling.Keeps s (raise ev d s) := by
  obtain ⟨_, _, _, _, h⟩ := raise_touches ev d s
  rw [h]
  rfl

theorem modPort_keepsSettling (p : PortId) (f : Port → Port) (s : State) : Frame.settling.Keeps s (modPort p f s) := rfl

theorem modItem_keepsSettling (id : Nat) (f : Item → Item) (s : State) : Frame.settling.Keeps s (modItem id f s) := rfl

theorem emit_keepsSettling (x : Tx) (s : State) : Frame.settling.Keeps s (emit x s) := rfl

theorem traceRecord_keepsSettling (p : PortId) (engine : Nat) (i : Option Item) (reason cls : Nat) (s : State) :
    Frame.settling.Keeps s (traceRecord p engine i reason cls s) := by
  unfold traceRecord
  dsimp only
  split
  · exact .refl s
  · split <;> rfl

theorem traceItem_keepsSettling (reason : Nat) (i : Item) (s : State) : Frame.settling.Keeps s (traceItem reason i s) :=
  traceRecord_keepsSettling _ _ _ _ _ s

theorem takeScratch_keepsSettling (id : Nat) (s : State) : Frame.settling.Keeps s (takeScratch id s) := by
  unfold takeScratch
  split
  · exact .refl s
  · split
    · exact .refl s
    · split
      · exact modItem_keepsSettling _ _ s
      · exact .refl s

theorem enterList_keepsSettling (id : Nat) (s : State) : Frame.settling.Keeps s (enterList id s) := by
  unfold enterList
  split
  · exact .refl s
  · exact .trans (t := { s with heddle := _ }) rfl (traceItem_keepsSettling _ _ _)

theorem park_keepsSettling (full : Bool) (id : Nat) (s : State) : Frame.settling.Keeps s (park full id s) := by
  unfold park
  split
  · exact .refl s
  · have hpark := fun i => (modItem_keepsSettling id (fun x => { x with place := .parked }) s).trans (traceItem_keepsSettling 0x02 i _)
    dsimp only
    split
    · exact (hpark _).trans (raise_keepsSettling _ _ _)
    · exact hpark _

theorem offer_keepsSettling (id : Nat) (s : State) : Frame.settling.Keeps s (offer id s) := by
  unfold offer
  dsimp only
  split
  · exact takeScratch_keepsSettling id s
  · split
    · exact (takeScratch_keepsSettling id s).trans (enterList_keepsSettling id _)
    · split
      · exact takeScratch_keepsSettling id s
      · exact (takeScratch_keepsSettling id s).trans (park_keepsSettling _ id _)

theorem retryParked_keepsSettling (s : State) : Frame.settling.Keeps s (retryParked s) := by
  have hoffer (l : List Nat) (s : State) : Frame.settling.Keeps s (l.foldl (fun s id => offer id s) s) :=
    .foldl (fun s id => offer_keepsSettling id s) l s
  unfold retryParked
  dsimp only
  split
  · exact (hoffer _ s).trans (hoffer _ _)
  · exact hoffer _ s

theorem settleCredit_keepsSettling (s : State) : Frame.settling.Keeps s (settleCredit s) := by
  refine .foldl (fun s p => ?_) _ s
  dsimp only
  split
  · exact .refl s
  · exact (modPort_keepsSettling p _ s).trans (traceRecord_keepsSettling _ _ _ _ _ _)

theorem issueRead_keepsSettling (q : Queue) (n : Nat) (s : State) : Frame.settling.Keeps s (issueRead q n s) := by
  have hask (u : State) (h : Frame.settling.Keeps s u) : Frame.settling.Keeps s (askPages q.port q.slice (ringPages q n) u) := by
    unfold askPages
    dsimp only
    split
    · exact h.trans (emit_keepsSettling _ u)
    · exact h
  exact (hask (modQueue q.port q.qnum _ s) rfl).trans (emit_keepsSettling _ _)

theorem pumpScans_keepsSettling (s : State) : Frame.settling.Keeps s (pumpScans s) := by
  refine .foldl (fun s q => ?_) _ s
  split
  · exact .refl s
  · split
    · exact issueRead_keepsSettling _ _ s
    · exact .refl s

theorem markOldest_keepsSettling (s : State) : Frame.settling.Keeps s (markOldest s) := rfl

theorem settleDrains_keepsSettling (s : State) : Frame.settling.Keeps s (settleDrains s) := by
  refine .foldl (fun s p => ?_) _ s
  dsimp only
  split
  · exact .refl s
  · exact (modPort_keepsSettling p _ s).trans (.foldl (fun s _ => emit_keepsSettling _ s) _ _)

theorem settleAfterLeave_keepsSettling (s : State) : Frame.settling.Keeps s (settleAfterLeave s) :=
  (retryParked_keepsSettling s).trans ((settleCredit_keepsSettling _).trans ((pumpScans_keepsSettling _).trans
    ((markOldest_keepsSettling _).trans (settleDrains_keepsSettling _))))

theorem settling_units {s t : State} (h : Frame.settling.Keeps s t) :
    t.pending = s.pending ∧ t.clock = s.clock ∧ t.power = s.power ∧ t.mode = s.mode ∧ t.tamper = s.tamper ∧ t.life = s.life ∧
      t.backup.sticky = s.backup.sticky ∧ t.backup.chest = s.backup.chest ∧ t.slices = s.slices ∧ t.runs = s.runs ∧
      t.shares = s.shares := by
  rw [h]
  exact ⟨rfl, rfl, rfl, rfl, rfl, rfl, rfl, rfl, rfl, rfl, rfl⟩

/-- The settling leaves every unit beside the heddle and the ports as it was. -/
@[simp] theorem settleAfterLeave_units (s : State) :
    (settleAfterLeave s).pending = s.pending ∧ (settleAfterLeave s).clock = s.clock ∧ (settleAfterLeave s).power = s.power ∧
      (settleAfterLeave s).mode = s.mode ∧ (settleAfterLeave s).tamper = s.tamper ∧ (settleAfterLeave s).life = s.life ∧
      (settleAfterLeave s).backup.sticky = s.backup.sticky ∧ (settleAfterLeave s).backup.chest = s.backup.chest ∧
      (settleAfterLeave s).slices = s.slices ∧ (settleAfterLeave s).runs = s.runs ∧ (settleAfterLeave s).shares = s.shares :=
  settling_units (settleAfterLeave_keepsSettling s)

end Sys2Proof.Machine
end

section
/-! PROOFS. The standing of the module that its shared operations leave alone: work on items, answers, plans, fences and the
zeroize line change neither the queue of commands nor the clock, the straps or the contracts, and fire no source. One rule a
function, in the model's order, from which `simp` composes the next. -/

namespace Sys2Proof.Machine

open Sys2Proof.Claims

/-! ### What stands, and how the rules compose -/

/-- The queue of commands, the clock, the disabled sources, INVALID, the straps and the contracts with their paths stand. -/
@[simp] abbrev Fixed (s t : State) : Prop :=
  t.pending = s.pending ∧ t.clock = s.clock ∧ t.fuses.fused = s.fuses.fused ∧ t.life.invalid = s.life.invalid ∧
    t.mode.straps = s.mode.straps ∧ t.power.contracts = s.power.contracts ∧ t.power.paths = s.power.paths

/-- The tamper watch's standing is as it was: no source fires or goes, no decision pair opens or ends. -/
@[simp] abbrev Watchful (s t : State) : Prop :=
  t.tamper.active = s.tamper.active ∧ t.tamper.pairs = s.tamper.pairs ∧ t.backup.sticky = s.backup.sticky

/-- Both. -/
@[simp] abbrev Steady (s t : State) : Prop := Fixed s t ∧ Watchful s t

theorem Fixed.refl (s : State) : Fixed s s := ⟨rfl, rfl, rfl, rfl, rfl, rfl, rfl⟩

theorem Fixed.trans {s t u : State} (h : Fixed s t) (k : Fixed t u) : Fixed s u := by
  obtain ⟨hpending, hclock, hfused, hinvalid, hstraps, hcontracts, hpaths⟩ := h
  simpa only [Fixed, hpending, hclock, hfused, hinvalid, hstraps, hcontracts, hpaths] using k

theorem Steady.refl (s : State) : Steady s s := ⟨.refl s, rfl, rfl, rfl⟩

theorem Steady.trans {s t u : State} (h : Steady s t) (k : Steady t u) : Steady s u := by
  obtain ⟨hfixed, hactive, hpairs, hsticky⟩ := h
  exact ⟨hfixed.trans k.1, by simpa only [Watchful, hactive, hpairs, hsticky] using k.2⟩

theorem operation_steady {s t : State} (h : Frame.operation.Keeps s t) : Steady s t := by
  rw [h]
  exact .refl s

theorem cards_steady {s t : State} (h : Frame.cards.Keeps s t) : Steady s t := by
  rw [h]
  exact .refl s

theorem settling_steady {s t : State} (h : Frame.settling.Keeps s t) : Steady s t := by
  rw [h]
  exact .refl s

theorem foldl_steady_of {α β : Type} (g : β → State) {f : β → α → β} (h : ∀ x a, Steady (g x) (g (f x a)))
    (l : List α) (x : β) : Steady (g x) (g (l.foldl f x)) := by
  induction l generalizing x with
  | nil => exact .refl _
  | cons a l ih => exact (h x a).trans (ih _)

@[simp] theorem foldl_steady {α : Type} {f : State → α → State} (l : List α) (s : State) (h : ∀ s a, Steady s (f s a)) :
    Steady s (l.foldl f s) :=
  foldl_steady_of id h l s

/-- A choice between two states, field by field. -/
@[simp] theorem ite_units {c : Prop} [Decidable c] (s t : State) :
    (if c then s else t).pending = (if c then s.pending else t.pending) ∧ (if c then s else t).clock = (if c then s.clock else t.clock) ∧
      (if c then s else t).life = (if c then s.life else t.life) ∧ (if c then s else t).mode = (if c then s.mode else t.mode) ∧
      (if c then s else t).power = (if c then s.power else t.power) ∧ (if c then s else t).tamper = (if c then s.tamper else t.tamper) ∧
      (if c then s else t).backup = (if c then s.backup else t.backup) := by
  split <;> exact ⟨rfl, rfl, rfl, rfl, rfl, rfl, rfl⟩

@[simp] theorem ite_fused {c : Prop} [Decidable c] (x y : Fuses) : (if c then x else y).fused = if c then x.fused else y.fused :=
  apply_ite _ c x y

@[simp] theorem ite_invalid {c : Prop} [Decidable c] (x y : LifeCycle) :
    (if c then x else y).invalid = if c then x.invalid else y.invalid :=
  apply_ite _ c x y

@[simp] theorem ite_straps {c : Prop} [Decidable c] (x y : ModeUnit) : (if c then x else y).straps = if c then x.straps else y.straps :=
  apply_ite _ c x y

@[simp] theorem ite_contracts {c : Prop} [Decidable c] (x y : Power) :
    (if c then x else y).contracts = if c then x.contracts else y.contracts :=
  apply_ite _ c x y

@[simp] theorem ite_paths {c : Prop} [Decidable c] (x y : Power) : (if c then x else y).paths = if c then x.paths else y.paths :=
  apply_ite _ c x y

@[simp] theorem ite_active {c : Prop} [Decidable c] (x y : Tamper) : (if c then x else y).active = if c then x.active else y.active :=
  apply_ite _ c x y

@[simp] theorem ite_pairs {c : Prop} [Decidable c] (x y : Tamper) : (if c then x else y).pairs = if c then x.pairs else y.pairs :=
  apply_ite _ c x y

@[simp] theorem ite_sticky {c : Prop} [Decidable c] (x y : Backup) : (if c then x else y).sticky = if c then x.sticky else y.sticky :=
  apply_ite _ c x y

theorem unask_steady (sel : Engine → Bool) (s : State) : Steady s (unask sel s) := .refl s
@[simp] theorem powerEvent_steady (i : Nat) (s : State) : Steady s (powerEvent i s) := .refl s
@[simp] theorem clearChest_steady (s : State) : Steady s (clearChest s) := .refl s


/-! ### Events and the log -/

@[simp] theorem latchEntry_steady (e : LatchEntry) (s : State) : Steady s (latchEntry e s) := by simp [latchEntry]

@[simp] theorem countLost_steady (severity : Nat) (s : State) : Steady s (countLost severity s) := by
  unfold countLost
  split <;> simp

@[simp] theorem queueEvent_steady (e : Event) (s : State) : Steady s (queueEvent e s) := by simp [queueEvent]
@[simp] theorem raise0_steady (ev : Nat) (s : State) : Steady s (raise0 ev s) := by simp [raise0]

/-! ### Writes from the host, the chest, draws -/

@[simp] theorem writeChest_steady (f : Chest → Chest) (s : State) : Steady s (writeChest f s) := by simp [writeChest]
@[simp] theorem takeFree_steady (s : State) : Steady s (takeFree s).2 := by simp [takeFree]

/-! ### How items end, and what a slice leaves -/

@[simp] theorem traceRecord_steady (p : PortId) (engine : Nat) (i : Option Item) (reason cls : Nat) (s : State) : Steady s (traceRecord p engine i reason cls s) := by
  simp [traceRecord]

@[simp] theorem traceItem_steady (reason : Nat) (i : Item) (s : State) : Steady s (traceItem reason i s) := by simp [traceItem]

@[simp] theorem eraseTally_steady (sel : TallyRecord → Bool) (s : State) : Steady s (eraseTally sel s) :=
  operation_steady (eraseTally_keepsOperation _ s)

@[simp] theorem settleRuns_steady (s : State) : Steady s (settleRuns s) := operation_steady (settleRuns_keepsOperation s)
@[simp] theorem returnReservation_steady (id : Nat) (s : State) : Steady s (returnReservation id s) := by simp [returnReservation]

@[simp] theorem endItem_steady (id : Nat) (d : Done) (eng : Nat) (s : State) : Steady s (endItem id d eng s) :=
  operation_steady (endItem_keepsOperation _ _ _ s)

@[simp] theorem failItem_steady (st : Status) (i : Item) (s : State) : Steady s (failItem st i s) := by simp [failItem]

@[simp] theorem modContext_steady (i : Item) (f : JobContext → JobContext) (s : State) : Steady s (modContext i f s) :=
  operation_steady (modContext_keepsOperation _ _ s)

@[simp] theorem leaveStores_steady (i : Item) (s : State) : Steady s (leaveStores i s) :=
  operation_steady (leaveStores_keepsOperation _ s)

@[simp] theorem leaveUnits_steady (i : Item) (s : State) : Steady s (leaveUnits i s) :=
  operation_steady (leaveUnits_keepsOperation _ s)

@[simp] theorem failInService_steady (st : Status) (cycles : Nat) (i : Item) (s : State) : Steady s (failInService st cycles i s) :=
  operation_steady (failInService_keepsOperation _ _ _ s)

@[simp] theorem countAbandon_steady (i : Item) (s : State) : Steady s (countAbandon i s) := by
  unfold countAbandon
  (repeat' split) <;> simp

@[simp] theorem resumeTrestle_steady (i : Item) (s : State) : Steady s (resumeTrestle i s) :=
  operation_steady (resumeTrestle_keepsOperation _ s)

@[simp] theorem restartCoded_steady (code : Nat) (fault : Bool) (excl : List Engine) (i : Item) (s : State) : Steady s (restartCoded code fault excl i s) := by
  simp [restartCoded]

@[simp] theorem restartItem_steady (fault : Bool) (excl : List Engine) (i : Item) (s : State) : Steady s (restartItem fault excl i s) := by
  simp [restartItem]

@[simp] theorem restartAllOn_steady (fault : Bool) (e : Engine) (s : State) : Steady s (restartAllOn fault e s) := by
  simp [restartAllOn]

@[simp] theorem discardItems_steady (p : PortId) (i : SliceIdx) (s : State) : Steady s (discardItems p i s) := by simp [discardItems]

@[simp] theorem destroySlice_steady (p : PortId) (i : SliceIdx) (erase : Bool) (s : State) : Steady s (destroySlice p i erase s) := by
  unfold destroySlice
  extract_lets old uid s₁ s₂ s₃ keys m s₄ s₅ s₆ cards s₇
  have h₁ : Steady s s₁ := by
    unfold s₁
    cases old <;> simp
  have h₇ : Steady s s₇ := by simp [s₇, s₆, s₅, s₄, s₃, s₂, h₁]
  split <;> simp [h₇]

@[simp] theorem destroyAllSlices_steady (s : State) : Steady s (destroyAllSlices s) := by simp [destroyAllSlices]

/-! ### Modes, fences, plans, answers -/

@[simp] theorem adminDone_steady (p : PortId) (st : Status) (result : Nat) (output : Bytes) (s : State) : Steady s (adminDone p st result output s) := by
  simp [adminDone]

@[simp] theorem ownerDone_steady (st : Status) (s : State) : Steady s (ownerDone st s) := by
  unfold ownerDone
  split
  · exact .refl s
  · dsimp only
    (repeat' split) <;> simp

@[simp] theorem rethreadDone_steady (st : Status) (s : State) : Steady s (rethreadDone st s) := by
  unfold rethreadDone
  (repeat' split) <;> simp

@[simp] theorem setMode_steady (m : Mode) (cause : Nat) (s : State) : Steady s (setMode m cause s) := by simp [setMode]
@[simp] theorem endFirstThreading_steady (s : State) : Steady s (endFirstThreading s) := by simp [endFirstThreading]
@[simp] theorem enterHold_steady (cause : Nat) (s : State) : Steady s (enterHold cause s) := by simp [enterHold]

@[simp] theorem beginThreading_steady (src : Nat) (other re : Bool) (cause : Nat) (s : State) : Steady s (beginThreading src other re cause s) := by
  simp [beginThreading, disarmStages]

@[simp] theorem leaveWake_steady (s : State) : Steady s (leaveWake s) := by
  unfold leaveWake
  (repeat' split) <;> simp

@[simp] theorem leaveIdle_steady (s : State) : Steady s (leaveIdle s) := by simp [leaveIdle]
@[simp] theorem degrade_steady (cause : Nat) (s : State) : Steady s (degrade cause s) := by simp [degrade]

@[simp] theorem restartWhere_steady (code : Nat) (fault : Bool) (sel : Engine → Bool) (s : State) :
    Steady s (restartWhere code fault sel s) := by
  refine .trans (foldl_steady _ _ fun s i => ?_) (unask_steady sel _)
  dsimp only
  cases findItem s i.id with
  | none => exact .refl s
  | some i => exact restartCoded_steady _ _ _ i s

@[simp] theorem fenceUnits_steady (fault : Bool) (benches : BitVec 16) (looms : List LoomId) (trestles : BitVec 8) (selvs : BitVec 4) (s : State) : Steady s (fenceUnits fault benches looms trestles selvs s) := by
  unfold fenceUnits
  dsimp only
  split <;> simp

@[simp] theorem queueSeed_steady (i : InstId) (s : State) : Steady s (queueSeed i s) := by simp [queueSeed]
@[simp] theorem requestSeed_steady (i : InstId) (s : State) : Steady s (requestSeed i s) := by simp [requestSeed]
@[simp] theorem askBenchSeeds_steady (s : State) : Steady s (askBenchSeeds s) := by simp [askBenchSeeds]

@[simp] theorem bobbinRestartDone_steady (st : Status) (s : State) : Steady s (bobbinRestartDone st s) := by
  unfold bobbinRestartDone
  (repeat' split) <;> simp

@[simp] theorem parkBenches_steady (m : BitVec 16) (s : State) : Steady s (parkBenches m s) := by simp [parkBenches, parkBench]
@[simp] theorem settleBelowMin_steady (s : State) : Steady s (settleBelowMin s) := by simp [settleBelowMin]

@[simp] theorem removeFunction_steady (p : PortId) (s : State) : Steady s (removeFunction p s) := by
  simp [removeFunction, destroyPortSlices]

@[simp] theorem detachFunction_steady (p : PortId) (s : State) : Steady s (detachFunction p s) := by simp [detachFunction]

@[simp] theorem oneSlotPowered_steady (s : State) : Steady s (oneSlotPowered s) := by
  unfold oneSlotPowered
  split <;> simp [cutSlot]

@[simp] theorem planFallMode_steady (s : State) : Steady s (planFallMode s) := by
  unfold planFallMode
  split <;> simp [bobbinOff]

@[simp] theorem replan_steady (s : State) : Steady s (replan s) := by simp [replan, planFall]
@[simp] theorem bulk_steady (low : Bool) (s : State) : Steady s (bulk low s) := by simp [bulk]
@[simp] theorem returnBenches_steady (s : State) : Steady s (returnBenches s) := by simp [returnBenches]

@[simp] theorem clearDrawers_steady (s : State) : Steady s (clearDrawers s) := by simp [clearDrawers, wipeDrawers, setGens]

@[simp] theorem abandonAll_steady (st : Status) (s : State) : Steady s (abandonAll st s) := by
  refine foldl_steady _ _ fun s i => ?_
  split
  · split <;> simp
  · simp
  · simp

@[simp] theorem abandonAdmin_steady (st : Status) (s : State) : Steady s (abandonAdmin st s) := by
  unfold abandonAdmin
  extract_lets s₁
  have h₁ : Steady s s₁ := by simp [s₁]
  refine h₁.trans (foldl_steady _ _ fun s p => ?_)
  split
  · split <;> simp
  · exact .refl s

@[simp] theorem zeroizeLine_steady (s : State) : Steady s (zeroizeLine s) := by simp [zeroizeLine, stopCeremony]

@[simp] theorem tamperFence_steady (src : SourceId) (sc : FenceScope) (s : State) : Steady s (tamperFence src sc s) := by
  simp [tamperFence]

@[simp] theorem haltResponse_steady (s : State) : Steady s (haltResponse s) := by simp [haltResponse]

@[simp] theorem useNonce_steady (s : State) : Steady s (useNonce s) := by simp [useNonce]

@[simp] theorem abandonWork_steady (s : State) (w : WaitingEnvelope) : Steady s (abandonWork s w) := by
  unfold abandonWork
  split <;> simp

@[simp] theorem abandonSteward_steady (s : State) : Steady s (abandonSteward s) := by simp [abandonSteward]

/-! ### The tally region -/

@[simp] theorem countTallyWrites_steady (n : Nat) (s : State) : Steady s (countTallyWrites n s) := by simp [countTallyWrites]

@[simp] theorem writeTally_steady (number : Nat) (c : TallyCopy) (w : TallyWaiter) (s : State) : Steady s (writeTally number c w s) := by
  simp [writeTally]

/-! ### Reports to the host -/

@[simp] theorem sendMessage_steady (p : PortId) (vector : Nat) (s : State) : Steady s (sendMessage p vector s) := by
  unfold sendMessage
  dsimp only
  split
  · exact .refl s
  · split <;> simp

@[simp] theorem queueMessage_steady (p : PortId) (n : Nat) (s : State) : Steady s (queueMessage p n s) := by
  unfold queueMessage
  split <;> simp

@[simp] theorem adminMessage_steady (p : PortId) (s : State) : Steady s (adminMessage p s) := by simp [adminMessage]

@[simp] theorem countWritten_steady (p : PortId) (n : Nat) (e : Entry) (s : State) : Steady s (countWritten p n e s) := by
  unfold countWritten
  dsimp only
  split <;> simp

@[simp] theorem queueError_steady (p : PortId) (n err : Nat) (s : State) : Steady s (queueError p n err s) := by
  unfold queueError
  (repeat' split) <;> simp

@[simp] theorem report_steady (src : Nat) (ue : Bool) (s : State) : Steady s (report src ue s) := by simp [report]

/-! ### Admission and ring reads -/

@[simp] theorem takeScratch_steady (id : Nat) (s : State) : Steady s (takeScratch id s) := by
  unfold takeScratch
  (repeat' split) <;> simp

@[simp] theorem askPages_steady (p : PortId) (i : SliceIdx) (pages : List Nat) (s : State) : Steady s (askPages p i pages s) := by
  simp [askPages]

@[simp] theorem touchPages_steady (p : PortId) (i : SliceIdx) (pages : List Nat) (s : State) : Steady s (touchPages p i pages s) := by
  simp [touchPages]

@[simp] theorem pumpAdmin_steady (s : State) : Steady s (pumpAdmin s) := by simp [pumpAdmin]

@[simp] theorem outputFault_steady (e : Engine) (s : State) : Steady s (outputFault e s) := by
  unfold outputFault
  split <;> simp

@[simp] theorem writtenBytes_steady (overlaps : Bool) (bs : Bytes) (s : State) : Steady s (writtenBytes overlaps bs s).2 := by
  unfold writtenBytes
  split <;> simp

@[simp] theorem writeItem_steady (i : Item) (d : Done) (w : WriteBack) (s : State) : Steady s (writeItem i d w s) := by
  unfold writeItem
  (repeat' split) <;> simp [writeOutput, outputBytes]

@[simp] theorem writeCompletion_steady (id : Nat) (outcome : WriteBack) (s : State) : Steady s (writeCompletion id outcome s) := by
  unfold writeCompletion
  (repeat' split) <;> simp [writeAdmin]

/-! ### The heddle -/

@[simp] theorem routineFault_steady (i : Item) (s : State) : Steady s (routineFault i s) := by
  unfold routineFault
  split <;> simp

@[simp] theorem finishKey_steady (id : Nat) (r : KeyRun) (s : State) : Steady s (finishKey id r s) := by
  unfold finishKey
  (repeat' split) <;> simp

@[simp] theorem retireKey_steady (id : Nat) (r : KeyRun) (s : State) : Steady s (retireKey id r s) := by
  unfold retireKey
  (repeat' split) <;> simp

/-! ### Commits -/

@[simp] theorem countLoomMismatch_steady (n : LoomId) (lane : Option (Fin 8)) (s : State) : Steady s (countLoomMismatch n lane s) := by
  simp [countLoomMismatch]

@[simp] theorem loomMismatch_steady (n : LoomId) (lane : Option (Fin 8)) (s : State) : Steady s (loomMismatch n lane s) := by
  simp [loomMismatch]

@[simp] theorem selvMismatch_steady (u : SelvId) (s : State) : Steady s (selvMismatch u s) := by simp [selvMismatch]
@[simp] theorem fenceTrestle_steady (t : TrestleId) (s : State) : Steady s (fenceTrestle t s) := by simp [fenceTrestle]
@[simp] theorem reportTrestle_steady (t : TrestleId) (s : State) : Steady s (reportTrestle t s) := by simp [reportTrestle]

@[simp] theorem countTrestleMismatch_steady (t : TrestleId) (s : State) : Steady s (countTrestleMismatch t s) := by
  simp [countTrestleMismatch]

@[simp] theorem trestleMismatch_steady (t : TrestleId) (i : Item) (s : State) : Steady s (trestleMismatch t i s) := by
  simp [trestleMismatch]

@[simp] theorem bothMismatch_steady (n : LoomId) (lane : Option (Fin 8)) (t : TrestleId) (i : Item) (s : State) : Steady s (bothMismatch n lane t i s) := by
  simp [bothMismatch]

@[simp] theorem commitRun_steady (i : Item) (kind family set : Nat) (policy : Word) (content : Bytes) (keyId : Nat) (building : Bool) (s : State) : Steady s (commitRun i kind family set policy content keyId building s) := by
  unfold commitRun
  split <;> simp

@[simp] theorem commitAct_steady (i : Item) (a : CommitAct) (s : State) : Steady s (commitAct i a s) := by
  unfold commitAct
  (repeat' split) <;> simp [installLoom, touchLoom, installSelv, touchSelv]

@[simp] theorem countLookup_steady (i : Item) (hit : Option Bool) (s : State) : Steady s (countLookup i hit s) := by
  unfold countLookup
  split <;> simp

@[simp] theorem addAverage_steady (i : Item) (cycles : Nat) (s : State) : Steady s (addAverage i cycles s) := by
  unfold addAverage
  (repeat' split) <;> simp

@[simp] theorem passBuffer_steady (i : Item) (s : State) : Steady s (passBuffer i s) := by
  unfold passBuffer
  split <;> simp

@[simp] theorem commitItem_steady (e : Engine) (cycles : Nat) (i : Item) (r : ItemResult) (s : State) : Steady s (commitItem e cycles i r s) := by
  unfold commitItem
  split <;> simp

@[simp] theorem routineEnds_steady (e : Engine) (s : State) : Steady s (routineEnds e s) := by
  unfold routineEnds
  split <;> simp

@[simp] theorem commitLoom_steady (n : LoomId) (cycles : Nat) (i : Item) (r : ItemResult) (s : State) : Steady s (commitLoom n cycles i r s) := by
  unfold commitLoom
  (repeat' split) <;> simp

@[simp] theorem commitOther_steady (e : Engine) (cycles : Nat) (i : Item) (r : ItemResult) (s : State) : Steady s (commitOther e cycles i r s) := by
  unfold commitOther
  split
  · split <;> simp
  · simp
  · simp
  · simp

@[simp] theorem commitRoutine_steady (n : LoomId) (cycles : Nat) (i : Item) (s : State) : Steady s (commitRoutine n cycles i s) := by
  unfold commitRoutine
  (repeat' split) <;> simp

@[simp] theorem commitOn_steady (e : Engine) (cycles : Nat) (s : State) : Steady s (commitOn e cycles s) := by
  unfold commitOn
  (repeat' split) <;> simp

/-! ### Start-up -/

@[simp] theorem tornBurn_steady (s : State) : Steady s (tornBurn s).2 := by
  unfold tornBurn
  split <;> simp

@[simp] theorem quorumFails_steady (s : State) : Steady s (quorumFails s) := by simp [quorumFails]

/-! ### Cards and ceremonies -/

@[simp] theorem powerSlots_steady (s : State) : Steady s (powerSlots s) := cards_steady (powerSlots_keepsCards s)

@[simp] theorem sendTo_steady (c : CardSlot) (op : BitVec 5) (arg : Nat) (s : State) : Steady s (sendTo c op arg s) :=
  cards_steady (sendTo_keepsCards _ _ _ s)

@[simp] theorem attachCard_steady (c : CardSlot) (s : State) : Steady s (attachCard c s) := cards_steady (attachCard_keepsCards _ s)

@[simp] theorem readRun_steady (c : CardSlot) (first n : Nat) (s : State) : Steady s (readRun c first n s) :=
  cards_steady (readRun_keepsCards _ _ _ s)

@[simp] theorem reachCard_steady (c : CardSlot) (s : State) : Steady s (reachCard c s) := by simp [reachCard, sendSwitch]
@[simp] theorem leaveCard_steady (c : CardSlot) (s : State) : Steady s (leaveCard c s) := cards_steady (leaveCard_keepsCards _ s)

@[simp] theorem readQuorum_steady (s : State) : Steady s (readQuorum s) := by simp [readQuorum]
/-! ### The bobbin -/

@[simp] theorem failWaiting_steady (s : State) : Steady s (failWaiting s) := by
  unfold failWaiting
  split
  · exact .refl s
  · extract_lets s₁ s₂ s₃ life
    have h₁ : Steady s s₁ := by simp [s₁]
    have h₂ : Steady s₁ s₂ := by
      refine foldl_steady _ _ fun s p => ?_
      split
      · split <;> simp
      · exact .refl s
    have h₃ : Steady s₂ s₃ := by simp [s₃]
    exact (h₁.trans h₂).trans (h₃.trans (by simp [life]))

@[simp] theorem bobbinFails_steady (s : State) : Steady s (bobbinFails s) := by simp [bobbinFails]

/-! ### Life cycle, stages -/

@[simp] theorem beginTransition_steady (target : Nat) (byToken : Option (PortId × BitVec 16)) (s : State) : Steady s (beginTransition target byToken s) := by
  unfold beginTransition
  split <;> simp

/-! ### Staged fields -/

@[simp] theorem applyField_steady (p : PortId) (s : State) (e : StagedField × Nat) : Steady s (applyField p s e) := by
  unfold applyField
  split <;> simp

@[simp] theorem applyStage_steady (t : Nat) (s : State) (p : PortId) : Steady s (applyStage t s p) := by simp [applyStage]
@[simp] theorem applyDevice_steady (t : Nat) (s : State) : Steady s (applyDevice t s) := by simp [applyDevice, scaleWeights]

/-! ### Slices and queues -/

@[simp] theorem refuseQueue_steady (p : PortId) (code : Nat) (s : State) : Steady s (refuseQueue p code s) := by simp [refuseQueue]
@[simp] theorem removeQueue_steady (p : PortId) (n : Nat) (s : State) : Steady s (removeQueue p n s) := by simp [removeQueue]

@[simp] theorem installQueue_steady (p : PortId) (n : Nat) (s : State) : Steady s (installQueue p n s) := by
  unfold installQueue
  (repeat' split) <;> simp

@[simp] theorem installPort_steady (s : State) (p : PortId) : Steady s (installPort s p) := by
  unfold installPort
  (repeat' split) <;> simp [installSlice, thawSlice]

/-! ### Owner commands -/

@[simp] theorem acceptEnvelope_steady (p : PortId) (origin : OwnerOrigin) (e : Envelope) (op : OwnerOperand) (s : State) : Steady s (acceptEnvelope p origin e op s) := by
  simp [acceptEnvelope]

@[simp] theorem takeEnvelope_steady (p : PortId) (origin : OwnerOrigin) (e : Envelope) (refuse : Status → State → State) (s : State)
    (h : ∀ st t, Steady t (refuse st t)) : Steady s (takeEnvelope p origin e refuse s) := by
  unfold takeEnvelope
  split
  · exact h _ _
  · split
    · exact h _ _
    · split
      · simp
      · exact h _ _

@[simp] theorem entryEnvelope_steady (p : PortId) (id : Nat) (env : Envelope) (s : State) : Steady s (entryEnvelope p id env s) := by
  unfold entryEnvelope
  split <;> simp

@[simp] theorem signedAdmin_steady (p : PortId) (seq : BitVec 16) (env : Envelope) (s : State) : Steady s (signedAdmin p seq env s) := by
  simp [signedAdmin]

@[simp] theorem takeWork_steady (p : PortId) (seq : BitVec 16) (w : StewardWork) (s : State) : Steady s (takeWork p seq w s) := by
  unfold takeWork
  split <;> simp [debugResponse, enterTestRoot]

@[simp] theorem takeWaiting_steady (s : State) : Steady s (takeWaiting s) := by
  unfold takeWaiting
  split <;> simp

@[simp] theorem releaseHold_steady (s : State) : Steady s (releaseHold s) := by
  unfold releaseHold
  split <;> simp

/-! ### Routines -/

@[simp] theorem reserveDeposit_steady (i : Item) (drawers : Nat) (s : State) : Steady s (reserveDeposit i drawers s) := by
  unfold reserveDeposit
  (repeat' split) <;> simp

@[simp] theorem routineCycle_steady (n : LoomId) (i : Item) (s : State) : Steady s (routineCycle n i s) := by
  unfold routineCycle
  extract_lets c s₁ s₂
  have h₂ : Steady s s₂ := by
    unfold s₂
    split <;> simp [s₁]
  split
  · exact h₂.trans (routineEnds_steady _ s₂)
  · exact h₂

@[simp] theorem loomCycles_steady (k : Nat) (n : LoomId) (s : State) : Steady s (loomCycles k n s) := by
  induction k generalizing s with
  | zero => exact .refl s
  | succ k ih =>
    unfold loomCycles
    split
    · exact .refl s
    · exact (routineCycle_steady n _ s).trans (ih _)

@[simp] theorem runRoutines_steady (t0 t1 : Nat) (s : State) : Steady s (runRoutines t0 t1 s) :=
  foldl_steady _ _ fun s n => loomCycles_steady _ n s

/-! ### The host function -/

@[simp] theorem resetFunction_steady (p : PortId) (keep : Port → Port) (s : State) : Steady s (resetFunction p keep s) := by
  simp [resetFunction]

/-! ### Mismatches and faults -/

@[simp] theorem duplicateMismatch_steady (e : Engine) (s : State) : Steady s (duplicateMismatch e s) := by
  unfold duplicateMismatch
  split <;> simp

@[simp] theorem verifyMismatch_steady (n : LoomId) (found : VerifyFinding) (s : State) : Steady s (verifyMismatch n found s) := by
  unfold verifyMismatch
  (repeat' split) <;> simp

@[simp] theorem benchFault_steady (b : BenchId) (s : State) : Steady s (benchFault b s) := by simp [benchFault]

@[simp] theorem loomFault_steady (n : LoomId) (cacheOnly : Bool) (s : State) : Steady s (loomFault n cacheOnly s) := by
  simp [loomFault]

@[simp] theorem trestleFault_steady (t : TrestleId) (hit : Item → Bool) (s : State) : Steady s (trestleFault t hit s) := by
  simp [trestleFault]

@[simp] theorem selvFault_steady (u : SelvId) (keyStore : Bool) (s : State) : Steady s (selvFault u keyStore s) := by
  simp [selvFault]

@[simp] theorem shuttleFault_steady (p : PortId) (s : State) : Steady s (shuttleFault p s) := by
  unfold shuttleFault
  dsimp only
  split
  · simp
  · split <;> simp

@[simp] theorem entryFault_steady (id : Nat) (copyReadable : Bool) (s : State) : Steady s (entryFault id copyReadable s) := by
  unfold entryFault
  split <;> simp [loseItem]

@[simp] theorem cabinetHold_steady (s : State) : Steady s (cabinetHold s) := by simp [cabinetHold]

@[simp] theorem drawerFault_steady (p : PortId) (slice : SliceIdx) (index : Nat) (s : State) : Steady s (drawerFault p slice index s) := by
  unfold drawerFault
  dsimp only
  split
  · simp
  · split <;> simp

@[simp] theorem chestFault_steady (s : State) : Steady s (chestFault s) := by simp [chestFault]
@[simp] theorem slotFault_steady (d : DigestSlot) (s : State) : Steady s (slotFault d s) := by simp [slotFault]

@[simp] theorem instanceFault_steady (i : InstId) (drawing : Option Nat) (s : State) : Steady s (instanceFault i drawing s) := by
  unfold instanceFault
  extract_lets s₁ s₂ s₃
  have h₃ : Steady s s₃ := by
    unfold s₃
    split <;> simp [s₂, s₁]
  split
  · split <;> simp [h₃]
  · exact h₃

@[simp] theorem conditionerFault_steady (s : State) : Steady s (conditionerFault s) := by simp [conditionerFault]

@[simp] theorem fabricFault_steady (load : FabricLoad) (s : State) : Steady s (fabricFault load s) := by
  unfold fabricFault
  extract_lets s₁
  have h₁ : Steady s s₁ := by simp [s₁]
  split
  · split
    · split <;> simp [h₁]
    · exact h₁
  · split <;> simp [h₁]
  · exact h₁

@[simp] theorem flashFault_steady (s : State) : Steady s (flashFault s) := by simp [flashFault]

/-! ### Ageing, power, tamper repeats -/

@[simp] theorem replanBench_steady (b : BenchId) (c : BenchCal) (s : State) : Steady s (replanBench b c s) := by
  simp [replanBench, clockStep]

@[simp] theorem ageingDone_steady (b : BenchId) (slack tj : Int) (s : State) : Steady s (ageingDone b slack tj s) := by
  unfold ageingDone
  dsimp only
  (repeat' split) <;> simp

@[simp] theorem settleIfOn_steady (s : State) : Steady s (settleIfOn s) := by simp [settleIfOn]

/-! ### The beat -/

@[simp] theorem settleBudgets_steady (s : State) : Steady s (settleBudgets s) := by simp [settleBudgets]

@[simp] theorem returnUnits_steady (s : State) : Steady s (returnUnits s) := by
  unfold returnUnits
  split <;> simp [planRise]

@[simp] theorem readvertise_steady (s : State) : Steady s (readvertise s) := by simp [readvertise]


end Sys2Proof.Machine
end

section
/-! PROOFS. Alarms and what meets them (R5, R57, R464 to R484): what a firing marks, what its class leaves alone, and that no meeting
of triggers and no beat touches the queue of commands. -/

namespace Sys2Proof.Machine

open Sys2Proof.Claims

/-! ### The classes -/

@[simp] theorem cutTransition_steady (st : Status) (s : State) : Steady s (cutTransition st s) := by
  unfold cutTransition
  split
  · exact .refl s
  · extract_lets f k bits burned s₁ fuses life s₂
    have h₂ : Steady s s₂ := .refl s
    split
    · exact h₂.trans (by simp)
    · split
      · split
        · exact h₂.trans (by simp)
        · exact h₂
      · exact h₂

@[simp] theorem zeroizeResponse_steady (s : State) : Steady s (zeroizeResponse s) := by simp [zeroizeResponse]

@[simp] theorem applyClass_steady (cls : Nat) (fs : List (SourceId × FenceScope)) (s : State) : Steady s (applyClass cls fs s) := by
  unfold applyClass
  split <;> simp

@[simp] theorem wardenTakeover_steady (trigger : Nat) (s : State) : Steady s (wardenTakeover trigger s) := by
  unfold wardenTakeover
  split
  · exact .refl s
  · extract_lets power mode faults s₁ s₂
    have h₂ : Steady s s₂ := by simp [s₂, s₁, mode, power]
    refine h₂.trans ?_
    (repeat' split) <;> simp

@[simp] theorem uncorrectable_steady (r : UeReport) (s : State) : Steady s (uncorrectable r s) := by
  cases r <;> simp [uncorrectable]

@[simp] theorem errorAct_steady (ms : List Trigger) (r : UeReport) (s : State) : Steady s (errorAct ms r s) := by
  unfold errorAct
  split <;> simp

/-! ### Firings -/

/-- The bits of a list, set one after the other, are set in the end. -/
theorem getLsbD_foldl_setBit {α : Type} {w : Nat} (g : α → Nat) {a : α} (ha : g a < w) {l : List α} (m : BitVec w)
    (h : a ∈ l ∨ m.getLsbD (g a) = true) : (l.foldl (fun m a => setBit m (g a) true) m).getLsbD (g a) = true := by
  induction l generalizing m with
  | nil => simpa using h
  | cons b l ih =>
    apply ih
    rcases h with h | h
    · rcases List.mem_cons.mp h with rfl | h
      · exact .inr (getLsbD_setBit_self m ha)
      · exact .inl h
    · exact .inr (getLsbD_setBit_of_set h)

/-- The flags after a list of firings. -/
def flagsOf (fs : List Firing) (m : BitVec 24) : BitVec 24 := fs.foldl (fun m f => setBit m f.source.val true) m

/-- Firings mark their flags and log their events, and change nothing else that stands. -/
theorem foldl_markFiring (mark : Firing → State → State)
    (hmark : ∀ f s, Fixed s (mark f s) ∧ (mark f s).tamper = s.tamper ∧ (mark f s).backup.sticky = setBit s.backup.sticky f.source.val true)
    (fs : List Firing) (s : State) :
    Fixed s (fs.foldl (fun s f => mark f s) s) ∧ (fs.foldl (fun s f => mark f s) s).tamper = s.tamper ∧
      (fs.foldl (fun s f => mark f s) s).backup.sticky = flagsOf fs s.backup.sticky := by
  induction fs generalizing s with
  | nil => exact ⟨.refl s, rfl, rfl⟩
  | cons f fs ih =>
    obtain ⟨hfixed, htamper, hsticky⟩ := hmark f s
    obtain ⟨ihfixed, ihtamper, ihsticky⟩ := ih (mark f s)
    exact ⟨hfixed.trans ihfixed, ihtamper.trans htamper, ihsticky.trans (by rw [hsticky]; rfl)⟩

theorem markFiring_marks (src : SourceId) (machine code cls : Nat) (s : State) :
    Fixed s (markFiring src machine code cls s) ∧ (markFiring src machine code cls s).tamper = s.tamper ∧
      (markFiring src machine code cls s).backup.sticky = setBit s.backup.sticky src.val true := by
  simp [markFiring]

/-- The firings of one evaluation set the flags of the sources that are not disabled, and no class clears one. -/
theorem fireAll_fires (cls : SourceId → Nat) (code : Nat) (fs : List Firing) (s : State) :
    Fixed s (fireAll cls code fs s) ∧ (fireAll cls code fs s).tamper.active = s.tamper.active ∧
      (fireAll cls code fs s).tamper.pairs = s.tamper.pairs ∧
      (fireAll cls code fs s).backup.sticky = flagsOf (fs.filter fun f => !s.fuses.fused.getLsbD f.source.val) s.backup.sticky := by
  unfold fireAll
  extract_lets live s' top
  obtain ⟨hfixed, htamper, hsticky⟩ := foldl_markFiring (fun f => markFiring f.source f.machine.val code (cls f.source))
    (fun f => markFiring_marks _ _ _ _) live s
  obtain ⟨hclass, hactive, hpairs, hflags⟩ :=
    applyClass_steady top ((live.filter fun f => cls f.source == top).map fun f => (f.source, f.scope)) s'
  exact ⟨hfixed.trans hclass, hactive.trans (congrArg _ htamper), hpairs.trans (congrArg _ htamper), hflags.trans hsticky⟩

@[simp] theorem fireAll_fixed (cls : SourceId → Nat) (code : Nat) (fs : List Firing) (s : State) : Fixed s (fireAll cls code fs s) :=
  (fireAll_fires cls code fs s).1

theorem fireAll_flag {cls : SourceId → Nat} {code : Nat} {fs : List Firing} {s : State} {f : Firing} (hf : f ∈ fs)
    (hlive : s.fuses.fused.getLsbD f.source.val = false) : (fireAll cls code fs s).backup.sticky.getLsbD f.source.val = true := by
  obtain ⟨-, -, -, hsticky⟩ := fireAll_fires cls code fs s
  rw [hsticky]
  exact getLsbD_foldl_setBit (fun f : Firing => f.source.val) f.source.isLt _ (.inl (List.mem_filter.mpr ⟨hf, by rw [hlive]; rfl⟩))

@[simp] theorem fireRaised_fixed (before s : State) : Fixed s (fireRaised before s) := by
  unfold fireRaised
  dsimp only
  split
  · exact .refl s
  · exact fireAll_fixed _ _ _ s

@[simp] theorem evaluate_fixed (fs : List Firing) (s : State) : Fixed s (evaluate fs s) := by
  unfold evaluate
  extract_lets live held now tamper s₁
  split
  · exact .refl s
  · split
    · exact .refl s
    · exact fireAll_fixed _ _ _ s₁

/-- In native mode a source that qualifies, not disabled, not active and not in its stimulus window, becomes active and fires. -/
theorem evaluate_fires {f : Firing} {s : State} (hfused : s.fuses.fused.getLsbD f.source.val = false)
    (hquiet : s.tamper.active.getLsbD f.source.val = false) (hstim : s.tamper.stimulus ≠ some f.source) (hnative : compatOn s = false) :
    (evaluate [f] s).tamper.active.getLsbD f.source.val = true ∧ (evaluate [f] s).backup.sticky.getLsbD f.source.val = true := by
  have hlive : [f].filter (fun f => !s.fuses.fused.getLsbD f.source.val && !s.tamper.active.getLsbD f.source.val) = [f] :=
    List.filter_cons_of_pos (by rw [hfused, hquiet]; rfl)
  have hnow : [f].filter (fun f => !(s.tamper.stimulus == some f.source)) = [f] := by simp [hstim]
  unfold evaluate
  simp only [hlive, hnow]
  rw [if_neg (by simp), if_neg]
  · refine ⟨?_, fireAll_flag (List.mem_singleton_self f) hfused⟩
    obtain ⟨-, hactive, -⟩ := fireAll_fires (classOf _) 0 [f] _
    rw [hactive]
    exact getLsbD_setBit_self _ f.source.isLt
  · exact ne_true_of_eq_false hnative

/-! ### Decision pairs and stimulus windows -/

@[simp] theorem endPair_pending (pair : Nat) (qualifying : List SourceId) (s : State) : (endPair pair qualifying s).pending = s.pending := by
  unfold endPair
  (repeat' split) <;> simp [secondDecision]

@[simp] theorem endWindow_pending (src : SourceId) (responded stillActive : Bool) (s : State) :
    (endWindow src responded stillActive s).pending = s.pending := by
  simp [endWindow, stimulusFails]

@[simp] theorem windowEnds_pending (src : SourceId) (responded stillActive : Bool) (s : State) :
    (windowEnds src responded stillActive s).pending = s.pending := by
  simp [windowEnds]

/-! ### Contracts -/

@[simp] theorem replaceContract_pending (p : PortId) (c : Contract) (s : State) : (replaceContract p c s).pending = s.pending := by
  simp [replaceContract]

@[simp] theorem portDetach_pending (p : PortId) (linkOnly bulkLow : Bool) (s : State) : (portDetach p linkOnly bulkLow s).pending = s.pending := by
  simp [portDetach]

@[simp] theorem contractDrop_pending (p : PortId) (volts current : Nat) (bulkLow : Bool) (s : State) :
    (contractDrop p volts current bulkLow s).pending = s.pending := by
  simp [contractDrop]

/-! ### Power that fails among other triggers -/

@[simp] theorem powerDown_pending (s : State) : (powerDown s).pending = s.pending := by simp [powerDown, loseBackup]

@[simp] theorem alarmAtFall_pending (before : State) (x : Firing × Nat) (s : State) : (alarmAtFall before x s).pending = s.pending := by
  simp [alarmAtFall]

theorem foldl_pending {α : Type} {f : State → α → State} (h : ∀ s a, (f s a).pending = s.pending) (l : List α) (s : State) :
    (l.foldl f s).pending = s.pending := by
  induction l generalizing s with
  | nil => rfl
  | cons a l ih => exact (ih _).trans (h s a)

@[simp] theorem fallMeeting_pending (ms : List Trigger) (s : State) : (fallMeeting ms s).pending = s.pending := by
  have halarms (l : List (Firing × Nat)) (t : State) : (l.foldl (fun t x => alarmAtFall s x t) t).pending = t.pending :=
    foldl_pending (fun t x => alarmAtFall_pending s x t) l t
  simp [fallMeeting, halarms]

/-! ### Triggers that meet -/

@[simp] theorem senseAll_pending (fs : List Firing) (s : State) : (senseAll fs s).pending = s.pending := by simp [senseAll]

@[simp] theorem triggerAct_pending (ms : List Trigger) (m : Trigger) (s : State) : (triggerAct ms m s).pending = s.pending := by
  cases m <;> simp [triggerAct, lockstepAct, heartbeatAct]

@[simp] theorem resolveTriggers_pending (ms : List Trigger) (s : State) : (resolveTriggers ms s).pending = s.pending := by
  refine foldl_pending (fun s l => ?_) _ s
  refine (foldl_pending (fun s m => triggerAct_pending ms m s) l _).trans ?_
  dsimp only
  split
  · rfl
  · exact senseAll_pending _ s

/-! ### The beat -/

@[simp] theorem beatAt_fixed (t : Nat) (s : State) : Fixed s (beatAt t s) := by simp [beatAt]

@[simp] theorem reachBeat_pending (t : Nat) (meets : List Trigger) (s : State) : (reachBeat t meets s).pending = s.pending := by
  simp [reachBeat]

@[simp] theorem passTo_pending (t : Nat) (s : State) : (passTo t s).pending = s.pending := by simp [passTo, advanceTo]

@[simp] theorem nextBeat_pending (meets : List Trigger) (s : State) : (nextBeat meets s).pending = s.pending := by simp [nextBeat]

@[simp] theorem meetAll_pending (ms : List Trigger) (s : State) : (meetAll ms s).pending = s.pending := by simp [meetAll]

end Sys2Proof.Machine
end

section
/-! PROOFS. The beat (R106, R107): its clock, and what a quiet Idle keeps (R33, R52). -/

namespace Sys2Proof.Machine

open Sys2Proof.Claims

/-! ### The boundary -/

theorem advanceTo_clock {t : Nat} {s : State} (hd : s.mode.base ≠ .dormant) (ht : s.clock ≤ t) : (advanceTo t s).clock = t := by
  simp [advanceTo, hd, ht]

theorem le_nextBoundary (s : State) : s.clock ≤ nextBoundary s := by
  unfold nextBoundary
  omega

theorem resolveTriggers_nil (s : State) : resolveTriggers [] s = s := rfl

theorem execBeat_next {s : State} (hd : s.mode.base ≠ .dormant) : exec .beat s = .next (nextBeat [] s) := by
  simp [exec, execBeat, hd]

theorem execTamperFire_next {x : FireEvent} {s : State} (hd : s.mode.base ≠ .dormant) :
    exec (.tamperFire x) s = .next (meetAll (x.firings.map .tamper ++ x.meets) s) := by
  simp [exec, execTamperFire, hd]

/-- Where nothing meets the boundary the clock stands at it, and no source is disabled. -/
theorem nextBeat_clock {s : State} (hd : s.mode.base ≠ .dormant) :
    (nextBeat [] s).clock = nextBoundary s ∧ (nextBeat [] s).fuses.fused = s.fuses.fused := by
  have hpass : (passTo (nextBoundary s) s).clock = nextBoundary s := by
    simp [passTo, advanceTo_clock hd (le_nextBoundary s)]
  constructor
  · simp [nextBeat, reachBeat, resolveTriggers_nil, hpass]
  · simp [nextBeat, reachBeat, resolveTriggers_nil]

/-! ### A quiet Idle -/

/-- Idle with the steward lost, and nothing in hand that a beat would take up. -/
structure Quiet (s : State) : Prop where
  idle : s.mode.base = .idle
  lost : s.mode.stewardLost = true
  rise : s.power.rise = none
  benches : s.power.benchReturn = 0
  device : s.device.armed = false
  ports : ∀ p : PortId, s.ports[p.val].creditHeld = false ∧ s.ports[p.val].stage.armed = false ∧ s.ports[p.val].admin.entry = none ∧
    s.ports[p.val].admin.scanning = false ∧ s.ports[p.val].drains = []
  items : s.heddle.items = []
  queues : s.queues = []
  owner : s.owner = none
  envelopes : s.envelopes = []
  sensed : s.tamper.sensed = []

theorem foldl_stays {α : Type} {f : State → α → State} {s : State} (h : ∀ a, f s a = s) (l : List α) : l.foldl f s = s := by
  induction l with
  | nil => rfl
  | cons a l ih => rw [List.foldl_cons, h, ih]

namespace Quiet

variable {s : State} (h : Quiet s)
include h

theorem advanceTo (t : Nat) : Quiet (advanceTo t s) := by
  have hd : s.mode.base ≠ .dormant := by simp [h.idle]
  unfold Machine.advanceTo
  rw [if_neg hd]
  exact ⟨h.idle, h.lost, h.rise, h.benches, h.device, h.ports, h.items, h.queues, h.owner, h.envelopes, h.sensed⟩

theorem settleBudgets : Quiet (settleBudgets s) :=
  ⟨h.idle, h.lost, h.rise, h.benches, h.device, h.ports, h.items, h.queues, h.owner, h.envelopes, h.sensed⟩

/-! No function of the beat but the budgets' finds anything to do. -/

theorem modItems_eq (sel : Item → Bool) (f : Item → Item) : modItems sel f s = s := by
  unfold modItems
  rw [h.items, List.map_nil, ← h.items]

theorem runRoutines_eq (t₀ t₁ : Nat) : runRoutines t₀ t₁ s = s := by
  have hnone (n : LoomId) : routineItem s n = none := by
    simp [routineItem, servingOn, h.items]
  refine foldl_stays (fun n => ?_) _
  dsimp only
  generalize benchCycles _ t₁ - benchCycles _ t₀ = k
  cases k with
  | zero => rfl
  | succ k => rw [loomCycles, hnone]

theorem passTo_eq (t : Nat) : passTo t s = Machine.advanceTo t s := (h.advanceTo t).runRoutines_eq _ _

theorem retryParked_eq : retryParked s = s := by simp [retryParked, h.items, idsInOrder]

theorem settleCredit_eq : settleCredit s = s := by
  refine foldl_stays (fun p => ?_) _
  obtain ⟨hcredit, -⟩ := h.ports p
  have hshort : creditShort s p = false := by simp [creditShort, heldItems, h.items, listDepth]
  simp [hcredit, hshort]

theorem pumpScans_eq : pumpScans s = s := by
  unfold pumpScans
  rw [h.queues, List.foldl_nil]

theorem settleDrains_eq : settleDrains s = s := by
  refine foldl_stays (fun p => ?_) _
  obtain ⟨-, -, -, -, hdrains⟩ := h.ports p
  simp [hdrains]

theorem settleAfterLeave_eq : settleAfterLeave s = s := by
  unfold settleAfterLeave settleHeddle
  rw [h.retryParked_eq, h.settleCredit_eq, h.pumpScans_eq, markOldest, h.modItems_eq, h.settleDrains_eq]

theorem installPort_eq (p : PortId) : installPort s p = s := by
  obtain ⟨-, -, hentry, -⟩ := h.ports p
  rw [installPort, hentry]

theorem applyStage_eq (t : Nat) (p : PortId) : applyStage t s p = s := by
  obtain ⟨-, harmed, -⟩ := h.ports p
  simp [applyStage, harmed]

theorem returnBenches_eq : returnBenches s = s := by
  simp [returnBenches, h.benches, maskOf]
  rw [show 0#16 = s.power.benchReturn from h.benches.symm]

theorem returnUnits_eq : returnUnits s = s := by
  rw [returnUnits, h.rise, h.returnBenches_eq]

theorem readvertise_eq : readvertise s = s := by
  simp [readvertise, h.items, h.modItems_eq]

theorem pumpAdmin_eq : pumpAdmin s = s := by
  refine foldl_stays (fun p => ?_) _
  obtain ⟨-, -, -, hscan, -⟩ := h.ports p
  simp [hscan]

theorem fireRaised_eq (before : State) : fireRaised before s = s := by simp [fireRaised, h.sensed]

theorem applyDevice_eq (t : Nat) : applyDevice t s = s := by simp [applyDevice, h.device]

theorem leaveIdle_eq : leaveIdle s = s := by simp [leaveIdle, h.lost]

theorem releaseHold_eq : releaseHold s = s := by rw [releaseHold, h.owner]

theorem beatAt_eq (t : Nat) : beatAt t s = Machine.settleBudgets s := by
  have hu := h.settleBudgets
  unfold beatAt
  dsimp only
  rw [foldl_stays h.installPort_eq, hu.applyDevice_eq, hu.fireRaised_eq, hu.returnUnits_eq, foldl_stays (hu.applyStage_eq t),
    hu.leaveIdle_eq, hu.releaseHold_eq, hu.readvertise_eq, hu.settleAfterLeave_eq, hu.pumpAdmin_eq]

/-- A beat of a quiet Idle passes the time and settles the trestle budgets. -/
theorem nextBeat_eq : nextBeat [] s = Machine.settleBudgets (Machine.advanceTo (nextBoundary s) s) := by
  have ht := h.advanceTo (nextBoundary s)
  have hd : (Machine.advanceTo (nextBoundary s) s).mode.base ≠ .dormant := by simp [ht.idle]
  unfold nextBeat reachBeat takeWaiting
  rw [h.passTo_eq, resolveTriggers_nil, ht.settleAfterLeave_eq]
  simp [hd, ht.beatAt_eq, ht.settleBudgets.envelopes]

end Quiet

/-- Settles O20: the rules of what stands give the queue and the clock; a quiet Idle has only its budgets settled. -/
theorem beatCompletes : Obligations.beat_completes := by
  intro s fs ms hd hms
  refine ⟨⟨_, execTamperFire_next hd, meetAll_pending _ s⟩, nextBeat [] s, execBeat_next hd, nextBeat_pending [] s, (nextBeat_clock hd).1,
    (nextBeat_clock hd).2, ?_⟩
  intro hidle hlost hrise hbenches hdevice hports hitems hasking hqueues howner henvelopes hsensed
  have hquiet : Quiet s := ⟨hidle, hlost, hrise, hbenches, hdevice, hports, hitems, hqueues, howner, henvelopes, hsensed⟩
  rw [hquiet.nextBeat_eq]
  simp [settleBudgets, advanceTo, hd]

end Sys2Proof.Machine
end

section
/-! PROOFS. STRAP_SAMPLE (R21): the chest is read first (R392), then the straps are held and the life-cycle counter read (R525). -/

namespace Sys2Proof.Machine

open Sys2Proof.Claims

theorem raise_butEvents (ev : Nat) (d : BitVec 64) (s : State) : ButEvents s (raise ev d s) := by
  obtain ⟨_, _, _, _, h⟩ := raise_touches ev d s
  rw [h]
  rfl

/-- The first reading of the chest in a Wake sets its valid bit and what the mode unit knows of it, and logs an empty chest. -/
theorem readChest_butEvents {s : State} (h : s.mode.chestRead = false) :
    ButEvents { s with
      backup := { s.backup with chest := { s.backup.chest with valid := chestPasses s.fuses.serial s.backup.chest } }
      mode := { s.mode with
        chestRead := true, chestPassed := chestPasses s.fuses.serial s.backup.chest
        chestEmpty := !chestPasses s.fuses.serial s.backup.chest } } (readChest s) := by
  unfold readChest
  rw [if_neg (by simp [h])]
  dsimp only
  split
  · rfl
  · exact raise_butEvents _ _ _

theorem chest_mode_of_butEvents {s t : State} (h : ButEvents s t) : t.backup.chest = s.backup.chest ∧ t.mode = s.mode := by
  rw [h]
  exact ⟨rfl, rfl⟩

/-- The reading of the chest reaches no other unit. -/
@[simp] theorem readChest_units (s : State) :
    (readChest s).fuses = s.fuses ∧ (readChest s).life = s.life ∧ (readChest s).mode.cause = s.mode.cause := by
  unfold readChest
  (repeat' split) <;> simp

theorem execStrapSample_next {s : State} {pins : Straps} (hnone : s.mode.straps = none) (hwake : s.mode.base = .wake) :
    exec (.strapSample pins) s =
      .next (readLifeCycle { readChest s with mode := { (readChest s).mode with straps := some pins } }) := by
  simp [exec, execStrapSample, hnone, hwake]

/-- A valid counter: the registers show its repaired bits, and CAUSE the Scrapped state. -/
theorem readLifeCycle_valid {s : State} (h : (readCounter s.fuses.otp).2.2 = false) :
    readLifeCycle s = { s with
      fuses := { s.fuses with otp := (readCounter s.fuses.otp).1 }
      life := { s.life with
        otpRead := (readCounter s.fuses.otp).1, repaired := (readCounter s.fuses.otp).2.1, invalid := false
        state := stateCount (readCounter s.fuses.otp).1 }
      mode := { s.mode with cause := if stateCount (readCounter s.fuses.otp).1 = 5 then 13 else s.mode.cause } } := by
  unfold readLifeCycle
  dsimp only
  rw [if_neg (by simp [h]), h]
  split <;> rfl

/-- An invalid counter sets INVALID; source 19, which fires then, leaves it and the straps. -/
theorem readLifeCycle_invalid {s : State} (h : (readCounter s.fuses.otp).2.2 = true) :
    (readLifeCycle s).life.invalid = true ∧ (readLifeCycle s).mode.straps = s.mode.straps := by
  unfold readLifeCycle
  simp [h]

/-- Settles O15: the chest's reading, then the life-cycle reader's two answers. -/
theorem strapSampleCompletes : Obligations.strap_sample_completes := by
  intro s pins hnone hwake
  refine ⟨fun hread => by simp [readChest, hread], fun hread => ?_, fun hvalid => ?_, fun hinvalid => ?_⟩
  · have h := readChest_butEvents hread
    obtain ⟨hchest, hmode⟩ := chest_mode_of_butEvents h
    rw [hchest, hmode]
    exact ⟨rfl, rfl, h⟩
  · refine ⟨_, execStrapSample_next hnone hwake, ?_⟩
    rw [readLifeCycle_valid (by simpa using hvalid)]
    simp
  · refine ⟨_, execStrapSample_next hnone hwake, ?_⟩
    exact readLifeCycle_invalid (by simpa using hinvalid)

end Sys2Proof.Machine
end

section
/-! PROOFS. The tamper watch's commands (R464 to R482): on main power, in a decision pair, in a stimulus window, on the cell. -/

namespace Sys2Proof.Machine

open Sys2Proof.Claims

/-! ### One evaluation on main power -/

theorem classRank_cases (top : Nat) : classRank top = 1 ∨ classRank top = 3 ∨ classRank top = 4 := by
  unfold classRank
  split <;> simp

/-- A firing that meets nothing is sensed, at whatever rank its class has. -/
theorem resolveTriggers_tamper (f : Firing) (s : State) : resolveTriggers [.tamper f] s = senseAll [f] s := by
  have hat (r : Nat) : triggersAt s [.tamper f] r = if rankOf s [.tamper f] (.tamper f) = r then [.tamper f] else [] := by
    simp [triggersAt, List.filter_cons]
  have hrank : rankOf s [.tamper f] (.tamper f) = 1 ∨ rankOf s [.tamper f] (.tamper f) = 3 ∨ rankOf s [.tamper f] (.tamper f) = 4 :=
    classRank_cases _
  have hseven : List.range 7 = [0, 1, 2, 3, 4, 5, 6] := rfl
  unfold resolveTriggers
  rcases hrank with h | h | h <;> simp [hat, h, hseven, firingsOf, triggerAct]

theorem execTamperFire_single {f : Firing} {s : State} (hd : s.mode.base ≠ .dormant) :
    exec (.tamperFire ⟨[f], []⟩) s = .next (settleAfterLeave (senseAll [f] s)) := by
  simp [exec, execTamperFire, hd, meetAll, resolveTriggers_tamper]

theorem senseAll_fires {f : Firing} {s : State} (hd : s.mode.base ≠ .dormant) (hfused : s.fuses.fused.getLsbD f.source.val = false)
    (hquiet : s.tamper.active.getLsbD f.source.val = false) (hstim : s.tamper.stimulus ≠ some f.source) (hsenses : senses s f = true)
    (hnative : compatOn s = false) :
    (senseAll [f] s).tamper.active.getLsbD f.source.val = true ∧ (senseAll [f] s).backup.sticky.getLsbD f.source.val = true := by
  have hfilter : [f].filter (senses s) = [f] := List.filter_cons_of_pos hsenses
  unfold senseAll
  rw [if_neg (by simpa using hd), hfilter]
  dsimp only
  split
  · exact evaluate_fires hfused hquiet hstim hnative
  · exact evaluate_fires hfused hquiet hstim hnative

/-! ### Decision pairs -/

/-- Whichever decision is taken, it names every source of the pair that qualifies again. -/
theorem mem_decidedPair {first : List (Firing × Nat)} {q : List SourceId} {s : State} {x : Firing × Nat} (hx : x ∈ first)
    (hq : q.contains x.1.source = true) (hfused : s.fuses.fused.getLsbD x.1.source.val = false) :
    x.1 ∈ (decidedPair first q s).map fun y => y.1 := by
  have hfirst : x.1 ∈ first.map fun y => y.1 := List.mem_map_of_mem hx
  have hnow : x.1 ∈ ((first.filter fun y => q.contains y.1.source && !s.fuses.fused.getLsbD y.1.source.val).map fun y =>
      (y.1, classOf s y.1.source)).map fun y => y.1 := by
    rw [List.map_map]
    exact List.mem_map.mpr ⟨x, List.mem_filter.mpr ⟨hx, by simp only [hq, hfused]; rfl⟩, rfl⟩
  unfold decidedPair
  extract_lets now same taken
  have htaken : x.1 ∈ taken.map fun y => y.1 := by
    simp only [taken]
    split
    · exact hfirst
    · exact hnow
  split
  · exact htaken
  · rw [List.map_append]
    exact List.mem_append_left _ htaken

theorem execTwiceDecidedSecond_next {k : Nat} {q : List SourceId} {d : DecisionPair} {s : State} (hd : s.mode.base ≠ .dormant)
    (hk : s.tamper.pairs[k]? = some d) :
    exec (.twiceDecidedSecond k q) s =
      .next (settleAfterLeave (secondDecision d.firings q { s with tamper := { s.tamper with pairs := s.tamper.pairs.eraseIdx k } })) := by
  simp [exec, execTwiceDecidedSecond, endPair, hd, hk]

theorem secondDecision_pairs (first : List (Firing × Nat)) (q : List SourceId) (s : State) :
    (secondDecision first q s).tamper.pairs = s.tamper.pairs := by
  obtain ⟨-, -, hpairs, -⟩ := fireAll_fires (classIn s (decidedPair first q s)) 0 ((decidedPair first q s).map fun y => y.1) s
  exact hpairs

theorem secondDecision_flag {first : List (Firing × Nat)} {q : List SourceId} {s : State} {x : Firing × Nat} (hx : x ∈ first)
    (hq : q.contains x.1.source = true) (hfused : s.fuses.fused.getLsbD x.1.source.val = false) :
    (secondDecision first q s).backup.sticky.getLsbD x.1.source.val = true :=
  fireAll_flag (mem_decidedPair hx hq hfused) hfused

/-! ### Stimulus windows -/

/-- The window of a source that responded and is quiet closes, with nothing held. -/
theorem execStimulusWindowEnd_quiet {src : SourceId} {s : State} (hd : s.mode.base ≠ .dormant)
    (hfused : s.fuses.fused.getLsbD src.val = false) (hstim : s.tamper.stimulus = some src) (hheld : s.tamper.heldAlarm = false) :
    exec (.stimulusWindowEnd src true false) s = .next (settleAfterLeave { s with tamper := { s.tamper with
      stimulus := none, heldAlarm := false, stimFail := setBit s.tamper.stimFail src.val false
      active := setBit s.tamper.active src.val false, sensed := s.tamper.sensed.filter fun f => f.source != src } }) := by
  simp [exec, execStimulusWindowEnd, windowEnds, endWindow, hd, hfused, hstim, hheld, -BitVec.getLsbD_eq_getElem]

/-! ### On the cell alone -/

theorem latchEntry_backup (e : LatchEntry) (s : State) :
    (latchEntry e s).backup.sticky = s.backup.sticky ∧ (latchEntry e s).backup.chest = s.backup.chest ∧
      (latchEntry e s).backup.classes = s.backup.classes ∧ (latchEntry e s).fuses = s.fuses := by
  obtain ⟨_, _, h⟩ := latchEntry_touches e s
  rw [h]
  exact ⟨rfl, rfl, rfl, rfl⟩

/-- An alarm on the cell sets its flag; the rest of the backup domain but the latch, and the fuses, stand. -/
theorem cellAlarm_marks (s : State) (i : SourceId) :
    (cellAlarm s i).backup.sticky = setBit s.backup.sticky i.val true ∧ (cellAlarm s i).backup.chest = s.backup.chest ∧
      (cellAlarm s i).backup.classes = s.backup.classes ∧ (cellAlarm s i).fuses = s.fuses := by
  unfold cellAlarm
  dsimp only
  exact latchEntry_backup _ _

theorem foldl_cellAlarm (l : List SourceId) (s : State) :
    (l.foldl cellAlarm s).backup.sticky = l.foldl (fun m i => setBit m i.val true) s.backup.sticky ∧
      (l.foldl cellAlarm s).backup.chest = s.backup.chest ∧ (l.foldl cellAlarm s).backup.classes = s.backup.classes ∧
      (l.foldl cellAlarm s).fuses = s.fuses := by
  induction l generalizing s with
  | nil => exact ⟨rfl, rfl, rfl, rfl⟩
  | cons i l ih =>
    obtain ⟨hsticky, hchest, hclasses, hfuses⟩ := cellAlarm_marks s i
    simpa only [List.foldl_cons, hsticky, hchest, hclasses, hfuses] using ih (cellAlarm s i)

/-- What a window of the cell finds anew. -/
def freshOnCell (l : List SourceId) (s : State) : List SourceId :=
  ((fins 24).filter fun i => cellSource i && l.contains i && !s.fuses.fused.getLsbD i.val).filter fun i => !s.backup.active.getLsbD i.val

theorem mem_freshOnCell {l : List SourceId} {s : State} {i : SourceId} (hi : i ∈ l) (hcell : cellSource i = true)
    (hfused : s.fuses.fused.getLsbD i.val = false) (hquiet : s.backup.active.getLsbD i.val = false) : i ∈ freshOnCell l s := by
  have hon : i ∈ fins 24 := List.mem_ofFn.mpr ⟨i, rfl⟩
  have hlive : (cellSource i && l.contains i && !s.fuses.fused.getLsbD i.val) = true := by simp [hcell, hi, hfused, -BitVec.getLsbD_eq_getElem]
  exact List.mem_filter.mpr ⟨List.mem_filter.mpr ⟨hon, hlive⟩, by rw [hquiet]; rfl⟩

/-- What a window does with the sources it finds anew, its source 3 apart. -/
def cellFound (fresh : List SourceId) (s : State) : State :=
  let t := fresh.foldl cellAlarm s
  if fresh.any fun i => cellClass t i == 3 then clearChest t else t

/-- A window of the cell, whose time has come to `c`. -/
def cellWindowAt (c : Nat) (l : List SourceId) (s : State) : State :=
  let s := aloneTo c s
  let on := (fins 24).filter fun i => cellSource i && l.contains i && !s.fuses.fused.getLsbD i.val
  let t := cellFound (on.filter fun i => !s.backup.active.getLsbD i.val) s
  let t := { t with backup := { t.backup with active := maskOf 24 (on.map fun i => i.val) } }
  if l.contains 3 then loseBackup t else t

theorem execCellWindow_next {l : List SourceId} {s : State} (hfeeds : cellFeeds s = true) :
    ∃ c, exec (.cellWindow l) s = .next (cellWindowAt c l s) := by
  have hexec : exec (.cellWindow l) s =
      .next (if !cellFeeds s then s else cellWindowAt ((s.backup.alone / 6000000 + 1) * 6000000) l s) := rfl
  rw [hexec, hfeeds]
  exact ⟨_, rfl⟩

theorem cellWindowAt_found {c : Nat} {l : List SourceId} {s : State} (hlow : (3 : SourceId) ∉ l) :
    (cellWindowAt c l s).backup.sticky = (cellFound (freshOnCell l s) (aloneTo c s)).backup.sticky ∧
      (cellWindowAt c l s).backup.chest = (cellFound (freshOnCell l s) (aloneTo c s)).backup.chest := by
  unfold cellWindowAt
  dsimp only
  rw [if_neg (by simpa using hlow)]
  exact ⟨rfl, rfl⟩

theorem cellFound_sticky (fresh : List SourceId) (s : State) :
    (cellFound fresh s).backup.sticky = fresh.foldl (fun m i => setBit m i.val true) s.backup.sticky := by
  obtain ⟨hsticky, -⟩ := foldl_cellAlarm fresh s
  unfold cellFound
  dsimp only
  split
  · exact hsticky
  · exact hsticky

theorem cellFound_chest {fresh : List SourceId} {s : State} (h : ∀ i, cellClass s i ≠ 3) :
    (cellFound fresh s).backup.chest = s.backup.chest := by
  obtain ⟨-, hchest, hclasses, hfuses⟩ := foldl_cellAlarm fresh s
  have hclass (i : SourceId) : cellClass (fresh.foldl cellAlarm s) i = cellClass s i := by
    unfold cellClass
    rw [hfuses, hclasses]
  unfold cellFound
  dsimp only
  rw [if_neg (by simp [hclass, h])]
  exact hchest

/-! ### Repeats -/

/-- Where no event of the source's number waits, a repeat is added to its newest record. -/
theorem execTamperRepeat_record {src : SourceId} {r : LogRecord} {s : State} (hd : s.mode.base ≠ .dormant)
    (hfused : s.fuses.fused.getLsbD src.val = false) (hactive : s.tamper.active.getLsbD src.val = true) (hsteward : latching s = false)
    (hqueue : ∀ e ∈ s.log.queue, e.event ≠ 0xC0 + src.val) (hr : newestOf (0xC0 + src.val) s.log.records = some r) :
    exec (.tamperRepeat src) s = .next (repeatRecord r.seq s.log.seconds s) := by
  have hfind : (s.log.queue.reverse.find? fun e => e.event == 0xC0 + src.val) = none := by
    simpa using hqueue
  simp [exec, execTamperRepeat, tamperRepeat, hd, hfused, hactive, hsteward, hfind, hr, -BitVec.getLsbD_eq_getElem]

/-- Settles O29: each command by its rule above; the settling that follows some of them leaves the watch and the flags. -/
theorem tamperCompletes : Obligations.tamper_completes := by
  refine ⟨fun s f src k d q l => ⟨?_, ?_, ?_, ?_, ?_, ?_, ?_⟩, ?_⟩
  · intro hd hfused hquiet hstim hsenses hnative
    refine ⟨_, execTamperFire_single hd, ?_⟩
    simpa only [settleAfterLeave_units] using senseAll_fires hd hfused hquiet hstim hsenses hnative
  · intro hd hk
    refine ⟨_, execTwiceDecidedSecond_next hd hk, ?_, fun x hx hq hfused => ?_⟩
    · simp only [settleAfterLeave_units, secondDecision_pairs]
    · simp only [settleAfterLeave_units]
      exact secondDecision_flag hx hq hfused
  · intro hd
    refine ⟨_, rfl, ?_⟩
    simp [hd]
  · intro hd hfused hstim
    simp [exec, execTamperStimulus, hd, hfused, hstim, -BitVec.getLsbD_eq_getElem]
  · intro hd hfused hstim hheld
    refine ⟨_, execStimulusWindowEnd_quiet hd hfused hstim hheld, ?_⟩
    simp
  · intro hfeeds hlow
    obtain ⟨c, hexec⟩ := execCellWindow_next (l := l) hfeeds
    refine ⟨_, hexec, ?_⟩
    simp [cellWindowAt, hlow, loseBackup]
  · intro hfeeds hlow
    obtain ⟨c, hexec⟩ := execCellWindow_next (l := l) hfeeds
    obtain ⟨hsticky, hchest⟩ := cellWindowAt_found (c := c) (s := s) hlow
    rw [cellFound_sticky] at hsticky
    refine ⟨_, hexec, fun i hi hcell hfused hquiet => ?_, fun i hi => ?_, fun hclass => hchest.trans (cellFound_chest hclass)⟩
    · rw [hsticky]
      exact getLsbD_foldl_setBit Fin.val i.isLt _ (.inl (mem_freshOnCell hi hcell hfused hquiet))
    · rw [hsticky]
      exact getLsbD_foldl_setBit Fin.val i.isLt _ (.inr hi)
  · intro s src r hd hfused hactive hsteward hqueue hr
    refine ⟨_, execTamperRepeat_record hd hfused hactive hsteward hqueue hr, rfl, ?_⟩
    rfl

end Sys2Proof.Machine
end

section
/-! PROOFS. Power events (R39, R46), throttling (R41, R42) and gating (R62, R63). -/

namespace Sys2Proof.Machine

open Sys2Proof.Claims

/-! ### Restarts and requests for seed leave the power manager -/

theorem operation_power {s t : State} (h : Frame.operation.Keeps s t) : t.power = s.power := by
  rw [h]
  rfl

theorem bobbin_power {s t : State} (h : Frame.bobbin.Keeps s t) : t.power = s.power := by
  rw [h]
  rfl

theorem foldl_power {α : Type} {f : State → α → State} (h : ∀ s a, (f s a).power = s.power) (l : List α) (s : State) :
    (l.foldl f s).power = s.power := by
  induction l generalizing s with
  | nil => rfl
  | cons a l ih => exact (ih _).trans (h s a)

theorem countAbandon_power (i : Item) (s : State) : (countAbandon i s).power = s.power := by
  have hleave : (leaveUnits i s).power = s.power := operation_power (leaveUnits_keepsOperation i s)
  unfold countAbandon
  (repeat' split) <;> exact hleave

theorem restartCoded_power (code : Nat) (fault : Bool) (excl : List Engine) (i : Item) (s : State) :
    (restartCoded code fault excl i s).power = s.power := by
  unfold restartCoded
  extract_lets s₁ s₂ i'
  have hresume : s₁.power = s.power := (operation_power (resumeTrestle_keepsOperation i _)).trans (countAbandon_power i s)
  have htrace : s₂.power = s.power := by
    obtain ⟨-, -, hpower, -⟩ := settling_units (traceItem_keepsSettling code i s₁)
    exact hpower.trans hresume
  split
  · exact (operation_power (failInService_keepsOperation _ _ _ _)).trans htrace
  · exact htrace

theorem restartWhere_power (code : Nat) (fault : Bool) (sel : Engine → Bool) (s : State) :
    (restartWhere code fault sel s).power = s.power := by
  refine foldl_power (fun s i => ?_) _ s
  dsimp only
  cases findItem s i.id with
  | none => rfl
  | some i => exact restartCoded_power _ _ _ i s

theorem askBenchSeeds_power (s : State) : (askBenchSeeds s).power = s.power := by
  refine foldl_power (fun s b => ?_) _ s
  dsimp only
  split
  · exact bobbin_power (requestSeed_keepsBobbin _ _)
  · rfl

theorem parkBench_power (b : BenchId) (s : State) : (parkBench b s).power = s.power := by simp [parkBench]

/-- Parking takes the benches out of service and out of those that wait to return. -/
theorem parkBenches_power (m : BitVec 16) (s : State) :
    (parkBenches m s).power = { s.power with benchOn := s.power.benchOn &&& ~~~m, benchReturn := s.power.benchReturn &&& ~~~m } := by
  unfold parkBenches
  extract_lets power s₁ s₂
  have hrestart : s₂.power = s₁.power := restartWhere_power _ _ _ s₁
  refine (foldl_power (fun s b => ?_) _ s₂).trans hrestart
  split
  · exact parkBench_power b s
  · rfl

/-! ### Throttling -/

theorem getLsbD_benchBit {b : Nat} (h : b < 16) : (benchBit b).getLsbD b = true := by
  rw [benchBit, BitVec.getLsbD_ofNat, Nat.testBit_two_pow_self, decide_eq_true h]
  rfl

theorem getLsbD_and_not_benchBit (m : BitVec 16) {b : Nat} (h : b < 16) : (m &&& ~~~benchBit b).getLsbD b = false := by
  rw [BitVec.getLsbD_and, BitVec.getLsbD_not, getLsbD_benchBit h]
  simp

theorem roleBenches_lt {s : State} {r b : Nat} (h : b ∈ roleBenches s r) : b < 16 :=
  List.mem_range.mp (List.mem_filter.mp h).1

theorem throttleChoice_lt {s : State} {b : Nat} (h : throttleChoice s = some b) : b < 16 := by
  unfold throttleChoice at h
  dsimp only at h
  split at h
  · cases h
  · obtain ⟨r, -, hr⟩ := List.mem_flatMap.mp (List.max?_mem h)
    split at hr
    · exact roleBenches_lt hr
    · cases hr

/-- What one step of throttling leaves of the masks. -/
theorem throttleOne_masks {s : State} {b : Nat} (h : throttleChoice s = some b) :
    (throttleOne s).power.benchOn = s.power.benchOn &&& ~~~benchBit b ∧
      (throttleOne s).power.throttled = setBit s.power.throttled b true := by
  simp [throttleOne, h, raise0, powerEvent, parkBenches_power]

theorem throttleOne_parks {s : State} {b : Nat} (h : throttleChoice s = some b) :
    (throttleOne s).power.benchOn.getLsbD b = false ∧ (throttleOne s).power.throttled.getLsbD b = true := by
  obtain ⟨hon, hthrottled⟩ := throttleOne_masks h
  rw [hon, hthrottled]
  exact ⟨getLsbD_and_not_benchBit _ (throttleChoice_lt h), getLsbD_setBit_self _ (throttleChoice_lt h)⟩

/-- A second step returns no bench. -/
theorem throttleOne_keeps_parked {s : State} {b x : Nat} (h : throttleChoice s = some b) (hon : s.power.benchOn.getLsbD x = false)
    (hthrottled : s.power.throttled.getLsbD x = true) :
    (throttleOne s).power.benchOn.getLsbD x = false ∧ (throttleOne s).power.throttled.getLsbD x = true := by
  obtain ⟨hon', hthrottled'⟩ := throttleOne_masks h
  rw [hon', hthrottled', BitVec.getLsbD_and, hon]
  exact ⟨rfl, getLsbD_setBit_of_set hthrottled⟩

theorem execThermalStep_next {s : State} (hd : s.mode.base ≠ .dormant) (hhot : 100 ≤ s.power.tj) :
    exec (.thermalStep false) s = .next (settleAfterLeave (throttleOne (throttleOne s))) := by
  simp [exec, execThermalStep, hd, hhot, bulk]

theorem execThermalSample_next {tj : Int} {s : State} (hd : s.mode.base ≠ .dormant) :
    exec (.thermalSample tj) s = .next { s with power := { s.power with
      tj := tj, throttling := decide (100 ≤ tj) || (s.power.throttling && !(decide (tj < 95) && s.power.throttled == 0)) } } := by
  simp [exec, execThermalSample, hd]

/-- One of the throttled benches of the plan waits for the next beat. -/
theorem execThermalClear_next {s : State} (hd : s.mode.base ≠ .dormant) (hcool : s.power.tj < 95)
    (hcand : bitsOf (s.power.throttled &&& planBenches s s.power.plan) ≠ []) :
    ∃ t, ∃ x ∈ bitsOf (s.power.throttled &&& planBenches s s.power.plan), exec (.thermalClear false) s = .next t ∧
      t.power = { s.power with
        throttled := setBit s.power.throttled x false, throttling := !(setBit s.power.throttled x false == 0)
        benchReturn := setBit s.power.benchReturn x true } := by
  have hexec : exec (.thermalClear false) s = execThermalClear false s := rfl
  unfold execThermalClear at hexec
  dsimp only at hexec
  generalize bitsOf (s.power.throttled &&& planBenches s s.power.plan) = cand at hexec hcand
  rw [if_neg (by simp [hd, hcand, hcool])] at hexec
  have hlt : (takeFree s).1 % cand.length < cand.length := Nat.mod_lt _ (List.length_pos_of_ne_nil hcand)
  refine ⟨_, cand.getD ((takeFree s).1 % cand.length) 0, ?_, hexec, ?_⟩
  · rw [List.getD_eq_getElem _ _ hlt]
    exact List.getElem_mem hlt
  · simp [bulk, raise0, askBenchSeeds_power, takeFree]

/-! ### Gating -/

theorem execBenchGate_next {s : State} {b : BenchId} (hon : s.power.benchOn.getLsbD b.val = true)
    (hfence : s.faults.bench.getLsbD b.val = false)
    (hidle : ∀ i ∈ s.heddle.items, ¬(waiting i = true ∧ some i.cls = benchClass (roleOf s b.val)) ∧ itemUses (onBench b.val) i = false) :
    exec (.benchGate b) s = .next (unask (onBench b.val) (modBench b (fun x => { x with gated := true }) s)) := by
  have hbusy : (s.heddle.items.any fun i =>
      (waiting i && some i.cls == benchClass (roleOf s b.val)) || itemUses (onBench b.val) i) = false := by
    refine List.any_eq_false.mpr fun i hi => ?_
    obtain ⟨hwaits, huses⟩ := hidle i hi
    simpa [huses] using hwaits
  simp only [exec, execBenchGate, hon, hfence, hbusy]
  rfl

/-- The bench is gated. -/
def isGated (s : State) (n : Nat) : Bool := match s.benches[n]? with | some x => x.gated | none => false

theorem isGated_fin (s : State) (b : BenchId) : isGated s b.val = s.benches[b.val].gated := by simp [isGated]

theorem execBenchStart_eq (s : State) (b : BenchId) :
    exec (.benchStart b) s =
      if !isGated s b.val || ((List.range b.val).any fun n => isGated s n && roleOf s n == roleOf s b.val) || !startDue s (roleOf s b.val)
      then .next s else .next (modBench b (fun x => { x with gated := false }) s) := rfl

theorem execBenchStart_next {s : State} {b : BenchId} (hgated : s.benches[b.val].gated = true)
    (hready : ∃ i ∈ s.heddle.items, i.place = .ready ∧ some i.cls = benchClass (roleOf s b.val))
    (hbusy : ∀ n : LoomId, roleOf s (n.val / 4) = roleOf s b.val → mayAsk s (.loom n) = false)
    (hlowest : ∀ n : BenchId, n < b → s.benches[n.val].gated = true → roleOf s n.val ≠ roleOf s b.val) :
    exec (.benchStart b) s = .next (modBench b (fun x => { x with gated := false }) s) := by
  have hdue : startDue s (roleOf s b.val) = true := by
    have hfree : ((fins 64).any fun n => roleOf s (n.val / 4) == roleOf s b.val && mayAsk s (.loom n)) = false := by
      refine List.any_eq_false.mpr fun n _ => ?_
      simpa using hbusy n
    obtain ⟨i, hi, hplace, hcls⟩ := hready
    have hany : (s.heddle.items.any fun i => i.place == .ready && some i.cls == benchClass (roleOf s b.val)) = true :=
      List.any_eq_true.mpr ⟨i, hi, by simp [hplace, hcls]⟩
    rw [startDue, hany, hfree]
    rfl
  have hlower : ((List.range b.val).any fun n => isGated s n && roleOf s n == roleOf s b.val) = false := by
    refine List.any_eq_false.mpr fun n hn => ?_
    have hlt : n < b.val := List.mem_range.mp hn
    have h := hlowest ⟨n, hlt.trans b.isLt⟩ hlt
    rw [← isGated_fin] at h
    simpa using h
  rw [execBenchStart_eq, isGated_fin, hgated, hlower, hdue]
  rfl

/-- Settles O19: each event by its rule above. -/
theorem powerEventsComplete : Obligations.power_events_complete := by
  refine ⟨fun s p tj pl hd => ⟨fun hattached => ?_, fun hsteward hhold => ?_, fun _ _ => ?_⟩,
    fun s b hd => ⟨fun hhot x y hx hy => ?_, fun hcool hcand => ?_, fun hon hfence hidle => ?_, fun hgated hready hbusy hlowest => ?_⟩⟩
  · simp [exec, execPathOvercurrent, hd, hattached, bulk]
  · simp [exec, execPlanUpHoldExpiry, hd, hsteward, hhold, bulk]
  · refine ⟨_, execThermalSample_next hd, rfl, fun hhot => ?_, fun hcool hnone => ?_⟩
    · simp [hhot]
    · have hcold : ¬ 100 ≤ tj := by omega
      simp [hcold, hcool, hnone]
  · obtain ⟨honx, hthx⟩ := throttleOne_parks hx
    obtain ⟨hony, hthy⟩ := throttleOne_parks hy
    obtain ⟨honx, hthx⟩ := throttleOne_keeps_parked hy honx hthx
    refine ⟨_, execThermalStep_next hd hhot, ?_⟩
    simp only [settleAfterLeave_units]
    exact ⟨honx, hony, hthx, hthy⟩
  · obtain ⟨t, x, hx, hexec, hpower⟩ := execThermalClear_next hd hcool hcand
    refine ⟨t, x, hexec, hx, ?_⟩
    rw [hpower]
    exact ⟨rfl, rfl, rfl⟩
  · exact ⟨_, execBenchGate_next hon hfence hidle, rfl, rfl, rfl⟩
  · exact execBenchStart_next hgated hready hbusy hlowest

end Sys2Proof.Machine
end

section
/-! PROOFS. Contracts (R25 to R28), what a change of one leaves (R37, R39, R65), and a function that is removed (R17, R37 step 6). -/

namespace Sys2Proof.Machine

open Sys2Proof.Claims

/-! ### The contract that is chosen -/

@[simp] theorem defaultContract_valid (o : Offer) : (defaultContract o).valid = true := by
  unfold defaultContract
  split <;> rfl

@[simp] theorem chooseContract_valid (o : Offer) : (chooseContract o).valid = true := by
  unfold chooseContract
  dsimp only
  split
  · rfl
  · split
    · rfl
    · split
      · exact defaultContract_valid o
      · rfl

/-- An offer of 20 V at `i` or more is among those of 20 V. -/
theorem any_at20 {o : Offer} {i : Nat} (h : ∃ f ∈ o.fixed, f.volts = 20 ∧ i ≤ f.current) :
    ((o.fixed.filter fun f => f.volts == 20).any fun f => i ≤ f.current) = true := by
  obtain ⟨f, hf, hvolts, hcurrent⟩ := h
  exact List.any_eq_true.mpr ⟨f, List.mem_filter.mpr ⟨hf, by simp [hvolts]⟩, decide_eq_true hcurrent⟩

theorem chooseContract_at5A {o : Offer} (h : ∃ f ∈ o.fixed, f.volts = 20 ∧ 500 ≤ f.current) (hmark : o.emark5a = true) :
    chooseContract o = pdContract o 20 500 := by
  rw [chooseContract, any_at20 h, hmark]
  rfl

theorem chooseContract_at3A {o : Offer} (h : ∃ f ∈ o.fixed, f.volts = 20 ∧ 300 ≤ f.current) (hmark : o.emark5a = false) :
    chooseContract o = pdContract o 20 300 := by
  rw [chooseContract, any_at20 h, hmark]
  simp

theorem chooseContract_default {o : Offer} (h : o.fixed = []) : chooseContract o = defaultContract o := by
  simp [chooseContract, h]

/-! ### Contracts and paths -/

@[simp] theorem setContract_contracts (p : PortId) (c : Contract) (s : State) :
    (setContract p c s).power.contracts = s.power.contracts.set p.val c := rfl

/-- The path of a contract that is set follows it; the request's cap stands. -/
@[simp] theorem setContract_path (p : PortId) (c : Contract) (s : State) :
    (setContract p c s).power.paths[p.val].diodeOpen = !c.valid ∧
      (setContract p c s).power.paths[p.val].limit = (if c.valid then c.current else 0) ∧
      (setContract p c s).power.paths[p.val].requestCap = s.power.paths[p.val].requestCap := by
  simp [setContract, settlePaths]

@[simp] theorem capPath_contracts (p : PortId) (c : Contract) (s : State) : (capPath p c s).power.contracts = s.power.contracts := rfl

@[simp] theorem capPath_requestCap (p : PortId) (c : Contract) (s : State) :
    (capPath p c s).power.paths[p.val].requestCap = min (contractPower s.power.contracts[p.val]) (contractPower c) := by
  simp [capPath]

/-- What follows a contract that is set leaves every contract and every path. -/
theorem replanIfOn_contracts (s : State) :
    (replanIfOn s).power.contracts = s.power.contracts ∧ (replanIfOn s).power.paths = s.power.paths := by
  simp [replanIfOn]

theorem replaceContract_contracts (p : PortId) (c : Contract) (s : State) :
    (replaceContract p c s).power.contracts = s.power.contracts.set p.val c ∧
      (replaceContract p c s).power.paths = (setContract p c s).power.paths := by
  simp [replaceContract]

theorem settleIfOn_contracts (low : Bool) (s : State) :
    (settleIfOn (bulk low s)).power.contracts = s.power.contracts ∧ (settleIfOn (bulk low s)).power.paths = s.power.paths := by
  simp [settleIfOn]

/-- In Dormant a contract is replaced, and nothing follows. -/
theorem settleIfOn_dormant {p : PortId} {c : Contract} {low : Bool} {s : State} (hd : s.mode.base = .dormant) :
    settleIfOn (bulk low (replaceContract p c s)) = setContract p c s := by
  simp [settleIfOn, bulk, replaceContract, setContract, settlePaths, hd]

/-- A plan that does not fall stays, with its benches. -/
theorem replan_rises {s : State} (h : planCode s.power.plan ≤ planCode (planOf (budgetFine s))) :
    ∃ rise hold, replan s = { s with power := { s.power with rise := rise, hold := hold } } := by
  unfold replan
  dsimp only
  rw [if_neg (Nat.not_lt.mpr h)]
  exact ⟨_, _, rfl⟩

theorem replanIfOn_rises {s : State} (h : planCode s.power.plan ≤ planCode (planOf (budgetFine s))) :
    ∃ rise hold, replanIfOn s = { s with power := { s.power with rise := rise, hold := hold } } := by
  unfold replanIfOn
  split
  · exact ⟨_, _, rfl⟩
  · exact replan_rises h

/-! ### The commands -/

theorem execPortAttach_next {p : PortId} {o : Offer} {s : State} (h : s.power.contracts[p.val].attached = false) :
    exec (.portAttach p o) s = .next (replanIfOn (setContract p (chooseContract o) s)) := by
  simp [exec, execPortAttach, h]

theorem execContractChange_next {p : PortId} {o : Offer} {low : Bool} {s : State} (h : s.power.contracts[p.val].attached = true) :
    exec (.contractChange p o low) s =
      .next (settleIfOn (bulk low (replaceContract p (chooseContract o) (capPath p (chooseContract o) s)))) := by
  simp [exec, execContractChange, h]

theorem execPortDetach_dormant {p : PortId} {low : Bool} {s : State} (h : s.power.contracts[p.val].attached = true)
    (hd : s.mode.base = .dormant) : exec (.portDetach p false low) s = .next (setContract p {} s) := by
  simp [exec, execPortDetach, portDetach, h, hd]

theorem execPortDetach_powered {p : PortId} {low : Bool} {s : State} (h : s.power.contracts[p.val].attached = true)
    (hd : s.mode.base ≠ .dormant) :
    exec (.portDetach p false low) s = .next (settleAfterLeave (detachFunction p (bulk low (replan (setContract p {} s))))) := by
  simp [exec, execPortDetach, portDetach, h, hd]

theorem execPortDetach_link {p : PortId} {low : Bool} {s : State} (h : s.power.contracts[p.val].attached = true)
    (hd : s.mode.base ≠ .dormant) (htrained : s.ports[p.val].trained = true) :
    exec (.portDetach p true low) s = .next (settleAfterLeave (detachFunction p (bulk low (replan s)))) := by
  simp [exec, execPortDetach, portDetach, h, hd, htrained]

theorem execContractDrop_next {p : PortId} {v i : Nat} {low : Bool} {s : State} (hvalid : s.power.contracts[p.val].valid = true)
    (hlower : v * i < contractPower s.power.contracts[p.val]) :
    exec (.contractDrop p v i low) s =
      .next (settleIfOn (bulk low (replaceContract p { s.power.contracts[p.val] with voltage := v, current := i } s))) := by
  have hpower : contractPower { s.power.contracts[p.val] with voltage := v, current := i } = v * i := by
    simp [contractPower, hvalid, Nat.mul_comm]
  have hfalls : ¬ contractPower s.power.contracts[p.val] ≤ contractPower { s.power.contracts[p.val] with voltage := v, current := i } := by
    rw [hpower]
    exact Nat.not_le.mpr hlower
  have hdrop : contractDrop p v i low s =
      settleIfOn (bulk low (replaceContract p { s.power.contracts[p.val] with voltage := v, current := i } s)) := by
    unfold contractDrop
    dsimp only
    rw [if_neg (by simpa [hvalid] using hfalls)]
  exact congrArg Host.Outcome.next hdrop

theorem execSourceCapabilitiesTimeout_next {p : PortId} {ty : TypeC} {s : State} (hvalid : s.power.contracts[p.val].valid = false) :
    exec (.sourceCapabilitiesTimeout p ty) s =
      .next (replanIfOn (setContract p (defaultContract { fixed := [], typeC := ty, emark5a := false }) s)) := by
  simp [exec, execSourceCapabilitiesTimeout, hvalid]

/-! ### A function that is gone -/

/-- The port's registers are as after a reset, but for the credit, which is the heddle's. -/
def Removed (p : PortId) (s : State) : Prop := { s.ports[p.val] with creditHeld := false } = {}

theorem Removed.of_ports {p : PortId} {s t : State} (h : Removed p s) (hports : t.ports = s.ports) : Removed p t := by
  unfold Removed
  rw [hports]
  exact h

theorem Removed.of_modPort {p q : PortId} {f : Port → Port} {s : State} (h : Removed p s) (hne : q ≠ p) : Removed p (modPort q f s) := by
  have hval : q.val ≠ p.val := fun e => hne (Fin.ext e)
  simpa [Removed, modPort, Vector.getElem_set_ne _ _ hval] using h

theorem Removed.trace_off {p : PortId} {s : State} (h : Removed p s) : s.ports[p.val].trace.enabled = false := by
  have htrace : s.ports[p.val].trace = {} := congrArg Port.trace h
  rw [htrace]

theorem Removed.drains_nil {p : PortId} {s : State} (h : Removed p s) : s.ports[p.val].drains = [] := congrArg Port.drains h

theorem Removed.foldl {p : PortId} {α : Type} {f : State → α → State} (hf : ∀ s a, Removed p s → Removed p (f s a)) (l : List α)
    {s : State} (h : Removed p s) : Removed p (l.foldl f s) := by
  induction l generalizing s with
  | nil => exact h
  | cons a l ih => exact ih (hf s a h)

theorem Removed.emit {p : PortId} {s : State} (h : Removed p s) (x : Tx) : Removed p (emit x s) := h

theorem Removed.withHeddle {p : PortId} {s : State} (h : Removed p s) (x : Heddle) : Removed p { s with heddle := x } := h

theorem Removed.traceRecord {p : PortId} {s : State} (h : Removed p s) (q : PortId) (engine : Nat) (i : Option Item) (reason cls : Nat) :
    Removed p (traceRecord q engine i reason cls s) := by
  by_cases hq : q = p
  · subst hq
    simpa [Machine.traceRecord, h.trace_off] using h
  · unfold Machine.traceRecord
    dsimp only
    split
    · exact h
    · split
      · exact (h.of_modPort hq).of_modPort hq
      · exact ((h.of_modPort hq).of_modPort hq).emit _

theorem Removed.traceItem {p : PortId} {s : State} (h : Removed p s) (reason : Nat) (i : Item) : Removed p (traceItem reason i s) :=
  h.traceRecord _ _ _ _ _

theorem Removed.takeScratch {p : PortId} {s : State} (h : Removed p s) (id : Nat) : Removed p (takeScratch id s) := by
  unfold Machine.takeScratch
  (repeat' split) <;> exact h

theorem Removed.enterList {p : PortId} {s : State} (h : Removed p s) (id : Nat) : Removed p (enterList id s) := by
  unfold Machine.enterList
  split
  · exact h
  · exact (h.withHeddle _).traceItem _ _

theorem Removed.park {p : PortId} {s : State} (h : Removed p s) (full : Bool) (id : Nat) : Removed p (park full id s) := by
  unfold Machine.park
  split
  · exact h
  · rename_i i _
    have hpark : Removed p (Machine.traceItem 0x02 i (modItem id (fun x => { x with place := .parked }) s)) :=
      (h.withHeddle _).traceItem _ _
    dsimp only
    split
    · exact hpark.of_ports (raise_ports _ _ _)
    · exact hpark

theorem Removed.offer {p : PortId} {s : State} (h : Removed p s) (id : Nat) : Removed p (offer id s) := by
  have hscratch := h.takeScratch id
  unfold Machine.offer
  dsimp only
  split
  · exact hscratch
  · split
    · exact hscratch.enterList id
    · split
      · exact hscratch
      · exact hscratch.park _ id

theorem Removed.retryParked {p : PortId} {s : State} (h : Removed p s) : Removed p (retryParked s) := by
  have hparked := h.foldl (fun s id h => h.offer id) (idsInOrder (s.heddle.items.filter fun i => i.place == .parked))
  unfold Machine.retryParked
  dsimp only
  split
  · exact hparked.foldl (fun s id h => h.offer id) _
  · exact hparked

/-- The credit of a port changes, whichever port it is. -/
theorem Removed.setCredit {p : PortId} {s : State} (h : Removed p s) (q : PortId) (b : Bool) :
    Removed p (modPort q (fun x => { x with creditHeld := b }) s) := by
  by_cases hq : q = p
  · subst hq
    simpa [Removed, modPort] using h
  · exact h.of_modPort hq

theorem Removed.settleCredit {p : PortId} {s : State} (h : Removed p s) : Removed p (settleCredit s) := by
  refine h.foldl (fun s q h => ?_) _
  dsimp only
  split
  · exact h
  · exact (h.setCredit q _).traceRecord _ _ _ _ _

theorem issueRead_ports (q : Queue) (n : Nat) (s : State) : (issueRead q n s).ports = s.ports := by
  unfold issueRead askPages
  dsimp only
  split <;> rfl

theorem Removed.pumpScans {p : PortId} {s : State} (h : Removed p s) : Removed p (pumpScans s) := by
  refine h.foldl (fun s q h => ?_) _
  split
  · exact h
  · split
    · exact h.of_ports (issueRead_ports _ _ s)
    · exact h

theorem Removed.settleDrains {p : PortId} {s : State} (h : Removed p s) : Removed p (settleDrains s) := by
  refine h.foldl (fun s q h => ?_) _
  by_cases hq : q = p
  · subst hq
    simpa [h.drains_nil] using h
  · dsimp only
    split
    · exact h
    · exact (h.of_modPort hq).foldl (fun s _ h => h.emit _) _

theorem Removed.markOldest {p : PortId} {s : State} (h : Removed p s) : Removed p (markOldest s) := h.withHeddle _

theorem Removed.settleAfterLeave {p : PortId} {s : State} (h : Removed p s) : Removed p (settleAfterLeave s) :=
  h.retryParked.settleCredit.pumpScans.markOldest.settleDrains

theorem removeFunction_removed (p : PortId) (s : State) : Removed p (removeFunction p s) := by
  simp [Removed, removeFunction, modPort]

/-! ### Slices that are gone -/

theorem leaveUnits_slices (i : Item) (s : State) : (leaveUnits i s).slices = s.slices := by
  unfold leaveUnits leaveStores modContext
  (repeat' split) <;> rfl

theorem countAbandon_slices (i : Item) (s : State) : (countAbandon i s).slices = s.slices := by
  have hleave := leaveUnits_slices i s
  unfold countAbandon
  (repeat' split) <;> exact hleave

theorem foldl_slices {α : Type} {f : State → α → State} (h : ∀ s a, (f s a).slices = s.slices) (l : List α) (s : State) :
    (l.foldl f s).slices = s.slices := by
  induction l generalizing s with
  | nil => rfl
  | cons a l ih => exact (ih _).trans (h s a)

theorem resumeTrestle_slices (i : Item) (s : State) : (resumeTrestle i s).slices = s.slices := by
  unfold resumeTrestle
  split
  · rfl
  · split
    · rfl
    · exact foldl_slices (fun s x => holdTrestle_slices _ _ s) _ s

theorem discardItems_slices (p : PortId) (i : SliceIdx) (s : State) : (discardItems p i s).slices = s.slices := by
  refine foldl_slices (fun s x => ?_) _ s
  dsimp only
  split
  · exact (resumeTrestle_slices _ _).trans (countAbandon_slices x (returnReservation x.id s))
  · rfl

theorem destroySlice_slices (p : PortId) (i : SliceIdx) (s : State) :
    (destroySlice p i false s).slices = s.slices.filter fun x => !(x.port == p && x.idx == i) := by
  unfold destroySlice
  extract_lets old uid s₁ s₂ s₃ keys m s₄ s₅ s₆ cards s₇
  have h₁ : s₁.slices = s.slices := by
    unfold s₁
    cases old <;> rfl
  have h₂ : s₂.slices = s.slices := (discardItems_slices p i s₁).trans h₁
  exact congrArg _ h₂

/-- What is left after slices are destroyed stood before, and is none of them. -/
theorem mem_foldl_destroySlice {p : PortId} {l : List Slice} {s : State} {x : Slice}
    (h : x ∈ (l.foldl (fun s y => destroySlice p y.idx false s) s).slices) :
    x ∈ s.slices ∧ ∀ y ∈ l, x.port = p → x.idx ≠ y.idx := by
  induction l generalizing s with
  | nil => exact ⟨h, fun y hy => absurd hy List.not_mem_nil⟩
  | cons y l ih =>
    obtain ⟨hx, hl⟩ := ih h
    rw [destroySlice_slices] at hx
    obtain ⟨hx, hy⟩ := List.mem_filter.mp hx
    refine ⟨hx, fun z hz => ?_⟩
    rcases List.mem_cons.mp hz with rfl | hz
    · simpa [imp_iff_not_or] using hy
    · exact hl z hz

theorem removeFunction_slices {p : PortId} {s : State} {x : Slice} (h : x ∈ (removeFunction p s).slices) : x.port ≠ p := by
  obtain ⟨hx, hnone⟩ := mem_foldl_destroySlice (p := p) (s := s) (show x ∈ (destroyPortSlices p s).slices from h)
  intro hp
  exact hnone x (List.mem_filter.mpr ⟨hx, by simp [hp]⟩) hp rfl

/-- After a detach the function is gone, and every slice of the port. -/
theorem detachFunction_gone (p : PortId) (s : State) :
    Removed p (settleAfterLeave (detachFunction p s)) ∧ ∀ x ∈ (settleAfterLeave (detachFunction p s)).slices, x.port ≠ p := by
  refine ⟨(removeFunction_removed p _).settleAfterLeave, fun x hx => ?_⟩
  simp only [settleAfterLeave_units] at hx
  exact removeFunction_slices hx

theorem detach_contracts (p : PortId) (low : Bool) (s : State) :
    (settleAfterLeave (detachFunction p (bulk low (replan s)))).power.contracts = s.power.contracts ∧
      (settleAfterLeave (detachFunction p (bulk low (replan s)))).power.paths = s.power.paths := by
  simp

/-- Settles O18: each command by its rule above, and what follows a contract leaves the contracts and the paths. -/
theorem contractsComplete : Obligations.contracts_complete := by
  refine ⟨fun s p o low v i ty _ => ⟨fun hfree hplan => ?_, fun hattached => ⟨?_, ?_, fun hd htrained => ?_⟩, fun hvalid _ _ hlower => ?_,
    fun hvalid => ?_⟩, fun o => ⟨fun h hmark => ?_, fun h hmark => ?_, fun h => ?_⟩⟩
  · obtain ⟨rise, hold, ht⟩ := replanIfOn_rises (s := setContract p (chooseContract o) s) hplan
    obtain ⟨hdiode, hlimit, -⟩ := setContract_path p (chooseContract o) s
    rw [chooseContract_valid] at hdiode hlimit
    exact ⟨_, (execPortAttach_next hfree).trans (congrArg _ ht), rfl, rfl, rfl, rfl, hdiode, hlimit⟩
  · obtain ⟨hcontracts, hpaths⟩ := settleIfOn_contracts low (replaceContract p (chooseContract o) (capPath p (chooseContract o) s))
    obtain ⟨hset, hsetPaths⟩ := replaceContract_contracts p (chooseContract o) (capPath p (chooseContract o) s)
    refine ⟨_, execContractChange_next hattached, hcontracts.trans hset, ?_, fun hd => settleIfOn_dormant hd⟩
    rw [hpaths, hsetPaths]
    simp
  · by_cases hd : s.mode.base = .dormant
    · exact ⟨_, execPortDetach_dormant hattached hd, rfl, (setContract_path p {} s).1, fun _ => rfl, fun h => absurd hd h⟩
    · obtain ⟨hcontracts, hpaths⟩ := detach_contracts p low (setContract p {} s)
      refine ⟨_, execPortDetach_powered hattached hd, hcontracts, ?_, fun h => absurd h hd, fun _ => detachFunction_gone p _⟩
      rw [hpaths]
      exact (setContract_path p {} s).1
  · exact ⟨_, execPortDetach_link hattached hd htrained, (detach_contracts p low s).1, detachFunction_gone p _⟩
  · obtain ⟨hcontracts, -⟩ := settleIfOn_contracts low (replaceContract p { s.power.contracts[p.val] with voltage := v, current := i } s)
    refine ⟨_, execContractDrop_next hvalid hlower, hcontracts.trans (replaceContract_contracts p _ s).1, fun hd => settleIfOn_dormant hd⟩
  · refine ⟨_, execSourceCapabilitiesTimeout_next hvalid, (replanIfOn_contracts _).1, fun hd => ?_⟩
    exact if_pos (by simpa using hd)
  · rw [chooseContract_at5A h hmark]
    exact ⟨rfl, rfl, rfl⟩
  · rw [chooseContract_at3A h hmark]
    exact ⟨rfl, rfl⟩
  · rw [chooseContract_default h, defaultContract]
    cases o.typeC <;> exact ⟨rfl, rfl⟩

end Sys2Proof.Machine
end

section
/-! PROOFS. A step (R61, R121): the front of the queue, or the cycle that passes on an empty queue. -/

namespace Sys2Proof.Machine

open Sys2Proof.Claims

theorem step_cons (c : Instr) (rest : List Instr) (s : State) : step { s with pending := c :: rest } = exec c { s with pending := rest } := rfl

theorem step_nil {s : State} (h : s.pending = []) : step s = .next (tick s) := by
  unfold step
  rw [h]

@[simp] theorem tick_pending (s : State) : (tick s).pending = s.pending := by
  unfold tick
  split
  · simp [aloneTo]
  · simp only [takeWaiting_steady, apply_ite State.pending, reachBeat_pending, passTo_pending, ite_self]

/-- The clock of a powered module counts the cycle. -/
theorem passTo_clock {t : Nat} {s : State} (hd : s.mode.base ≠ .dormant) (ht : s.clock ≤ t) : (passTo t s).clock = t := by
  simp [passTo, advanceTo_clock hd ht]

theorem reachBeat_clock (t : Nat) (s : State) : (reachBeat t [] s).clock = s.clock := by
  simp [reachBeat, resolveTriggers_nil]

theorem tick_clock {s : State} (hd : s.mode.base ≠ .dormant) : (tick s).clock = s.clock + 1 := by
  have hpass : (passTo (s.clock + 1) s).clock = s.clock + 1 := passTo_clock hd (Nat.le_succ _)
  unfold tick
  rw [if_neg (by simpa using hd)]
  dsimp only
  split <;> simp [reachBeat_clock, hpass]

/-- Settles O56: on an empty queue the cycle that passes leaves the queue empty and moves the clock by one. -/
theorem stepRunsFront : Obligations.step_runs_front :=
  ⟨step_cons, fun s h => ⟨tick s, step_nil h, (tick_pending s).trans h, tick_clock⟩⟩

end Sys2Proof.Machine
end

section
/-! PROOFS. What reset leaves (R78, R110, R119). -/

namespace Sys2Proof.Machine

open Sys2Proof.Claims

/-- The module's block stands at the bottom of BAR0 (R118). -/
theorem readReg_module {off : Nat} (s : State) (p : PortId) (ha : off % 4 = 0) (hlt : off < 0x10000) : readReg s p off = modReg s p off := by
  simp [readReg, ha, hlt]

/-- The stage's block follows it. -/
theorem readReg_stage {o : Nat} (s : State) (p : PortId) (ha : o % 4 = 0) (hlt : o < 0x10000) : readReg s p (0x10000 + o) = stgReg s p o := by
  have hmod : (0x10000 + o) % 4 = 0 := by omega
  rw [readReg, if_neg (by omega), if_neg (by omega), if_pos (by omega), Nat.add_sub_cancel_left]

/-- Every port's stage is empty at reset. -/
theorem reset_stage (p : PortId) : State.reset.ports[p.val].stage = {} := by simp [State.reset]

theorem reset_stgReg (p : PortId) :
    stgReg State.reset p 0x4 = 0 ∧ stgReg State.reset p 0x8 = 0xFFFF ∧ stgReg State.reset p 0xC = 0 ∧ stgReg State.reset p 0x14 = 0 ∧
      stgReg State.reset p 0x18 = 0x01000100 ∧ stgReg State.reset p 0x1C = 0x01000100 := by
  simp only [stgReg, reset_stage]
  decide +kernel

theorem reset_idsApart : IdsApart State.reset := ⟨List.nodup_nil, fun _ h => nomatch h⟩

/-- The factory's counter has groups 0 and 1 burned, and no transition runs. -/
theorem reset_counterLegal : CounterLegal State.reset := ⟨by decide, by decide, fun _ h => nomatch h⟩

/-- Settles O58, register by register. -/
theorem resetState : Obligations.reset_state := by
  refine ⟨rfl, rfl, rfl, rfl, rfl, fun p => ?_, ?_, reset_idsApart, reset_counterLegal⟩
  · obtain ⟨hstatus, hsum, hbeat, hdevice, hlow, hhigh⟩ := reset_stgReg p
    have hstage {o : Nat} (ha : o % 4 = 0) (hlt : o < 0x10000) := readReg_stage State.reset p ha hlt
    exact ⟨readReg_module _ p rfl (by decide), (hstage (o := 0x4) rfl (by decide)).trans hstatus, (hstage (o := 0x8) rfl (by decide)).trans hsum,
      (hstage (o := 0xC) rfl (by decide)).trans hbeat, (hstage (o := 0x14) rfl (by decide)).trans hdevice,
      (hstage (o := 0x18) rfl (by decide)).trans hlow, (hstage (o := 0x1C) rfl (by decide)).trans hhigh⟩
  · rw [readReg_module _ _ rfl (by decide)]
    decide +kernel

end Sys2Proof.Machine
end

section
/-! PROOFS. What work that ends, restarts or is taken away may change (R131, R188, R236): items, the units that run them, slices, queues
and keys, the ports' queues and what the module sends; not its modes, fences, fuses, draft, owner or life cycle. -/

namespace Sys2Proof.Machine

open Sys2Proof.Claims

/-- What the ends of items, slices and admin commands may change. -/
def Frame.work : Frame where
  take u s := { s with
    out := u.out
    ports := u.ports
    slices := u.slices
    queues := u.queues
    heddle := u.heddle
    looms := u.looms
    trestles := u.trestles
    selvs := u.selvs
    farm := u.farm
    runs := u.runs
    cabinet := u.cabinet
    bobbin := { s.bobbin with instances := u.bobbin.instances, buffers := u.bobbin.buffers }
    flash := { s.flash with tally := u.flash.tally, lost := u.flash.lost }
    log := { s.log with queue := u.log.queue }
    backup := { s.backup with
      latch := u.backup.latch
      lost := u.backup.lost
      chest := { s.backup.chest with pointers := u.backup.chest.pointers, tag := u.backup.chest.tag } } }
  self _ := rfl
  last _ _ _ := rfl

/-! ### What keeps the frame -/

theorem operation_work {s t : State} (h : Frame.operation.Keeps s t) : Frame.work.Keeps s t := by
  rw [h]
  rfl

theorem settling_work {s t : State} (h : Frame.settling.Keeps s t) : Frame.work.Keeps s t := by
  rw [h]
  rfl

theorem modPort_keepsWork (p : PortId) (f : Port → Port) (s : State) : Frame.work.Keeps s (modPort p f s) := rfl

theorem modStage_keepsWork (p : PortId) (f : Stage → Stage) (s : State) : Frame.work.Keeps s (modStage p f s) := rfl

theorem freeSlots_keepsWork (sel : DigestSlotState → Bool) (s : State) : Frame.work.Keeps s (freeSlots sel s) := rfl

theorem wipeDrawers_keepsWork (x : Slice) (first n : Nat) (s : State) : Frame.work.Keeps s (wipeDrawers x first n s) := rfl

theorem failItem_keepsWork (st : Status) (i : Item) (s : State) : Frame.work.Keeps s (failItem st i s) :=
  operation_work ((modItem_keepsOperation _ _ s).trans (endItem_keepsOperation _ _ _ _))

theorem failInService_keepsWork (st : Status) (cycles : Nat) (i : Item) (s : State) : Frame.work.Keeps s (failInService st cycles i s) :=
  operation_work (failInService_keepsOperation st cycles i s)

theorem countAbandon_keepsOperation (i : Item) (s : State) : Frame.operation.Keeps s (countAbandon i s) := by
  unfold countAbandon
  extract_lets s₁ s₂
  have h₂ : Frame.operation.Keeps s s₂ := by
    refine (leaveUnits_keepsOperation i s).trans ?_
    unfold s₂
    split <;> rfl
  split
  · exact h₂.trans rfl
  · exact h₂

/-- A restart restarts the item or, at its third fault, ends it. -/
theorem restartCoded_keepsWork (code : Nat) (fault : Bool) (excl : List Engine) (i : Item) (s : State) :
    Frame.work.Keeps s (restartCoded code fault excl i s) := by
  unfold restartCoded
  extract_lets s₁ s₂ i'
  have h₂ : Frame.work.Keeps s s₂ :=
    (operation_work ((countAbandon_keepsOperation i s).trans (resumeTrestle_keepsOperation i _))).trans
      (settling_work (traceItem_keepsSettling code i s₁))
  split
  · exact h₂.trans (operation_work ((modItem_keepsOperation _ _ _).trans (failInService_keepsOperation _ _ _ _)))
  · exact h₂.trans rfl

theorem restartWhere_keepsWork (code : Nat) (fault : Bool) (sel : Engine → Bool) (s : State) :
    Frame.work.Keeps s (restartWhere code fault sel s) := by
  refine .trans (.foldl (fun s i => ?_) _ s) rfl
  dsimp only
  split
  · exact restartCoded_keepsWork _ _ _ _ s
  · exact .refl s

theorem discardItems_keepsWork (p : PortId) (i : SliceIdx) (s : State) : Frame.work.Keeps s (discardItems p i s) := by
  refine .trans (.foldl (fun s x => ?_) _ s) rfl
  dsimp only
  have hreturn : Frame.work.Keeps s (returnReservation x.id s) := rfl
  split
  · exact hreturn.trans (operation_work ((countAbandon_keepsOperation x _).trans (resumeTrestle_keepsOperation x _)))
  · exact hreturn

theorem destroySlice_keepsWork (p : PortId) (i : SliceIdx) (erase : Bool) (s : State) : Frame.work.Keeps s (destroySlice p i erase s) := by
  unfold destroySlice
  extract_lets old uid s₁ s₂ s₃ keys m s₄ s₅ s₆ cards s₇
  have h₁ : Frame.work.Keeps s s₁ := by
    unfold s₁
    cases old <;> rfl
  have h₂ : Frame.work.Keeps s s₂ := h₁.trans (discardItems_keepsWork p i s₁)
  have h₃ : Frame.work.Keeps s s₃ := h₂.trans (modStage_keepsWork p _ s₂)
  have h₄ : Frame.work.Keeps s s₄ := h₃.trans rfl
  have h₅ : Frame.work.Keeps s s₅ := h₄.trans (modPort_keepsWork p _ s₄)
  have h₆ : Frame.work.Keeps s s₆ := h₅.trans (freeSlots_keepsWork _ s₅)
  have h₇ : Frame.work.Keeps s s₇ := h₆.trans rfl
  split
  · exact h₇.trans (operation_work (eraseTally_keepsOperation _ s₇))
  · exact h₇

theorem destroyAllSlices_keepsWork (s : State) : Frame.work.Keeps s (destroyAllSlices s) :=
  .foldl (fun s _ => destroySlice_keepsWork _ _ _ s) _ s

theorem removeFunction_keepsWork (p : PortId) (s : State) : Frame.work.Keeps s (removeFunction p s) :=
  .trans (t := destroyPortSlices p s) (.foldl (fun s _ => destroySlice_keepsWork _ _ _ s) _ s) rfl

theorem resetFunction_keepsWork (p : PortId) (keep : Port → Port) (s : State) : Frame.work.Keeps s (resetFunction p keep s) :=
  ((removeFunction_keepsWork p s).trans (modPort_keepsWork p _ _)).trans (settling_work (settleAfterLeave_keepsSettling _))

theorem clearDrawers_keepsWork (s : State) : Frame.work.Keeps s (clearDrawers s) := by
  refine .trans (.foldl (fun s x => ?_) _ s) rfl
  exact .foldl (fun s _ => wipeDrawers_keepsWork x _ _ s) _ s

theorem adminDone_keepsWork (p : PortId) (st : Status) (result : Nat) (output : Bytes) (s : State) :
    Frame.work.Keeps s (adminDone p st result output s) := rfl

theorem abandonAdmin_keepsWork (st : Status) (s : State) : Frame.work.Keeps s (abandonAdmin st s) := by
  unfold abandonAdmin
  extract_lets s₁
  have h₁ : Frame.work.Keeps s s₁ := by
    refine .trans (t := { s with queues := _ }) rfl ?_
    exact .foldl (fun s _ => destroySlice_keepsWork _ _ _ s) _ _
  refine h₁.trans (.foldl (fun s p => ?_) _ _)
  split
  · split
    · exact .refl s
    · exact adminDone_keepsWork p st 0 [] s
  · exact .refl s

/-! ### What the frame keeps -/

theorem work_units {s t : State} (h : Frame.work.Keeps s t) :
    t.mode = s.mode ∧ t.life = s.life ∧ t.owner = s.owner ∧ t.envelopes = s.envelopes ∧ t.draft = s.draft ∧ t.power = s.power ∧
      t.fuses = s.fuses ∧ t.tamper = s.tamper ∧ t.faults = s.faults ∧ t.clock = s.clock ∧ t.benches = s.benches := by
  rw [h]
  exact ⟨rfl, rfl, rfl, rfl, rfl, rfl, rfl, rfl, rfl, rfl, rfl⟩

theorem work_backup {s t : State} (h : Frame.work.Keeps s t) :
    t.backup.sticky = s.backup.sticky ∧ t.backup.chest.valid = s.backup.chest.valid ∧ t.backup.chest.seq = s.backup.chest.seq := by
  rw [h]
  exact ⟨rfl, rfl, rfl⟩

end Sys2Proof.Machine
end

section
/-! PROOFS. How an owner-signed command ends (R121, R161), and the owner's Hold and re-thread (R50, R51, R93). -/

namespace Sys2Proof.Machine

open Sys2Proof.Claims

/-! ### The answer -/

@[simp] theorem ownerDone_owner (st : Status) (s : State) : (ownerDone st s).owner = none := by
  unfold ownerDone
  split
  · assumption
  · dsimp only
    (repeat' split) <;> rfl

theorem adminDone_ends {p : PortId} {st : Status} {result : Nat} {output : Bytes} {s : State} {e : AdminEntry}
    (h : s.ports[p.val].admin.entry = some e) : AdminEnds (adminDone p st result output s) p st result := by
  simp [AdminEnds, adminDone, modAdmin, modPort, h]

/-- An answer touches the admin queue of its port alone. -/
theorem adminDone_sameButAnswer (p : PortId) (st : Status) (result : Nat) (output : Bytes) (s : State) :
    SameButAnswer s (adminDone p st result output s) := by
  refine ⟨rfl, fun q => ?_⟩
  by_cases h : p = q
  · subst h
    simp [adminDone, modAdmin, modPort]
  · have hne : p.val ≠ q.val := fun hv => h (Fin.ext hv)
    simp [adminDone, modAdmin, modPort, Vector.getElem_set_ne _ _ hne]

theorem ownerDone_sameButAnswer (st : Status) (s : State) : SameButAnswer s (ownerDone st s) := by
  have hself : SameButAnswer s { s with owner := none } := ⟨rfl, fun _ => rfl⟩
  unfold ownerDone
  split
  · exact ⟨rfl, fun _ => rfl⟩
  · dsimp only
    split
    · split
      · split
        · exact adminDone_sameButAnswer _ _ _ _ { s with owner := none }
        · exact hself
      · exact hself
    · exact ⟨rfl, fun _ => rfl⟩

/-- The answer goes where the envelope came from. -/
theorem ownerDone_ends (st : Status) (s : State) : OwnerEnds s (ownerDone st s) st := by
  refine ⟨ownerDone_owner st s, fun o ho => ?_⟩
  unfold ownerDone
  rw [ho]
  dsimp only
  cases o.origin with
  | usb p seq => simp [emit]
  | admin p =>
    intro e he hwait
    simp only [he, hwait, beq_self_eq_true, if_true]
    exact adminDone_ends (s := { s with owner := none }) he

/-- The answer of a command that changed neither the owner's command nor the ports. -/
theorem ownerDone_ends_of {s u : State} (st : Status) (howner : u.owner = s.owner) (hports : u.ports = s.ports) :
    OwnerEnds s (ownerDone st u) st := by
  have h := ownerDone_ends st u
  unfold OwnerEnds at h ⊢
  rw [howner, hports] at h
  exact h

theorem sameButAnswer_units {s t : State} (h : SameButAnswer s t) :
    t.mode = s.mode ∧ t.life = s.life ∧ t.faults = s.faults ∧ t.power = s.power ∧ t.slices = s.slices ∧ t.heddle = s.heddle ∧
      t.runs = s.runs ∧ t.draft = s.draft ∧ t.backup = s.backup ∧ t.tamper = s.tamper ∧ t.fuses = s.fuses ∧ t.envelopes = s.envelopes := by
  rw [h.1]
  exact ⟨rfl, rfl, rfl, rfl, rfl, rfl, rfl, rfl, rfl, rfl, rfl, rfl⟩

@[simp] theorem ownerDone_units (st : Status) (s : State) :
    (ownerDone st s).mode = s.mode ∧ (ownerDone st s).life = s.life ∧ (ownerDone st s).faults = s.faults ∧
      (ownerDone st s).power = s.power ∧ (ownerDone st s).slices = s.slices ∧ (ownerDone st s).heddle = s.heddle ∧
      (ownerDone st s).runs = s.runs ∧ (ownerDone st s).draft = s.draft ∧ (ownerDone st s).backup = s.backup ∧
      (ownerDone st s).tamper = s.tamper ∧ (ownerDone st s).fuses = s.fuses ∧ (ownerDone st s).envelopes = s.envelopes :=
  sameButAnswer_units (ownerDone_sameButAnswer st s)

/-! ### Hold -/

/-- Hold entered from Idle or a Serve mode. -/
theorem enterHold_serving {cause : Nat} {s : State} (h : isIdleServe s.mode.base = true) :
    enterHold cause s = setMode .hold cause { s with mode := { s.mode with threading := .none, releasing := false } } := by
  have hhold : s.mode.base ≠ .hold := by rintro hb; simp [hb, isIdleServe, isServe] at h
  have hthreading : s.mode.base ≠ .threading := by rintro hb; simp [hb, isIdleServe, isServe] at h
  simp [enterHold, hhold, hthreading]

/-! ### The commands -/

theorem execHold_next {s : State} (hrun : OwnerRuns s .hold) (hserve : isIdleServe s.mode.base = true) :
    exec .hold s = .next (ownerDone .ok (enterHold 5 s)) := by
  unfold OwnerRuns at hrun
  simp [exec, execHold, hrun, hserve]

theorem execHoldRelease_next {s : State} (hrun : OwnerRuns s .holdRelease) (hrelease : releasable s = true) :
    exec .holdRelease s = .next (ownerStart { s with mode := { s.mode with releasing := true } }) := by
  unfold OwnerRuns at hrun
  simp [exec, execHoldRelease, hrun, hrelease]

theorem execRethread_next {s : State} {src : Byte} (hrun : OwnerRuns s (.rethread src)) (hsrc : src.toNat ≤ 2)
    (hserve : isIdleServe s.mode.base = true) : exec .rethread s = .next (ownerStart (enterHold 6 s)) := by
  unfold OwnerRuns at hrun
  simp [exec, execRethread, hrun, hserve, hsrc]

theorem execRethreadDrainDone_next {s : State} {o : OwnerCommand} {src : Byte} (ho : s.owner = some o) (hop : o.operand = .rethread src)
    (hstarted : o.started = true) (hhold : s.mode.base = .hold) (hidle : ∀ i ∈ s.heddle.items, i.place ≠ .inService)
    (hstands : holdStands s = false) : exec .rethreadDrainDone s = .next (beginRethread src.toNat s) := by
  have hserving : (s.heddle.items.any fun i => i.place == .inService) = false := by simpa using hidle
  simp [exec, execRethreadDrainDone, ho, hop, hstarted, hhold, hserving, hstands]

/-- The re-thread begins to read; slices and keys stand until its self-test. -/
theorem beginRethread_reads {src : Nat} {s : State} (hplan : s.power.plan ≠ .wakeOnly) :
    (beginRethread src s).mode.base = .threading ∧ (beginRethread src s).mode.cause = 6 ∧
      (beginRethread src s).mode.threading = .reading (if src = 2 then s.flash.select else src) false true ∧
      (beginRethread src s).slices = s.slices ∧ (beginRethread src s).runs = s.runs := by
  have hfed : ¬(s.power.plan == .wakeOnly) = true := by simpa using hplan
  simp [beginRethread, beginThreading, disarmStages, setMode, hfed]

/-- Settles O26, command by command. -/
theorem ownerHoldCompletes : Obligations.owner_hold_completes := by
  intro s src o
  refine ⟨fun hrun hserve => ?_, fun hrun hhold hcause hplan => ?_, fun hrun hsrc hserve => ?_, fun ho hop hstarted hhold hidle hstands hplan => ?_⟩
  · refine ⟨_, execHold_next hrun hserve, ?_⟩
    rw [enterHold_serving hserve]
    exact ⟨ownerDone_ends_of .ok rfl rfl, by simp [setMode]⟩
  · have hrelease : releasable s = true := by simp [releasable, hhold, hcause, hplan]
    exact ⟨_, execHoldRelease_next hrun hrelease, rfl, rfl⟩
  · refine ⟨_, execRethread_next hrun hsrc hserve, ?_⟩
    rw [enterHold_serving hserve]
    exact ⟨rfl, rfl, rfl, rfl⟩
  · have hsrc : (src.toNat = 2) = (src = 2) := by rw [← BitVec.toNat_inj]; rfl
    refine ⟨_, execRethreadDrainDone_next ho hop hstarted hhold hidle hstands, ?_⟩
    simpa only [hsrc] using beginRethread_reads (src := src.toNat) hplan

end Sys2Proof.Machine
end

section
/-! PROOFS. An item that has ended stays so while the heddle settles (R73, R142, R174), and the end of a wait for seeds (R73, R116). -/

namespace Sys2Proof.Machine

open Sys2Proof.Claims

/-! ### Numbers in fetch order -/

theorem mem_insertAsc {a b : Nat} {l : List Nat} (h : b ∈ insertAsc a l) : b = a ∨ b ∈ l := by
  induction l with
  | nil => simpa [insertAsc] using h
  | cons c l ih =>
    rw [insertAsc] at h
    split at h
    · simpa using h
    · rcases List.mem_cons.mp h with rfl | h
      · simp
      · rcases ih h with rfl | h <;> simp [*]

/-- The numbers in fetch order are the items' own. -/
theorem mem_idsInOrder {k : Nat} {l : List Item} (h : k ∈ idsInOrder l) : ∃ i ∈ l, i.id = k := by
  induction l with
  | nil => exact absurd h List.not_mem_nil
  | cons i l ih =>
    rcases mem_insertAsc h with rfl | h
    · exact ⟨i, List.mem_cons_self, rfl⟩
    · obtain ⟨j, hj, hk⟩ := ih h
      exact ⟨j, List.mem_cons_of_mem i hj, hk⟩

/-! ### An item that stands ended -/

@[simp] theorem traceRecord_heddle (p : PortId) (engine : Nat) (i : Option Item) (reason cls : Nat) (s : State) :
    (traceRecord p engine i reason cls s).heddle = s.heddle := by
  unfold traceRecord
  dsimp only
  split
  · rfl
  · split <;> rfl

@[simp] theorem traceItem_heddle (reason : Nat) (i : Item) (s : State) : (traceItem reason i s).heddle = s.heddle := traceRecord_heddle ..

/-- There is an item `id`, and every item of that number has ended with this status and no output. -/
def StandsEnded (id : Nat) (st : Status) (s : State) : Prop :=
  (∃ j ∈ s.heddle.items, j.id = id) ∧
    ∀ j ∈ s.heddle.items, j.id = id → j.place = .done ∧ ∃ d, j.done = some d ∧ d.status = st ∧ d.output = []

namespace StandsEnded

variable {id : Nat} {st : Status} {s t : State}

theorem ended (h : StandsEnded id st s) : Ended s id st := by
  obtain ⟨⟨j, hj, hid⟩, hall⟩ := h
  exact ⟨j, hj, hid, hall j hj hid⟩

theorem of_items (h : StandsEnded id st s) (ht : t.heddle.items = s.heddle.items) : StandsEnded id st t := by
  unfold StandsEnded
  rw [ht]
  exact h

theorem find (h : StandsEnded id st s) {i : Item} (hi : findItem s id = some i) : i.place = .done ∧ ∃ d, i.done = some d ∧ d.status = st ∧ d.output = [] :=
  h.2 i (List.mem_of_find?_eq_some hi) (by simpa using List.find?_some hi)

/-- Items are replaced by others of their number, and those of number `id` keep place and completion. -/
theorem modItems (h : StandsEnded id st s) {sel : Item → Bool} {f : Item → Item} (hid : ∀ x, (f x).id = x.id)
    (hkeep : ∀ x, x.id = id → sel x = true → (f x).place = x.place ∧ (f x).done = x.done) : StandsEnded id st (modItems sel f s) := by
  have hput (x : Item) : (if sel x = true then f x else x).id = x.id := by
    split
    · exact hid x
    · rfl
  obtain ⟨⟨j, hj, hjid⟩, hall⟩ := h
  refine ⟨⟨_, List.mem_map_of_mem hj, (hput j).trans hjid⟩, fun k hk hkid => ?_⟩
  obtain ⟨x, hx, rfl⟩ := List.mem_map.mp hk
  have hxid : x.id = id := (hput x).symm.trans hkid
  by_cases hsel : sel x = true
  · obtain ⟨hplace, hdone⟩ := hkeep x hxid hsel
    simpa only [if_pos hsel, hplace, hdone] using hall x hx hxid
  · simpa only [if_neg hsel] using hall x hx hxid

/-- Another item changes. -/
theorem modItem_ne (h : StandsEnded id st s) {k : Nat} (hk : k ≠ id) {f : Item → Item} (hid : ∀ x, (f x).id = x.id) :
    StandsEnded id st (modItem k f s) :=
  h.modItems hid fun _ hx hsel => absurd ((beq_iff_eq.mp hsel).symm.trans hx) hk

theorem foldl {α : Type} {f : State → α → State} {l : List α} (hf : ∀ s, ∀ a ∈ l, StandsEnded id st s → StandsEnded id st (f s a))
    (h : StandsEnded id st s) : StandsEnded id st (l.foldl f s) := by
  induction l generalizing s with
  | nil => exact h
  | cons a l ih => exact ih (fun s b hb => hf s b (List.mem_cons_of_mem a hb)) (hf s a List.mem_cons_self h)

/-! ### Drawers and reports do not reach it -/

theorem eraseTally (h : StandsEnded id st s) (sel : TallyRecord → Bool) : StandsEnded id st (eraseTally sel s) := by
  refine h.of_items ?_
  unfold Machine.eraseTally
  dsimp only
  split <;> rfl

theorem wipeRun (h : StandsEnded id st s) (r : KeyRun) (erase : Bool) : StandsEnded id st (wipeRun r erase s) := by
  unfold Machine.wipeRun
  extract_lets s₁ s₂
  have h₂ : StandsEnded id st s₂ := by
    refine h.of_items ?_
    unfold s₂ s₁
    dsimp only
    split <;> rfl
  split
  · exact h₂.eraseTally _
  · exact h₂

/-- A DELETE that its run's users held back ends; the item, which has its completion, is none of them. -/
theorem settleRuns (h : StandsEnded id st s) : StandsEnded id st (settleRuns s) := by
  refine foldl (fun s r _ h => ?_) h
  have hunused : StandsEnded id st (if r.claimed.isSome && (runUsers s r).isEmpty then Machine.wipeRun r true s else s) := by
    split
    · exact h.wipeRun r true
    · exact h
  dsimp only
  split
  · next k _ =>
    split
    · next i hi =>
      split
      · next hwaits =>
        split
        · refine (h.wipeRun r true).modItem_ne (fun hk => ?_) fun _ => rfl
          subst hk
          obtain ⟨-, d, hd, -⟩ := h.find hi
          simp [hd] at hwaits
        · exact h
      · exact hunused
    · exact hunused
  · exact hunused

theorem raise (h : StandsEnded id st s) (ev : Nat) (d : BitVec 64) : StandsEnded id st (raise ev d s) := h.of_items (by simp)

theorem traceRecord (h : StandsEnded id st s) (p : PortId) (engine : Nat) (i : Option Item) (reason cls : Nat) :
    StandsEnded id st (traceRecord p engine i reason cls s) :=
  h.of_items (by simp)

theorem traceItem (h : StandsEnded id st s) (reason : Nat) (i : Item) : StandsEnded id st (traceItem reason i s) := h.traceRecord ..

/-! ### The settling -/

theorem takeScratch (h : StandsEnded id st s) (k : Nat) : StandsEnded id st (takeScratch k s) := by
  unfold Machine.takeScratch
  split
  · exact h
  · split
    · exact h
    · split
      · exact h.modItems (fun _ => rfl) fun _ _ _ => ⟨rfl, rfl⟩
      · exact h

theorem enterList (h : StandsEnded id st s) {k : Nat} (hk : k ≠ id) : StandsEnded id st (enterList k s) := by
  unfold Machine.enterList
  split
  · exact h
  · next i hi =>
    have hiid : i.id = k := by simpa using List.find?_some hi
    refine StandsEnded.traceItem ?_ _ _
    obtain ⟨⟨j, hj, hjid⟩, hall⟩ := h
    refine ⟨⟨j, List.mem_append_left _ (List.mem_filter.mpr ⟨hj, ?_⟩), hjid⟩, fun x hx hxid => ?_⟩
    · simpa [hjid] using hk.symm
    · rcases List.mem_append.mp hx with hx | hx
      · exact hall x (List.mem_filter.mp hx).1 hxid
      · rw [List.mem_singleton.mp hx] at hxid
        exact absurd (hiid.symm.trans hxid) hk

theorem park (h : StandsEnded id st s) (full : Bool) {k : Nat} (hk : k ≠ id) : StandsEnded id st (park full k s) := by
  unfold Machine.park
  split
  · exact h
  · have hpark (i : Item) := (h.modItem_ne hk (f := fun x => { x with place := .parked }) fun _ => rfl).traceItem 0x02 i
    dsimp only
    split
    · exact (hpark _).raise _ _
    · exact hpark _

theorem offer (h : StandsEnded id st s) {k : Nat} (hk : k ≠ id) : StandsEnded id st (offer k s) := by
  have hscratch := h.takeScratch k
  unfold Machine.offer
  dsimp only
  split
  · exact hscratch
  · split
    · exact hscratch.enterList hk
    · split
      · exact hscratch
      · exact hscratch.park _ hk

/-- An item of another place has another number. -/
theorem ne_of_place (h : StandsEnded id st s) {pl : Place} (hpl : pl ≠ .done) {k : Nat}
    (hk : k ∈ idsInOrder (s.heddle.items.filter fun i => i.place == pl)) : k ≠ id := by
  rintro rfl
  obtain ⟨i, hi, hid⟩ := mem_idsInOrder hk
  obtain ⟨hi, hplace⟩ := List.mem_filter.mp hi
  exact hpl ((beq_iff_eq.mp hplace).symm.trans (h.2 i hi hid).1)

theorem retryParked (h : StandsEnded id st s) : StandsEnded id st (retryParked s) := by
  have hoffers {s : State} (h : StandsEnded id st s) {pl : Place} (hpl : pl ≠ .done) :
      StandsEnded id st ((idsInOrder (s.heddle.items.filter fun i => i.place == pl)).foldl (fun s k => Machine.offer k s) s) :=
    h.foldl fun s k hk hs => hs.offer (h.ne_of_place hpl hk)
  have hparked := hoffers h (pl := .parked) (by decide)
  unfold Machine.retryParked
  dsimp only
  split
  · exact hoffers hparked (by decide)
  · exact hparked

theorem settleCredit (h : StandsEnded id st s) : StandsEnded id st (settleCredit s) := by
  refine h.foldl fun s p _ h => ?_
  dsimp only
  split
  · exact h
  · exact (h.of_items (t := modPort p _ s) rfl).traceRecord ..

theorem issueRead (h : StandsEnded id st s) (q : Queue) (n : Nat) : StandsEnded id st (issueRead q n s) := by
  refine h.of_items ?_
  unfold Machine.issueRead askPages
  dsimp only
  split <;> rfl

theorem pumpScans (h : StandsEnded id st s) : StandsEnded id st (pumpScans s) := by
  refine h.foldl fun s q _ h => ?_
  split
  · exact h
  · split
    · exact h.issueRead _ _
    · exact h

theorem markOldest (h : StandsEnded id st s) : StandsEnded id st (markOldest s) := by
  refine h.modItems (fun x => ?_) fun x _ _ => ?_
  · split <;> rfl
  · split <;> exact ⟨rfl, rfl⟩

theorem settleDrains (h : StandsEnded id st s) : StandsEnded id st (settleDrains s) := by
  refine h.foldl fun s p _ h => ?_
  dsimp only
  split
  · exact h
  · exact (h.of_items (t := modPort p _ s) rfl).foldl fun s _ _ h => h.of_items rfl

theorem settleAfterLeave (h : StandsEnded id st s) : StandsEnded id st (settleAfterLeave s) :=
  h.retryParked.settleCredit.pumpScans.markOldest.settleDrains

end StandsEnded

theorem endItem_standsEnded {id : Nat} {d : Done} {s : State} (eng : Nat) (h : ∃ i ∈ s.heddle.items, i.id = id) (hd : d.output = []) :
    StandsEnded id d.status (endItem id d eng s) := by
  obtain ⟨i, hi, hid⟩ := h
  refine StandsEnded.settleRuns ⟨⟨_, List.mem_map_of_mem hi, by simp [hid]⟩, fun k hk hkid => ?_⟩
  obtain ⟨x, -, rfl⟩ := List.mem_map.mp hk
  by_cases hx : x.id = id
  · simp [hx, hd]
  · simp [hx] at hkid

/-- An item that has not committed ends with its status and no output. -/
theorem failItem_standsEnded (st : Status) {i : Item} {s : State} (hi : i ∈ s.heddle.items) : StandsEnded i.id st (failItem st i s) :=
  endItem_standsEnded (d := { status := st, result := failWord i }) 0 ⟨_, List.mem_map_of_mem hi, by simp⟩ rfl

/-! ### The end of the wait -/

theorem execSeedWaitTimeout_seeded {id : Nat} {s : State} (h : s.mode.seeded = true) : exec (.seedWaitTimeout id) s = .next s := by
  simp [exec, execSeedWaitTimeout, h]

theorem execSeedWaitTimeout_item {id : Nat} {i : Item} {s : State} (h : s.mode.seeded = false) (hi : findItem s id = some i)
    (hmoves : portStopped s i.port = false) (hwaits : i.place = .seedWait ∨ (i.place = .parked ∧ needsRandom s i = true)) :
    exec (.seedWaitTimeout id) s = .next (settleAfterLeave (failItem .entropyWaitTimeout i (raise0 0x113 (traceItem 0x0A i s)))) := by
  simp [exec, execSeedWaitTimeout, h, hi, hmoves, hwaits]

theorem execSeedWaitTimeout_admin {id : Nat} {p : PortId} {x : AdminEntry} {s : State} (h : s.mode.seeded = false)
    (hi : findItem s id = none) (hx : adminWith s id = some (p, x)) (hwaits : x.wait = .seed) :
    exec (.seedWaitTimeout id) s = .next (if portStopped s p = true then s else adminDone p .entropyWaitTimeout 0 [] s) := by
  cases hstop : portStopped s p <;> simp [exec, execSeedWaitTimeout, h, hi, hx, hwaits, hstop]

theorem execSeedWaitTimeout_challenge {id : Nat} {p : PortId} {q : BitVec 16} {s : State} (h : s.mode.seeded = false)
    (hi : findItem s id = none) (hx : adminWith s id = none) (hc : (s.life.challenges.find? fun c => c.1 == id) = some (id, p, q)) :
    exec (.seedWaitTimeout id) s = .next (emit (.usb p 0x0030 q .entropyWaitTimeout [])
      { s with life := { s.life with challenges := s.life.challenges.filter fun c => !(c.1 == id) } }) := by
  simp [exec, execSeedWaitTimeout, h, hi, hx, hc]

/-- The admin entry with a number stands in its port's queue. -/
theorem adminWith_entry {id : Nat} {p : PortId} {x : AdminEntry} {s : State} (h : adminWith s id = some (p, x)) :
    s.ports[p.val].admin.entry = some x := by
  obtain ⟨q, -, hq⟩ := List.exists_of_findSome?_eq_some h
  split at hq
  · split at hq
    · next e he _ =>
      obtain ⟨rfl, rfl⟩ := Prod.mk.inj (Option.some.inj hq)
      exact he
    · cases hq
  · cases hq

/-- Settles O34, by what waits: an item, an admin command, a challenge. -/
theorem seedWaitCompletes : Obligations.seed_wait_completes := by
  intro s id i p x q _
  refine ⟨execSeedWaitTimeout_seeded, fun hseed hi => ⟨fun hstop => ?_, fun hmoves hwaits => ?_⟩,
    fun hseed hi hx hwaits => ⟨fun hstop => ?_, fun hmoves => ?_⟩, fun hseed hi hx hc => ?_⟩
  · simp [exec, execSeedWaitTimeout, hseed, hi, hstop]
  · refine ⟨_, execSeedWaitTimeout_item hseed hi hmoves hwaits, StandsEnded.ended (StandsEnded.settleAfterLeave ?_)⟩
    have hid : i.id = id := by simpa using List.find?_some hi
    rw [← hid]
    refine failItem_standsEnded _ ?_
    simpa using List.mem_of_find?_eq_some hi
  · rw [execSeedWaitTimeout_admin hseed hi hx hwaits, if_pos hstop]
  · refine ⟨_, execSeedWaitTimeout_admin hseed hi hx hwaits, ?_⟩
    rw [if_neg (by simp [hmoves])]
    exact ⟨adminDone_ends (adminWith_entry hx), adminDone_sameButAnswer _ _ _ _ s⟩
  · exact ⟨_, execSeedWaitTimeout_challenge hseed hi hx hc, rfl, rfl⟩

end Sys2Proof.Machine
end

section
/-! PROOFS. The management commands over USB 2.0 (R75, R76, R121, R522, R531 to R536): reads, the owner's envelope, the recovery image's
parts, the debug challenge and its response. -/

namespace Sys2Proof.Machine

open Sys2Proof.Claims

theorem onUsb_open {p : PortId} {act : State → State} {s : State} (h : usbOpen s p = true) : onUsb p act s = act s := by
  simp [onUsb, h]

/-! ### Reads (R76, R522) -/

theorem getStatus_status (p : PortId) (q : BitVec 16) (s : State) :
    getStatus p ⟨q, 0x0001⟩ s = emit (.usb p 0x0001 q .ok ([modStatus s, modStraps s, modBootTime s, pwrPlan s].flatMap wordBytes)) s := by
  simp [getStatus]

/-- A code that R76 does not list. -/
theorem getStatus_unlisted {code : BitVec 16} (p : PortId) (q : BitVec 16) (s : State)
    (h : code.toNat ∉ [0x0001, 0x0002, 0x0003, 0x0010, 0x0020, 0x0030, 0x0031]) :
    getStatus p ⟨q, code⟩ s = emit (.usb p code.toNat q .opUnsupported []) s := by
  obtain ⟨hstatus, hother⟩ : code.toNat ≠ 0x0001 ∧ code.toNat ∉ otherUsbCodes := by simpa [otherUsbCodes] using h
  have hcode : code ≠ 0x0001 := by
    rintro rfl
    exact hstatus rfl
  exact (if_neg hcode).trans (if_neg (by simpa using hother))

@[simp] theorem wordBytes_length (w : Word) : (wordBytes w).length = 4 := by simp [wordBytes]

/-- Pieces of one length, one after the other. -/
theorem slice_flatMap_range {n m : Nat} {f : Nat → Bytes} (hf : ∀ i, (f i).length = n) {k : Nat} (hk : k < m) :
    slice_ ((List.range m).flatMap f) (n * k) n = f k := by
  induction m generalizing k f with
  | zero => omega
  | succ m ih =>
    rw [List.range_succ_eq_map, List.flatMap_cons, List.flatMap_map]
    cases k with
    | zero => simp [slice_, hf]
    | succ k =>
      have hskip : n * (k + 1) = (f 0).length + n * k := by rw [hf, Nat.mul_succ, Nat.add_comm]
      rw [slice_, hskip, List.drop_length_add_append]
      exact ih (f := fun i => f (i + 1)) (fun i => hf _) (by omega)

theorem blockBytes_length {len : Nat} (s : State) (p : PortId) (off : Nat) (h : len % 4 = 0) : (blockBytes s p off len).length = len := by
  simp [blockBytes, List.length_flatMap]
  omega

/-- Dword `k` of a block is the register there. -/
theorem blockBytes_register {len k : Nat} (s : State) (p : PortId) (off : Nat) (hlen : len % 4 = 0) (hk : 4 * k < len) :
    slice_ (blockBytes s p off len) (4 * k) 4 = wordBytes (readReg s p (off + 4 * k)) :=
  slice_flatMap_range (f := fun i => wordBytes (readReg s p (off + 4 * i))) (fun _ => wordBytes_length _) (by omega)

theorem execReadBlock_next {p : PortId} {q : BitVec 16} {off len : Nat} {s : State} (hopen : usbOpen s p = true) (ho : off % 4 = 0)
    (hl : len % 4 = 0) (hpos : 0 < len) (hmax : len ≤ 4096) (hblock : blockOpen off len = true) :
    exec (.readBlock p q off len) s = .next (emit (.usb p 0x0002 q .ok (blockBytes s p off len)) s) := by
  simp [exec, execReadBlock, onUsb_open hopen, ho, hl, hpos, hmax, hblock]

theorem usbLogRead_records {p : PortId} {q : BitVec 16} {f c : Word} {s : State} (hlost : s.mode.stewardLost = false) (hpos : 0 < c.toNat)
    (hmax : c.toNat ≤ 4096) : usbLogRead p q 8 f c s = emit (.usb p 0x0003 q .ok ((logSelect f c.toNat s).flatMap recordBytes)) s := by
  have hc : c ≠ 0 := by
    rintro rfl
    exact absurd hpos (by decide)
  have hbad : ¬(8 ≠ 8 ∨ c = 0 ∨ 4096 < c.toNat) := by
    rintro (h | h | h)
    · exact h rfl
    · exact hc h
    · omega
  rw [usbLogRead, if_neg (by simp [hlost]), if_neg hbad]

/-! ### What the steward takes up (R121, R536) -/

theorem arriveWork_taken {p : PortId} {q : BitVec 16} {w : StewardWork} {s : State} (hbusy : stewardBusy s = false)
    (hnone : s.envelopes = []) : arriveWork p q w s = takeWork p q w s := by
  simp [arriveWork, hbusy, hnone]

/-- It waits behind those that came before it. -/
theorem arriveWork_waits {p : PortId} {q : BitVec 16} {w : StewardWork} {s : State} (hlost : s.mode.stewardLost = false)
    (hbusy : stewardBusy s = true) : arriveWork p q w s = { s with envelopes := s.envelopes ++ [{ port := p, seq := q, work := w }] } := by
  have htaken {l : List WaitingEnvelope} : takeWaiting { s with envelopes := l } = { s with envelopes := l } := by
    have hbusy' : stewardBusy { s with envelopes := l } = true := hbusy
    cases l <;> simp [takeWaiting, hbusy']
  simp [arriveWork, hlost, hbusy, htaken]

theorem signedAdmin_accepts {p : PortId} {q : BitVec 16} {e : Envelope} {op : OwnerOperand} {s : State} (hlost : s.mode.stewardLost = false)
    (hzeroized : s.mode.base ≠ .zeroized) (hscrapped : s.life.state ≠ 5) (hlen : e.length ≤ 1048576) (hform : envelopeForm e = true)
    (haccepted : envelopeAccepted s e = true) (hop : innerOperand (envCode e) e.body = some op) :
    signedAdmin p q e s = acceptEnvelope p (.usb p q) e op s := by
  simp [signedAdmin, takeEnvelope, hlost, hzeroized, hscrapped, hlen, hform, haccepted, hop]

/-- The sequence number rises, and the inner command is in hand. -/
theorem acceptEnvelope_inHand {p : PortId} {o : OwnerOrigin} {e : Envelope} {op : OwnerOperand} {s : State} (hheld : heldInWake s = false) :
    (acceptEnvelope p o e op s).backup.chest.seq = envSeq e ∧
      (acceptEnvelope p o e op s).owner =
        some { origin := o, seq := envSeq e, operand := op, clears := s.backup.sticky &&& ~~~s.tamper.active } := by
  unfold acceptEnvelope
  extract_lets s₁ s₂ s₃
  have hheld₃ : heldInWake s₃ = false := by
    have hlife : s₃.life = s.life := by simp [s₃, s₂, s₁, writeChest]
    have hmode : s₃.mode = s.mode := by simp [s₃, s₂, s₁, writeChest]
    simpa [heldInWake, bootStrap, hlife, hmode] using hheld
  rw [if_neg (by simp [hheld₃])]
  simp [s₃, s₂, s₁, writeChest]

/-! ### The debug challenge and its response (R531, R533) -/

theorem giveNonce_answers (p : PortId) (q : BitVec 16) (s : State) :
    ∃ n : Bytes, n.length = 32 ∧ (giveNonce p q s).life = { s.life with nonce := some n } ∧
      (giveNonce p q s).out = s.out ++ [.usb p 0x0030 q .ok n] :=
  ⟨(draw inst16 32 s).1, draw_length inst16 32 s, rfl, rfl⟩

theorem debugChallenge_answers {p : PortId} {q : BitVec 16} {s : State} (hlost : s.mode.stewardLost = false)
    (hmode : s.mode.base = .wake ∨ s.mode.base = .hold) (hbobbin : bobbinFailed s = false) (hdraws : stewardDraws s = true) :
    debugChallenge p q s = giveNonce p q s := by
  rcases hmode with hmode | hmode <;> simp [debugChallenge, hlost, hmode, hbobbin, hdraws]

theorem reachCard_keepsCards (c : CardSlot) (s : State) : Frame.cards.Keeps s (reachCard c s) := by
  unfold reachCard
  extract_lets x _ s₁ s₂ s₃ s₄
  have h₁ : Frame.cards.Keeps s s₁ := by
    unfold s₁
    split <;> rfl
  have h₂ : Frame.cards.Keeps s s₂ := h₁.trans (modCard_keepsCards c _ s₁)
  have h₃ : Frame.cards.Keeps s s₃ := by
    refine .trans ?_ (sendCard_keepsCards ..)
    split
    · exact h₂.trans (sendCard_keepsCards ..)
    · exact h₂
  have h₄ : Frame.cards.Keeps s s₄ :=
    h₃.trans ((sendCard_keepsCards ..).trans ((sendCard_keepsCards ..).trans (sendCard_keepsCards ..)))
  split
  · exact .refl s
  · split
    · exact (h₄.trans (sendSwitch_keepsCards c s₄)).trans (modCard_keepsCards c _ _)
    · exact h₄

theorem readQuorum_keepsCards (s : State) : Frame.cards.Keeps s (readQuorum s) := by
  refine .trans (t := { s with cards := { s.cards with quorumCut := false } }) rfl (.foldl (fun s c => ?_) _ _)
  split
  · exact (reachCard_keepsCards c s).trans ((attachCard_keepsCards c _).trans ((readRun_keepsCards c _ _ _).trans (leaveCard_keepsCards c _)))
  · exact .refl s

@[simp] theorem readQuorum_units (s : State) :
    (readQuorum s).mode = s.mode ∧ (readQuorum s).life = s.life ∧ (readQuorum s).owner = s.owner := by
  rw [readQuorum_keepsCards s]
  exact ⟨rfl, rfl, rfl⟩

@[simp] theorem setMode_life (m : Mode) (cause : Nat) (s : State) : (setMode m cause s).life = s.life := rfl

@[simp] theorem beginThreading_life (src : Nat) (other re : Bool) (cause : Nat) (s : State) :
    (beginThreading src other re cause s).life = s.life := rfl

@[simp] theorem leaveWake_life (s : State) : (leaveWake s).life = s.life := by
  unfold leaveWake
  (repeat' split) <;> rfl

/-- Test-Root sets the debug flag, and keeps the rest of the life cycle. -/
theorem enterTestRoot_life (s : State) : (enterTestRoot s).life = { s.life with debug := true } := by
  have hwipe : (abandonAdmin .keyPolicy (destroyAllSlices (clearDrawers s))).life = s.life :=
    (work_units ((clearDrawers_keepsWork s).trans ((destroyAllSlices_keepsWork _).trans (abandonAdmin_keepsWork .keyPolicy _)))).2.1
  unfold enterTestRoot
  dsimp only
  split <;> simp [hwipe]

/-- The nonce is consumed and the attempt counted with its result, whatever the token says. -/
theorem debugResponse_life {p : PortId} {q : BitVec 16} {k : Token} {s : State} (hlost : s.mode.stewardLost = false) :
    (debugResponse p q k s).life.nonce = none ∧ (debugResponse p q k s).life.attempts = min 255 (s.life.attempts + 1) ∧
      (debugResponse p q k s).life.result = tokenResult s k := by
  unfold debugResponse
  extract_lets r stood s₁ l s₂
  have h₂ : s₂.life = { s.life with result := r, nonce := none, attempts := min 255 (s.life.attempts + 1) } := by
    have h₁ : s₁.life = s.life := by
      unfold s₁
      split <;> simp
    simp [s₂, useNonce, satAdd, l, h₁]
  simp only [hlost, Bool.false_eq_true, if_false]
  (repeat' split) <;> simp [h₂, quorumFails, enterTestRoot_life, beginTransition, r]

theorem debugResponse_returns {p : PortId} {q : BitVec 16} {k : Token} {s : State} (hlost : s.mode.stewardLost = false)
    (hr : tokenResult s k = 0) (hpurpose : tokenPurpose k = 2) :
    (debugResponse p q k s).life.transition = some { target := 4, byToken := some (p, q) } := by
  simp [debugResponse, hlost, hr, hpurpose, beginTransition]

/-- A token that fails a check changes neither the mode nor the debug flag. -/
theorem debugResponse_refuses {p : PortId} {q : BitVec 16} {k : Token} {s : State} (hlost : s.mode.stewardLost = false)
    (hr : tokenResult s k ≠ 0) : (debugResponse p q k s).life.debug = s.life.debug ∧ (debugResponse p q k s).mode = s.mode := by
  unfold debugResponse
  extract_lets r stood s₁ l s₂
  have h₂ : s₂.life.debug = s.life.debug ∧ s₂.mode = s.mode := by
    have h₁ : s₁.life = s.life ∧ s₁.mode = s.mode := by
      unfold s₁
      split <;> simp
    simp [s₂, useNonce, l, h₁]
  have hr₀ : (r != 0) = true := by simpa [r] using hr
  simp only [hlost, Bool.false_eq_true, if_false, hr₀, if_true]
  (repeat' split) <;> simp [h₂, quorumFails]

/-- Settles O23, command by command. -/
theorem usbComplete : Obligations.usb_complete := by
  refine ⟨fun s p q off len f c hopen => ⟨?_, fun ho hl hpos hmax _ hblock => ?_, fun code hcode => ?_, fun hlost hpos hmax => ?_⟩,
    fun s p q env op part k hopen hlost =>
      ⟨fun hzeroized hscrapped hbusy hlen hnone hform haccepted hop hheld => ?_, fun hp hmode hlen => ?_, fun hmode hbobbin hdraws => ?_,
        fun hbusy hnone => ?_, fun hbusy => ?_⟩⟩
  · simp only [exec, execGetStatus, onUsb_open hopen, getStatus_status]
    rfl
  · exact ⟨_, execReadBlock_next hopen ho hl hpos hmax hblock, blockBytes_length s p off hl, fun k hk => blockBytes_register s p off hl hk⟩
  · simp only [exec, execGetStatus, onUsb_open hopen, getStatus_unlisted p q s hcode]
    rfl
  · refine ⟨_, rfl, ?_⟩
    simp only [exec, execLogRead, onUsb_open hopen, usbLogRead_records hlost hpos hmax]
    rfl
  · refine ⟨acceptEnvelope p (.usb p q) env op s, ?_, acceptEnvelope_inHand hheld⟩
    simp only [exec, execSignedAdmin, onUsb_open hopen, arriveWork_taken hbusy hnone, takeWork,
      signedAdmin_accepts hlost hzeroized hscrapped hlen hform haccepted hop]
  · subst hp
    simp [exec, execRecoveryLoad, onUsb_open hopen, recoveryLoad, hmode, Nat.not_lt.mpr hlen, emit]
  · obtain ⟨n, hn, hlife, hout⟩ := giveNonce_answers p q s
    refine ⟨giveNonce p q s, n, ?_, hn, hlife, hout⟩
    simp only [exec, execDebugChallenge, onUsb_open hopen, debugChallenge_answers hlost hmode hbobbin hdraws]
  · obtain ⟨hnonce, hattempts, hresult⟩ := debugResponse_life (p := p) (q := q) (k := k) hlost
    refine ⟨debugResponse p q k s, ?_, hnonce, hattempts, hresult, fun hr hpurpose => debugResponse_returns hlost hr hpurpose,
      fun hr => debugResponse_refuses hlost hr⟩
    simp only [exec, execDebugResponse, onUsb_open hopen, arriveWork_taken hbusy hnone, takeWork]
  · simp only [exec, execDebugResponse, onUsb_open hopen, arriveWork_waits hlost hbusy]

end Sys2Proof.Machine
end

section
/-! PROOFS. Correctable and uncorrectable errors (R487, R490 to R495): what a report captures, what stays fenced, and what the warden
takes over (R496, R497). -/

namespace Sys2Proof.Machine

open Sys2Proof.Claims

/-! ### First-error capture (R488, R490) -/

theorem report_reported {src : Nat} (ue : Bool) (s : State) (h : src < 128) : Reported (report src ue s) src := by
  unfold report
  dsimp only
  split
  · exact ⟨getLsbD_setBit_self _ h, by assumption⟩
  · exact ⟨getLsbD_setBit_self _ h, rfl⟩

/-- A report writes the capture registers alone. -/
theorem report_frame (src : Nat) (ue : Bool) (s : State) : report src ue s = { s with faults := (report src ue s).faults } := by
  unfold report
  dsimp only
  split <;> rfl

theorem reported_of_capture {src : Nat} {s t : State} (h : Reported s src) (hsticky : t.faults.sticky = s.faults.sticky)
    (hfirst : t.faults.firstValid = s.faults.firstValid) : Reported t src := by
  unfold Reported
  rw [hsticky, hfirst]
  exact h

theorem reported_of_faults {src : Nat} {s t : State} (h : Reported s src) (hfaults : t.faults = s.faults) : Reported t src :=
  reported_of_capture h (by rw [hfaults]) (by rw [hfaults])

/-- A report fences nothing, and neither counts nor takes the module over. -/
@[simp] theorem report_fences (src : Nat) (ue : Bool) (s : State) :
    (report src ue s).faults.ceCount = s.faults.ceCount ∧ (report src ue s).faults.bench = s.faults.bench ∧
      (report src ue s).faults.port = s.faults.port ∧ (report src ue s).looms = s.looms ∧ (report src ue s).mode = s.mode ∧
      (report src ue s).backup = s.backup ∧ (report src ue s).farm = s.farm := by
  unfold report
  dsimp only
  split <;> exact ⟨rfl, rfl, rfl, rfl, rfl, rfl, rfl⟩

/-! ### Correctable errors (R490) -/

/-- What a correctable error may change: the capture registers and its count, the log, and the cabinet's count. -/
def Frame.corrected : Frame where
  take u s := { s with
    faults := u.faults
    cabinet := u.cabinet
    log := u.log
    flash := u.flash
    backup := { u.backup with chest := s.backup.chest } }
  self _ := rfl
  last _ _ _ := rfl

theorem raise_keepsCorrected (ev : Nat) (d : BitVec 64) (s : State) : Frame.corrected.Keeps s (raise ev d s) := by
  obtain ⟨_, _, _, _, h⟩ := raise_touches ev d s
  rw [h]
  rfl

theorem correctedEvent_keepsCorrected (src : Nat) (s : State) : Frame.corrected.Keeps s (correctedEvent src s) := by
  unfold correctedEvent
  (repeat' split)
  case isFalse.isFalse.isFalse.isFalse.isFalse.isTrue => exact .trans (t := { s with cabinet := _ }) rfl (raise_keepsCorrected _ _ _)
  all_goals exact raise_keepsCorrected _ _ s

theorem correctedEvent_faults (src : Nat) (s : State) : (correctedEvent src s).faults = s.faults := by
  unfold correctedEvent
  (repeat' split) <;> simp

theorem correctable_keepsCorrected (src : Nat) (s : State) : Frame.corrected.Keeps s (correctable src s) := by
  have hreport : Frame.corrected.Keeps s (report src false s) := by
    rw [report_frame]
    rfl
  have hcount : Frame.corrected.Keeps s
      { report src false s with
        faults := { (report src false s).faults with ceCount := satAdd 4294967295 (report src false s).faults.ceCount 1 } } :=
    hreport.trans rfl
  exact hcount.trans (correctedEvent_keepsCorrected src _)

theorem correctable_faults (src : Nat) (s : State) :
    (correctable src s).faults = { (report src false s).faults with ceCount := min 4294967295 (s.faults.ceCount + 1) } := by
  rw [correctable, correctedEvent_faults]
  simp [satAdd]

/-! ### A loom's fence stays (R491) -/

/-- What no step of a fold changes reads the same after it. -/
theorem foldl_reads {α β : Type} {f : State → α → State} (g : State → β) (h : ∀ s a, g (f s a) = g s) (l : List α) (s : State) :
    g (l.foldl f s) = g s := by
  induction l generalizing s with
  | nil => rfl
  | cons a l ih => exact (ih _).trans (h s a)

theorem leaveStores_looms (i : Item) (s : State) : (leaveStores i s).looms = s.looms := by
  unfold leaveStores modContext
  (repeat' split) <;> rfl

theorem eraseTally_looms (sel : TallyRecord → Bool) (s : State) : (eraseTally sel s).looms = s.looms := by
  unfold eraseTally
  dsimp only
  split <;> rfl

theorem wipeRun_looms (r : KeyRun) (erase : Bool) (s : State) : (wipeRun r erase s).looms = s.looms := by
  unfold wipeRun
  dsimp only
  split
  · refine (eraseTally_looms _ _).trans ?_
    dsimp only
    split <;> rfl
  · dsimp only
    split <;> rfl

theorem settleRuns_looms (s : State) : (settleRuns s).looms = s.looms := by
  refine foldl_reads State.looms (fun s r => ?_) _ s
  dsimp only
  (repeat' split) <;> simp [wipeRun_looms]

theorem resumeTrestle_looms (i : Item) (s : State) : (resumeTrestle i s).looms = s.looms := by
  unfold resumeTrestle
  split
  · rfl
  · split
    · rfl
    · exact foldl_reads State.looms (f := fun s (x : Item) => holdTrestle _ (moduleIndex x.port x.slice) s) (fun _ _ => rfl) _ s

/-- The settling touches neither the capture registers nor the fences, the looms, the farm or the owner's command. -/
theorem settling_faults {s t : State} (h : Frame.settling.Keeps s t) :
    t.faults = s.faults ∧ t.looms = s.looms ∧ t.farm = s.farm ∧ t.owner = s.owner := by
  rw [h]
  exact ⟨rfl, rfl, rfl, rfl⟩

@[simp] theorem settleAfterLeave_faults (s : State) :
    (settleAfterLeave s).faults = s.faults ∧ (settleAfterLeave s).looms = s.looms ∧ (settleAfterLeave s).farm = s.farm ∧
      (settleAfterLeave s).owner = s.owner :=
  settling_faults (settleAfterLeave_keepsSettling s)

/-- A change of a loom that keeps its fence keeps every loom's. -/
theorem modLoom_fenced {m : LoomId} {f : Loom → Loom} (hf : ∀ l, (f l).fenced = l.fenced) (n : LoomId) (s : State) :
    (modLoom m f s).looms[n.val].fenced = s.looms[n.val].fenced := by
  by_cases h : m = n
  · subst h
    simp [hf]
  · have hne : m.val ≠ n.val := fun hv => h (Fin.ext hv)
    simp [modLoom, Vector.getElem_set_ne _ _ hne]

theorem leaveUnits_fenced (i : Item) (n : LoomId) (s : State) : (leaveUnits i s).looms[n.val].fenced = s.looms[n.val].fenced := by
  have hstores : (leaveStores i s).looms[n.val].fenced = s.looms[n.val].fenced := by rw [leaveStores_looms]
  unfold leaveUnits
  split
  · exact (modLoom_fenced (by intro _; rfl) n _).trans hstores
  · exact hstores

theorem countAbandon_fenced (i : Item) (n : LoomId) (s : State) : (countAbandon i s).looms[n.val].fenced = s.looms[n.val].fenced := by
  unfold countAbandon
  extract_lets s₁ s₂
  have h₂ : s₂.looms[n.val].fenced = s.looms[n.val].fenced := by
    refine .trans ?_ (leaveUnits_fenced i n s)
    unfold s₂
    split
    · exact modLoom_fenced (by intro _; rfl) n s₁
    all_goals rfl
  split <;> exact h₂

theorem failInService_fenced (st : Status) (cycles : Nat) (i : Item) (n : LoomId) (s : State) :
    (failInService st cycles i s).looms[n.val].fenced = s.looms[n.val].fenced := by
  refine .trans ?_ (leaveUnits_fenced i n s)
  rw [failInService, endItem, settleRuns_looms]
  rfl

theorem restartCoded_fenced (code : Nat) (fault : Bool) (excl : List Engine) (i : Item) (n : LoomId) (s : State) :
    (restartCoded code fault excl i s).looms[n.val].fenced = s.looms[n.val].fenced := by
  unfold restartCoded
  extract_lets s₁ s₂ i'
  have h₂ : s₂.looms[n.val].fenced = s.looms[n.val].fenced := by
    obtain ⟨-, hlooms, -⟩ := settling_faults (traceItem_keepsSettling code i s₁)
    rw [hlooms, resumeTrestle_looms]
    exact countAbandon_fenced i n s
  split
  · exact (failInService_fenced _ _ _ n _).trans h₂
  · exact h₂

theorem restartWhere_fenced (code : Nat) (fault : Bool) (sel : Engine → Bool) (n : LoomId) (s : State) :
    (restartWhere code fault sel s).looms[n.val].fenced = s.looms[n.val].fenced := by
  refine foldl_reads (fun s => s.looms[n.val].fenced) (fun s i => ?_) _ s
  dsimp only
  split
  · exact restartCoded_fenced _ _ _ _ n s
  · rfl

@[simp] theorem degrade_faults (cause : Nat) (s : State) : (degrade cause s).faults = s.faults := by
  unfold degrade
  split <;> rfl

@[simp] theorem degrade_looms (cause : Nat) (s : State) : (degrade cause s).looms = s.looms := by
  unfold degrade
  split <;> rfl

/-- The fence lines of benches, trestles and selvedge units. -/
theorem fenceUnits_faults (fault : Bool) (benches : BitVec 16) (looms : List LoomId) (trestles : BitVec 8) (selvs : BitVec 4) (s : State) :
    (fenceUnits fault benches looms trestles selvs s).faults =
      { s.faults with bench := s.faults.bench ||| benches, trestle := s.faults.trestle ||| trestles, selv := s.faults.selv ||| selvs } := by
  unfold fenceUnits
  extract_lets sel faults s₁ s₂ s₃
  have h₃ : s₃.faults = s₁.faults := by
    obtain ⟨-, -, -, -, -, -, -, -, hfaults, -⟩ := work_units (restartWhere_keepsWork 0x07 fault sel s₂)
    exact hfaults.trans (foldl_reads State.faults (f := fun s n => modLoom n _ s) (fun _ _ => rfl) looms s₁)
  split
  · exact h₃
  · exact (degrade_faults 3 s₃).trans h₃

theorem fenceUnits_reported {src : Nat} {s : State} (h : Reported s src) (fault : Bool) (benches : BitVec 16) (looms : List LoomId)
    (trestles : BitVec 8) (selvs : BitVec 4) : Reported (fenceUnits fault benches looms trestles selvs s) src := by
  exact reported_of_capture h (by rw [fenceUnits_faults]) (by rw [fenceUnits_faults])

/-- A single loom's fence. -/
theorem fenceUnits_loom (n : LoomId) (s : State) : (fenceUnits true 0 [n] 0 0 s).looms[n.val].fenced = true := by
  simp [fenceUnits, restartWhere_fenced]

/-! ### An uncorrectable error alone on its cycle (R57, R490) -/

theorem errorAct_alone (r : UeReport) (s : State) : errorAct [.ue r] r s = uncorrectable r s := by
  cases r <;> rfl

theorem resolveTriggers_ue {r : UeReport} {s : State} (hd : s.mode.base ≠ .dormant) : resolveTriggers [.ue r] s = uncorrectable r s := by
  have hact : triggerAct [.ue r] (.ue r) s = uncorrectable r s := by
    simp [triggerAct, hd, errorAct_alone]
  have hat (k : Nat) : triggersAt s [.ue r] k = if rankOf s [.ue r] (.ue r) = k then [.ue r] else [] := by
    simp [triggersAt, List.filter_cons]
  have hrank : rankOf s [.ue r] (.ue r) = 2 ∨ rankOf s [.ue r] (.ue r) = 4 := by
    cases h : losesSteward r <;> simp [rankOf, h]
  have hseven : List.range 7 = [0, 1, 2, 3, 4, 5, 6] := rfl
  unfold resolveTriggers
  rcases hrank with h | h <;> simp [hat, h, hseven, firingsOf, hact]

theorem execUncorrectableError_alone {r : UeReport} {s : State} (hd : s.mode.base ≠ .dormant) :
    exec (.uncorrectableError ⟨r, []⟩) s = .next (settleAfterLeave (uncorrectable r s)) := by
  simp [exec, execUncorrectableError, hd, meetAll, resolveTriggers_ue hd]

/-! ### The reactions (R491, R493, R495, R370, R393) -/

theorem loomFenced_of_fence {n : LoomId} {s : State} (h : s.looms[n.val].fenced = true) : loomFenced s n = true := by
  rw [loomFenced, h, Bool.true_or]

/-- A fence that the report finds standing stays; a new one is set. -/
theorem loomFault_fences (n : LoomId) (s : State) : loomFenced (loomFault n false s) n = true ∧ Reported (loomFault n false s) n.val := by
  unfold loomFault
  extract_lets fenced s₁
  have hlooms : s₁.looms = s.looms ∧ s₁.faults.bench = s.faults.bench := by simp [s₁]
  have hreport : Reported s₁ n.val := reported_of_faults (report_reported true s (by omega)) (by simp [s₁])
  split
  · rename_i hfenced
    refine ⟨?_, hreport⟩
    rw [loomFenced, hlooms.1, hlooms.2]
    exact hfenced
  · rw [if_neg Bool.false_ne_true]
    refine ⟨?_, fenceUnits_reported hreport ..⟩
    exact loomFenced_of_fence (fenceUnits_loom n s₁)

theorem benchFault_fences (b : BenchId) (s : State) :
    (benchFault b s).faults.bench.getLsbD b.val = true ∧ Reported (benchFault b s) (64 + b.val) := by
  unfold benchFault
  extract_lets fenced s₁
  have hbench : s₁.faults.bench = s.faults.bench := by simp [s₁]
  have hreport : Reported s₁ (64 + b.val) := reported_of_faults (report_reported true s (by omega)) (by simp [s₁])
  split
  · rename_i hfenced
    refine ⟨?_, hreport⟩
    rw [hbench]
    exact hfenced
  · refine ⟨?_, fenceUnits_reported hreport ..⟩
    rw [fenceUnits_faults]
    exact (BitVec.getLsbD_or ..).trans (by rw [getLsbD_benchBit b.isLt, Bool.or_true])

theorem resetFunction_slices {p : PortId} {keep : Port → Port} {s : State} {x : Slice} (h : x ∈ (resetFunction p keep s).slices) :
    x.port ≠ p := by
  have hx : x ∈ (removeFunction p s).slices := by simpa [resetFunction] using h
  exact removeFunction_slices hx

theorem shuttleFault_fences (p : PortId) (s : State) :
    portFenced (shuttleFault p s) p = true ∧ Reported (shuttleFault p s) (92 + p.val) ∧
      (portFenced s p = false → ∀ x ∈ (shuttleFault p s).slices, x.port ≠ p) := by
  unfold shuttleFault
  extract_lets fenced s₁ keep s₂ s₃
  have hport : s₁.faults.port = s.faults.port := by simp [s₁]
  have hreport : Reported s₁ (92 + p.val) := reported_of_faults (report_reported true s (by omega)) (by simp [s₁])
  split
  · rename_i hfenced
    refine ⟨?_, hreport, fun hnot => absurd hfenced (by simp [fenced, hnot])⟩
    rw [portFenced, hport]
    exact hfenced
  · have hfaults₂ : s₂.faults = s₁.faults := by
      obtain ⟨-, -, -, -, -, -, -, -, h, -⟩ := work_units (resetFunction_keepsWork p keep s₁)
      exact h
    have hslices₂ : ∀ x ∈ s₂.slices, x.port ≠ p := fun x hx => resetFunction_slices hx
    have h₃ : s₃.faults = s₂.faults ∧ s₃.slices = s₂.slices := by
      clear_value s₂
      unfold s₃
      split <;> exact ⟨rfl, rfl⟩
    obtain ⟨hfaults₃, hslices₃⟩ := h₃
    have hreport₃ : Reported s₃ (92 + p.val) := reported_of_faults hreport (hfaults₃.trans hfaults₂)
    clear_value s₃
    refine ⟨?_, hreport₃, fun _ x hx => hslices₂ x (hslices₃ ▸ hx)⟩
    have hbit : (BitVec.ofNat 4 (2 ^ p.val)).getLsbD p.val = true := by
      rw [BitVec.getLsbD_ofNat, Nat.testBit_two_pow_self, decide_eq_true p.isLt]
      rfl
    exact (BitVec.getLsbD_or ..).trans (by rw [hbit, Bool.or_true])

/-- Hold with CAUSE 8, where a module that serves has its steward. -/
theorem cabinetHold_units (s : State) :
    (cabinetHold s).backup = s.backup ∧ (cabinetHold s).faults = s.faults ∧
      (isIdleServe s.mode.base = true → s.mode.stewardLost = false → (cabinetHold s).mode.base = .hold ∧ (cabinetHold s).mode.cause = 8) := by
  unfold cabinetHold
  split
  · rename_i hserve
    obtain ⟨hserve, -⟩ := Bool.and_eq_true_iff.mp hserve
    rw [enterHold_serving hserve]
    exact ⟨rfl, rfl, fun _ _ => ⟨rfl, rfl⟩⟩
  · rename_i hnot
    exact ⟨rfl, rfl, fun hserve hlost => absurd (by simp [hserve, hlost]) hnot⟩

theorem chestFault_damages (s : State) :
    (chestFault s).backup.chest = { s.backup.chest with damaged := true } ∧ Reported (chestFault s) 97 ∧
      (isIdleServe s.mode.base = true → s.mode.stewardLost = false → (chestFault s).mode.base = .hold ∧ (chestFault s).mode.cause = 8) := by
  unfold chestFault
  extract_lets s₁
  have hmode : s₁.mode = s.mode := by simp [s₁]
  have hchest : s₁.backup.chest = s.backup.chest := by simp [s₁]
  have hreport : Reported s₁ 97 := reported_of_faults (report_reported true s (by decide)) (by simp [s₁])
  obtain ⟨hbackup, hfaults, hhold⟩ :=
    cabinetHold_units { s₁ with backup := { s₁.backup with chest := { s₁.backup.chest with damaged := true } } }
  refine ⟨?_, reported_of_faults hreport hfaults, fun hserve hlost => hhold (hmode ▸ hserve) (hmode ▸ hlost)⟩
  rw [hbackup, hchest]

theorem slotFault_ends {d : DigestSlot} {s : State} (h : s.farm.slots[d.val].state ≠ .free) :
    (slotFault d s).farm.slots[d.val].state = .done ∧ (slotFault d s).farm.slots[d.val].status = 0x0501 ∧
      (slotFault d s).farm.slots[d.val].result = [] := by
  simp [slotFault, modDigest, h]

/-! ### The warden (R496, R497) -/

theorem rethreadDone_unowned {st : Status} {s : State} (h : s.owner = none) : rethreadDone st s = s := by
  simp [rethreadDone, h]

theorem abandonWork_units (s : State) (w : WaitingEnvelope) :
    (abandonWork s w).mode = s.mode ∧ (abandonWork s w).faults = s.faults ∧ (abandonWork s w).owner = s.owner := by
  unfold abandonWork
  split <;> exact ⟨rfl, rfl, rfl⟩

theorem emit_keepsWork (x : Tx) (s : State) : Frame.work.Keeps s (emit x s) := rfl

theorem abandonSteward_units (s : State) :
    (abandonSteward s).mode = s.mode ∧ (abandonSteward s).faults = s.faults ∧ (abandonSteward s).owner = s.owner := by
  unfold abandonSteward
  extract_lets tally s₁ serving s₂ s₃ s₄ s₅
  have h₁ : Frame.work.Keeps s s₁ := .foldl (fun s i => failItem_keepsWork .unitFault i s) tally s
  have h₂ : Frame.work.Keeps s s₂ := h₁.trans (.foldl (fun s i => failInService_keepsWork .unitFault 0 i s) serving s₁)
  have h₃ : Frame.work.Keeps s s₃ := h₂.trans (abandonAdmin_keepsWork .unitFault s₂)
  have h₄ : Frame.work.Keeps s s₄ := h₃.trans (.foldl (fun s c => emit_keepsWork _ s) _ s₃)
  obtain ⟨hmode, -, howner, -, -, -, -, -, hfaults, -⟩ := work_units h₄
  clear_value s₄
  refine ⟨.trans ?_ hmode, .trans ?_ hfaults, .trans ?_ howner⟩
  · exact foldl_reads State.mode (f := abandonWork) (fun s w => (abandonWork_units s w).1) _ s₄
  · exact foldl_reads State.faults (f := abandonWork) (fun s w => (abandonWork_units s w).2.1) _ s₄
  · exact foldl_reads State.owner (f := abandonWork) (fun s w => (abandonWork_units s w).2.2) _ s₄

theorem cutTransition_units {st : Status} {s : State} (h : s.owner = none) :
    (cutTransition st s).mode = s.mode ∧ (cutTransition st s).faults = s.faults ∧ (cutTransition st s).owner = none := by
  unfold cutTransition
  split
  · exact ⟨rfl, rfl, h⟩
  · extract_lets f k bits burned s₁ fuses life s₂
    have h₂ : s₂.mode = s.mode ∧ s₂.faults = s.faults ∧ s₂.owner = none := ⟨rfl, rfl, h⟩
    split
    · exact h₂
    · rw [h₂.2.2]
      exact h₂

/-- What the steward was doing ends: the owner's command, its own work and a transition. -/
theorem stewardEnds_units (trigger : Nat) (s : State) :
    let t := cutTransition .unitFault (abandonSteward (ownerDone .unitFault (raise 0x124 (detailOf trigger 0 0 0 0) s)))
    t.mode = s.mode ∧ t.faults = s.faults ∧ t.owner = none := by
  intro t
  obtain ⟨hmode, hfaults, howner⟩ := abandonSteward_units (ownerDone .unitFault (raise 0x124 (detailOf trigger 0 0 0 0) s))
  obtain ⟨hcutMode, hcutFaults, hnone⟩ := cutTransition_units (st := .unitFault) (howner.trans (ownerDone_owner _ _))
  exact ⟨(hcutMode.trans hmode).trans (by simp), (hcutFaults.trans hfaults).trans (by simp), hnone⟩

/-- The warden holds the steward in reset, with its trigger, and no owner's command stands. -/
def TakenOver (trigger : Nat) (s : State) : Prop :=
  s.mode.stewardLost = true ∧ s.faults.warden = true ∧ s.faults.trigger = trigger ∧ s.owner = none

theorem TakenOver.enterHold {trigger : Nat} {s : State} (h : TakenOver trigger s) (cause : Nat) : TakenOver trigger (enterHold cause s) := by
  obtain ⟨hlost, hwarden, htrigger, hnone⟩ := h
  unfold Machine.enterHold
  split
  · exact ⟨hlost, hwarden, htrigger, hnone⟩
  · extract_lets threading mode s₁ s₂
    have h₂ : s₂ = s₁ := by
      unfold s₂
      split
      · exact rethreadDone_unowned hnone
      · rfl
    rw [h₂]
    split <;> exact ⟨hlost, hwarden, htrigger, hnone⟩

theorem TakenOver.degrade {trigger : Nat} {s : State} (h : TakenOver trigger s) (cause : Nat) : TakenOver trigger (degrade cause s) := by
  unfold Machine.degrade
  split <;> exact h

/-- The takeover, and where the mode moves under R50. -/
theorem wardenTakeover_loses {trigger : Nat} {s : State} (hlost : s.mode.stewardLost = false) (hd : s.mode.base ≠ .dormant) :
    TakenOver trigger (wardenTakeover trigger s) ∧
      (s.mode.base = .serveFull → (wardenTakeover trigger s).mode.base = .serveDegraded ∧ (wardenTakeover trigger s).mode.cause = 4) ∧
      (s.mode.base = .idle → (wardenTakeover trigger s).mode.base = .idle) := by
  unfold wardenTakeover
  rw [if_neg (by simp [hlost, hd])]
  extract_lets power mode faults s₁ s₂
  obtain ⟨hmode, hfaults, hnone⟩ : s₂.mode = s₁.mode ∧ s₂.faults = s₁.faults ∧ s₂.owner = none := stewardEnds_units trigger s₁
  clear_value s₂
  have h₂ : TakenOver trigger s₂ :=
    ⟨congrArg ModeUnit.stewardLost hmode, congrArg Faults.warden hfaults, congrArg Faults.trigger hfaults, hnone⟩
  have hbase : s₂.mode.base = s.mode.base := by rw [hmode]
  refine ⟨?_, fun hb => ?_, fun hb => ?_⟩
  · split
    · exact h₂.degrade 4
    · exact h₂.degrade 4
    · split
      · exact h₂
      · exact h₂.enterHold 4
    · exact h₂.enterHold 4
    · exact h₂.enterHold 4
    · exact h₂
  · simp [hbase, hb, degrade, setMode]
  · simp [hbase, hb]

/-- Settles O39, source by source. -/
theorem errorsComplete : Obligations.errors_complete := by
  intro s src r n b p d hd
  refine ⟨?_, ?_, ?_, ?_, ?_, ?_, fun hslot => ?_, ?_⟩
  · have hexec : ∀ c, c = Instr.correctableError src ∨ c = Instr.fabricParityError r src false → exec c s = .next (correctable src.val s) := by
      rintro c (rfl | rfl) <;> simp [exec, execCorrectableError, execFabricParityError, hd]
    have hkeeps := correctable_keepsCorrected src.val s
    have hchest : (correctable src.val s).backup.chest = s.backup.chest := congrArg (fun t => t.backup.chest) hkeeps
    have hreport : Reported (correctable src.val s) src.val :=
      reported_of_capture (report_reported false s (by omega)) (by rw [correctable_faults]) (by rw [correctable_faults])
    refine fun c hc => ⟨_, hexec c hc, by rw [correctable_faults], hreport, ?_, hchest⟩
    calc correctable src.val s = Frame.corrected.take (correctable src.val s) s := hkeeps
      _ = _ := by simp only [Frame.corrected, ← hchest]
  · rw [execUncorrectableError_alone hd]
    simp [exec, execFabricParityError, hd]
  · obtain ⟨hfence, hreport⟩ := loomFault_fences n s
    exact ⟨_, execUncorrectableError_alone hd, by simpa [loomFenced, uncorrectable] using hfence, reported_of_faults hreport (by simp [uncorrectable])⟩
  · obtain ⟨hfence, hreport⟩ := benchFault_fences b s
    exact ⟨_, execUncorrectableError_alone hd, by simpa [uncorrectable] using hfence, reported_of_faults hreport (by simp [uncorrectable])⟩
  · obtain ⟨hfence, hreport, hgone⟩ := shuttleFault_fences p s
    exact ⟨_, execUncorrectableError_alone hd, by simpa [portFenced, uncorrectable] using hfence, reported_of_faults hreport (by simp [uncorrectable]),
      by simpa [uncorrectable] using hgone⟩
  · obtain ⟨hchest, hreport, hhold⟩ := chestFault_damages s
    exact ⟨_, execUncorrectableError_alone hd, by simpa [uncorrectable] using hchest, reported_of_faults hreport (by simp [uncorrectable]),
      by simpa [uncorrectable] using hhold⟩
  · refine ⟨_, execUncorrectableError_alone hd, ?_⟩
    simpa [uncorrectable] using slotFault_ends hslot
  · rintro hlost c k (⟨rfl, rfl⟩ | ⟨rfl, rfl⟩)
    · have hmode : (report 100 true s).mode = s.mode := by simp
      obtain ⟨⟨hsteward, hwarden, htrigger, howner⟩, hserve, hidle⟩ :=
        wardenTakeover_loses (trigger := 1) (s := report 100 true s) (hmode ▸ hlost) (hmode ▸ hd)
      rw [hmode] at hserve hidle
      refine ⟨settleAfterLeave (wardenTakeover 1 (report 100 true s)), by simp [exec, execLockstepMismatch, lockstepAct, hd], ?_⟩
      simpa using ⟨hsteward, hwarden, htrigger, howner, hserve, hidle⟩
    · obtain ⟨⟨hsteward, hwarden, htrigger, howner⟩, hserve, hidle⟩ := wardenTakeover_loses (trigger := 2) hlost hd
      refine ⟨settleAfterLeave (wardenTakeover 2 s), rfl, ?_⟩
      simpa using ⟨hsteward, hwarden, htrigger, howner, hserve, hidle⟩

end Sys2Proof.Machine
end

section
/-! PROOFS. Start-up: the firmware's verification (R66 steps 4 and 5), the draft's read (R92) and the self-test (R70, R71). -/

namespace Sys2Proof.Machine

open Sys2Proof.Claims

/-! ### The logbook at step 5 of R66 (R478, R517, R521) -/

/-- What the logbook's own work changes: its records, its sequence, and what was lost or latched. -/
def Frame.logbook : Frame where
  take u s := { s with
    log := u.log
    flash := { s.flash with logRecords := u.flash.logRecords, logSeq := u.flash.logSeq, lost := u.flash.lost }
    backup := { s.backup with latch := u.backup.latch, lost := u.backup.lost }
    tamper := { s.tamper with latchCount := u.tamper.latchCount, latchLost := u.tamper.latchLost } }
  self _ := rfl
  last _ _ _ := rfl

theorem raise_keepsLogbook (ev : Nat) (d : BitVec 64) (s : State) : Frame.logbook.Keeps s (raise ev d s) := by
  obtain ⟨_, _, _, _, h⟩ := raise_touches ev d s
  rw [h]
  rfl

theorem countLost_keepsLogbook (sev : Nat) (s : State) : Frame.logbook.Keeps s (countLost sev s) := by
  unfold countLost
  split <;> rfl

theorem takeRecord_keepsLogbook (r : LogRecord) (s : State) : Frame.logbook.Keeps s (takeRecord r s) := by
  unfold takeRecord
  dsimp only
  split
  · rfl
  · split
    · rfl
    · exact countLost_keepsLogbook _ s

theorem takeEvent_keepsLogbook (e : Event) (s : State) : Frame.logbook.Keeps s (takeEvent e s) := by
  unfold takeEvent
  split
  · split
    · rfl
    · exact takeRecord_keepsLogbook _ s
  · exact takeRecord_keepsLogbook _ s

theorem loadMirror_keepsLogbook (damaged : List Word) (s : State) : Frame.logbook.Keeps s (loadMirror damaged s) := by
  unfold loadMirror
  extract_lets good
  exact .trans (t := { s with log := { s.log with records := good }, flash := { s.flash with logRecords := good } }) rfl
    (.foldl (fun s _ => raise_keepsLogbook 0x11A 0 s) _ _)

theorem commitLatch_keepsLogbook (s : State) : Frame.logbook.Keeps s (commitLatch s) := by
  unfold commitLatch
  extract_lets n lost s₁ tamper backup s₂
  have h₁ : Frame.logbook.Keeps s s₁ := .foldl (fun s e => takeRecord_keepsLogbook _ s) _ s
  have h₂ : Frame.logbook.Keeps s s₂ := h₁.trans rfl
  split
  · exact h₂
  · exact h₂.trans (takeEvent_keepsLogbook _ s₂)

theorem logbook_units {s t : State} (h : Frame.logbook.Keeps s t) :
    t.mode = s.mode ∧ t.life = s.life ∧ t.power = s.power ∧ t.flash.tally = s.flash.tally ∧ t.flash.select = s.flash.select := by
  rw [h]
  exact ⟨rfl, rfl, rfl, rfl, rfl⟩

/-! ### STEWARD_FW_VERIFIED (R50, R66) -/

/-- The straps 0 neither hold Wake nor choose Recovery. -/
theorem bootStrap_zero {s : State} (h : s.mode.straps = some { boot := 0, compat := false, cardspd := false, pwrmin := false, dbgreq := false }) :
    bootStrap s = 0 ∧ dbgRequested s = false := by
  simp [bootStrap, dbgRequested, h]

/-- Wake is left for the selected draft, or for Recovery where no firmware runs. -/
theorem leaveWake_straps0 {s : State} (hwake : s.mode.base = .wake) (hdone : s.mode.fwDone = true) (hlost : s.mode.stewardLost = false)
    (hstraps : s.mode.straps = some { boot := 0, compat := false, cardspd := false, pwrmin := false, dbgreq := false })
    (hlife : s.life.state = 2 ∨ s.life.state = 3) (hdebug : s.life.debug = false) (hplan : s.power.plan ≠ .wakeOnly)
    (hthreading : s.mode.threading = .none) :
    leaveWake s = if s.mode.fwRuns then beginThreading s.flash.select true false 0 s else setMode .recovery 12 s := by
  obtain ⟨hboot, hrequest⟩ := bootStrap_zero hstraps
  have hfed : planCode s.power.plan ≠ 0 := by
    cases h : s.power.plan
    · exact absurd h hplan
    all_goals simp [planCode]
  have hstate : s.life.state ≠ 4 := by omega
  have hproceeds : ¬(!(s.life.state == 2 || s.life.state == 3)) = true := by simpa [imp_iff_not_or] using hlife
  unfold leaveWake
  rw [if_neg (by simp [hwake, hdone, hlost]), if_neg (by simpa using hstate), if_neg hproceeds, if_neg (by simp [hboot, hrequest]),
    if_neg (by simpa using hfed), hthreading]
  cases hruns : s.mode.fwRuns <;> simp [hdebug, hboot]

/-- The state in which the steward's firmware leaves Wake. -/
def verified (a b : Bool) (damaged : List Word) (s : State) : State :=
  commitLatch (loadMirror damaged { s with mode := { s.mode with fwDone := true, fwRuns := a || b, fwSlotA := a, fwSlotB := b } })

theorem verified_units (a b : Bool) (damaged : List Word) (s : State) :
    (verified a b damaged s).mode = { s.mode with fwDone := true, fwRuns := a || b, fwSlotA := a, fwSlotB := b } ∧
      (verified a b damaged s).life = s.life ∧ (verified a b damaged s).power = s.power ∧
      (verified a b damaged s).flash.tally = s.flash.tally ∧ (verified a b damaged s).flash.select = s.flash.select :=
  logbook_units ((loadMirror_keepsLogbook damaged _).trans (commitLatch_keepsLogbook _))

theorem execStewardFwVerified_next {a b : Bool} {damaged : List Word} {s : State} (hwake : s.mode.base = .wake) (hdone : s.mode.fwDone = false)
    (hlost : s.mode.stewardLost = false)
    (hstraps : s.mode.straps = some { boot := 0, compat := false, cardspd := false, pwrmin := false, dbgreq := false })
    (hlife : s.life.state = 2 ∨ s.life.state = 3) (htally : s.flash.tally = []) :
    exec (.stewardFwVerified a b damaged) s = .next (leaveWake (verified a b damaged s)) := by
  obtain ⟨hmode, hlifeUnit, -, htallyUnit, -⟩ := verified_units a b damaged s
  have hscan : tallyScan (verified a b damaged s) = verified a b damaged s := by
    simp [tallyScan, htallyUnit, htally]
  have hblank : blankCheck (verified a b damaged s) = verified a b damaged s := by
    rcases hlife with h | h <;> simp [blankCheck, hlifeUnit, h]
  have hboot : bootStrap (verified a b damaged s) = 0 := (bootStrap_zero (by rw [hmode]; exact hstraps)).1
  have hnext : exec (.stewardFwVerified a b damaged) s = execStewardFwVerified a b damaged s := rfl
  rw [hnext, execStewardFwVerified, if_neg (by simp [hdone, hlost, hstraps, hwake])]
  extract_lets mode s₁ s₂ held mode₃ s₃
  have h₂ : s₂ = verified a b damaged s := (congrArg blankCheck hscan).trans hblank
  have hheld : held = false := by simp [held, h₂, hboot]
  have h₃ : s₃ = verified a b damaged s := by simp [s₃, hheld, h₂]
  rw [h₃]

/-! ### DRAFT_READ_DONE (R92) -/

theorem loadCal_units (s : State) : (loadCal s).mode = s.mode ∧ (loadCal s).draft = s.draft := by
  unfold loadCal
  split <;> simp [useCal, markBaselines]

theorem deriveIdentity_units (s : State) : (deriveIdentity s).mode = s.mode ∧ (deriveIdentity s).draft = s.draft := by
  unfold deriveIdentity
  split <;> exact ⟨rfl, rfl⟩

theorem bobbin_units {s t : State} (h : Frame.bobbin.Keeps s t) :
    t.mode = s.mode ∧ t.draft = s.draft ∧ t.owner = s.owner ∧ t.backup.chest = s.backup.chest ∧ t.backup.sticky = s.backup.sticky ∧
      t.fuses = s.fuses ∧ t.tamper = s.tamper := by
  rw [h]
  exact ⟨rfl, rfl, rfl, rfl, rfl, rfl, rfl⟩

theorem askBenchSeeds_keepsBobbin (s : State) : Frame.bobbin.Keeps s (askBenchSeeds s) := by
  refine .foldl (fun s b => ?_) _ s
  dsimp only
  split
  · exact (modInstance_keepsBobbin _ _ s).trans (requestSeed_keepsBobbin _ _)
  · exact .refl s

theorem enterPlanUnits_units (s : State) : (enterPlanUnits s).mode = s.mode ∧ (enterPlanUnits s).draft = s.draft := by
  unfold enterPlanUnits
  extract_lets power
  obtain ⟨hmode, hdraft, -⟩ := bobbin_units (askBenchSeeds_keepsBobbin _)
  exact ⟨hmode, hdraft⟩

theorem newFamily_base (d : Draft) (s : State) : (newFamily d s).mode.base = s.mode.base := by
  obtain ⟨hmode, -⟩ := work_units (destroyAllSlices_keepsWork s)
  calc (newFamily d s).mode.base = (destroyAllSlices s).mode.base := rfl
    _ = s.mode.base := by rw [hmode]

/-- The draft is held and its self-test begins. -/
theorem loadDraft_begins (src : Nat) (other re : Bool) (d : Draft) (s : State) :
    (loadDraft src other re d s).draft.threaded = some (threadedPart s d) ∧ (loadDraft src other re d s).draft.source = src ∧
      (loadDraft src other re d s).draft.code = 0 ∧ (loadDraft src other re d s).mode.base = s.mode.base ∧
      ∃ clear, (loadDraft src other re d s).mode.threading = .testing clear other re := by
  unfold loadDraft
  extract_lets part family s₁ first classes flash backup draft tamper s₂ s₃ mode
  have hbase₁ : s₁.mode.base = s.mode.base := by
    unfold s₁
    split
    · exact newFamily_base _ s
    · rfl
  have h₃ : s₃.mode = s₂.mode ∧ s₃.draft = s₂.draft := by
    obtain ⟨hmode, hdraft⟩ := enterPlanUnits_units (deriveIdentity (loadCal s₂))
    obtain ⟨hmode', hdraft'⟩ := deriveIdentity_units (loadCal s₂)
    obtain ⟨hmode'', hdraft''⟩ := loadCal_units s₂
    exact ⟨hmode.trans (hmode'.trans hmode''), hdraft.trans (hdraft'.trans hdraft'')⟩
  obtain ⟨hmode, hdraft⟩ := h₃
  have hbase : s₃.mode.base = s.mode.base := (congrArg ModeUnit.base hmode).trans hbase₁
  exact ⟨congrArg DraftUnit.threaded hdraft, congrArg DraftUnit.source hdraft, congrArg DraftUnit.code hdraft, hbase, _, rfl⟩

theorem execDraftReadDone_next {src : Nat} {other re : Bool} {d : Draft} {s : State} (hbase : s.mode.base = .threading)
    (hthreading : s.mode.threading = .reading src other re) (hdraft : draftAt s src = some d) (hcheck : draftCheck s d = none) :
    exec (.draftReadDone true) s = .next (settleAfterLeave (loadDraft src other re d s)) := by
  simp [exec, execDraftReadDone, hbase, hthreading, draftRead, hdraft, hcheck]

theorem settling_draft {s t : State} (h : Frame.settling.Keeps s t) : t.draft = s.draft := by
  rw [h]
  rfl

/-! ### SELF_TEST_DONE (R70, R71) -/

/-- The cleared drawers leave the mode, the owner's command, the chest and the flags as they were. -/
theorem clearAllDrawers_units (s : State) :
    (clearAllDrawers s).mode.base = s.mode.base ∧ (clearAllDrawers s).owner = s.owner ∧
      (clearAllDrawers s).backup.chest.valid = s.backup.chest.valid ∧ (clearAllDrawers s).backup.sticky = s.backup.sticky ∧
      (clearAllDrawers s).fuses = s.fuses ∧ (clearAllDrawers s).tamper = s.tamper := by
  unfold clearAllDrawers
  extract_lets gone serves drawn s₁ source s₂ flash mode cabinet s₃
  have h₁ : Frame.bobbin.Keeps s s₁ := by
    unfold s₁ drawn
    split <;> rfl
  have h₂ : Frame.bobbin.Keeps s s₂ := by
    refine h₁.trans ?_
    unfold s₂
    split
    · exact modInstance_keepsBobbin _ _ s₁
    · exact .refl s₁
  obtain ⟨hmode, -, howner, hchest, hsticky, hfuses, htamper⟩ := bobbin_units h₂
  have hgone : Frame.work.Keeps s₃ (gone.foldl (fun s i => failItem .keyHandleInvalid i s) s₃) :=
    .foldl (fun s i => failItem_keepsWork _ i s) gone s₃
  obtain ⟨hmode', -, howner', -, -, -, hfuses', htamper', -⟩ := work_units hgone
  obtain ⟨hsticky', hvalid', -⟩ := work_backup hgone
  refine ⟨?_, howner'.trans howner, hvalid'.trans (congrArg Chest.valid hchest), hsticky'.trans hsticky, hfuses'.trans hfuses,
    htamper'.trans htamper⟩
  calc _ = s₃.mode.base := congrArg ModeUnit.base hmode'
    _ = s₂.mode.base := rfl
    _ = s.mode.base := by rw [hmode]

theorem haltFlagSet_congr {s t : State} (hsticky : t.backup.sticky = s.backup.sticky) (hfused : t.fuses.fused = s.fuses.fused)
    (hclasses : t.tamper.classes = s.tamper.classes) : haltFlagSet t = haltFlagSet s := by
  unfold haltFlagSet classOf
  rw [hsticky, hfused, hclasses]

/-- What the end of a threading asks for, to leave it for Idle. -/
def EndsThreading (s : State) : Prop :=
  s.mode.base = .threading ∧ s.owner = none ∧ s.backup.chest.valid = true ∧ haltFlagSet s = false

theorem EndsThreading.clearAllDrawers {s : State} (h : EndsThreading s) : EndsThreading (clearAllDrawers s) := by
  obtain ⟨hbase, howner, hvalid, hhalt⟩ := h
  obtain ⟨hbase', howner', hvalid', hsticky', hfuses', htamper'⟩ := clearAllDrawers_units s
  exact ⟨hbase'.trans hbase, howner'.trans howner, hvalid'.trans hvalid,
    (haltFlagSet_congr hsticky' (by rw [hfuses']) (by rw [htamper'])).trans hhalt⟩

theorem applyTestFences_units (re : Bool) (f : TestFences) (s : State) :
    (applyTestFences re f s).mode = s.mode ∧ (applyTestFences re f s).owner = s.owner ∧ (applyTestFences re f s).backup = s.backup ∧
      (applyTestFences re f s).fuses = s.fuses ∧ (applyTestFences re f s).tamper = s.tamper := by
  simp [applyTestFences]

theorem EndsThreading.of_units {s t : State} (h : EndsThreading s) (hmode : t.mode = s.mode) (howner : t.owner = s.owner)
    (hbackup : t.backup = s.backup) (hfuses : t.fuses = s.fuses) (hclasses : t.tamper.classes = s.tamper.classes) : EndsThreading t := by
  obtain ⟨hbase, hnone, hvalid, hhalt⟩ := h
  exact ⟨by rw [hmode, hbase], by rw [howner, hnone], by rw [hbackup, hvalid],
    by rw [haltFlagSet_congr (by rw [hbackup]) (by rw [hfuses]) hclasses, hhalt]⟩

/-- Idle, with READY. -/
theorem endThreading_idle {s : State} (h : EndsThreading s) :
    (endThreading s).mode.base = .idle ∧ (endThreading s).mode.cause = 2 ∧ (endThreading s).mode.last = 2 ∧
      (endThreading s).mode.ready = true ∧ (endThreading s).mode.threading = .none := by
  obtain ⟨hbase, howner, hvalid, hhalt⟩ := h
  have hhalt' : ¬haltFlagSet { s with mode := { s.mode with leftHold := 0 } } = true := by
    rw [Bool.not_eq_true]
    exact hhalt
  unfold endThreading
  extract_lets mode s₁ mode' s₂
  rw [if_neg (by simp [s₁, hvalid]), if_neg hhalt', rethreadDone_unowned (s := endFirstThreading s₂) howner]
  simp [endFirstThreading, s₂, s₁, mode, mode', setMode, hbase, modeCode]

/-- A clean result: no unit fails, and no checker stays silent. -/
def cleanTest : SelfTest :=
  { looms := [], benches := [], trestles := [], selvedge := [], cabinetOk := true, caches := [], silent := [], wardenChecker := false }

/-- With a clean result the drawers are cleared where they were not, and the threading ends. -/
theorem selfTest_clean {clear : Bool} {s : State} (h : EndsThreading s) :
    ∃ t, selfTest cleanTest clear false s = endThreading t ∧ EndsThreading t := by
  unfold selfTest
  extract_lets still fences cabinet failing draft s₁ kinds tamper faults s₂ s₃ s₄ s₅
  have h₁ : s₁ = s := rfl
  have h₂ : EndsThreading s₂ := by
    unfold s₂
    rw [h₁]
    exact h.of_units rfl rfl rfl rfl rfl
  have h₃ : EndsThreading s₃ := by
    obtain ⟨hmode, howner, hbackup, hfuses, htamper⟩ := applyTestFences_units false fences s₂
    exact h₂.of_units hmode howner hbackup hfuses (congrArg Tamper.classes htamper)
  have h₄ : EndsThreading s₄ := h₃
  have h₅ : EndsThreading s₅ := by
    unfold s₅
    split
    · exact h₄.clearAllDrawers
    · exact h₄
  refine ⟨s₅, ?_, h₅⟩
  rw [if_neg (by decide), if_neg (by simp [cleanTest])]

/-- Settles O17, command by command. -/
theorem startUpCompletes : Obligations.start_up_completes := by
  intro s a b n clear re other src d r
  refine ⟨fun hwake hdone hlost hstraps hlife hdebug hplan hthreading htally _ _ _ => ?_, fun hbase hthreading hdraft hcheck => ?_,
    fun hbase hthreading hvalid hhalt howner hr => ?_⟩
  · obtain ⟨hmode, hlifeUnit, hpower, -, hselect⟩ := verified_units a b n s
    refine ⟨_, execStewardFwVerified_next hwake hdone hlost hstraps hlife htally, ?_⟩
    rw [leaveWake_straps0 (by rw [hmode]; exact hwake) (by rw [hmode]) (by rw [hmode]; exact hlost) (by rw [hmode]; exact hstraps)
      (by rw [hlifeUnit]; exact hlife) (by rw [hlifeUnit]; exact hdebug) (by rw [hpower]; exact hplan) (by rw [hmode]; exact hthreading), hselect]
    cases hruns : a || b <;> simp [hmode, hruns, beginThreading, disarmStages, setMode]
  · obtain ⟨hthreaded, hsource, hcode, hmode, cl, htesting⟩ := loadDraft_begins src other re d s
    have hkept := settling_draft (settleAfterLeave_keepsSettling (loadDraft src other re d s))
    refine ⟨_, execDraftReadDone_next hbase hthreading hdraft hcheck, ?_⟩
    rw [hkept, hthreaded, threadedPart]
    simp [hsource, hcode, hmode, hbase, htesting]
  · subst hr
    obtain ⟨t, htest, hends⟩ := selfTest_clean (clear := clear) ⟨hbase, howner, hvalid, hhalt⟩
    refine ⟨settleAfterLeave (selfTest cleanTest clear false s), ?_, ?_⟩
    · simp [exec, execSelfTestDone, hbase, hthreading, cleanTest]
    · rw [htest]
      simpa using endThreading_idle hends

end Sys2Proof.Machine
end

section
/-! PROOFS. The port stage (R99 to R105): what a write leaves in it, its commit and its discard. -/

namespace Sys2Proof.Machine

open Sys2Proof.Claims

/-! ### Entries (R99) -/

/-- The entries after a field of applied value `applied` has taken `v`: its entry is replaced, or made where `v` is news. -/
def withEntry (applied : Option Nat) (f : StagedField) (v : Nat) (l : List (StagedField × Nat)) : List (StagedField × Nat) :=
  if (entryOf l f).isSome then l.map fun e => if e.1 == f then (f, v) else e
  else if applied = some v then l
  else l ++ [(f, v)]

theorem entryOf_cons (e : StagedField × Nat) (l : List (StagedField × Nat)) (f : StagedField) :
    entryOf (e :: l) f = if e.1 = f then some e.2 else entryOf l f := by
  by_cases h : e.1 = f <;> simp [entryOf, h]

theorem entryOf_append_same (l : List (StagedField × Nat)) (f : StagedField) (v : Nat) :
    entryOf (l ++ [(f, v)]) f = (entryOf l f).or (some v) := by
  cases h : l.find? fun e => e.1 == f <;> simp [entryOf, List.find?_append, h]

theorem entryOf_append_other (l : List (StagedField × Nat)) {f f' : StagedField} (v : Nat) (h : f' ≠ f) :
    entryOf (l ++ [(f, v)]) f' = entryOf l f' := by
  simp [entryOf, List.find?_append, h.symm]

/-- Every entry of a field replaced, a read of that field gives the new value and a read of another what it gave. -/
theorem entryOf_replaced (l : List (StagedField × Nat)) (f f' : StagedField) (v : Nat) :
    entryOf (l.map fun e => if e.1 == f then (f, v) else e) f' =
      if f' = f then (entryOf l f).map fun _ => v else entryOf l f' := by
  induction l with
  | nil => simp [entryOf]
  | cons e l ih =>
    rw [List.map_cons, entryOf_cons, ih, entryOf_cons, entryOf_cons]
    by_cases he : e.1 = f
    · by_cases hf : f' = f
      · simp [he, hf]
      · simp [he, hf, Ne.symm hf]
    · by_cases hf : f' = f <;> simp [he, hf]

/-- A field reads the value it took, from its entry or as the applied one. -/
theorem withEntry_shows (applied : Option Nat) (f : StagedField) (v : Nat) (l : List (StagedField × Nat)) :
    (entryOf (withEntry applied f v l) f).or applied = some v := by
  unfold withEntry
  split
  next hentry =>
    obtain ⟨w, hw⟩ := Option.isSome_iff_exists.mp hentry
    rw [entryOf_replaced, if_pos rfl, hw]
    rfl
  next hentry =>
    have hnone : entryOf l f = none := by simpa using hentry
    split
    next happlied => simp [hnone, happlied]
    next => simp [entryOf_append_same, hnone]

theorem entryOf_withEntry_other (applied : Option Nat) {f f' : StagedField} (v : Nat) (l : List (StagedField × Nat)) (h : f' ≠ f) :
    entryOf (withEntry applied f v l) f' = entryOf l f' := by
  unfold withEntry
  split
  · rw [entryOf_replaced, if_neg h]
  · split
    · rfl
    · exact entryOf_append_other l v h

/-! ### Reads of staged fields (R99) -/

theorem shownField_eq (s : State) (p : PortId) (f : StagedField) :
    shownField s p f = ((entryOf s.ports[p.val].stage.entries f).or (appliedField s p f)).getD 0 := by
  unfold shownField
  split
  next v hv => simp [hv]
  next hnone => simp [hnone]

/-- No update of a stage reaches an applied value. -/
@[simp] theorem appliedField_modStage (p : PortId) (g : Stage → Stage) (s : State) (f : StagedField) :
    appliedField (modStage p g s) p f = appliedField s p f := by
  cases f with
  | idleTimeout => simp [appliedField, idleTimeoutOf, heddleSection, modStage]
  | _ => rfl

/-! ### STAGE_WRITE (R99, R101) -/

/-- What a write makes of a stage with room: the entry with the clamped value, and CLAMPED where the clamp moved it. -/
def takeField (applied : Option Nat) (f : StagedField) (w : Nat) (g : Stage) : Stage :=
  { g with entries := withEntry applied f (clampField f w) g.entries, clamped := g.clamped || clampField f w != w }

theorem modStage_self {p : PortId} {h : Stage → Stage} {s : State} (hself : h s.ports[p.val].stage = s.ports[p.val].stage) :
    modStage p h s = s := by
  have hport : { s.ports[p.val] with stage := h s.ports[p.val].stage } = s.ports[p.val] := by rw [hself]
  have hports : s.ports.set p.val { s.ports[p.val] with stage := h s.ports[p.val].stage } = s.ports := by
    rw [hport, Vector.set_getElem_self]
  exact congrArg (fun ports => { s with ports := ports }) hports

theorem modStage_modStage (p : PortId) (g h : Stage → Stage) (s : State) :
    modStage p h (modStage p g s) = modStage p (fun x => h (g x)) s := by
  simp [modStage, modPort]

theorem modStage_congr {p : PortId} {g h : Stage → Stage} {s : State} (he : g s.ports[p.val].stage = h s.ports[p.val].stage) :
    modStage p g s = modStage p h s := by
  simp [modStage, modPort, he]

/-- With room in the stage, a field takes its value as `takeField` says. -/
theorem stageField_takes {p : PortId} {value : Word} {s : State} {f : StagedField} (hroom : s.ports[p.val].stage.entries.length < 4096) :
    stageField p value s f =
      modStage p (takeField (appliedField s p f) f (fieldOf value (fieldPlace f).2.1 (fieldPlace f).2.2)) s := by
  have hfull : ¬ 4096 ≤ s.ports[p.val].stage.entries.length := by omega
  generalize hw : fieldOf value (fieldPlace f).2.1 (fieldPlace f).2.2 = w
  -- CLAMPED first, as one update of the stage, whether the clamp moves the value or not
  have hclamp : (if clampField f w = w then s else modStage p (fun g => { g with clamped := true }) s) =
      modStage p (fun g => { g with clamped := g.clamped || clampField f w != w }) s := by
    split
    next he => exact (modStage_self (by simp [he])).symm
    next he => exact modStage_congr (by simp [he])
  simp only [stageField, hw, hclamp, appliedField_modStage, hfull, if_false]
  split
  next hentry =>
    rw [modStage_modStage]
    exact modStage_congr (by simp [takeField, withEntry, hentry])
  next hentry =>
    split
    next happlied => exact modStage_congr (by simp [takeField, withEntry, hentry, happlied])
    next happlied =>
      rw [modStage_modStage]
      exact modStage_congr (by simp [takeField, withEntry, hentry, happlied])

/-- A field that takes a value reads the nearest legal one. -/
theorem shownField_takeField_same (p : PortId) (s : State) (f : StagedField) (w : Nat) :
    shownField (modStage p (takeField (appliedField s p f) f w) s) p f = clampField f w := by
  rw [shownField_eq, modStage_at, appliedField_modStage]
  simp [takeField, withEntry_shows]

theorem shownField_takeField_other (p : PortId) (s : State) {f f' : StagedField} (w : Nat) (h : f' ≠ f) :
    shownField (modStage p (takeField (appliedField s p f) f w) s) p f' = shownField s p f' := by
  rw [shownField_eq, shownField_eq, modStage_at, appliedField_modStage]
  simp [takeField, entryOf_withEntry_other _ _ _ h]

/-- The weight register of a slice holds one staged field. -/
theorem fieldsAt_weight (i : SliceIdx) : fieldsAt (0x21000 + 8 * i.val) = [.weight i] := by
  have hi := i.isLt
  have hin : 0x21000 ≤ 0x21000 + 8 * i.val ∧ 0x21000 + 8 * i.val < 0x21800 := by omega
  rw [fieldsAt, if_neg (by omega), dif_pos hin, if_pos (by omega)]
  simp

theorem stageWrite_weight {s : State} {p : PortId} {i : SliceIdx} {v : Word} {x : Slice} (harmed : s.ports[p.val].stage.armed = false)
    (hlive : findSlice s p i.val = some x) : stageWrite p (0x21000 + 8 * i.val) v s = stageField p v s (.weight i) := by
  simp [stageWrite, fieldsAt_weight, appliedField, hlive, harmed]

theorem execStageWrite_aligned {s : State} {p : PortId} {off : Nat} {v : Word} (hw : WriteReaches s p) (halign : off % 4 = 0)
    (hbar : off < barSize) : exec (.stageWrite p off v) s = .next (stageWrite p off v s) := by
  have hin : ¬(off % 4 != 0 || decide (barSize ≤ off)) = true := by simp [halign, hbar]
  simp only [exec, execStageWrite, if_neg hin, onWrite_reaches hw]

theorem clampField_weight (i : SliceIdx) (v : Word) :
    clampField (.weight i) (fieldOf v (fieldPlace (.weight i)).2.1 (fieldPlace (.weight i)).2.2) = max 1 (v.toNat % 65536) := by
  simp only [clampField, clampTo, fieldPlace, fieldOf, Nat.shiftRight_zero]
  omega

/-- Settles O21: the write by what a field takes, the commit and the discard by their own updates of the stage. -/
theorem stageCompletes : Obligations.stage_completes := by
  intro s p i v sum x hw
  refine ⟨fun harmed hroom hlive => ?_, ?_, ?_⟩
  · have hi := i.isLt
    have hexec : exec (.stageWrite p (0x21000 + 8 * i.val) v) s =
        .next (modStage p (takeField (appliedField s p (.weight i)) (.weight i)
          (fieldOf v (fieldPlace (.weight i)).2.1 (fieldPlace (.weight i)).2.2)) s) := by
      rw [execStageWrite_aligned hw (by omega) (by unfold barSize; omega), stageWrite_weight harmed hlive, stageField_takes hroom]
    refine ⟨_, hexec, rfl, ?_, ?_, fun f hf => shownField_takeField_other p s _ hf⟩
    · simp [modStage, modPort]
    · rw [shownField_takeField_same, clampField_weight]
  · simp only [exec, execStageCommit, onWrite_reaches hw, commitStage]
  · simp [exec, execStageDiscard, onWrite_reaches hw, discardStage]

end Sys2Proof.Machine
end

section
/-! PROOFS. STG_SUM: the CRC-16 taken bit by bit, over the entries in ascending place (R103). -/

namespace Sys2Proof.Machine

/-! ### The CRC-16, bit by bit (R103) -/

/-- The register takes one bit of the message. -/
def crc16Take (c : BitVec 16) (b : Bool) : BitVec 16 := if c.getLsbD 15 != b then (c <<< 1) ^^^ 0x1021 else c <<< 1

/-- A register with pending bits xored into its top takes the topmost, and the others move up. -/
theorem crc16Bit_xor (c x : BitVec 16) : crc16Bit (c ^^^ x) = crc16Take c (x.getLsbD 15) ^^^ (x <<< 1) := by
  unfold crc16Bit crc16Take
  rw [BitVec.getLsbD_xor, BitVec.shiftLeft_xor_distrib, Bool.bne_eq_xor]
  split
  · ac_rfl
  · rfl

theorem crc16Bit_iterate (n : Nat) (c x : BitVec 16) :
    crc16Bit^[n] (c ^^^ x) = (List.range n).foldl (fun c k => crc16Take c ((x <<< k).getLsbD 15)) c ^^^ (x <<< n) := by
  induction n with
  | zero => simp
  | succ n ih =>
    rw [Function.iterate_succ_apply', ih, crc16Bit_xor, List.range_succ, List.foldl_append, BitVec.shiftLeft_add]
    rfl

/-- A byte xored into the register's high half goes in bit by bit, the highest first. -/
theorem crc16Byte_bits (c : BitVec 16) (b : Byte) :
    crc16Byte c b = (List.range 8).foldl (fun c k => crc16Take c (b.getLsbD (7 - k))) c := by
  have hgone : (b.setWidth 16 <<< 8) <<< 8 = 0#16 := by
    ext k hk
    simp
  have hbit : ∀ k ∈ List.range 8, ((b.setWidth 16 <<< 8) <<< k).getLsbD 15 = b.getLsbD (7 - k) := by
    intro k hk
    have hlt : k < 8 := List.mem_range.mp hk
    rw [← BitVec.shiftLeft_add, BitVec.getLsbD_shiftLeft, BitVec.getLsbD_setWidth]
    have h7 : 15 - (8 + k) = 7 - k := by omega
    have hlow : 7 - k < 16 := by omega
    have htop : ¬ 15 < 8 + k := by omega
    simp [h7, hlow, htop]
  calc crc16Byte c b = crc16Bit^[8] (c ^^^ b.setWidth 16 <<< 8) := rfl
    _ = (List.range 8).foldl (fun c k => crc16Take c (((b.setWidth 16 <<< 8) <<< k).getLsbD 15)) c := by
      rw [crc16Bit_iterate, hgone, BitVec.xor_zero]
    _ = _ := List.foldl_ext _ _ _ fun d k hk => by rw [hbit k hk]

theorem crc16_bits (bs : Bytes) :
    crc16 bs = bs.foldl (fun c b => (List.range 8).foldl (fun c k => crc16Take c (b.getLsbD (7 - k))) c) 0xFFFF :=
  List.foldl_ext _ _ _ fun c b _ => crc16Byte_bits c b

/-! ### STG_SUM (R103) -/

/-- Keys ascend. -/
abbrev keyLe (a b : Nat × Bytes) : Prop := a.1 ≤ b.1

/-- Entries ascend by place. -/
abbrev placeLe (a b : StagedField × Nat) : Prop := keyLe (entryBytes a) (entryBytes b)

theorem insertKey_eq_orderedInsert (a : Nat × Bytes) (l : List (Nat × Bytes)) : insertKey a l = l.orderedInsert keyLe a := by
  induction l with
  | nil => rfl
  | cons b l ih => simp only [insertKey, List.orderedInsert, ih]

theorem foldr_insertKey (l : List (Nat × Bytes)) : l.foldr insertKey [] = l.insertionSort keyLe := by
  have hinsert : insertKey = List.orderedInsert keyLe := by
    funext a l
    exact insertKey_eq_orderedInsert a l
  rw [hinsert]
  rfl

/-- STG_SUM is the CRC of the entries' bytes, sorted by place. -/
theorem stageSum_sorted (g : Stage) : stageSum g = crc16 ((g.entries.insertionSort placeLe).flatMap fun e => (entryBytes e).2) := by
  rw [stageSum, keyedSum, foldr_insertKey, ← List.map_insertionSort placeLe keyLe _ _ fun _ _ _ _ => Iff.rfl, List.flatMap_map]

/-- Places that all differ ascend strictly once sorted. -/
theorem insertionSort_places_ascend {l : List (StagedField × Nat)} (h : (l.map fun e => (entryBytes e).1).Nodup) :
    ((l.insertionSort placeLe).map fun e => (entryBytes e).1).Pairwise fun a b => a < b := by
  have : Std.Total placeLe := ⟨fun a b => Nat.le_total _ _⟩
  have : IsTrans _ placeLe := ⟨fun _ _ _ => Nat.le_trans⟩
  have hle : ((l.insertionSort placeLe).map fun e => (entryBytes e).1).Pairwise (· ≤ ·) :=
    List.pairwise_map.mpr (List.pairwise_insertionSort placeLe l)
  have hne : ((l.insertionSort placeLe).map fun e => (entryBytes e).1).Nodup :=
    ((List.perm_insertionSort placeLe l).map _).nodup_iff.mpr h
  exact hle.imp₂ (fun _ _ => Nat.lt_of_le_of_ne) hne

/-- Settles O51: the list is the stage's entries sorted by place. -/
theorem stageSum_crc16 : Obligations.stage_sum := by
  intro g hplaces
  refine ⟨⟨g.entries.insertionSort placeLe, List.perm_insertionSort _ _, insertionSort_places_ascend hplaces, ?_⟩, fun hempty => ?_⟩
  · rw [stageSum_sorted, crc16_bits]
    rfl
  · rw [stageSum_sorted, hempty]
    rfl

end Sys2Proof.Machine
end

section
/-! PROOFS. A port share that DEVICE_STAGE clamps shows in CLAMPED of the port whose share it is (R101; log entry 177). -/

namespace Sys2Proof.Machine

open Sys2Proof.Claims

/-- Port 0's share 0, which is moved to 1, and port 1's share 256, which is legal. -/
def shareEntry : Word × Word := (0x10018, 0x01000000)

/-- In Idle the steward has taken up a DEVICE_STAGE of that entry, without flags, that came over USB 2.0. -/
def stagingState : State :=
  { State.reset with
    mode := { State.reset.mode with base := .idle }
    owner := some { origin := .usb 0 0, seq := 1, operand := .deviceStage 0 0 [shareEntry] } }

/-- A draft with nothing in it, for the draft that the statement names beside its device-stage clauses. -/
def blankDraft : Draft where
  magicOk := true
  format := 1
  device := 0
  familyId := 0
  version := 0
  hfSigned := 0
  hfLength := 0
  sectionCount := 0
  flags := 0
  zeros := true
  fileLength := 0
  sections := []
  benches := []
  conditioning := 0
  images := []
  sequencer := []
  selvTables := []
  adverts := []
  heddle := heddleSection State.reset
  classes := []
  severities := []
  power := { liteBenches := [], liteTrestles := [], liteSelv := [], idleUs := 0, sscDepth := 0, hdrSlew := 0 }
  compat := none
  hfBlock := { bytes := [], dsa := unsigned, ec := unsigned }
  owner := none

/-- The command stages the share and sets CLAMPED in port 0's stage. -/
theorem execDeviceStage_clamped :
    ∃ t, exec .deviceStage stagingState = .next t ∧ t.ports[(0 : PortId).val].stage.clamped = true ∧
      stagingState.ports[(0 : PortId).val].stage.clamped = false :=
  ⟨_, rfl, by decide +kernel, by decide +kernel⟩

/-- Refutes O25: a port share outside 1 to 1,021 also sets CLAMPED in the stage of its port (R101). -/
theorem not_ownerDeviceDraftCompletes : ¬ Obligations.owner_device_draft_completes := by
  intro h
  have hoffset : ∀ e ∈ [shareEntry], deviceOffset e.1.toNat = true := by simp [shareEntry, deviceOffset]
  obtain ⟨hstage, -⟩ := h stagingState 0 0 [shareEntry] 0 blankDraft (by decide) hoffset
  have hruns : OwnerRuns stagingState (.deviceStage 0 0 [shareEntry]) := rfl
  obtain ⟨t, hexec, -, hsame, -⟩ := hstage hruns rfl
  obtain ⟨-, hports⟩ := hsame
  obtain ⟨u, hexec', hset, hclear⟩ := execDeviceStage_clamped
  obtain rfl : u = t := Host.Outcome.next.inj (hexec'.symm.trans hexec)
  have hkept : u.ports[(0 : PortId).val].stage = stagingState.ports[(0 : PortId).val].stage := by rw [hports 0]
  rw [hkept, hclear] at hset
  exact absurd hset Bool.false_ne_true

end Sys2Proof.Machine
end

section
/-! PROOFS. What every part of the machine sends is added at the end of what was sent, and the queue of commands stands (R121). -/

namespace Sys2Proof.Machine

open Sys2Proof.Claims

/-! ### What goes out, and how the rules compose -/

/-- What `t` has sent since `s`. -/
def sentSince (s t : State) : List Tx := t.out.drop s.out.length

/-- The queue of commands stands, and what was sent stays sent. -/
@[simp] abbrev Extends (s t : State) : Prop := t.pending = s.pending ∧ ∃ l, t.out = s.out ++ l

/-- The same as two equations, by which `simp` rewrites. -/
abbrev Sends (s t : State) : Prop := t.pending = s.pending ∧ t.out = s.out ++ sentSince s t

theorem Sends.of {s t : State} (h : Extends s t) : Sends s t := by
  obtain ⟨hpending, l, hl⟩ := h
  exact ⟨hpending, by simp [sentSince, hl]⟩

theorem Sends.extends {s t : State} (h : Sends s t) : Extends s t := ⟨h.1, _, h.2⟩

theorem Sends.refl (s : State) : Sends s s := .of ⟨rfl, [], by simp⟩

theorem Sends.trans {s t u : State} (h : Sends s t) (k : Sends t u) : Sends s u :=
  .of ⟨k.1.trans h.1, sentSince s t ++ sentSince t u, by rw [k.2, h.2, List.append_assoc]⟩

theorem operation_sends {s t : State} (h : Frame.operation.Keeps s t) : Sends s t := by
  rw [h]
  exact .of ⟨rfl, [], by simp [Frame.operation]⟩

theorem bobbin_sends {s t : State} (h : Frame.bobbin.Keeps s t) : Sends s t := by
  rw [h]
  exact .of ⟨rfl, [], by simp [Frame.bobbin]⟩

theorem foldl_sends_of {α β : Type} (g : β → State) {f : β → α → β} (h : ∀ x a, Sends (g x) (g (f x a)))
    (l : List α) (x : β) : Sends (g x) (g (l.foldl f x)) := by
  induction l generalizing x with
  | nil => exact .refl _
  | cons a l ih => exact (h x a).trans (ih _)

theorem Sends.foldl {α : Type} {f : State → α → State} (h : ∀ s a, Sends s (f s a)) (l : List α) (s : State) : Sends s (l.foldl f s) :=
  foldl_sends_of (fun s => s) h l s

@[simp] theorem foldl_sends {α : Type} {f : State → α → State} (l : List α) (s : State) (h : ∀ s a, Extends s (f s a)) :
    Sends s (l.foldl f s) :=
  .foldl (fun s a => .of (h s a)) l s

@[simp] theorem ite_out {c : Prop} [Decidable c] (s t : State) : (if c then s else t).out = if c then s.out else t.out :=
  apply_ite State.out c s t

/-! A choice between two states that send goes on from what was sent. -/

@[simp] theorem ite_sent_then {c : Prop} [Decidable c] (x a : List Tx) : (if c then x ++ a else x) = x ++ if c then a else [] := by
  split <;> simp

@[simp] theorem ite_sent_else {c : Prop} [Decidable c] (x a : List Tx) : (if c then x else x ++ a) = x ++ if c then [] else a := by
  split <;> simp

@[simp] theorem ite_sent {c : Prop} [Decidable c] (x a b : List Tx) : (if c then x ++ a else x ++ b) = x ++ if c then a else b := by
  split <;> simp

/-! ### Events and the log -/

@[simp] theorem latchEntry_sends (e : LatchEntry) (s : State) : Sends s (latchEntry e s) := .of (by simp [latchEntry])

@[simp] theorem countLost_sends (severity : Nat) (s : State) : Sends s (countLost severity s) := by
  unfold countLost
  split <;> exact .of (by simp)

@[simp] theorem queueEvent_sends (e : Event) (s : State) : Sends s (queueEvent e s) := .of (by simp [queueEvent])

@[simp] theorem raise0_sends (ev : Nat) (s : State) : Sends s (raise0 ev s) := .of (by simp [raise0])

/-! ### Writes from the host, the chest, draws -/

@[simp] theorem onBar_sends (p : PortId) (act : State → State) (s : State) (h : ∀ t, Extends t (act t)) : Sends s (onBar p act s) := by
  unfold onBar
  split
  · exact .of (h s)
  · split <;> exact .of (by simp)

@[simp] theorem onWrite_sends (p : PortId) (act : State → State) (s : State) (h : ∀ t, Extends t (act t)) : Sends s (onWrite p act s) := by
  refine onBar_sends p _ s fun t => ?_
  split
  · exact (Sends.refl t).extends
  · exact h t

@[simp] theorem onBar_emit_sends (p : PortId) (x : Tx) (s : State) : Sends s (onBar p (emit x) s) :=
  onBar_sends p _ s fun _ => by simp

@[simp] theorem writeChest_sends (f : Chest → Chest) (s : State) : Sends s (writeChest f s) := .of (by simp [writeChest])

@[simp] theorem takeFree_sends (s : State) : Sends s (takeFree s).2 := .of (by simp [takeFree])

@[simp] theorem draw_sends (i : InstId) (n : Nat) (s : State) : Sends s (draw i n s).2 :=
  operation_sends (draw_keepsOperation _ _ s)

@[simp] theorem drawBuffer_sends (k : Fin 12) (n : Nat) (s : State) : Sends s (drawBuffer k n s).2 := .of (by simp [drawBuffer])

/-! ### How items end, and what a slice leaves -/

@[simp] theorem traceRecord_sends (p : PortId) (engine : Nat) (i : Option Item) (reason cls : Nat) (s : State) :
    Sends s (traceRecord p engine i reason cls s) :=
  .of (by simp [traceRecord])

@[simp] theorem traceItem_sends (reason : Nat) (i : Item) (s : State) : Sends s (traceItem reason i s) := .of (by simp [traceItem])

@[simp] theorem eraseTally_sends (sel : TallyRecord → Bool) (s : State) : Sends s (eraseTally sel s) :=
  operation_sends (eraseTally_keepsOperation _ s)

@[simp] theorem settleRuns_sends (s : State) : Sends s (settleRuns s) := operation_sends (settleRuns_keepsOperation s)

@[simp] theorem returnReservation_sends (id : Nat) (s : State) : Sends s (returnReservation id s) := .of (by simp [returnReservation])

@[simp] theorem endItem_sends (id : Nat) (d : Done) (eng : Nat) (s : State) : Sends s (endItem id d eng s) :=
  operation_sends (endItem_keepsOperation _ _ _ s)

@[simp] theorem failItem_sends (st : Status) (i : Item) (s : State) : Sends s (failItem st i s) := .of (by simp [failItem])

@[simp] theorem modContext_sends (i : Item) (f : JobContext → JobContext) (s : State) : Sends s (modContext i f s) :=
  operation_sends (modContext_keepsOperation _ _ s)

@[simp] theorem leaveStores_sends (i : Item) (s : State) : Sends s (leaveStores i s) :=
  operation_sends (leaveStores_keepsOperation _ s)

@[simp] theorem leaveUnits_sends (i : Item) (s : State) : Sends s (leaveUnits i s) :=
  operation_sends (leaveUnits_keepsOperation _ s)

@[simp] theorem failInService_sends (st : Status) (cycles : Nat) (i : Item) (s : State) : Sends s (failInService st cycles i s) :=
  operation_sends (failInService_keepsOperation _ _ _ s)

@[simp] theorem countAbandon_sends (i : Item) (s : State) : Sends s (countAbandon i s) := by
  unfold countAbandon
  (repeat' split) <;> exact .of (by simp)

@[simp] theorem resumeTrestle_sends (i : Item) (s : State) : Sends s (resumeTrestle i s) :=
  operation_sends (resumeTrestle_keepsOperation _ s)

@[simp] theorem restartCoded_sends (code : Nat) (fault : Bool) (excl : List Engine) (i : Item) (s : State) :
    Sends s (restartCoded code fault excl i s) :=
  .of (by simp [restartCoded])

@[simp] theorem restartItem_sends (fault : Bool) (excl : List Engine) (i : Item) (s : State) : Sends s (restartItem fault excl i s) :=
  .of (by simp [restartItem])

@[simp] theorem restartAllOn_sends (fault : Bool) (e : Engine) (s : State) : Sends s (restartAllOn fault e s) :=
  .of (by simp [restartAllOn])

@[simp] theorem discardItems_sends (p : PortId) (i : SliceIdx) (s : State) : Sends s (discardItems p i s) := .of (by simp [discardItems])

@[simp] theorem destroySlice_sends (p : PortId) (i : SliceIdx) (erase : Bool) (s : State) : Sends s (destroySlice p i erase s) := by
  unfold destroySlice
  extract_lets old uid s₁ s₂ s₃ keys m s₄ s₅ s₆ cards s₇
  have h₁ : Sends s s₁ := by
    unfold s₁
    cases old <;> exact .of (by simp)
  have h₇ : Sends s s₇ := .of (by simp [s₇, s₆, s₅, s₄, s₃, s₂, h₁])
  split <;> exact .of (by simp [h₇])

@[simp] theorem destroyAllSlices_sends (s : State) : Sends s (destroyAllSlices s) := .of (by simp [destroyAllSlices])

/-! ### Modes, fences, plans, answers -/

@[simp] theorem adminDone_sends (p : PortId) (st : Status) (result : Nat) (output : Bytes) (s : State) : Sends s (adminDone p st result output s) :=
  .of (by simp [adminDone])

@[simp] theorem ownerDone_sends (st : Status) (s : State) : Sends s (ownerDone st s) := by
  unfold ownerDone
  split
  · exact .refl s
  · dsimp only
    split
    · split
      · split <;> exact .of (by simp)
      · exact .of (by simp)
    · exact .of (by simp)

@[simp] theorem rethreadDone_sends (st : Status) (s : State) : Sends s (rethreadDone st s) := by
  unfold rethreadDone
  (repeat' split) <;> exact .of (by simp)

@[simp] theorem setMode_sends (m : Mode) (cause : Nat) (s : State) : Sends s (setMode m cause s) := .of (by simp [setMode])

@[simp] theorem endFirstThreading_sends (s : State) : Sends s (endFirstThreading s) := .of (by simp [endFirstThreading])

@[simp] theorem enterHold_sends (cause : Nat) (s : State) : Sends s (enterHold cause s) := .of (by simp [enterHold])

@[simp] theorem beginThreading_sends (src : Nat) (other re : Bool) (cause : Nat) (s : State) : Sends s (beginThreading src other re cause s) :=
  .of (by simp [beginThreading, disarmStages])

@[simp] theorem leaveWake_sends (s : State) : Sends s (leaveWake s) := by
  unfold leaveWake
  (repeat' split) <;> exact .of (by simp)

@[simp] theorem leaveIdle_sends (s : State) : Sends s (leaveIdle s) := .of (by simp [leaveIdle])

@[simp] theorem degrade_sends (cause : Nat) (s : State) : Sends s (degrade cause s) := .of (by simp [degrade])

theorem unask_sends (sel : Engine → Bool) (s : State) : Sends s (unask sel s) := .of (by simp)

@[simp] theorem restartWhere_sends (code : Nat) (fault : Bool) (sel : Engine → Bool) (s : State) : Sends s (restartWhere code fault sel s) := by
  refine Sends.trans (.foldl (fun s i => ?_) _ s) (unask_sends sel _)
  dsimp only
  split <;> exact .of (by simp)

@[simp] theorem fenceUnits_sends (fault : Bool) (benches : BitVec 16) (looms : List LoomId) (trestles : BitVec 8) (selvs : BitVec 4) (s : State) :
    Sends s (fenceUnits fault benches looms trestles selvs s) := by
  unfold fenceUnits
  dsimp only
  split <;> exact .of (by simp)

@[simp] theorem queueSeed_sends (i : InstId) (s : State) : Sends s (queueSeed i s) := .of (by simp [queueSeed])

@[simp] theorem requestSeed_sends (i : InstId) (s : State) : Sends s (requestSeed i s) := .of (by simp [requestSeed])

@[simp] theorem askBenchSeeds_sends (s : State) : Sends s (askBenchSeeds s) := .of (by simp [askBenchSeeds])

@[simp] theorem bobbinRestartDone_sends (st : Status) (s : State) : Sends s (bobbinRestartDone st s) := by
  unfold bobbinRestartDone
  (repeat' split) <;> exact .of (by simp)

@[simp] theorem parkBenches_sends (m : BitVec 16) (s : State) : Sends s (parkBenches m s) := .of (by simp [parkBenches, parkBench])

@[simp] theorem settleBelowMin_sends (s : State) : Sends s (settleBelowMin s) := .of (by simp [settleBelowMin])

@[simp] theorem removeFunction_sends (p : PortId) (s : State) : Sends s (removeFunction p s) :=
  .of (by simp [removeFunction, destroyPortSlices])

@[simp] theorem detachFunction_sends (p : PortId) (s : State) : Sends s (detachFunction p s) := .of (by simp [detachFunction])

@[simp] theorem oneSlotPowered_sends (s : State) : Sends s (oneSlotPowered s) := by
  unfold oneSlotPowered
  split <;> exact .of (by simp [cutSlot])

@[simp] theorem planFallMode_sends (s : State) : Sends s (planFallMode s) := by
  unfold planFallMode
  split <;> exact .of (by simp [bobbinOff])

@[simp] theorem replan_sends (s : State) : Sends s (replan s) := .of (by simp [replan, planFall])

@[simp] theorem bulk_sends (low : Bool) (s : State) : Sends s (bulk low s) := .of (by simp [bulk])

@[simp] theorem returnBenches_sends (s : State) : Sends s (returnBenches s) := .of (by simp [returnBenches])

@[simp] theorem clearDrawers_sends (s : State) : Sends s (clearDrawers s) :=
  .of (by simp [clearDrawers])

@[simp] theorem abandonAll_sends (st : Status) (s : State) : Sends s (abandonAll st s) := by
  refine .foldl (fun s i => ?_) _ s
  split
  · split <;> exact .of (by simp)
  · exact .of (by simp)
  · exact .of (by simp)

@[simp] theorem abandonAdmin_sends (st : Status) (s : State) : Sends s (abandonAdmin st s) := by
  unfold abandonAdmin
  extract_lets s₁
  have h₁ : Sends s s₁ := .of (by simp [s₁])
  refine h₁.trans (.foldl (fun s p => ?_) _ s₁)
  split
  · split <;> exact .of (by simp)
  · exact .refl s

@[simp] theorem zeroizeLine_sends (s : State) : Sends s (zeroizeLine s) := .of (by simp [zeroizeLine, stopCeremony])

@[simp] theorem tamperFence_sends (src : SourceId) (sc : FenceScope) (s : State) : Sends s (tamperFence src sc s) :=
  .of (by simp [tamperFence])

@[simp] theorem haltResponse_sends (s : State) : Sends s (haltResponse s) := .of (by simp [haltResponse])

@[simp] theorem markFiring_sends (src : SourceId) (machine code cls : Nat) (s : State) : Sends s (markFiring src machine code cls s) :=
  .of (by simp [markFiring])

@[simp] theorem openPair_sends (fs : List (Firing × Nat)) (s : State) : Sends s (openPair fs s) := .of (by simp [openPair])

@[simp] theorem useNonce_sends (s : State) : Sends s (useNonce s) := .of (by simp [useNonce])

@[simp] theorem abandonWork_sends (s : State) (w : WaitingEnvelope) : Sends s (abandonWork s w) := by
  unfold abandonWork
  split <;> exact .of (by simp)

@[simp] theorem abandonSteward_sends (s : State) : Sends s (abandonSteward s) := .of (by simp [abandonSteward])

/-! ### The logbook -/

@[simp] theorem takeRecord_sends (r : LogRecord) (s : State) : Sends s (takeRecord r s) := by
  unfold takeRecord
  (repeat' split) <;> exact .of (by simp)

@[simp] theorem repeatRecord_sends (seq : Word) (t : Nat) (s : State) : Sends s (repeatRecord seq t s) := .of (by simp [repeatRecord])

@[simp] theorem takeEvent_sends (e : Event) (s : State) : Sends s (takeEvent e s) := by
  unfold takeEvent
  split <;> exact .of (by simp)

@[simp] theorem writeRecord_sends (r : LogRecord) (s : State) : Sends s (writeRecord r s) := .of (by simp [writeRecord])

@[simp] theorem loseBackup_sends (s : State) : Sends s (loseBackup s) := .of (by simp [loseBackup])

/-! ### The tally region -/

@[simp] theorem countTallyWrites_sends (n : Nat) (s : State) : Sends s (countTallyWrites n s) := .of (by simp [countTallyWrites])

@[simp] theorem scanRecord_sends (s : State) (t : TallyRecord) : Sends s (scanRecord s t) := by
  unfold scanRecord
  dsimp only
  split
  · exact .of (by simp)
  · split
    · split <;> exact .of (by simp)
    · exact .of (by simp)

@[simp] theorem writeTally_sends (number : Nat) (c : TallyCopy) (w : TallyWaiter) (s : State) : Sends s (writeTally number c w s) :=
  .of (by simp [writeTally])

@[simp] theorem reserveTally_sends (id : Nat) (uid : BitVec 64) (s : State) : Sends s (reserveTally id uid s) := by
  unfold reserveTally
  split <;> exact .of (by simp)

@[simp] theorem reserveIndices_sends (t : TallyRecord) (s : State) : Sends s (reserveIndices t s) := by
  unfold reserveIndices
  split <;> exact .of (by simp)

@[simp] theorem reserveFor_sends (i : Item) (s : State) : Sends s (reserveFor i s) := by
  unfold reserveFor
  (repeat' split) <;> exact .of (by simp)

@[simp] theorem bindIndex_sends (i : Item) (s : State) : Sends s (bindIndex i s) := by
  unfold bindIndex
  (repeat' split) <;> exact .of (by simp [raisePointer])

@[simp] theorem markExhausted_sends (i : Item) (s : State) : Sends s (markExhausted i s) := by
  unfold markExhausted
  (repeat' split) <;> exact .of (by simp)

/-! ### Reports to the host -/

@[simp] theorem sendMessage_sends (p : PortId) (vector : Nat) (s : State) : Sends s (sendMessage p vector s) := by
  unfold sendMessage
  dsimp only
  split
  · exact .refl s
  · split <;> exact .of (by simp)

@[simp] theorem queueMessage_sends (p : PortId) (n : Nat) (s : State) : Sends s (queueMessage p n s) := by
  unfold queueMessage
  split <;> exact .of (by simp)

@[simp] theorem adminMessage_sends (p : PortId) (s : State) : Sends s (adminMessage p s) := .of (by simp [adminMessage])

@[simp] theorem countWritten_sends (p : PortId) (n : Nat) (e : Entry) (s : State) : Sends s (countWritten p n e s) := by
  unfold countWritten
  dsimp only
  split <;> exact .of (by simp)

@[simp] theorem queueError_sends (p : PortId) (n err : Nat) (s : State) : Sends s (queueError p n err s) := by
  unfold queueError
  (repeat' split) <;> exact .of (by simp)

@[simp] theorem report_sends (src : Nat) (ue : Bool) (s : State) : Sends s (report src ue s) := .of (by simp [report])

/-! ### Admission and ring reads -/

@[simp] theorem takeScratch_sends (id : Nat) (s : State) : Sends s (takeScratch id s) := by
  unfold takeScratch
  (repeat' split) <;> exact .of (by simp)

@[simp] theorem enterList_sends (id : Nat) (s : State) : Sends s (enterList id s) := by
  unfold enterList
  split <;> exact .of (by simp)

@[simp] theorem park_sends (full : Bool) (id : Nat) (s : State) : Sends s (park full id s) := by
  unfold park
  split <;> exact .of (by simp)

@[simp] theorem offer_sends (id : Nat) (s : State) : Sends s (offer id s) := by
  unfold offer
  dsimp only
  split <;> exact .of (by simp)

@[simp] theorem settleCredit_sends (s : State) : Sends s (settleCredit s) := .of (by simp [settleCredit])

@[simp] theorem askPages_sends (p : PortId) (i : SliceIdx) (pages : List Nat) (s : State) : Sends s (askPages p i pages s) :=
  .of (by simp [askPages])

@[simp] theorem touchPages_sends (p : PortId) (i : SliceIdx) (pages : List Nat) (s : State) : Sends s (touchPages p i pages s) :=
  .of (by simp [touchPages])

@[simp] theorem issueRead_sends (q : Queue) (n : Nat) (s : State) : Sends s (issueRead q n s) := .of (by simp [issueRead])

@[simp] theorem pumpScans_sends (s : State) : Sends s (pumpScans s) := by
  refine .foldl (fun s q => ?_) _ s
  split <;> exact .of (by simp)

@[simp] theorem pumpAdmin_sends (s : State) : Sends s (pumpAdmin s) := .of (by simp [pumpAdmin])

@[simp] theorem settleDrains_sends (s : State) : Sends s (settleDrains s) := by
  refine .foldl (fun s p => ?_) _ s
  dsimp only
  split <;> exact .of (by simp)

@[simp] theorem settleHeddle_sends (s : State) : Sends s (settleHeddle s) := .of (by simp [settleHeddle, markOldest])

@[simp] theorem settleAfterLeave_sends (s : State) : Sends s (settleAfterLeave s) := .of (by simp [settleAfterLeave, retryParked])

@[simp] theorem touchFetch_sends (q : Queue) (f : Fetched) (reached : Bool) (s : State) : Sends s (touchFetch q f reached s) :=
  .of (by simp [touchFetch])

@[simp] theorem reserve_sends (id : Nat) (x : Slice) (info : OpInfo) (e : Entry) (s : State) : Sends s (reserve id x info e s) := by
  unfold reserve
  (repeat' split) <;> exact .of (by simp)

@[simp] theorem failAtFetch_sends (id : Nat) (x : Slice) (ff : FetchFail) (s : State) : Sends s (failAtFetch id x ff s) := by
  unfold failAtFetch
  dsimp only
  split <;> exact .of (by simp)

@[simp] theorem placeItem_sends (id : Nat) (random : Bool) (s : State) : Sends s (placeItem id random s) := by
  unfold placeItem
  split <;> exact .of (by simp)

@[simp] theorem takeEntry_sends (q : Queue) (x : Slice) (f : Fetched) (s : State) : Sends s (takeEntry q x f s) := by
  unfold takeEntry
  extract_lets id e info fail claim named i s₁ items s₂ s₃ s₄
  have h₃ : Sends s s₃ := .of (by simp [s₃, s₂, s₁])
  have h₄ : Sends s s₄ := by
    unfold s₄
    cases claim <;> exact .of (by simp [h₃])
  cases fail <;> exact .of (by simp [h₄])

@[simp] theorem takeEntries_sends (p : PortId) (n : Nat) (l : List Fetched) (s : State) : Sends s (takeEntries p n l s).1 := by
  induction l generalizing s with
  | nil => exact .refl s
  | cons f l ih =>
    unfold takeEntries
    split
    · exact .refl s
    · split
      · exact .refl s
      · split
        · exact .refl s
        · split
          · exact .refl s
          · exact .trans (.of (by simp)) (ih _)

@[simp] theorem afterRead_sends (p : PortId) (n : Nat) (stopped : Bool) (s : State) : Sends s (afterRead p n stopped s) := by
  unfold afterRead
  split <;> exact .of (by simp)

@[simp] theorem workRead_sends (p : PortId) (n count : Nat) (r : RingResult) (s : State) : Sends s (workRead p n count r s) := by
  unfold workRead
  dsimp only
  split <;> exact .of (by simp)

@[simp] theorem barAdmin_sends (p : PortId) (code : Nat) (s : State) : Sends s (barAdmin p code s) := .of (by simp [barAdmin])

@[simp] theorem adminRead_sends (p : PortId) (r : RingResult) (s : State) : Sends s (adminRead p r s) := by
  unfold adminRead
  (repeat' split) <;> exact .of (by simp [takeAdmin])

@[simp] theorem outputFault_sends (e : Engine) (s : State) : Sends s (outputFault e s) := by
  unfold outputFault
  split <;> exact .of (by simp)

@[simp] theorem writtenBytes_sends (overlaps : Bool) (bs : Bytes) (s : State) : Sends s (writtenBytes overlaps bs s).2 := by
  unfold writtenBytes
  split <;> exact .of (by simp)

@[simp] theorem writeItem_sends (i : Item) (d : Done) (w : WriteBack) (s : State) : Sends s (writeItem i d w s) := by
  unfold writeItem
  (repeat' split) <;> exact .of (by simp [writeOutput, outputBytes])

@[simp] theorem writeCompletion_sends (id : Nat) (outcome : WriteBack) (s : State) : Sends s (writeCompletion id outcome s) := by
  unfold writeCompletion
  (repeat' split) <;> exact .of (by simp [writeAdmin])

/-! ### The heddle -/

@[simp] theorem enterContext_sends (i : Item) (draws : Bool) (s : State) : Sends s (enterContext i draws s) := by
  unfold enterContext
  (repeat' split) <;> exact .of (by simp)

@[simp] theorem grantDraws_sends (e : Engine) (i : Item) (s : State) : Sends s (grantDraws e i s) := by
  unfold grantDraws
  split <;> exact .of (by simp [startRoutine])

@[simp] theorem grantActs_sends (e : Engine) (i : Item) (s : State) : Sends s (grantActs e i s) := by
  unfold grantActs
  (repeat' split) <;> exact .of (by simp [requestPred])

@[simp] theorem suspendLong_sends (t : TrestleId) (s : State) : Sends s (suspendLong t s) := by
  unfold suspendLong
  split <;> exact .of (by simp)

@[simp] theorem grant_sends (e : Engine) (yielding : List TrestleId) (i : Item) (reason : Nat) (s : State) :
    Sends s (grant e yielding i reason s) := by
  unfold grant
  extract_lets partner t s₁ ctx placed s₂ m s₃ s₄ c last heddle s₅ s₆ s₇
  have h₁ : Sends s s₁ := by
    unfold s₁
    cases t <;> exact .of (by simp)
  have h₃ : Sends s₂ s₃ := by
    unfold s₃
    cases t <;> exact .of (by simp)
  have h₇ : Sends s s₇ := .of (by simp [s₇, s₆, s₅, s₄, h₃, s₂, h₁])
  split
  · split <;> exact .of (by simp [h₇])
  · exact .of (by simp [h₇])

@[simp] theorem grantLoop_sends (n : Nat) (e : Engine) (y : List TrestleId) (only : Item → Bool) (s : State) :
    Sends s (grantLoop n e y only s).1 := by
  induction n generalizing s with
  | zero => exact .refl s
  | succ n ih =>
    unfold grantLoop
    split
    · exact .refl s
    · split
      · exact .of (by simp [ih])
      · exact grant_sends ..

@[simp] theorem serveFirst_sends (y : List TrestleId) (l : List Engine) (s : State) : Sends s (serveFirst y l s).1 := by
  induction l generalizing s with
  | nil => exact .refl s
  | cons e l ih =>
    unfold serveFirst
    dsimp only
    split
    · exact grantLoop_sends ..
    · exact (grantLoop_sends ..).trans (ih _)

@[simp] theorem serveClass_sends (x : State × List TrestleId × Bool) (c : SvcClass) : Sends x.1 (serveClass x c).1 := by
  unfold serveClass
  dsimp only
  split
  · exact .refl _
  · split <;> exact serveFirst_sends ..

@[simp] theorem heddleCycle_sends (y : List TrestleId) (s : State) : Sends s (heddleCycle y s) := by
  unfold heddleCycle
  split
  · exact foldl_sends_of Prod.fst serveClass_sends _ _
  · exact .refl s

@[simp] theorem serveYield_sends (l : List Engine) (s : State) : Sends s (serveYield l s) := by
  induction l generalizing s with
  | nil => exact .refl s
  | cons e l ih =>
    unfold serveYield
    dsimp only
    split
    · exact grantLoop_sends ..
    · exact (grantLoop_sends ..).trans (ih _)

@[simp] theorem routineFault_sends (i : Item) (s : State) : Sends s (routineFault i s) := by
  unfold routineFault
  split <;> exact .of (by simp)

@[simp] theorem finishKey_sends (id : Nat) (r : KeyRun) (s : State) : Sends s (finishKey id r s) := by
  unfold finishKey
  (repeat' split) <;> exact .of (by simp)

@[simp] theorem retireKey_sends (id : Nat) (r : KeyRun) (s : State) : Sends s (retireKey id r s) := by
  unfold retireKey
  (repeat' split) <;> exact .of (by simp)

@[simp] theorem takeBlock_sends (u : FarmUser) (s : State) : Sends s (takeBlock u s) := by
  unfold takeBlock
  split <;> exact .of (by simp)

/-! ### Commits -/

@[simp] theorem countLoomMismatch_sends (n : LoomId) (lane : Option (Fin 8)) (s : State) : Sends s (countLoomMismatch n lane s) :=
  .of (by simp [countLoomMismatch])

@[simp] theorem loomMismatch_sends (n : LoomId) (lane : Option (Fin 8)) (s : State) : Sends s (loomMismatch n lane s) :=
  .of (by simp [loomMismatch])

@[simp] theorem selvMismatch_sends (u : SelvId) (s : State) : Sends s (selvMismatch u s) := .of (by simp [selvMismatch])

@[simp] theorem fenceTrestle_sends (t : TrestleId) (s : State) : Sends s (fenceTrestle t s) := .of (by simp [fenceTrestle])

@[simp] theorem reportTrestle_sends (t : TrestleId) (s : State) : Sends s (reportTrestle t s) := .of (by simp [reportTrestle])

@[simp] theorem countTrestleMismatch_sends (t : TrestleId) (s : State) : Sends s (countTrestleMismatch t s) :=
  .of (by simp [countTrestleMismatch])

@[simp] theorem trestleMismatch_sends (t : TrestleId) (i : Item) (s : State) : Sends s (trestleMismatch t i s) :=
  .of (by simp [trestleMismatch])

@[simp] theorem bothMismatch_sends (n : LoomId) (lane : Option (Fin 8)) (t : TrestleId) (i : Item) (s : State) :
    Sends s (bothMismatch n lane t i s) :=
  .of (by simp [bothMismatch])

@[simp] theorem commitRun_sends (i : Item) (kind family set : Nat) (policy : Word) (content : Bytes) (keyId : Nat) (building : Bool) (s : State) :
    Sends s (commitRun i kind family set policy content keyId building s) := by
  unfold commitRun
  split <;> exact .of (by simp)

@[simp] theorem commitAct_sends (i : Item) (a : CommitAct) (s : State) : Sends s (commitAct i a s) := by
  unfold commitAct
  (repeat' split) <;> exact .of (by simp [installLoom, touchLoom, installSelv, touchSelv])

@[simp] theorem countLookup_sends (i : Item) (hit : Option Bool) (s : State) : Sends s (countLookup i hit s) := by
  unfold countLookup
  split <;> exact .of (by simp)

@[simp] theorem addAverage_sends (i : Item) (cycles : Nat) (s : State) : Sends s (addAverage i cycles s) := by
  unfold addAverage
  (repeat' split) <;> exact .of (by simp)

@[simp] theorem passBuffer_sends (i : Item) (s : State) : Sends s (passBuffer i s) := by
  unfold passBuffer
  split <;> exact .of (by simp)

@[simp] theorem commitItem_sends (e : Engine) (cycles : Nat) (i : Item) (r : ItemResult) (s : State) : Sends s (commitItem e cycles i r s) := by
  unfold commitItem
  split <;> exact .of (by simp)

@[simp] theorem routineEnds_sends (e : Engine) (s : State) : Sends s (routineEnds e s) := by
  unfold routineEnds
  split <;> exact .of (by simp)

@[simp] theorem commitLoom_sends (n : LoomId) (cycles : Nat) (i : Item) (r : ItemResult) (s : State) : Sends s (commitLoom n cycles i r s) := by
  unfold commitLoom
  (repeat' split) <;> exact .of (by simp)

@[simp] theorem commitOther_sends (e : Engine) (cycles : Nat) (i : Item) (r : ItemResult) (s : State) : Sends s (commitOther e cycles i r s) := by
  unfold commitOther
  split
  · split <;> exact .of (by simp)
  · exact .of (by simp)
  · exact .of (by simp)
  · exact .of (by simp)

@[simp] theorem commitRoutine_sends (n : LoomId) (cycles : Nat) (i : Item) (s : State) : Sends s (commitRoutine n cycles i s) := by
  unfold commitRoutine
  (repeat' split) <;> exact .of (by simp)

@[simp] theorem commitOn_sends (e : Engine) (cycles : Nat) (s : State) : Sends s (commitOn e cycles s) := by
  unfold commitOn
  (repeat' split) <;> exact .of (by simp)

/-! ### Start-up -/

@[simp] theorem loadCal_sends (s : State) : Sends s (loadCal s) := by
  unfold loadCal
  split <;> exact .of (by simp [useCal, markBaselines])

@[simp] theorem deriveIdentity_sends (s : State) : Sends s (deriveIdentity s) := .of (by simp [deriveIdentity])

@[simp] theorem readChest_sends (s : State) : Sends s (readChest s) := .of (by simp [readChest])

@[simp] theorem recordCheck_sends (src : Nat) (ownerPart : Bool) (f : CheckFail) (s : State) : Sends s (recordCheck src ownerPart f s) :=
  .of (by simp [recordCheck])

@[simp] theorem loadDraft_sends (src : Nat) (other_ re : Bool) (whole : Draft) (s : State) : Sends s (loadDraft src other_ re whole s) :=
  .of (by simp [loadDraft, enterPlanUnits, newFamily, clampApplied])

@[simp] theorem draftRead_sends (readOk : Bool) (src : Nat) (other re : Bool) (s : State) : Sends s (draftRead readOk src other re s) := by
  unfold draftRead
  dsimp only
  split <;> exact .of (by simp)

@[simp] theorem applyTestFences_sends (re : Bool) (f : TestFences) (s : State) : Sends s (applyTestFences re f s) :=
  .of (by simp [applyTestFences])

@[simp] theorem clearSticky_sends (f : TestFences) (cabinet : Bool) (s : State) : Sends s (clearSticky f cabinet s) :=
  .of (by simp [clearSticky])

@[simp] theorem clearAllDrawers_sends (s : State) : Sends s (clearAllDrawers s) := by
  unfold clearAllDrawers
  dsimp only
  refine .trans ?_ (.foldl (fun s i => failItem_sends _ i s) _ _)
  split
  · exact .of (by simp)
  · exact .refl s

@[simp] theorem endThreading_sends (s : State) : Sends s (endThreading s) := .of (by simp [endThreading])

@[simp] theorem tornBurn_sends (s : State) : Sends s (tornBurn s).2 := by
  unfold tornBurn
  split <;> exact .of (by simp)

@[simp] theorem ownerStart_sends (s : State) : Sends s (ownerStart s) := .of (by simp [ownerStart])

@[simp] theorem quorumFails_sends (s : State) : Sends s (quorumFails s) := .of (by simp [quorumFails])

/-! ### Cards and ceremonies -/

@[simp] theorem sendCard_sends (rate : CardRate) (op : BitVec 5) (addr arg : Nat) (s : State) : Sends s (sendCard rate op addr arg s) :=
  .of (by simp [sendCard])

@[simp] theorem sendTo_sends (c : CardSlot) (op : BitVec 5) (arg : Nat) (s : State) : Sends s (sendTo c op arg s) := .of (by simp [sendTo])

@[simp] theorem powerSlots_sends (s : State) : Sends s (powerSlots s) := .of (by simp [powerSlots])

@[simp] theorem cardEvents_sends (a b c : BitVec 4) (s : State) : Sends s (cardEvents a b c s) := .of (by simp [cardEvents])

@[simp] theorem attachCard_sends (c : CardSlot) (s : State) : Sends s (attachCard c s) := .of (by simp [attachCard])

@[simp] theorem readRun_sends (c : CardSlot) (first n : Nat) (s : State) : Sends s (readRun c first n s) := .of (by simp [readRun])

@[simp] theorem sendSwitch_sends (c : CardSlot) (s : State) : Sends s (sendSwitch c s) := .of (by simp [sendSwitch])

@[simp] theorem reachCard_sends (c : CardSlot) (s : State) : Sends s (reachCard c s) := .of (by simp [reachCard])

@[simp] theorem leaveCard_sends (c : CardSlot) (s : State) : Sends s (leaveCard c s) := .of (by simp [leaveCard])

@[simp] theorem failCard_sends (c : CardSlot) (ev err : Nat) (s : State) : Sends s (failCard c ev err s) := .of (by simp [failCard])

@[simp] theorem markDuplicate_sends (c : CardSlot) (who : List CardSlot) (s : State) : Sends s (markDuplicate c who s) :=
  .of (by simp [markDuplicate])

@[simp] theorem acceptCard_sends (c : CardSlot) (d : CardData) (mode : Nat) (s : State) : Sends s (acceptCard c d mode s) :=
  .of (by simp [acceptCard, scanCard])

@[simp] theorem switchCard_sends (c : CardSlot) (d : CardData) (s : State) : Sends s (switchCard c d s) := .of (by simp [switchCard])

@[simp] theorem endSequence_sends (s : State) : Sends s (endSequence s) := by
  unfold endSequence
  split
  · exact .refl s
  · refine .trans (sendCard_sends ..) (.foldl (fun s c => ?_) _ _)
    split <;> exact .of (by simp)

@[simp] theorem identifySlot_sends (addr : Nat) (c : CardSlot) (d : CardData) (st : BitVec 30) (s : State) :
    Sends s (identifySlot addr c d st s) :=
  .of (by simp [identifySlot])

@[simp] theorem identify_sends (c : CardSlot) (d : CardData) (s : State) : Sends s (identify c d s) := by
  unfold identify
  extract_lets s₁ addr s₂ s₃ s₄ take s₅
  have h₁ : Sends s s₁ := .of (by simp [s₁, resetAll])
  have h₃ : Sends s s₃ := .of (by simp [s₃, s₂, h₁])
  have htake (st : BitVec 30) (t : State) : Sends t (take st t) := .of (by simp [take])
  (repeat' split) <;> exact .of (by simp [htake, s₅, s₄, h₃, h₁])

@[simp] theorem identifyAgain_sends (c : CardSlot) (d : CardData) (s : State) : Sends s (identifyAgain c d s) :=
  .of (by simp [identifyAgain])

@[simp] theorem readCopy_sends (c : CardSlot) (p : CardPlace) (b : Bool) (n : Nat) (s : State) : Sends s (readCopy c p b n s) :=
  .of (by simp [readCopy])

@[simp] theorem readQuorum_sends (s : State) : Sends s (readQuorum s) := .of (by simp [readQuorum])

@[simp] theorem lockSlot_sends (c : CardSlot) (s : State) : Sends s (lockSlot c s) := .of (by simp [lockSlot])

@[simp] theorem noRoom_sends (c : CardSlot) (s : State) : Sends s (noRoom c s) := .of (by simp [noRoom])

@[simp] theorem sendCopy_sends (c : CardSlot) (first : Nat) (bytes : Bytes) (acks : List (BitVec 4)) (s : State) :
    Sends s (sendCopy c first bytes acks s) :=
  .of (by simp [sendCopy, writeRun])

@[simp] theorem writeCard_sends {α : Type} (c : CardSlot) (p : CardPlace) (new : Stored α) (payload : Bytes) (w : CardWrite)
    (f : CardState → CardState) (s : State) : Sends s (writeCard c p new payload w f s).1 := by
  unfold writeCard
  split
  · exact .refl s
  · split
    · exact .of (by simp)
    · extract_lets n s₁
      split <;> exact .of (by simp [s₁])

@[simp] theorem failCeremony_sends (err : Nat) (s : State) : Sends s (failCeremony err s) := .of (by simp [failCeremony])

@[simp] theorem commitCeremony_sends (kind : Nat) (ork owner : Bytes) (seq : Word) (s : State) : Sends s (commitCeremony kind ork owner seq s) :=
  .of (by simp [commitCeremony, newDeviceRoot])

@[simp] theorem endCeremony_sends (s : State) : Sends s (endCeremony s) := .of (by simp [endCeremony])

@[simp] theorem finishCeremony_sends (b : CeremonyBlock) (s : State) : Sends s (finishCeremony b s) := by
  unfold finishCeremony
  split <;> exact .of (by simp)

@[simp] theorem drawCeremony_sends (b : CeremonyBlock) (s : State) : Sends s (drawCeremony b s) := by
  unfold drawCeremony
  split <;> exact .of (by simp)

@[simp] theorem runCeremony_sends (b : CeremonyBlock) (s : State) : Sends s (runCeremony b s) := by
  unfold runCeremony
  dsimp only
  split
  · exact .of (by simp)
  · split <;> exact .of (by simp)
  · split
    · split <;> exact .of (by simp)
    · exact .of (by simp)

@[simp] theorem continueCeremony_sends (s : State) : Sends s (continueCeremony s) := by
  unfold continueCeremony
  split <;> exact .of (by simp)

/-! ### The bobbin -/

@[simp] theorem failWaiting_sends (s : State) : Sends s (failWaiting s) := by
  unfold failWaiting
  split
  · exact .refl s
  · extract_lets s₁ s₂ s₃
    have h₁ : Sends s s₁ := .foldl (fun s i => failItem_sends _ i s) _ s
    have h₂ : Sends s₁ s₂ := by
      refine .foldl (fun s p => ?_) _ s₁
      split <;> exact .of (by simp)
    have h₃ : Sends s₂ s₃ := .of (by simp [s₃])
    exact .of (by simp [h₃, h₂, h₁])

@[simp] theorem bobbinFails_sends (s : State) : Sends s (bobbinFails s) := .of (by simp [bobbinFails])

@[simp] theorem takeSeed_sends (s : State) : Sends s (takeSeed s).2 := by
  unfold takeSeed
  split <;> exact .of (by simp [conditionBlock])

@[simp] theorem giveNonce_sends (p : PortId) (seq : BitVec 16) (s : State) : Sends s (giveNonce p seq s) := .of (by simp [giveNonce])

@[simp] theorem releaseSeedWaits_sends (s : State) : Sends s (releaseSeedWaits s) := .of (by simp [releaseSeedWaits])

/-! ### Life cycle, stages -/

@[simp] theorem onUsb_sends (p : PortId) (act : State → State) (s : State) (h : ∀ t, Extends t (act t)) : Sends s (onUsb p act s) := by
  unfold onUsb
  split
  · exact .of (h s)
  · exact .refl s

@[simp] theorem beginTransition_sends (target : Nat) (byToken : Option (PortId × BitVec 16)) (s : State) :
    Sends s (beginTransition target byToken s) := by
  unfold beginTransition
  split <;> exact .of (by simp)

@[simp] theorem wipeForExit_sends (target : Nat) (s : State) : Sends s (wipeForExit target s) := .of (by simp [wipeForExit])

/-! ### Staged fields -/

@[simp] theorem aloneTo_sends (t : Nat) (s : State) : Sends s (aloneTo t s) := .of (by simp [aloneTo])

@[simp] theorem markShareClamp_sends (off : Nat) (v : Word) (s : State) (p : PortId) : Sends s (markShareClamp off v s p) := by
  unfold markShareClamp
  split <;> exact .of (by simp)

@[simp] theorem applyField_sends (p : PortId) (s : State) (e : StagedField × Nat) : Sends s (applyField p s e) := by
  unfold applyField
  split <;> exact .of (by simp)

@[simp] theorem applyStage_sends (t : Nat) (s : State) (p : PortId) : Sends s (applyStage t s p) := .of (by simp [applyStage])

@[simp] theorem applyDevice_sends (t : Nat) (s : State) : Sends s (applyDevice t s) := .of (by simp [applyDevice, scaleWeights])

@[simp] theorem commitStage_sends (p : PortId) (sum : BitVec 16) (s : State) : Sends s (commitStage p sum s) := .of (by simp [commitStage])

@[simp] theorem discardStage_sends (p : PortId) (s : State) : Sends s (discardStage p s) := .of (by simp [discardStage])

/-! ### Slices and queues -/

@[simp] theorem adminCommand_sends (p : PortId) (code : Nat) (act : AdminEntry → State → State) (s : State)
    (h : ∀ e t, Extends t (act e t)) : Sends s (adminCommand p code act s) := by
  unfold adminCommand
  split
  · exact .refl s
  · (repeat' split) <;> exact .of (by simp [h])

@[simp] theorem adminDoneLen_sends (p : PortId) (st : Status) (result len : Nat) (s : State) : Sends s (adminDoneLen p st result len s) :=
  .of (by simp [adminDoneLen])

@[simp] theorem adminWait_sends (p : PortId) (w : AdminWait) (s : State) : Sends s (adminWait p w s) := .of (by simp [adminWait])

@[simp] theorem refuseSlice_sends (p : PortId) (code : Nat) (s : State) : Sends s (refuseSlice p code s) := .of (by simp [refuseSlice])

@[simp] theorem refuseQueue_sends (p : PortId) (code : Nat) (s : State) : Sends s (refuseQueue p code s) := .of (by simp [refuseQueue])

@[simp] theorem refuseMove_sends (p : PortId) (code : Nat) (s : State) : Sends s (refuseMove p code s) := .of (by simp [refuseMove])

@[simp] theorem createSliceAct_sends (p : PortId) (e : AdminEntry) (s : State) : Sends s (createSliceAct p e s) := by
  unfold createSliceAct
  split <;> exact .of (by simp)

@[simp] theorem destroySliceAct_sends (p : PortId) (e : AdminEntry) (s : State) : Sends s (destroySliceAct p e s) := by
  unfold destroySliceAct
  split <;> exact .of (by simp)

@[simp] theorem createQueueAct_sends (p : PortId) (e : AdminEntry) (s : State) : Sends s (createQueueAct p e s) := by
  unfold createQueueAct
  (repeat' split) <;> exact .of (by simp)

@[simp] theorem removeQueue_sends (p : PortId) (n : Nat) (s : State) : Sends s (removeQueue p n s) := .of (by simp [removeQueue])

@[simp] theorem destroyQueueAct_sends (p : PortId) (e : AdminEntry) (s : State) : Sends s (destroyQueueAct p e s) := by
  unfold destroyQueueAct
  dsimp only
  split
  · exact .of (by simp)
  · split <;> exact .of (by simp)

@[simp] theorem installQueue_sends (p : PortId) (n : Nat) (s : State) : Sends s (installQueue p n s) := by
  unfold installQueue
  (repeat' split) <;> exact .of (by simp)

@[simp] theorem installPort_sends (s : State) (p : PortId) : Sends s (installPort s p) := by
  unfold installPort
  (repeat' split) <;> exact .of (by simp [installSlice, thawSlice])

/-! ### Owner commands -/

@[simp] theorem acceptEnvelope_sends (p : PortId) (origin : OwnerOrigin) (e : Envelope) (op : OwnerOperand) (s : State) :
    Sends s (acceptEnvelope p origin e op s) :=
  .of (by simp [acceptEnvelope])

@[simp] theorem takeEnvelope_sends (p : PortId) (origin : OwnerOrigin) (e : Envelope) (refuse : Status → State → State) (s : State)
    (h : ∀ st t, Extends t (refuse st t)) : Sends s (takeEnvelope p origin e refuse s) := by
  unfold takeEnvelope
  split
  · exact .of (h _ _)
  · split
    · exact .of (h _ _)
    · split
      · exact .of (by simp)
      · exact .of (h _ _)

@[simp] theorem entryEnvelope_sends (p : PortId) (id : Nat) (env : Envelope) (s : State) : Sends s (entryEnvelope p id env s) := by
  unfold entryEnvelope
  split <;> exact .of (by simp)

@[simp] theorem signedAdmin_sends (p : PortId) (seq : BitVec 16) (env : Envelope) (s : State) : Sends s (signedAdmin p seq env s) :=
  .of (by simp [signedAdmin])

@[simp] theorem takeWork_sends (p : PortId) (seq : BitVec 16) (w : StewardWork) (s : State) : Sends s (takeWork p seq w s) := by
  unfold takeWork
  split <;> exact .of (by simp [debugResponse, enterTestRoot])

@[simp] theorem takeWaiting_sends (s : State) : Sends s (takeWaiting s) := by
  unfold takeWaiting
  split <;> exact .of (by simp)

@[simp] theorem arriveWork_sends (p : PortId) (seq : BitVec 16) (w : StewardWork) (s : State) : Sends s (arriveWork p seq w s) :=
  .of (by simp [arriveWork])

@[simp] theorem releaseHold_sends (s : State) : Sends s (releaseHold s) := by
  unfold releaseHold
  split <;> exact .of (by simp)

/-! ### Routines -/

@[simp] theorem reserveDeposit_sends (i : Item) (drawers : Nat) (s : State) : Sends s (reserveDeposit i drawers s) := by
  unfold reserveDeposit
  (repeat' split) <;> exact .of (by simp)

@[simp] theorem routineCycle_sends (n : LoomId) (i : Item) (s : State) : Sends s (routineCycle n i s) := by
  unfold routineCycle
  dsimp only
  split
  · refine .trans ?_ (routineEnds_sends ..)
    split <;> exact .of (by simp)
  · split <;> exact .of (by simp)

@[simp] theorem loomCycles_sends (k : Nat) (n : LoomId) (s : State) : Sends s (loomCycles k n s) := by
  induction k generalizing s with
  | zero => exact .refl s
  | succ k ih =>
    unfold loomCycles
    split
    · exact .refl s
    · exact (routineCycle_sends ..).trans (ih _)

@[simp] theorem runRoutines_sends (t0 t1 : Nat) (s : State) : Sends s (runRoutines t0 t1 s) :=
  .foldl (fun s n => loomCycles_sends _ n s) _ s

@[simp] theorem passTo_sends (t : Nat) (s : State) : Sends s (passTo t s) := .of (by simp [passTo, advanceTo])

/-! ### The host function -/

@[simp] theorem sendPending_sends (p : PortId) (s : State) : Sends s (sendPending p s) := by
  unfold sendPending
  dsimp only
  split <;> exact .of (by simp)

@[simp] theorem resetFunction_sends (p : PortId) (keep : Port → Port) (s : State) : Sends s (resetFunction p keep s) :=
  .of (by simp [resetFunction])

/-! ### Mismatches and faults -/

@[simp] theorem duplicateMismatch_sends (e : Engine) (s : State) : Sends s (duplicateMismatch e s) := by
  unfold duplicateMismatch
  split <;> exact .of (by simp)

@[simp] theorem verifyMismatch_sends (n : LoomId) (found : VerifyFinding) (s : State) : Sends s (verifyMismatch n found s) := by
  unfold verifyMismatch
  (repeat' split) <;> exact .of (by simp)

@[simp] theorem correctable_sends (src : Nat) (s : State) : Sends s (correctable src s) :=
  .of (by simp [correctable, correctedEvent, raiseUnit])

@[simp] theorem benchFault_sends (b : BenchId) (s : State) : Sends s (benchFault b s) := .of (by simp [benchFault])

@[simp] theorem loomFault_sends (n : LoomId) (cacheOnly : Bool) (s : State) : Sends s (loomFault n cacheOnly s) := .of (by simp [loomFault])

@[simp] theorem trestleFault_sends (t : TrestleId) (hit : Item → Bool) (s : State) : Sends s (trestleFault t hit s) :=
  .of (by simp [trestleFault])

@[simp] theorem selvFault_sends (u : SelvId) (keyStore : Bool) (s : State) : Sends s (selvFault u keyStore s) := .of (by simp [selvFault])

@[simp] theorem shuttleFault_sends (p : PortId) (s : State) : Sends s (shuttleFault p s) := by
  unfold shuttleFault
  dsimp only
  split
  · exact .of (by simp)
  · split <;> exact .of (by simp)

@[simp] theorem entryFault_sends (id : Nat) (copyReadable : Bool) (s : State) : Sends s (entryFault id copyReadable s) := by
  unfold entryFault
  split <;> exact .of (by simp [loseItem])

@[simp] theorem cabinetHold_sends (s : State) : Sends s (cabinetHold s) := .of (by simp [cabinetHold])

@[simp] theorem drawerFault_sends (p : PortId) (slice : SliceIdx) (index : Nat) (s : State) : Sends s (drawerFault p slice index s) := by
  unfold drawerFault
  dsimp only
  split
  · exact .of (by simp)
  · split <;> exact .of (by simp)

@[simp] theorem chestFault_sends (s : State) : Sends s (chestFault s) := .of (by simp [chestFault])

@[simp] theorem slotFault_sends (d : DigestSlot) (s : State) : Sends s (slotFault d s) := .of (by simp [slotFault])

@[simp] theorem instanceFault_sends (i : InstId) (drawing : Option Nat) (s : State) : Sends s (instanceFault i drawing s) := by
  unfold instanceFault
  extract_lets s₁ s₂ s₃
  have h₃ : Sends s s₃ := by
    unfold s₃
    split <;> exact .of (by simp [s₂, s₁])
  split
  · split <;> exact .of (by simp [h₃])
  · exact h₃

@[simp] theorem conditionerFault_sends (s : State) : Sends s (conditionerFault s) := .of (by simp [conditionerFault])

@[simp] theorem fabricFault_sends (load : FabricLoad) (s : State) : Sends s (fabricFault load s) := by
  unfold fabricFault
  extract_lets s₁
  have h₁ : Sends s s₁ := .of (by simp [s₁])
  split
  · split
    · split <;> exact .of (by simp [h₁])
    · exact h₁
  · split <;> exact .of (by simp [h₁])
  · exact h₁

@[simp] theorem flashFault_sends (s : State) : Sends s (flashFault s) := .of (by simp [flashFault])

/-! ### Ageing, power, tamper repeats -/

@[simp] theorem replanBench_sends (b : BenchId) (c : BenchCal) (s : State) : Sends s (replanBench b c s) :=
  .of (by simp [replanBench, clockStep])

@[simp] theorem ageingDone_sends (b : BenchId) (slack tj : Int) (s : State) : Sends s (ageingDone b slack tj s) := by
  unfold ageingDone
  dsimp only
  split
  · exact .refl s
  · split
    · exact .of (by simp)
    · split
      · exact .of (by simp)
      · split <;> exact .of (by simp)

@[simp] theorem replanIfOn_sends (s : State) : Sends s (replanIfOn s) := .of (by simp [replanIfOn])

@[simp] theorem settleIfOn_sends (s : State) : Sends s (settleIfOn s) := .of (by simp [settleIfOn])

@[simp] theorem replaceContract_sends (p : PortId) (c : Contract) (s : State) : Sends s (replaceContract p c s) :=
  .of (by simp [replaceContract])

@[simp] theorem portDetach_sends (p : PortId) (linkOnly bulkLow : Bool) (s : State) : Sends s (portDetach p linkOnly bulkLow s) :=
  .of (by simp [portDetach])

@[simp] theorem contractDrop_sends (p : PortId) (volts current : Nat) (bulkLow : Bool) (s : State) :
    Sends s (contractDrop p volts current bulkLow s) :=
  .of (by simp [contractDrop])

@[simp] theorem throttleOne_sends (s : State) : Sends s (throttleOne s) := by
  unfold throttleOne
  split <;> exact .of (by simp)

@[simp] theorem latchRepeat_sends (ev : Nat) (s : State) : Sends s (latchRepeat ev s) := .of (by simp [latchRepeat])

@[simp] theorem tamperRepeat_sends (src : SourceId) (s : State) : Sends s (tamperRepeat src s) := by
  unfold tamperRepeat
  dsimp only
  split
  · exact .of (by simp)
  · split
    · exact .of (by simp)
    · split <;> exact .of (by simp)

@[simp] theorem alarmAtFall_sends (before : State) (x : Firing × Nat) (s : State) : Sends s (alarmAtFall before x s) :=
  .of (by simp [alarmAtFall])

/-! ### The beat -/

@[simp] theorem settleBudgets_sends (s : State) : Sends s (settleBudgets s) := .of (by simp [settleBudgets])

@[simp] theorem returnUnits_sends (s : State) : Sends s (returnUnits s) := by
  unfold returnUnits
  split <;> exact .of (by simp [planRise])

@[simp] theorem readvertise_sends (s : State) : Sends s (readvertise s) := .of (by simp [readvertise])

/-! ### Slices that move -/

@[simp] theorem freezeSlice_sends (p : PortId) (i : SliceIdx) (s : State) : Sends s (freezeSlice p i s) := .of (by simp [freezeSlice])

@[simp] theorem freezeSliceAct_sends (p : PortId) (e : AdminEntry) (s : State) : Sends s (freezeSliceAct p e s) := by
  unfold freezeSliceAct
  (repeat' split) <;> exact .of (by simp)

@[simp] theorem thawSliceAct_sends (p : PortId) (e : AdminEntry) (s : State) : Sends s (thawSliceAct p e s) := by
  unfold thawSliceAct
  (repeat' split) <;> exact .of (by simp)

@[simp] theorem handOff_sends (low : Nat) (s : State) (k : KeyRun × TallyRecord) : Sends s (handOff low s k) := by
  unfold handOff
  split <;> exact .of (by simp)

@[simp] theorem markNoRoom_sends (p : PortId) (nonce : BitVec 128) (e : Entry) (s : State) : Sends s (markNoRoom p nonce e s) := by
  unfold markNoRoom
  split <;> exact .of (by simp)

@[simp] theorem saveToCards_sends (p : PortId) (m : SliceImage) (writes : List CardWrite) (slots : List CardSlot) (s : State) :
    Sends s (saveToCards p m writes slots s).1 := by
  refine foldl_sends_of Prod.fst (fun r x => ?_) _ _
  dsimp only
  split <;> exact .of (by simp)

@[simp] theorem saveSliceAct_sends (p : PortId) (dest : IdentityRecord) (nonce : BitVec 128) (writes : List CardWrite) (e : AdminEntry) (s : State) :
    Sends s (saveSliceAct p dest nonce writes e s) := by
  unfold saveSliceAct
  (repeat' split) <;> exact .of (by simp)

@[simp] theorem logNonce_sends (n : BitVec 128) (s : State) : Sends s (logNonce n s) := by
  unfold logNonce
  dsimp only
  split <;> exact .of (by simp)

@[simp] theorem restoreTally_sends (uid : BitVec 64) (accepted : Bool) (s : State) (t : ImageTally) : Sends s (restoreTally uid accepted s t) := by
  unfold restoreTally
  split
  · exact .refl s
  · dsimp only
    split <;> exact .of (by simp)

@[simp] theorem restoreQueue_sends (p : PortId) (i : SliceIdx) (s : State) (q : ImageQueue) : Sends s (restoreQueue p i s q) := by
  unfold restoreQueue
  split <;> exact .of (by simp)

@[simp] theorem restoreAct_sends (p : PortId) (i : SliceIdx) (e : Entry) (nonce : BitVec 128) (m : SliceBody) (s : State) :
    Sends s (restoreAct p i e nonce m s) :=
  .of (by simp [restoreAct, setGens])

@[simp] theorem readNamed_sends (s : State) (e : Entry) : Sends s (readNamed s e) := by
  unfold readNamed
  (repeat' split) <;> exact .of (by simp)

@[simp] theorem restoreSliceAct_sends (p : PortId) (image : Option SliceImage) (e : AdminEntry) (s : State) :
    Sends s (restoreSliceAct p image e s) := by
  unfold restoreSliceAct
  dsimp only
  split
  · exact .of (by simp)
  · split
    · exact .refl s
    · split
      · exact .of (by simp)
      · split <;> exact .of (by simp)

/-! ### Registers -/

@[simp] theorem writeQueSel_sends (p : PortId) (w : Nat) (v : Word) (s : State) : Sends s (writeQueSel p w v s) := by
  unfold writeQueSel
  split <;> exact .of (by simp)

@[simp] theorem clearPowerEvents_sends (v : Word) (s : State) : Sends s (clearPowerEvents v s) := .of (by simp [clearPowerEvents])

@[simp] theorem writeReg_sends (p : PortId) (off : Nat) (v : Word) (s : State) : Sends s (writeReg p off v s) := by
  unfold writeReg
  (repeat' split) <;> exact .of (by simp [writeStgBeat, writeStgStatus, writeAqBase, writeTotal, clearCardEvents])

end Sys2Proof.Machine
end

section
/-! PROOFS. What alarms, the start-up, the beat and each command send; the queue of commands (R121). -/

namespace Sys2Proof.Machine

open Sys2Proof.Claims

/-! ### Alarms, the steward's end -/

@[simp] theorem cutTransition_sends (st : Status) (s : State) : Sends s (cutTransition st s) := by
  unfold cutTransition
  split
  · exact .refl s
  · extract_lets f k bits burned s₁ fuses life s₂
    have h₂ : Sends s s₂ := .of (by simp [s₂, s₁, f])
    split
    · exact h₂.trans (.of (by simp))
    · (repeat' split) <;> exact h₂.trans (.of (by simp))

@[simp] theorem zeroizeResponse_sends (s : State) : Sends s (zeroizeResponse s) := .of (by simp [zeroizeResponse])

@[simp] theorem applyClass_sends (cls : Nat) (fs : List (SourceId × FenceScope)) (s : State) : Sends s (applyClass cls fs s) := by
  unfold applyClass
  split <;> exact .of (by simp)

@[simp] theorem fireAll_sends (cls : SourceId → Nat) (code : Nat) (fs : List Firing) (s : State) : Sends s (fireAll cls code fs s) :=
  .of (by simp [fireAll])

@[simp] theorem fireRaised_sends (before s : State) : Sends s (fireRaised before s) := .of (by simp [fireRaised])

@[simp] theorem evaluate_sends (fs : List Firing) (s : State) : Sends s (evaluate fs s) := .of (by simp [evaluate])

@[simp] theorem wardenTakeover_sends (trigger : Nat) (s : State) : Sends s (wardenTakeover trigger s) := by
  unfold wardenTakeover
  split
  · exact .refl s
  · extract_lets power mode faults s₁ s₂
    have h₂ : Sends s s₂ := .of (by simp [s₂, s₁])
    (repeat' split) <;> exact h₂.trans (.of (by simp))

@[simp] theorem uncorrectable_sends (r : UeReport) (s : State) : Sends s (uncorrectable r s) := by
  cases r <;> exact .of (by simp [uncorrectable])

@[simp] theorem errorAct_sends (ms : List Trigger) (r : UeReport) (s : State) : Sends s (errorAct ms r s) := by
  unfold errorAct
  split <;> exact .of (by simp)

/-! ### Power, start-up, the life cycle -/

@[simp] theorem powerUp_sends (s : State) : Sends s (powerUp s) := .of (by simp [powerUp])

@[simp] theorem powerDown_sends (s : State) : Sends s (powerDown s) := .of (by simp [powerDown])

@[simp] theorem readLifeCycle_sends (s : State) : Sends s (readLifeCycle s) := .of (by simp [readLifeCycle])

@[simp] theorem endTransition_sends (t : Transition) (s : State) : Sends s (endTransition t s) := by
  unfold endTransition
  extract_lets life s₁ s₂
  have h₂ : Sends s s₂ := .of (by simp [s₂, s₁, burnTo, life])
  split <;> exact h₂.trans (.of (by simp))

@[simp] theorem selfTest_sends (r : SelfTest) (clear re : Bool) (s : State) : Sends s (selfTest r clear re s) := .of (by simp [selfTest])

/-! ### Triggers that meet, and the beat -/

@[simp] theorem windowEnds_sends (src : SourceId) (responded stillActive : Bool) (s : State) :
    Sends s (windowEnds src responded stillActive s) :=
  .of (by simp [windowEnds, endWindow, stimulusFails])

@[simp] theorem endPair_sends (pair : Nat) (qualifying : List SourceId) (s : State) : Sends s (endPair pair qualifying s) := by
  unfold endPair
  (repeat' split) <;> exact .of (by simp [secondDecision])

@[simp] theorem lockstepAct_sends (trigger : Nat) (s : State) : Sends s (lockstepAct trigger s) := .of (by simp [lockstepAct])

@[simp] theorem heartbeatAct_sends (s : State) : Sends s (heartbeatAct s) := .of (by simp [heartbeatAct])

@[simp] theorem fallMeeting_sends (ms : List Trigger) (s : State) : Sends s (fallMeeting ms s) := .of (by simp [fallMeeting])

@[simp] theorem senseAll_sends (fs : List Firing) (s : State) : Sends s (senseAll fs s) := .of (by simp [senseAll])

@[simp] theorem triggerAct_sends (ms : List Trigger) (m : Trigger) (s : State) : Sends s (triggerAct ms m s) := by
  cases m <;> exact .of (by simp [triggerAct])

@[simp] theorem resolveTriggers_sends (ms : List Trigger) (s : State) : Sends s (resolveTriggers ms s) := .of (by simp [resolveTriggers])

@[simp] theorem beatAt_sends (t : Nat) (s : State) : Sends s (beatAt t s) := .of (by simp [beatAt])

@[simp] theorem reachBeat_sends (t : Nat) (meets : List Trigger) (s : State) : Sends s (reachBeat t meets s) := .of (by simp [reachBeat])

@[simp] theorem nextBeat_sends (meets : List Trigger) (s : State) : Sends s (nextBeat meets s) := .of (by simp [nextBeat])

@[simp] theorem meetAll_sends (ms : List Trigger) (s : State) : Sends s (meetAll ms s) := .of (by simp [meetAll])

/-! ### Every command -/

/-- The state a command ends in goes on from `s`. -/
@[simp] def SendsNext (s : State) : Host.Outcome State Fault Refusal → Prop
  | .next t => Extends s t
  | _ => True

theorem SendsNext.sends {s t : State} {o : Host.Outcome State Fault Refusal} (h : SendsNext s o) (ho : o = .next t) : Sends s t := by
  subst ho
  exact .of h

@[simp] theorem fuseSource_sends (src : SourceId) (s : State) : Sends s (fuseSource src s) := .of (by simp [fuseSource])

@[simp] theorem flowTransition_sends (a b : Nat) (ok : Bool) (s : State) : Sends s (flowTransition a b ok s) :=
  .of (by simp [flowTransition, burnTo])

theorem openPortAccess_sends (a : DebugAccess) (s : State) : SendsNext s (openPortAccess a s) := by
  cases a <;> unfold openPortAccess <;> (repeat' split) <;> simp

@[simp] theorem pickSlot_sends (s : State) : Sends s (pickSlot s).2 := .of (by simp [pickSlot])

@[simp] theorem fillBuffers_sends (s : State) : Sends s (fillBuffers s) := .of (by simp [fillBuffers])

theorem execReseedApplied_sends (i : InstId) (s : State) : SendsNext s (execReseedApplied i s) := by
  refine Sends.extends ?_
  split
  · split
    · exact .of (by simp)
    · split
      · extract_lets x s₁ pred left bobbin d stretch s₂ s₃ s₄
        have h₁ : Sends s s₁ := .of (by simp [s₁])
        have h₂ : Sends s s₂ := .of (by simp [s₂, d, h₁])
        have h₃ : Sends s s₃ := .of (by simp [s₃, h₂])
        have h₄ : Sends s s₄ := by
          unfold s₄
          (repeat' split) <;> exact h₃.trans (.of (by simp))
        split <;> exact h₄.trans (.of (by simp))
      · exact .refl s
  · exact .refl s

/-- A command that is neither an operation nor one of a card slot, a digest slot or the bobbin. -/
theorem otherCommand_sends {c : Instr} (s : State) (hop : isOperation c = false) (hcard : isCardCommand c = false)
    (hslot : isSlotCommand c = false) (hbobbin : isBobbinCommand c = false) : SendsNext s (exec c s) := by
  cases c <;> cases hop <;> cases hcard <;> cases hslot <;> cases hbobbin <;> dsimp only [exec]
  case adminDoorbell | adminQueueEnable | adminQueueDisable | completionWrite | engineAsk | trestleYieldAsk | chestRemask | drawerRefresh | commit
    | watchdogExpiry | routineError | ceremonyTimeout | pairRetestEnd | stageCommit | stageDiscard | createSlice | destroySlice | createQueue
    | destroyQueue | traceConsumedWrite | ownerSigned | signedAdmin | debugResponse | linkTrained | busMasterDisable | memorySpaceDisable
    | pasidEnableChange | atsEnableClear | functionLevelReset | functionLevelResetEnd | atsInvalidation | duplicateRoundMismatch | verifyMismatch
    | correctableError | ageingMeasure | ageingMeasureDone | portDetach | contractDrop | tamperRepeat | sourceGoesInactive | tamperStimulus
    | freezeSlice | thawSlice | saveSlice | restoreSlice | registerWrite | pwrEventsClear | readBlock =>
    exact Sends.extends (.of (by simp))
  case bobbinTestsEnd | bobbinSeeded | debugChallenge | stageWrite | traceEnable | traceDisable | calRead | identityGet | recoveryLoad
    | busMasterResume | cellWindow | getStatus =>
    exact Sends.extends (.of (by simp [excludePair, instantiateAll, moveChest, debugChallenge, stageWrite, stageField, traceEnableAct,
      traceDisableAct, calReadAct, identityGetAct, recoveryLoad, sendHeld, cellAlarm, getStatus]))
  case pollTick | ringReadComplete | seedWaitTimeout | coalesceTimeout | loomDim | loomRestore | digestCoreAsk | ceremonyShareWrite | chestRestore
    | healthFail | lcAdvance | draftWrite | draftSelect | rethread | hold | holdRelease | calWrite | trestleSelfCheckMismatch | tamperClear
    | freezeDrainDone | fabricParityError | lcTransitionDone =>
    dsimp only [execPollTick, execRingReadComplete, execSeedWaitTimeout, execCoalesceTimeout, execLoomDim, execLoomRestore, execDigestCoreAsk,
      execCeremonyShareWrite, execChestRestore, execHealthFail, execLcAdvance, execDraftWrite, execDraftSelect, execRethread, execHold,
      execHoldRelease, execCalWrite, execTrestleSelfCheckMismatch, execTamperClear, execFreezeDrainDone, execFabricParityError,
      execLcTransitionDone]
    (repeat' split) <;> simp
  case tallyWriteDurable | recoveryImageVerified | bobbinRestart | deviceStage | rethreadDrainDone | logRead =>
    dsimp only [execTallyWriteDurable, execRecoveryImageVerified, execBobbinRestart, execDeviceStage, execRethreadDrainDone, execLogRead]
    (repeat' split) <;> simp [releaseHeld, bornKey, beginCeremony, copyToCards, beginSequence, deviceWrite, deviceCommit, beginRethread,
      logReadAct, usbLogRead]
  case eventLog | logRecordDurable | logRepeatFlush | secondsCheckpoint | backupCellLoss | draftReadDone | portAttach | pathOvercurrent
    | planUpHoldExpiry | sourceCapabilitiesTimeout | thermalSample | thermalStep | thermalClear | benchGate | benchStart | powerGood | powerFail
    | strapSample | selfTestDone | beat | uncorrectableError | tamperFire | contractChange =>
    dsimp only [execEventLog, execLogRecordDurable, execLogRepeatFlush, execSecondsCheckpoint, execBackupCellLoss, execDraftReadDone,
      execPortAttach, execPathOvercurrent, execPlanUpHoldExpiry, execSourceCapabilitiesTimeout, execThermalSample, execThermalStep,
      execThermalClear, execBenchGate, execBenchStart, execPowerGood, execPowerFail, execStrapSample, execSelfTestDone, execBeat,
      execUncorrectableError, execTamperFire, execContractChange]
    (repeat' split) <;> simp [capPath]
  case stewardFwVerified =>
    unfold execStewardFwVerified
    split <;> simp [commitLatch, commitLatchEntry, loadMirror, tallyScan, blankCheck]
  case doorbellWrite | expressDoorbell =>
    refine (onWrite_sends _ _ _ fun s => ?_).extends
    (repeat' split) <;> simp
  case reseedApplied i => exact execReseedApplied_sends i s
  case debugPortAccess access =>
    unfold execDebugPortAccess
    split
    · exact openPortAccess_sends access s
    · simp [closedPortActivity]
  case lockstepMismatch | heartbeatTimeout | twiceDecidedSecond | stimulusWindowEnd =>
    exact Sends.extends (.of (by simp))
  case tamperFuse =>
    unfold execTamperFuse
    (repeat' split) <;> simp

theorem cardCommand_sends {c : Instr} (s : State) (h : isCardCommand c = true) : SendsNext s (exec c s) := by
  cases c <;> cases h <;> dsimp only [exec]
  case cardInsert | cardRemove | cardIdentify | switchFallback | cardBusyRelease | busyTimeout | cwpLock =>
    dsimp only [execCardInsert, execCardRemove, execCardIdentify, execSwitchFallback, execCardBusyRelease, execBusyTimeout, execCwpLock]
    (repeat' split) <;> simp
  case cardResponseTimeout =>
    refine Sends.extends ?_
    split
    · extract_lets s₁
      have h₁ : Sends s s₁ := sendTo_sends _ _ _ s
      split <;> exact h₁.trans (.of (by simp))
    · exact .refl s

theorem slotCommand_sends {c : Instr} (s : State) (h : isSlotCommand c = true) : SendsNext s (exec c s) := by
  cases c <;> cases h <;> dsimp only [exec]
  case slotAlloc | digestFinal | digestRelease =>
    refine (onWrite_sends _ _ _ fun s => ?_).extends
    (repeat' split) <;> simp
  case digestDataWrite =>
    unfold execDigestDataWrite
    split
    · refine (onWrite_sends _ _ _ fun s => ?_).extends
      (repeat' split) <;> simp
    · simp
  case digestResultRead =>
    unfold execDigestResultRead
    split
    · refine (onBar_sends _ _ _ fun s => ?_).extends
      simp
    · simp
  case digestDone | slotReclaimed =>
    dsimp only [execDigestDone, execSlotReclaimed]
    (repeat' split) <;> simp

theorem operationEffect_sends {s t : State} (h : OperationEffect s t) : Sends s t := by
  obtain ⟨u, ht, hu⟩ := h
  cases ht with
  | inl ht => rw [ht]; exact operation_sends hu
  | inr ht => rw [ht]; exact (operation_sends hu).trans (settleAfterLeave_sends _)

theorem exec_sends {c : Instr} {s t : State} (h : exec c s = .next t) : Sends s t := by
  cases hop : isOperation c
  · cases hcard : isCardCommand c
    · cases hslot : isSlotCommand c
      · cases hbobbin : isBobbinCommand c
        · exact (otherCommand_sends s hop hcard hslot hbobbin).sends h
        · exact bobbin_sends (bobbinCommand_keepsBobbin hbobbin h)
      · exact (slotCommand_sends s hslot).sends h
    · exact (cardCommand_sends s hcard).sends h
  · exact operationEffect_sends (operation_effect hop h)

/-- Settles O57: what every part of the machine sends is added at the end, and none of them touches the queue. -/
theorem queueUntouched : Obligations.queue_untouched :=
  fun _ _ _ h => (exec_sends h).extends

end Sys2Proof.Machine
end

section
/-! PROOFS. A refused envelope leaves the sequence number and the owner's command (R121, R165). -/

namespace Sys2Proof.Machine

open Sys2Proof.Claims

/-- The envelope fails a check of R121 or R165. -/
def Refused (s : State) (e : Envelope) : Prop := envelopeForm e = false ∨ envelopeAccepted s e = false

/-- The chest with its sequence number, and the owner's command, stand. -/
def OwnerStands (s t : State) : Prop := t.backup = s.backup ∧ t.owner = s.owner

theorem takeEnvelope_refused {p : PortId} {o : OwnerOrigin} {e : Envelope} {refuse : Status → State → State} {s : State}
    (h : Refused s e) : ∃ st, takeEnvelope p o e refuse s = refuse st s := by
  obtain hform | haccepted := h
  · exact ⟨.opUnsupported, by simp [takeEnvelope, hform]⟩
  · by_cases hform : envelopeForm e = true
    · exact ⟨.keyPolicy, by simp [takeEnvelope, hform, haccepted]⟩
    · exact ⟨.opUnsupported, by simp [takeEnvelope, hform]⟩

theorem signedAdmin_refused (p : PortId) (q : BitVec 16) {e : Envelope} {s : State} (h : Refused s e) :
    OwnerStands s (signedAdmin p q e s) := by
  obtain ⟨st, hst⟩ := takeEnvelope_refused (p := p) (o := .usb p q) (refuse := fun st => emit (.usb p 0x0010 q st [])) h
  dsimp only [signedAdmin]
  rw [hst]
  (repeat' split) <;> exact ⟨rfl, rfl⟩

theorem entryEnvelope_refused (p : PortId) (id : Nat) {e : Envelope} {s : State} (h : Refused s e) :
    OwnerStands s (entryEnvelope p id e s) := by
  obtain ⟨st, hst⟩ := takeEnvelope_refused (p := p) (o := .admin p) (refuse := fun st => adminDone p st 0 []) h
  dsimp only [entryEnvelope]
  rw [hst]
  (repeat' split) <;> exact ⟨rfl, rfl⟩

/-- Where none waits that would be taken up instead, the steward takes up the command that arrives, or it waits. -/
theorem arriveWork_turn {p : PortId} {q : BitVec 16} {w : StewardWork} {s : State} (h : s.envelopes = [] ∨ stewardBusy s = true) :
    arriveWork p q w s = takeWork p q w s ∨ ∃ ws, arriveWork p q w s = { s with envelopes := ws } := by
  cases hlost : s.mode.stewardLost with
  | true => exact .inl (by simp [arriveWork, hlost])
  | false =>
    cases hbusy : stewardBusy s with
    | true => exact .inr ⟨_, arriveWork_waits hlost hbusy⟩
    | false => exact .inl (arriveWork_taken hbusy (h.resolve_right (by simp [hbusy])))

theorem arriveWork_refused {p : PortId} {q : BitVec 16} {w : StewardWork} {s : State} (hturn : s.envelopes = [] ∨ stewardBusy s = true)
    (h : OwnerStands s (takeWork p q w s)) : OwnerStands s (arriveWork p q w s) := by
  obtain htaken | ⟨ws, hwaits⟩ := arriveWork_turn (p := p) (q := q) (w := w) hturn
  · rwa [htaken]
  · rw [hwaits]
    exact ⟨rfl, rfl⟩

/-- What becomes of an admin command: it waits, it acts on its entry, or it ends with an error. -/
theorem adminCommand_becomes (p : PortId) (code : Nat) (act : AdminEntry → State → State) (s : State) :
    adminCommand p code act s = s ∨ (∃ e, adminCommand p code act s = act e s) ∨ adminCommand p code act s = barAdmin p code s ∨
      ∃ st, adminCommand p code act s = adminDone p st 0 [] s := by
  unfold adminCommand
  split
  · exact .inl rfl
  · split_ifs
    · exact .inl rfl
    · exact .inr (.inr (.inl rfl))
    · exact .inr (.inr (.inr ⟨_, rfl⟩))
    · exact .inr (.inr (.inr ⟨_, rfl⟩))
    · exact .inr (.inr (.inr ⟨_, rfl⟩))
    · exact .inl rfl
    · exact .inr (.inr (.inr ⟨_, rfl⟩))
    · exact .inl rfl
    · exact .inr (.inl ⟨_, rfl⟩)

/-- An answer changes the ports alone. -/
theorem adminCommand_ownerStands {p : PortId} {code : Nat} {act : AdminEntry → State → State} {s : State}
    (h : ∀ e, OwnerStands s (act e s)) : OwnerStands s (adminCommand p code act s) := by
  obtain hwaits | ⟨e, hacts⟩ | hbarred | ⟨st, hends⟩ := adminCommand_becomes p code act s
  · rw [hwaits]
    exact ⟨rfl, rfl⟩
  · rw [hacts]
    exact h e
  · rw [hbarred]
    exact ⟨rfl, rfl⟩
  · rw [hends]
    exact ⟨rfl, rfl⟩

/-- Settles O24: both forms end in `takeEnvelope`, which only answers a refused envelope. -/
theorem envelopeConsumesSequence : Obligations.envelope_consumes_sequence := by
  intro s t p q env hrefused hturn hexec
  obtain hexec | hexec := hexec <;> cases hexec
  · unfold onUsb
    split
    · exact arriveWork_refused hturn (signedAdmin_refused p q hrefused)
    · exact ⟨rfl, rfl⟩
  · refine adminCommand_ownerStands fun e => ?_
    exact arriveWork_refused (s := adminWait p .owner s) hturn (entryEnvelope_refused p e.id hrefused)

end Sys2Proof.Machine
end

section
/-! PROOFS. Admin commands that act on their entry; the trace ring and what a port reads (R161, R190, R194, R406, R508, R522). -/

namespace Sys2Proof.Machine

open Sys2Proof.Claims

/-! ### An admin command that acts, and its answer -/

theorem adminHeld_some {s : State} {p : PortId} {code : Nat} {e : AdminEntry} (h : adminHeld s p code = some e) :
    s.ports[p.val].admin.entry = some e ∧ opOf e.entry = code ∧ e.wait = .none ∧ e.done = none := by
  unfold adminHeld at h
  split at h
  · next hentry =>
    split at h
    · next hheld =>
      cases h
      simpa [hentry, and_assoc] using hheld
    · cases h
  · cases h

theorem adminRuns_entry {s : State} {p : PortId} {code : Nat} {e : AdminEntry} (h : AdminRuns s p code e) :
    s.ports[p.val].admin.entry = some e := (adminHeld_some h.1).1

/-- Nothing keeps the command from acting on its entry. -/
theorem adminCommand_acts {s : State} {p : PortId} {code : Nat} {e : AdminEntry} (act : AdminEntry → State → State)
    (h : AdminRuns s p code e) : adminCommand p code act s = act e s := by
  obtain ⟨hheld, hdormant, hmode, hsteward, hin, hout, hmoves, hrandom⟩ := h
  have hbarred : adminBarred s code = false := by
    by_cases hm : s.mode.base = .zeroized ∨ s.mode.base = .analysis
    · obtain rfl | rfl := hmode hm <;> simp [adminBarred]
    · simp [adminBarred, not_or.mp hm]
  have hlost : (s.mode.stewardLost && needsSteward code) = false := by
    cases hn : needsSteward code <;> simp [hn, hsteward]
  have hinput : (hasInput e.entry && !e.inputOk) = false := by
    cases hi : hasInput e.entry <;> simp [hi, hin]
  have houtput : (hasOutput e.entry && !e.outputOk) = false := by
    cases ho : hasOutput e.entry <;> simp [ho, hout]
  have hbobbin : (adminRandom code && bobbinFailed s) = false := by
    cases hr : adminRandom code <;> simp [hr, hrandom]
  have hdraws : (adminRandom code && !stewardDraws s) = false := by
    cases hr : adminRandom code <;> simp [hr, hrandom]
  simp only [adminCommand, hheld, beq_eq_false_iff_ne.mpr hdormant, hbarred, hlost, hinput, houtput, hmoves, hbobbin, hdraws, Bool.false_and,
    Bool.not_true, Bool.and_false, Bool.false_eq_true, if_false]

/-- The entry of an answered command. -/
theorem adminDone_entry {p : PortId} {st : Status} {result : Nat} {output : Bytes} {s : State} {e : AdminEntry}
    (h : s.ports[p.val].admin.entry = some e) :
    (adminDone p st result output s).ports[p.val].admin.entry =
      some { e with wait := .none, done := some { status := st, outputLen := output.length, output := output, result := result } } := by
  simp [adminDone, modAdmin, modPort, h]

/-- It has ended, with this output, and nothing but the ports differs. -/
theorem adminDone_answers {p : PortId} {st : Status} {result : Nat} {output : Bytes} {s : State} {e : AdminEntry}
    (h : s.ports[p.val].admin.entry = some e) :
    ∃ x d, (adminDone p st result output s).ports[p.val].admin.entry = some x ∧ x.done = some d ∧ d.status = st ∧ d.result = result ∧
      d.output = output ∧ adminDone p st result output s = { s with ports := (adminDone p st result output s).ports } :=
  ⟨_, _, adminDone_entry h, rfl, rfl, rfl, rfl, rfl⟩

/-! ### The trace ring -/

@[simp] theorem adminDone_trace (p q : PortId) (st : Status) (result : Nat) (output : Bytes) (s : State) :
    (adminDone p st result output s).ports[q.val].trace = s.ports[q.val].trace := by
  obtain ⟨-, hadmin⟩ := adminDone_sameButAnswer p st result output s
  rw [hadmin q]

theorem traceEnableAct_enables {p : PortId} {e : AdminEntry} {s : State} (hmin : 8 ≤ entryByte e.entry 8) (hmax : entryByte e.entry 8 ≤ 20)
    (hbase : baseAligned (BitVec.ofNat 64 (entryNat e.entry 16 8)) (16 * 2 ^ entryByte e.entry 8) = true) :
    traceEnableAct p e s = adminDone p .ok 0 [] (modPort p (fun x =>
      { x with trace := { enabled := true, log2 := entryByte e.entry 8, base := BitVec.ofNat 64 (entryNat e.entry 16 8) } }) s) := by
  have hlegal : ¬(entryByte e.entry 8 < 8 ∨ 20 < entryByte e.entry 8 ∨
      baseAligned (BitVec.ofNat 64 (entryNat e.entry 16 8)) (16 * 2 ^ entryByte e.entry 8) = false) := by
    simp [hbase]
    omega
  exact if_neg hlegal

theorem execTraceConsumedWrite_takes {p : PortId} {v : Word} {s : State} (h : WriteReaches s p)
    (hv : (s.ports[p.val].trace.produced - v).toNat ≤ 2 ^ s.ports[p.val].trace.log2) :
    exec (.traceConsumedWrite p v) s = .next (modPort p (fun x => { x with trace := { x.trace with consumed := v } }) s) := by
  have hok : consumedOk s.ports[p.val].trace v = true := by simpa [consumedOk] using hv
  simp [exec, execTraceConsumedWrite, onWrite_reaches h, hok]

/-! ### Records, and an owner's envelope -/

theorem entryNat_four_toNat (e : Entry) (k : Nat) : (BitVec.ofNat 32 (entryNat e k 4)).toNat = entryNat e k 4 := by
  rw [BitVec.toNat_ofNat]
  exact Nat.mod_eq_of_lt (Nat.mod_lt _ (by decide))

theorem logReadAct_answers {p : PortId} {e : AdminEntry} {s : State} (hpos : 0 < entryNat e.entry 12 4) (hmax : entryNat e.entry 12 4 ≤ 4096)
    (hroom : 32 * entryNat e.entry 12 4 ≤ outputCap e.entry) :
    logReadAct p e s = adminDone p .ok (logSelect (BitVec.ofNat 32 (entryNat e.entry 8 4)) (entryNat e.entry 12 4) s).length
      ((logSelect (BitVec.ofNat 32 (entryNat e.entry 8 4)) (entryNat e.entry 12 4) s).flatMap recordBytes) s := by
  unfold logReadAct
  extract_lets c rs
  rw [if_neg (by omega), if_neg (by omega)]

theorem entryEnvelope_accepts {p : PortId} {id : Nat} {env : Envelope} {op : OwnerOperand} {s : State} {e : AdminEntry}
    (hentry : s.ports[p.val].admin.entry = some e) (hid : e.id = id) (hwait : e.wait = .owner) (hdone : e.done = none)
    (hlen : env.length = inputLen e.entry)
    (hform : envelopeForm env = true) (haccepted : envelopeAccepted s env = true) (hop : innerOperand (envCode env) env.body = some op) :
    entryEnvelope p id env s = acceptEnvelope p (.admin p) env op s := by
  simp [entryEnvelope, takeEnvelope, hentry, hid, hwait, hdone, hlen, hform, haccepted, hop]

theorem acceptEnvelope_ports {p : PortId} {o : OwnerOrigin} {e : Envelope} {op : OwnerOperand} {s : State} (hheld : heldInWake s = false) :
    (acceptEnvelope p o e op s).ports = s.ports := by
  unfold acceptEnvelope
  extract_lets s₁ s₂ s₃
  have hheld₃ : heldInWake s₃ = heldInWake s := by
    have hlife : s₃.life = s.life := by simp [s₃, s₂, s₁, writeChest]
    have hmode : s₃.mode = s.mode := by simp [s₃, s₂, s₁, writeChest]
    simp [heldInWake, bootStrap, hlife, hmode]
  rw [if_neg (by simp [hheld₃, hheld])]
  simp [s₃, s₂, s₁, writeChest]

/-- Settles O43, command by command. -/
theorem portReadsComplete : Obligations.port_reads_complete := by
  intro s p e v env op
  refine ⟨fun h hmin hmax hbase => ?_, fun h => ?_, execTraceConsumedWrite_takes, fun h hroom => ?_, fun h hroom => ?_,
    fun h hpos hmax hroom => ?_, fun h hbusy hnone hlen hform haccepted hop hheld => ?_⟩
  · have hacts : exec (.traceEnable p) s = .next _ :=
      congrArg Host.Outcome.next ((adminCommand_acts (traceEnableAct p) h).trans (traceEnableAct_enables hmin hmax hbase))
    exact ⟨_, hacts, adminDone_ends (e := e) (by simp [modPort, adminRuns_entry h]), rfl, by simp [modPort]⟩
  · have hacts : exec (.traceDisable p) s = .next (traceDisableAct p e s) :=
      congrArg Host.Outcome.next (adminCommand_acts (traceDisableAct p) h)
    exact ⟨_, hacts, adminDone_ends (e := e) (by simp [modPort, adminRuns_entry h]), rfl, by simp [modPort, traceDisableAct]⟩
  · have hacts : exec (.calRead p) s = .next (adminDone p .ok 2048 (calPage s) s) :=
      congrArg Host.Outcome.next ((adminCommand_acts (calReadAct p) h).trans (if_neg (by omega)))
    obtain ⟨x, d, hx, hd, hst, hresult, hout, hports⟩ := adminDone_answers (adminRuns_entry h)
    exact ⟨_, x, d, hacts, hx, hd, hst, hresult, hout, hports⟩
  · have hacts : exec (.identityGet p) s = .next (adminDone p .ok 9088 (identityRecord s) s) :=
      congrArg Host.Outcome.next ((adminCommand_acts (identityGetAct p) h).trans (if_neg (by omega)))
    obtain ⟨x, d, hx, hd, hst, hresult, hout, hports⟩ := adminDone_answers (adminRuns_entry h)
    exact ⟨_, x, d, hacts, hx, hd, hst, hout, hports⟩
  · have hacts : exec (.logRead (.admin p)) s = .next _ :=
      congrArg Host.Outcome.next ((adminCommand_acts (logReadAct p) h).trans (logReadAct_answers hpos hmax hroom))
    obtain ⟨x, d, hx, hd, hst, hresult, hout, hports⟩ := adminDone_answers (adminRuns_entry h)
    exact ⟨_, _, x, d, hacts, by rw [logSelect, entryNat_four_toNat], hx, hd, hst, hresult, hout, hports⟩
  · have hacts : exec (.ownerSigned p env) s = .next (acceptEnvelope p (.admin p) env op (adminWait p .owner s)) := by
      obtain ⟨hentry, -, -, hdone⟩ := adminHeld_some h.1
      have hwaits : (adminWait p .owner s).ports[p.val].admin.entry = some { e with wait := .owner } := by
        simp [adminWait, modAdmin, modPort, hentry]
      have htaken := arriveWork_taken (p := p) (q := 0) (w := .entry e.id env) (s := adminWait p .owner s) hbusy hnone
      exact congrArg Host.Outcome.next ((adminCommand_acts _ h).trans (htaken.trans
        (entryEnvelope_accepts hwaits rfl rfl hdone hlen hform haccepted hop)))
    obtain ⟨hseq, howner⟩ := acceptEnvelope_inHand (p := p) (o := .admin p) (e := env) (op := op) (s := adminWait p .owner s) hheld
    refine ⟨_, hacts, hseq, howner, ?_⟩
    rw [acceptEnvelope_ports (s := adminWait p .owner s) hheld]
    simp [adminWait, modAdmin, modPort, adminRuns_entry h]

end Sys2Proof.Machine
end

section
/-! PROOFS. What the settling of credit, lists, scans and waiting invalidations leaves of ports, items and queues (R135, R173 to R175). -/

namespace Sys2Proof.Machine

open Sys2Proof.Claims

/-! ### The relation, and how it composes -/

/-- A port without what the settling and the messages change: its trace, credit, drains, pending bits and admin counts. -/
def settledPort (x : Port) : Port :=
  { x with
    trace := { enabled := x.trace.enabled }
    creditHeld := false
    drains := []
    pba := []
    admin := { x.admin with counted := 0, reading := false } }

/-- Ports stand but for that, as do slices and runs; queues keep their names, and every item was there with its number, port and slice. -/
structure Settles (s t : State) : Prop where
  ports : ∀ p : PortId, settledPort t.ports[p.val] = settledPort s.ports[p.val]
  slices : t.slices = s.slices
  runs : t.runs = s.runs
  queues : t.queues.map (fun q => (q.port, q.qnum)) = s.queues.map fun q => (q.port, q.qnum)
  items : ∀ j ∈ t.heddle.items, ∃ i ∈ s.heddle.items, i.id = j.id ∧ i.port = j.port ∧ i.slice = j.slice

theorem Settles.of_eq {s t : State} (hports : t.ports = s.ports) (hslices : t.slices = s.slices) (hruns : t.runs = s.runs)
    (hqueues : t.queues = s.queues) (hitems : t.heddle.items = s.heddle.items) : Settles s t :=
  ⟨fun _ => by rw [hports], hslices, hruns, by rw [hqueues], fun j hj => ⟨j, hitems ▸ hj, rfl, rfl, rfl⟩⟩

theorem Settles.refl (s : State) : Settles s s := .of_eq rfl rfl rfl rfl rfl

theorem Settles.trans {s t u : State} (h : Settles s t) (k : Settles t u) : Settles s u where
  ports p := (k.ports p).trans (h.ports p)
  slices := k.slices.trans h.slices
  runs := k.runs.trans h.runs
  queues := k.queues.trans h.queues
  items j hj := by
    obtain ⟨i, hi, hid, hport, hslice⟩ := k.items j hj
    obtain ⟨x, hx, hid', hport', hslice'⟩ := h.items i hi
    exact ⟨x, hx, hid'.trans hid, hport'.trans hport, hslice'.trans hslice⟩

theorem Settles.foldl {α : Type} {f : State → α → State} (h : ∀ s a, Settles s (f s a)) (l : List α) (s : State) :
    Settles s (l.foldl f s) := by
  induction l generalizing s with
  | nil => exact .refl s
  | cons a l ih => exact (h s a).trans (ih _)

/-- What a port shows of itself apart from that stands. -/
theorem Settles.field {α : Type} {s t : State} (h : Settles s t) (g : Port → α) (hg : ∀ x, g (settledPort x) = g x) (p : PortId) :
    g t.ports[p.val] = g s.ports[p.val] := by
  rw [← hg, h.ports p, hg]

theorem emit_settles (x : Tx) (s : State) : Settles s (emit x s) := .of_eq rfl rfl rfl rfl rfl

theorem raise_settles (ev : Nat) (d : BitVec 64) (s : State) : Settles s (raise ev d s) := .of_eq (by simp) (by simp) (by simp) (by simp) (by simp)

theorem modPort_settles (p : PortId) {f : Port → Port} (s : State) (h : settledPort (f s.ports[p.val]) = settledPort s.ports[p.val]) :
    Settles s (modPort p f s) where
  ports q := by
    by_cases hq : p.val = q.val
    · simp [modPort, ← hq, h]
    · simp [modPort, Vector.getElem_set_ne _ _ hq]
  slices := rfl
  runs := rfl
  queues := rfl
  items j hj := ⟨j, hj, rfl, rfl, rfl⟩

theorem modItems_settles (sel : Item → Bool) {f : Item → Item} (s : State)
    (h : ∀ x, (f x).id = x.id ∧ (f x).port = x.port ∧ (f x).slice = x.slice) : Settles s (modItems sel f s) where
  ports _ := rfl
  slices := rfl
  runs := rfl
  queues := rfl
  items j hj := by
    obtain ⟨i, hi, rfl⟩ := List.mem_map.mp hj
    refine ⟨i, hi, ?_⟩
    split
    · obtain ⟨hid, hport, hslice⟩ := h i
      exact ⟨hid.symm, hport.symm, hslice.symm⟩
    · exact ⟨rfl, rfl, rfl⟩

theorem modQueue_settles (p : PortId) (n : Nat) {f : Queue → Queue} (s : State) (h : ∀ q, (f q).port = q.port ∧ (f q).qnum = q.qnum) :
    Settles s (modQueue p n f s) where
  ports _ := rfl
  slices := rfl
  runs := rfl
  queues := by
    simp only [modQueue, modQueues, List.map_map]
    refine List.map_congr_left fun q _ => ?_
    dsimp only [Function.comp]
    split
    · obtain ⟨hport, hnum⟩ := h q
      rw [hport, hnum]
    · rfl
  items j hj := ⟨j, hj, rfl, rfl, rfl⟩

/-! ### Trace records, lists and parking -/

theorem traceRecord_settles (p : PortId) (engine : Nat) (i : Option Item) (reason cls : Nat) (s : State) :
    Settles s (traceRecord p engine i reason cls s) := by
  unfold traceRecord
  dsimp only
  split
  · exact .refl s
  · have hseq := modPort_settles p (f := fun x => { x with trace := { x.trace with seq := x.trace.seq + 1 } }) s rfl
    split
    · exact hseq.trans (modPort_settles p _ rfl)
    · exact hseq.trans ((modPort_settles p _ rfl).trans (emit_settles _ _))

theorem traceItem_settles (reason : Nat) (i : Item) (s : State) : Settles s (traceItem reason i s) := traceRecord_settles _ _ _ _ _ s

theorem takeScratch_settles (id : Nat) (s : State) : Settles s (takeScratch id s) := by
  unfold takeScratch
  split
  · exact .refl s
  · split
    · exact .refl s
    · split
      · exact modItems_settles _ s fun x => ⟨rfl, rfl, rfl⟩
      · exact .refl s

theorem findItem_mem {s : State} {id : Nat} {i : Item} (h : findItem s id = some i) : i ∈ s.heddle.items ∧ i.id = id :=
  ⟨List.mem_of_find?_eq_some h, by simpa using List.find?_some h⟩

theorem enterList_settles (id : Nat) (s : State) : Settles s (enterList id s) := by
  unfold enterList
  split
  · exact .refl s
  · next i hi =>
    extract_lets heddle s₁
    have h₁ : Settles s s₁ := by
      refine ⟨fun _ => rfl, rfl, rfl, rfl, fun j hj => ?_⟩
      obtain hj | hj := List.mem_append.mp hj
      · exact ⟨j, List.mem_of_mem_filter hj, rfl, rfl, rfl⟩
      · obtain rfl := List.mem_singleton.mp hj
        exact ⟨i, (findItem_mem hi).1, rfl, rfl, rfl⟩
    exact h₁.trans (traceItem_settles 0x01 i s₁)

theorem park_settles (full : Bool) (id : Nat) (s : State) : Settles s (park full id s) := by
  unfold park
  split
  · exact .refl s
  · next i _ =>
    have hpark : Settles s (traceItem 0x02 i (modItem id (fun x => { x with place := .parked }) s)) :=
      (modItems_settles _ (f := fun x => { x with place := .parked }) s fun _ => ⟨rfl, rfl, rfl⟩).trans (traceItem_settles 0x02 i _)
    dsimp only
    split
    · exact hpark.trans (raise_settles _ _ _)
    · exact hpark

theorem offer_settles (id : Nat) (s : State) : Settles s (offer id s) := by
  have hscratch := takeScratch_settles id s
  unfold offer
  dsimp only
  split
  · exact hscratch
  · split
    · exact hscratch.trans (enterList_settles id _)
    · split
      · exact hscratch
      · exact hscratch.trans (park_settles _ id _)

theorem retryParked_settles (s : State) : Settles s (retryParked s) := by
  have hoffer (l : List Nat) (s : State) : Settles s (l.foldl (fun s id => offer id s) s) := .foldl (fun s id => offer_settles id s) l s
  unfold retryParked
  dsimp only
  split
  · exact (hoffer _ s).trans (hoffer _ _)
  · exact hoffer _ s

/-! ### Credit, scans, drains -/

theorem settleCredit_settles (s : State) : Settles s (settleCredit s) := by
  refine .foldl (fun s p => ?_) _ s
  dsimp only
  split
  · exact .refl s
  · exact (modPort_settles p _ rfl).trans (traceRecord_settles _ _ _ _ _ _)

theorem askPages_settles (p : PortId) (i : SliceIdx) (pages : List Nat) (s : State) : Settles s (askPages p i pages s) := by
  unfold askPages
  dsimp only
  split
  · exact emit_settles _ s
  · exact .refl s

theorem issueRead_settles (q : Queue) (n : Nat) (s : State) : Settles s (issueRead q n s) :=
  (modQueue_settles q.port q.qnum (f := fun q => { q with reading := some n }) s fun _ => ⟨rfl, rfl⟩).trans
    ((askPages_settles _ _ _ _).trans (emit_settles _ _))

theorem pumpScans_settles (s : State) : Settles s (pumpScans s) := by
  refine .foldl (fun s q => ?_) _ s
  split
  · exact .refl s
  · split
    · exact issueRead_settles _ _ s
    · exact .refl s

theorem markOldest_settles (s : State) : Settles s (markOldest s) :=
  modItems_settles _ s fun x => by split <;> exact ⟨rfl, rfl, rfl⟩

theorem settleDrains_settles (s : State) : Settles s (settleDrains s) := by
  refine .foldl (fun s p => ?_) _ s
  dsimp only
  split
  · exact .refl s
  · exact (modPort_settles p _ rfl).trans (.foldl (fun s _ => emit_settles _ s) _ _)

theorem settleHeddle_settles (s : State) : Settles s (settleHeddle s) :=
  (settleCredit_settles s).trans ((pumpScans_settles _).trans ((markOldest_settles _).trans (settleDrains_settles _)))

theorem settleAfterLeave_settles (s : State) : Settles s (settleAfterLeave s) :=
  (retryParked_settles s).trans (settleHeddle_settles _)

end Sys2Proof.Machine
end

section
/-! PROOFS. Creating and destroying slices and queues (R129, R131, R162, R163). -/

namespace Sys2Proof.Machine

open Sys2Proof.Claims

/-! ### What goes with a slice -/

theorem operation_ports {s t : State} (h : Frame.operation.Keeps s t) : t.ports = s.ports := by
  rw [h]
  rfl

theorem operation_queues {s t : State} (h : Frame.operation.Keeps s t) : t.queues = s.queues := by
  rw [h]
  rfl

theorem discardItems_keepsOperation (p : PortId) (i : SliceIdx) (s : State) : Frame.operation.Keeps s (discardItems p i s) := by
  unfold discardItems
  extract_lets victims s₁
  have h₁ : Frame.operation.Keeps s s₁ := by
    refine .foldl (fun s x => ?_) _ s
    dsimp only
    split
    · exact .trans (t := returnReservation x.id s) rfl ((countAbandon_keepsOperation x _).trans (resumeTrestle_keepsOperation x _))
    · rfl
  exact h₁.trans rfl

theorem discardItems_items {p : PortId} {i : SliceIdx} {s : State} {j : Item} (h : j ∈ (discardItems p i s).heddle.items) :
    ¬(j.port = p ∧ j.slice = i) := by
  rintro ⟨hp, hi⟩
  simpa [hp, hi] using (List.mem_filter.mp h).2

/-- Whether the slice's tally records are erased shows in flash and chest alone. -/
theorem destroySlice_erases (p : PortId) (i : SliceIdx) (erase : Bool) (s : State) :
    destroySlice p i erase s =
      { destroySlice p i false s with flash := (destroySlice p i erase s).flash, backup := (destroySlice p i erase s).backup } := by
  have herase (sel : TallyRecord → Bool) (u : State) :
      eraseTally sel u = { u with flash := (eraseTally sel u).flash, backup := (eraseTally sel u).backup } := by
    unfold eraseTally
    dsimp only
    split <;> rfl
  cases erase
  · rfl
  · exact herase _ _

theorem destroySlice_items {p : PortId} {i : SliceIdx} {erase : Bool} {s : State} {j : Item}
    (h : j ∈ (destroySlice p i erase s).heddle.items) : ¬(j.port = p ∧ j.slice = i) := by
  rw [destroySlice_erases] at h
  exact discardItems_items (s := match s.slices.find? fun x => x.port == p && x.idx == i with
    | some x => wipeDrawers x 0 x.drawers s
    | none => s) h

theorem destroySlice_runs {p : PortId} {i : SliceIdx} {erase : Bool} {s : State} {r : KeyRun} (h : r ∈ (destroySlice p i erase s).runs) :
    ¬(r.port = p ∧ r.slice = i) := by
  rw [destroySlice_erases] at h
  rintro ⟨hp, hi⟩
  simpa [hp, hi] using (List.mem_filter.mp h).2

theorem destroySlice_slices_left (p : PortId) (i : SliceIdx) (erase : Bool) (s : State) :
    (destroySlice p i erase s).slices = s.slices.filter fun x => !(x.port == p && x.idx == i) := by
  rw [destroySlice_erases]
  exact destroySlice_slices p i s

theorem destroySlice_admin (p q : PortId) (i : SliceIdx) (erase : Bool) (s : State) :
    (destroySlice p i erase s).ports[q.val].admin = s.ports[q.val].admin := by
  have hkept : (destroySlice p i false s).ports[q.val].admin = s.ports[q.val].admin := by
    unfold destroySlice
    extract_lets old uid s₁ s₂ s₃ keys m s₄ s₅ s₆ cards s₇
    have h₁ : s₁.ports = s.ports := by
      unfold s₁
      cases old <;> rfl
    have h₂ : s₂.ports = s.ports := (operation_ports (discardItems_keepsOperation p i s₁)).trans h₁
    by_cases h : p.val = q.val
    · simp [s₇, s₆, s₅, s₄, s₃, freeSlots, modPort, pruneStage, modStage, h, h₂]
    · simp [s₇, s₆, s₅, s₄, s₃, freeSlots, modPort, pruneStage, modStage, Vector.getElem_set_ne _ _ h, h₂]
  rw [destroySlice_erases]
  exact hkept

/-! ### Slices -/

theorem createSliceAct_creates {p : PortId} {e : AdminEntry} {i : SliceIdx} {s : State} (hi : freeSliceIndex s p = some i)
    (hok : sliceRefusal s p (operandSlice p i e.entry (allotDrawers s (entryNat e.entry 20 2))) = 0) :
    createSliceAct p e s = adminWait p (.slice i) (modPort p (fun y => { y with sliceRefuse := 0 })
      { (draw inst16 32 s).2 with
        slices := (draw inst16 32 s).2.slices ++ [operandSlice p i e.entry (allotDrawers s (entryNat e.entry 20 2))] }) := by
  simp only [createSliceAct, hi, hok]
  rfl

theorem createSliceAct_refuses {p : PortId} {e : AdminEntry} {i : SliceIdx} {s : State} (hi : freeSliceIndex s p = some i)
    (hbad : sliceRefusal s p (operandSlice p i e.entry (allotDrawers s (entryNat e.entry 20 2))) ≠ 0) :
    createSliceAct p e s = refuseSlice p (sliceRefusal s p (operandSlice p i e.entry (allotDrawers s (entryNat e.entry 20 2)))) s := by
  simp only [createSliceAct, hi, bne_iff_ne, ne_eq, hbad, not_false_eq_true, if_true]

theorem destroySliceAct_destroys {p : PortId} {e : AdminEntry} {x : Slice} {s : State} (hx : findSlice s p (entryByte e.entry 8) = some x)
    (hqueue : sliceHasQueue s p x.idx = false) (hfrozen : x.frozen = true → x.saved = true) :
    destroySliceAct p e s = settleAfterLeave (adminDone p .ok 0 []
      (modPort p (fun y => { y with sliceRefuse := 0 }) (destroySlice p x.idx (!s.life.debug) s))) := by
  have hkeeps : (x.frozen && !x.saved) = false := by
    cases hf : x.frozen <;> simp [hf, hfrozen]
  simp only [destroySliceAct, hx, hqueue, hkeeps, Bool.false_eq_true, if_false]

/-- The settling leaves an answer. -/
theorem Settles.answer {s t : State} {p : PortId} {st : Status} {result : Nat} (h : Settles s t) (hs : AdminEnds s p st result) :
    AdminEnds t p st result := by
  obtain ⟨e, d, hentry, hd⟩ := hs
  exact ⟨e, d, (h.field (fun x => x.admin.entry) (fun _ => rfl) p).trans hentry, hd⟩

/-- Once the settling is done, too, nothing of the slice is left, and the command has its answer. -/
theorem slice_destroyed {p : PortId} {e : AdminEntry} {i : SliceIdx} {erase : Bool} {s u : State} (h : s.ports[p.val].admin.entry = some e)
    (hu : u = adminDone p .ok 0 [] (modPort p (fun y => { y with sliceRefuse := 0 }) (destroySlice p i erase s))) :
    AdminEnds (settleAfterLeave u) p .ok 0 ∧
      (settleAfterLeave u).slices = s.slices.filter (fun y => !(y.port == p && y.idx == i)) ∧
      (∀ r ∈ (settleAfterLeave u).runs, ¬(r.port = p ∧ r.slice = i)) ∧
      (∀ j ∈ (settleAfterLeave u).heddle.items, ¬(j.port = p ∧ j.slice = i)) ∧
      (settleAfterLeave u).ports[p.val].sliceRefuse = 0 := by
  have hsettles : Settles u (settleAfterLeave u) := settleAfterLeave_settles u
  refine ⟨hsettles.answer ?_, ?_, fun r hr => ?_, fun j hj => ?_, (hsettles.field Port.sliceRefuse (fun _ => rfl) p).trans ?_⟩
  · rw [hu]
    exact adminDone_ends (e := e) (by simp [modPort, destroySlice_admin, h])
  · have hslices : u.slices = (destroySlice p i erase s).slices := by rw [hu]; rfl
    simp only [settleAfterLeave_units, hslices, destroySlice_slices_left]
  · have hruns : u.runs = (destroySlice p i erase s).runs := by rw [hu]; rfl
    simp only [settleAfterLeave_units, hruns] at hr
    exact destroySlice_runs hr
  · obtain ⟨x, hx, -, hport, hslice⟩ := hsettles.items j hj
    rw [hu] at hx
    rw [← hport, ← hslice]
    exact destroySlice_items hx
  · rw [hu]
    simp [adminDone, modAdmin, modPort]

/-! ### Queues -/

theorem createQueueAct_creates {p : PortId} {e : AdminEntry} {x : Slice} {n k : Nat} {s : State} (hkind : entryByte e.entry 9 ≤ 1)
    (hok : queueRefusal s p e.entry = 0) (hx : findSlice s p (entryByte e.entry 8) = some x) (hn : freeQueueNumber s p = some n)
    (hk : freeQueueIndex s p x.idx = some k) :
    createQueueAct p e s = adminWait p (.queue n) (modPort p (fun y => { y with queueRefuse := 0 })
      { s with queues := s.queues ++ [operandQueue p x.idx n k e.entry] }) := by
  simp only [createQueueAct, hok, hx, hn, hk, Nat.not_lt.mpr hkind, if_false]
  rfl

theorem destroyQueueAct_destroys {p : PortId} {e : AdminEntry} {q : Queue} {s : State} (hworks : isWorking s.mode.base = true)
    (hq : findQueue s p (entryNat e.entry 8 2) = some q) (howned : q.owned = 0) :
    destroyQueueAct p e s =
      adminDone p .ok 0 [] (modPort p (fun y => { y with queueRefuse := 0 }) (removeQueue p (entryNat e.entry 8 2) s)) := by
  simp [destroyQueueAct, hworks, hq, howned]

/-- Settles O41, command by command. -/
theorem slicesQueuesComplete : Obligations.slices_queues_complete := by
  intro s p e i x q n k _
  refine ⟨fun h hi => ⟨fun hok => ?_, fun hbad => ?_⟩, fun h hx hqueue hfrozen => ?_, fun h hkind hok hx hn hk => ?_,
    fun h hworks hq howned => ?_⟩
  · have hacts : exec (.createSlice p) s = .next _ :=
      congrArg Host.Outcome.next ((adminCommand_acts (createSliceAct p) h).trans (createSliceAct_creates hi hok))
    have hports : (draw inst16 32 s).2.ports = s.ports := operation_ports (draw_keepsOperation inst16 32 s)
    refine ⟨_, hacts, rfl, rfl, rfl, ?_, ?_⟩
    · simp [adminWait, modAdmin, modPort, hports, adminRuns_entry h]
    · simp [adminWait, modAdmin, modPort]
  · have hacts : exec (.createSlice p) s = .next _ :=
      congrArg Host.Outcome.next ((adminCommand_acts (createSliceAct p) h).trans (createSliceAct_refuses hi hbad))
    refine ⟨_, hacts, adminDone_ends (e := e) ?_, rfl, ?_⟩
    · simp [modPort, adminRuns_entry h]
    · simp [refuseSlice, adminDone, modAdmin, modPort]
  · have hacts : exec (.destroySlice p) s = .next _ :=
      congrArg Host.Outcome.next ((adminCommand_acts (destroySliceAct p) h).trans (destroySliceAct_destroys hx hqueue hfrozen))
    obtain ⟨hends, hslices, hruns, hitems, hrefuse⟩ := slice_destroyed (adminRuns_entry h) rfl
    exact ⟨_, hacts, hends, hslices, hruns, hitems, hrefuse⟩
  · have hacts : exec (.createQueue p) s = .next _ :=
      congrArg Host.Outcome.next ((adminCommand_acts (createQueueAct p) h).trans (createQueueAct_creates hkind hok hx hn hk))
    refine ⟨_, hacts, rfl, rfl, ?_, ?_⟩
    · simp [adminWait, modAdmin, modPort, adminRuns_entry h]
    · simp [adminWait, modAdmin, modPort]
  · have hacts : exec (.destroyQueue p) s = .next _ :=
      congrArg Host.Outcome.next ((adminCommand_acts (destroyQueueAct p) h).trans (destroyQueueAct_destroys hworks hq howned))
    refine ⟨_, hacts, adminDone_ends (e := e) ?_, rfl, rfl, rfl⟩
    simp [modPort, removeQueue, pruneStage, modStage, adminRuns_entry h]

end Sys2Proof.Machine
end

section
/-! PROOFS. Doorbells, the admin queue's registers and polls (R144 to R148, R168). -/

namespace Sys2Proof.Machine

open Sys2Proof.Claims

/-! ### What a lookup of a queue finds -/

theorem findQueue_some {s : State} {p : PortId} {n : Nat} {q : Queue} (h : findQueue s p n = some q) : q.port = p ∧ q.qnum = n := by
  have hq := List.find?_some h
  simp only [Bool.and_eq_true, beq_iff_eq] at hq
  exact hq.1

theorem doorbellQueue_other {s : State} {p : PortId} {off size : Nat} (h : size ≠ 4 ∨ off % 8 ≠ 0) : doorbellQueue s p off size = none :=
  if_neg (by tauto)

/-- Page `i` holds the doorbells of slice `i`, 8 bytes each. -/
theorem doorbellQueue_page {s : State} {p : PortId} {i : SliceIdx} {k : Nat} (hk : k < 512) :
    doorbellQueue s p (4096 * i.val + 8 * k) 4 = findLocalQueue s p i.val k := by
  have hslice : (4096 * i.val + 8 * k) / 4096 = i.val := by omega
  have hindex : (4096 * i.val + 8 * k) % 4096 / 8 = k := by omega
  rw [doorbellQueue, if_pos ⟨rfl, by omega⟩, hslice, hindex]

/-! ### Doorbells of work queues -/

theorem execDoorbellWrite_other {s : State} {p : PortId} {off size : Nat} {v : Word} (h : size ≠ 4 ∨ off % 8 ≠ 0) (hw : WriteReaches s p) :
    exec (.doorbellWrite p off size v) s = .next s := by
  simp [exec, execDoorbellWrite, onWrite_reaches hw, doorbellQueue_other h]

theorem execExpressDoorbell_other {s : State} {p : PortId} {off size : Nat} (h : size ≠ 4 ∨ off % 8 ≠ 0) (hw : WriteReaches s p) :
    exec (.expressDoorbell p off size) s = .next s := by
  simp [exec, execExpressDoorbell, onWrite_reaches hw, doorbellQueue_other h]

theorem issueRead_queues (q : Queue) (n : Nat) (s : State) :
    (issueRead q n s).queues = (modQueue q.port q.qnum (fun q => { q with reading := some n }) s).queues := by
  unfold issueRead askPages
  dsimp only
  split <;> rfl

/-- The queues of this name scan. -/
def Scans (p : PortId) (n : Nat) (s : State) : Prop := ∀ x ∈ s.queues, x.port = p → x.qnum = n → x.scanning = true

theorem issueRead_scans {p : PortId} {n : Nat} {s : State} (h : Scans p n s) (q : Queue) (c : Nat) : Scans p n (issueRead q c s) := by
  intro x hx
  rw [issueRead_queues] at hx
  obtain ⟨y, hy, rfl⟩ := List.mem_map.mp hx
  split <;> exact h y hy

/-- What reads of scans change. -/
def Frame.reads : Frame where
  take t s := { s with queues := t.queues, out := t.out }
  self _ := rfl
  last _ _ _ := rfl

theorem issueRead_keepsReads (q : Queue) (n : Nat) (s : State) : Frame.reads.Keeps s (issueRead q n s) := by
  unfold issueRead askPages
  dsimp only
  split <;> rfl

theorem pumpScans_keepsReads (s : State) : Frame.reads.Keeps s (pumpScans s) := by
  refine .foldl (fun s q => ?_) _ s
  split
  · exact .refl s
  · split
    · exact issueRead_keepsReads _ _ s
    · exact .refl s

theorem Scans.foldl {α : Type} {p : PortId} {n : Nat} {f : State → α → State} (hf : ∀ s a, Scans p n s → Scans p n (f s a)) (l : List α)
    {s : State} (h : Scans p n s) : Scans p n (l.foldl f s) := by
  induction l generalizing s with
  | nil => exact h
  | cons a l ih => exact ih (hf s a h)

/-- No scan ends by its reads. -/
theorem pumpScans_scans {p : PortId} {n : Nat} {s : State} (h : Scans p n s) : Scans p n (pumpScans s) := by
  refine h.foldl (fun s q h => ?_) _
  split
  · exact h
  · split
    · exact issueRead_scans h _ _
    · exact h

theorem modQueue_scans (p : PortId) (n : Nat) (s : State) : Scans p n (modQueue p n (fun q => { q with scanning := true }) s) := by
  intro x hx hport hnum
  obtain ⟨y, -, rfl⟩ := List.mem_map.mp hx
  split at hport <;> simp_all

theorem execDoorbellWrite_tail {s : State} {p : PortId} {i : SliceIdx} {k : Nat} {v : Word} {q : Queue} (hw : WriteReaches s p) (hk : k < 512)
    (hq : findLocalQueue s p i.val k = some q) (hexpress : q.express = false) :
    exec (.doorbellWrite p (4096 * i.val + 8 * k) 4 v) s = .next (modQueue p q.qnum (fun q => { q with tail := v.setWidth 17 }) s) := by
  simp [exec, execDoorbellWrite, onWrite_reaches hw, doorbellQueue_page hk, hq, hexpress]

theorem execExpressDoorbell_rescan {s : State} {p : PortId} {i : SliceIdx} {k : Nat} {q : Queue} (hw : WriteReaches s p) (hk : k < 512)
    (hq : findLocalQueue s p i.val k = some q) (hexpress : q.express = true) (herror : q.state ≠ .error)
    (hbusy : q.scanning = true ∨ q.state = .frozen) :
    exec (.expressDoorbell p (4096 * i.val + 8 * k) 4) s = .next (modQueue p q.qnum (fun q => { q with rescan := true }) s) := by
  simp [exec, execExpressDoorbell, onWrite_reaches hw, doorbellQueue_page hk, hq, hexpress, herror, hbusy]

theorem execExpressDoorbell_scan {s : State} {p : PortId} {i : SliceIdx} {k : Nat} {q : Queue} (hw : WriteReaches s p) (hk : k < 512)
    (hq : findLocalQueue s p i.val k = some q) (hexpress : q.express = true) (hactive : q.state = .active) (hidle : q.scanning = false) :
    exec (.expressDoorbell p (4096 * i.val + 8 * k) 4) s =
      .next (pumpScans (modQueue p q.qnum (fun q => { q with scanning := true }) s)) := by
  simp [exec, execExpressDoorbell, onWrite_reaches hw, doorbellQueue_page hk, hq, hexpress, hactive, hidle]

/-! ### POLL_TICK -/

theorem pollCount_pos (q : Queue) : 1 ≤ pollCount q := by
  have hindex : headIndex q < 2 ^ q.log2 := Nat.mod_lt _ (Nat.two_pow_pos _)
  unfold pollCount
  split <;> omega

theorem pollCount_le (q : Queue) : pollCount q ≤ 32 := by
  unfold pollCount
  split <;> omega

/-- What is asked for before a read from the port. -/
theorem issueRead_out {q : Queue} {n : Nat} {s : State} :
    ∃ asks, (issueRead q n s).out = s.out ++ asks ++ [.ringRead q.port (slicePasid s q.port q.slice) q.qnum (headIndex q) n] ∧
      (s.ports[q.port.val].atsEn = false → asks = []) := by
  unfold issueRead askPages
  dsimp only
  split
  · next hask =>
    refine ⟨[_], by rw [emit_out, emit_out]; rfl, fun hats => ?_⟩
    simp [modQueue, modQueues, hats] at hask
  · exact ⟨[], by simp [modQueue, modQueues, slicePasid], fun _ => rfl⟩

theorem execPollTick_reads {s : State} {p : PortId} {n : Nat} {q : Queue} (hq : findQueue s p n = some q) (hexpress : q.express = false)
    (hreading : q.reading = none) (hmay : mayFetch s q = true) : exec (.pollTick p n) s = .next (issueRead q (pollCount q) s) := by
  simp [exec, execPollTick, hq, hexpress, hreading, hmay]

/-! ### The admin queue -/

/-- One port's part of `pumpAdmin`. -/
def pumpPort (s : State) (p : PortId) : State :=
  let a := s.ports[p.val].admin
  if a.scanning && !a.reading && mayFetchAdmin s p then
    emit (.ringRead p none 0 (a.head.toNat % 2 ^ a.log2) 1) (modAdmin p (fun a => { a with reading := true }) s)
  else s

theorem pumpAdmin_eq_foldl (s : State) : pumpAdmin s = (fins 4).foldl pumpPort s := rfl

/-- The port's scan has its read. -/
def AdminRead (p : PortId) (x : Tx) (s : State) : Prop :=
  s.ports[p.val].admin.reading = true ∧ s.ports[p.val].admin.scanning = true ∧ x ∈ s.out

/-- The port's scan may have its read, which is `x`. -/
def AdminReady (p : PortId) (x : Tx) (s : State) : Prop :=
  s.ports[p.val].admin.reading = false ∧ s.ports[p.val].admin.scanning = true ∧ mayFetchAdmin s p = true ∧
    x = .ringRead p none 0 (s.ports[p.val].admin.head.toNat % 2 ^ s.ports[p.val].admin.log2) 1

theorem pumpPort_of_ready {p : PortId} {x : Tx} {s : State} (h : AdminReady p x s) : AdminRead p x (pumpPort s p) := by
  obtain ⟨hreading, hscanning, hmay, hx⟩ := h
  simp [AdminRead, pumpPort, hreading, hscanning, hmay, hx, modAdmin, modPort]

theorem pumpPort_keeps_ready {p q : PortId} {x : Tx} {s : State} (hq : q ≠ p) (h : AdminReady p x s) : AdminReady p x (pumpPort s q) := by
  have hne : q.val ≠ p.val := fun hv => hq (Fin.ext hv)
  unfold pumpPort
  dsimp only
  split
  · simpa [AdminReady, mayFetchAdmin, adminRuns, portMoves, functionPresent, portFenced, emit, modAdmin, modPort,
      Vector.getElem_set_ne _ _ hne] using h
  · exact h

theorem pumpPort_keeps_read {p q : PortId} {x : Tx} {s : State} (h : AdminRead p x s) : AdminRead p x (pumpPort s q) := by
  obtain ⟨hreading, hscanning, hx⟩ := h
  unfold pumpPort
  dsimp only
  split
  · by_cases hq : q.val = p.val
    · obtain rfl := Fin.ext hq
      simp [AdminRead, modAdmin, modPort, hscanning, hx]
    · simp [AdminRead, modAdmin, modPort, Vector.getElem_set_ne _ _ hq, hreading, hscanning, hx]
  · exact ⟨hreading, hscanning, hx⟩

theorem foldl_pumpPort_keeps_read {p : PortId} {x : Tx} (l : List PortId) {s : State} (h : AdminRead p x s) :
    AdminRead p x (l.foldl pumpPort s) := by
  induction l generalizing s with
  | nil => exact h
  | cons q l ih => exact ih (pumpPort_keeps_read h)

theorem foldl_pumpPort_of_ready {p : PortId} {x : Tx} {l : List PortId} {s : State} (hp : p ∈ l) (h : AdminReady p x s) :
    AdminRead p x (l.foldl pumpPort s) := by
  induction l generalizing s with
  | nil => exact absurd hp List.not_mem_nil
  | cons q l ih =>
    by_cases hq : q = p
    · subst hq
      exact foldl_pumpPort_keeps_read l (pumpPort_of_ready h)
    · exact ih ((List.mem_cons.mp hp).resolve_left (Ne.symm hq)) (pumpPort_keeps_ready hq h)

theorem mem_fins {n : Nat} (k : Fin n) : k ∈ fins n := by simp only [fins, List.mem_ofFn, id_eq, exists_eq]

theorem pumpAdmin_of_ready {p : PortId} {x : Tx} {s : State} (h : AdminReady p x s) : AdminRead p x (pumpAdmin s) :=
  foldl_pumpPort_of_ready (mem_fins p) h

theorem execAdminDoorbell_rescan {s : State} {p : PortId} (hw : WriteReaches s p) (henable : s.ports[p.val].admin.enable = true)
    (herror : s.ports[p.val].admin.error = false) (hscanning : s.ports[p.val].admin.scanning = true) :
    exec (.adminDoorbell p) s = .next (modAdmin p (fun a => { a with rescan := true }) s) := by
  simp [exec, execAdminDoorbell, onWrite_reaches hw, henable, herror, hscanning]

theorem execAdminDoorbell_scan {s : State} {p : PortId} (hw : WriteReaches s p) (henable : s.ports[p.val].admin.enable = true)
    (herror : s.ports[p.val].admin.error = false) (hscanning : s.ports[p.val].admin.scanning = false) :
    exec (.adminDoorbell p) s = .next (pumpAdmin (modAdmin p (fun a => { a with scanning := true }) s)) := by
  simp [exec, execAdminDoorbell, onWrite_reaches hw, henable, herror, hscanning]

/-- The scan bit keeps no read from the queue. -/
theorem scanning_ready {s : State} {p : PortId} (hreading : s.ports[p.val].admin.reading = false) (hmay : mayFetchAdmin s p = true) :
    AdminReady p (.ringRead p none 0 (s.ports[p.val].admin.head.toNat % 2 ^ s.ports[p.val].admin.log2) 1)
      (modAdmin p (fun a => { a with scanning := true }) s) := by
  simpa [AdminReady, mayFetchAdmin, adminRuns, portMoves, functionPresent, portFenced, modAdmin, modPort, hreading] using hmay

/-- What a write of ADM_AQ_CFG with ENABLE makes of the queue (R168). -/
def enabledAdmin (v : Word) (a : AdminQueue) : AdminQueue :=
  let b := { a with vector := fieldOf v 16 11, log2 := fieldOf v 0 5 }
  if ringOk (fieldOf v 0 5) a.base then
    { b with enable := true, err := if a.error then a.err else 0, head := 0, scanning := false, rescan := false, reading := false }
  else { b with err := 3 }

theorem fieldOf_top {v : Word} (h : v.getLsbD 31 = true) : fieldOf v 31 1 ≠ 0 := by
  rw [BitVec.getLsbD, Nat.testBit_eq_decide_div_mod_eq, decide_eq_true_iff] at h
  simp [fieldOf, Nat.shiftRight_eq_div_pow, h]

theorem execAdminQueueEnable_enables {s : State} {p : PortId} {v : Word} (hw : WriteReaches s p) (hidle : s.ports[p.val].admin.enable = false)
    (hv : v.getLsbD 31 = true) : exec (.adminQueueEnable p v) s = .next (modAdmin p (enabledAdmin v) s) := by
  have htop := fieldOf_top hv
  cases hring : ringOk (fieldOf v 0 5) s.ports[p.val].admin.base <;>
    simp [exec, execAdminQueueEnable, onWrite_reaches hw, hidle, htop, hring, enabledAdmin, modAdmin, modPort]

theorem execAdminQueueDisable_disables {s : State} {p : PortId} (hw : WriteReaches s p) (hentry : s.ports[p.val].admin.entry = none) :
    exec (.adminQueueDisable p) s =
      .next (modAdmin p (fun a => { a with enable := false, scanning := false, rescan := false, reading := false }) s) := by
  simp [exec, execAdminQueueDisable, onWrite_reaches hw, hentry]

/-- Settles O32, command by command. -/
theorem doorbellsComplete : Obligations.doorbells_complete := by
  intro s p i k off size v q hk _ _
  refine ⟨fun hother hw => ⟨execDoorbellWrite_other hother hw, execExpressDoorbell_other hother hw⟩,
    fun hw hq => ⟨execDoorbellWrite_tail hw hk hq, fun hexpress => execExpressDoorbell_rescan hw hk hq hexpress,
      fun hexpress hactive hidle => ?_⟩,
    fun hw henable herror => ⟨execAdminDoorbell_rescan hw henable herror, fun hscanning hreading hmay => ?_⟩,
    fun hw hidle hv => ?_, execAdminQueueDisable_disables, fun n _ _ hq hexpress hreading hmay => ?_⟩
  · exact ⟨_, execExpressDoorbell_scan hw hk hq hexpress hactive hidle, pumpScans_keepsReads _, pumpScans_scans (modQueue_scans p q.qnum s)⟩
  · obtain ⟨hread, hscan, hout⟩ := pumpAdmin_of_ready (scanning_ready hreading hmay)
    exact ⟨_, execAdminDoorbell_scan hw henable herror hscanning, hread, hscan, hout⟩
  · refine ⟨_, execAdminQueueEnable_enables hw hidle hv, rfl, ?_⟩
    cases hring : ringOk (fieldOf v 0 5) s.ports[p.val].admin.base <;>
      simp +contextual [modAdmin, modPort, enabledAdmin, hring, hidle]
  · obtain ⟨hport, hnum⟩ := findQueue_some hq
    obtain ⟨asks, hout, hasks⟩ := issueRead_out (q := q) (n := pollCount q) (s := s)
    subst hport hnum
    exact ⟨_, _, asks, execPollTick_reads hq hexpress hreading hmay, pollCount_pos q, pollCount_le q, hout, hasks, issueRead_keepsReads _ _ s⟩

end Sys2Proof.Machine
end

section
/-! PROOFS. What a completion's writes send, in which order, and the messages of queues (R142, R152, R155, R158). -/

namespace Sys2Proof.Machine

open Sys2Proof.Claims

/-! ### Messages -/

theorem sendMessage_settles (p : PortId) (vector : Nat) (s : State) : Settles s (sendMessage p vector s) := by
  unfold sendMessage
  dsimp only
  split
  · exact .refl s
  · split
    · exact emit_settles _ s
    · exact modPort_settles p s rfl

theorem queueMessage_settles (p : PortId) (n : Nat) (s : State) : Settles s (queueMessage p n s) := by
  unfold queueMessage
  split
  · exact .refl s
  · split
    · exact (modQueue_settles p n (f := fun q => { q with counted := 0 }) s fun _ => ⟨rfl, rfl⟩).trans (sendMessage_settles _ _ _)
    · exact modQueue_settles p n s fun _ => ⟨rfl, rfl⟩

theorem countWritten_settles (p : PortId) (n : Nat) (e : Entry) (s : State) : Settles s (countWritten p n e s) := by
  unfold countWritten
  extract_lets s₁
  have h₁ : Settles s s₁ := by
    unfold s₁
    split
    · exact .refl s
    · exact modQueue_settles p n s fun _ => ⟨rfl, rfl⟩
  split
  · exact h₁
  · split
    · exact h₁.trans (queueMessage_settles p n _)
    · exact h₁

/-- The message of a vector whose table entry is open. -/
theorem sendMessage_open {s : State} {p : PortId} {v : Nat} {m : MsixEntry} (hen : s.ports[p.val].msixEn = true)
    (hmask : s.ports[p.val].msixFnMask = false) (hm : (s.ports[p.val].table.find? fun e => e.vector == v && !e.masked) = some m) :
    sendMessage p v s = emit (.msix p v m.address m.data) s := by
  unfold sendMessage
  dsimp only
  rw [if_neg (by simp [hen]), hmask, hm]

theorem execCoalesceTimeout_sends {s : State} {p : PortId} {n : Nat} {q : Queue} (hq : findQueue s p n = some q) (hcount : q.counted ≠ 0)
    (hmoves : portMoves s p = true) :
    exec (.coalesceTimeout p n) s = .next (sendMessage p q.vector (modQueue p n (fun y => { y with counted := 0 }) s)) := by
  simp [exec, execCoalesceTimeout, queueMessage, hq, hcount, hmoves]

/-! ### The output -/

theorem askPages_out (p : PortId) (i : SliceIdx) (pages : List Nat) (s : State) :
    ∃ asks, askPages p i pages s = { s with out := s.out ++ asks } := by
  unfold askPages
  dsimp only
  split
  · exact ⟨[_], rfl⟩
  · exact ⟨[], by simp⟩

theorem touchPages_frame (p : PortId) (i : SliceIdx) (pages : List Nat) (s : State) :
    touchPages p i pages s = { s with ports := (touchPages p i pages s).ports, free := (touchPages p i pages s).free } := by
  unfold touchPages
  dsimp only
  split <;> rfl

theorem touchPages_out (p : PortId) (i : SliceIdx) (pages : List Nat) (s : State) : (touchPages p i pages s).out = s.out := by
  rw [touchPages_frame]

theorem slicePasid_touchPages (s : State) (p q : PortId) (i j : SliceIdx) (pages : List Nat) :
    slicePasid (touchPages q j pages s) p i = slicePasid s p i := by
  rw [touchPages_frame]
  rfl

/-- Translations in use move no queue, ring or slice. -/
theorem ringMeets_touchPages (s : State) (p q : PortId) (i : SliceIdx) (pages : List Nat) (own : Option (BitVec 20)) (a n : Nat) :
    ringMeets (touchPages q i pages s) p own a n = ringMeets s p own a n := by
  unfold touchPages
  dsimp only
  split
  · by_cases hq : q.val = p.val
    · simp [ringMeets, slicePasid, modPort, hq]
    · simp [ringMeets, slicePasid, modPort, Vector.getElem_set_ne _ _ hq]
  · rfl

theorem writtenBytes_length (overlaps : Bool) (bs : Bytes) (s : State) : (writtenBytes overlaps bs s).1.length = bs.length := by
  unfold writtenBytes
  split <;> simp

theorem writtenBytes_out (overlaps : Bool) (bs : Bytes) (s : State) : (writtenBytes overlaps bs s).2.out = s.out := by
  unfold writtenBytes
  split <;> rfl

theorem writeOutput_out (i : Item) (bs : Bytes) (s : State) :
    ∃ bytes, bytes.length = bs.length ∧ (outputOverlaps s i bs.length = false → bytes = bs) ∧
      (writeOutput i bs s).out = s.out ++ [.output i.port (slicePasid s i.port i.slice) (outputAddr i.entry) bytes] := by
  have hmeets (t : State) (n : Nat) (pages : List Nat) : outputOverlaps (touchPages i.port i.slice pages t) i n = outputOverlaps t i n := by
    simp only [outputOverlaps, ringMeets_touchPages, slicePasid_touchPages]
  unfold writeOutput
  extract_lets pages r
  refine ⟨r.1, writtenBytes_length _ _ _, fun h => ?_, ?_⟩
  · simp [r, outputBytes, writtenBytes, hmeets, h]
  · have hr : r.2.out = s.out := (writtenBytes_out _ _ _).trans (touchPages_out _ _ pages s)
    rw [emit_out, hr]

/-! ### The three writes -/

/-- No write of the completion is denied, and its output reads clean. -/
def cleanWrite : WriteBack := { outputUe := false, outputDenied := false, ringDenied := false }

theorem writtenDone_clean (asked : Bool) (d : Done) : writtenDone asked cleanWrite d = d := by
  simp [writtenDone, cleanWrite]

theorem writeItem_clean (i : Item) (d : Done) (s : State) :
    ∃ u asks bytes, writeItem i d cleanWrite s = countWritten i.port i.qnum i.entry u ∧ (∀ j ∈ u.heddle.items, j.id ≠ i.id) ∧
      (s.ports[i.port.val].atsEn = false ∨ i.retranslate = false → asks = []) ∧
      bytes.length = d.output.length ∧ (outputOverlaps s i d.output.length = false → bytes = d.output) ∧
      u.out = s.out ++ asks ++ (if d.output = [] then [] else [Tx.output i.port (slicePasid s i.port i.slice) (outputAddr i.entry) bytes]) ++
        [.completion i.port (slicePasid s i.port i.slice) i.qnum i.index
          (completionRecord d.outputLen i.cycles i.doneEngine i.faultRestarts d.result (userTag i.entry)),
         .dword0 i.port (slicePasid s i.port i.slice) i.qnum i.index (recordDword0 d.status i.restarts)] := by
  unfold writeItem
  extract_lets ats pasid again d' s₁ s₂ s₃ s₄ s₅ s₆ r s₇
  have hd' : d' = d := writtenDone_clean again d
  clear_value d'
  subst hd'
  have h₁ : s₁ = s := by simp [s₁, cleanWrite]
  have h₃ : s₃ = s₂ := by simp [s₃]
  obtain ⟨asks, h₂, hasks⟩ : ∃ asks, s₂ = { s with out := s.out ++ asks } ∧ (again = false → asks = []) := by
    obtain ⟨asks, hask⟩ := askPages_out i.port i.slice (pagesOf (outputAddr i.entry).toNat d'.output.length) s
    cases hagain : again
    · exact ⟨[], by simp [s₂, h₁, hagain], fun _ => rfl⟩
    · exact ⟨asks, by simpa [s₂, h₁, hagain, cleanWrite] using hask, nofun⟩
  obtain ⟨bytes, hlen, hbytes, hout⟩ := writeOutput_out i d'.output s₃
  have hpasid : slicePasid s₃ i.port i.slice = slicePasid s i.port i.slice := by
    rw [h₃, h₂]
    rfl
  have hmeets : outputOverlaps s₃ i d'.output.length = outputOverlaps s i d'.output.length := by
    rw [h₃, h₂]
    rfl
  rw [hpasid] at hout
  rw [hmeets] at hbytes
  have h₄ : s₄.out = s₃.out ++ if d'.output = [] then [] else [Tx.output i.port (slicePasid s i.port i.slice) (outputAddr i.entry) bytes] := by
    unfold s₄
    cases hempty : d'.output with
    | nil => simp
    | cons b bs => simpa [hempty] using hout
  refine ⟨s₇, asks, bytes, rfl, fun j hj => ?_, fun h => hasks ?_, hlen, hbytes, ?_⟩
  · simpa using (List.mem_filter.mp hj).2
  · obtain h | h := h <;> simp [again, ats, h]
  · simp [s₇, s₆, s₅, h₄, h₃, h₂, dropItems, pasid, r]

theorem writeAdmin_clean (p : PortId) (x : AdminEntry) (d : Done) (s : State) :
    ∃ u bytes, Sends u (writeAdmin p x d cleanWrite s) ∧
      bytes.length = d.output.length ∧ (adminOverlaps s p x.entry d.output.length = false → bytes = d.output) ∧
      u.out = s.out ++ (if d.output = [] then [] else [Tx.output p none (outputAddr x.entry) bytes]) ++
        [.completion p none 0 x.index (completionRecord d.outputLen 0 0x7000 0 d.result (userTag x.entry)),
         .dword0 p none 0 x.index (recordDword0 d.status 0)] := by
  unfold writeAdmin
  extract_lets ats d' written s₁ s₂ r s₃
  have hd' : d' = d := writtenDone_clean ats d
  clear_value d'
  subst hd'
  have h₁ : s₁.out = s.out ++ if d'.output = [] then [] else [Tx.output p none (outputAddr x.entry) written.1] := by
    have hkept : written.2.out = s.out := writtenBytes_out _ _ s
    unfold s₁
    cases hempty : d'.output with
    | nil => simp
    | cons b bs => simp [hkept]
  refine ⟨s₃, written.1, ?_, writtenBytes_length _ _ s, fun h => ?_, ?_⟩
  · rw [if_neg (by simp [cleanWrite])]
    split
    · exact pumpAdmin_sends s₃
    · exact (adminMessage_sends p s₃).trans (pumpAdmin_sends _)
  · simp [written, writtenBytes, h]
  · simp [s₃, s₂, h₁, r]

/-- Settles O37: what an item's and an admin entry's writes send, then what the counts and the settling send. -/
theorem completionWriteCompletes : Obligations.completion_write_completes := by
  intro s id i d p x q n w m _ hw
  obtain rfl : w = cleanWrite := hw
  refine ⟨fun hi hd hmoves hflow => ?_, fun hnone hx hd hmoves => ?_, fun _ _ hq hcount hmoves hen hmask hm => ?_⟩
  · obtain ⟨u, asks, bytes, hwrite, hitems, hasks, hlen, hbytes, hout⟩ := writeItem_clean i d s
    have hexec : exec (.completionWrite id cleanWrite) s = .next (settleAfterLeave (countWritten i.port i.qnum i.entry u)) := by
      simp [exec, execCompletionWrite, writeCompletion, hi, hd, hmoves, hflow, hwrite]
    have hsends := (countWritten_sends i.port i.qnum i.entry u).trans (settleAfterLeave_sends _)
    have hsettles := (countWritten_settles i.port i.qnum i.entry u).trans (settleAfterLeave_settles _)
    refine ⟨_, asks, bytes, _, hexec, fun j hj => ?_, hasks, hlen, hbytes, by rw [hsends.2, hout]⟩
    obtain ⟨y, hy, hid, -⟩ := hsettles.items j hj
    rw [← hid, ← (findItem_mem hi).2]
    exact hitems y hy
  · obtain ⟨u, bytes, hsends, hlen, hbytes, hout⟩ := writeAdmin_clean p x d s
    have hexec : exec (.completionWrite id cleanWrite) s = .next (writeAdmin p x d cleanWrite s) := by
      simp [exec, execCompletionWrite, writeCompletion, hnone, hx, hd, hmoves]
    exact ⟨_, bytes, _, hexec, hlen, hbytes, by rw [hsends.2, hout]⟩
  · exact (execCoalesceTimeout_sends hq hcount hmoves).trans (congrArg Host.Outcome.next
      (sendMessage_open (s := modQueue p n (fun y => { y with counted := 0 }) s) hen hmask hm))

end Sys2Proof.Machine
end

section
/-! PROOFS. The host function: training, its configuration, invalidations and its reset (R113, R116, R117, R132, R135). -/

namespace Sys2Proof.Machine

open Sys2Proof.Claims

/-! ### Training and configuration -/

theorem execLinkTrained_trains {p : PortId} {gen : Nat} {single : Bool} {s : State} (hmode : s.mode.base ≠ .dormant)
    (hattached : s.power.contracts[p.val].attached = true) (hplan : s.power.plan ≠ .wakeOnly) :
    ∃ t, exec (.linkTrained p gen single) s = .next t ∧ functionPresent t p = true ∧
      t.ports = s.ports.set p.val (if s.ports[p.val].trained = true then { s.ports[p.val] with gen := gen, singleLane := single }
        else { trained := true, gen := gen, singleLane := single }) := by
  refine ⟨_, rfl, ?_⟩
  rw [if_neg (by simp [hmode, hattached, hplan])]
  split
  · next htrained => simp [functionPresent, raise0, modPort, htrained, hattached]
  · next htrained =>
    extract_lets s₁
    have h₁ : s₁.ports = s.ports.set p.val { trained := true, gen := gen, singleLane := single } ∧ s₁.power = s.power := by
      simp [s₁, modPort]
    obtain ⟨hports, hpower⟩ := h₁
    split <;> simp [functionPresent, raise0, hports, hpower, hattached]

theorem sendPending_settles (p : PortId) (s : State) : Settles s (sendPending p s) := by
  unfold sendPending
  dsimp only
  split
  · exact .refl s
  · exact (modPort_settles p s rfl).trans (.foldl (fun s e => emit_settles _ s) _ _)

theorem modAdmin_settles (p : PortId) {f : AdminQueue → AdminQueue} (s : State)
    (h : ∀ a, { f a with counted := 0, reading := false } = { a with counted := 0, reading := false }) : Settles s (modAdmin p f s) :=
  modPort_settles p s (by simp [settledPort, h])

theorem adminMessage_settles (p : PortId) (s : State) : Settles s (adminMessage p s) := by
  unfold adminMessage
  split
  · exact (modAdmin_settles p (f := fun a => { a with counted := 0 }) s fun _ => rfl).trans (sendMessage_settles _ _ _)
  · exact modAdmin_settles p s fun _ => rfl

theorem sendHeld_settles (p : PortId) (s : State) : Settles s (sendHeld p s) := by
  unfold sendHeld
  extract_lets due s₁
  have h₁ : Settles s s₁ := .foldl (fun s n => queueMessage_settles p n s) _ s
  split
  · exact h₁
  · exact h₁.trans (adminMessage_settles p s₁)

theorem pumpAdmin_settles (s : State) : Settles s (pumpAdmin s) := by
  refine .foldl (fun s p => ?_) _ s
  dsimp only
  split
  · exact (modAdmin_settles p (f := fun a => { a with reading := true }) s fun _ => rfl).trans (emit_settles _ _)
  · exact .refl s

/-- What BUS_MASTER_RESUME makes of the port (R116; log entry 28). -/
def resumedPort (ats : Bool) (table : List MsixEntry) (x : Port) : Port :=
  { x with
    bme := true
    mse := true
    d3hot := false
    msixEn := true
    msixFnMask := false
    atsEn := ats
    table := table.filter fun e => decide (e.vector < 2048)
    cache := if ats then x.cache else [] }

theorem execBusMasterResume_settles {p : PortId} {ats : Bool} {table : List MsixEntry} {s : State} (hopen : configOpen s p = true) :
    ∃ t, exec (.busMasterResume p ats table) s = .next t ∧ Settles (modPort p (resumedPort ats table) s) t := by
  refine ⟨_, rfl, ?_⟩
  rw [if_neg (by simp [hopen])]
  extract_lets stopped up s₁ s₂
  have h₁ : Settles (modPort p (resumedPort ats table) s) s₁ := sendPending_settles p _
  have h₂ : Settles s₁ s₂ := by
    unfold s₂
    split
    · exact sendHeld_settles p s₁
    · exact .refl s₁
  exact h₁.trans (h₂.trans ((settleHeddle_settles s₂).trans (pumpAdmin_settles _)))

theorem configuration_completes {s : State} {p : PortId} {d3 enable : Bool} (hopen : configOpen s p = true) :
    exec (.busMasterDisable p d3) s = .next (modPort p (fun x => if d3 = true then { x with d3hot := true } else { x with bme := false }) s) ∧
      exec (.memorySpaceDisable p) s = .next (modPort p (fun x => { x with mse := false }) s) ∧
      exec (.atsEnableClear p) s = .next (modPort p (fun x => { x with atsEn := false, cache := [] }) s) ∧
      exec (.pasidEnableChange p enable) s = .next (settleHeddle (modPort p (fun x => { x with pasidEn := enable }) s)) := by
  cases d3 <;>
    simp [exec, execBusMasterDisable, execMemorySpaceDisable, execAtsEnableClear, execPasidEnableChange, hopen]

/-! ### Invalidations (R135) -/

/-- One port's part of `settleDrains`. -/
def drainPort (s : State) (p : PortId) : State :=
  let left := s.ports[p.val].drains.map (drainLeft s p)
  let ended := left.filter fun d => d.queues.isEmpty && d.items.isEmpty
  if left.isEmpty then s
  else ended.foldl (fun s _ => emit (.atsDone p) s)
    (modPort p (fun x => { x with drains := left.filter fun d => !(d.queues.isEmpty && d.items.isEmpty) }) s)

theorem settleDrains_eq_foldl (s : State) : settleDrains s = (fins 4).foldl drainPort s := rfl

theorem drainPort_none {s : State} {p : PortId} (h : s.ports[p.val].drains = []) : drainPort s p = s := by
  simp [drainPort, h]

theorem foldl_drainPort_none {s : State} {l : List PortId} (h : ∀ q ∈ l, s.ports[q.val].drains = []) : l.foldl drainPort s = s := by
  induction l with
  | nil => rfl
  | cons q l ih =>
    rw [List.foldl_cons, drainPort_none (h q List.mem_cons_self)]
    exact ih fun r hr => h r (List.mem_cons_of_mem q hr)

theorem drainPort_other {s : State} {p q : PortId} (h : p ≠ q) : (drainPort s p).ports[q.val] = s.ports[q.val] := by
  have hne : p.val ≠ q.val := fun hv => h (Fin.ext hv)
  unfold drainPort
  dsimp only
  split
  · rfl
  · refine (foldl_reads (f := fun s _ => emit (.atsDone p) s) (fun t => t.ports[q.val]) (fun _ _ => rfl) _ _).trans ?_
    simp [modPort, Vector.getElem_set_ne _ _ hne]

/-- Where one port alone has waiting invalidations, they alone are settled. -/
theorem settleDrains_one {s : State} {p : PortId} (h : ∀ q : PortId, q ≠ p → s.ports[q.val].drains = []) :
    settleDrains s = drainPort s p := by
  have hfold (l : List PortId) (hp : p ∈ l) (hl : l.Nodup) : l.foldl drainPort s = drainPort s p := by
    induction l with
    | nil => exact absurd hp List.not_mem_nil
    | cons q l ih =>
      obtain ⟨hq, hl⟩ := List.nodup_cons.mp hl
      by_cases hqp : q = p
      · subst hqp
        refine (foldl_drainPort_none (s := drainPort s q) fun r hr => ?_)
        have hne : q ≠ r := fun he => hq (he ▸ hr)
        rw [drainPort_other hne]
        exact h r (Ne.symm hne)
      · rw [List.foldl_cons, drainPort_none (h q hqp)]
        exact ih ((List.mem_cons.mp hp).resolve_left (Ne.symm hqp)) hl
  exact hfold _ (mem_fins p) (by decide)

/-- Nothing of the invalidation is in flight. -/
def drained (d : AtsDrain) : Bool := d.queues.isEmpty && d.items.isEmpty

theorem drainPort_one {s : State} {p : PortId} {d : AtsDrain} (h : s.ports[p.val].drains = [d]) :
    drainPort s p = ([drainLeft s p d].filter drained).foldl (fun s _ => emit (.atsDone p) s)
      (modPort p (fun x => { x with drains := [drainLeft s p d].filter fun d => !drained d }) s) := by
  unfold drainPort
  rw [h]
  rfl

theorem drainPort_answers {s : State} {p : PortId} {d : AtsDrain} (h : s.ports[p.val].drains = [d]) (hd : drained (drainLeft s p d) = true) :
    drainPort s p = emit (.atsDone p) (modPort p (fun x => { x with drains := [] }) s) := by
  simp [drainPort_one h, hd]

theorem drainPort_waits {s : State} {p : PortId} {d : AtsDrain} (h : s.ports[p.val].drains = [d]) (hd : drained (drainLeft s p d) = false) :
    drainPort s p = modPort p (fun x => { x with drains := [drainLeft s p d] }) s := by
  simp [drainPort_one h, hd]

/-- The page lies in the range, and the request concerns the slice. -/
def atsNamed (s : State) (p : PortId) (pasid : Option (BitVec 20)) (g : Bool) (a b : Nat) (i : SliceIdx) (page : Nat) : Bool :=
  decide (a ≤ page) && decide (page ≤ b) && invalidates s p pasid g i

/-- An entry of the cache goes. -/
def atsHit (s : State) (p : PortId) (pasid : Option (BitVec 20)) (g : Bool) (a b : Nat) (i : SliceIdx) (page : Nat) : Bool :=
  atsNamed s p pasid g a b i page && translated s p i page

/-- What the invalidation waits for (R135). -/
def atsDrain (s : State) (p : PortId) (pasid : Option (BitVec 20)) (g : Bool) (a b : Nat) : AtsDrain where
  queues := readingHit s p (if s.ports[p.val].atsEn then atsNamed s p pasid g a b else atsHit s p pasid g a b)
  items := streamingHit s p (atsHit s p pasid g a b)

/-- The cache without the entries that go, the outputs marked, the invalidation at the end of those that wait. -/
def invalidated (s : State) (p : PortId) (pasid : Option (BitVec 20)) (g : Bool) (a b : Nat) : State :=
  modPort p (fun x =>
      { x with
        cache := x.cache.filter fun t => !atsHit s p pasid g a b t.slice t.page
        drains := x.drains ++ [atsDrain s p pasid g a b] })
    (modItems (outputHit p (atsHit s p pasid g a b)) (fun i => { i with retranslate := true }) s)

theorem execAtsInvalidation_settles {s : State} {p : PortId} {pasid : Option (BitVec 20)} {g : Bool} {a b : Nat}
    (hpresent : functionPresent s p = true) (hflr : s.ports[p.val].flr = false) :
    exec (.atsInvalidation p pasid g a b) s = .next (settleDrains (invalidated s p pasid g a b)) := by
  refine congrArg Host.Outcome.next (if_pos ?_)
  simp [hpresent, hflr]

/-- An entry is its own translation, so those named go. -/
theorem atsHit_cache {s : State} {p : PortId} {pasid : Option (BitVec 20)} {g : Bool} {a b : Nat} {x : Translation}
    (h : x ∈ s.ports[p.val].cache) : atsHit s p pasid g a b x.slice x.page = atsNamed s p pasid g a b x.slice x.page := by
  have htranslated : translated s p x.slice x.page = true := List.any_eq_true.mpr ⟨x, h, by simp⟩
  rw [atsHit, htranslated, Bool.and_true]

theorem invalidated_drains {s : State} {p : PortId} {pasid : Option (BitVec 20)} {g : Bool} {a b : Nat}
    (h : s.ports[p.val].drains = []) : (invalidated s p pasid g a b).ports[p.val].drains = [atsDrain s p pasid g a b] := by
  simp [invalidated, modPort, h]

/-- No read of the port is in flight, so nothing is waited for. -/
theorem atsDrain_idle {s : State} {p : PortId} {pasid : Option (BitVec 20)} {g : Bool} {a b : Nat}
    (hqueues : ∀ q ∈ s.queues, q.port = p → q.reading = none)
    (hitems : ∀ i ∈ s.heddle.items, i.port = p → i.place = .inService → i.result.isSome = true) :
    atsDrain s p pasid g a b = { queues := [], items := [] } := by
  have hreading (hit : SliceIdx → Nat → Bool) : readingHit s p hit = [] := by
    refine List.map_eq_nil_iff.mpr (List.filter_eq_nil_iff.mpr fun q hq => ?_)
    by_cases hp : q.port = p
    · simp [hqueues q hq hp]
    · simp [hp]
  have hstreaming (hit : SliceIdx → Nat → Bool) : streamingHit s p hit = [] := by
    refine List.map_eq_nil_iff.mpr (List.filter_eq_nil_iff.mpr fun i hi => ?_)
    by_cases hp : i.port = p ∧ i.place = .inService
    · simp [Option.isSome_iff_ne_none.mp (hitems i hi hp.1 hp.2)]
    · simp_all
  rw [atsDrain, hreading, hstreaming]

theorem drained_nil (s : State) (p : PortId) : drained (drainLeft s p { queues := [], items := [] }) = true := rfl

/-- A ring read through a page that goes is waited for. -/
theorem atsDrain_reading {s : State} {p : PortId} {pasid : Option (BitVec 20)} {g : Bool} {a b n c k : Nat} {q : Queue}
    (hq : findQueue s p n = some q) (hreading : q.reading = some c) (hk : k ∈ ringPages q c) (ha : a ≤ k) (hb : k ≤ b)
    (hinv : invalidates s p pasid g q.slice = true) (htrans : translated s p q.slice k = true) :
    n ∈ (atsDrain s p pasid g a b).queues := by
  have hnamed : atsNamed s p pasid g a b q.slice k = true := by simp [atsNamed, ha, hb, hinv]
  have hhit : atsHit s p pasid g a b q.slice k = true := by simp [atsHit, hnamed, htrans]
  obtain ⟨hport, hnum⟩ := findQueue_some hq
  refine List.mem_map.mpr ⟨q, List.mem_filter.mpr ⟨List.mem_of_find?_eq_some hq, ?_⟩, hnum⟩
  have hany : (ringPages q c).any ((if s.ports[p.val].atsEn then atsNamed s p pasid g a b else atsHit s p pasid g a b) q.slice) = true := by
    refine List.any_eq_true.mpr ⟨k, hk, ?_⟩
    split
    · exact hnamed
    · exact hhit
  simp [hport, hreading, hany]

theorem drained_reading {t : State} {p : PortId} {n c : Nat} {q : Queue} {d : AtsDrain} (hn : 0 < n) (hq : findQueue t p n = some q)
    (hreading : q.reading = some c) (hd : n ∈ d.queues) : drained (drainLeft t p d) = false := by
  have hleft : n ∈ (drainLeft t p d).queues := List.mem_filter.mpr ⟨hd, by simp [Nat.ne_of_gt hn, hq, hreading]⟩
  rw [drained, List.isEmpty_eq_false_iff.mpr (List.ne_nil_of_mem hleft), Bool.false_and]

theorem settleDrains_invalidated {s : State} {p : PortId} {pasid : Option (BitVec 20)} {g : Bool} {a b : Nat}
    (hdrains : ∀ x : PortId, s.ports[x.val].drains = []) :
    settleDrains (invalidated s p pasid g a b) = drainPort (invalidated s p pasid g a b) p := by
  refine settleDrains_one fun q hq => ?_
  have hne : p.val ≠ q.val := fun hv => hq (Fin.ext hv.symm)
  simp [invalidated, modPort, Vector.getElem_set_ne _ _ hne, hdrains q]

/-- The entries named go; ports, marks and what is sent are all that changes. -/
theorem drainPort_invalidated {s : State} {p : PortId} {pasid : Option (BitVec 20)} {g : Bool} {a b : Nat}
    (h : s.ports[p.val].drains = []) :
    (drainPort (invalidated s p pasid g a b) p).ports[p.val].cache =
        s.ports[p.val].cache.filter (fun x => !(decide (a ≤ x.page) && decide (x.page ≤ b) && invalidates s p pasid g x.slice)) ∧
      drainPort (invalidated s p pasid g a b) p =
        { s with
          out := (drainPort (invalidated s p pasid g a b) p).out
          ports := (drainPort (invalidated s p pasid g a b) p).ports
          heddle := { s.heddle with items := (drainPort (invalidated s p pasid g a b) p).heddle.items } } := by
  have hcache : (invalidated s p pasid g a b).ports[p.val].cache =
      s.ports[p.val].cache.filter (fun x => !(decide (a ≤ x.page) && decide (x.page ≤ b) && invalidates s p pasid g x.slice)) := by
    simp only [invalidated, modPort, Vector.getElem_set_self]
    exact List.filter_congr fun x hx => congrArg Bool.not (atsHit_cache hx)
  cases hd : drained (drainLeft (invalidated s p pasid g a b) p (atsDrain s p pasid g a b)) with
  | true =>
    rw [drainPort_answers (invalidated_drains h) hd]
    exact ⟨by simpa [modPort] using hcache, rfl⟩
  | false =>
    rw [drainPort_waits (invalidated_drains h) hd]
    exact ⟨by simpa [modPort] using hcache, rfl⟩

/-! ### Function-level reset (R117) -/

theorem destroySlice_queues (p : PortId) (i : SliceIdx) (s : State) :
    (destroySlice p i false s).queues = s.queues.filter fun q => !(q.port == p && q.slice == i) := by
  unfold destroySlice
  extract_lets old uid s₁ s₂ s₃ keys m s₄ s₅ s₆ cards s₇
  have h₁ : s₁.queues = s.queues := by
    unfold s₁
    cases old <;> rfl
  have h₂ : s₂.queues = s.queues := (operation_queues (discardItems_keepsOperation p i s₁)).trans h₁
  exact congrArg _ h₂

/-- Slices of a port that are destroyed take no queue of another with them. -/
theorem foldl_destroySlice_queues (p : PortId) (l : List Slice) (s : State) :
    (l.foldl (fun s x => destroySlice p x.idx false s) s).queues.filter (fun q => !(q.port == p)) = s.queues.filter fun q => !(q.port == p) := by
  induction l generalizing s with
  | nil => rfl
  | cons x l ih =>
    rw [List.foldl_cons, ih, destroySlice_queues, List.filter_filter]
    refine List.filter_congr fun q _ => ?_
    cases q.port == p <;> rfl

theorem foldl_destroySlice_slices (p : PortId) (l : List Slice) (s : State) :
    (l.foldl (fun s x => destroySlice p x.idx false s) s).slices =
      s.slices.filter fun x => l.all fun y => !(x.port == p && x.idx == y.idx) := by
  induction l generalizing s with
  | nil => simp
  | cons y l ih =>
    rw [List.foldl_cons, ih, destroySlice_slices, List.filter_filter]
    refine List.filter_congr fun x _ => ?_
    rw [List.all_cons, Bool.and_comm]

theorem removeFunction_slices_left (p : PortId) (s : State) :
    (removeFunction p s).slices = s.slices.filter fun x => !(x.port == p) := by
  refine (foldl_destroySlice_slices p _ s).trans (List.filter_congr fun x hx => ?_)
  by_cases hp : x.port = p
  · simpa [hp] using ⟨x, hx, hp, rfl⟩
  · rw [List.all_eq_true.mpr fun y _ => by simp [hp]]
    simp [hp]

theorem removeFunction_queues (p : PortId) (s : State) :
    (removeFunction p s).queues = s.queues.filter fun q => !(q.port == p) :=
  foldl_destroySlice_queues p _ s

theorem removeFunction_items {p : PortId} {s : State} {i : Item} (h : i ∈ (removeFunction p s).heddle.items) : i.port ≠ p := by
  have hi := (List.mem_filter.mp h).2
  simpa using hi

/-- What stays of a port's registers in a function-level reset. -/
def resetPort (x : Port) : Port := { trained := x.trained, gen := x.gen, singleLane := x.singleLane, flr := true }

theorem execFunctionLevelReset_settles {s : State} {p : PortId} (hopen : configOpen s p = true) :
    ∃ t, exec (.functionLevelReset p) s = .next t ∧ Settles (modPort p (fun _ => resetPort s.ports[p.val]) (removeFunction p s)) t := by
  refine ⟨_, rfl, ?_⟩
  rw [if_neg (by simp [hopen])]
  exact (settleAfterLeave_settles _).trans (raise_settles _ _ _)

/-- What a function-level reset leaves, once the settling is done. -/
theorem functionLevelReset_completes {s : State} {p : PortId} (hopen : configOpen s p = true) :
    ∃ t, exec (.functionLevelReset p) s = .next t ∧ t.ports[p.val].flr = true ∧ t.ports[p.val].trained = true ∧ t.ports[p.val].mse = false ∧
      t.ports[p.val].bme = false ∧ t.ports[p.val].trace.enabled = false ∧ t.ports[p.val].admin.entry = none ∧
      t.slices = s.slices.filter (fun x => !(x.port == p)) ∧ (∀ i ∈ t.heddle.items, i.port ≠ p) ∧
      t.queues.map (fun q => (q.port, q.qnum)) = (s.queues.filter fun q => !(q.port == p)).map (fun q => (q.port, q.qnum)) := by
  obtain ⟨t, hexec, h⟩ := execFunctionLevelReset_settles hopen
  have htrained : s.ports[p.val].trained = true := by
    simp only [configOpen, functionPresent, Bool.and_eq_true] at hopen
    exact hopen.1.1.2
  have hport : (modPort p (fun _ => resetPort s.ports[p.val]) (removeFunction p s)).ports[p.val] = resetPort s.ports[p.val] := by
    simp [modPort]
  have hfield {α : Type} (f : Port → α) (hf : ∀ x, f (settledPort x) = f x) : f t.ports[p.val] = f (resetPort s.ports[p.val]) :=
    (h.field f hf p).trans (congrArg f hport)
  refine ⟨t, hexec, hfield Port.flr fun _ => rfl, (hfield Port.trained fun _ => rfl).trans htrained, hfield Port.mse fun _ => rfl,
    hfield Port.bme fun _ => rfl, hfield (fun x => x.trace.enabled) fun _ => rfl, hfield (fun x => x.admin.entry) fun _ => rfl,
    h.slices.trans (removeFunction_slices_left p s), fun i hi => ?_, h.queues.trans (congrArg _ (removeFunction_queues p s))⟩
  obtain ⟨j, hj, -, hjp, -⟩ := h.items i hi
  exact hjp ▸ removeFunction_items hj

/-- Settles O31, command by command. -/
theorem hostFunctionCompletes : Obligations.host_function_completes := by
  refine ⟨fun s p gen single d3 enable ats g table pasid a b =>
    ⟨fun hmode hattached hplan _ _ => execLinkTrained_trains hmode hattached hplan, fun hopen => ?_,
      fun hpresent hflr hab hdrains => ?_⟩, fun s p => ⟨functionLevelReset_completes, rfl⟩⟩
  · obtain ⟨hmaster, hmemory, hats, hpasid⟩ := configuration_completes (d3 := d3) (enable := enable) hopen
    refine ⟨hmaster, hmemory, hats, ⟨_, hpasid, ?_⟩, fun htable => ?_⟩
    · have h := settleHeddle_settles (modPort p (fun x => { x with pasidEn := enable }) s)
      exact ⟨(h.field Port.pasidEn (fun _ => rfl) p).trans (by simp [modPort]), h.slices, h.runs⟩
    · obtain ⟨t, hexec, h⟩ := execBusMasterResume_settles (ats := ats) (table := table) hopen
      have hport : (modPort p (resumedPort ats table) s).ports[p.val] = resumedPort ats table s.ports[p.val] := by simp [modPort]
      have hfield {α : Type} (f : Port → α) (hf : ∀ x, f (settledPort x) = f x) : f t.ports[p.val] = f (resumedPort ats table s.ports[p.val]) :=
        (h.field f hf p).trans (congrArg f hport)
      have hall : (table.filter fun e => decide (e.vector < 2048)) = table := List.filter_eq_self.mpr fun e he => decide_eq_true (htable e he)
      refine ⟨t, hexec, hfield Port.bme fun _ => rfl, hfield Port.mse fun _ => rfl, hfield Port.d3hot fun _ => rfl, hfield Port.msixEn fun _ => rfl,
        hfield Port.atsEn fun _ => rfl, (hfield Port.table fun _ => rfl).trans hall, hfield Port.msixFnMask fun _ => rfl, fun hoff => ?_,
        h.slices, h.runs⟩
      exact (hfield Port.cache fun _ => rfl).trans (by simp [resumedPort, hoff])
  · have hexec := execAtsInvalidation_settles (pasid := pasid) (g := g) (a := a) (b := b) hpresent hflr
    rw [settleDrains_invalidated hdrains] at hexec
    obtain ⟨hcache, hframe⟩ := drainPort_invalidated (pasid := pasid) (g := g) (a := a) (b := b) (hdrains p)
    have hwaiting := invalidated_drains (pasid := pasid) (g := g) (a := a) (b := b) (hdrains p)
    refine ⟨_, hexec, fun hqueues hitems => ?_, fun n c q hn hq hreading ⟨k, hk, ha, hb, hinv, htrans⟩ => ?_, hcache, hframe⟩
    · rw [atsDrain_idle hqueues hitems] at hwaiting
      rw [drainPort_answers hwaiting (drained_nil _ p)]
      exact ⟨rfl, by simp [modPort]⟩
    · have hmember := atsDrain_reading (pasid := pasid) (g := g) (a := a) (b := b) hq hreading hk ha hb hinv htrans
      rw [drainPort_waits hwaiting (drained_reading hn (t := invalidated s p pasid g a b) hq hreading hmember)]
      rfl

end Sys2Proof.Machine
end

section
/-! PROOFS. What an operation's command forms, and what it leaves of the state: the unit that runs the item, its draws, and the
results that make or share a key (R245, R249, R319, R333, R376). -/

namespace Sys2Proof.Machine

open Sys2Proof.Claims

/-! ### What the running unit holds -/

/-- Of the trestles only the registers of the job differ, and those of the item's own trestle alone. -/
def TrestlesLoaded (i : Item) (v w : Vector Trestle 8) : Prop :=
  ∀ k : TrestleId,
    w[k.val] = { v[k.val] with
        ctxA := w[k.val].ctxA, ctxB := w[k.val].ctxB
        accumulator := w[k.val].accumulator, sequencer := w[k.val].sequencer } ∧
      (trestleOf i ≠ some k → w[k.val] = v[k.val])

theorem TrestlesLoaded.refl (i : Item) (v : Vector Trestle 8) : TrestlesLoaded i v v := fun _ => ⟨rfl, fun _ => rfl⟩

theorem TrestlesLoaded.trans {i : Item} {u v w : Vector Trestle 8} (h : TrestlesLoaded i u v) (k : TrestlesLoaded i v w) :
    TrestlesLoaded i u w := by
  intro t
  obtain ⟨hw, hw'⟩ := k t
  obtain ⟨hv, hv'⟩ := h t
  exact ⟨by rw [hw, hv], fun ht => (hw' ht).trans (hv' ht)⟩

theorem modTrestle_loaded {i : Item} {t : TrestleId} (ht : trestleOf i = some t) {f : Trestle → Trestle} (s : State)
    (hf : ∀ x, f x = { x with ctxA := (f x).ctxA, ctxB := (f x).ctxB, accumulator := (f x).accumulator, sequencer := (f x).sequencer }) :
    TrestlesLoaded i s.trestles (modTrestle t f s).trestles := by
  intro k
  by_cases hk : t = k
  · subst hk
    simpa [modTrestle, ht] using hf _
  · have hne : t.val ≠ k.val := fun h => hk (Fin.ext h)
    simp [modTrestle, Vector.getElem_set_ne _ _ hne]

theorem modContext_loaded (i : Item) (f : JobContext → JobContext) (s : State) :
    TrestlesLoaded i s.trestles (modContext i f s).trestles := by
  unfold modContext
  split
  · next t ht => exact modTrestle_loaded ht s fun x => by split <;> rfl
  · exact .refl i _

theorem workContext_loaded (i : Item) (fam set : Nat) (operands secret bits : Bytes) (s : State) :
    TrestlesLoaded i s.trestles (workContext i fam set operands secret bits s).trestles := by
  unfold workContext
  extract_lets job s₁
  refine TrestlesLoaded.trans (v := s₁.trestles) ?_ (modContext_loaded i _ s₁)
  unfold s₁
  split
  · next t ht => exact modTrestle_loaded ht s fun _ => rfl
  · exact .refl i _

theorem loadUnit_loaded (i : Item) (input drawn : Bytes) (s : State) : Loaded i s (loadUnit i input drawn s) := by
  refine ⟨loadUnit_frame i input drawn s, ?_⟩
  unfold loadUnit
  split
  · next u hu =>
    refine ⟨TrestlesLoaded.refl i s.trestles, fun k => ?_⟩
    by_cases hk : u = k
    · subst hk
      simp [modSelv, hu]
    · have hne : u.val ≠ k.val := fun h => hk (Fin.ext h)
      simp [modSelv, Vector.getElem_set_ne _ _ hne]
  · next t ht =>
    refine ⟨fun k => workContext_loaded _ _ _ _ _ _ _ k, fun k => ?_⟩
    rw [workContext_frame]
    exact ⟨rfl, fun _ => rfl⟩
  · exact ⟨TrestlesLoaded.refl i s.trestles, fun _ => ⟨rfl, fun _ => rfl⟩⟩

theorem loaded_runs {i : Item} {s t : State} (h : Loaded i s t) : t.runs = s.runs := by rw [h.1]

/-! ### What the commands of operations form -/

theorem formResult_eq_formed (i : Item) (input : Bytes) (r : ItemResult) (s : State) : formResult i input r s = formed i r input s := rfl

theorem itemDraw_eq_drawn (i : Item) (n : Nat) (s : State) : (itemDraw i n s).2 = drawn i n s := by
  unfold itemDraw drawn
  dsimp only
  rw [unitDraw_frame, unitDraw_bobbin]
  rfl

@[simp] theorem drawn_runs (i : Item) (n : Nat) (s : State) : (drawn i n s).runs = s.runs := rfl

theorem forms_of_runOp {c : Instr} {s : State} {fam op : Nat} {e : Engine} {i : Item} {input : Bytes}
    {f : Item → State → ItemResult × State} {P : ItemResult → Prop} (hexec : exec c s = .next (runOp fam op e input f s))
    (hreads : ∀ t, (f i t).2 = t) (h : Runs s e fam op input i) (hP : ∀ t, t.runs = s.runs → P (f i t).1) : Forms c s i P := by
  obtain ⟨hs, hfam, hop, hres, hlen⟩ := h
  have hload := loadUnit_loaded i input [] s
  refine ⟨_, _, input, ?_, hlen, hload, hP _ (loaded_runs hload)⟩
  rw [hexec, runOp_runs hs hfam hop hres hlen, formResult_eq_formed, hreads]

theorem formsDrawn_of_runDrawOp {c : Instr} {s : State} {fam op n : Nat} {e : Engine} {i : Item} {input : Bytes}
    {f : Item → Bytes → State → ItemResult × State} {P : Bytes → ItemResult → Prop}
    (hexec : exec c s = .next (runDrawOp fam op (fun _ => n) e input f s)) (hreads : ∀ d t, (f i d t).2 = t)
    (h : Runs s e fam op input i) (hdraws : Draws s) (hP : ∀ t, t.runs = s.runs → P (drawBytes i n s) (f i (drawBytes i n s) t).1) :
    FormsDrawn c s i n P := by
  obtain ⟨hs, hfam, hop, hres, hlen⟩ := h
  have hload := loadUnit_loaded i input (drawBytes i n s) (drawn i n s)
  refine ⟨_, _, input, ?_, hlen, hload, hP _ ((loaded_runs hload).trans (drawn_runs i n s))⟩
  rw [hexec, runDrawOp_runs hs hfam hop hres hlen hdraws, formResult_eq_formed, hreads, itemDraw_eq_drawn]
  rfl

/-! ### Draws that follow the first -/

/-- `t` is `s` with item `i` marked as one that drew, but for the bobbin's instances and buffers and what the units hold. -/
def DrawnMore (i : Item) (s t : State) : Prop :=
  t = { s with heddle := (drawn i 0 s).heddle, bobbin := t.bobbin, selvs := t.selvs, trestles := t.trestles } ∧
    t.bobbin = { s.bobbin with instances := t.bobbin.instances, buffers := t.bobbin.buffers }

theorem drawn_drawnMore (i : Item) (n : Nat) (s : State) : DrawnMore i s (drawn i n s) := ⟨rfl, rfl⟩

theorem DrawnMore.of_units {i : Item} {s t u : State} (h : DrawnMore i s t) (hu : u = { t with trestles := u.trestles, selvs := u.selvs }) :
    DrawnMore i s u := by
  obtain ⟨ht, hb⟩ := h
  have hbob : u.bobbin = t.bobbin := by rw [hu]
  refine ⟨?_, by rw [hbob]; exact hb⟩
  rw [hbob]
  refine hu.trans ?_
  rw [ht]

theorem DrawnMore.unitDraw {i : Item} {s t : State} (h : DrawnMore i s t) (k : Item) (n : Nat) : DrawnMore i s (unitDraw k n t).2 := by
  obtain ⟨ht, hb⟩ := h
  constructor
  · rw [unitDraw_frame, ht]
  · rw [unitDraw_bobbin, hb]

theorem DrawnMore.repeatedDraws {α : Type} {i : Item} {s : State} (k : Item) (n : Nat) (l : List α) {x : Bytes × State} (h : DrawnMore i s x.2) :
    DrawnMore i s (l.foldl (fun (x : Bytes × State) _ => Machine.unitDraw k n x.2) x).2 := by
  induction l generalizing x with
  | nil => exact h
  | cons a l ih => exact ih (h.unitDraw k n)

theorem DrawnMore.runs {i : Item} {s t : State} (h : DrawnMore i s t) : t.runs = s.runs := by rw [h.1]

theorem formsDrawnMore_of_runDrawOp {c : Instr} {s : State} {fam op n : Nat} {e : Engine} {i : Item} {input : Bytes}
    {f : Item → Bytes → State → ItemResult × State} {P : ItemResult → Prop}
    (hexec : exec c s = .next (runDrawOp fam op (fun _ => n) e input f s)) (hdraws : Draws s) (h : Runs s e fam op input i)
    (hf : ∀ d t, DrawnMore i s t → DrawnMore i s (f i d t).2 ∧ P (f i d t).1) : FormsDrawnMore c s i P := by
  obtain ⟨hs, hfam, hop, hres, hlen⟩ := h
  have hload := (drawn_drawnMore i n s).of_units (loadUnit_frame i input (drawBytes i n s) (drawn i n s))
  obtain ⟨⟨ht, hb⟩, hP⟩ := hf (drawBytes i n s) _ hload
  refine ⟨_, _, input, ?_, hlen, hP, ht, hb⟩
  rw [hexec, runDrawOp_runs hs hfam hop hres hlen hdraws, formResult_eq_formed, itemDraw_eq_drawn]
  rfl

/-! ### Results that make or share a key -/

theorem reservedHandle_congr {s t : State} (h : t.runs = s.runs) (i : Item) : reservedHandle t i = reservedHandle s i := by
  simp only [reservedHandle, reservedRun, h]

/-- A key's result makes the key, whatever else it does at COMMIT and whatever its self-check says. -/
theorem keyResult_newKey {s t : State} {i : Item} {kind fam origin outLen contentLen : Nat} {oneShot ok : Bool} {content out : Bytes}
    (acts : List CommitAct) (h : t.runs = s.runs) (hout : out.length = outLen) (hcontent : content.length = contentLen) :
    NewKey s i kind fam origin oneShot outLen contentLen
      { keyResult t i kind fam (setOf i.entry) (newPolicy (policyOperand i.entry) kind fam origin oneShot) content out with
        acts := (keyResult t i kind fam (setOf i.entry) (newPolicy (policyOperand i.entry) kind fam origin oneShot) content out).acts ++ acts
        verifyOk := ok } :=
  ⟨rfl, hout, reservedHandle_congr h i, content, hcontent, List.mem_append_left _ List.mem_cons_self⟩

/-- What `depositOr` forms stays shared with more to do at COMMIT and a cache lookup noted. -/
theorem depositOr_sharedAs {s t : State} {i : Item} (h : t.runs = s.runs) (pub secret : Bytes) (acts : List CommitAct) (l : Option Bool) :
    SharedAs s i pub secret { depositOr t i pub secret with acts := (depositOr t i pub secret).acts ++ acts, lookup := l } := by
  unfold SharedAs depositOr
  split
  · exact ⟨rfl, rfl, reservedHandle_congr h i, List.mem_append_left _ List.mem_cons_self⟩
  · exact ⟨rfl, rfl, rfl⟩

theorem depositOr_shared {s t : State} {i : Item} {pub secret : Bytes} {pubLen secretLen : Nat} (acts : List CommitAct) (l : Option Bool)
    (h : t.runs = s.runs) (hpub : pub.length = pubLen) (hsecret : secret.length = secretLen) :
    Shared s i pubLen secretLen { depositOr t i pub secret with acts := (depositOr t i pub secret).acts ++ acts, lookup := l } :=
  ⟨pub, secret, hpub, hsecret, depositOr_sharedAs h pub secret acts l⟩

/-- As it is formed, with nothing added. -/
theorem depositOr_shared_plain {s t : State} {i : Item} {pub secret : Bytes} {pubLen secretLen : Nat}
    (h : t.runs = s.runs) (hpub : pub.length = pubLen) (hsecret : secret.length = secretLen) :
    Shared s i pubLen secretLen (depositOr t i pub secret) := by
  simpa using depositOr_shared (i := i) [] (depositOr t i pub secret).lookup h hpub hsecret

theorem failResult_rejects (st : Status) : Rejects st (failResult st) := ⟨rfl, rfl, rfl, by simp [failResult]⟩

/-! ### An item in service that ends at once -/

theorem leaveStores_heddle (i : Item) (s : State) : (leaveStores i s).heddle = s.heddle := by
  unfold leaveStores
  extract_lets s₁ s₂
  have h₁ : s₁.heddle = s.heddle := by
    unfold s₁
    split
    · split <;> rfl
    · rfl
  have h₂ : s₂.heddle = s.heddle := by
    unfold s₂
    rw [modContext_frame]
    exact h₁
  split <;> exact h₂

theorem leaveUnits_heddle (i : Item) (s : State) : (leaveUnits i s).heddle = s.heddle := by
  unfold leaveUnits
  dsimp only
  split <;> exact leaveStores_heddle i s

theorem mem_of_servingOn {s : State} {e : Engine} {i : Item} (h : servingOn s e = some i) : i ∈ s.heddle.items := List.mem_of_find?_eq_some h

theorem failInService_standsEnded (st : Status) (cycles : Nat) {i : Item} {s : State} (h : i ∈ s.heddle.items) :
    StandsEnded i.id st (failInService st cycles i s) :=
  endItem_standsEnded (d := { status := st, result := failWord i }) _
    ⟨_, List.mem_map_of_mem (by rw [leaveUnits_heddle]; exact h), by simp⟩ rfl

end Sys2Proof.Machine
end

section
/-! PROOFS. The code-based operations (R319 to R331): Classic McEliece and HQC. -/

namespace Sys2Proof.Machine

open Sys2Proof.Claims

/-! ### Lengths (R322, R324) -/

@[simp] theorem shake256_length (m : Bytes) (n : Nat) : (shake256 m n).length = n := primBytes_length _ _ n

@[simp] theorem mceHash_length (set : Nat) (pk : Bytes) : (mceHash set pk).length = 32 := shake256_length pk 32

@[simp] theorem mceEncapsTo_ciphertext_length (set : Nat) (pk d : Bytes) : (mceEncapsTo set pk d).1.length = mceCt set := leBytes_length _ _

@[simp] theorem mceEncapsTo_secret_length (set : Nat) (pk d : Bytes) : (mceEncapsTo set pk d).2.length = 32 := primBytes_length _ _ _

@[simp] theorem mceDecapsOf_length (set : Nat) (sk c : Bytes) : (mceDecapsOf set sk c).length = 32 := by
  unfold mceDecapsOf
  dsimp only
  split <;> simp

/-- What a key generation keeps is sk and the hash of pk. -/
theorem mceSk_add_hash {set : Nat} (h₁ : 1 ≤ set) (h₁₀ : set ≤ 10) :
    mceSk set + 32 = [0, 6524, 13640, 13964, 13980, 14152].getD ((set + 1) / 2) 0 := by
  interval_cases set <;> rfl

@[simp] theorem hqcEncapsTo_secret_length (set : Nat) (pk m : Bytes) : (hqcEncapsTo set pk m).2.length = 64 := primBytes_length _ _ _

theorem hqcEncapsTo_ciphertext_length {set : Nat} (h : set ≤ 3) (pk m : Bytes) : (hqcEncapsTo set pk m).1.length = hqcCt set := by
  have hu : (hqcN set + 7) / 8 ≤ hqcCt set := by interval_cases set <;> decide
  simp only [hqcEncapsTo, List.length_append, leBytes_length, List.length_drop, primBytes_length]
  omega

@[simp] theorem hqcDecapsOf_length (set : Nat) (sk c : Bytes) : (hqcDecapsOf set sk c).length = 64 := by
  unfold hqcDecapsOf
  dsimp only
  split <;> simp

theorem hqcSkFrom_length {set : Nat} (h₁ : 1 ≤ set) (h₃ : set ≤ 3) (d : Bytes) : (hqcSkFrom set d).length = hqcSk set := by
  have hpk : 40 ≤ hqcPk set ∧ hqcPk set ≤ hqcSk set := by interval_cases set <;> decide
  simp only [hqcSkFrom, List.length_append, List.length_take, leBytes_length, primBytes_length]
  omega

theorem hqcPkOf_length {set : Nat} {sk : Bytes} (h : set ≤ 3) (hsk : sk.length = hqcSk set) : (hqcPkOf set sk).length = hqcPk set := by
  have hpk : hqcPk set ≤ hqcSk set := by interval_cases set <;> decide
  simp only [hqcPkOf, List.length_drop, hsk]
  omega

/-! ### Results -/

theorem mceEncaps_shared {s t : State} (i : Item) (h : t.runs = s.runs) (pk d : Bytes) :
    Shared s i (mceCt (setOf i.entry)) 32 (mceEncaps pk d i t) :=
  depositOr_shared_plain h (mceEncapsTo_ciphertext_length ..) (mceEncapsTo_secret_length ..)

/-- With what a cache entry adds at COMMIT and the lookup that ENCAPS notes (R326). -/
theorem mceEncaps_cached_shared {s t : State} (i : Item) (h : t.runs = s.runs) (pk d : Bytes) (acts : List CommitAct) (l : Option Bool) :
    Shared s i (mceCt (setOf i.entry)) 32 { mceEncaps pk d i t with acts := (mceEncaps pk d i t).acts ++ acts, lookup := l } :=
  depositOr_shared acts l h (mceEncapsTo_ciphertext_length ..) (mceEncapsTo_secret_length ..)

theorem hqcEncaps_shared {s t : State} {i : Item} (hset : setOf i.entry ≤ 3) (h : t.runs = s.runs) (pk d : Bytes) :
    Shared s i (hqcCt (setOf i.entry)) 64 (hqcEncaps pk d i t) :=
  depositOr_shared_plain h (hqcEncapsTo_ciphertext_length hset ..) (hqcEncapsTo_secret_length ..)

/-! ### Classic McEliece -/

/-- A selvedge unit's count of the last key generation's attempts (R329). -/
def noteAttempts (e : Engine) (n : Nat) (s : State) : State :=
  match e with
  | .selvedge u => modSelv u (fun v => { v with lastAttempts := n }) s
  | _ => s

theorem noteAttempts_drawnMore {i : Item} {s t : State} (e : Engine) (n : Nat) (h : DrawnMore i s t) : DrawnMore i s (noteAttempts e n t) := by
  unfold noteAttempts
  split
  · exact h.of_units rfl
  · exact h

/-- After 256 failed attempts a key generation is a routine error (R329). -/
theorem execMcelieceKeygen_exhausted {e : Engine} {attempts : Nat} {s : State} {i : Item} (h : Runs s e 0x07 0x50 [] i) (hmax : 256 < attempts) :
    exec (.mcelieceKeygen e attempts) s = .next (routineFault i (noteAttempts e 255 s)) := by
  obtain ⟨hs, hfam, hop, hres, -⟩ := h
  change execMcelieceKeygen e attempts s = _
  unfold execMcelieceKeygen
  rw [hs]
  dsimp only
  rw [if_pos (by simp [hfam, hop, hres, hmax])]
  rfl

/-- Up to 256 attempts it draws for each and makes the last one's key. -/
theorem mcelieceKeygen_forms {e : Engine} {attempts : Nat} {s : State} {i : Item} (h₁ : 1 ≤ setOf i.entry) (h₁₀ : setOf i.entry ≤ 10)
    (h : Runs s e 0x07 0x50 [] i) (hdraws : Draws s) (hmax : attempts ≤ 256) :
    FormsDrawnMore (.mcelieceKeygen e attempts) s i fun r =>
      NewKey s i 1 0x07 0 false (mcePk (setOf i.entry)) ([0, 6524, 13640, 13964, 13980, 14152].getD ((setOf i.entry + 1) / 2) 0) r := by
  have hfew : ¬ 256 < attempts := by omega
  apply formsDrawnMore_of_runDrawOp ?hexec hdraws h
  case hexec =>
    change execMcelieceKeygen e attempts s = _
    unfold execMcelieceKeygen
    rw [h.1]
    dsimp -zeta only
    rw [if_neg (by simp [hfew])]
  intro d t ht
  extract_lets set x sk pk r c
  have hx : DrawnMore i s x.2 := DrawnMore.repeatedDraws (x := (d, t)) i selvDraw _ ht
  refine ⟨noteAttempts_drawnMore e _ hx, keyResult_newKey _ hx.runs (primBytes_length _ _ _) ?_⟩
  rw [List.length_append, mceHash_length, ← mceSk_add_hash h₁ h₁₀]
  congr 1
  exact primBytes_length _ _ _

/-- ENCAPS with a streamed key of the declared length (R326): a hit encapsulates to the entry's key, a miss to the streamed one
where its hash is the run's. -/
theorem mcelieceEncaps_forms {e : Engine} {s : State} {i : Item} {input : Bytes} {k : KeyFacts}
    (h : Runs s e 0x07 0x51 input i) (hdraws : Draws s) (hrecord : i.record = none) (hkey : keyFacts s i = some k) :
    FormsDrawn (.mcelieceEncaps e (some input)) s i 32 fun _ r =>
      if (selvFind s i (keyHandle i.entry)).isSome = true ∨ mceHash (setOf i.entry) input = mceKeyHash (setOf i.entry) k (keyContent s i) then
        Shared s i (mceCt (setOf i.entry)) 32 r
      else r.status = .rejectEncoding ∧ r.output = [] := by
  obtain ⟨hs, hfam, hop, hres, hlen⟩ := h
  have hzeros : Runs s e 0x07 0x51 (zeros (inputLen i.entry)) i := ⟨hs, hfam, hop, hres, zeros_length _⟩
  apply formsDrawn_of_runDrawOp ?hexec ?hreads hzeros hdraws
  case hexec =>
    change execMcelieceEncaps e (some input) s = _
    unfold execMcelieceEncaps
    rw [hs]
    dsimp only
    rw [if_neg (by simp), if_neg (by simp [streamedOk, hlen])]
    simp only [hrecord, hkey, Option.isSome_none, Bool.false_eq_true, if_false]
    rfl
  case hreads =>
    intro d t
    cases selvFind s i (keyHandle i.entry) with
    | some c => rfl
    | none =>
      dsimp only
      split
      · rfl
      · split <;> rfl
  intro t ht
  cases selvFind s i (keyHandle i.entry) with
  | some c => simpa using mceEncaps_cached_shared i ht c.key (drawBytes i 32 s) [.selvTouch c] (some true)
  | none =>
    by_cases hhash : mceHash (setOf i.entry) input = mceKeyHash (setOf i.entry) k (keyContent s i)
    · have hinstall := mceEncaps_cached_shared i ht input (drawBytes i 32 s) [.selvInstall (selvEntryFor i (keyHandle i.entry) input)] (some false)
      simpa [hhash, hrecord] using hinstall
    · simp [hhash, failResult]

/-- A stream whose translation fails ends the item with XLATE_FAULT (R134, R331). -/
theorem streamFault_ends {op : Nat} {e : Engine} {s : State} {i : Item} {input : Bytes} (h : Runs s e 0x07 op input i) :
    Ended (streamFault op e s) i.id .xlateFault := by
  obtain ⟨hs, hfam, hop, hres, -⟩ := h
  unfold streamFault
  rw [hs]
  simp only [hfam, hop, hres, Option.isNone_none, beq_self_eq_true, Bool.and_self, if_true]
  refine StandsEnded.ended (StandsEnded.settleAfterLeave (failInService_standsEnded _ _ ?_))
  split
  · split
    · exact mem_of_servingOn hs
    · exact mem_of_servingOn hs
  · exact mem_of_servingOn hs

/-! ### HQC -/

/-- ENCAPS_EK judges the padding bits of the key that the input brings (R329). -/
theorem hqcEncapsEk_forms {e : Engine} {s : State} {i : Item} {input : Bytes} (hset : setOf i.entry ≤ 3)
    (h : Runs s e 0x08 0x5A input i) (hdraws : Draws s) :
    FormsDrawn (.hqcEncapsEk e input) s i 32 fun _ r =>
      if 2 ^ hqcN (setOf i.entry) ≤ leNat (input.drop 40) then Rejects .rejectEncoding r
      else Shared s i (hqcCt (setOf i.entry)) 64 r := by
  refine formsDrawn_of_runDrawOp rfl (fun _ _ => by split <;> rfl) h hdraws fun t ht => ?_
  by_cases hpad : 2 ^ hqcN (setOf i.entry) ≤ leNat (input.drop 40)
  · rw [if_pos hpad, if_pos (by simp [hqcPkBad, hpad])]
    exact failResult_rejects _
  · rw [if_neg hpad, if_neg (by simp [hqcPkBad, hpad])]
    exact hqcEncaps_shared hset ht _ _

/-- Settles O8, operation by operation: each forms its result on the unit that runs it, and what the result holds has the lengths of its
set. -/
theorem codeBasedCompletes : Obligations.code_based_completes := by
  refine ⟨fun s e i input attempts h₁ h₁₀ => ⟨?keygen, ?exhausted, ?encaps, ?encapsPk, ?register, ?fault, ?decaps⟩,
    fun s e i input h₁ h₃ => ⟨?hqcKeygen, ?hqcEncaps, ?hqcEncapsEk, ?hqcDecaps⟩⟩
  case keygen => exact fun h hdraws _ hmax => mcelieceKeygen_forms h₁ h₁₀ h hdraws hmax
  case exhausted => exact execMcelieceKeygen_exhausted
  case encaps => exact fun u k _ h hdraws hrecord hkey => mcelieceEncaps_forms h hdraws hrecord hkey
  case encapsPk => exact fun h hdraws => formsDrawn_of_runDrawOp rfl (fun _ _ => rfl) h hdraws fun t ht => mceEncaps_shared i ht input _
  case register =>
    refine fun h => forms_of_runOp rfl (fun _ => rfl) h fun t ht => ?_
    apply keyResult_newKey _ ht rfl
    rw [List.length_append, mceHash_length, leBytes_length]
  case fault =>
    rintro c op (⟨rfl, rfl⟩ | ⟨rfl, rfl⟩) _ h
    · exact ⟨_, rfl, streamFault_ends h⟩
    · exact ⟨_, rfl, streamFault_ends h⟩
  case decaps => exact fun h => forms_of_runOp rfl (fun _ => rfl) h fun t ht => depositOr_shared_plain ht rfl (mceDecapsOf_length ..)
  case hqcKeygen =>
    refine fun h hdraws => formsDrawn_of_runDrawOp rfl (fun _ _ => rfl) h hdraws fun t ht => ?_
    have hsk := hqcSkFrom_length h₁ h₃ (drawBytes i selvDraw s)
    exact keyResult_newKey [] ht (hqcPkOf_length h₃ hsk) hsk
  case hqcEncaps => exact fun h hdraws => formsDrawn_of_runDrawOp rfl (fun _ _ => rfl) h hdraws fun t ht => hqcEncaps_shared h₃ ht _ _
  case hqcEncapsEk => exact fun h hdraws => hqcEncapsEk_forms h₃ h hdraws
  case hqcDecaps => exact fun h => forms_of_runOp rfl (fun _ => rfl) h fun t ht => depositOr_shared_plain ht rfl (hqcDecapsOf_length ..)

end Sys2Proof.Machine
end

section
/-! PROOFS. What leaves the heddle, its items and the next number as they are: one rule per function (R143, R188). -/
namespace Sys2Proof.Machine
open Sys2Proof.Claims

/-! ### Folds and branches -/

/-- A fold whose steps leave the heddle, also where the state is a part of what is folded. -/
theorem foldl_heddle_of {α β : Type} (g : β → State) {f : β → α → β} (h : ∀ x a, (g (f x a)).heddle = (g x).heddle)
    (l : List α) (x : β) : (g (l.foldl f x)).heddle = (g x).heddle := by
  induction l generalizing x with
  | nil => rfl
  | cons a l ih => exact (ih _).trans (h x a)

@[simp] theorem foldl_heddle {α : Type} {f : State → α → State} (l : List α) (s : State) (h : ∀ s a, (f s a).heddle = s.heddle) :
    (l.foldl f s).heddle = s.heddle :=
  foldl_heddle_of id h l s

@[simp] theorem ite_heddle {c : Prop} [Decidable c] (s t : State) : (if c then s else t).heddle = if c then s.heddle else t.heddle :=
  apply_ite State.heddle c s t

@[simp] theorem foldl_emit_heddle {α : Type} (x : α → Tx) (l : List α) (s : State) :
    (l.foldl (fun s a => emit (x a) s) s).heddle = s.heddle :=
  foldl_heddle l s fun _ _ => rfl

@[simp] theorem foldl_modLoom_heddle (f : LoomId → Loom → Loom) (l : List LoomId) (s : State) :
    (l.foldl (fun s n => modLoom n (f n) s) s).heddle = s.heddle :=
  foldl_heddle l s fun _ _ => rfl

@[simp] theorem foldl_holdTrestle_heddle (t : TrestleId) (m : Item → Nat) (l : List Item) (s : State) :
    (l.foldl (fun s x => holdTrestle t (m x) s) s).heddle = s.heddle :=
  foldl_heddle l s fun _ _ => rfl

/-! ### What changes only the cards, the slots or the bobbin -/

theorem cards_heddle {s t : State} (h : Frame.cards.Keeps s t) : t.heddle = s.heddle := by
  rw [h]
  rfl

theorem slots_heddle {s t : State} (h : Frame.slots.Keeps s t) : t.heddle = s.heddle := by
  rw [h]
  rfl

theorem bobbin_heddle {s t : State} (h : Frame.bobbin.Keeps s t) : t.heddle = s.heddle := by
  rw [h]
  rfl

/-! ### Events, alarms and contexts -/

@[simp] theorem latchEntry_heddle (e : LatchEntry) (s : State) : (latchEntry e s).heddle = s.heddle := by simp [latchEntry]

@[simp] theorem countLost_heddle (severity : Nat) (s : State) : (countLost severity s).heddle = s.heddle := by
  unfold countLost
  split <;> simp

@[simp] theorem queueEvent_heddle (e : Event) (s : State) : (queueEvent e s).heddle = s.heddle := by simp [queueEvent]

@[simp] theorem raise0_heddle (ev : Nat) (s : State) : (raise0 ev s).heddle = s.heddle := by simp [raise0]

@[simp] theorem openPair_heddle (fs : List (Firing × Nat)) (s : State) : (openPair fs s).heddle = s.heddle := by simp [openPair]

@[simp] theorem markFiring_heddle (src : SourceId) (machine code cls : Nat) (s : State) :
    (markFiring src machine code cls s).heddle = s.heddle := by
  simp [markFiring]

@[simp] theorem modContext_heddle (i : Item) (f : JobContext → JobContext) (s : State) : (modContext i f s).heddle = s.heddle := by
  rw [modContext_frame]

@[simp] theorem countAbandon_heddle (i : Item) (s : State) : (countAbandon i s).heddle = s.heddle := by
  unfold countAbandon
  (repeat' split) <;> simp [leaveUnits_heddle]

/-! ### The chest, the tally, modes and the ends of commands -/

@[simp] theorem returnReservation_heddle (id : Nat) (s : State) : (returnReservation id s).heddle = s.heddle := by simp [returnReservation]

@[simp] theorem writeChest_heddle (f : Chest → Chest) (s : State) : (writeChest f s).heddle = s.heddle := by simp [writeChest]

@[simp] theorem eraseTally_heddle (sel : TallyRecord → Bool) (s : State) : (eraseTally sel s).heddle = s.heddle := by
  unfold eraseTally
  dsimp only
  split <;> rfl

@[simp] theorem setMode_heddle (m : Mode) (cause : Nat) (s : State) : (setMode m cause s).heddle = s.heddle := by simp [setMode]

@[simp] theorem degrade_heddle (cause : Nat) (s : State) : (degrade cause s).heddle = s.heddle := by simp [degrade]

@[simp] theorem adminDone_heddle (p : PortId) (st : Status) (result : Nat) (output : Bytes) (s : State) :
    (adminDone p st result output s).heddle = s.heddle := by
  simp [adminDone]

@[simp] theorem rethreadDone_heddle (st : Status) (s : State) : (rethreadDone st s).heddle = s.heddle := by
  unfold rethreadDone
  (repeat' split) <;> simp

/-! ### Hold, the start, the logbook and drains -/

@[simp] theorem endFirstThreading_heddle (s : State) : (endFirstThreading s).heddle = s.heddle := by simp [endFirstThreading]

@[simp] theorem enterHold_heddle (cause : Nat) (s : State) : (enterHold cause s).heddle = s.heddle := by simp [enterHold]

@[simp] theorem haltResponse_heddle (s : State) : (haltResponse s).heddle = s.heddle := by simp [haltResponse]

@[simp] theorem takeFree_heddle (s : State) : (takeFree s).2.heddle = s.heddle := by simp [takeFree]

@[simp] theorem clearDrawers_heddle (s : State) : (clearDrawers s).heddle = s.heddle :=
  foldl_heddle _ _ fun _ _ => foldl_heddle _ _ fun _ _ => rfl

@[simp] theorem readChest_heddle (s : State) : (readChest s).heddle = s.heddle := by simp [readChest]

@[simp] theorem countTallyWrites_heddle (n : Nat) (s : State) : (countTallyWrites n s).heddle = s.heddle := by simp [countTallyWrites]

@[simp] theorem scanRecord_heddle (s : State) (t : TallyRecord) : (scanRecord s t).heddle = s.heddle := by
  unfold scanRecord
  dsimp only
  split
  · simp
  · split
    · split <;> simp
    · simp

@[simp] theorem takeRecord_heddle (r : LogRecord) (s : State) : (takeRecord r s).heddle = s.heddle := by
  unfold takeRecord
  (repeat' split) <;> simp

@[simp] theorem repeatRecord_heddle (seq : Word) (t : Nat) (s : State) : (repeatRecord seq t s).heddle = s.heddle := by simp [repeatRecord]

@[simp] theorem takeEvent_heddle (e : Event) (s : State) : (takeEvent e s).heddle = s.heddle := by
  unfold takeEvent
  split <;> simp

@[simp] theorem beginThreading_heddle (src : Nat) (other re : Bool) (cause : Nat) (s : State) :
    (beginThreading src other re cause s).heddle = s.heddle := by
  simp [beginThreading, disarmStages]

@[simp] theorem leaveWake_heddle (s : State) : (leaveWake s).heddle = s.heddle := by
  unfold leaveWake
  (repeat' split) <;> simp

@[simp] theorem settleDrains_heddle (s : State) : (settleDrains s).heddle = s.heddle := by
  refine foldl_heddle _ _ fun s p => ?_
  dsimp only
  split <;> simp

/-! ### Pages, ring reads and seeds -/

@[simp] theorem askPages_heddle (p : PortId) (i : SliceIdx) (pages : List Nat) (s : State) : (askPages p i pages s).heddle = s.heddle := by
  simp [askPages]

@[simp] theorem issueRead_heddle (q : Queue) (n : Nat) (s : State) : (issueRead q n s).heddle = s.heddle := by simp [issueRead]

@[simp] theorem pumpScans_heddle (s : State) : (pumpScans s).heddle = s.heddle := by
  refine foldl_heddle _ _ fun s q => ?_
  split <;> simp

@[simp] theorem settleCredit_heddle (s : State) : (settleCredit s).heddle = s.heddle := by simp [settleCredit]

@[simp] theorem queueSeed_heddle (i : InstId) (s : State) : (queueSeed i s).heddle = s.heddle := by simp [queueSeed]

@[simp] theorem requestSeed_heddle (i : InstId) (s : State) : (requestSeed i s).heddle = s.heddle := by simp [requestSeed]

@[simp] theorem askBenchSeeds_heddle (s : State) : (askBenchSeeds s).heddle = s.heddle := by simp [askBenchSeeds]

/-! ### Calibration, checks and threading -/

@[simp] theorem deriveIdentity_heddle (s : State) : (deriveIdentity s).heddle = s.heddle := by simp [deriveIdentity]

@[simp] theorem loadCal_heddle (s : State) : (loadCal s).heddle = s.heddle := by
  unfold loadCal
  split <;> simp [useCal, markBaselines]

@[simp] theorem recordCheck_heddle (src : Nat) (ownerPart : Bool) (f : CheckFail) (s : State) :
    (recordCheck src ownerPart f s).heddle = s.heddle := by
  simp [recordCheck]

@[simp] theorem applyTestFences_heddle (re : Bool) (f : TestFences) (s : State) : (applyTestFences re f s).heddle = s.heddle := by
  simp [applyTestFences]

@[simp] theorem clearSticky_heddle (f : TestFences) (cabinet : Bool) (s : State) : (clearSticky f cabinet s).heddle = s.heddle := by
  simp [clearSticky]

@[simp] theorem draw_heddle (i : InstId) (n : Nat) (s : State) : (draw i n s).2.heddle = s.heddle := rfl

@[simp] theorem useNonce_heddle (s : State) : (useNonce s).heddle = s.heddle := by simp [useNonce]

@[simp] theorem abandonWork_heddle (s : State) (w : WaitingEnvelope) : (abandonWork s w).heddle = s.heddle := by
  unfold abandonWork
  split <;> simp

@[simp] theorem endThreading_heddle (s : State) : (endThreading s).heddle = s.heddle := by simp [endThreading]

/-! ### Cards and ceremonies -/

@[simp] theorem powerSlots_heddle (s : State) : (powerSlots s).heddle = s.heddle := cards_heddle (powerSlots_keepsCards s)

@[simp] theorem leaveCard_heddle (c : CardSlot) (s : State) : (leaveCard c s).heddle = s.heddle := cards_heddle (leaveCard_keepsCards _ s)

@[simp] theorem sendTo_heddle (c : CardSlot) (op : BitVec 5) (arg : Nat) (s : State) : (sendTo c op arg s).heddle = s.heddle :=
  cards_heddle (sendTo_keepsCards _ _ _ s)

@[simp] theorem readRun_heddle (c : CardSlot) (first n : Nat) (s : State) : (readRun c first n s).heddle = s.heddle :=
  cards_heddle (readRun_keepsCards _ _ _ s)

@[simp] theorem attachCard_heddle (c : CardSlot) (s : State) : (attachCard c s).heddle = s.heddle := cards_heddle (attachCard_keepsCards _ s)

@[simp] theorem reachCard_heddle (c : CardSlot) (s : State) : (reachCard c s).heddle = s.heddle := by simp [reachCard, sendSwitch]

@[simp] theorem readCopy_heddle (c : CardSlot) (p : CardPlace) (b : Bool) (n : Nat) (s : State) : (readCopy c p b n s).heddle = s.heddle := by
  simp [readCopy]

@[simp] theorem lockSlot_heddle (c : CardSlot) (s : State) : (lockSlot c s).heddle = s.heddle := cards_heddle (lockSlot_keepsCards _ s)

@[simp] theorem sendCopy_heddle (c : CardSlot) (first : Nat) (bytes : Bytes) (acks : List (BitVec 4)) (s : State) :
    (sendCopy c first bytes acks s).heddle = s.heddle := by
  simp [sendCopy, writeRun]

@[simp] theorem writeCard_heddle {α : Type} (c : CardSlot) (p : CardPlace) (new : Stored α) (payload : Bytes) (w : CardWrite)
    (f : CardState → CardState) (s : State) : (writeCard c p new payload w f s).1.heddle = s.heddle := by
  unfold writeCard
  split
  · rfl
  · split
    · simp
    · extract_lets n s₁
      split <;> simp [s₁]

@[simp] theorem drawCeremony_heddle (b : CeremonyBlock) (s : State) : (drawCeremony b s).heddle = s.heddle := by
  unfold drawCeremony
  split <;> simp

@[simp] theorem endCeremony_heddle (s : State) : (endCeremony s).heddle = s.heddle := by simp [endCeremony]

@[simp] theorem commitCeremony_heddle (kind : Nat) (ork owner : Bytes) (seq : Word) (s : State) :
    (commitCeremony kind ork owner seq s).heddle = s.heddle := by
  simp [commitCeremony, newDeviceRoot]

@[simp] theorem readQuorum_heddle (s : State) : (readQuorum s).heddle = s.heddle := by simp [readQuorum]

@[simp] theorem failCeremony_heddle (err : Nat) (s : State) : (failCeremony err s).heddle = s.heddle := by simp [failCeremony]

@[simp] theorem quorumFails_heddle (s : State) : (quorumFails s).heddle = s.heddle := by simp [quorumFails]

@[simp] theorem finishCeremony_heddle (b : CeremonyBlock) (s : State) : (finishCeremony b s).heddle = s.heddle := by
  unfold finishCeremony
  split <;> simp

@[simp] theorem runCeremony_heddle (b : CeremonyBlock) (s : State) : (runCeremony b s).heddle = s.heddle := by
  unfold runCeremony
  dsimp only
  split
  · simp
  · split <;> simp
  · split
    · split <;> simp
    · simp

@[simp] theorem continueCeremony_heddle (s : State) : (continueCeremony s).heddle = s.heddle := by
  unfold continueCeremony
  split <;> simp

/-! ### Power, envelopes and the life cycle -/

@[simp] theorem loseBackup_heddle (s : State) : (loseBackup s).heddle = s.heddle := by simp [loseBackup]

@[simp] theorem settleBelowMin_heddle (s : State) : (settleBelowMin s).heddle = s.heddle := by simp [settleBelowMin]

@[simp] theorem oneSlotPowered_heddle (s : State) : (oneSlotPowered s).heddle = s.heddle := by
  unfold oneSlotPowered
  split <;> simp [cutSlot]

@[simp] theorem bobbinRestartDone_heddle (st : Status) (s : State) : (bobbinRestartDone st s).heddle = s.heddle := by
  unfold bobbinRestartDone
  (repeat' split) <;> simp

@[simp] theorem bulk_heddle (low : Bool) (s : State) : (bulk low s).heddle = s.heddle := by simp [bulk]

@[simp] theorem acceptEnvelope_heddle (p : PortId) (origin : OwnerOrigin) (e : Envelope) (op : OwnerOperand) (s : State) :
    (acceptEnvelope p origin e op s).heddle = s.heddle := by
  simp [acceptEnvelope]

@[simp] theorem takeEnvelope_heddle (p : PortId) (origin : OwnerOrigin) (e : Envelope) (refuse : Status → State → State) (s : State)
    (h : ∀ st t, (refuse st t).heddle = t.heddle) : (takeEnvelope p origin e refuse s).heddle = s.heddle := by
  unfold takeEnvelope
  split
  · exact h _ _
  · split
    · exact h _ _
    · split
      · simp
      · exact h _ _

@[simp] theorem signedAdmin_heddle (p : PortId) (seq : BitVec 16) (env : Envelope) (s : State) :
    (signedAdmin p seq env s).heddle = s.heddle := by
  have henvelope := takeEnvelope_heddle p (.usb p seq) env (fun st s => emit (.usb p 0x0010 seq st []) s) (h := fun _ _ => rfl) s
  simp [signedAdmin, henvelope]

@[simp] theorem beginTransition_heddle (target : Nat) (byToken : Option (PortId × BitVec 16)) (s : State) :
    (beginTransition target byToken s).heddle = s.heddle := by
  unfold beginTransition
  split <;> simp

@[simp] theorem entryEnvelope_heddle (p : PortId) (id : Nat) (env : Envelope) (s : State) : (entryEnvelope p id env s).heddle = s.heddle := by
  unfold entryEnvelope
  split <;> simp

/-! ### Reports, writes to the host and messages -/

@[simp] theorem alarmAtFall_heddle (before : State) (x : Firing × Nat) (s : State) : (alarmAtFall before x s).heddle = s.heddle := by
  simp [alarmAtFall]

@[simp] theorem report_heddle (src : Nat) (ue : Bool) (s : State) : (report src ue s).heddle = s.heddle := by simp [report]

@[simp] theorem writtenBytes_heddle (overlaps : Bool) (bs : Bytes) (s : State) : (writtenBytes overlaps bs s).2.heddle = s.heddle := by
  unfold writtenBytes
  split <;> simp

@[simp] theorem touchPages_heddle (p : PortId) (i : SliceIdx) (pages : List Nat) (s : State) : (touchPages p i pages s).heddle = s.heddle := by
  simp [touchPages]

@[simp] theorem sendMessage_heddle (p : PortId) (vector : Nat) (s : State) : (sendMessage p vector s).heddle = s.heddle := by
  unfold sendMessage
  dsimp only
  split
  · rfl
  · split <;> simp

@[simp] theorem adminMessage_heddle (p : PortId) (s : State) : (adminMessage p s).heddle = s.heddle := by simp [adminMessage]

@[simp] theorem queueMessage_heddle (p : PortId) (n : Nat) (s : State) : (queueMessage p n s).heddle = s.heddle := by
  unfold queueMessage
  split <;> simp

@[simp] theorem queueError_heddle (p : PortId) (n err : Nat) (s : State) : (queueError p n err s).heddle = s.heddle := by
  unfold queueError
  (repeat' split) <;> simp

@[simp] theorem countWritten_heddle (p : PortId) (n : Nat) (e : Entry) (s : State) : (countWritten p n e s).heddle = s.heddle := by
  unfold countWritten
  dsimp only
  split <;> simp

@[simp] theorem pumpAdmin_heddle (s : State) : (pumpAdmin s).heddle = s.heddle := by simp [pumpAdmin]

/-! ### Faults of stores -/

@[simp] theorem cabinetHold_heddle (s : State) : (cabinetHold s).heddle = s.heddle := by simp [cabinetHold]

@[simp] theorem chestFault_heddle (s : State) : (chestFault s).heddle = s.heddle := by simp [chestFault]

@[simp] theorem slotFault_heddle (d : DigestSlot) (s : State) : (slotFault d s).heddle = s.heddle := by simp [slotFault]

@[simp] theorem flashFault_heddle (s : State) : (flashFault s).heddle = s.heddle := by simp [flashFault]

@[simp] theorem reportTrestle_heddle (t : TrestleId) (s : State) : (reportTrestle t s).heddle = s.heddle := by simp [reportTrestle]

/-! ### Commits and averages -/

@[simp] theorem commitRun_heddle (i : Item) (kind family set : Nat) (policy : Word) (content : Bytes) (keyId : Nat) (building : Bool) (s : State) :
    (commitRun i kind family set policy content keyId building s).heddle = s.heddle := by
  unfold commitRun
  split <;> simp

@[simp] theorem writeTally_heddle (number : Nat) (c : TallyCopy) (w : TallyWaiter) (s : State) :
    (writeTally number c w s).heddle = s.heddle := by
  simp [writeTally]

@[simp] theorem finishKey_heddle (id : Nat) (r : KeyRun) (s : State) : (finishKey id r s).heddle = s.heddle := by
  unfold finishKey
  (repeat' split) <;> simp

@[simp] theorem retireKey_heddle (id : Nat) (r : KeyRun) (s : State) : (retireKey id r s).heddle = s.heddle := by
  unfold retireKey
  (repeat' split) <;> simp

@[simp] theorem commitAct_heddle (i : Item) (a : CommitAct) (s : State) : (commitAct i a s).heddle = s.heddle := by
  unfold commitAct
  (repeat' split) <;> simp [installLoom, touchLoom, installSelv, touchSelv]

@[simp] theorem addAverage_heddle (i : Item) (cycles : Nat) (s : State) : (addAverage i cycles s).heddle = s.heddle := by
  unfold addAverage
  (repeat' split) <;> simp

@[simp] theorem countLookup_heddle (i : Item) (hit : Option Bool) (s : State) : (countLookup i hit s).heddle = s.heddle := by
  unfold countLookup
  split <;> simp

@[simp] theorem passBuffer_heddle (i : Item) (s : State) : (passBuffer i s).heddle = s.heddle := by
  unfold passBuffer
  split <;> simp

/-! ### What a beat installs -/

@[simp] theorem settleBudgets_heddle (s : State) : (settleBudgets s).heddle = s.heddle := by simp [settleBudgets]

@[simp] theorem refuseQueue_heddle (p : PortId) (code : Nat) (s : State) : (refuseQueue p code s).heddle = s.heddle := by simp [refuseQueue]

@[simp] theorem removeQueue_heddle (p : PortId) (n : Nat) (s : State) : (removeQueue p n s).heddle = s.heddle := by simp [removeQueue]

@[simp] theorem installQueue_heddle (p : PortId) (n : Nat) (s : State) : (installQueue p n s).heddle = s.heddle := by
  unfold installQueue
  (repeat' split) <;> simp

@[simp] theorem installPort_heddle (s : State) (p : PortId) : (installPort s p).heddle = s.heddle := by
  unfold installPort
  (repeat' split) <;> simp [installSlice, thawSlice]

@[simp] theorem applyDevice_heddle (t : Nat) (s : State) : (applyDevice t s).heddle = s.heddle := by simp [applyDevice, scaleWeights]

@[simp] theorem applyField_heddle (p : PortId) (s : State) (e : StagedField × Nat) : (applyField p s e).heddle = s.heddle := by
  unfold applyField
  split <;> simp

@[simp] theorem applyStage_heddle (t : Nat) (s : State) (p : PortId) : (applyStage t s p).heddle = s.heddle := by simp [applyStage]

@[simp] theorem returnBenches_heddle (s : State) : (returnBenches s).heddle = s.heddle := by simp [returnBenches]

@[simp] theorem returnUnits_heddle (s : State) : (returnUnits s).heddle = s.heddle := by
  unfold returnUnits
  split <;> simp [planRise]

@[simp] theorem releaseHold_heddle (s : State) : (releaseHold s).heddle = s.heddle := by
  unfold releaseHold
  split <;> simp

@[simp] theorem leaveIdle_heddle (s : State) : (leaveIdle s).heddle = s.heddle := by simp [leaveIdle]

/-! ### Registers, the bar and USB -/

@[simp] theorem reserveDeposit_heddle (i : Item) (drawers : Nat) (s : State) : (reserveDeposit i drawers s).heddle = s.heddle := by
  unfold reserveDeposit
  (repeat' split) <;> simp

@[simp] theorem onBar_heddle (p : PortId) (act : State → State) (s : State) (h : ∀ t, (act t).heddle = t.heddle) :
    (onBar p act s).heddle = s.heddle := by
  unfold onBar
  split
  · exact h s
  · split <;> simp

@[simp] theorem onBar_emit_heddle (p : PortId) (x : Tx) (s : State) : (onBar p (emit x) s).heddle = s.heddle :=
  onBar_heddle p _ s fun _ => rfl

@[simp] theorem onWrite_heddle (p : PortId) (act : State → State) (s : State) (h : ∀ t, (act t).heddle = t.heddle) :
    (onWrite p act s).heddle = s.heddle := by
  simp [onWrite, h]

@[simp] theorem commitStage_heddle (p : PortId) (sum : BitVec 16) (s : State) : (commitStage p sum s).heddle = s.heddle := by
  simp [commitStage]

@[simp] theorem discardStage_heddle (p : PortId) (s : State) : (discardStage p s).heddle = s.heddle := by simp [discardStage]

@[simp] theorem writeQueSel_heddle (p : PortId) (w : Nat) (v : Word) (s : State) : (writeQueSel p w v s).heddle = s.heddle := by
  unfold writeQueSel
  split <;> simp

@[simp] theorem clearPowerEvents_heddle (v : Word) (s : State) : (clearPowerEvents v s).heddle = s.heddle := by simp [clearPowerEvents]

@[simp] theorem writeReg_heddle (p : PortId) (off : Nat) (v : Word) (s : State) : (writeReg p off v s).heddle = s.heddle := by
  unfold writeReg
  (repeat' split) <;> simp [writeStgBeat, writeStgStatus, writeAqBase, writeTotal, clearCardEvents]

@[simp] theorem onUsb_heddle (p : PortId) (act : State → State) (s : State) (h : ∀ t, (act t).heddle = t.heddle) :
    (onUsb p act s).heddle = s.heddle := by
  simp [onUsb, h]

@[simp] theorem barAdmin_heddle (p : PortId) (code : Nat) (s : State) : (barAdmin p code s).heddle = s.heddle := by simp [barAdmin]

@[simp] theorem adminCommand_heddle (p : PortId) (code : Nat) (act : AdminEntry → State → State) (s : State)
    (h : ∀ e t, (act e t).heddle = t.heddle) : (adminCommand p code act s).heddle = s.heddle := by
  unfold adminCommand
  split
  · rfl
  · simp [h]

@[simp] theorem adminDoneLen_heddle (p : PortId) (st : Status) (result len : Nat) (s : State) :
    (adminDoneLen p st result len s).heddle = s.heddle := by
  simp [adminDoneLen]

@[simp] theorem giveNonce_heddle (p : PortId) (seq : BitVec 16) (s : State) : (giveNonce p seq s).heddle = s.heddle := by simp [giveNonce]

@[simp] theorem sendPending_heddle (p : PortId) (s : State) : (sendPending p s).heddle = s.heddle := by
  unfold sendPending
  dsimp only
  split <;> simp

/-! ### Fetches, reservations and draws -/

@[simp] theorem touchFetch_heddle (q : Queue) (f : Fetched) (reached : Bool) (s : State) : (touchFetch q f reached s).heddle = s.heddle := by
  simp [touchFetch]

@[simp] theorem reserveIndices_heddle (t : TallyRecord) (s : State) : (reserveIndices t s).heddle = s.heddle := by
  unfold reserveIndices
  split <;> simp

@[simp] theorem reserveFor_heddle (i : Item) (s : State) : (reserveFor i s).heddle = s.heddle := by
  unfold reserveFor
  (repeat' split) <;> simp

@[simp] theorem reserveTally_heddle (id : Nat) (uid : BitVec 64) (s : State) : (reserveTally id uid s).heddle = s.heddle := by
  unfold reserveTally
  split <;> rfl

@[simp] theorem reserve_heddle (id : Nat) (x : Slice) (info : OpInfo) (e : Entry) (s : State) : (reserve id x info e s).heddle = s.heddle := by
  unfold reserve
  (repeat' split) <;> simp

@[simp] theorem afterRead_heddle (p : PortId) (n : Nat) (stopped : Bool) (s : State) : (afterRead p n stopped s).heddle = s.heddle := by
  unfold afterRead
  split <;> simp

@[simp] theorem markExhausted_heddle (i : Item) (s : State) : (markExhausted i s).heddle = s.heddle := by
  unfold markExhausted
  (repeat' split) <;> simp

@[simp] theorem drawBuffer_heddle (k : Fin 12) (n : Nat) (s : State) : (drawBuffer k n s).2.heddle = s.heddle := by simp [drawBuffer]

@[simp] theorem enterContext_heddle (i : Item) (draws : Bool) (s : State) : (enterContext i draws s).heddle = s.heddle := by
  unfold enterContext
  (repeat' split) <;> simp

/-! ### Admin commands on slices and queues -/

@[simp] theorem correctable_heddle (src : Nat) (s : State) : (correctable src s).heddle = s.heddle := by
  simp [correctable, correctedEvent, raiseUnit]

@[simp] theorem refuseSlice_heddle (p : PortId) (code : Nat) (s : State) : (refuseSlice p code s).heddle = s.heddle := by simp [refuseSlice]

@[simp] theorem adminWait_heddle (p : PortId) (w : AdminWait) (s : State) : (adminWait p w s).heddle = s.heddle := by simp [adminWait]

@[simp] theorem createSliceAct_heddle (p : PortId) (e : AdminEntry) (s : State) : (createSliceAct p e s).heddle = s.heddle := by
  unfold createSliceAct
  split <;> simp

@[simp] theorem createQueueAct_heddle (p : PortId) (e : AdminEntry) (s : State) : (createQueueAct p e s).heddle = s.heddle := by
  unfold createQueueAct
  (repeat' split) <;> simp

@[simp] theorem destroyQueueAct_heddle (p : PortId) (e : AdminEntry) (s : State) : (destroyQueueAct p e s).heddle = s.heddle := by
  unfold destroyQueueAct
  dsimp only
  split
  · simp
  · split <;> simp

/-! ### Slices that are saved, restored and thawed -/

@[simp] theorem refuseMove_heddle (p : PortId) (code : Nat) (s : State) : (refuseMove p code s).heddle = s.heddle := by simp [refuseMove]

@[simp] theorem noRoom_heddle (c : CardSlot) (s : State) : (noRoom c s).heddle = s.heddle := by simp [noRoom]

@[simp] theorem markNoRoom_heddle (p : PortId) (nonce : BitVec 128) (e : Entry) (s : State) : (markNoRoom p nonce e s).heddle = s.heddle := by
  unfold markNoRoom
  split <;> simp

@[simp] theorem handOff_heddle (low : Nat) (s : State) (k : KeyRun × TallyRecord) : (handOff low s k).heddle = s.heddle := by
  unfold handOff
  split <;> simp

@[simp] theorem saveToCards_heddle (p : PortId) (m : SliceImage) (writes : List CardWrite) (slots : List CardSlot) (s : State) :
    (saveToCards p m writes slots s).1.heddle = s.heddle := by
  refine foldl_heddle_of Prod.fst (fun r x => ?_) _ _
  dsimp only
  split <;> simp

@[simp] theorem saveSliceAct_heddle (p : PortId) (dest : IdentityRecord) (nonce : BitVec 128) (writes : List CardWrite) (e : AdminEntry) (s : State) :
    (saveSliceAct p dest nonce writes e s).heddle = s.heddle := by
  unfold saveSliceAct
  (repeat' split) <;> simp

@[simp] theorem readNamed_heddle (s : State) (e : Entry) : (readNamed s e).heddle = s.heddle := by
  unfold readNamed
  (repeat' split) <;> simp

@[simp] theorem logNonce_heddle (n : BitVec 128) (s : State) : (logNonce n s).heddle = s.heddle := by
  unfold logNonce
  dsimp only
  split <;> rfl

@[simp] theorem restoreTally_heddle (uid : BitVec 64) (accepted : Bool) (s : State) (t : ImageTally) :
    (restoreTally uid accepted s t).heddle = s.heddle := by
  unfold restoreTally
  split
  · rfl
  · dsimp only
    split <;> simp

@[simp] theorem restoreQueue_heddle (p : PortId) (i : SliceIdx) (s : State) (q : ImageQueue) : (restoreQueue p i s q).heddle = s.heddle := by
  unfold restoreQueue
  split <;> rfl

@[simp] theorem restoreAct_heddle (p : PortId) (i : SliceIdx) (e : Entry) (nonce : BitVec 128) (m : SliceBody) (s : State) :
    (restoreAct p i e nonce m s).heddle = s.heddle := by
  simp [restoreAct, setGens]

@[simp] theorem restoreSliceAct_heddle (p : PortId) (image : Option SliceImage) (e : AdminEntry) (s : State) :
    (restoreSliceAct p image e s).heddle = s.heddle := by
  unfold restoreSliceAct
  dsimp only
  split
  · simp
  · split
    · rfl
    · split
      · simp
      · split <;> simp

@[simp] theorem thawSliceAct_heddle (p : PortId) (e : AdminEntry) (s : State) : (thawSliceAct p e s).heddle = s.heddle := by
  unfold thawSliceAct
  (repeat' split) <;> simp

/-! ### The owner's start, seeds and repeats -/

@[simp] theorem markShareClamp_heddle (off : Nat) (v : Word) (s : State) (p : PortId) : (markShareClamp off v s p).heddle = s.heddle := by
  unfold markShareClamp
  split <;> simp

@[simp] theorem ownerStart_heddle (s : State) : (ownerStart s).heddle = s.heddle := by simp [ownerStart]

@[simp] theorem takeSeed_heddle (s : State) : (takeSeed s).2.heddle = s.heddle := by
  unfold takeSeed
  split <;> simp [conditionBlock]

@[simp] theorem latchRepeat_heddle (ev : Nat) (s : State) : (latchRepeat ev s).heddle = s.heddle := by simp [latchRepeat]

@[simp] theorem tamperRepeat_heddle (src : SourceId) (s : State) : (tamperRepeat src s).heddle = s.heddle := by
  unfold tamperRepeat
  dsimp only
  split
  · simp
  · split
    · simp
    · split <;> simp

@[simp] theorem aloneTo_heddle (t : Nat) (s : State) : (aloneTo t s).heddle = s.heddle := by simp [aloneTo]

@[simp] theorem writeRecord_heddle (r : LogRecord) (s : State) : (writeRecord r s).heddle = s.heddle := by simp [writeRecord]

end Sys2Proof.Machine
end

section
/-! PROOFS. Item numbers: what keeps every item's number and the next number (R143, R188). -/
namespace Sys2Proof.Machine
open Sys2Proof.Claims

/-- The numbers of the items, in their order, and the next number. -/
def numbersOf (h : Heddle) : List Nat × Nat := (h.items.map fun i => i.id, h.nextId)

@[simp] theorem numbersOf_ite {c : Prop} [Decidable c] (x y : Heddle) :
    numbersOf (if c then x else y) = if c then numbersOf x else numbersOf y :=
  apply_ite numbersOf c x y

theorem foldl_numbers_of {α β : Type} (g : β → State) {f : β → α → β} (h : ∀ x a, numbersOf (g (f x a)).heddle = numbersOf (g x).heddle)
    (l : List α) (x : β) : numbersOf (g (l.foldl f x)).heddle = numbersOf (g x).heddle := by
  induction l generalizing x with
  | nil => rfl
  | cons a l ih => exact (ih _).trans (h x a)

@[simp] theorem foldl_numbers {α : Type} {f : State → α → State} (l : List α) (s : State)
    (h : ∀ s a, numbersOf (f s a).heddle = numbersOf s.heddle) : numbersOf (l.foldl f s).heddle = numbersOf s.heddle :=
  foldl_numbers_of id h l s

@[simp] theorem ite_id {c : Prop} [Decidable c] (x y : Item) : (if c then x else y).id = if c then x.id else y.id :=
  apply_ite Item.id c x y

/-! ### Items -/

@[simp] theorem modItems_numbers (sel : Item → Bool) (f : Item → Item) (s : State) (h : ∀ x, (f x).id = x.id) :
    numbersOf (modItems sel f s).heddle = numbersOf s.heddle := by
  simp [numbersOf, modItems, Function.comp_def, h]

@[simp] theorem modItem_numbers (id : Nat) (f : Item → Item) (s : State) (h : ∀ x, x.id = id → (f x).id = id) :
    numbersOf (modItem id f s).heddle = numbersOf s.heddle := by
  have hput (x : Item) : (if x.id = id then (f x).id else x.id) = x.id := by
    split
    · next hx => rw [h x hx, hx]
    · rfl
  simp [numbersOf, modItem, modItems, Function.comp_def, hput]

@[simp] theorem unask_numbers (sel : Engine → Bool) (s : State) : numbersOf (unask sel s).heddle = numbersOf s.heddle := rfl

@[simp] theorem resumeTrestle_numbers (i : Item) (s : State) : numbersOf (resumeTrestle i s).heddle = numbersOf s.heddle := by
  unfold resumeTrestle
  (repeat' split) <;> simp

@[simp] theorem wipeRun_heddle (r : KeyRun) (erase : Bool) (s : State) : (wipeRun r erase s).heddle = s.heddle := by
  unfold wipeRun
  (repeat' split) <;> simp

@[simp] theorem settleRuns_numbers (s : State) : numbersOf (settleRuns s).heddle = numbersOf s.heddle := by
  refine foldl_numbers _ s fun s r => ?_
  (repeat' split) <;> simp

@[simp] theorem endItem_numbers (id : Nat) (d : Done) (eng : Nat) (s : State) : numbersOf (endItem id d eng s).heddle = numbersOf s.heddle := by
  simp [endItem]

@[simp] theorem failItem_numbers (st : Status) (i : Item) (s : State) : numbersOf (failItem st i s).heddle = numbersOf s.heddle := by
  simp [failItem]

@[simp] theorem failInService_numbers (st : Status) (cycles : Nat) (i : Item) (s : State) :
    numbersOf (failInService st cycles i s).heddle = numbersOf s.heddle := by
  simp [failInService, leaveUnits_heddle]

@[simp] theorem abandonAll_numbers (st : Status) (s : State) : numbersOf (abandonAll st s).heddle = numbersOf s.heddle := by
  refine foldl_numbers _ _ fun s i => ?_
  (repeat' split) <;> simp

/-! ### Waiting -/

@[simp] theorem takeScratch_numbers (id : Nat) (s : State) : numbersOf (takeScratch id s).heddle = numbersOf s.heddle := by
  unfold takeScratch
  (repeat' split) <;> simp

@[simp] theorem park_numbers (full : Bool) (id : Nat) (s : State) : numbersOf (park full id s).heddle = numbersOf s.heddle := by
  unfold park
  (repeat' split) <;> simp

@[simp] theorem markOldest_numbers (s : State) : numbersOf (markOldest s).heddle = numbersOf s.heddle := by simp [markOldest]

@[simp] theorem settleHeddle_numbers (s : State) : numbersOf (settleHeddle s).heddle = numbersOf s.heddle := by simp [settleHeddle]

@[simp] theorem failAtFetch_numbers (id : Nat) (x : Slice) (ff : FetchFail) (s : State) :
    numbersOf (failAtFetch id x ff s).heddle = numbersOf s.heddle := by
  unfold failAtFetch
  dsimp only
  (repeat' split) <;> simp

@[simp] theorem readvertise_numbers (s : State) : numbersOf (readvertise s).heddle = numbersOf s.heddle := by simp [readvertise]

/-! ### Grants -/

@[simp] theorem bindIndex_numbers (i : Item) (s : State) : numbersOf (bindIndex i s).heddle = numbersOf s.heddle := by
  unfold bindIndex
  (repeat' split) <;> simp [raisePointer]

@[simp] theorem grantActs_numbers (e : Engine) (i : Item) (s : State) : numbersOf (grantActs e i s).heddle = numbersOf s.heddle := by
  unfold grantActs
  (repeat' split) <;> simp [requestPred]

@[simp] theorem grantDraws_numbers (e : Engine) (i : Item) (s : State) : numbersOf (grantDraws e i s).heddle = numbersOf s.heddle := by
  unfold grantDraws
  split <;> simp [startRoutine]

@[simp] theorem suspendLong_numbers (t : TrestleId) (s : State) : numbersOf (suspendLong t s).heddle = numbersOf s.heddle := by
  unfold suspendLong
  split <;> simp

/-- Which engine was served last and which ask is no number. -/
@[simp] theorem numbersOf_lastServed (l : List (Nat × Engine)) (h : Heddle) : numbersOf { h with lastServed := l } = numbersOf h := rfl

@[simp] theorem numbersOf_asking (l : List Engine) (h : Heddle) : numbersOf { h with asking := l } = numbersOf h := rfl

@[simp] theorem grant_numbers (e : Engine) (yielding : List TrestleId) (i : Item) (reason : Nat) (s : State) :
    numbersOf (grant e yielding i reason s).heddle = numbersOf s.heddle := by
  unfold grant
  extract_lets partner t s₁ ctx placed s₂ m s₃ s₄ c last heddle s₅ s₆ s₇
  have h₁ : numbersOf s₁.heddle = numbersOf s.heddle := by
    unfold s₁
    cases t <;> simp
  have h₃ : s₃.heddle = s₂.heddle := by
    unfold s₃
    cases t <;> simp
  have h₇ : numbersOf s₇.heddle = numbersOf s.heddle := by simp [s₇, s₆, s₅, heddle, s₄, h₃, s₂, placed, h₁]
  split
  · split <;> simp [h₇]
  · simp [h₇]

@[simp] theorem grantLoop_numbers (n : Nat) (e : Engine) (y : List TrestleId) (only : Item → Bool) (s : State) :
    numbersOf (grantLoop n e y only s).1.heddle = numbersOf s.heddle := by
  induction n generalizing s with
  | zero => rfl
  | succ n ih =>
    unfold grantLoop
    split
    · rfl
    · split
      · simp [ih]
      · exact grant_numbers ..

@[simp] theorem serveFirst_numbers (y : List TrestleId) (l : List Engine) (s : State) :
    numbersOf (serveFirst y l s).1.heddle = numbersOf s.heddle := by
  induction l generalizing s with
  | nil => rfl
  | cons e l ih =>
    unfold serveFirst
    dsimp only
    split
    · exact grantLoop_numbers ..
    · rw [ih, grantLoop_numbers]

@[simp] theorem serveClass_numbers (x : State × List TrestleId × Bool) (c : SvcClass) :
    numbersOf (serveClass x c).1.heddle = numbersOf x.1.heddle := by
  unfold serveClass
  dsimp only
  split
  · rfl
  · split <;> exact serveFirst_numbers ..

@[simp] theorem heddleCycle_numbers (y : List TrestleId) (s : State) : numbersOf (heddleCycle y s).heddle = numbersOf s.heddle := by
  unfold heddleCycle
  split
  · exact foldl_numbers_of Prod.fst serveClass_numbers _ _
  · rfl

@[simp] theorem serveYield_numbers (l : List Engine) (s : State) : numbersOf (serveYield l s).heddle = numbersOf s.heddle := by
  induction l generalizing s with
  | nil => rfl
  | cons e l ih =>
    unfold serveYield
    dsimp only
    split
    · exact grantLoop_numbers ..
    · rw [ih, grantLoop_numbers]

/-! ### Service -/

@[simp] theorem formResult_numbers (i : Item) (input : Bytes) (r : ItemResult) (s : State) :
    numbersOf (formResult i input r s).heddle = numbersOf s.heddle := by
  simp [formResult]

@[simp] theorem unitDraw_heddle (i : Item) (n : Nat) (s : State) : (unitDraw i n s).2.heddle = s.heddle := by
  rw [unitDraw_frame]

@[simp] theorem itemDraw_numbers (i : Item) (n : Nat) (s : State) : numbersOf (itemDraw i n s).2.heddle = numbersOf s.heddle := by
  simp [itemDraw]

@[simp] theorem takeBlock_numbers (u : FarmUser) (s : State) : numbersOf (takeBlock u s).heddle = numbersOf s.heddle := by
  unfold takeBlock
  split <;> simp

@[simp] theorem commitItem_numbers (e : Engine) (cycles : Nat) (i : Item) (r : ItemResult) (s : State) :
    numbersOf (commitItem e cycles i r s).heddle = numbersOf s.heddle := by
  unfold commitItem
  split <;> simp [leaveStores_heddle]

@[simp] theorem releaseHeld_numbers (id : Nat) (s : State) : numbersOf (releaseHeld id s).heddle = numbersOf s.heddle := by
  simp [releaseHeld]

/-! ### Faults -/

@[simp] theorem loseItem_numbers (i : Item) (s : State) : numbersOf (loseItem i s).heddle = numbersOf s.heddle := by simp [loseItem]

@[simp] theorem entryFault_numbers (id : Nat) (copyReadable : Bool) (s : State) :
    numbersOf (entryFault id copyReadable s).heddle = numbersOf s.heddle := by
  unfold entryFault
  split <;> simp

@[simp] theorem drawerFault_numbers (p : PortId) (slice : SliceIdx) (index : Nat) (s : State) :
    numbersOf (drawerFault p slice index s).heddle = numbersOf s.heddle := by
  unfold drawerFault
  dsimp only
  split
  · simp
  · split <;> simp

@[simp] theorem clearAllDrawers_numbers (s : State) : numbersOf (clearAllDrawers s).heddle = numbersOf s.heddle := by
  unfold clearAllDrawers
  dsimp only
  rw [foldl_numbers _ _ fun s i => failItem_numbers _ i s]
  dsimp only
  split
  · rw [modInstance_heddle, draw_heddle]
  · rfl

end Sys2Proof.Machine
end

section
/-! PROOFS. Numbers kept apart: items that leave, restart and come back, fences, slices, functions, plans and alarms (R143, R188). -/
namespace Sys2Proof.Machine
open Sys2Proof.Claims

/-- Each number names one item and is below the next one; the numbers below `n` have been given. -/
def Apart (n : Nat) (x : List Nat × Nat) : Prop := x.1.Nodup ∧ (∀ k ∈ x.1, k < x.2) ∧ n ≤ x.2

theorem idsApart_iff {s : State} : IdsApart s ↔ Apart 0 (numbersOf s.heddle) := by
  simp [IdsApart, Apart, numbersOf]

variable {n : Nat} {x y : List Nat × Nat} {s t : State}

@[simp] theorem apart_ite {c : Prop} [Decidable c] : Apart n (if c then x else y) ↔ (c → Apart n x) ∧ (¬c → Apart n y) := by
  split <;> simp [*]

theorem Apart.sublist (h : Apart n x) (hy : List.Sublist y.1 x.1) (hnext : y.2 = x.2) : Apart n y := by
  obtain ⟨hnodup, hbelow, hn⟩ := h
  exact ⟨hnodup.sublist hy, fun k hk => hnext ▸ hbelow k (hy.subset hk), hnext ▸ hn⟩

/-- An item that is there has a number below the next. -/
theorem Apart.lt {i : Item} (h : Apart n (numbersOf s.heddle)) (hi : i ∈ s.heddle.items) : i.id < s.heddle.nextId :=
  h.2.1 _ (List.mem_map_of_mem hi)

/-- What keeps the numbers apart once every number below the next is given, keeps them apart. -/
theorem Apart.now (h : Apart n (numbersOf s.heddle))
    (k : Apart s.heddle.nextId (numbersOf s.heddle) → Apart s.heddle.nextId y) : Apart n y := by
  obtain ⟨hnodup, hbelow, hn⟩ := h
  obtain ⟨hnodup', hbelow', hn'⟩ := k ⟨hnodup, hbelow, le_refl _⟩
  exact ⟨hnodup', hbelow', le_trans hn hn'⟩

theorem foldl_apart {α : Type} {f : State → α → State} {l : List α}
    (hf : ∀ s, ∀ a ∈ l, Apart n (numbersOf s.heddle) → Apart n (numbersOf (f s a).heddle)) (h : Apart n (numbersOf s.heddle)) :
    Apart n (numbersOf (l.foldl f s).heddle) := by
  induction l generalizing s with
  | nil => exact h
  | cons a l ih => exact ih (fun s b hb => hf s b (List.mem_cons_of_mem a hb)) (hf s a List.mem_cons_self h)

/-! ### Items that leave, and that come back -/

@[simp] theorem dropItems_apart (sel : Item → Bool) (h : Apart n (numbersOf s.heddle)) : Apart n (numbersOf (dropItems sel s).heddle) :=
  h.sublist (List.filter_sublist.map _) rfl

/-- A list of items without those of number `k`, and one of that number elsewhere. -/
theorem apart_moved {items : List Item} {next k : Nat} (hk : k < next) (h : Apart n (items.map fun i => i.id, next)) :
    Apart n (k :: (items.filter fun i => !(i.id == k)).map fun i => i.id, next) := by
  obtain ⟨hnodup, hbelow, hn⟩ := h.sublist (y := ((items.filter fun i => !(i.id == k)).map fun i => i.id, next)) (List.filter_sublist.map _) rfl
  refine ⟨List.nodup_cons.mpr ⟨?_, hnodup⟩, ?_, hn⟩
  · simp
  · simpa [hk] using hbelow

@[simp] theorem readmit_apart {i : Item} (hi : i.id < n) (h : Apart n (numbersOf s.heddle)) : Apart n (numbersOf (readmit i s).heddle) :=
  apart_moved (Nat.lt_of_lt_of_le hi h.2.2) h

@[simp] theorem enterList_apart (id : Nat) (h : Apart n (numbersOf s.heddle)) : Apart n (numbersOf (enterList id s).heddle) := by
  unfold enterList
  split
  · exact h
  · next i hi =>
    obtain ⟨hmem, rfl⟩ := findItem_mem hi
    obtain ⟨hnodup, hbelow, hn⟩ := apart_moved (h.lt hmem) h
    have hperm := List.perm_append_singleton i.id ((s.heddle.items.filter fun x => !(x.id == i.id)).map fun x => x.id)
    simp only [traceItem_heddle, numbersOf, List.map_append, List.map_cons, List.map_nil]
    exact ⟨hperm.nodup_iff.mpr hnodup, fun k hk => hbelow k (hperm.mem_iff.mp hk), hn⟩

@[simp] theorem offer_apart (id : Nat) (h : Apart n (numbersOf s.heddle)) : Apart n (numbersOf (offer id s).heddle) := by
  unfold offer
  dsimp only
  split <;> simp [h]

@[simp] theorem retryParked_apart (h : Apart n (numbersOf s.heddle)) : Apart n (numbersOf (retryParked s).heddle) := by
  have hoffers (l : List Nat) {s : State} (h : Apart n (numbersOf s.heddle)) : Apart n (numbersOf (l.foldl (fun s id => offer id s) s).heddle) :=
    foldl_apart (fun _ id _ h => offer_apart id h) h
  unfold retryParked
  dsimp only
  split
  · exact hoffers _ (hoffers _ h)
  · exact hoffers _ h

@[simp] theorem settleAfterLeave_apart (h : Apart n (numbersOf s.heddle)) : Apart n (numbersOf (settleAfterLeave s).heddle) := by
  simp [settleAfterLeave, h]

/-! ### Restarts and fences -/

@[simp] theorem restartCoded_apart (code : Nat) (fault : Bool) (excl : List Engine) {i : Item} (hi : i.id < n) (h : Apart n (numbersOf s.heddle)) :
    Apart n (numbersOf (restartCoded code fault excl i s).heddle) := by
  unfold restartCoded
  dsimp only
  split <;> simp [h, hi]

@[simp] theorem restartItem_apart (fault : Bool) (excl : List Engine) {i : Item} (hi : i.id < n) (h : Apart n (numbersOf s.heddle)) :
    Apart n (numbersOf (restartItem fault excl i s).heddle) :=
  restartCoded_apart _ _ _ hi h

/-- Every item of a list that was there restarts. -/
theorem restartItems_apart (fault : Bool) (excl : List Engine) (sel : Item → Bool) (h : Apart n (numbersOf s.heddle)) :
    Apart n (numbersOf ((s.heddle.items.filter sel).foldl (fun s i => restartItem fault excl i s) s).heddle) :=
  h.now fun h => foldl_apart (fun _ _ hi h' => restartItem_apart fault excl (h.lt (List.mem_of_mem_filter hi)) h') h

@[simp] theorem restartAllOn_apart (fault : Bool) (e : Engine) (h : Apart n (numbersOf s.heddle)) :
    Apart n (numbersOf (restartAllOn fault e s).heddle) :=
  restartItems_apart fault [e] _ h

@[simp] theorem restartWhere_apart (code : Nat) (fault : Bool) (sel : Engine → Bool) (h : Apart n (numbersOf s.heddle)) :
    Apart n (numbersOf (restartWhere code fault sel s).heddle) := by
  refine foldl_apart (fun s i _ h => ?_) h
  dsimp only
  split
  · next hi => exact h.now fun h => restartCoded_apart _ _ _ (h.lt (findItem_mem hi).1) h
  · exact h

@[simp] theorem fenceUnits_apart (fault : Bool) (benches : BitVec 16) (looms : List LoomId) (trestles : BitVec 8) (selvs : BitVec 4)
    (h : Apart n (numbersOf s.heddle)) : Apart n (numbersOf (fenceUnits fault benches looms trestles selvs s).heddle) := by
  unfold fenceUnits
  dsimp only
  split <;> simp [h]

@[simp] theorem tamperFence_apart (src : SourceId) (sc : FenceScope) (h : Apart n (numbersOf s.heddle)) :
    Apart n (numbersOf (tamperFence src sc s).heddle) := by
  simp [tamperFence, h]

@[simp] theorem parkBenches_apart (m : BitVec 16) (h : Apart n (numbersOf s.heddle)) : Apart n (numbersOf (parkBenches m s).heddle) := by
  simp [parkBenches, parkBench, h]

/-! ### Slices and functions that go -/

@[simp] theorem discardItems_apart (p : PortId) (i : SliceIdx) (h : Apart n (numbersOf s.heddle)) :
    Apart n (numbersOf (discardItems p i s).heddle) := by
  simp [discardItems, h]

@[simp] theorem destroySlice_apart (p : PortId) (i : SliceIdx) (erase : Bool) (h : Apart n (numbersOf s.heddle)) :
    Apart n (numbersOf (destroySlice p i erase s).heddle) := by
  unfold destroySlice
  extract_lets old uid s₁ s₂ s₃ keys m s₄ s₅ s₆ cards s₇
  have h₁ : s₁.heddle = s.heddle := by
    unfold s₁
    cases old <;> simp
  have h₇ : Apart n (numbersOf s₇.heddle) := by simp [s₇, s₆, s₅, s₄, s₃, s₂, h₁, h]
  split <;> simp [h₇]

@[simp] theorem destroySlices_apart (name : Slice → PortId × SliceIdx) (erase : Bool) (l : List Slice) (h : Apart n (numbersOf s.heddle)) :
    Apart n (numbersOf (l.foldl (fun s x => destroySlice (name x).1 (name x).2 erase s) s).heddle) :=
  foldl_apart (fun _ _ _ h => destroySlice_apart _ _ _ h) h

@[simp] theorem destroyPortSlices_apart (p : PortId) (h : Apart n (numbersOf s.heddle)) : Apart n (numbersOf (destroyPortSlices p s).heddle) :=
  destroySlices_apart (fun x => (p, x.idx)) false _ h

@[simp] theorem destroyAllSlices_apart (h : Apart n (numbersOf s.heddle)) : Apart n (numbersOf (destroyAllSlices s).heddle) :=
  destroySlices_apart (fun x => (x.port, x.idx)) false _ h

@[simp] theorem removeFunction_apart (p : PortId) (h : Apart n (numbersOf s.heddle)) : Apart n (numbersOf (removeFunction p s).heddle) := by
  simp [removeFunction, h]

@[simp] theorem detachFunction_apart (p : PortId) (h : Apart n (numbersOf s.heddle)) : Apart n (numbersOf (detachFunction p s).heddle) := by
  simp [detachFunction, h]

@[simp] theorem resetFunction_apart (p : PortId) (keep : Port → Port) (h : Apart n (numbersOf s.heddle)) :
    Apart n (numbersOf (resetFunction p keep s).heddle) :=
  settleAfterLeave_apart (removeFunction_apart p h)

@[simp] theorem abandonAdmin_apart (st : Status) (h : Apart n (numbersOf s.heddle)) : Apart n (numbersOf (abandonAdmin st s).heddle) := by
  unfold abandonAdmin
  extract_lets s₁
  have h₁ : Apart n (numbersOf s₁.heddle) := foldl_apart (fun _ _ _ h => destroySlice_apart _ _ _ h) h
  refine foldl_apart (fun s p _ h => ?_) h₁
  (repeat' split) <;> simp [h]

/-! ### Plans -/

@[simp] theorem planFallMode_apart (h : Apart n (numbersOf s.heddle)) : Apart n (numbersOf (planFallMode s).heddle) := by
  unfold planFallMode
  split
  · extract_lets woken mode s₁ s₂
    have h₁ : Apart n (numbersOf s₁.heddle) := by
      unfold s₁
      split
      · exact (setMode_heddle .wake 1 s).symm ▸ h
      · exact h
    have h₂ : Apart n (numbersOf s₂.heddle) := by
      refine foldl_apart (fun s p _ h => ?_) h₁
      split <;> simp [h]
    simpa [bobbinOff] using h₂
  · simp [h]
  · simp [h]
  · exact h

@[simp] theorem planFall_apart (t : Plan) (h : Apart n (numbersOf s.heddle)) : Apart n (numbersOf (planFall t s).heddle) := by
  unfold planFall
  extract_lets power s₁ s₂ goneT goneS power' s₃ s₄ s₅ s₆
  have h₂ : s₂.heddle = s.heddle := by simp [s₂, s₁]
  have h₄ : Apart n (numbersOf s₄.heddle) := parkBenches_apart _ (s := s₃) (h₂ ▸ h)
  have h₅ : Apart n (numbersOf s₅.heddle) := restartWhere_apart _ _ _ h₄
  simpa using planFallMode_apart (s := s₆) h₅

@[simp] theorem replan_apart (h : Apart n (numbersOf s.heddle)) : Apart n (numbersOf (replan s).heddle) := by
  simp [replan, h]

/-! ### Alarms -/

@[simp] theorem zeroizeLine_apart (h : Apart n (numbersOf s.heddle)) : Apart n (numbersOf (zeroizeLine s).heddle) := by
  simp [zeroizeLine, stopCeremony, h]

@[simp] theorem cutTransition_heddle (st : Status) (s : State) : (cutTransition st s).heddle = s.heddle := by
  unfold cutTransition
  split
  · rfl
  · extract_lets f k bits burned s₁ fuses life s₂
    have h₂ : s₂.heddle = s.heddle := by simp [s₂, s₁, f]
    split
    · simp [h₂]
    · (repeat' split) <;> simp [h₂]

@[simp] theorem zeroizeResponse_apart (h : Apart n (numbersOf s.heddle)) : Apart n (numbersOf (zeroizeResponse s).heddle) := by
  simp [zeroizeResponse, h]

@[simp] theorem applyClass_apart (cls : Nat) (fs : List (SourceId × FenceScope)) (h : Apart n (numbersOf s.heddle)) :
    Apart n (numbersOf (applyClass cls fs s).heddle) := by
  unfold applyClass
  split
  · exact h
  · split
    · exact h
    · exact foldl_apart (fun _ f _ h => tamperFence_apart f.1 f.2 h) h
  · simp [h]
  · simp [h]

@[simp] theorem fireAll_apart (cls : SourceId → Nat) (code : Nat) (fs : List Firing) (h : Apart n (numbersOf s.heddle)) :
    Apart n (numbersOf (fireAll cls code fs s).heddle) := by
  simp [fireAll, h]

@[simp] theorem evaluate_apart (fs : List Firing) (h : Apart n (numbersOf s.heddle)) : Apart n (numbersOf (evaluate fs s).heddle) := by
  unfold evaluate
  extract_lets live held now tamper s₁
  split
  · exact h
  · split
    · exact (openPair_heddle _ s₁).symm ▸ h
    · exact fireAll_apart _ _ _ (s := s₁) h

@[simp] theorem fireRaised_apart (before : State) (h : Apart n (numbersOf s.heddle)) : Apart n (numbersOf (fireRaised before s).heddle) := by
  simp [fireRaised, h]

end Sys2Proof.Machine
end

section
/-! PROOFS. Numbers kept apart: the steward, power, the life cycle, the bobbin, routines, commits, faults and contracts (R143, R188). -/
namespace Sys2Proof.Machine
open Sys2Proof.Claims

variable {n : Nat} {x y : List Nat × Nat} {s t : State}

/-! ### The steward's end -/

@[simp] theorem abandonSteward_apart (h : Apart n (numbersOf s.heddle)) : Apart n (numbersOf (abandonSteward s).heddle) := by
  simp [abandonSteward, h]

@[simp] theorem wardenTakeover_apart (trigger : Nat) (h : Apart n (numbersOf s.heddle)) :
    Apart n (numbersOf (wardenTakeover trigger s).heddle) := by
  unfold wardenTakeover
  split
  · exact h
  · extract_lets power mode faults s₁ s₂
    have h₂ : Apart n (numbersOf s₂.heddle) := by simp [s₂, s₁, h]
    (repeat' split) <;> simp [h₂]

/-! ### Power and the life cycle -/

theorem reset_apart : Apart 0 (numbersOf State.reset.heddle) := by simp [Apart, numbersOf, State.reset]

theorem powerUp_apart (s : State) : Apart 0 (numbersOf (powerUp s).heddle) := by
  unfold powerUp
  extract_lets ch valid slots reset flash backup t₁ power t₂ t₃
  have h₃ : Apart 0 (numbersOf t₃.heddle) := by
    unfold t₃
    split
    · exact reset_apart
    · exact (raise0_heddle _ t₂).symm ▸ reset_apart
  split
  · exact evaluate_apart _ h₃
  · exact h₃

theorem powerDown_apart (s : State) : Apart 0 (numbersOf (powerDown s).heddle) := by
  unfold powerDown
  extract_lets b s₁ cell slots _ flash reset fuses backup t
  split
  · exact reset_apart
  · exact (loseBackup_heddle t).symm ▸ reset_apart

theorem readLifeCycle_apart (h : Apart n (numbersOf s.heddle)) : Apart n (numbersOf (readLifeCycle s).heddle) := by
  unfold readLifeCycle
  extract_lets r st fuses life s₁ mode s₂
  have h₂ : s₂.heddle = s.heddle := by
    unfold s₂
    split <;> rfl
  split
  · exact evaluate_apart _ (h₂.symm ▸ h)
  · exact h₂.symm ▸ h

@[simp] theorem newFamily_apart (d : Draft) (h : Apart n (numbersOf s.heddle)) : Apart n (numbersOf (newFamily d s).heddle) :=
  destroyAllSlices_apart h

@[simp] theorem loadDraft_apart (src : Nat) (other_ re : Bool) (whole : Draft) (h : Apart n (numbersOf s.heddle)) :
    Apart n (numbersOf (loadDraft src other_ re whole s).heddle) := by
  unfold loadDraft
  extract_lets d other s₁ first cls _ _ _ _ s₂ s₃
  have h₁ : Apart n (numbersOf s₁.heddle) := by
    unfold s₁
    split <;> simp [clampApplied, h]
  simpa [s₃, enterPlanUnits] using h₁

@[simp] theorem draftRead_apart (readOk : Bool) (src : Nat) (other re : Bool) (h : Apart n (numbersOf s.heddle)) :
    Apart n (numbersOf (draftRead readOk src other re s).heddle) := by
  unfold draftRead
  dsimp only
  split <;> simp [h]

@[simp] theorem selfTest_apart (r : SelfTest) (clear re : Bool) (h : Apart n (numbersOf s.heddle)) :
    Apart n (numbersOf (selfTest r clear re s).heddle) := by
  simp [selfTest, h]

@[simp] theorem wipeForExit_apart (target : Nat) (h : Apart n (numbersOf s.heddle)) : Apart n (numbersOf (wipeForExit target s).heddle) := by
  simp [wipeForExit, h]

@[simp] theorem endTransition_apart (t : Transition) (h : Apart n (numbersOf s.heddle)) : Apart n (numbersOf (endTransition t s).heddle) := by
  unfold endTransition
  extract_lets life s₁ s₂
  have h₂ : Apart n (numbersOf s₂.heddle) := by simp [s₂, s₁, burnTo, life, h]
  split <;> simp [h₂]

@[simp] theorem enterTestRoot_apart (h : Apart n (numbersOf s.heddle)) : Apart n (numbersOf (enterTestRoot s).heddle) := by
  simp [enterTestRoot, h]

/-! ### The steward's work -/

@[simp] theorem debugResponse_apart (p : PortId) (seq : BitVec 16) (t : Token) (h : Apart n (numbersOf s.heddle)) :
    Apart n (numbersOf (debugResponse p seq t s).heddle) := by
  unfold debugResponse
  extract_lets r stood s₁ life s₂
  have h₂ : s₂.heddle = s.heddle := by
    simp [s₂, s₁]
  simp [h₂, h]

@[simp] theorem takeWork_apart (p : PortId) (seq : BitVec 16) (w : StewardWork) (h : Apart n (numbersOf s.heddle)) :
    Apart n (numbersOf (takeWork p seq w s).heddle) := by
  unfold takeWork
  split <;> simp [h]

@[simp] theorem takeWaiting_apart (h : Apart n (numbersOf s.heddle)) : Apart n (numbersOf (takeWaiting s).heddle) := by
  unfold takeWaiting
  (repeat' split) <;> simp [h]

@[simp] theorem arriveWork_apart (p : PortId) (seq : BitVec 16) (w : StewardWork) (h : Apart n (numbersOf s.heddle)) :
    Apart n (numbersOf (arriveWork p seq w s).heddle) := by
  simp [arriveWork, h]

/-! ### The bobbin -/

@[simp] theorem failWaiting_apart (h : Apart n (numbersOf s.heddle)) : Apart n (numbersOf (failWaiting s).heddle) := by
  unfold failWaiting
  split
  · exact h
  · extract_lets s₁ s₂ s₃
    have h₂ : s₂.heddle = s₁.heddle := by
      refine foldl_heddle _ s₁ fun s p => ?_
      split <;> simp
    exact settleAfterLeave_apart (by simp [s₃, h₂, s₁, h])

@[simp] theorem bobbinFails_apart (h : Apart n (numbersOf s.heddle)) : Apart n (numbersOf (bobbinFails s).heddle) := by
  simp [bobbinFails, h]

@[simp] theorem releaseSeedWaits_apart (h : Apart n (numbersOf s.heddle)) : Apart n (numbersOf (releaseSeedWaits s).heddle) := by
  simp [releaseSeedWaits, h]

/-! ### Routines and commits -/

@[simp] theorem routineFault_apart (i : Item) (h : Apart n (numbersOf s.heddle)) : Apart n (numbersOf (routineFault i s).heddle) := by
  unfold routineFault
  split <;> simp [h]

@[simp] theorem routineEnds_apart (e : Engine) (h : Apart n (numbersOf s.heddle)) : Apart n (numbersOf (routineEnds e s).heddle) := by
  unfold routineEnds
  split <;> simp [h]

@[simp] theorem routineCycle_apart (k : LoomId) (i : Item) (h : Apart n (numbersOf s.heddle)) :
    Apart n (numbersOf (routineCycle k i s).heddle) := by
  unfold routineCycle
  extract_lets c s₁ s₂
  have h₂ : s₂.heddle = s.heddle := by
    unfold s₂
    split <;> simp [s₁]
  split <;> simp [h₂, h]

@[simp] theorem loomCycles_apart (k : Nat) (m : LoomId) (h : Apart n (numbersOf s.heddle)) : Apart n (numbersOf (loomCycles k m s).heddle) := by
  induction k generalizing s with
  | zero => exact h
  | succ k ih =>
    unfold loomCycles
    split
    · exact h
    · exact ih (routineCycle_apart _ _ h)

@[simp] theorem passTo_apart (t : Nat) (h : Apart n (numbersOf s.heddle)) : Apart n (numbersOf (passTo t s).heddle) :=
  foldl_apart (s := advanceTo t s) (fun _ _ _ h => loomCycles_apart _ _ h) (by simpa [advanceTo] using h)

@[simp] theorem countLoomMismatch_apart (k : LoomId) (lane : Option (Fin 8)) (h : Apart n (numbersOf s.heddle)) :
    Apart n (numbersOf (countLoomMismatch k lane s).heddle) := by
  unfold countLoomMismatch
  extract_lets s₁
  split
  · exact h
  · exact fenceUnits_apart _ _ _ _ _ (s := s₁) h

@[simp] theorem loomMismatch_apart (k : LoomId) (lane : Option (Fin 8)) (h : Apart n (numbersOf s.heddle)) :
    Apart n (numbersOf (loomMismatch k lane s).heddle) := by
  simp [loomMismatch, h]

@[simp] theorem selvMismatch_apart (u : SelvId) (h : Apart n (numbersOf s.heddle)) : Apart n (numbersOf (selvMismatch u s).heddle) := by
  unfold selvMismatch
  extract_lets fenced s₁ s₂ s₃
  have h₁ : Apart n (numbersOf s₁.heddle) := by simpa [s₁] using h
  have h₂ : Apart n (numbersOf s₂.heddle) := restartAllOn_apart true _ h₁
  split
  · exact h₁
  · split
    · exact h₂
    · exact fenceUnits_apart _ _ _ _ _ (s := s₃) h₂

@[simp] theorem fenceTrestle_apart (t : TrestleId) (h : Apart n (numbersOf s.heddle)) : Apart n (numbersOf (fenceTrestle t s).heddle) := by
  simp [fenceTrestle, h]

@[simp] theorem countTrestleMismatch_apart (t : TrestleId) (h : Apart n (numbersOf s.heddle)) :
    Apart n (numbersOf (countTrestleMismatch t s).heddle) := by
  unfold countTrestleMismatch
  extract_lets s₁
  split
  · exact h
  · exact fenceTrestle_apart t (s := s₁) h

/-- The item whose check failed is one that is there. -/
theorem trestleMismatch_apart (t : TrestleId) {i : Item} (hi : i ∈ s.heddle.items) (h : Apart n (numbersOf s.heddle)) :
    Apart n (numbersOf (trestleMismatch t i s).heddle) :=
  h.now fun h => countTrestleMismatch_apart t (restartItem_apart true _ (h.lt hi) (by simpa using h))

theorem bothMismatch_apart (k : LoomId) (lane : Option (Fin 8)) (t : TrestleId) {i : Item} (hi : i ∈ s.heddle.items)
    (h : Apart n (numbersOf s.heddle)) : Apart n (numbersOf (bothMismatch k lane t i s).heddle) :=
  h.now fun h => countTrestleMismatch_apart t (countLoomMismatch_apart k lane (restartItem_apart true _ (h.lt hi) (by simpa using h)))

theorem commitLoom_apart (k : LoomId) (cycles : Nat) {i : Item} (r : ItemResult) (hi : i ∈ s.heddle.items)
    (h : Apart n (numbersOf s.heddle)) : Apart n (numbersOf (commitLoom k cycles i r s).heddle) := by
  unfold commitLoom
  split
  · simp [h]
  · split
    · exact h
    · split
      · exact settleAfterLeave_apart (bothMismatch_apart _ _ _ hi h)
      · simp [h]
      · exact settleAfterLeave_apart (trestleMismatch_apart _ hi h)
      · simp [h]

theorem commitRoutine_apart (k : LoomId) (cycles : Nat) {i : Item} (hi : i ∈ s.heddle.items) (h : Apart n (numbersOf s.heddle)) :
    Apart n (numbersOf (commitRoutine k cycles i s).heddle) := by
  have hcommit (c : Nat) (r : ItemResult) := commitLoom_apart k c r hi h
  unfold commitRoutine
  dsimp only
  (repeat' split) <;> simp [h, hcommit]

theorem commitOther_apart (e : Engine) (cycles : Nat) {i : Item} (r : ItemResult) (hi : i ∈ s.heddle.items)
    (h : Apart n (numbersOf s.heddle)) : Apart n (numbersOf (commitOther e cycles i r s).heddle) := by
  unfold commitOther
  split
  · simp [h]
  · exact settleAfterLeave_apart (trestleMismatch_apart _ hi h)
  · simp [h]
  · simp [h]

@[simp] theorem commitOn_apart (e : Engine) (cycles : Nat) (h : Apart n (numbersOf s.heddle)) :
    Apart n (numbersOf (commitOn e cycles s).heddle) := by
  unfold commitOn
  split
  · exact h
  · next i hi =>
    have hmem := mem_of_servingOn hi
    split
    · exact commitRoutine_apart _ _ hmem h
    · exact commitOther_apart _ _ _ hmem h
    · exact h

@[simp] theorem duplicateMismatch_apart (e : Engine) (h : Apart n (numbersOf s.heddle)) :
    Apart n (numbersOf (duplicateMismatch e s).heddle) := by
  unfold duplicateMismatch
  split <;> simp [h]

@[simp] theorem verifyMismatch_apart (k : LoomId) (found : VerifyFinding) (h : Apart n (numbersOf s.heddle)) :
    Apart n (numbersOf (verifyMismatch k found s).heddle) := by
  unfold verifyMismatch
  split
  · exact h
  · next i hi =>
    split
    · exact settleAfterLeave_apart (bothMismatch_apart _ _ _ (mem_of_servingOn hi) h)
    · simp [h]

/-! ### Faults -/

@[simp] theorem benchFault_apart (b : BenchId) (h : Apart n (numbersOf s.heddle)) : Apart n (numbersOf (benchFault b s).heddle) := by
  simp [benchFault, h]

@[simp] theorem loomFault_apart (k : LoomId) (cacheOnly : Bool) (h : Apart n (numbersOf s.heddle)) :
    Apart n (numbersOf (loomFault k cacheOnly s).heddle) := by
  simp [loomFault, h]

@[simp] theorem trestleFault_apart (t : TrestleId) (hit : Item → Bool) (h : Apart n (numbersOf s.heddle)) :
    Apart n (numbersOf (trestleFault t hit s).heddle) := by
  unfold trestleFault
  extract_lets fenced s₁ victims
  have h₁ : Apart n (numbersOf s₁.heddle) := by simpa [s₁] using h
  split
  · exact h₁
  · exact fenceTrestle_apart t (restartItems_apart true _ _ h₁)

@[simp] theorem selvFault_apart (u : SelvId) (keyStore : Bool) (h : Apart n (numbersOf s.heddle)) :
    Apart n (numbersOf (selvFault u keyStore s).heddle) := by
  simp [selvFault, h]

@[simp] theorem shuttleFault_apart (p : PortId) (h : Apart n (numbersOf s.heddle)) : Apart n (numbersOf (shuttleFault p s).heddle) := by
  unfold shuttleFault
  extract_lets fenced s₁ keep s₂ s₃
  have h₁ : Apart n (numbersOf s₁.heddle) := by simpa [s₁] using h
  have h₂ : Apart n (numbersOf s₂.heddle) := resetFunction_apart p keep h₁
  have h₃ : s₃.heddle = s₂.heddle := by
    unfold s₃
    split <;> simp
  split
  · exact h₁
  · simpa only [h₃] using h₂

/-- An item that is looked up and restarts where it is in service. -/
theorem restartFound_apart {id : Nat} {i : Item} (hi : findItem s id = some i) (h : Apart n (numbersOf s.heddle)) :
    Apart n (numbersOf (restartItem true [] i s).heddle) :=
  h.now fun h => restartItem_apart true [] (h.lt (findItem_mem hi).1) h

@[simp] theorem instanceFault_apart (i : InstId) (drawing : Option Nat) (h : Apart n (numbersOf s.heddle)) :
    Apart n (numbersOf (instanceFault i drawing s).heddle) := by
  unfold instanceFault
  extract_lets s₁ s₂ s₃
  have h₃ : Apart n (numbersOf s₃.heddle) := by
    unfold s₃
    split <;> simp [s₂, s₁, h]
  split
  · next x hx =>
    obtain ⟨id, -, hid⟩ := Option.bind_eq_some_iff.mp hx
    split
    · exact restartFound_apart hid h₃
    · exact h₃
  · exact h₃

@[simp] theorem conditionerFault_apart (h : Apart n (numbersOf s.heddle)) : Apart n (numbersOf (conditionerFault s).heddle) := by
  simp [conditionerFault, h]

@[simp] theorem fabricFault_apart (load : FabricLoad) (h : Apart n (numbersOf s.heddle)) :
    Apart n (numbersOf (fabricFault load s).heddle) := by
  unfold fabricFault
  extract_lets s₁
  have h₁ : Apart n (numbersOf s₁.heddle) := by simpa [s₁] using h
  split
  · split
    · next hi =>
      split
      · exact restartFound_apart hi h₁
      · exact h₁
    · exact h₁
  · split <;> simp [h₁]
  · exact h₁

@[simp] theorem uncorrectable_apart (r : UeReport) (h : Apart n (numbersOf s.heddle)) : Apart n (numbersOf (uncorrectable r s).heddle) := by
  cases r <;> simp [uncorrectable, h]

@[simp] theorem errorAct_apart (ms : List Trigger) (r : UeReport) (h : Apart n (numbersOf s.heddle)) :
    Apart n (numbersOf (errorAct ms r s).heddle) := by
  unfold errorAct
  split <;> simp [h]

@[simp] theorem lockstepAct_apart (trigger : Nat) (h : Apart n (numbersOf s.heddle)) : Apart n (numbersOf (lockstepAct trigger s).heddle) := by
  simp [lockstepAct, h]

@[simp] theorem heartbeatAct_apart (h : Apart n (numbersOf s.heddle)) : Apart n (numbersOf (heartbeatAct s).heddle) := by
  simp [heartbeatAct, h]

/-! ### Ageing, contracts -/

@[simp] theorem clockStep_apart (b : BenchId) (h : Apart n (numbersOf s.heddle)) : Apart n (numbersOf (clockStep b s).heddle) := by
  simp [clockStep, h]

@[simp] theorem replanBench_apart (b : BenchId) (c : BenchCal) (h : Apart n (numbersOf s.heddle)) :
    Apart n (numbersOf (replanBench b c s).heddle) := by
  unfold replanBench
  extract_lets x ev
  have hev (code : Nat) {s : State} (h : Apart n (numbersOf s.heddle)) : Apart n (numbersOf (ev code s).heddle) := by simpa [ev] using h
  split
  · exact h
  · split
    · exact hev 6 (s := modBench b _ s) h
    · split
      · exact hev 7 (clockStep_apart b h)
      · exact hev 8 (fenceUnits_apart _ _ _ _ _ (s := modBench b _ s) h)

@[simp] theorem ageingDone_apart (b : BenchId) (slack tj : Int) (h : Apart n (numbersOf s.heddle)) :
    Apart n (numbersOf (ageingDone b slack tj s).heddle) := by
  unfold ageingDone
  extract_lets x s₁
  split
  · exact h
  · split
    · exact h
    · split
      · exact h
      · split
        · exact h
        · exact settleAfterLeave_apart (replanBench_apart b _ (s := modBench b _ s₁) h)

@[simp] theorem replanIfOn_apart (h : Apart n (numbersOf s.heddle)) : Apart n (numbersOf (replanIfOn s).heddle) := by
  simp [replanIfOn, h]

@[simp] theorem settleIfOn_apart (h : Apart n (numbersOf s.heddle)) : Apart n (numbersOf (settleIfOn s).heddle) := by
  simp [settleIfOn, h]

@[simp] theorem replaceContract_apart (p : PortId) (c : Contract) (h : Apart n (numbersOf s.heddle)) :
    Apart n (numbersOf (replaceContract p c s).heddle) := by
  simp [replaceContract, h]

@[simp] theorem portDetach_apart (p : PortId) (linkOnly bulkLow : Bool) (h : Apart n (numbersOf s.heddle)) :
    Apart n (numbersOf (portDetach p linkOnly bulkLow s).heddle) := by
  unfold portDetach
  extract_lets gone
  have hgone : gone.heddle = s.heddle := by
    unfold gone
    split <;> rfl
  have hreplan : Apart n (numbersOf (replan gone).heddle) := replan_apart (hgone ▸ h)
  simp [h, hgone, hreplan]

@[simp] theorem contractDrop_apart (p : PortId) (volts current : Nat) (bulkLow : Bool) (h : Apart n (numbersOf s.heddle)) :
    Apart n (numbersOf (contractDrop p volts current bulkLow s).heddle) := by
  simp [contractDrop, h]

@[simp] theorem throttleOne_apart (h : Apart n (numbersOf s.heddle)) : Apart n (numbersOf (throttleOne s).heddle) := by
  unfold throttleOne
  split <;> simp [h]

end Sys2Proof.Machine
end

section
/-! PROOFS. Numbers kept apart: fetches, completions, triggers that meet, beats and admin commands (R143, R188). -/
namespace Sys2Proof.Machine
open Sys2Proof.Claims

variable {n : Nat} {s t : State}

/-! ### New numbers -/

/-- An item of the next number is fetched. -/
theorem apart_fetched {ids : List Nat} {k : Nat} (h : Apart n (ids, k)) : Apart n (ids ++ [k], k + 1) := by
  obtain ⟨hnodup, hbelow, hn⟩ := h
  have hnew : (k :: ids).Nodup := List.nodup_cons.mpr ⟨fun hk => lt_irrefl k (hbelow k hk), hnodup⟩
  refine ⟨(List.perm_append_singleton k ids).nodup_iff.mpr hnew, fun j hj => ?_, Nat.le_succ_of_le hn⟩
  rcases List.mem_append.mp hj with hj | hj
  · exact Nat.lt_succ_of_lt (hbelow j hj)
  · exact List.mem_singleton.mp hj ▸ Nat.lt_succ_self k

/-- The next number goes to something that is no item. -/
theorem apart_taken {ids : List Nat} {k : Nat} (h : Apart n (ids, k)) : Apart n (ids, k + 1) := by
  obtain ⟨hnodup, hbelow, hn⟩ := h
  exact ⟨hnodup, fun j hj => Nat.lt_succ_of_lt (hbelow j hj), Nat.le_succ_of_le hn⟩

@[simp] theorem placeItem_apart (id : Nat) (random : Bool) (h : Apart n (numbersOf s.heddle)) :
    Apart n (numbersOf (placeItem id random s).heddle) := by
  unfold placeItem
  split <;> simp [h]

@[simp] theorem takeEntry_apart (q : Queue) (x : Slice) (f : Fetched) (h : Apart n (numbersOf s.heddle)) :
    Apart n (numbersOf (takeEntry q x f s).heddle) := by
  unfold takeEntry
  extract_lets id e info fail claim named i s₁ items s₂ s₃ s₄
  have h₂ : Apart n (numbersOf s₂.heddle) := by simpa [s₂, items, s₁, numbersOf, i, id] using apart_fetched h
  have h₄ : s₄.heddle = s₂.heddle := by
    unfold s₄
    cases claim <;> simp [s₃]
  cases fail <;> simp [h₄, h₂]

@[simp] theorem takeEntries_apart (p : PortId) (k : Nat) (l : List Fetched) (h : Apart n (numbersOf s.heddle)) :
    Apart n (numbersOf (takeEntries p k l s).1.heddle) := by
  induction l generalizing s with
  | nil => exact h
  | cons f l ih =>
    unfold takeEntries
    split
    · exact h
    · split
      · exact h
      · split
        · exact h
        · split
          · exact h
          · exact ih (by simp [h])

@[simp] theorem workRead_apart (p : PortId) (k count : Nat) (r : RingResult) (h : Apart n (numbersOf s.heddle)) :
    Apart n (numbersOf (workRead p k count r s).heddle) := by
  unfold workRead
  extract_lets s₁
  split
  · simp [s₁, h]
  · simpa using takeEntries_apart (s := s₁) p k _ h

@[simp] theorem takeAdmin_apart (p : PortId) (f : Fetched) (h : Apart n (numbersOf s.heddle)) : Apart n (numbersOf (takeAdmin p f s).heddle) := by
  unfold takeAdmin
  extract_lets id a x heddle s₁ s₂
  have h₂ : Apart n (numbersOf s₂.heddle) := apart_taken h
  (repeat' split) <;> simp [h₂]

@[simp] theorem adminRead_apart (p : PortId) (r : RingResult) (h : Apart n (numbersOf s.heddle)) : Apart n (numbersOf (adminRead p r s).heddle) := by
  unfold adminRead
  extract_lets may s₁
  have h₁ : Apart n (numbersOf s₁.heddle) := h
  (repeat' split) <;> simp [h₁]

@[simp] theorem debugChallenge_apart (p : PortId) (seq : BitVec 16) (h : Apart n (numbersOf s.heddle)) :
    Apart n (numbersOf (debugChallenge p seq s).heddle) := by
  unfold debugChallenge
  split
  · simp [h]
  · split
    · simp [h]
    · split
      · simp [h]
      · split
        · simp [h]
        · exact apart_taken h

/-! ### Completions -/

@[simp] theorem outputFault_apart (e : Engine) (h : Apart n (numbersOf s.heddle)) : Apart n (numbersOf (outputFault e s).heddle) := by
  unfold outputFault
  split <;> simp [h]

@[simp] theorem writeItem_apart (i : Item) (d : Done) (w : WriteBack) (h : Apart n (numbersOf s.heddle)) :
    Apart n (numbersOf (writeItem i d w s).heddle) := by
  unfold writeItem
  extract_lets ats pasid again d' s₁ s₂ s₃ s₄ s₅ s₆ r s₇
  have h₁ : Apart n (numbersOf s₁.heddle) := by
    unfold s₁
    (repeat' split) <;> simp [h]
  have h₄ : s₄.heddle = s₁.heddle := by simp [s₄, s₃, s₂, writeOutput, outputBytes]
  have h₆ : Apart n (numbersOf s₆.heddle) := dropItems_apart _ (h₄.symm ▸ h₁)
  split
  · simp [h₆]
  · simp [s₇, h₆]

@[simp] theorem writeAdmin_heddle (p : PortId) (x : AdminEntry) (d : Done) (w : WriteBack) (s : State) :
    (writeAdmin p x d w s).heddle = s.heddle := by
  simp [writeAdmin]

@[simp] theorem writeCompletion_apart (id : Nat) (outcome : WriteBack) (h : Apart n (numbersOf s.heddle)) :
    Apart n (numbersOf (writeCompletion id outcome s).heddle) := by
  unfold writeCompletion
  (repeat' split) <;> simp [h]

/-! ### Triggers that meet -/

@[simp] theorem endPair_apart (pair : Nat) (qualifying : List SourceId) (h : Apart n (numbersOf s.heddle)) :
    Apart n (numbersOf (endPair pair qualifying s).heddle) := by
  unfold endPair
  (repeat' split) <;> simp [secondDecision, h]

@[simp] theorem stimulusFails_apart (src : SourceId) (h : Apart n (numbersOf s.heddle)) :
    Apart n (numbersOf (stimulusFails src s).heddle) :=
  fireAll_apart _ _ _ (s := { s with tamper := _ }) h

@[simp] theorem endWindow_apart (src : SourceId) (responded stillActive : Bool) (h : Apart n (numbersOf s.heddle)) :
    Apart n (numbersOf (endWindow src responded stillActive s).heddle) := by
  unfold endWindow
  extract_lets real before tamper s₁ tamper' s₂ tamper'' s₃
  have h₂ : Apart n (numbersOf s₂.heddle) := by
    unfold s₂
    split
    · exact h
    · exact stimulusFails_apart src h
  have h₃ : Apart n (numbersOf s₃.heddle) := by
    unfold s₃
    split
    · exact evaluate_apart _ h₂
    · exact h₂
  exact h₃

@[simp] theorem windowEnds_apart (src : SourceId) (responded stillActive : Bool) (h : Apart n (numbersOf s.heddle)) :
    Apart n (numbersOf (windowEnds src responded stillActive s).heddle) := by
  simp [windowEnds, h]

@[simp] theorem senseAll_apart (fs : List Firing) (h : Apart n (numbersOf s.heddle)) : Apart n (numbersOf (senseAll fs s).heddle) := by
  simp [senseAll, h]

theorem fallMeeting_apart (ms : List Trigger) (s : State) : Apart 0 (numbersOf (fallMeeting ms s).heddle) := by
  simp [fallMeeting, powerDown_apart]

theorem triggerAct_apart (ms : List Trigger) (m : Trigger) (h : Apart 0 (numbersOf s.heddle)) :
    Apart 0 (numbersOf (triggerAct ms m s).heddle) := by
  cases m <;> simp [triggerAct, fallMeeting_apart, h]

theorem resolveTriggers_apart (ms : List Trigger) (h : Apart 0 (numbersOf s.heddle)) : Apart 0 (numbersOf (resolveTriggers ms s).heddle) := by
  refine foldl_apart (fun s l _ h => foldl_apart (fun s m _ h => triggerAct_apart ms m h) ?_) h
  dsimp only
  split <;> simp [h]

@[simp] theorem beatAt_apart (t : Nat) (h : Apart n (numbersOf s.heddle)) : Apart n (numbersOf (beatAt t s).heddle) := by
  unfold beatAt
  extract_lets s₁ s₂ s₃ s₄
  have h₁ : s₁.heddle = s.heddle := by simp [s₁]
  have h₂ : Apart n (numbersOf s₂.heddle) := by simp [s₂, h₁, h]
  simp [s₄, s₃, h₂]

theorem reachBeat_apart (t : Nat) (meets : List Trigger) (h : Apart 0 (numbersOf s.heddle)) :
    Apart 0 (numbersOf (reachBeat t meets s).heddle) := by
  have h₁ := settleAfterLeave_apart (resolveTriggers_apart meets h)
  unfold reachBeat
  dsimp only
  split
  · exact h₁
  · exact beatAt_apart t h₁

theorem nextBeat_apart (meets : List Trigger) (h : Apart 0 (numbersOf s.heddle)) : Apart 0 (numbersOf (nextBeat meets s).heddle) :=
  takeWaiting_apart (reachBeat_apart _ meets (passTo_apart _ h))

theorem meetAll_apart (ms : List Trigger) (h : Apart 0 (numbersOf s.heddle)) : Apart 0 (numbersOf (meetAll ms s).heddle) := by
  unfold meetAll
  split
  · exact nextBeat_apart ms h
  · exact settleAfterLeave_apart (resolveTriggers_apart ms h)

theorem tick_apart (h : Apart 0 (numbersOf s.heddle)) : Apart 0 (numbersOf (tick s).heddle) := by
  unfold tick
  split
  · simp [h]
  · extract_lets t s₁
    have h₁ : Apart 0 (numbersOf s₁.heddle) := passTo_apart t h
    refine takeWaiting_apart ?_
    split
    · exact reachBeat_apart t [] h₁
    · exact h₁

/-! ### Admin commands, the debug port -/

@[simp] theorem adminCommand_apart (p : PortId) (code : Nat) (act : AdminEntry → State → State)
    (hact : ∀ e t, Apart n (numbersOf t.heddle) → Apart n (numbersOf (act e t).heddle)) (h : Apart n (numbersOf s.heddle)) :
    Apart n (numbersOf (adminCommand p code act s).heddle) := by
  unfold adminCommand
  (repeat' split) <;> simp [h, hact]

theorem destroySliceAct_apart (p : PortId) (e : AdminEntry) (h : Apart n (numbersOf s.heddle)) :
    Apart n (numbersOf (destroySliceAct p e s).heddle) := by
  unfold destroySliceAct
  split <;> simp [h]

@[simp] theorem freezeSlice_apart (p : PortId) (i : SliceIdx) (h : Apart n (numbersOf s.heddle)) :
    Apart n (numbersOf (freezeSlice p i s).heddle) := by
  unfold freezeSlice
  extract_lets s₁ s₂ held
  have h₂ : Apart n (numbersOf s₂.heddle) := h
  exact settleAfterLeave_apart (by simpa using h₂)

theorem freezeSliceAct_apart (p : PortId) (e : AdminEntry) (h : Apart n (numbersOf s.heddle)) :
    Apart n (numbersOf (freezeSliceAct p e s).heddle) := by
  unfold freezeSliceAct
  split
  · simp [h]
  · split
    · simp [h]
    · next x _ =>
      extract_lets s₁
      have h₁ : Apart n (numbersOf s₁.heddle) := freezeSlice_apart p x.idx (s := modPort p _ s) h
      (repeat' split) <;> simp [h, h₁]

end Sys2Proof.Machine
end

section
/-! PROOFS. Numbers kept apart by the operations (R143, R188). -/
namespace Sys2Proof.Machine
open Sys2Proof.Claims

variable {n : Nat} {s t : State}

@[simp] theorem loadUnit_heddle (i : Item) (input drawn : Bytes) (s : State) : (loadUnit i input drawn s).heddle = s.heddle := by
  rw [loadUnit_frame]

@[simp] theorem loadPart_heddle (i : Item) (fam set : Nat) (secret operands : Bytes) (s : State) :
    (loadPart i fam set secret operands s).heddle = s.heddle := by
  rw [loadPart_frame]

theorem runOp_apart {fam op : Nat} {e : Engine} {input : Bytes} {f : Item → State → ItemResult × State}
    (h : Apart n (numbersOf s.heddle)) (hf : ∀ i s, (f i s).2.heddle = s.heddle) :
    Apart n (numbersOf (runOp fam op e input f s).heddle) := by
  unfold runOp
  (repeat' split) <;> simp [h, hf]

theorem runDrawOp_apart {fam op : Nat} {bytes : Item → Nat} {e : Engine} {input : Bytes}
    {f : Item → Bytes → State → ItemResult × State} (h : Apart n (numbersOf s.heddle)) (hf : ∀ i d s, (f i d s).2.heddle = s.heddle) :
    Apart n (numbersOf (runDrawOp fam op bytes e input f s).heddle) := by
  unfold runDrawOp
  (repeat' split) <;> simp [h, hf]

/-- Draws repeated over a list, of which the last bytes count. -/
theorem repeatedDraws_heddle {α : Type} {f : State → Bytes × State} (hf : ∀ s, (f s).2.heddle = s.heddle) (l : List α)
    (x : Bytes × State) : (l.foldl (fun (x : Bytes × State) _ => f x.2) x).2.heddle = x.2.heddle :=
  foldl_heddle_of Prod.snd (fun x _ => hf x.2) l x

theorem streamFault_apart (op : Nat) (e : Engine) (h : Apart n (numbersOf s.heddle)) : Apart n (numbersOf (streamFault op e s).heddle) := by
  unfold streamFault
  split
  · exact h
  · split
    · extract_lets missed
      have hmissed (s : State) : (missed s).heddle = s.heddle := by
        unfold missed
        (repeat' split) <;> simp
      simp [hmissed, h]
    · exact h

theorem signWith_apart (op : Nat) (variant : Item → Nat) (e : Engine) (input : Bytes) (h : Apart n (numbersOf s.heddle)) :
    Apart n (numbersOf (execSignWith op variant e input s).heddle) := by
  unfold execSignWith
  split
  · split
    · exact runOp_apart h fun _ _ => rfl
    · exact runDrawOp_apart h fun _ _ _ => rfl
  · exact h

theorem slhSignWith_apart (op : Nat) (variant : Item → Nat) (e : Engine) (input : Bytes) (h : Apart n (numbersOf s.heddle)) :
    Apart n (numbersOf (slhSignWith op variant e input s).heddle) := by
  unfold slhSignWith
  split
  · dsimp only
    split
    · exact runOp_apart h fun _ _ => rfl
    · exact runDrawOp_apart h fun _ _ _ => rfl
  · exact h

theorem execMcelieceKeygen_apart {e : Engine} {k : Nat} (h : Apart n (numbersOf s.heddle)) (ht : execMcelieceKeygen e k s = .next t) :
    Apart n (numbersOf t.heddle) := by
  cases ht
  split
  · exact h
  · split
    · refine routineFault_apart _ ?_
      split <;> exact h
    · refine runDrawOp_apart h fun i d s => ?_
      extract_lets set x sk pk r c s₁
      have hx : x.2.heddle = s.heddle := repeatedDraws_heddle (unitDraw_heddle i selvDraw) _ (d, s)
      show s₁.heddle = s.heddle
      unfold s₁
      split <;> exact hx

theorem execMcelieceEncaps_apart {e : Engine} {streamed : Option Bytes} (h : Apart n (numbersOf s.heddle))
    (ht : execMcelieceEncaps e streamed s = .next t) : Apart n (numbersOf t.heddle) := by
  cases ht
  split
  · exact h
  · extract_lets set hit hash
    split
    · exact streamFault_apart _ e h
    · split
      · exact h
      · refine runDrawOp_apart h fun i d s => ?_
        clear_value hit
        cases hit with
        | some c => rfl
        | none =>
          dsimp only
          (repeat' split) <;> rfl

theorem testCandidate_heddle (i : Item) (bits : Bytes) (x : List Nat × State) : (testCandidate i bits x).2.heddle = x.2.heddle := by
  unfold testCandidate
  split
  · rfl
  · exact unitDraw_heddle i _ x.2

@[simp] theorem searchPrimes_heddle (i : Item) (bits : Bytes) (k : Nat) (s : State) : (searchPrimes i bits k s).2.heddle = s.heddle :=
  foldl_heddle_of Prod.snd (fun x _ => testCandidate_heddle i bits x) _ (foundPrimes i s, s)

theorem execRsaKeygen_apart {e : Engine} {k : Nat} (h : Apart n (numbersOf s.heddle)) (ht : execRsaKeygen e k s = .next t) :
    Apart n (numbersOf t.heddle) := by
  cases ht
  split
  · exact h
  · split
    · split
      · simp [h]
      · extract_lets d s₁ x
        have hx : numbersOf x.2.heddle = numbersOf s.heddle := by
          simp only [x, searchPrimes_heddle, s₁]
          split <;> simp [d]
        split <;> simp [hx, h]
    · exact h

theorem operation_apart {c : Instr} (hc : isOperation c = true) (h : Apart n (numbersOf s.heddle)) (ht : exec c s = .next t) :
    Apart n (numbersOf t.heddle) := by
  cases c <;> cases hc
  -- the command forms a result from what the state holds
  case mlkemKeygenSeed | mlkemDecaps | mldsaKeygenSeed | mldsaVerify | mldsaVerifyPh | mldsaVerifyPk | mldsaVerifyPkPh | fndsaVerify |
      fndsaVerifyPk | slhdsaKeygenSeed | slhdsaVerify | slhdsaVerifyPh | slhdsaVerifyPk | slhdsaVerifyPkPh | lmsBuild | lmsFinish |
      lmsSign | lmsVerify | lmsVerifyPk | xmssBuild | xmssFinish | xmssSign | xmssVerify | xmssVerifyPk | tallyQuery | tallyRetire |
      mcelieceDecaps | hqcDecaps | ecdsaVerify | ecdsaVerifyPk | eddsaVerify | eddsaVerifyPk | rsaVerify | rsaVerifyPk | importPublic |
      importPrivate | keyQuery | restrict | mac | digest =>
    cases ht
    exact runOp_apart h fun _ _ => rfl
  -- and from bytes that it draws
  case mlkemKeygen | mlkemEncaps | mlkemEncapsEk | mldsaKeygen | fndsaKeygen | slhdsaKeygen | lmsKeygenStart | xmssKeygenStart |
      hqcKeygen | hqcEncaps | ecdsaKeygen | ecdsaSign | ecdhAgree | eddsaKeygen | eddsaSign | xdhKeygen | xdhAgree | rsaSign |
      rsaDecrypt | rsaEncryptPk | rsaPrivateRaw =>
    cases ht
    exact runDrawOp_apart h fun _ _ _ => rfl
  -- a trestle beside the loom takes its part
  case hybDecaps | compositeVerify | compositeVerifyPk =>
    cases ht
    exact runOp_apart h fun i s => loadPart_heddle _ _ _ _ _ _
  case hybKeygen | hybEncaps | compositeKeygen | compositeSign | attest =>
    cases ht
    exact runDrawOp_apart h fun i d s => loadPart_heddle _ _ _ _ _ _
  -- the result depends on a case
  case delete =>
    cases ht
    refine runOp_apart h fun i s => ?_
    (repeat' split) <;> rfl
  case derive =>
    cases ht
    refine runOp_apart h fun i s => ?_
    dsimp only
    split <;> rfl
  case hqcEncapsEk =>
    cases ht
    refine runDrawOp_apart h fun i d s => ?_
    split <;> rfl
  case mldsaSign | mldsaSignPh =>
    cases ht
    exact signWith_apart _ _ _ _ h
  case slhdsaSign | slhdsaSignPh =>
    cases ht
    exact slhSignWith_apart _ _ _ _ h
  case fndsaSign =>
    cases ht
    exact runDrawOp_apart h fun i d s => repeatedDraws_heddle (fun s => draw_heddle (drawInst i) 40 s) _ (d, s)
  case mcelieceKeygen => exact execMcelieceKeygen_apart h ht
  case mcelieceEncaps => exact execMcelieceEncaps_apart h ht
  case mcelieceEncapsPk =>
    cases ht
    split
    · exact streamFault_apart _ _ h
    · exact runDrawOp_apart h fun _ _ _ => rfl
  case mcelieceRegister =>
    cases ht
    split
    · exact streamFault_apart _ _ h
    · exact runOp_apart h fun _ _ => rfl
  case rsaKeygen => exact execRsaKeygen_apart h ht
  case random =>
    cases ht
    split
    · exact h
    · split
      · exact h
      · exact runDrawOp_apart h fun _ _ _ => rfl
  -- UNSEAL and SEAL, whose constructors bear names that Lean reserves
  · cases ht
    refine runOp_apart h fun i s => ?_
    split <;> rfl
  · cases ht
    refine runDrawOp_apart h fun i d s => ?_
    (repeat' split) <;> rfl

end Sys2Proof.Machine
end

section
/-! PROOFS. Numbers kept apart by every step (R143, R188). -/
namespace Sys2Proof.Machine
open Sys2Proof.Claims

variable {s t : State}

/-- The state a command ends in has its numbers apart. -/
@[simp] def EndsApart : Host.Outcome State Fault Refusal → Prop
  | .next t => Apart 0 (numbersOf t.heddle)
  | _ => True

theorem EndsApart.of_next (h : Apart 0 (numbersOf t.heddle)) : EndsApart (.next t) := h

theorem endsApart_of_heddle (h : Apart 0 (numbersOf s.heddle)) (ht : t.heddle = s.heddle) : EndsApart (.next t) := by
  simpa [ht] using h

theorem onUsb_apart (p : PortId) {act : State → State} (hact : ∀ t, Apart 0 (numbersOf t.heddle) → Apart 0 (numbersOf (act t).heddle))
    (h : Apart 0 (numbersOf s.heddle)) : Apart 0 (numbersOf (onUsb p act s).heddle) := by
  unfold onUsb
  split
  · exact hact s h
  · exact h

theorem closedPortActivity_apart (h : Apart 0 (numbersOf s.heddle)) : Apart 0 (numbersOf (closedPortActivity s).heddle) := by
  simp [closedPortActivity, h]

theorem openPortAccess_apart (a : DebugAccess) (h : Apart 0 (numbersOf s.heddle)) : EndsApart (openPortAccess a s) := by
  cases a <;> unfold openPortAccess <;> (repeat' split) <;> simp [h, flowTransition, burnTo]

theorem trestleSelfCheckMismatch_apart {t : TrestleId} (h : Apart 0 (numbersOf s.heddle)) : EndsApart (execTrestleSelfCheckMismatch t s) := by
  refine EndsApart.of_next ?_
  split
  · exact h
  · next i hi => exact settleAfterLeave_apart (trestleMismatch_apart t (List.mem_of_find?_eq_some hi) h)

theorem tallyWriteDurable_apart {record : Nat} (h : Apart 0 (numbersOf s.heddle)) : EndsApart (execTallyWriteDurable record s) := by
  refine EndsApart.of_next ?_
  split
  · exact h
  · split
    · exact h
    · extract_lets t' t'' s₁ s₂ s₃
      have h₃ : numbersOf s₃.heddle = numbersOf s.heddle := by
        unfold s₃ s₂ s₁
        (repeat' split) <;> simp [bornKey]
      simp [h₃, h]

theorem execReseedApplied_apart (i : InstId) (h : Apart 0 (numbersOf s.heddle)) : EndsApart (execReseedApplied i s) := by
  refine EndsApart.of_next ?_
  split
  · split
    · exact bobbinFails_apart (by simpa using h)
    · split
      · extract_lets x s₁ pred left bobbin d stretch s₂ s₃ s₄
        have h₁ : s₁.heddle = s.heddle := by simp [s₁]
        have h₂ : s₂.heddle = s.heddle := by simp [s₂, d, h₁]
        have h₃ : s₃.heddle = s.heddle := by simp [s₃, fillBuffers, h₂]
        have h₄ : s₄.heddle = s.heddle := by
          unfold s₄
          (repeat' split) <;> simp [h₃]
        split <;> simp [h₄, h]
      · exact h
  · exact h

theorem otherCommand_apart {c : Instr} (h : Apart 0 (numbersOf s.heddle)) (hop : isOperation c = false) (hcard : isCardCommand c = false)
    (hslot : isSlotCommand c = false) (hbobbin : isBobbinCommand c = false) : EndsApart (exec c s) := by
  cases c <;> cases hop <;> cases hcard <;> cases hslot <;> cases hbobbin <;> dsimp only [exec]
  case adminDoorbell | adminQueueEnable | adminQueueDisable | chestRemask | drawerRefresh | ceremonyTimeout | pairRetestEnd | stageCommit
    | stageDiscard | createSlice | createQueue | destroyQueue | traceConsumedWrite | linkTrained | busMasterDisable | memorySpaceDisable
    | atsEnableClear | functionLevelResetEnd | correctableError | ageingMeasure | tamperRepeat | sourceGoesInactive | tamperStimulus
    | thawSlice | saveSlice | restoreSlice | registerWrite | pwrEventsClear | readBlock =>
    exact endsApart_of_heddle h (by simp)
  case stageWrite | traceEnable | traceDisable | calRead | identityGet | recoveryLoad | cellWindow | getStatus =>
    exact endsApart_of_heddle h (by simp [stageWrite, stageField, traceEnableAct, traceDisableAct, calReadAct, identityGetAct, recoveryLoad,
      cellAlarm, getStatus])
  case commit | watchdogExpiry | routineError | verifyMismatch | duplicateRoundMismatch | lockstepMismatch | heartbeatTimeout | ageingMeasureDone
    | portDetach | contractDrop | twiceDecidedSecond | stimulusWindowEnd | completionWrite | functionLevelReset | pasidEnableChange
    | engineAsk | trestleYieldAsk =>
    exact EndsApart.of_next (by simp [h])
  case pollTick | coalesceTimeout | loomDim | ceremonyShareWrite | chestRestore | lcAdvance | draftWrite | draftSelect | rethread | hold
    | holdRelease | calWrite | tamperClear | freezeDrainDone | tamperFuse =>
    dsimp only [execPollTick, execCoalesceTimeout, execLoomDim, execCeremonyShareWrite, execChestRestore, execLcAdvance, execDraftWrite,
      execDraftSelect, execRethread, execHold, execHoldRelease, execCalWrite, execTamperClear, execFreezeDrainDone, execTamperFuse]
    (repeat' split) <;> simp [h, fuseSource]
  case ringReadComplete | seedWaitTimeout | digestCoreAsk | healthFail | fabricParityError | lcTransitionDone =>
    dsimp only [execRingReadComplete, execSeedWaitTimeout, execDigestCoreAsk, execHealthFail, execFabricParityError,
      execLcTransitionDone]
    (repeat' split) <;> simp [h]
  case loomRestore =>
    unfold execLoomRestore
    refine EndsApart.of_next ?_
    split
    · split
      · exact settleAfterLeave_apart (s := modLoom _ _ s) h
      · exact h
    · exact h
  case tallyWriteDurable => exact EndsApart.of_next (tallyWriteDurable_apart h)
  case trestleSelfCheckMismatch => exact trestleSelfCheckMismatch_apart h
  case doorbellWrite | expressDoorbell =>
    refine endsApart_of_heddle h (onWrite_heddle _ _ _ fun s => ?_)
    (repeat' split) <;> simp
  case debugChallenge => exact onUsb_apart _ (fun _ h => debugChallenge_apart _ _ h) h
  case signedAdmin | debugResponse => exact onUsb_apart _ (fun _ h => arriveWork_apart _ _ _ h) h
  case ownerSigned => exact adminCommand_apart _ _ _ (fun _ _ h => arriveWork_apart _ _ _ (s := adminWait _ _ _) h) h
  case destroySlice => exact adminCommand_apart _ _ _ (fun _ _ h => destroySliceAct_apart _ _ h) h
  case freezeSlice => exact adminCommand_apart _ _ _ (fun _ _ h => freezeSliceAct_apart _ _ h) h
  case beat =>
    unfold execBeat
    split
    · exact h
    · exact nextBeat_apart [] h
  case uncorrectableError | tamperFire =>
    dsimp only [execUncorrectableError, execTamperFire]
    split
    · exact h
    · exact meetAll_apart _ h
  case powerGood =>
    unfold execPowerGood
    split
    · exact powerUp_apart s
    · exact h
  case powerFail =>
    unfold execPowerFail
    split
    · exact h
    · exact powerDown_apart s
  case strapSample =>
    unfold execStrapSample
    split
    · exact h
    · exact readLifeCycle_apart (by simpa using h)
  case recoveryImageVerified | bobbinRestart | deviceStage | rethreadDrainDone | logRead =>
    dsimp only [execRecoveryImageVerified, execBobbinRestart, execDeviceStage, execRethreadDrainDone, execLogRead]
    (repeat' split) <;> simp [h, beginCeremony, copyToCards, beginSequence, deviceWrite, deviceCommit, beginRethread,
      logReadAct, usbLogRead]
  case eventLog | logRecordDurable | logRepeatFlush | secondsCheckpoint | backupCellLoss | draftReadDone | pathOvercurrent
    | planUpHoldExpiry | thermalSample | thermalClear | benchGate | benchStart
    | selfTestDone | contractChange =>
    dsimp only [execEventLog, execLogRecordDurable, execLogRepeatFlush, execSecondsCheckpoint, execBackupCellLoss, execDraftReadDone,
      execPathOvercurrent, execPlanUpHoldExpiry, execThermalSample,
      execThermalClear, execBenchGate, execBenchStart, execSelfTestDone, execContractChange]
    (repeat' split) <;> simp [capPath, h]
  case portAttach | sourceCapabilitiesTimeout =>
    dsimp only [execPortAttach, execSourceCapabilitiesTimeout]
    split
    · exact h
    · exact replanIfOn_apart (s := setContract _ _ s) h
  case thermalStep =>
    unfold execThermalStep
    split
    · exact h
    · exact settleAfterLeave_apart (by simpa using throttleOne_apart (throttleOne_apart h))
  case stewardFwVerified =>
    unfold execStewardFwVerified
    split <;> simp [h, commitLatch, commitLatchEntry, loadMirror, tallyScan, blankCheck]
  case debugPortAccess access =>
    unfold execDebugPortAccess
    split
    · exact openPortAccess_apart access h
    · exact closedPortActivity_apart h
  case atsInvalidation =>
    refine EndsApart.of_next ?_
    split
    · simp [h]
    · exact h
  case busMasterResume =>
    refine EndsApart.of_next ?_
    simp [h, sendHeld]
  case bobbinTestsEnd | bobbinSeeded =>
    exact EndsApart.of_next (by simp [h, excludePair, instantiateAll, moveChest])
  case reseedApplied => exact execReseedApplied_apart _ h

theorem exec_apart {c : Instr} (h : Apart 0 (numbersOf s.heddle)) (ht : exec c s = .next t) : Apart 0 (numbersOf t.heddle) := by
  cases hop : isOperation c
  · cases hcard : isCardCommand c
    · cases hslot : isSlotCommand c
      · cases hbobbin : isBobbinCommand c
        · have hends : EndsApart (exec c s) := otherCommand_apart h hop hcard hslot hbobbin
          rw [ht] at hends
          exact hends
        · rw [bobbin_heddle (bobbinCommand_keepsBobbin hbobbin ht)]
          exact h
      · rw [slots_heddle (slotCommand_keepsSlots hslot ht)]
        exact h
    · rw [cards_heddle (cardCommand_keepsCards hcard ht)]
      exact h
  · exact operation_apart hop h ht

/-- Settles O59, by what each command does to the items' numbers: an item keeps its number for as long as it is there, one that comes
back was there, and a fetch gives the next number to the item that it appends. -/
theorem itemNumbersKept : Obligations.item_numbers_kept := by
  intro s t h ht
  rw [idsApart_iff] at h ⊢
  unfold step at ht
  split at ht
  · cases ht
    exact tick_apart h
  · next rest _ => exact exec_apart (s := { s with pending := rest }) h ht

end Sys2Proof.Machine
end

section
/-! PROOFS. What a queue's counts and a fetched item keep while the heddle settles, and the entry that a read takes (R140, R143, R145,
R146, R148, R150, R160). -/
namespace Sys2Proof.Machine
open Sys2Proof.Claims

/-! ### The queue of a name, after a change of it -/

theorem findQueue_modQueue {f : Queue → Queue} (hf : ∀ x, (f x).port = x.port ∧ (f x).qnum = x.qnum ∧ (f x).installing = x.installing)
    (p r : PortId) (n m : Nat) (s : State) :
    findQueue (modQueue r m f s) p n = (findQueue s p n).map fun x => if x.port == r && x.qnum == m then f x else x := by
  have hname : ((fun x : Queue => x.port == p && x.qnum == n && !x.installing) ∘ fun x => if x.port == r && x.qnum == m then f x else x) =
      fun x => x.port == p && x.qnum == n && !x.installing := by
    funext x
    obtain ⟨hport, hnum, hlive⟩ := hf x
    dsimp only [Function.comp]
    split <;> simp [hport, hnum, hlive]
  unfold findQueue modQueue modQueues
  rw [List.find?_map, hname]

theorem findQueue_modQueue_same {p : PortId} {n : Nat} {s : State} {q : Queue} (f : Queue → Queue)
    (hf : ∀ x, (f x).port = x.port ∧ (f x).qnum = x.qnum ∧ (f x).installing = x.installing) (hq : findQueue s p n = some q) :
    findQueue (modQueue p n f s) p n = some (f q) := by
  obtain ⟨hport, hnum⟩ := findQueue_some hq
  simp [findQueue_modQueue hf, hq, hport, hnum]

theorem findQueue_of_queues {s t : State} (h : t.queues = s.queues) (p : PortId) (n : Nat) : findQueue t p n = findQueue s p n := by
  unfold findQueue
  rw [h]

/-! ### A denied read -/

theorem sendMessage_queues (p : PortId) (v : Nat) (s : State) : (sendMessage p v s).queues = s.queues := by
  unfold sendMessage
  dsimp only
  split
  · rfl
  · split <;> rfl

theorem queueMessage_of_found {p : PortId} {n : Nat} {s : State} {q : Queue} (hq : findQueue s p n = some q) :
    ∃ c, findQueue (queueMessage p n s) p n = some { q with counted := c } := by
  unfold queueMessage
  rw [hq]
  dsimp only
  split
  · refine ⟨0, ?_⟩
    rw [findQueue_of_queues (sendMessage_queues _ _ _)]
    exact findQueue_modQueue_same (fun q => { q with counted := 0 }) (fun _ => ⟨rfl, rfl, rfl⟩) hq
  · exact ⟨_, findQueue_modQueue_same (fun q => { q with counted := max 1 q.counted }) (fun _ => ⟨rfl, rfl, rfl⟩) hq⟩

/-- A denial puts a queue that has none into Error, and its read ends (R150). -/
theorem queueError_of_found {p : PortId} {n err : Nat} {s : State} {q : Queue} (hn : 0 < n) (hq : findQueue s p n = some q)
    (hstate : q.state ≠ .error) :
    ∃ y, findQueue (queueError p n err s) p n = some y ∧ y.state = .error ∧ y.err = err ∧ y.reading = none ∧ y.head = q.head := by
  unfold queueError
  rw [if_neg (by omega), hq]
  simp only [beq_iff_eq, hstate, if_false]
  obtain ⟨c, hc⟩ := queueMessage_of_found ((findQueue_of_queues (raise_queues _ _ _) p n).trans (findQueue_modQueue_same
    (fun q => { q with state := .error, err := err, scanning := false, rescan := false, reading := none }) (fun _ => ⟨rfl, rfl, rfl⟩) hq))
  exact ⟨_, hc, rfl, rfl, rfl, rfl⟩

/-- The read of a work queue returns what it asked for, or is denied. -/
theorem execRingReadComplete_work {p : PortId} {n c : Nat} {s : State} {q : Queue} {r : RingResult} (hn : 0 < n)
    (hq : findQueue s p n = some q) (hreading : q.reading = some c) (hr : ∀ es, r = .data es → es.length = c) :
    exec (.ringReadComplete p n r) s = .next (workRead p n c r s) := by
  have hn' : n ≠ 0 := by omega
  cases r with
  | denied => simp [exec, execRingReadComplete, hn', hq, hreading]
  | data es => simp [exec, execRingReadComplete, hn', hq, hreading, hr es rfl]

theorem workRead_denied {p : PortId} {n c : Nat} {s : State} {q : Queue} (hn : 0 < n) (hq : findQueue s p n = some q)
    (hstate : q.state ≠ .error) :
    (workRead p n c .denied s).heddle = s.heddle ∧
      ∃ y, findQueue (workRead p n c .denied s) p n = some y ∧ y.state = .error ∧ y.err = 1 ∧ y.reading = none ∧ y.head = q.head := by
  have hread := findQueue_modQueue_same (fun q => { q with reading := none }) (fun _ => ⟨rfl, rfl, rfl⟩) hq
  refine ⟨by simp [workRead], ?_⟩
  exact queueError_of_found (q := { q with reading := none }) hn hread hstate

/-! ### What a fetched item and its queue keep -/

/-- What an item has from its fetch to its completion. -/
def fetchedAs (i : Item) : Nat × Entry × PortId × Nat × Nat := (i.id, i.entry, i.port, i.qnum, i.index)

/-- HEAD and OWN_COUNT of every queue stand, every item is still there as it was fetched, and so is the next number. -/
structure KeepsFetched (s t : State) : Prop where
  queues : ∀ p n, (findQueue t p n).map (fun q => (q.head, q.owned)) = (findQueue s p n).map fun q => (q.head, q.owned)
  items : ∀ i ∈ s.heddle.items, ∃ j ∈ t.heddle.items, fetchedAs j = fetchedAs i
  next : t.heddle.nextId = s.heddle.nextId

theorem KeepsFetched.of_eq {s t : State} (hqueues : t.queues = s.queues) (hheddle : t.heddle = s.heddle) : KeepsFetched s t :=
  ⟨fun p n => by rw [findQueue_of_queues hqueues], fun i hi => ⟨i, hheddle ▸ hi, rfl⟩, by rw [hheddle]⟩

theorem KeepsFetched.refl (s : State) : KeepsFetched s s := .of_eq rfl rfl

theorem KeepsFetched.trans {s t u : State} (h : KeepsFetched s t) (k : KeepsFetched t u) : KeepsFetched s u where
  queues p n := (k.queues p n).trans (h.queues p n)
  items i hi := by
    obtain ⟨j, hj, hji⟩ := h.items i hi
    obtain ⟨x, hx, hxj⟩ := k.items j hj
    exact ⟨x, hx, hxj.trans hji⟩
  next := k.next.trans h.next

theorem KeepsFetched.foldl {α : Type} {f : State → α → State} (h : ∀ s a, KeepsFetched s (f s a)) (l : List α) (s : State) :
    KeepsFetched s (l.foldl f s) := by
  induction l generalizing s with
  | nil => exact .refl s
  | cons a l ih => exact (h s a).trans (ih _)

theorem modItems_keepsFetched (sel : Item → Bool) {f : Item → Item} (s : State) (hf : ∀ x, fetchedAs (f x) = fetchedAs x) :
    KeepsFetched s (modItems sel f s) where
  queues _ _ := rfl
  items i hi := by
    refine ⟨_, List.mem_map_of_mem hi, ?_⟩
    split
    · exact hf i
    · rfl
  next := rfl

theorem modItem_keepsFetched (id : Nat) (f : Item → Item) (s : State) (hf : ∀ x, fetchedAs (f x) = fetchedAs x := by intro; rfl) :
    KeepsFetched s (modItem id f s) :=
  modItems_keepsFetched _ s hf

theorem emit_keepsFetched (x : Tx) (s : State) : KeepsFetched s (emit x s) := .of_eq rfl rfl

theorem modPort_keepsFetched (p : PortId) (f : Port → Port) (s : State) : KeepsFetched s (modPort p f s) := .of_eq rfl rfl

theorem modQueue_keepsFetched (p : PortId) (n : Nat) {f : Queue → Queue} (s : State)
    (hf : ∀ x, (f x).port = x.port ∧ (f x).qnum = x.qnum ∧ (f x).installing = x.installing)
    (hcounts : ∀ x, ((f x).head, (f x).owned) = (x.head, x.owned)) : KeepsFetched s (modQueue p n f s) where
  queues r m := by
    rw [findQueue_modQueue hf, Option.map_map]
    congr 1
    funext x
    dsimp only [Function.comp]
    split
    · exact hcounts x
    · rfl
  items i hi := ⟨i, hi, rfl⟩
  next := rfl

theorem traceRecord_keepsFetched (p : PortId) (engine : Nat) (i : Option Item) (reason cls : Nat) (s : State) :
    KeepsFetched s (traceRecord p engine i reason cls s) := by
  unfold traceRecord
  dsimp only
  split
  · exact .refl s
  · split <;> exact .of_eq rfl rfl

theorem traceItem_keepsFetched (reason : Nat) (i : Item) (s : State) : KeepsFetched s (traceItem reason i s) :=
  traceRecord_keepsFetched _ _ _ _ _ s

/-! ### Items that end at their fetch -/

theorem wipeRun_keepsFetched (r : KeyRun) (erase : Bool) (s : State) : KeepsFetched s (wipeRun r erase s) :=
  .of_eq (operation_queues (wipeRun_keepsOperation r erase s)) (wipeRun_heddle r erase s)

theorem settleRuns_keepsFetched (s : State) : KeepsFetched s (settleRuns s) := by
  refine .foldl (fun s r => ?_) _ s
  have hunused : KeepsFetched s (if r.claimed.isSome && (runUsers s r).isEmpty then wipeRun r true s else s) := by
    split
    · exact wipeRun_keepsFetched r true s
    · exact .refl s
  dsimp only
  split
  · split
    · split
      · split
        · exact (wipeRun_keepsFetched r true s).trans (modItem_keepsFetched _ _ _)
        · exact .refl s
      · exact hunused
    · exact hunused
  · exact hunused

theorem endItem_keepsFetched (id : Nat) (d : Done) (eng : Nat) (s : State) : KeepsFetched s (endItem id d eng s) :=
  have hreturn : KeepsFetched s (returnReservation id s) := .of_eq rfl (returnReservation_heddle id s)
  hreturn.trans ((modItem_keepsFetched _ _ _).trans (settleRuns_keepsFetched _))

theorem failItem_keepsFetched (st : Status) (i : Item) (s : State) : KeepsFetched s (failItem st i s) :=
  (modItem_keepsFetched _ _ s).trans (endItem_keepsFetched _ _ _ _)

theorem failAtFetch_keepsFetched (id : Nat) (x : Slice) (ff : FetchFail) (s : State) : KeepsFetched s (failAtFetch id x ff s) := by
  unfold failAtFetch
  extract_lets s₁
  have h₁ : KeepsFetched s s₁ := by
    unfold s₁
    split <;> exact .of_eq rfl rfl
  split
  · exact h₁.trans (endItem_keepsFetched _ _ _ _)
  · exact h₁

/-! ### Items that are offered to their lists -/

theorem takeScratch_keepsFetched (id : Nat) (s : State) : KeepsFetched s (takeScratch id s) := by
  unfold takeScratch
  split
  · exact .refl s
  · split
    · exact .refl s
    · split
      · exact modItem_keepsFetched _ _ s
      · exact .refl s

theorem park_keepsFetched (full : Bool) (id : Nat) (s : State) : KeepsFetched s (park full id s) := by
  unfold park
  split
  · exact .refl s
  · next i _ =>
    have hpark : KeepsFetched s (traceItem 0x02 i (modItem id (fun x => { x with place := .parked }) s)) :=
      (modItem_keepsFetched _ _ s).trans (traceItem_keepsFetched _ _ _)
    dsimp only
    split
    · exact hpark.trans (.of_eq (raise_queues _ _ _) (by simp))
    · exact hpark

/-- One item goes to the end of its list; its number is no other item's. -/
theorem enterList_keepsFetched {k : Nat} (id : Nat) {s : State} (h : Apart k (numbersOf s.heddle)) : KeepsFetched s (enterList id s) := by
  unfold enterList
  split
  · exact .refl s
  · next i hi =>
    obtain ⟨hmem, hid⟩ := findItem_mem hi
    extract_lets heddle s₁
    have h₁ : KeepsFetched s s₁ := by
      refine ⟨fun _ _ => rfl, fun j hj => ?_, rfl⟩
      by_cases hjid : j.id = id
      · obtain rfl : j = i := List.inj_on_of_nodup_map h.1 hj hmem (hjid.trans hid.symm)
        exact ⟨_, List.mem_append_right _ List.mem_cons_self, rfl⟩
      · exact ⟨j, List.mem_append_left _ (List.mem_filter.mpr ⟨hj, by simpa using hjid⟩), rfl⟩
    exact h₁.trans (traceItem_keepsFetched _ _ _)

theorem offer_keepsFetched {k : Nat} (id : Nat) {s : State} (h : Apart k (numbersOf s.heddle)) : KeepsFetched s (offer id s) := by
  have hscratch := takeScratch_keepsFetched id s
  have hapart : Apart k (numbersOf (takeScratch id s).heddle) := by simpa using h
  unfold offer
  dsimp only
  split
  · exact hscratch
  · split
    · exact hscratch.trans (enterList_keepsFetched id hapart)
    · split
      · exact hscratch
      · exact hscratch.trans (park_keepsFetched _ _ _)

theorem countTallyWrites_queues (n : Nat) (s : State) : (countTallyWrites n s).queues = s.queues := by
  unfold countTallyWrites
  dsimp only
  split <;> simp

theorem writeTally_queues (number : Nat) (c : TallyCopy) (w : TallyWaiter) (s : State) : (writeTally number c w s).queues = s.queues :=
  countTallyWrites_queues 1 _

theorem reserveFor_queues (i : Item) (s : State) : (reserveFor i s).queues = s.queues := by
  unfold reserveFor reserveIndices
  dsimp only
  (repeat' split) <;> simp [writeTally_queues]

theorem placeItem_keepsFetched {k : Nat} (id : Nat) (random : Bool) {s : State} (h : Apart k (numbersOf s.heddle)) :
    KeepsFetched s (placeItem id random s) := by
  unfold placeItem
  split
  · exact .refl s
  · next i _ =>
    split
    · exact failItem_keepsFetched _ _ s
    · split
      · exact failItem_keepsFetched _ _ s
      · have hreserve : KeepsFetched s (reserveFor i s) := .of_eq (reserveFor_queues i s) (reserveFor_heddle i s)
        dsimp only
        split
        · exact hreserve.trans (traceItem_keepsFetched _ _ _)
        · exact hreserve.trans (offer_keepsFetched id (by simpa using h))

theorem reserve_queues (id : Nat) (x : Slice) (info : OpInfo) (e : Entry) (s : State) : (reserve id x info e s).queues = s.queues := by
  unfold reserve reserveTally
  dsimp only
  (repeat' split) <;> rfl

/-! ### Credit, reads, scans and invalidations that waited -/

theorem settleCredit_keepsFetched (s : State) : KeepsFetched s (settleCredit s) := by
  refine .foldl (fun s p => ?_) _ s
  dsimp only
  split
  · exact .refl s
  · exact (modPort_keepsFetched p _ s).trans (traceRecord_keepsFetched _ _ _ _ _ _)

theorem issueRead_keepsFetched (q : Queue) (n : Nat) (s : State) : KeepsFetched s (issueRead q n s) :=
  (modQueue_keepsFetched q.port q.qnum (f := fun q => { q with reading := some n }) s (fun _ => ⟨rfl, rfl, rfl⟩) fun _ => rfl).trans
    (.of_eq (issueRead_queues q n s) (issueRead_heddle q n s))

theorem pumpScans_keepsFetched (s : State) : KeepsFetched s (pumpScans s) := by
  refine .foldl (fun s q => ?_) _ s
  split
  · exact .refl s
  · split
    · exact issueRead_keepsFetched _ _ s
    · exact .refl s

theorem markOldest_keepsFetched (s : State) : KeepsFetched s (markOldest s) :=
  modItems_keepsFetched _ s fun _ => by split <;> rfl

theorem settleDrains_keepsFetched (s : State) : KeepsFetched s (settleDrains s) := by
  refine .foldl (fun s p => ?_) _ s
  dsimp only
  split
  · exact .refl s
  · exact (modPort_keepsFetched p _ s).trans (.foldl (fun s _ => emit_keepsFetched _ s) _ _)

theorem settleHeddle_keepsFetched (s : State) : KeepsFetched s (settleHeddle s) :=
  (settleCredit_keepsFetched s).trans ((pumpScans_keepsFetched _).trans ((markOldest_keepsFetched _).trans (settleDrains_keepsFetched _)))

theorem afterRead_keepsFetched (p : PortId) (n : Nat) (stopped : Bool) (s : State) : KeepsFetched s (afterRead p n stopped s) := by
  unfold afterRead
  split
  · exact .refl s
  · split
    · split
      · exact modQueue_keepsFetched p n s (fun _ => ⟨rfl, rfl, rfl⟩) fun _ => rfl
      · exact .refl s
    · split
      · exact issueRead_keepsFetched _ _ s
      · exact .refl s

/-! ### The entry at HEAD -/

/-- The read that returned took this entry at HEAD of the queue, under the next number. -/
structure Took (p : PortId) (n : Nat) (q : Queue) (f : Fetched) (s t : State) : Prop where
  counts : (findQueue t p n).map (fun y => (y.head, y.owned)) = some (q.head + 1, q.owned + 1)
  item : ∃ j ∈ t.heddle.items, fetchedAs j = (s.heddle.nextId, f.entry, p, n, headIndex q)
  next : t.heddle.nextId = s.heddle.nextId + 1

theorem Took.keeps {p : PortId} {n : Nat} {q : Queue} {f : Fetched} {s t u : State} (h : Took p n q f s t) (k : KeepsFetched t u) :
    Took p n q f s u where
  counts := (k.queues p n).trans h.counts
  item := by
    obtain ⟨j, hj, hfetched⟩ := h.item
    obtain ⟨x, hx, hsame⟩ := k.items j hj
    exact ⟨x, hx, hsame.trans hfetched⟩
  next := k.next.trans h.next

theorem touchPages_queues (p : PortId) (i : SliceIdx) (pages : List Nat) (s : State) : (touchPages p i pages s).queues = s.queues := by
  rw [touchPages_frame]

theorem askPages_queues (p : PortId) (i : SliceIdx) (pages : List Nat) (s : State) : (askPages p i pages s).queues = s.queues := by
  obtain ⟨asks, h⟩ := askPages_out p i pages s
  rw [h]

theorem touchFetch_queues (q : Queue) (f : Fetched) (reached : Bool) (s : State) : (touchFetch q f reached s).queues = s.queues := by
  unfold touchFetch
  dsimp only
  (repeat' split) <;> simp only [touchPages_queues, askPages_queues]

theorem takeEntry_took {p : PortId} {n : Nat} {q : Queue} (x : Slice) (f : Fetched) {s : State} (h : IdsApart s)
    (hq : findQueue s p n = some q) : Took p n q f s (takeEntry q x f s) := by
  obtain ⟨rfl, rfl⟩ := findQueue_some hq
  unfold takeEntry
  extract_lets id e info fail claim named i s₁ items s₂ s₃ s₄
  have hheddle : s₁.heddle = s.heddle := touchFetch_heddle q f _ s
  have hq₂ : findQueue s₂ q.port q.qnum = some q := (findQueue_of_queues (touchFetch_queues q f _ s) _ _).trans hq
  have h₃ : Took q.port q.qnum q f s s₃ := by
    refine ⟨?_, ⟨i, List.mem_append_right _ List.mem_cons_self, rfl⟩, rfl⟩
    have hbumped := findQueue_modQueue_same (fun q => { q with head := q.head + 1, owned := q.owned + 1 }) (fun _ => ⟨rfl, rfl, rfl⟩) hq₂
    exact congrArg (Option.map fun y => (y.head, y.owned)) hbumped
  have hkeep : KeepsFetched s₃ s₄ := by
    unfold s₄
    cases claim <;> exact .of_eq rfl rfl
  have hapart : Apart 0 (numbersOf s₄.heddle) := by
    have h₂ : Apart 0 (numbersOf s₂.heddle) := by
      simpa [s₂, items, hheddle, numbersOf, i, id] using apart_fetched (idsApart_iff.mp h)
    unfold s₄
    cases claim <;> exact h₂
  have h₄ : Took q.port q.qnum q f s s₄ := h₃.keeps hkeep
  cases fail with
  | some ff => exact h₄.keeps (failAtFetch_keepsFetched _ _ _ _)
  | none =>
    have hreserve : KeepsFetched s₄ (reserve id x info e s₄) := .of_eq (reserve_queues _ _ _ _ _) (reserve_heddle _ _ _ _ _)
    exact h₄.keeps (hreserve.trans (placeItem_keepsFetched _ _ (by simpa using hapart)))

theorem findSlice_of_mayFetch {s : State} {q : Queue} (h : mayFetch s q = true) : ∃ x, findSlice s q.port q.slice.val = some x := by
  cases hx : findSlice s q.port q.slice.val with
  | some x => exact ⟨x, rfl⟩
  | none => simp [mayFetch, hx] at h

theorem workRead_took {p : PortId} {n : Nat} {q : Queue} {f : Fetched} {s : State} (h : IdsApart s) (hq : findQueue s p n = some q)
    (hmay : mayFetch s q = true) (hown : ownBit f.entry = true) (hfree : ownedIndex s q (headIndex q) = false) :
    Took p n q f s (workRead p n 1 (.data [f]) s) := by
  obtain ⟨x, hx⟩ := findSlice_of_mayFetch hmay
  obtain ⟨rfl, rfl⟩ := findQueue_some hq
  let q₁ : Queue := { q with reading := none }
  let s₁ : State := modQueue q.port q.qnum (fun q => { q with reading := none }) s
  have hq₁ : findQueue s₁ q.port q.qnum = some q₁ := findQueue_modQueue_same _ (fun _ => ⟨rfl, rfl, rfl⟩) hq
  have hx₁ : findSlice s₁ q.port q₁.slice.val = some x := hx
  have hmay₁ : mayFetch s₁ q₁ = true := hmay
  have hfree₁ : ownedIndex s₁ q₁ (headIndex q₁) = false := hfree
  have htaken : (takeEntries q.port q.qnum [f] s₁).1 = settleCredit (takeEntry q₁ x f s₁) := by
    simp [takeEntries, hq₁, hx₁, hmay₁, hown, hfree₁]
  obtain ⟨hcounts, hitem, hnext⟩ := takeEntry_took x f (s := s₁) h hq₁
  have htook : Took q.port q.qnum q f s (takeEntry q₁ x f s₁) := ⟨hcounts, hitem, hnext⟩
  have hread : Took q.port q.qnum q f s (takeEntries q.port q.qnum [f] s₁).1 := htaken ▸ htook.keeps (settleCredit_keepsFetched _)
  exact hread.keeps ((afterRead_keepsFetched _ _ _ _).trans (settleHeddle_keepsFetched _))

/-! ### The admin entry -/

/-- The admin queue's read took this entry at index `k` of the ring, and HEAD stands at `head`. -/
def TookAdmin (p : PortId) (f : Fetched) (k : Nat) (head : BitVec 17) (t : State) : Prop :=
  ∃ x, t.ports[p.val].admin.entry = some x ∧ x.entry = f.entry ∧ x.index = k ∧ t.ports[p.val].admin.head = head

theorem adminDone_tookAdmin {p : PortId} {f : Fetched} {k : Nat} {head : BitVec 17} {t : State} (st : Status) (result : Nat) (output : Bytes)
    (h : TookAdmin p f k head t) : TookAdmin p f k head (adminDone p st result output t) := by
  obtain ⟨x, hx, hentry, hindex, hhead⟩ := h
  exact ⟨{ x with wait := .none, done := some { status := st, outputLen := output.length, output := output, result := result } },
    by simp [adminDone, modAdmin, modPort, hx], hentry, hindex, by simp [adminDone, modAdmin, modPort, hhead]⟩

theorem barAdmin_tookAdmin {p : PortId} {f : Fetched} {k : Nat} {head : BitVec 17} {t : State} (code : Nat) (h : TookAdmin p f k head t) :
    TookAdmin p f k head (barAdmin p code t) := by
  refine adminDone_tookAdmin .keyPolicy 0 [] ?_
  unfold TookAdmin modPort
  rw [Vector.getElem_set_self]
  (repeat' split) <;> exact h

/-- One of wrong form ends at once (R160). -/
theorem takeAdmin_took {p : PortId} (f : Fetched) (s : State) :
    TookAdmin p f (s.ports[p.val].admin.head.toNat % 2 ^ s.ports[p.val].admin.log2) (s.ports[p.val].admin.head + 1) (takeAdmin p f s) ∧
      (adminForm f.entry = false → AdminEnds (takeAdmin p f s) p .opUnsupported 0) := by
  unfold takeAdmin
  extract_lets id a x heddle s₁ s₂
  have hentry : s₂.ports[p.val].admin.entry = some x := by simp [s₂, modAdmin, modPort]
  have h₂ : TookAdmin p f x.index (a.head + 1) s₂ := ⟨x, hentry, rfl, rfl, by simp [s₂, s₁, a, modAdmin, modPort]⟩
  cases hform : adminForm f.entry with
  | false => exact ⟨adminDone_tookAdmin .opUnsupported 0 [] h₂, fun _ => adminDone_ends hentry⟩
  | true =>
    refine ⟨?_, fun hbad => nomatch hbad⟩
    simp only [Bool.not_true, Bool.false_eq_true, if_false]
    split
    · exact barAdmin_tookAdmin _ h₂
    · split
      · exact h₂
      · split
        · exact adminDone_tookAdmin .entropyFail 0 [] h₂
        · split
          · exact ⟨{ x with wait := .seed }, by simp [modAdmin, modPort, hentry], rfl, rfl, by simp [s₂, s₁, modAdmin, modPort]⟩
          · exact h₂

theorem execRingReadComplete_admin {p : PortId} {f : Fetched} {s : State} (hreading : s.ports[p.val].admin.reading = true)
    (hmay : mayFetchAdmin s p = true) (hown : ownBit f.entry = true) :
    exec (.ringReadComplete p 0 (.data [f])) s = .next (takeAdmin p f (modAdmin p (fun a => { a with reading := false }) s)) := by
  simp [exec, execRingReadComplete, hreading, adminRead, hmay, hown]

/-- Settles O33: a denied read reaches the queue and nothing of the heddle, a work queue's entry is taken under the next number and what
follows the fetch keeps it, and an admin entry stands at its port however its command begins. -/
theorem ringReadCompletes : Obligations.ring_read_completes := by
  intro s p n c q f h hn _
  refine ⟨fun hq hreading hstate => ?denied, fun hq hreading hmay hown hfree => ?work, fun hreading hmay hown => ?admin⟩
  case denied =>
    obtain ⟨hheddle, y, hy, hdenied⟩ := workRead_denied (c := c) hn hq hstate
    exact ⟨_, y, execRingReadComplete_work hn hq hreading (fun _ hes => nomatch hes), hheddle, hy, hdenied⟩
  case work =>
    obtain ⟨hcounts, ⟨j, hj, hfetched⟩, hnext⟩ := workRead_took h hq hmay hown hfree
    obtain ⟨y, hy, hcount⟩ := Option.map_eq_some_iff.mp hcounts
    obtain ⟨hhead, howned⟩ := Prod.mk.inj hcount
    simp only [fetchedAs, Prod.mk.injEq] at hfetched
    obtain ⟨hid, hentry, hport, hnum, hindex⟩ := hfetched
    have hexec := execRingReadComplete_work (r := .data [f]) hn hq hreading (fun es hes => by cases hes; rfl)
    exact ⟨_, y, j, hexec, hy, hhead, howned, hj, hid, hentry, hport, hnum, hindex, hnext⟩
  case admin =>
    obtain ⟨⟨x, hx, hentry, hindex, hhead⟩, hends⟩ := takeAdmin_took (p := p) f (modAdmin p (fun a => { a with reading := false }) s)
    refine ⟨_, x, execRingReadComplete_admin hreading hmay hown, hx, hentry, by simpa [modAdmin, modPort] using hindex,
      by simpa [modAdmin, modPort] using hhead, fun hform => ?_⟩
    obtain ⟨y, d, hy, hdone, hstatus, -⟩ := hends hform
    obtain rfl : y = x := Option.some.inj (hy.symm.trans hx)
    exact ⟨d, hdone, hstatus⟩

end Sys2Proof.Machine
end

section
/-! PROOFS. Dispatch: an engine's ask, the yield point and dimming (R177 to R179, R186, R349). -/
namespace Sys2Proof.Machine
open Sys2Proof.Claims

/-! ### Settling leaves items in service and the engines that ask

What is offered to a list waits outside of it, so an item in service stays word for word. -/

theorem mem_modItem_ne {id : Nat} {f : Item → Item} {s : State} {j : Item} (hne : j.id ≠ id) (hj : j ∈ s.heddle.items) :
    j ∈ (modItem id f s).heddle.items :=
  List.mem_map.mpr ⟨j, hj, if_neg (by simpa using hne)⟩

theorem mem_takeScratch {id : Nat} {s : State} {j : Item} (hne : j.id ≠ id) (hj : j ∈ s.heddle.items) :
    j ∈ (takeScratch id s).heddle.items := by
  unfold takeScratch
  split
  · exact hj
  · split
    · exact hj
    · split
      · exact mem_modItem_ne hne hj
      · exact hj

theorem mem_enterList {id : Nat} {s : State} {j : Item} (hne : j.id ≠ id) (hj : j ∈ s.heddle.items) :
    j ∈ (enterList id s).heddle.items := by
  unfold enterList
  split
  · exact hj
  · rw [traceItem_heddle]
    exact List.mem_append_left _ (List.mem_filter.mpr ⟨hj, by simpa using hne⟩)

theorem mem_park {full : Bool} {id : Nat} {s : State} {j : Item} (hne : j.id ≠ id) (hj : j ∈ s.heddle.items) :
    j ∈ (park full id s).heddle.items := by
  unfold park
  split
  · exact hj
  · simpa using mem_modItem_ne hne hj

theorem mem_offer {id : Nat} {s : State} {j : Item} (hne : j.id ≠ id) (hj : j ∈ s.heddle.items) : j ∈ (offer id s).heddle.items := by
  have hscratch := mem_takeScratch hne hj
  unfold offer
  dsimp only
  split
  · exact hscratch
  · split
    · exact mem_enterList hne hscratch
    · split
      · exact hscratch
      · exact mem_park hne hscratch

theorem mem_foldl_offer {ids : List Nat} {s : State} {j : Item} (hne : ∀ id ∈ ids, j.id ≠ id) (hj : j ∈ s.heddle.items) :
    j ∈ (ids.foldl (fun s id => offer id s) s).heddle.items := by
  induction ids generalizing s with
  | nil => exact hj
  | cons id ids ih => exact ih (fun k hk => hne k (List.mem_cons_of_mem id hk)) (mem_offer (hne id List.mem_cons_self) hj)

/-- Offering the items of one place leaves an item of another. -/
theorem mem_offers {n : Nat} {pl : Place} {s : State} {j : Item} (h : Apart n (numbersOf s.heddle)) (hj : j ∈ s.heddle.items)
    (hpl : j.place ≠ pl) :
    j ∈ ((idsInOrder (s.heddle.items.filter fun i => i.place == pl)).foldl (fun s id => offer id s) s).heddle.items := by
  refine mem_foldl_offer (fun id hid hjid => ?_) hj
  obtain ⟨i, hi, hiid⟩ := mem_idsInOrder hid
  obtain ⟨hi, hplace⟩ := List.mem_filter.mp hi
  obtain rfl := List.inj_on_of_nodup_map h.1 hj hi (hjid.trans hiid.symm)
  exact hpl (beq_iff_eq.mp hplace)

theorem mem_retryParked {n : Nat} {s : State} {j : Item} (h : Apart n (numbersOf s.heddle)) (hj : j ∈ s.heddle.items)
    (hplace : j.place = .inService) : j ∈ (retryParked s).heddle.items := by
  have hparked := mem_offers h hj (pl := .parked) (by simp [hplace])
  unfold retryParked
  dsimp only
  split
  · exact mem_offers (foldl_apart (fun _ id _ h => offer_apart id h) h) hparked (by simp [hplace])
  · exact hparked

theorem mem_markOldest {s : State} {j : Item} (hj : j ∈ s.heddle.items) (hplace : j.place = .inService) :
    j ∈ (markOldest s).heddle.items :=
  List.mem_map.mpr ⟨j, hj, if_neg (by simp [hplace])⟩

theorem mem_settleAfterLeave {n : Nat} {s : State} {j : Item} (h : Apart n (numbersOf s.heddle)) (hj : j ∈ s.heddle.items)
    (hplace : j.place = .inService) : j ∈ (settleAfterLeave s).heddle.items := by
  have hretried := mem_retryParked h hj hplace
  simpa [settleAfterLeave, settleHeddle] using mem_markOldest (s := pumpScans (settleCredit (retryParked s))) (by simpa using hretried) hplace

@[simp] theorem takeScratch_asking (id : Nat) (s : State) : (takeScratch id s).heddle.asking = s.heddle.asking := by
  unfold takeScratch
  (repeat' split) <;> rfl

@[simp] theorem enterList_asking (id : Nat) (s : State) : (enterList id s).heddle.asking = s.heddle.asking := by
  unfold enterList
  split
  · rfl
  · rw [traceItem_heddle]

@[simp] theorem park_asking (full : Bool) (id : Nat) (s : State) : (park full id s).heddle.asking = s.heddle.asking := by
  unfold park
  split
  · rfl
  · simp [modItem, modItems]

@[simp] theorem offer_asking (id : Nat) (s : State) : (offer id s).heddle.asking = s.heddle.asking := by
  unfold offer
  dsimp only
  split
  · simp
  · split
    · simp
    · split <;> simp

@[simp] theorem foldl_offer_asking (ids : List Nat) (s : State) :
    (ids.foldl (fun s id => offer id s) s).heddle.asking = s.heddle.asking := by
  induction ids generalizing s with
  | nil => rfl
  | cons id ids ih => exact (ih _).trans (offer_asking id s)

@[simp] theorem retryParked_asking (s : State) : (retryParked s).heddle.asking = s.heddle.asking := by
  unfold retryParked
  dsimp only
  split <;> simp

@[simp] theorem settleAfterLeave_asking (s : State) : (settleAfterLeave s).heddle.asking = s.heddle.asking := by
  simp [settleAfterLeave, settleHeddle, markOldest, modItems]

/-! ### Where items stand and which engines ask -/

/-- An item's number, its place, its engine and whether its job is suspended. -/
def standing (i : Item) : Nat × Place × Option Engine × Bool := (i.id, i.place, i.engine, i.suspended)

/-- Where the items stand, in their order, and the engines that ask. -/
def standingsOf (h : Heddle) : List (Nat × Place × Option Engine × Bool) × List Engine := (h.items.map standing, h.asking)

theorem exists_standing {s t : State} {j : Item} (h : standingsOf t.heddle = standingsOf s.heddle) (hj : j ∈ s.heddle.items) :
    ∃ k ∈ t.heddle.items, standing k = standing j := by
  have hitems : t.heddle.items.map standing = s.heddle.items.map standing := congrArg Prod.fst h
  exact List.mem_map.mp (hitems ▸ List.mem_map_of_mem hj)

@[simp] theorem standingsOf_ite {c : Prop} [Decidable c] (x y : Heddle) :
    standingsOf (if c then x else y) = if c then standingsOf x else standingsOf y :=
  apply_ite standingsOf c x y

@[simp] theorem modItems_standings (sel : Item → Bool) (f : Item → Item) (s : State)
    (h : ∀ x, (f x).id = x.id ∧ (f x).place = x.place ∧ (f x).engine = x.engine ∧ (f x).suspended = x.suspended) :
    standingsOf (modItems sel f s).heddle = standingsOf s.heddle := by
  have hput (x : Item) : standing (if sel x = true then f x else x) = standing x := by
    split
    · simp [standing, h]
    · rfl
  simp [standingsOf, modItems, Function.comp_def, hput]

@[simp] theorem modItem_standings (id : Nat) (f : Item → Item) (s : State)
    (h : ∀ x, (f x).id = x.id ∧ (f x).place = x.place ∧ (f x).engine = x.engine ∧ (f x).suspended = x.suspended) :
    standingsOf (modItem id f s).heddle = standingsOf s.heddle :=
  modItems_standings _ f s h

/-! ### What a grant does besides placing its item -/

@[simp] theorem bindIndex_standings (i : Item) (s : State) : standingsOf (bindIndex i s).heddle = standingsOf s.heddle := by
  unfold bindIndex
  (repeat' split) <;> simp [raisePointer]

/-- What an operation does at its grant: it takes rights or use from its key's runs, notes a SEAL at the DELETEs that wait, takes a selvedge
unit's key store, asks for a reseed, binds its index, or nothing (R310, R328, R378, R403, R412). -/
theorem grantActs_cases (e : Engine) (i : Item) (s : State) :
    (∃ sel f, grantActs e i s = modRuns sel f s) ∨ (∃ sel, grantActs e i s = modItems sel (fun x => { x with sealedFirst := true }) s) ∨
      (∃ u f, grantActs e i s = modSelv u f s) ∨ grantActs e i s = requestPred s ∨ grantActs e i s = bindIndex i s ∨ grantActs e i s = s := by
  unfold grantActs
  extract_lets fam op
  by_cases hdelete : (fam == 0x30 && op == 0x84) = true
  · exact .inl ⟨_, _, if_pos hdelete⟩
  rw [if_neg hdelete]
  by_cases hseal : (fam == 0x30 && op == 0x83) = true
  · exact .inr (.inl ⟨_, if_pos hseal⟩)
  rw [if_neg hseal]
  by_cases hrestrict : (fam == 0x30 && op == 0x86) = true
  · exact .inl ⟨_, _, if_pos hrestrict⟩
  rw [if_neg hrestrict]
  by_cases hkeygen : (fam == 0x07 && op == 0x50) = true
  · rw [if_pos hkeygen]
    cases e with
    | selvedge u => exact .inr (.inr (.inl ⟨u, _, rfl⟩))
    | _ => exact .inr (.inr (.inr (.inr (.inr rfl))))
  rw [if_neg hkeygen]
  by_cases hpred : (fam == 0x40 && predRes i.entry) = true
  · exact .inr (.inr (.inr (.inl (if_pos hpred))))
  rw [if_neg hpred]
  by_cases hsign : isStatefulSign fam op = true
  · exact .inr (.inr (.inr (.inr (.inl (if_pos hsign)))))
  · exact .inr (.inr (.inr (.inr (.inr (if_neg hsign)))))

@[simp] theorem grantActs_standings (e : Engine) (i : Item) (s : State) : standingsOf (grantActs e i s).heddle = standingsOf s.heddle := by
  obtain ⟨sel, f, h⟩ | ⟨sel, h⟩ | ⟨u, f, h⟩ | h | h | h := grantActs_cases e i s <;> simp [h, requestPred]

@[simp] theorem grantDraws_standings (e : Engine) (i : Item) (s : State) : standingsOf (grantDraws e i s).heddle = standingsOf s.heddle := by
  unfold grantDraws
  split <;> simp [startRoutine]

theorem bobbinFailed_traceItem (reason : Nat) (i : Item) (s : State) : bobbinFailed (traceItem reason i s) = bobbinFailed s := by
  unfold traceItem traceRecord
  dsimp only
  (repeat' split) <;> rfl

theorem bobbinFailed_suspendLong (t : TrestleId) (s : State) : bobbinFailed (suspendLong t s) = bobbinFailed s := by
  unfold suspendLong
  split <;> rfl

theorem bobbinFailed_countTallyWrites (n : Nat) (s : State) : bobbinFailed (countTallyWrites n s) = bobbinFailed s := by
  unfold countTallyWrites
  dsimp only
  split
  · simp [bobbinFailed, raise0]
  · rfl

theorem bobbinFailed_reserveIndices (t : TallyRecord) (s : State) : bobbinFailed (reserveIndices t s) = bobbinFailed s := by
  unfold reserveIndices
  dsimp only
  split
  · rfl
  · split
    · exact bobbinFailed_countTallyWrites 1 _
    · rfl

theorem bobbinFailed_bindIndex (i : Item) (s : State) : bobbinFailed (bindIndex i s) = bobbinFailed s := by
  unfold bindIndex
  split
  · rfl
  · split
    · exact bobbinFailed_reserveIndices _ _
    · rfl

theorem bobbinFailed_requestPred (s : State) : bobbinFailed (requestPred s) = bobbinFailed s := by
  unfold requestPred
  split <;> rfl

/-- What an operation does at its grant may ask the bobbin for a seed, and does not change its state. -/
theorem bobbinFailed_grantActs (e : Engine) (i : Item) (s : State) : bobbinFailed (grantActs e i s) = bobbinFailed s := by
  obtain ⟨sel, f, h⟩ | ⟨sel, h⟩ | ⟨u, f, h⟩ | h | h | h := grantActs_cases e i s <;> rw [h]
  · rfl
  · rfl
  · rfl
  · exact bobbinFailed_requestPred s
  · exact bobbinFailed_bindIndex i s

/-! ### The grant -/

/-- The trestle that a grant takes: the engine itself, or the partner of a loom's item. -/
def grantedTrestle (e : Engine) (y : List TrestleId) (i : Item) (s : State) : Option TrestleId :=
  match e with
  | .trestle t => some t
  | _ => if needsBoth i.entry then partnerFor s y i else none

/-- The item as it stands on the engine. -/
def servedOn (e : Engine) (i : Item) : Item := { i with place := .inService, engine := some e }

/-- A grant suspends the long job of its trestle, puts its item in service, and its engines ask no longer. -/
theorem grant_standings {e : Engine} {y : List TrestleId} {i : Item} {reason : Nat} {s : State} (h : bobbinFailed s = false) :
    standingsOf (grant e y i reason s).heddle =
      standingsOf (unask (fun x => x == e || (grantedTrestle e y i s).any fun t => x == .trestle t)
        (modItem i.id (servedOn e) ((grantedTrestle e y i s).elim s fun t => suspendLong t s))).heddle := by
  unfold grant
  extract_lets partner t s₁ ctx placed s₂ m s₃ s₄ c last heddle s₅ s₆ s₇
  have ht : t = grantedTrestle e y i s := by
    unfold t partner grantedTrestle
    cases e <;> rfl
  have h₁ : s₁ = (grantedTrestle e y i s).elim s fun t => suspendLong t s := by
    unfold s₁
    rw [ht]
    cases grantedTrestle e y i s <;> rfl
  have h₃ : s₃.heddle = s₂.heddle := by
    unfold s₃
    cases t <;> rfl
  have hbobbin : bobbinFailed s₇ = false := by
    have hhold : bobbinFailed s₃ = bobbinFailed s₂ := by
      unfold s₃
      cases t <;> rfl
    have hsuspend : bobbinFailed s₁ = bobbinFailed s := by
      unfold s₁
      cases t with
      | none => rfl
      | some t => exact bobbinFailed_suspendLong t s
    calc bobbinFailed s₇ = bobbinFailed s₆ := bobbinFailed_grantActs e _ s₆
      _ = bobbinFailed s₃ := bobbinFailed_traceItem ..
      _ = bobbinFailed s₁ := hhold
      _ = false := hsuspend.trans h
  rw [if_neg (by simp [hbobbin]), grantDraws_standings, grantActs_standings, traceItem_heddle, ← h₁, ← ht]
  have hitems : s₂.heddle.items.map standing = (modItem i.id (servedOn e) s₁).heddle.items.map standing := by
    simp only [s₂, modItem, modItems, List.map_map]
    refine List.map_congr_left fun x _ => ?_
    simp only [Function.comp_apply]
    split <;> rfl
  have hasking : s₄.heddle.asking = (unask (fun x => x == e || t.any fun t => x == .trestle t) (modItem i.id (servedOn e) s₁)).heddle.asking := by
    simp only [s₄, unask, h₃]
    cases t <;> rfl
  exact Prod.ext ((congrArg (fun h => h.items.map standing) h₃).trans hitems) hasking

/-- The item of a grant is in service on its engine. -/
theorem grant_serves {e : Engine} {y : List TrestleId} {i : Item} {reason : Nat} {s : State} (h : bobbinFailed s = false)
    (hi : i ∈ s.heddle.items) : InServiceOn (grant e y i reason s) i.id e := by
  obtain ⟨k, hk, hkid⟩ : ∃ k ∈ ((grantedTrestle e y i s).elim s fun t => suspendLong t s).heddle.items, k.id = i.id := by
    cases grantedTrestle e y i s with
    | none => exact ⟨i, hi, rfl⟩
    | some t =>
      have hids : (suspendLong t s).heddle.items.map (fun i => i.id) = s.heddle.items.map fun i => i.id :=
        congrArg Prod.fst (suspendLong_numbers t s)
      exact List.mem_map.mp (hids ▸ List.mem_map_of_mem hi)
  obtain ⟨j, hj, hstanding⟩ := exists_standing (grant_standings (e := e) (y := y) (i := i) (reason := reason) h)
    (List.mem_map.mpr ⟨k, hk, if_pos (beq_iff_eq.mpr hkid)⟩)
  simp only [standing, servedOn, Prod.mk.injEq] at hstanding
  obtain ⟨hid, hplace, hengine, -⟩ := hstanding
  exact ⟨j, hj, hid.trans hkid, hplace, hengine⟩

theorem activeJob_some {s : State} {t : TrestleId} {i : Item} (h : activeJob s t = some i) :
    i ∈ s.heddle.items ∧ i.place = .inService := by
  refine ⟨List.mem_of_find?_eq_some h, ?_⟩
  have hactive := List.find?_some h
  simp only [Bool.and_eq_true, beq_iff_eq] at hactive
  obtain ⟨⟨hplace, -⟩, -⟩ := hactive
  exact hplace

/-- The long job of the trestle that is granted another item is suspended (R349). -/
theorem grant_suspends {t : TrestleId} {y : List TrestleId} {i long : Item} {reason : Nat} {s : State} (h : bobbinFailed s = false)
    (hlong : activeJob s t = some long) (hne : long.id ≠ i.id) :
    ∃ j ∈ (grant (.trestle t) y i reason s).heddle.items, j.id = long.id ∧ j.place = .inService ∧ j.suspended = true := by
  obtain ⟨hmem, hplace⟩ := activeJob_some hlong
  have hsuspended : { long with suspended := true } ∈ (suspendLong t s).heddle.items := by
    simp only [suspendLong, hlong]
    exact List.mem_map.mpr ⟨long, hmem, if_pos (beq_self_eq_true long.id)⟩
  obtain ⟨j, hj, hstanding⟩ := exists_standing (grant_standings (e := .trestle t) (y := y) (i := i) (reason := reason) h)
    (mem_modItem_ne (f := servedOn (.trestle t)) (j := { long with suspended := true }) hne hsuspended)
  simp only [standing, Prod.mk.injEq] at hstanding
  obtain ⟨hid, hjplace, -, hsuspends⟩ := hstanding
  exact ⟨j, hj, hid, hjplace.trans hplace, hsuspends⟩

/-- A granted engine asks no longer, and no other begins to. -/
theorem mem_grant_asking {e x : Engine} {y : List TrestleId} {i : Item} {reason : Nat} {s : State} (h : bobbinFailed s = false)
    (hx : x ∈ (grant e y i reason s).heddle.asking) : x ∈ s.heddle.asking ∧ x ≠ e := by
  have hkept : ((grantedTrestle e y i s).elim s fun t => suspendLong t s).heddle.asking = s.heddle.asking := by
    cases grantedTrestle e y i s with
    | none => rfl
    | some t =>
      simp only [Option.elim_some, suspendLong]
      split <;> rfl
  have hasking := congrArg Prod.snd (grant_standings (e := e) (y := y) (i := i) (reason := reason) h)
  simp only [standingsOf, unask, modItem, modItems, hkept] at hasking
  rw [hasking, List.mem_filter] at hx
  obtain ⟨hmem, hsel⟩ := hx
  refine ⟨hmem, ?_⟩
  rintro rfl
  simp at hsel

/-- A grant keeps the items' numbers apart. -/
theorem grant_apart {e : Engine} {y : List TrestleId} {i : Item} {reason : Nat} {s : State} (h : IdsApart s) :
    Apart 0 (numbersOf (grant e y i reason s).heddle) := by
  rw [grant_numbers]
  exact idsApart_iff.mp h

/-! ### The choice -/

theorem mem_readyList {s : State} {c : SvcClass} {level : Nat} {i : Item} (h : i ∈ readyList s c level) :
    i ∈ s.heddle.items ∧ i.place = .ready := by
  obtain ⟨hmem, hready⟩ := List.mem_filter.mp h
  simp only [Bool.and_eq_true, beq_iff_eq] at hready
  obtain ⟨⟨hplace, -⟩, -⟩ := hready
  exact ⟨hmem, hplace⟩

theorem mem_of_affinityPick {s : State} {e : Engine} {l : List Item} {i : Item} (h : affinityPick s e l = some i) : i ∈ l := by
  unfold affinityPick at h
  dsimp only at h
  split at h
  · exact nomatch h
  · split at h
    · exact List.mem_of_mem_take (List.mem_of_find?_eq_some h)
    · exact nomatch h

/-- The pick stands in a ready list of the class. -/
theorem pickLevels_ready {s : State} {e : Engine} {sel : Item → Bool} {c : SvcClass} {ls : List Nat} {i : Item} {r : Nat}
    (h : pickLevels s e sel c ls = some (i, r)) : ∃ level, i ∈ readyList s c level := by
  induction ls with
  | nil => exact nomatch h
  | cons l ls ih =>
    rw [pickLevels] at h
    split at h
    · exact ih h
    · next first more hlist =>
      refine ⟨l, (List.mem_filter (p := sel)).mp ?_ |>.1⟩
      rw [hlist]
      split at h
      · next a ha =>
        obtain ⟨rfl, -⟩ := Prod.mk.inj (Option.some.inj h)
        exact mem_of_affinityPick ha
      · obtain ⟨rfl, -⟩ := Prod.mk.inj (Option.some.inj h)
        exact List.mem_cons_self

theorem choose_ready {s : State} {e : Engine} {y : List TrestleId} {only : Item → Bool} {i : Item} {r : Nat}
    (h : choose s e y only = some (i, r)) : i ∈ s.heddle.items ∧ i.place = .ready := by
  unfold choose at h
  split at h
  · exact nomatch h
  · next c _ =>
    split at h
    · next hpick =>
      obtain ⟨level, hi⟩ := pickLevels_ready (hpick.trans h)
      exact mem_readyList hi
    · obtain ⟨j, hj, hji⟩ := Option.map_eq_some_iff.mp h
      obtain ⟨rfl, -⟩ := Prod.mk.inj hji
      obtain ⟨level, -, hfound⟩ := List.exists_of_findSome?_eq_some hj
      exact mem_readyList (List.mem_of_find?_eq_some hfound)

/-! ### One engine asks -/

@[simp] theorem rotated_nil (s : State) (c : SvcClass) : rotated s c [] = [] := by
  unfold rotated
  dsimp only
  split <;> rfl

/-- One engine is the first in any rotation. -/
@[simp] theorem rotated_singleton (s : State) (c : SvcClass) (e : Engine) : rotated s c [e] = [e] := by
  unfold rotated
  dsimp only [List.foldr, insertRank]
  split
  · rfl
  · next last _ =>
    by_cases hrank : engineRank last < engineRank e
    · simp [hrank]
    · simp [hrank, Nat.not_lt.mp hrank]

theorem askers_of_none {s : State} (c : SvcClass) (h : s.heddle.asking = []) : askers s c = [] := by simp [askers, h]

theorem askers_alone {s : State} {e : Engine} {c d : SvcClass} (h : s.heddle.asking = [e]) (hclass : engineClass s e = some c)
    (hmay : mayAsk s e = true) : askers s d = if d = c then [e] else [] := by
  by_cases hd : d = c
  · simp [askers, h, hclass, hmay, hd]
  · simp [askers, h, hclass, hd, Ne.symm hd]

theorem grantLoop_of_choice {n : Nat} {e : Engine} {y : List TrestleId} {only : Item → Bool} {s : State} {i : Item} {r : Nat}
    (h : choose s e y only = some (i, r)) (hbar : grantBar s i = none) : grantLoop (n + 1) e y only s = (grant e y i r s, true) := by
  simp [grantLoop, h, hbar]

theorem grantLoop_of_no_choice {n : Nat} {e : Engine} {y : List TrestleId} {only : Item → Bool} {s : State}
    (h : choose s e y only = none) : grantLoop (n + 1) e y only s = (s, false) := by
  simp [grantLoop, h]

/-- With no trestle at a yield point a class grants its first asker that can be served. -/
theorem serveClass_without_yield (s : State) (c : SvcClass) : serveClass (s, [], false) c = ((serveFirst [] (askers s c) s).1, [], false) := by
  simp [serveClass]

/-- A fold in which one entry alone takes `x` to `z`, and no entry changes `z`, ends at `z` where that entry is in the list. -/
theorem foldl_one {α β : Type} [DecidableEq α] {f : β → α → β} {x z : β} {a : α} (hother : ∀ b, b ≠ a → f x b = x) (hown : f x a = z)
    (hafter : ∀ b, f z b = z) (l : List α) : l.foldl f x = if a ∈ l then z else x := by
  induction l with
  | nil => rfl
  | cons b l ih =>
    by_cases hb : b = a
    · subst hb
      simp [hown, List.foldl_fixed' hafter]
    · simp [hother b hb, ih, Ne.symm hb]

/-- The cycle of one asking engine is that engine's, whether it is granted an item and asks no longer or none is for it. -/
theorem heddleCycle_alone {s : State} {e : Engine} {c : SvcClass} (hserve : isServe s.mode.base = true) (h : s.heddle.asking = [e])
    (hclass : engineClass s e = some c) (hmay : mayAsk s e = true)
    (hserved : (serveFirst [] [e] s).1.heddle.asking = [] ∨ (serveFirst [] [e] s).1 = s) :
    heddleCycle [] s = (serveFirst [] [e] s).1 := by
  have hafter (d : SvcClass) : (serveFirst [] (askers (serveFirst [] [e] s).1 d) (serveFirst [] [e] s).1).1 = (serveFirst [] [e] s).1 := by
    rcases hserved with hnone | hsame
    · rw [askers_of_none d hnone]
      rfl
    · rw [hsame, askers_alone h hclass hmay]
      split
      · exact hsame
      · rfl
  have hfold := foldl_one (f := serveClass) (x := (s, [], false)) (z := ((serveFirst [] [e] s).1, [], false)) (a := c)
    (fun d hd => by simp [serveClass_without_yield, askers_alone h hclass hmay, hd, serveFirst])
    (by simp [serveClass_without_yield, askers_alone h hclass hmay])
    (fun d => by simp [serveClass_without_yield, hafter])
    allClasses
  have hc : c ∈ allClasses := by cases c <;> decide
  simp [heddleCycle, hserve, hfold, hc]

/-- The state in which an engine asks alone. -/
def withAsking (e : Engine) (s : State) : State := { s with heddle := { s.heddle with asking := [e] } }

theorem execEngineAsk_alone {s : State} {e : Engine} (hmay : mayAsk s e = true) (hasking : s.heddle.asking = []) :
    exec (.engineAsk e []) s = .next (settleAfterLeave (heddleCycle [] (withAsking e s))) := by
  simp [exec, execEngineAsk, hmay, hasking, withAsking]

theorem serveFirst_of_choice {s : State} {e : Engine} {i : Item} {r : Nat} (h : choose s e [] (fun _ => true) = some (i, r))
    (hbar : grantBar s i = none) : serveFirst [] [e] s = (grant e [] i r s, true) := by
  simp [serveFirst, grantLoop_of_choice h hbar]

theorem serveFirst_of_no_choice {s : State} {e : Engine} (h : choose s e [] (fun _ => true) = none) :
    serveFirst [] [e] s = (s, false) := by
  simp [serveFirst, grantLoop_of_no_choice h]

/-- What stands in service before the settling stands so after it. -/
theorem settleAfterLeave_serves {n id : Nat} {s : State} {e : Engine} (h : Apart n (numbersOf s.heddle)) (hserves : InServiceOn s id e) :
    InServiceOn (settleAfterLeave s) id e := by
  obtain ⟨j, hj, hid, hplace, hengine⟩ := hserves
  exact ⟨j, mem_settleAfterLeave h hj hplace, hid, hplace, hengine⟩

section Ask

variable {s : State} {e : Engine} {c : SvcClass}

/-- An asking engine for which the heddle has a choice serves it and asks no longer (R177, R179). -/
theorem execEngineAsk_grants {i : Item} {r : Nat} (hids : IdsApart s) (hmay : mayAsk s e = true) (hserve : isServe s.mode.base = true)
    (hasking : s.heddle.asking = []) (hclass : engineClass s e = some c) (hbobbin : bobbinFailed s = false)
    (hchoice : choose (withAsking e s) e [] (fun _ => true) = some (i, r)) (hbar : grantBar (withAsking e s) i = none) :
    ∃ t, exec (.engineAsk e []) s = .next t ∧ InServiceOn t i.id e ∧ e ∉ t.heddle.asking := by
  have hserved := serveFirst_of_choice hchoice hbar
  have hnone : (grant e [] i r (withAsking e s)).heddle.asking = [] := by
    refine List.eq_nil_iff_forall_not_mem.mpr fun x hx => ?_
    obtain ⟨hmem, hne⟩ := mem_grant_asking (s := withAsking e s) hbobbin hx
    exact hne (List.mem_singleton.mp hmem)
  have hcycle : heddleCycle [] (withAsking e s) = grant e [] i r (withAsking e s) := by
    rw [heddleCycle_alone (s := withAsking e s) hserve rfl hclass hmay (.inl (by rw [hserved]; exact hnone)), hserved]
  refine ⟨_, execEngineAsk_alone hmay hasking, ?_, ?_⟩ <;> rw [hcycle]
  · exact settleAfterLeave_serves (grant_apart (s := withAsking e s) hids) (grant_serves (s := withAsking e s) hbobbin (choose_ready hchoice).1)
  · simp [hnone]

/-- An asking engine for which the heddle has no choice waits (R177). -/
theorem execEngineAsk_waits (hmay : mayAsk s e = true) (hserve : isServe s.mode.base = true) (hasking : s.heddle.asking = [])
    (hclass : engineClass s e = some c) (hchoice : choose (withAsking e s) e [] (fun _ => true) = none) :
    ∃ t, exec (.engineAsk e []) s = .next t ∧ t.heddle.asking = [e] := by
  have hserved := serveFirst_of_no_choice hchoice
  have hcycle : heddleCycle [] (withAsking e s) = withAsking e s := by
    rw [heddleCycle_alone (s := withAsking e s) hserve rfl hclass hmay (.inr (by rw [hserved])), hserved]
  refine ⟨_, execEngineAsk_alone hmay hasking, ?_⟩
  rw [hcycle, settleAfterLeave_asking]
  rfl

end Ask

/-! ### A trestle at a yield point -/

theorem yieldingJob_active {s : State} {t : TrestleId} {i : Item} (h : yieldingJob s t = some i) : activeJob s t = some i := by
  unfold yieldingJob at h
  split at h
  · next j hj _ =>
    split at h
    · exact hj.trans h
    · exact nomatch h
  · exact nomatch h

theorem filter_fins_beq (t : TrestleId) : (fins 8).filter (fun u => u == t) = [t] := by
  revert t
  decide

/-- The trestle that asks at its yield point is the cycle's only one there (R354). -/
theorem yieldAskers_alone {s : State} {t : TrestleId} {i : Item} (h : yieldingJob s t = some i) :
    yieldAskers s ⟨t, []⟩ = [.trestle t] := by
  have honly : ((fins 8).filter fun u => (u == t || ([] : List TrestleId).contains u) && (yieldingJob s u).isSome) = [t] := by
    calc _ = (fins 8).filter (fun u => u == t) := by
          refine List.filter_congr fun u _ => ?_
          by_cases hu : u = t <;> simp [hu, h]
      _ = [t] := filter_fins_beq t
  simp only [yieldAskers, honly, List.map_cons, List.map_nil, rotated_singleton]

/-- With no idle trestle that asks, the short item chosen for the trestle is granted to it (R349, R354). -/
theorem execTrestleYieldAsk_grants {s : State} {t : TrestleId} {i long : Item} {r : Nat} (hserve : isServe s.mode.base = true)
    (hlong : yieldingJob s t = some long) (hasking : s.heddle.asking = []) (hchoice : choose s (.trestle t) [] (isShort s) = some (i, r))
    (hbar : grantBar s i = none) :
    exec (.trestleYieldAsk ⟨t, []⟩) s = .next (settleAfterLeave (grant (.trestle t) [] i r s)) := by
  simp [exec, execTrestleYieldAsk, hserve, hlong, askers_of_none .trestle hasking, serveFirst, yieldAskers_alone hlong, serveYield,
    grantLoop_of_choice hchoice hbar]

/-- Settles O35: an ask and a yield point by the grant they come to, which the settling leaves as it is; dimming by its own condition. -/
theorem dispatchCompletes : Obligations.dispatch_completes := by
  intro s e tr n c i long r m a hids
  refine ⟨fun hmay hserve hasking hclass hbobbin => ⟨?ask, ?waits⟩, ?yield, ?dim, ?restore⟩
  case ask => exact execEngineAsk_grants hids hmay hserve hasking hclass hbobbin
  case waits => exact execEngineAsk_waits hmay hserve hasking hclass
  case yield =>
    intro hserve hlong hasking hbobbin hchoice hbar
    obtain ⟨hi, hready⟩ := choose_ready hchoice
    have hactive := yieldingJob_active hlong
    obtain ⟨hmem, hserving⟩ := activeJob_some hactive
    have hne : long.id ≠ i.id := by
      intro heq
      obtain rfl := List.inj_on_of_nodup_map hids.1 hmem hi heq
      exact nomatch hserving.symm.trans hready
    have hapart : Apart 0 (numbersOf (grant (.trestle tr) [] i r s).heddle) := grant_apart hids
    obtain ⟨j, hj, hid, hplace, hsuspended⟩ := grant_suspends (y := []) (reason := r) hbobbin hactive hne
    exact ⟨_, execTrestleYieldAsk_grants hserve hlong hasking hchoice hbar, settleAfterLeave_serves hapart (grant_serves hbobbin hi),
      j, mem_settleAfterLeave hapart hj hplace, hid, hsuspended⟩
  case dim =>
    intro hmedian haverage hlit habove
    simp [exec, execLoomDim, hmedian, haverage, hlit, habove]
  case restore =>
    intro hmedian haverage hdimmed hbelow
    simp [exec, execLoomRestore, hmedian, haverage, hdimmed, hbelow]

end Sys2Proof.Machine
end

section
/-! PROOFS. What restarts, fences and the settling leave of an item that has left its unit (R188, R236, R491, R492). -/
namespace Sys2Proof.Machine
open Sys2Proof.Claims

/-! ### Every item of a number -/

/-- There is an item `id`, and of every item of that number `P` holds. -/
def Every (id : Nat) (P : Item → Prop) (s : State) : Prop :=
  (∃ j ∈ s.heddle.items, j.id = id) ∧ ∀ j ∈ s.heddle.items, j.id = id → P j

/-- What is said of an item that has left its unit, and stays true of it as the oldest of its level is marked and as a DELETE whose key's
users have gone ends (R185, R412). -/
structure Abides (P : Item → Prop) : Prop where
  away : ∀ {x}, P x → x.place = .ready ∨ x.place = .done
  marked : ∀ {x} v, P x → P { x with oldestSince := v }
  deleted : ∀ {x y}, P x → P y → y.done = none → P { x with done := some { status := .ok } }

variable {id : Nat} {P : Item → Prop} {s t : State}

theorem Abides.ne_inService (hP : Abides P) {x : Item} (hx : P x) : x.place ≠ .inService := by
  rcases hP.away hx with hplace | hplace <;> simp [hplace]

namespace Every

theorem exists_mem (h : Every id P s) : ∃ j ∈ s.heddle.items, j.id = id ∧ P j := by
  obtain ⟨⟨j, hj, hid⟩, hall⟩ := h
  exact ⟨j, hj, hid, hall j hj hid⟩

theorem of_items (h : Every id P s) (ht : t.heddle.items = s.heddle.items) : Every id P t := by
  unfold Every
  rw [ht]
  exact h

theorem of_heddle (h : Every id P s) (ht : t.heddle = s.heddle) : Every id P t := h.of_items (congrArg Heddle.items ht)

theorem modItems (h : Every id P s) {sel : Item → Bool} {f : Item → Item} (hid : ∀ x, sel x = true → (f x).id = x.id)
    (hkeep : ∀ x, x.id = id → sel x = true → P x → P (f x)) : Every id P (modItems sel f s) := by
  have hput (x : Item) : (if sel x = true then f x else x).id = x.id := by
    split
    · next hsel => exact hid x hsel
    · rfl
  obtain ⟨⟨j, hj, hjid⟩, hall⟩ := h
  refine ⟨⟨_, List.mem_map_of_mem hj, (hput j).trans hjid⟩, fun k hk hkid => ?_⟩
  obtain ⟨x, hx, rfl⟩ := List.mem_map.mp hk
  have hxid : x.id = id := (hput x).symm.trans hkid
  split
  · next hsel => exact hkeep x hxid hsel (hall x hx hxid)
  · exact hall x hx hxid

/-- Another item changes. -/
theorem modItem_ne (h : Every id P s) {k : Nat} (hk : k ≠ id) {f : Item → Item} (hid : ∀ x, x.id = k → (f x).id = k) :
    Every id P (modItem k f s) :=
  h.modItems (fun x hsel => (hid x (beq_iff_eq.mp hsel)).trans (beq_iff_eq.mp hsel).symm)
    fun _ hx hsel => absurd ((beq_iff_eq.mp hsel).symm.trans hx) hk

/-- Another item comes back to its level. -/
theorem readmit_ne (h : Every id P s) {i : Item} (hi : i.id ≠ id) : Every id P (readmit i s) := by
  obtain ⟨⟨j, hj, hjid⟩, hall⟩ := h
  refine ⟨⟨j, List.mem_cons_of_mem _ (List.mem_filter.mpr ⟨hj, ?_⟩), hjid⟩, fun k hk hkid => ?_⟩
  · simpa [hjid] using hi.symm
  · rcases List.mem_cons.mp hk with rfl | hk
    · exact absurd hkid hi
    · exact hall k (List.mem_filter.mp hk).1 hkid

theorem foldl {α : Type} {f : State → α → State} {l : List α} (hf : ∀ s, ∀ a ∈ l, Every id P s → Every id P (f s a))
    (h : Every id P s) : Every id P (l.foldl f s) := by
  induction l generalizing s with
  | nil => exact h
  | cons a l ih => exact ih (fun s b hb => hf s b (List.mem_cons_of_mem a hb)) (hf s a List.mem_cons_self h)

/-! ### Other items end, resume and restart -/

theorem settleRuns (hP : Abides P) (h : Every id P s) : Every id P (settleRuns s) := by
  refine foldl (fun s r _ h => ?_) h
  have hwipe (erase : Bool) : Every id P (wipeRun r erase s) := h.of_heddle (wipeRun_heddle r erase s)
  have hunused : Every id P (if r.claimed.isSome && (runUsers s r).isEmpty then wipeRun r true s else s) := by
    split
    · exact hwipe true
    · exact h
  dsimp only
  split
  · next k _ =>
    split
    · next i hi =>
      obtain ⟨hi, hik⟩ := findItem_mem hi
      split
      · next hwaits =>
        split
        · refine (hwipe true).modItems (fun _ _ => rfl) fun x hx hsel hPx => ?_
          have hid : i.id = id := hik.trans ((beq_iff_eq.mp hsel).symm.trans hx)
          simp only [Bool.and_eq_true, Option.isNone_iff_eq_none] at hwaits
          obtain ⟨⟨-, hnone⟩, -⟩ := hwaits
          exact hP.deleted hPx (h.2 i hi hid) hnone
        · exact h
      · exact hunused
    · exact hunused
  · exact hunused

theorem endItem_ne (hP : Abides P) (h : Every id P s) {k : Nat} (hk : k ≠ id) (d : Done) (eng : Nat) : Every id P (endItem k d eng s) :=
  settleRuns hP ((h.of_heddle (t := returnReservation k s) (by simp)).modItem_ne hk fun _ hx => hx)

theorem failInService_ne (hP : Abides P) (h : Every id P s) {i : Item} (hi : i.id ≠ id) (st : Status) (cycles : Nat) :
    Every id P (failInService st cycles i s) :=
  endItem_ne hP ((h.of_heddle (leaveUnits_heddle i s)).modItem_ne hi (f := fun x => { x with cycles := cycles }) fun _ hx => hx) hi _ _

/-- What resumes is in service, and so none of them. -/
theorem resumeTrestle (hP : Abides P) (h : Every id P s) (i : Item) : Every id P (resumeTrestle i s) := by
  unfold Machine.resumeTrestle
  split
  · exact h
  · split
    · exact h
    · refine (h.of_heddle (by simp)).modItems (fun _ _ => rfl) fun x _ hsel hPx => ?_
      simp only [Bool.and_eq_true, beq_iff_eq] at hsel
      obtain ⟨⟨hplace, -⟩, -⟩ := hsel
      exact absurd hplace (hP.ne_inService hPx)

theorem restartCoded_ne (hP : Abides P) (h : Every id P s) {i : Item} (hi : i.id ≠ id) (code : Nat) (fault : Bool) (excl : List Engine) :
    Every id P (restartCoded code fault excl i s) := by
  unfold restartCoded
  extract_lets s₁ s₂ i'
  have h₂ : Every id P s₂ :=
    ((h.of_heddle (countAbandon_heddle i s)).resumeTrestle hP i).of_heddle (traceItem_heddle code i s₁)
  split
  · exact failInService_ne hP (i := i') (h₂.modItem_ne hi (f := fun _ => i') fun _ _ => rfl) hi _ _
  · exact h₂.readmit_ne hi

/-- The items that a fence restarts are in service, and so none of them. -/
theorem restartWhere (hP : Abides P) (h : Every id P s) (code : Nat) (fault : Bool) (sel : Engine → Bool) :
    Every id P (restartWhere code fault sel s) := by
  refine of_items (t := Machine.restartWhere code fault sel s) (foldl (fun s i hi h' => ?_) h) rfl
  have hne : i.id ≠ id := by
    intro hid
    obtain ⟨hi, huses⟩ := List.mem_filter.mp (List.mem_reverse.mp hi)
    have hplace : i.place = .inService := by simpa using (Bool.and_eq_true_iff.mp huses).1
    exact hP.ne_inService (h.2 i hi hid) hplace
  dsimp only
  split
  · next k hk => exact h'.restartCoded_ne hP ((findItem_mem hk).2.trans_ne hne) _ _ _
  · exact h'

theorem fenceUnits (hP : Abides P) (h : Every id P s) (fault : Bool) (benches : BitVec 16) (looms : List LoomId) (trestles : BitVec 8)
    (selvs : BitVec 4) : Every id P (fenceUnits fault benches looms trestles selvs s) := by
  unfold Machine.fenceUnits
  extract_lets sel faults s₁ s₂ s₃
  have h₃ : Every id P s₃ := (h.of_heddle (t := s₂) (by simp [s₂, s₁])).restartWhere hP _ _ _
  split
  · exact h₃
  · exact h₃.of_heddle (degrade_heddle 3 s₃)

theorem countLoomMismatch (hP : Abides P) (h : Every id P s) (n : LoomId) (lane : Option (Fin 8)) :
    Every id P (countLoomMismatch n lane s) := by
  unfold Machine.countLoomMismatch
  extract_lets s₁
  have h₁ : Every id P s₁ := h.of_heddle rfl
  split
  · exact h₁
  · exact h₁.fenceUnits hP _ _ _ _ _

theorem countTrestleMismatch (hP : Abides P) (h : Every id P s) (t : TrestleId) : Every id P (countTrestleMismatch t s) := by
  unfold Machine.countTrestleMismatch
  extract_lets s₁
  have h₁ : Every id P s₁ := h.of_heddle rfl
  split
  · exact h₁
  · exact h₁.fenceUnits hP _ _ _ _ _

/-! ### What waits is tried again -/

theorem of_mem {n : Nat} {j : Item} (hs : Apart n (numbersOf s.heddle)) (hj : j ∈ s.heddle.items) (hid : j.id = id) (hPj : P j) : Every id P s :=
  ⟨⟨j, hj, hid⟩, fun k hk hkid => by rwa [List.inj_on_of_nodup_map hs.1 hk hj (hkid.trans hid.symm)]⟩

theorem retryParked {n : Nat} (hs : Apart n (numbersOf s.heddle)) (hP : Abides P) (h : Every id P s) : Every id P (retryParked s) := by
  obtain ⟨j, hj, hid, hPj⟩ := h.exists_mem
  have hplace (pl : Place) (hready : pl ≠ .ready) (hdone : pl ≠ .done) : j.place ≠ pl := by
    rcases hP.away hPj with h | h
    · exact fun hpl => hready (hpl.symm.trans h)
    · exact fun hpl => hdone (hpl.symm.trans h)
  have hparked := mem_offers hs hj (hplace .parked (by decide) (by decide))
  refine of_mem (retryParked_apart hs) (j := j) ?_ hid hPj
  unfold Machine.retryParked
  dsimp only
  split
  · exact mem_offers (foldl_apart (fun _ id _ h => offer_apart id h) hs) hparked (hplace .seedWait (by decide) (by decide))
  · exact hparked

theorem settleAfterLeave {n : Nat} (hs : Apart n (numbersOf s.heddle)) (hP : Abides P) (h : Every id P s) : Every id P (settleAfterLeave s) := by
  have hretried := h.retryParked hs hP
  have hmarked : Every id P (markOldest (pumpScans (settleCredit (Machine.retryParked s)))) := by
    refine (hretried.of_heddle (by simp)).modItems (fun x _ => ?_) fun x _ _ hPx => ?_
    · split <;> rfl
    · split <;> exact hP.marked _ hPx
  exact hmarked.of_heddle (by simp [Machine.settleAfterLeave, settleHeddle])

end Every

/-! ### The item that restarts -/

/-- Item `i` has restarted away from these engines, at once where this was its first fault, and has ended at the third (R188, R236). -/
def Restarted (excl : List Engine) (i k : Item) : Prop :=
  (k.place = .ready ∨ k.place = .done) ∧ (i.faultRestarts = 0 → k.place = .ready ∧ excl ⊆ k.excluded ∧ k.faultRestarts = 1)

theorem restarted_abides (excl : List Engine) (i : Item) : Abides (Restarted excl i) where
  away h := h.1
  marked _ h := h
  deleted h _ _ := h

theorem restartCoded_every (code : Nat) (excl : List Engine) {i : Item} (hi : i.id ∈ (numbersOf s.heddle).1) :
    Every i.id (Restarted excl i) (restartCoded code true excl i s) := by
  unfold restartCoded
  extract_lets s₁ s₂ i'
  split
  · next hthird =>
    simp only [Bool.true_and, decide_eq_true_eq, i', if_true] at hthird
    have hi₂ : i' ∈ (modItem i.id (fun _ => i') s₂).heddle.items := by
      have hnumbers : numbersOf s₂.heddle = numbersOf s.heddle := by simp [s₂, s₁]
      obtain ⟨x, hx, hxid⟩ := List.mem_map.mp (hnumbers ▸ hi)
      exact List.mem_map.mpr ⟨x, hx, if_pos (beq_iff_eq.mpr hxid)⟩
    obtain ⟨hex, hall⟩ := failInService_standsEnded .unitFault 0 hi₂
    exact ⟨hex, fun j hj hid => ⟨.inr (hall j hj hid).1, fun hzero => by omega⟩⟩
  · refine ⟨⟨_, List.mem_cons_self, rfl⟩, fun j hj hid => ?_⟩
    rcases List.mem_cons.mp hj with rfl | hj
    · exact ⟨.inl rfl, fun hzero => ⟨rfl, by simp, by simp [i', hzero]⟩⟩
    · exact absurd hid (by simpa using (List.mem_filter.mp hj).2)

/-- Where another item restarts, an item keeps its place among the numbers. -/
theorem restartCoded_keepsNumber {i : Item} (hid : id ∈ (numbersOf s.heddle).1) (hi : i.id ≠ id) (code : Nat) (fault : Bool)
    (excl : List Engine) : id ∈ (numbersOf (restartCoded code fault excl i s).heddle).1 := by
  unfold restartCoded
  extract_lets s₁ s₂ i'
  have hnumbers : numbersOf s₂.heddle = numbersOf s.heddle := by simp [s₂, s₁]
  have hid₂ : id ∈ (numbersOf s₂.heddle).1 := hnumbers ▸ hid
  split
  · rw [failInService_numbers, modItem_numbers i.id (fun _ => i') s₂ fun _ _ => rfl]
    exact hid₂
  · obtain ⟨x, hx, hxid⟩ := List.mem_map.mp hid₂
    exact List.mem_map.mpr ⟨x, List.mem_cons_of_mem _ (List.mem_filter.mpr ⟨hx, by simpa [hxid] using hi.symm⟩), hxid⟩

/-- Where every item on an engine restarts, each does so once. -/
theorem restartAllOn_every (hs : IdsApart s) {e : Engine} {i : Item} (hi : i ∈ itemsOn s e) :
    Every i.id (Restarted [e] i) (restartAllOn true e s) := by
  have hmem : i ∈ s.heddle.items := List.mem_of_mem_filter hi
  have hnodup : ((itemsOn s e).map fun i => i.id).Nodup := hs.1.sublist (List.filter_sublist.map _)
  unfold restartAllOn
  obtain ⟨l₁, l₂, hl⟩ := List.append_of_mem hi
  rw [hl, List.map_append, List.map_cons, List.nodup_append] at hnodup
  obtain ⟨-, hnodup₂, hne₁⟩ := hnodup
  have hne₂ := (List.nodup_cons.mp hnodup₂).1
  rw [hl, List.foldl_append, List.foldl_cons]
  have hid : i.id ∈ (numbersOf (l₁.foldl (fun s x => restartItem true [e] x s) s).heddle).1 := by
    refine List.foldlRecOn (motive := fun t : State => i.id ∈ (numbersOf t.heddle).1) l₁ _ (List.mem_map_of_mem hmem) fun t ht x hx => ?_
    exact restartCoded_keepsNumber ht (hne₁ _ (List.mem_map_of_mem hx) _ List.mem_cons_self) _ _ _
  refine Every.foldl (fun t x hx ht => ?_) (restartCoded_every _ [e] hid)
  exact ht.restartCoded_ne (restarted_abides [e] i) (fun hxi => hne₂ (hxi ▸ List.mem_map_of_mem hx)) _ _ _

end Sys2Proof.Machine
end

section
/-! PROOFS. Mismatches (R199, R219, R286, R331, R353): what a restart and a fence leave of the units' caches and counts, and the checkers. -/
namespace Sys2Proof.Machine
open Sys2Proof.Claims

variable {s t : State}

/-! ### Caches and counts of mismatches -/

/-- The expansion caches and counts of mismatches of the looms, the trestles' counts, and the selvedge units' caches and counts. -/
def countsOf (s : State) : Vector (List CacheEntry × Nat) 64 × Vector Nat 8 × Vector (List SelvEntry × Nat) 4 :=
  (s.looms.map fun l => (l.cache, l.mismatch), s.trestles.map fun t => t.mismatch, s.selvs.map fun u => (u.cache, u.mismatch))

theorem countsOf_congr (hlooms : t.looms = s.looms) (htrestles : t.trestles = s.trestles) (hselvs : t.selvs = s.selvs) : countsOf t = countsOf s := by
  rw [countsOf, hlooms, htrestles, hselvs]
  rfl

theorem loom_of_counts (h : countsOf t = countsOf s) (n : LoomId) :
    t.looms[n.val].cache = s.looms[n.val].cache ∧ t.looms[n.val].mismatch = s.looms[n.val].mismatch := by
  simpa [countsOf] using congrArg (fun c => c.1[n.val]) h

theorem trestle_of_counts (h : countsOf t = countsOf s) (n : TrestleId) : t.trestles[n.val].mismatch = s.trestles[n.val].mismatch := by
  simpa [countsOf] using congrArg (fun c => c.2.1[n.val]) h

theorem selv_of_counts (h : countsOf t = countsOf s) (n : SelvId) :
    t.selvs[n.val].cache = s.selvs[n.val].cache ∧ t.selvs[n.val].mismatch = s.selvs[n.val].mismatch := by
  simpa [countsOf] using congrArg (fun c => c.2.2[n.val]) h

@[simp] theorem countsOf_ite {c : Prop} [Decidable c] (s t : State) : countsOf (if c then s else t) = if c then countsOf s else countsOf t :=
  apply_ite countsOf c s t

@[simp] theorem foldl_counts {α : Type} {f : State → α → State} (l : List α) (s : State) (h : ∀ s a, countsOf (f s a) = countsOf s) :
    countsOf (l.foldl f s) = countsOf s :=
  foldl_reads countsOf h l s

/-- A new entry that reads as the old one leaves what is read of a vector. -/
theorem map_set_of_eq {α β : Type} {n i : Nat} {g : α → β} {v : Vector α n} {x : α} (hi : i < n) (h : g x = g v[i]) :
    (v.set i x).map g = v.map g := by
  rw [Vector.map_set, h, ← Vector.getElem_map g hi, Vector.set_getElem_self]

@[simp] theorem modLoom_counts (n : LoomId) (f : Loom → Loom) (s : State) (h : ∀ l, (f l).cache = l.cache ∧ (f l).mismatch = l.mismatch) :
    countsOf (modLoom n f s) = countsOf s := by
  refine Prod.ext (map_set_of_eq n.isLt ?_) rfl
  rw [(h _).1, (h _).2]

@[simp] theorem modTrestle_counts (n : TrestleId) (f : Trestle → Trestle) (s : State) (h : ∀ x, (f x).mismatch = x.mismatch) :
    countsOf (modTrestle n f s) = countsOf s := by
  simp only [countsOf, modTrestle, map_set_of_eq (g := fun t : Trestle => t.mismatch) n.isLt (h s.trestles[n.val])]

@[simp] theorem modSelv_counts (n : SelvId) (f : Selvedge → Selvedge) (s : State) (h : ∀ x, (f x).cache = x.cache ∧ (f x).mismatch = x.mismatch) :
    countsOf (modSelv n f s) = countsOf s := by
  refine Prod.ext rfl (Prod.ext rfl (map_set_of_eq n.isLt ?_))
  rw [(h _).1, (h _).2]

@[simp] theorem modItem_counts (id : Nat) (f : Item → Item) (s : State) : countsOf (modItem id f s) = countsOf s := rfl
@[simp] theorem modItems_counts (sel : Item → Bool) (f : Item → Item) (s : State) : countsOf (modItems sel f s) = countsOf s := rfl
@[simp] theorem readmit_counts (i : Item) (s : State) : countsOf (readmit i s) = countsOf s := rfl
@[simp] theorem unask_counts (sel : Engine → Bool) (s : State) : countsOf (unask sel s) = countsOf s := rfl
@[simp] theorem returnReservation_counts (id : Nat) (s : State) : countsOf (returnReservation id s) = countsOf s := rfl

theorem settling_counts (h : Frame.settling.Keeps s t) : countsOf t = countsOf s := by
  rw [h]
  rfl

@[simp] theorem raise_counts (ev : Nat) (d : BitVec 64) (s : State) : countsOf (raise ev d s) = countsOf s :=
  settling_counts (raise_keepsSettling ev d s)

@[simp] theorem traceItem_counts (code : Nat) (i : Item) (s : State) : countsOf (traceItem code i s) = countsOf s :=
  settling_counts (traceItem_keepsSettling code i s)

@[simp] theorem settleAfterLeave_counts (s : State) : countsOf (settleAfterLeave s) = countsOf s :=
  settling_counts (settleAfterLeave_keepsSettling s)

@[simp] theorem report_counts (src : Nat) (ue : Bool) (s : State) : countsOf (report src ue s) = countsOf s := by
  rw [report_frame]
  rfl

@[simp] theorem degrade_counts (cause : Nat) (s : State) : countsOf (degrade cause s) = countsOf s := by
  unfold degrade
  split <;> rfl

/-! ### What an item leaves as it ends and restarts -/

@[simp] theorem modContext_counts (i : Item) (f : JobContext → JobContext) (s : State) : countsOf (modContext i f s) = countsOf s := by
  unfold modContext
  split
  · refine modTrestle_counts _ _ _ fun x => ?_
    split <;> rfl
  · rfl

@[simp] theorem leaveStores_counts (i : Item) (s : State) : countsOf (leaveStores i s) = countsOf s := by
  unfold leaveStores
  (repeat' split) <;> simp

@[simp] theorem leaveUnits_counts (i : Item) (s : State) : countsOf (leaveUnits i s) = countsOf s := by
  unfold leaveUnits
  split <;> simp

@[simp] theorem countAbandon_counts (i : Item) (s : State) : countsOf (countAbandon i s) = countsOf s := by
  unfold countAbandon
  (repeat' split) <;> simp

@[simp] theorem holdTrestle_counts (t : TrestleId) (m : Nat) (s : State) : countsOf (holdTrestle t m s) = countsOf s := by
  refine modTrestle_counts _ _ _ fun x => ?_
  split <;> rfl

@[simp] theorem resumeTrestle_counts (i : Item) (s : State) : countsOf (resumeTrestle i s) = countsOf s := by
  unfold resumeTrestle
  (repeat' split) <;> simp

@[simp] theorem eraseTally_counts (sel : TallyRecord → Bool) (s : State) : countsOf (eraseTally sel s) = countsOf s := by
  unfold eraseTally
  dsimp only
  split <;> rfl

@[simp] theorem wipeRun_counts (r : KeyRun) (erase : Bool) (s : State) : countsOf (wipeRun r erase s) = countsOf s := by
  unfold wipeRun
  extract_lets s₁ s₂
  have h₂ : countsOf s₂ = countsOf s := by
    unfold s₂ s₁
    split <;> rfl
  split <;> simp [h₂]

@[simp] theorem settleRuns_counts (s : State) : countsOf (settleRuns s) = countsOf s := by
  refine foldl_counts _ s fun s r => ?_
  (repeat' split) <;> simp

@[simp] theorem failInService_counts (st : Status) (cycles : Nat) (i : Item) (s : State) : countsOf (failInService st cycles i s) = countsOf s := by
  simp [failInService, endItem]

@[simp] theorem restartCoded_counts (code : Nat) (fault : Bool) (excl : List Engine) (i : Item) (s : State) :
    countsOf (restartCoded code fault excl i s) = countsOf s := by
  unfold restartCoded
  extract_lets s₁ s₂ i'
  split <;> simp [s₂, s₁]

@[simp] theorem restartItem_counts (fault : Bool) (excl : List Engine) (i : Item) (s : State) : countsOf (restartItem fault excl i s) = countsOf s :=
  restartCoded_counts ..

@[simp] theorem restartAllOn_counts (fault : Bool) (e : Engine) (s : State) : countsOf (restartAllOn fault e s) = countsOf s := by
  simp [restartAllOn]

@[simp] theorem restartWhere_counts (code : Nat) (fault : Bool) (sel : Engine → Bool) (s : State) :
    countsOf (restartWhere code fault sel s) = countsOf s := by
  refine foldl_counts _ s fun s i => ?_
  dsimp only
  split <;> simp

/-- A fence neither clears a cache nor counts. -/
@[simp] theorem fenceUnits_counts (fault : Bool) (benches : BitVec 16) (looms : List LoomId) (trestles : BitVec 8) (selvs : BitVec 4) (s : State) :
    countsOf (fenceUnits fault benches looms trestles selvs s) = countsOf s := by
  unfold fenceUnits
  extract_lets sel faults s₁ s₂ s₃
  have h₃ : countsOf s₃ = countsOf s := by
    have h₂ : countsOf s₂ = countsOf s₁ := foldl_counts looms s₁ fun s n => modLoom_counts n _ s fun _ => ⟨rfl, rfl⟩
    exact (restartWhere_counts ..).trans h₂
  split <;> simp [h₃]

/-! ### Restarts and the capture registers -/

theorem restartItem_faults (fault : Bool) (excl : List Engine) (i : Item) (s : State) : (restartItem fault excl i s).faults = s.faults := by
  obtain ⟨-, -, -, -, -, -, -, -, hfaults, -⟩ := work_units (restartCoded_keepsWork (if fault then 0x07 else 0x08) fault excl i s)
  exact hfaults

theorem restartAllOn_faults (fault : Bool) (e : Engine) (s : State) : (restartAllOn fault e s).faults = s.faults :=
  foldl_reads State.faults (fun s i => restartItem_faults fault [e] i s) _ s

theorem settleAfterLeave_reported {src : Nat} (h : Reported s src) : Reported (settleAfterLeave s) src :=
  reported_of_faults h (by simp)

/-- A source's report stands beside the event that follows it. -/
theorem raise0_reported {src : Nat} (ev : Nat) (ue : Bool) (s : State) (h : src < 128) : Reported (raise0 ev (report src ue s)) src :=
  reported_of_faults (report_reported ue s h) (by simp [raise0])

/-- What was reported stays so at another report. -/
theorem reportTrestle_keepsReported {src : Nat} (h : Reported s src) (t : TrestleId) : Reported (reportTrestle t s) src := by
  refine reported_of_faults (s := report (80 + t.val) true s) ?_ (by simp [reportTrestle, raise0])
  unfold report
  dsimp only
  split
  · exact ⟨getLsbD_setBit_of_set h.1, h.2⟩
  · exact ⟨getLsbD_setBit_of_set h.1, rfl⟩

theorem reportTrestle_reported (t : TrestleId) (s : State) : Reported (reportTrestle t s) (80 + t.val) :=
  raise0_reported _ true s (by omega)

/-! ### A counted mismatch -/

theorem getLsbD_ofNat_two_pow {w k : Nat} (h : k < w) : (BitVec.ofNat w (2 ^ k)).getLsbD k = true := by
  rw [BitVec.getLsbD_ofNat, Nat.testBit_two_pow_self, decide_eq_true h]
  rfl

/-- The second mismatch of a loom fences it; each clears its cache (R219). -/
theorem countLoomMismatch_loom (n : LoomId) (lane : Option (Fin 8)) (s : State) :
    (countLoomMismatch n lane s).looms[n.val].cache = [] ∧
      (countLoomMismatch n lane s).looms[n.val].mismatch = min 255 (s.looms[n.val].mismatch + 1) ∧
      (1 ≤ s.looms[n.val].mismatch → loomFenced (countLoomMismatch n lane s) n = true) := by
  unfold countLoomMismatch
  extract_lets s₁
  have h₁ : s₁.looms[n.val].cache = [] ∧ s₁.looms[n.val].mismatch = min 255 (s.looms[n.val].mismatch + 1) := by simp [s₁, satAdd]
  obtain ⟨hcache, hcount⟩ := h₁
  split
  · exact ⟨hcache, hcount, fun hone => by omega⟩
  · obtain ⟨hcache', hcount'⟩ := loom_of_counts (fenceUnits_counts true 0 [n] 0 0 s₁) n
    exact ⟨hcache'.trans hcache, hcount'.trans hcount, fun _ => loomFenced_of_fence (fenceUnits_loom n s₁)⟩

theorem countLoomMismatch_trestle (n : LoomId) (lane : Option (Fin 8)) (t : TrestleId) (s : State) :
    (countLoomMismatch n lane s).trestles[t.val].mismatch = s.trestles[t.val].mismatch := by
  unfold countLoomMismatch
  extract_lets s₁
  split
  · rfl
  · exact trestle_of_counts (s := s₁) (fenceUnits_counts ..) t

theorem countLoomMismatch_reported {src : Nat} (h : Reported s src) (n : LoomId) (lane : Option (Fin 8)) :
    Reported (countLoomMismatch n lane s) src := by
  unfold countLoomMismatch
  extract_lets s₁
  have h₁ : Reported s₁ src := h
  split
  · exact h₁
  · exact fenceUnits_reported h₁ ..

/-- The second mismatch of a trestle fences it (R353). -/
theorem countTrestleMismatch_trestle (t : TrestleId) (s : State) :
    (countTrestleMismatch t s).trestles[t.val].mismatch = min 255 (s.trestles[t.val].mismatch + 1) ∧
      (1 ≤ s.trestles[t.val].mismatch → (countTrestleMismatch t s).faults.trestle.getLsbD t.val = true) := by
  unfold countTrestleMismatch
  extract_lets s₁
  have hcount : s₁.trestles[t.val].mismatch = min 255 (s.trestles[t.val].mismatch + 1) := by simp [s₁, satAdd]
  split
  · exact ⟨hcount, fun hone => by omega⟩
  · refine ⟨(trestle_of_counts (s := s₁) (fenceUnits_counts ..) t).trans hcount, fun _ => ?_⟩
    rw [fenceTrestle, fenceUnits_faults]
    exact (BitVec.getLsbD_or ..).trans (by rw [trestleBit, getLsbD_ofNat_two_pow t.isLt, Bool.or_true])

theorem countTrestleMismatch_loom (t : TrestleId) (n : LoomId) (s : State) :
    (countTrestleMismatch t s).looms[n.val].mismatch = s.looms[n.val].mismatch := by
  unfold countTrestleMismatch
  extract_lets s₁
  split
  · rfl
  · exact (loom_of_counts (s := s₁) (fenceUnits_counts ..) n).2

theorem countTrestleMismatch_reported {src : Nat} (h : Reported s src) (t : TrestleId) : Reported (countTrestleMismatch t s) src := by
  unfold countTrestleMismatch
  extract_lets s₁
  have h₁ : Reported s₁ src := h
  split
  · exact h₁
  · exact fenceUnits_reported h₁ ..

/-! ### Mismatches and the items they meet -/

/-- A mismatch on a loom that is not fenced clears its cache and counts; the second fences it (R199, R219). -/
theorem loomMismatch_counts {n : LoomId} (lane : Option (Fin 8)) (h : loomFenced s n = false) :
    (loomMismatch n lane s).looms[n.val].cache = [] ∧
      (loomMismatch n lane s).looms[n.val].mismatch = min 255 (s.looms[n.val].mismatch + 1) ∧
      (1 ≤ s.looms[n.val].mismatch → loomFenced (loomMismatch n lane s) n = true) ∧ Reported (loomMismatch n lane s) n.val := by
  unfold loomMismatch
  extract_lets fenced s₁
  rw [show fenced = false from h, if_neg Bool.false_ne_true]
  have hcounts : countsOf (restartAllOn true (.loom n) s₁) = countsOf s := by simp [s₁]
  obtain ⟨hcache, hcount, hfence⟩ := countLoomMismatch_loom n lane (restartAllOn true (.loom n) s₁)
  rw [(loom_of_counts hcounts n).2] at hcount hfence
  have hreport : Reported s₁ n.val := raise0_reported _ true s (by omega)
  exact ⟨hcache, hcount, hfence, countLoomMismatch_reported (reported_of_faults hreport (restartAllOn_faults ..)) n lane⟩

/-- Alike on a selvedge unit, whose fence is the unit's bit (R331). -/
theorem selvMismatch_counts {u : SelvId} (h : s.faults.selv.getLsbD u.val = false) :
    (selvMismatch u s).selvs[u.val].cache = [] ∧ (selvMismatch u s).selvs[u.val].mismatch = min 255 (s.selvs[u.val].mismatch + 1) ∧
      (1 ≤ s.selvs[u.val].mismatch → (selvMismatch u s).faults.selv.getLsbD u.val = true) ∧ Reported (selvMismatch u s) (88 + u.val) := by
  unfold selvMismatch
  extract_lets fenced s₁ s₂ s₃
  have hcounts : countsOf s₂ = countsOf s := by simp [s₂, s₁]
  have hcount : s₃.selvs[u.val].mismatch = min 255 (s.selvs[u.val].mismatch + 1) := by
    rw [← (selv_of_counts hcounts u).2]
    simp [s₃, satAdd]
  have hcache : s₃.selvs[u.val].cache = [] := by simp [s₃]
  have hreport : Reported s₁ (88 + u.val) := raise0_reported _ true s (by omega)
  have hreport₃ : Reported s₃ (88 + u.val) := reported_of_faults hreport (restartAllOn_faults true (.selvedge u) s₁)
  rw [show fenced = false from h, if_neg Bool.false_ne_true]
  split
  · exact ⟨hcache, hcount, fun hone => by omega, hreport₃⟩
  · obtain ⟨hcache', hcount'⟩ := selv_of_counts (fenceUnits_counts true 0 [] 0 (selvBit u.val) s₃) u
    refine ⟨hcache'.trans hcache, hcount'.trans hcount, fun _ => ?_, fenceUnits_reported hreport₃ ..⟩
    rw [fenceUnits_faults]
    exact (BitVec.getLsbD_or ..).trans (by rw [selvBit, getLsbD_ofNat_two_pow u.isLt, Bool.or_true])

/-- A mismatch of a trestle's own check counts; the second fences it (R353). -/
theorem trestleMismatch_counts (t : TrestleId) (i : Item) (s : State) :
    (trestleMismatch t i s).trestles[t.val].mismatch = min 255 (s.trestles[t.val].mismatch + 1) ∧
      (1 ≤ s.trestles[t.val].mismatch → (trestleMismatch t i s).faults.trestle.getLsbD t.val = true) ∧
      Reported (trestleMismatch t i s) (80 + t.val) := by
  have hcounts : countsOf (restartItem true [.trestle t] i (reportTrestle t s)) = countsOf s := by simp [reportTrestle]
  obtain ⟨hcount, hfence⟩ := countTrestleMismatch_trestle t (restartItem true [.trestle t] i (reportTrestle t s))
  rw [trestle_of_counts hcounts t] at hcount hfence
  exact ⟨hcount, hfence, countTrestleMismatch_reported (reported_of_faults (reportTrestle_reported t s) (restartItem_faults ..)) t⟩

/-- Both checks fail in one item: the loom and the trestle each count and report it (R286). -/
theorem bothMismatch_counts (n : LoomId) (lane : Option (Fin 8)) (t : TrestleId) (i : Item) (s : State) :
    (bothMismatch n lane t i s).looms[n.val].mismatch = min 255 (s.looms[n.val].mismatch + 1) ∧
      (bothMismatch n lane t i s).trestles[t.val].mismatch = min 255 (s.trestles[t.val].mismatch + 1) ∧
      Reported (bothMismatch n lane t i s) n.val ∧ Reported (bothMismatch n lane t i s) (80 + t.val) := by
  unfold bothMismatch
  extract_lets s₁ s₂
  have hcounts : countsOf s₂ = countsOf s := by simp [s₂, s₁, reportTrestle]
  have hfaults : s₂.faults = s₁.faults := restartItem_faults ..
  have hcheck {src : Nat} (h : Reported s₁ src) : Reported (countTrestleMismatch t (countLoomMismatch n lane s₂)) src :=
    countTrestleMismatch_reported (countLoomMismatch_reported (reported_of_faults h hfaults) n lane) t
  refine ⟨?_, ?_, hcheck ?_, hcheck (reportTrestle_reported t _)⟩
  · rw [countTrestleMismatch_loom, (countLoomMismatch_loom n lane s₂).2.1, (loom_of_counts hcounts n).2]
  · rw [(countTrestleMismatch_trestle t _).1, countLoomMismatch_trestle, trestle_of_counts hcounts t]
  · exact reportTrestle_keepsReported (raise0_reported _ true s (by omega)) t

theorem mem_itemsOn_of_servingOn {e : Engine} {i : Item} (h : servingOn s e = some i) : i ∈ itemsOn s e := by
  have hserves := List.find?_some h
  simp only [Bool.and_eq_true] at hserves
  obtain ⟨⟨hplace, hengine⟩, -⟩ := hserves
  exact List.mem_filter.mpr ⟨mem_of_servingOn h, by rw [hplace, hengine]; rfl⟩

/-- The item on a loom that meets a mismatch restarts away from it (R219). -/
theorem loomMismatch_every {n : LoomId} {i : Item} (lane : Option (Fin 8)) (hs : IdsApart s) (hi : servingOn s (.loom n) = some i)
    (h : loomFenced s n = false) : Every i.id (Restarted [.loom n] i) (loomMismatch n lane s) := by
  unfold loomMismatch
  extract_lets fenced s₁
  have hheddle : s₁.heddle = s.heddle := by simp [s₁]
  rw [show fenced = false from h, if_neg Bool.false_ne_true]
  refine .countLoomMismatch (restarted_abides _ i) (restartAllOn_every (s := s₁) ?_ ?_) n lane
  · unfold IdsApart
    rwa [hheddle]
  · unfold itemsOn
    rw [hheddle]
    exact mem_itemsOn_of_servingOn hi

/-- The item in which both checks fail restarts away from both units (R286). -/
theorem bothMismatch_every (n : LoomId) (lane : Option (Fin 8)) (t : TrestleId) {i : Item} (hi : i ∈ s.heddle.items) :
    Every i.id (Restarted [.loom n, .trestle t] i) (bothMismatch n lane t i s) := by
  unfold bothMismatch
  extract_lets s₁ s₂
  have hs₁ : i ∈ s₁.heddle.items := by simpa [s₁] using hi
  have habides := restarted_abides [.loom n, .trestle t] i
  exact ((restartCoded_every _ _ (List.mem_map_of_mem hs₁)).countLoomMismatch habides n lane).countTrestleMismatch habides t

/-! ### The checkers' commands -/

theorem execVerifyMismatch_loom {n : LoomId} {i : Item} (lane : Option (Fin 8)) (hi : servingOn s (.loom n) = some i) :
    exec (.verifyMismatch n ⟨lane, false⟩) s = .next (settleAfterLeave (loomMismatch n lane s)) := by
  simp only [exec, execVerifyMismatch, verifyMismatch, hi]
  cases i.trestle <;> rfl

theorem execVerifyMismatch_both {n : LoomId} {i : Item} {t : TrestleId} (lane : Option (Fin 8)) (hi : servingOn s (.loom n) = some i)
    (ht : i.trestle = some t) : exec (.verifyMismatch n ⟨lane, true⟩) s = .next (settleAfterLeave (bothMismatch n lane t i s)) := by
  simp only [exec, execVerifyMismatch, verifyMismatch, hi, ht]

theorem duplicateMismatch_loom {n : LoomId} {i : Item} (hi : servingOn s (.loom n) = some i) :
    duplicateMismatch (.loom n) s = settleAfterLeave (loomMismatch n none s) := by
  unfold duplicateMismatch
  rw [hi]

theorem duplicateMismatch_selvedge {u : SelvId} {i : Item} (hi : servingOn s (.selvedge u) = some i) :
    duplicateMismatch (.selvedge u) s = settleAfterLeave (selvMismatch u s) := by
  unfold duplicateMismatch
  rw [hi]

theorem execTrestleSelfCheckMismatch_active {t : TrestleId} {i : Item} (hi : activeJob s t = some i) :
    exec (.trestleSelfCheckMismatch t) s = .next (settleAfterLeave (trestleMismatch t i s)) := by
  simp only [exec, execTrestleSelfCheckMismatch, hi]

/-- The settling leaves a loom's fence, its cache and its count, and what was reported. -/
theorem loomMismatch_settles {n : LoomId} (lane : Option (Fin 8)) (h : loomFenced s n = false) :
    (settleAfterLeave (loomMismatch n lane s)).looms[n.val].cache = [] ∧
      (settleAfterLeave (loomMismatch n lane s)).looms[n.val].mismatch = min 255 (s.looms[n.val].mismatch + 1) ∧
      (1 ≤ s.looms[n.val].mismatch → loomFenced (settleAfterLeave (loomMismatch n lane s)) n = true) ∧
      Reported (settleAfterLeave (loomMismatch n lane s)) n.val := by
  obtain ⟨hcache, hcount, hfence, hreport⟩ := loomMismatch_counts lane h
  refine ⟨?_, ?_, fun hone => ?_, settleAfterLeave_reported hreport⟩
  · simpa using hcache
  · simpa using hcount
  · simpa [loomFenced] using hfence hone

/-- Settles O38: each checker by its mismatch, whose counts, fences and reports the settling leaves. -/
theorem checkersComplete : Obligations.checkers_complete := by
  intro s n u tr lane i hs
  refine ⟨fun hi hfence c hc => ?loom, fun hi htr hfault => ?both, fun hi hfence => ?selvedge, fun hi => ?trestle⟩
  case loom =>
    rcases hc with rfl | rfl
    · exact ⟨_, execVerifyMismatch_loom lane hi, loomMismatch_settles lane hfence⟩
    · exact ⟨_, congrArg Host.Outcome.next (duplicateMismatch_loom hi), loomMismatch_settles none hfence⟩
  case both =>
    have hmem := mem_of_servingOn hi
    have hapart := bothMismatch_apart n lane tr hmem (idsApart_iff.mp hs)
    obtain ⟨j, hj, hid, -, hfirst⟩ :=
      ((bothMismatch_every n lane tr hmem).settleAfterLeave hapart (restarted_abides _ i)).exists_mem
    obtain ⟨hready, hexcluded, honce⟩ := hfirst hfault
    obtain ⟨hloom, htrestle, hreportLoom, hreportTrestle⟩ := bothMismatch_counts n lane tr i s
    have hcounts := settleAfterLeave_counts (bothMismatch n lane tr i s)
    exact ⟨_, j, execVerifyMismatch_both lane hi htr, hj, hid, hready, hexcluded (by simp), hexcluded (by simp), honce,
      (loom_of_counts hcounts n).2.trans hloom, (trestle_of_counts hcounts tr).trans htrestle,
      settleAfterLeave_reported hreportLoom, settleAfterLeave_reported hreportTrestle⟩
  case selvedge =>
    obtain ⟨hcache, hcount, hbit, hreport⟩ := selvMismatch_counts hfence
    obtain ⟨hcache', hcount'⟩ := selv_of_counts (settleAfterLeave_counts (selvMismatch u s)) u
    exact ⟨_, congrArg Host.Outcome.next (duplicateMismatch_selvedge hi), hcache'.trans hcache, hcount'.trans hcount, by simpa using hbit,
      settleAfterLeave_reported hreport⟩
  case trestle =>
    obtain ⟨hcount, hbit, hreport⟩ := trestleMismatch_counts tr i s
    exact ⟨_, execTrestleSelfCheckMismatch_active hi,
      (trestle_of_counts (settleAfterLeave_counts (trestleMismatch tr i s)) tr).trans hcount, by simpa using hbit,
      settleAfterLeave_reported hreport⟩

end Sys2Proof.Machine
end

section
/-! PROOFS. COMMIT (R210, R218, R235, R237, R249, R329, R353): what a committed item completes with, the key it makes live, and the
ends and restarts of a routine that may not commit. -/
namespace Sys2Proof.Machine
open Sys2Proof.Claims

variable {s t : State} {e : Engine} {cycles k : Nat} {i : Item} {r : ItemResult} {n : LoomId}

/-! ### The runs and the tally records that a COMMIT leaves alone -/

/-- The drawer runs and the tally records. -/
def keysOf (s : State) : List KeyRun × List TallyRecord := (s.runs, s.flash.tally)

theorem settling_keys (h : Frame.settling.Keeps s t) : keysOf t = keysOf s := by
  rw [h]
  rfl

@[simp] theorem modContext_keys (i : Item) (f : JobContext → JobContext) (s : State) : keysOf (modContext i f s) = keysOf s := by
  rw [modContext_frame]
  rfl

@[simp] theorem leaveStores_keys (i : Item) (s : State) : keysOf (leaveStores i s) = keysOf s := by
  unfold leaveStores
  extract_lets s₁ s₂
  have h₂ : keysOf s₂ = keysOf s := by
    refine (modContext_keys i _ s₁).trans ?_
    unfold s₁
    (repeat' split) <;> rfl
  split <;> exact h₂

@[simp] theorem resumeTrestle_keys (i : Item) (s : State) : keysOf (resumeTrestle i s) = keysOf s := by
  unfold resumeTrestle
  split
  · rfl
  · split
    · rfl
    · exact foldl_reads keysOf (f := fun s (x : Item) => holdTrestle _ (moduleIndex x.port x.slice) s) (fun _ _ => rfl) _ s

@[simp] theorem passBuffer_keys (i : Item) (s : State) : keysOf (passBuffer i s) = keysOf s := by
  unfold passBuffer
  split <;> rfl

@[simp] theorem addAverage_keys (i : Item) (cycles : Nat) (s : State) : keysOf (addAverage i cycles s) = keysOf s := by
  unfold addAverage
  (repeat' split) <;> rfl

@[simp] theorem countLookup_keys (i : Item) (hit : Option Bool) (s : State) : keysOf (countLookup i hit s) = keysOf s := by
  unfold countLookup
  split <;> rfl

@[simp] theorem traceItem_keys (code : Nat) (i : Item) (s : State) : keysOf (traceItem code i s) = keysOf s :=
  settling_keys (traceItem_keepsSettling code i s)

/-- Where no run is claimed or waits for a DELETE, none goes. -/
theorem settleRuns_of_unclaimed (h : ∀ x ∈ s.runs, x.claimed = none ∧ x.deleting = none) : settleRuns s = s := by
  refine List.foldlRecOn (motive := fun t => t = s) s.runs _ rfl fun t ht x hx => ?_
  obtain ⟨hclaimed, hdeleting⟩ := h x hx
  simp [hclaimed, hdeleting, ht]

/-! ### The item that commits -/

/-- After the acts of a result: the item's averages, lookups and stores, with its reservation returned. -/
def commitLeaves (cycles : Nat) (i : Item) (r : ItemResult) (s : State) : State :=
  leaveStores i (passBuffer i (traceItem 0x06 i (returnReservation i.id (addAverage i cycles (countLookup i r.lookup s)))))

@[simp] theorem commitLeaves_heddle (cycles : Nat) (i : Item) (r : ItemResult) (s : State) :
    (commitLeaves cycles i r s).heddle = s.heddle := by
  simp [commitLeaves, leaveStores_heddle]

theorem returnReservation_keys (id : Nat) (h : keysOf t = keysOf s) : keysOf (returnReservation id t) = keysOf (returnReservation id s) := by
  obtain ⟨hruns, htally⟩ := Prod.mk.inj h
  simp [keysOf, returnReservation, hruns, htally]

/-- Of the runs and the tally records only those of a reservation that was not made live go. -/
theorem commitLeaves_keys (cycles : Nat) (i : Item) (r : ItemResult) (s : State) :
    keysOf (commitLeaves cycles i r s) = keysOf (returnReservation i.id s) := by
  simp only [commitLeaves, leaveStores_keys, passBuffer_keys, traceItem_keys]
  exact returnReservation_keys i.id (by simp)

theorem commitLeaves_runs (cycles : Nat) (i : Item) (r : ItemResult) (s : State) :
    (commitLeaves cycles i r s).runs = s.runs.filter fun x => !(x.state == .reserved i.id) :=
  congrArg Prod.fst (commitLeaves_keys cycles i r s)

theorem commitLeaves_waitsTally {id : Nat} (cycles : Nat) (i : Item) (r : ItemResult) (h : waitsTally s id = false) :
    waitsTally (commitLeaves cycles i r s) id = false := by
  have htally : (commitLeaves cycles i r s).flash.tally = (returnReservation i.id s).flash.tally :=
    congrArg Prod.snd (commitLeaves_keys cycles i r s)
  unfold waitsTally at h ⊢
  rw [htally, List.any_eq_false]
  exact fun t ht => List.any_eq_false.mp h t (List.mem_of_mem_filter ht)

/-- As the item of a COMMIT stands: completed, with its engine and cycles, and with its result where nothing is waited for (R155, R235). -/
def Committed (s : State) (e : Engine) (cycles : Nat) (i : Item) (r : ItemResult) (k : Item) : Prop :=
  k.place = .done ∧ k.cycles = cycles ∧ k.doneEngine = engineCode e i.trestle ∧
    (r.acts = [] → waitsTally s i.id = false → k.done = some (doneOf r))

theorem committed_abides : Abides (Committed s e cycles i r) where
  away h := .inr h.1
  marked _ h := h
  deleted hx hy hnone := by
    obtain ⟨hplace, hcycles, hengine, -⟩ := hx
    obtain ⟨-, -, -, hdone⟩ := hy
    exact ⟨hplace, hcycles, hengine, fun hacts hwaits => nomatch hnone.symm.trans (hdone hacts hwaits)⟩

/-- The completion of a committed item waits for a tally record, or for a deleted key's last user (R300, R312, R412). -/
def heldBack (i : Item) (r : ItemResult) (s : State) : Bool := waitsTally s i.id || r.acts.any isDelete

/-- The item as COMMIT completes it. -/
def completedItem (e : Engine) (cycles : Nat) (i : Item) (r : ItemResult) (held : Bool) (x : Item) : Item :=
  { x with
    place := .done
    done := if held then none else some (doneOf r)
    result := if held then some r else none
    doneEngine := engineCode e i.trestle
    cycles := cycles }

/-- The item is completed, its trestle's suspended job resumes, and its selvedge unit's key generation is over. -/
def completeCommit (e : Engine) (cycles : Nat) (i : Item) (r : ItemResult) (s : State) : State :=
  let s := resumeTrestle i (modItem i.id (completedItem e cycles i r (heldBack i r s)) s)
  match e with
  | .selvedge u => modSelv u (fun v => { v with keygen := false }) s
  | _ => s

theorem commitItem_eq (e : Engine) (cycles : Nat) (i : Item) (r : ItemResult) (s : State) :
    commitItem e cycles i r s =
      settleRuns (completeCommit e cycles i r (commitLeaves cycles i r (r.acts.foldl (fun s a => commitAct i a s) s))) := by
  cases e <;> rfl

theorem completeCommit_heddle (e : Engine) (cycles : Nat) (i : Item) (r : ItemResult) (s : State) :
    (completeCommit e cycles i r s).heddle = (resumeTrestle i (modItem i.id (completedItem e cycles i r (heldBack i r s)) s)).heddle := by
  cases e <;> rfl

theorem completeCommit_runs (e : Engine) (cycles : Nat) (i : Item) (r : ItemResult) (s : State) :
    (completeCommit e cycles i r s).runs = s.runs := by
  have hresume := congrArg Prod.fst (resumeTrestle_keys i (modItem i.id (completedItem e cycles i r (heldBack i r s)) s))
  cases e <;> exact hresume

/-- COMMIT completes its item. -/
theorem commitItem_every (e : Engine) (cycles : Nat) (r : ItemResult) (hi : i ∈ s.heddle.items) :
    Every i.id (Committed s e cycles i r) (commitItem e cycles i r s) := by
  rw [commitItem_eq]
  generalize hu : commitLeaves cycles i r (r.acts.foldl (fun s a => commitAct i a s) s) = u
  have hheddle : u.heddle = s.heddle := by simp [← hu]
  have hheld (hacts : r.acts = []) (hwaits : waitsTally s i.id = false) : heldBack i r u = false := by
    rw [heldBack, ← hu, hacts, List.foldl_nil, commitLeaves_waitsTally cycles i r hwaits]
    rfl
  have hcompleted : Every i.id (Committed s e cycles i r) (modItem i.id (completedItem e cycles i r (heldBack i r u)) u) := by
    refine ⟨⟨_, List.mem_map_of_mem (hheddle.symm ▸ hi), by simp [completedItem]⟩, fun k hk hkid => ?_⟩
    obtain ⟨x, -, rfl⟩ := List.mem_map.mp hk
    by_cases hx : x.id = i.id
    · rw [if_pos (beq_iff_eq.mpr hx)]
      exact ⟨rfl, rfl, rfl, fun hacts hwaits => by simp [completedItem, hheld hacts hwaits]⟩
    · rw [if_neg (by simpa using hx)] at hkid
      exact absurd hkid hx
  exact ((hcompleted.resumeTrestle committed_abides i).of_heddle (completeCommit_heddle e cycles i r u)).settleRuns committed_abides

/-! ### The key that a commit makes live (R249) -/

/-- The run of a reservation with its key. -/
def liveKey (kind family set : Nat) (policy : Word) (content : Bytes) (x : KeyRun) : KeyRun :=
  { x with kind := kind, family := family, set := set, policy := policy, content := content, tr := keyTr kind family set content, keyId := 0, state := .live }

theorem commitRun_runs {v : KeyRun} (kind family set : Nat) (policy : Word) (content : Bytes) (hv : reservedRun s i.id = some v) :
    (commitRun i kind family set policy content 0 false s).runs =
      s.runs.map fun x => if x.state == .reserved i.id then liveKey kind family set policy content x else x := by
  unfold commitRun
  rw [hv]
  dsimp only
  split <;> rfl

theorem commitItem_newKey {v : KeyRun} {kind family set : Nat} {policy : Word} {content : Bytes} (e : Engine) (cycles : Nat)
    (hacts : r.acts = [.run kind family set policy content 0 false]) (hv : reservedRun s i.id = some v)
    (hfree : ∀ x ∈ s.runs, x.claimed = none ∧ x.deleting = none) :
    liveKey kind family set policy content v ∈ (commitItem e cycles i r s).runs := by
  rw [commitItem_eq, hacts, List.foldl_cons, List.foldl_nil]
  have hruns := (completeCommit_runs e cycles i r _).trans
    ((commitLeaves_runs cycles i r (commitRun i kind family set policy content 0 false s)).trans
      (congrArg _ (commitRun_runs kind family set policy content hv)))
  rw [commitAct, settleRuns_of_unclaimed, hruns]
  · have hreserved := List.find?_some hv
    refine List.mem_filter.mpr ⟨List.mem_map.mpr ⟨v, List.mem_of_find?_eq_some hv, if_pos hreserved⟩, ?_⟩
    simp [liveKey]
  · intro x hx
    rw [hruns] at hx
    obtain ⟨y, hy, rfl⟩ := List.mem_map.mp (List.mem_of_mem_filter hx)
    split <;> exact hfree y hy

/-! ### Where COMMIT takes effect -/

theorem commitOn_atCommit (h : AtCommit s n cycles i r k) : commitOn (.loom n) cycles s = commitLoom n k i r s := by
  obtain ⟨hi, ⟨hwords, hat, hresult, rfl⟩ | ⟨hwords, hresult, rfl⟩⟩ := h
  · simp [commitOn, hi, commitRoutine, hwords, hat, hresult]
  · simp [commitOn, hi, commitRoutine, hwords, hresult]

/-- Before its words reach COMMIT a routine runs on (R230, R235). -/
theorem commitOn_beforeCommit (hi : servingOn s (.loom n) = some i) (hwords : sequenced n i s = true)
    (hat : s.looms[n.val].core.atCommit = false) : commitOn (.loom n) cycles s = s := by
  simp [commitOn, hi, commitRoutine, hwords, hat]

theorem commitOn_other (he : ∀ n, e ≠ .loom n) (hi : servingOn s e = some i) (hr : i.result = some r) :
    commitOn e cycles s = commitOther e cycles i r s := by
  cases e with
  | loom n => exact absurd rfl (he n)
  | _ => simp [commitOn, hi, hr]

theorem commitOn_commits (h : Commits s e cycles i r k) : commitOn e cycles s = settleAfterLeave (commitItem e k i r s) := by
  obtain ⟨hi, hother, hloom, htrestle, hselvedge, hdigest⟩ := h
  by_cases he : ∃ n, e = .loom n
  · obtain ⟨n, rfl⟩ := he
    obtain ⟨hat, hwithin, hbuffer, hchecked⟩ := hloom n rfl
    have hfree : (bufferHeld s n && !r.output.isEmpty) = false := by rcases hbuffer with h | h <;> simp [h]
    have hpasses : (selfChecked (famOf i.entry) (opOf i.entry) && !r.verifyOk) = false := by
      cases hself : selfChecked (famOf i.entry) (opOf i.entry) with
      | false => rfl
      | true => simp [hchecked hself]
    have hpart : failedPart i r = none := by
      unfold failedPart
      cases hpartner : i.trestle with
      | none => simp
      | some tr => simp [htrestle ⟨tr, .inr hpartner⟩]
    rw [commitOn_atCommit hat, commitLoom, if_neg (by simp [hwithin]), if_neg (by simp [hfree]), hpasses, hpart]
  · obtain ⟨hr, rfl⟩ := hother fun n hn => he ⟨n, hn⟩
    rw [commitOn_other (fun n hn => he ⟨n, hn⟩) hi hr]
    unfold commitOther
    cases e with
    | loom n => exact absurd ⟨n, rfl⟩ he
    | trestle tr => rw [htrestle ⟨tr, .inl rfl⟩]
    | selvedge u => rw [hselvedge ⟨u, rfl⟩]
    | digest d => simp [hdigest ⟨d, rfl⟩]
    | bobbin => rfl
    | steward => rfl

theorem execCommit_commits (h : Commits s e cycles i r k) :
    exec (.commit e cycles) s = .next (settleAfterLeave (commitItem e k i r s)) :=
  congrArg Host.Outcome.next (commitOn_commits h)

/-! ### Routines that may not commit -/

theorem standsEnded_abides (st : Status) :
    Abides fun j => j.place = .done ∧ ∃ d, j.done = some d ∧ d.status = st ∧ d.output = [] where
  away h := .inr h.1
  marked _ h := h
  deleted _ hy hnone := by
    obtain ⟨-, d, hd, -⟩ := hy
    exact nomatch hnone.symm.trans hd

/-- A routine error ends its item with UNIT_FAULT and no output (R237). -/
theorem routineFault_ended (hs : IdsApart s) (hi : i ∈ s.heddle.items) : Ended (routineFault i s) i.id .unitFault := by
  unfold routineFault
  extract_lets s₁
  have hheddle : s₁.heddle = s.heddle := by
    unfold s₁
    split <;> simp
  have habides := standsEnded_abides .unitFault
  have hended : Every i.id _ (failInService .unitFault 0 i s₁) := failInService_standsEnded .unitFault 0 (hheddle.symm ▸ hi)
  have hapart : Apart 0 (numbersOf (resumeTrestle i (failInService .unitFault 0 i s₁)).heddle) := by
    rw [resumeTrestle_numbers, failInService_numbers, hheddle]
    exact idsApart_iff.mp hs
  exact StandsEnded.ended ((hended.resumeTrestle habides i).settleAfterLeave hapart habides)

theorem routineEnds_ended (hs : IdsApart s) (hi : servingOn s (.loom n) = some i) : Ended (routineEnds (.loom n) s) i.id .unitFault := by
  unfold routineEnds
  rw [hi]
  exact routineFault_ended hs (mem_of_servingOn hi)

/-- A routine past WATCHDOG ends with a routine error at its COMMIT (R237). -/
theorem commitLoom_pastWatchdog (h : pastWatchdog s n i k = true) : commitLoom n k i r s = routineEnds (.loom n) s := by
  rw [commitLoom, if_pos h]

/-- With output, COMMIT waits for a buffer (R210). -/
theorem commitLoom_waits (hwithin : pastWatchdog s n i k = false) (hheld : bufferHeld s n = true) (hout : r.output ≠ []) :
    commitLoom n k i r s = s := by
  rw [commitLoom, if_neg (by simp [hwithin]), if_pos (by simp [hheld, hout])]

/-- A routine whose own check failed is a mismatch of its loom, or of the loom and the trestle that failed beside it (R218, R286). -/
theorem commitLoom_unchecked (hwithin : pastWatchdog s n i k = false) (hfree : bufferHeld s n = false)
    (hself : selfChecked (famOf i.entry) (opOf i.entry) = true) (hfailed : r.verifyOk = false) :
    commitLoom n k i r s = settleAfterLeave (loomMismatch n none s) ∨
      ∃ t, commitLoom n k i r s = settleAfterLeave (bothMismatch n none t i s) := by
  have hfails : (selfChecked (famOf i.entry) (opOf i.entry) && !r.verifyOk) = true := by simp [hself, hfailed]
  rw [commitLoom, if_neg (by simp [hwithin]), if_neg (by simp [hfree]), hfails]
  cases failedPart i r with
  | none => exact .inl rfl
  | some t => exact .inr ⟨t, rfl⟩

/-- A failed check counts a mismatch of its loom, and its item is in service no longer. -/
theorem commitLoom_mismatch (hs : IdsApart s) (hi : servingOn s (.loom n) = some i) (hwithin : pastWatchdog s n i k = false)
    (hfree : bufferHeld s n = false) (hself : selfChecked (famOf i.entry) (opOf i.entry) = true) (hfailed : r.verifyOk = false)
    (hfence : loomFenced s n = false) :
    (commitLoom n k i r s).looms[n.val].mismatch = min 255 (s.looms[n.val].mismatch + 1) ∧
      ∀ j ∈ (commitLoom n k i r s).heddle.items, j.id = i.id → j.place ≠ .inService := by
  have hmem := mem_of_servingOn hi
  have hapart := idsApart_iff.mp hs
  have haway {excl : List Engine} {u : State} (hu : Apart 0 (numbersOf u.heddle)) (h : Every i.id (Restarted excl i) u) :
      ∀ j ∈ (settleAfterLeave u).heddle.items, j.id = i.id → j.place ≠ .inService := by
    have habides := restarted_abides excl i
    exact fun j hj hid => habides.ne_inService ((h.settleAfterLeave hu habides).2 j hj hid)
  rcases commitLoom_unchecked (r := r) hwithin hfree hself hfailed with h | ⟨t, h⟩ <;> rw [h]
  · exact ⟨(loomMismatch_settles none hfence).2.1,
      haway (loomMismatch_apart n none hapart) (loomMismatch_every none hs hi hfence)⟩
  · exact ⟨(loom_of_counts (settleAfterLeave_counts _) n).2.trans (bothMismatch_counts n none t i s).1,
      haway (bothMismatch_apart n none t hmem hapart) (bothMismatch_every n none t hmem)⟩

theorem commitOther_trestle_fails {t : TrestleId} (h : r.trestleOk = false) :
    commitOther (.trestle t) cycles i r s = settleAfterLeave (trestleMismatch t i s) := by
  unfold commitOther
  rw [h]

theorem commitOther_selvedge_fails {u : SelvId} (h : r.verifyOk = false) :
    commitOther (.selvedge u) cycles i r s = settleAfterLeave (restartAllOn true (.selvedge u) s) := by
  unfold commitOther
  rw [h]

/-- Settles O36: a commit by its acts, its completion and the key of its reservation; a routine that may not commit by the end, the wait
or the mismatch that its COMMIT comes to. -/
theorem commitCompletes : Obligations.commit_completes := by
  intro s e cycles k i r n hs
  have hapart := idsApart_iff.mp hs
  refine ⟨fun h => ?completion, fun kind fam set pol content v h hacts hv hfree => ?key, fun hi hwords hat => ?before,
    fun hi => ⟨fun c hc => ?error, fun h => ⟨fun hpast => ?watchdog, fun hwithin hheld hout => ?buffer, fun hwithin hfree hself hfailed hfence => ?check⟩⟩,
    fun hr => ⟨fun tr hi hfailed => ?trestle, fun u hi hfailed hzero => ?selvedge⟩⟩
  case completion =>
    obtain ⟨j, hj, hid, hplace, hcycles, hengine, hdone⟩ :=
      ((commitItem_every e k r (mem_of_servingOn h.1)).settleAfterLeave (by simpa using hapart) committed_abides).exists_mem
    exact ⟨_, j, execCommit_commits h, hj, hid, hplace, hcycles, hengine, hdone⟩
  case key =>
    have hkey : liveKey kind fam set pol content v ∈ (settleAfterLeave (commitItem e k i r s)).runs := by
      rw [(settleAfterLeave_settles _).runs]
      exact commitItem_newKey e k hacts hv hfree
    exact ⟨_, _, execCommit_commits h, hkey, rfl, rfl, rfl, rfl, rfl, rfl, rfl, rfl, rfl⟩
  case before =>
    exact congrArg Host.Outcome.next (commitOn_beforeCommit hi hwords hat)
  case error =>
    have hended := routineEnds_ended hs hi
    rcases hc with rfl | rfl
    · exact ⟨routineEnds (.loom n) s, rfl, hended⟩
    · exact ⟨routineEnds (.loom n) s, rfl, hended⟩
  case watchdog =>
    exact ⟨_, congrArg Host.Outcome.next ((commitOn_atCommit h).trans (commitLoom_pastWatchdog hpast)), routineEnds_ended hs hi⟩
  case buffer => exact congrArg Host.Outcome.next ((commitOn_atCommit h).trans (commitLoom_waits hwithin hheld hout))
  case check =>
    exact ⟨_, congrArg Host.Outcome.next (commitOn_atCommit h), commitLoom_mismatch hs hi hwithin hfree hself hfailed hfence⟩
  case trestle =>
    refine ⟨_, congrArg Host.Outcome.next ((commitOn_other (by simp) hi hr).trans (commitOther_trestle_fails hfailed)), ?_⟩
    exact (trestle_of_counts (settleAfterLeave_counts _) tr).trans (trestleMismatch_counts tr i s).1
  case selvedge =>
    obtain ⟨j, hj, hid, -, hfirst⟩ := ((restartAllOn_every hs (mem_itemsOn_of_servingOn hi)).settleAfterLeave
      (restartAllOn_apart true _ hapart) (restarted_abides _ i)).exists_mem
    obtain ⟨hready, hexcluded, honce⟩ := hfirst hzero
    refine ⟨_, j, congrArg Host.Outcome.next ((commitOn_other (by simp) hi hr).trans (commitOther_selvedge_fails hfailed)), hj, hid, hready,
      hexcluded (by simp), honce, ?_⟩
    exact (selv_of_counts ((settleAfterLeave_counts _).trans (restartAllOn_counts true (.selvedge u) s)) u).2

end Sys2Proof.Machine
end

section
/-! PROOFS. Lattice key encapsulation and the hybrids (R243 to R259). -/

namespace Sys2Proof.Machine

open Sys2Proof.Claims

/-! ### What an operation reads of the key it names -/

/-- `t` has the reservations of `s`, and what the facts and the content of a named key are read from: the runs, the slices' UIDs and
the chest (R399, R401). -/
def KeepsKeys (s t : State) : Prop := t.runs = s.runs ∧ t.slices = s.slices ∧ t.backup = s.backup

theorem KeepsKeys.runs {s t : State} (h : KeepsKeys s t) : t.runs = s.runs := h.1

theorem loaded_keepsKeys {i : Item} {s t : State} (h : Loaded i s t) : KeepsKeys s t := by
  rw [h.1]
  exact ⟨rfl, rfl, rfl⟩

/-- A draw and what the unit loads leave the keys. -/
theorem drawn_loaded_keepsKeys {i : Item} {n : Nat} {s t : State} (h : Loaded i (drawn i n s) t) : KeepsKeys s t :=
  show KeepsKeys (drawn i n s) t from loaded_keepsKeys h

theorem keyFacts_congr {s t : State} (h : KeepsKeys s t) (i : Item) : keyFacts t i = keyFacts s i := by
  simp only [keyFacts, itemRun, h.runs]

theorem keyContent_congr {s t : State} (h : KeepsKeys s t) (i : Item) : keyContent t i = keyContent s i := by
  obtain ⟨hruns, hslices, hbackup⟩ := h
  simp only [keyContent, wrapKey, itemUid, findSlice, itemRun, hruns, hslices, hbackup]

theorem namedEk_congr {s t : State} (h : KeepsKeys s t) (i : Item) : namedEk t i = namedEk s i := by
  simp only [namedEk, keyContent_congr h, keyFacts_congr h]

theorem sealedDkBad_congr {s t : State} (h : KeepsKeys s t) (set : Nat) (i : Item) (dk : Bytes) :
    sealedDkBad set t i dk = sealedDkBad set s i dk := by
  simp only [sealedDkBad, keyFacts_congr h]

/-! ### Operations that load a trestle beside their loom (R281) -/

theorem loaded_refl (i : Item) (s : State) : Loaded i s s := ⟨rfl, TrestlesLoaded.refl i s.trestles, fun _ => ⟨rfl, fun _ => rfl⟩⟩

theorem loaded_trans {i : Item} {s t u : State} (h : Loaded i s t) (k : Loaded i t u) : Loaded i s u := by
  obtain ⟨ht, htrestles, hselvs⟩ := h
  obtain ⟨hu, hutrestles, huselvs⟩ := k
  refine ⟨by rw [hu, ht], TrestlesLoaded.trans htrestles hutrestles, fun n => ?_⟩
  obtain ⟨h₁, h₁'⟩ := hselvs n
  obtain ⟨h₂, h₂'⟩ := huselvs n
  exact ⟨by rw [h₂, h₁], fun hn => (h₂' hn).trans (h₁' hn)⟩

theorem loadPart_loaded (i : Item) (fam set : Nat) (secret operands : Bytes) (s : State) : Loaded i s (loadPart i fam set secret operands s) := by
  refine ⟨?_, workContext_loaded i fam set operands secret (contextBits i s) s, fun n => ?_⟩
  · rw [loadPart_frame]
  · rw [loadPart_frame]
    exact ⟨rfl, fun _ => rfl⟩

/-- An operation without a draw, which may load its unit with more and read the key it names. -/
theorem formsKeyed_of_runOp {c : Instr} {s : State} {fam op : Nat} {e : Engine} {i : Item} {input : Bytes}
    {f : Item → State → ItemResult × State} {P : ItemResult → Prop} (hexec : exec c s = .next (runOp fam op e input f s))
    (h : Runs s e fam op input i) (hloads : ∀ t, Loaded i t (f i t).2) (hP : ∀ t, KeepsKeys s t → P (f i t).1) : Forms c s i P := by
  obtain ⟨hs, hfam, hop, hres, hlen⟩ := h
  have hload := loadUnit_loaded i input [] s
  refine ⟨_, _, input, ?_, hlen, loaded_trans hload (hloads _), hP _ (loaded_keepsKeys hload)⟩
  rw [hexec, runOp_runs hs hfam hop hres hlen, formResult_eq_formed]

/-- The same of an operation that draws. -/
theorem formsKeyed_of_runDrawOp {c : Instr} {s : State} {fam op : Nat} {bytes : Item → Nat} {e : Engine} {i : Item} {input : Bytes}
    {f : Item → Bytes → State → ItemResult × State} {P : Bytes → ItemResult → Prop}
    (hexec : exec c s = .next (runDrawOp fam op bytes e input f s)) (h : Runs s e fam op input i) (hdraws : Draws s)
    (hloads : ∀ d t, Loaded i t (f i d t).2) (hP : ∀ d t, d.length = bytes i → KeepsKeys s t → P d (f i d t).1) :
    FormsDrawn c s i (bytes i) P := by
  obtain ⟨hs, hfam, hop, hres, hlen⟩ := h
  have hload := loadUnit_loaded i input (drawBytes i (bytes i) s) (drawn i (bytes i) s)
  refine ⟨_, _, input, ?_, hlen, loaded_trans hload (hloads (drawBytes i (bytes i) s) _), hP _ _ (unitDraw_length i _ s) (drawn_loaded_keepsKeys hload)⟩
  rw [hexec, runDrawOp_runs hs hfam hop hres hlen hdraws, formResult_eq_formed, itemDraw_eq_drawn]
  rfl

/-! ### Results under a cache lookup (R216, R217) -/

/-- A lookup adds what the cache does at COMMIT, a touch or an installation, and notes whether it hit. -/
theorem cacheUse_adds (s : State) (i : Item) (c : CacheEntry) (r : ItemResult) :
    ∃ acts l, cacheUse s i c r = { r with acts := r.acts ++ acts, lookup := l } ∧ ∀ a ∈ acts, a = .loomInstall c ∨ a = .loomTouch c := by
  unfold cacheUse
  split
  · split
    · exact ⟨[.loomTouch c], some true, rfl, by simp⟩
    · exact ⟨[.loomInstall c], some false, rfl, by simp⟩
  · exact ⟨[], r.lookup, by simp, by simp⟩

theorem cacheUse_rejects (s : State) (i : Item) (c : CacheEntry) (st : Status) : Rejects st (cacheUse s i c (failResult st)) := by
  obtain ⟨acts, l, hr, hacts⟩ := cacheUse_adds s i c (failResult st)
  rw [hr]
  exact ⟨rfl, rfl, rfl, fun a ha => ⟨c, hacts a ha⟩⟩

theorem cacheUse_sharedAs {s t : State} {i : Item} (h : KeepsKeys s t) (c : CacheEntry) (pub secret : Bytes) :
    SharedAs s i pub secret (cacheUse t i c (depositOr t i pub secret)) := by
  obtain ⟨acts, l, hr, -⟩ := cacheUse_adds t i c (depositOr t i pub secret)
  rw [hr]
  exact depositOr_sharedAs h.runs pub secret acts l

theorem cacheUse_shared {s t : State} {i : Item} {pub secret : Bytes} {pubLen secretLen : Nat} (h : KeepsKeys s t) (c : CacheEntry)
    (hpub : pub.length = pubLen) (hsecret : secret.length = secretLen) :
    Shared s i pubLen secretLen (cacheUse t i c (depositOr t i pub secret)) :=
  ⟨pub, secret, hpub, hsecret, cacheUse_sharedAs h c pub secret⟩

/-! ### Lengths (R243, R248, R256) -/

@[simp] theorem sha3_256_length (m : Bytes) : (sha3_256 m).length = 32 := primBytes_length _ _ 32

@[simp] theorem sha3_512_length (m : Bytes) : (sha3_512 m).length = 64 := primBytes_length _ _ 64

theorem coeffsOf_length (q : Nat) (b : Bytes) : (coeffsOf q b).length = b.length / 2 := by
  fun_induction coeffsOf q b with
  | case1 x y r ih =>
    simp only [List.length_cons, ih]
    omega
  | case2 b hshort =>
    match b, hshort with
    | [], _ => rfl
    | [_], _ => simp
    | x :: y :: r, hshort => exact absurd rfl (hshort x y r)

theorem encode12_length (l : List Nat) : (encode12 l).length = l.length / 2 * 3 := by
  fun_induction encode12 l with
  | case1 a b r ih =>
    simp only [List.length_append, leBytes_length, List.length_cons, ih]
    omega
  | case2 l hshort =>
    match l, hshort with
    | [], _ => rfl
    | [_], _ => simp
    | a :: b :: r, hshort => exact absurd rfl (hshort a b r)

/-- Two bytes are drawn for each coefficient of 12 bits, 256 coefficients for each polynomial. -/
theorem encode12_coeffsOf_length {k : Nat} {b : Bytes} (q : Nat) (h : b.length = 512 * k) : (encode12 (coeffsOf q b)).length = 384 * k := by
  rw [encode12_length, coeffsOf_length, h]
  omega

@[simp] theorem kemPke_length (set : Nat) (d : Bytes) : (kemPke set d).length = 384 * kemK set :=
  encode12_coeffsOf_length _ (primBytes_length ..)

@[simp] theorem kemEkFrom_length (set : Nat) (d : Bytes) : (kemEkFrom set d).length = kemEk set := by
  rw [kemEkFrom, List.length_append, encode12_coeffsOf_length _ (primBytes_length ..), List.length_take, sha3_512_length]
  rfl

theorem kemDkFrom_length {seed : Bytes} (set : Nat) (h : seed.length = 64) : (kemDkFrom set seed).length = kemDk set := by
  simp only [kemDkFrom, kemEk, kemDk, List.length_append, kemPke_length, kemEkFrom_length, sha3_256_length, List.length_drop, h]
  omega

theorem kemEk_sizes {set : Nat} (h₁ : 1 ≤ set) (h₃ : set ≤ 3) : kemEk set = [0, 800, 1184, 1568].getD set 0 := by
  interval_cases set <;> rfl

theorem kemDk_sizes {set : Nat} (h₁ : 1 ≤ set) (h₃ : set ≤ 3) : kemDk set = [0, 1632, 2400, 3168].getD set 0 := by
  interval_cases set <;> rfl

@[simp] theorem kemEncapsTo_ciphertext_length (set : Nat) (ek m : Bytes) : (kemEncapsTo set ek m).1.length = kemCt set :=
  primBytes_length _ _ _

@[simp] theorem kemEncapsTo_secret_length (set : Nat) (ek m : Bytes) : (kemEncapsTo set ek m).2.length = 32 := by
  simp [kemEncapsTo]

/-- K is that of a message of 32 bytes where the message re-encrypts to c, else J(z ‖ c) (R253). -/
theorem kemDecapsOf_message (set : Nat) (dk c : Bytes) :
    ∃ m, m.length = 32 ∧ kemDecapsOf set dk c =
      if (kemEncapsTo set (ekOf set dk) m).1 = c then (kemEncapsTo set (ekOf set dk) m).2 else shake256 (dk.drop (kemDk set - 32) ++ c) 32 :=
  ⟨primBytes (.decapsulated 0x01 set) [dk.take (384 * kemK set), c] 32, primBytes_length _ _ _, by simp [kemDecapsOf]⟩

@[simp] theorem kemDecapsOf_length (set : Nat) (dk c : Bytes) : (kemDecapsOf set dk c).length = 32 := by
  obtain ⟨m, -, hm⟩ := kemDecapsOf_message set dk c
  rw [hm]
  split
  · exact kemEncapsTo_secret_length ..
  · exact shake256_length ..

/-! ### ML-KEM -/

/-- The new key holds the decryption key, the ek written, its hash and z (R243). -/
theorem kemKeygen_makes {s t : State} {i : Item} {seed : Bytes} {origin : Nat} (h : t.runs = s.runs) (hseed : seed.length = 64) :
    NewKey s i 1 0x01 origin (oneShotOperand i.entry) (kemEk (setOf i.entry)) (kemDk (setOf i.entry)) (kemKeygen origin seed i t) ∧
      ∃ pke, CommitAct.run 1 0x01 (setOf i.entry) (newPolicy (policyOperand i.entry) 1 0x01 origin (oneShotOperand i.entry))
        (pke ++ (kemKeygen origin seed i t).output ++ sha3_256 (kemKeygen origin seed i t).output ++ seed.drop 32) 0 false ∈
          (kemKeygen origin seed i t).acts :=
  ⟨keyResult_newKey _ h (kemEkFrom_length ..) (kemDkFrom_length _ hseed), kemPke (setOf i.entry) (seed.take 32), List.mem_cons_self⟩

/-- Encapsulation to ek rejects a key that failed its check, else shares c and the first half of G(m ‖ H(ek)) (R245, R250). -/
theorem kemEncaps_forms {s t : State} {i : Item} {bad : Bool} (h : KeepsKeys s t) (ek m : Bytes) (name : KeyName) :
    if bad = true then Rejects .rejectEncoding (kemEncaps bad ek m name i t)
    else ∃ c, c.length = kemCt (setOf i.entry) ∧ SharedAs s i c ((sha3_512 (m ++ sha3_256 ek)).take 32) (kemEncaps bad ek m name i t) := by
  cases bad with
  | true => exact cacheUse_rejects ..
  | false => exact ⟨_, kemEncapsTo_ciphertext_length (setOf i.entry) ek m, cacheUse_sharedAs h _ _ _⟩

theorem mlkemDecaps_forms {s : State} {e : Engine} {i : Item} {input : Bytes} (h : Runs s e 0x01 0x12 input i) :
    Forms (.mlkemDecaps e input) s i fun r =>
      if sealedDkBad (setOf i.entry) s i (keyContent s i) = true then Rejects .rejectEncoding r
      else ∃ m x, x = kemEncapsTo (setOf i.entry) (ekOf (setOf i.entry) (keyContent s i)) m ∧ m.length = 32 ∧
        SharedAs s i [] (if x.1 = input then x.2 else shake256 ((keyContent s i).drop (kemDk (setOf i.entry) - 32) ++ input) 32) r ∧
        (i.record = none → r.status = .ok) ∧ Shared s i 0 32 r := by
  refine formsKeyed_of_runOp rfl h (fun t => loaded_refl i t) fun t ht => ?_
  dsimp only
  rw [keyContent_congr ht, sealedDkBad_congr ht]
  split
  · exact cacheUse_rejects ..
  · obtain ⟨m, hm, hsecret⟩ := kemDecapsOf_message (setOf i.entry) (keyContent s i) input
    have hshared (c : CacheEntry) := cacheUse_sharedAs (i := i) ht c [] (kemDecapsOf (setOf i.entry) (keyContent s i) input)
    exact ⟨m, _, rfl, hm, hsecret ▸ hshared _, fun _ => (hshared _).1, _, _, rfl, kemDecapsOf_length .., hshared _⟩

/-- Settles O1: key generation by what its key holds, encapsulation by the check of its key, decapsulation by the message. -/
theorem kemCompletes : Obligations.kem_completes := by
  refine ⟨fun s e i input h₁ h₃ => ?_, fun s e i input h₁ h₃ hdraws => ⟨fun h => ?encaps, fun h => ?encapsEk⟩,
    fun s e i input h => mlkemDecaps_forms h⟩
  · rw [← kemEk_sizes h₁ h₃, ← kemDk_sizes h₁ h₃]
    refine ⟨fun h hdraws => ?_, fun h hseed => ?_⟩
    · exact formsKeyed_of_runDrawOp (bytes := fun _ => 64) rfl h hdraws (fun _ t => loaded_refl i t) fun d t hd ht => kemKeygen_makes ht.runs hd
    · exact formsKeyed_of_runOp rfl h (fun t => loaded_refl i t) fun t ht => kemKeygen_makes ht.runs hseed
  case encaps =>
    refine formsKeyed_of_runDrawOp (bytes := fun _ => 32) rfl h hdraws (fun _ t => loaded_refl i t) fun m t _ ht => ?_
    dsimp only
    rw [keyContent_congr ht, sealedDkBad_congr ht, namedEk_congr ht]
    exact kemEncaps_forms ht _ m _
  case encapsEk =>
    exact formsKeyed_of_runDrawOp (bytes := fun _ => 32) rfl h hdraws (fun _ t => loaded_refl i t) fun m t _ ht => kemEncaps_forms ht input m _

/-! ### The hybrids' parts (R256, R258) -/

theorem ecEncode_length (set : Nat) (x : Proj) : (ecEncode set x).length = 1 + 2 * ecCoord set := by
  unfold ecEncode
  split
  · simp only [List.length_cons, List.length_append, beBytes_length]
    omega
  · simp only [List.length_cons, zeros_length]
    omega

/-- The point's encoding is SEC 1's uncompressed one. -/
theorem ecEncode_head? (set : Nat) (x : Proj) : (ecEncode set x).head? = some 4 := by
  unfold ecEncode
  split
  · rfl
  · rfl

theorem ecAgree_length {set : Nat} {d peer z : Bytes} (h : ecAgree set d peer = some z) : z.length = ecCoord set := by
  obtain ⟨x, -, rfl⟩ := Option.map_eq_some_iff.mp h
  exact beBytes_length ..

@[simp] theorem xAgree_length (set : Nat) (k u : Bytes) : (xAgree set k u).length = xPk set := leBytes_length ..

theorem hybPublic_length {set : Nat} (h₁ : 1 ≤ set) (h₃ : set ≤ 3) (scalar : Bytes) : (hybPublic set scalar).length = hybPub set := by
  interval_cases set
  · exact xAgree_length ..
  · exact ecEncode_length ..
  · exact xAgree_length ..

theorem hybAgree_length {set : Nat} (h₁ : 1 ≤ set) (h₃ : set ≤ 3) (scalar pub : Bytes) : (hybAgree set scalar pub).length = hybScalar set := by
  interval_cases set
  · exact xAgree_length ..
  · change ((ecAgree 2 scalar pub).getD (zeros 48)).length = 48
    cases hz : ecAgree 2 scalar pub with
    | some z => exact ecAgree_length hz
    | none => rfl
  · exact xAgree_length ..

theorem hybScalarFrom_length {set : Nat} {d : Bytes} (h : d.length = hybScalar set) : (hybScalarFrom set d).length = hybScalar set := by
  unfold hybScalarFrom
  split
  · next hset =>
    rw [beBytes_length, hset]
    rfl
  · exact h

@[simp] theorem hybJoin_length (set : Nat) (kem cls : Bytes) : (hybJoin set kem cls).length = kem.length + cls.length := by
  unfold hybJoin
  split
  · rw [List.length_append, Nat.add_comm]
  · rw [List.length_append]

/-- A share: the ML-KEM part with the classical part's public value. -/
theorem hybJoin_public_length {set : Nat} (h₁ : 1 ≤ set) (h₃ : set ≤ 3) (kem scalar : Bytes) :
    (hybJoin set kem (hybPublic set scalar)).length = kem.length + hybPub set := by
  rw [hybJoin_length, hybPublic_length h₁ h₃]

/-- A share of set 0x02 begins with the point's encoding. -/
theorem hybJoin_public_head? (kem scalar : Bytes) : (hybJoin 2 kem (hybPublic 2 scalar)).head? = some 4 := by
  rw [hybJoin, if_pos rfl, hybPublic, if_pos rfl, ecPkOf, List.head?_append, ecEncode_head?]
  rfl

theorem hybClient_sizes {set : Nat} (h₁ : 1 ≤ set) (h₃ : set ≤ 3) : hybClient set = [0, 1216, 1665, 1624].getD set 0 := by
  interval_cases set <;> rfl

theorem hybDk_sizes {set : Nat} (h₁ : 1 ≤ set) (h₃ : set ≤ 3) : kemDk (hybKem set) + hybScalar set = [0, 2432, 3216, 3224].getD set 0 := by
  interval_cases set <;> rfl

theorem hybServer_sizes {set : Nat} (h₁ : 1 ≤ set) (h₃ : set ≤ 3) : hybServer set = [0, 1120, 1665, 1624].getD set 0 := by
  interval_cases set <;> rfl

theorem hybSecret_sizes {set : Nat} (h₁ : 1 ≤ set) (h₃ : set ≤ 3) : hybSecret set = [0, 64, 80, 88].getD set 0 := by
  interval_cases set <;> rfl

/-- The combined secret of the two parts' secrets. -/
theorem hybJoin_secret_length {set : Nat} {kem : Bytes} (h₁ : 1 ≤ set) (h₃ : set ≤ 3) (hkem : kem.length = 32) (scalar pub : Bytes) :
    (hybJoin set kem (hybAgree set scalar pub)).length = hybSecret set := by
  rw [hybJoin_length, hkem, hybAgree_length h₁ h₃, hybSecret]

/-! ### Hybrid operations -/

theorem hybKeygen_forms {s : State} {e : Engine} {i : Item} (h₁ : 1 ≤ setOf i.entry) (h₃ : setOf i.entry ≤ 3) (h : Runs s e 0x20 0x18 [] i)
    (hdraws : Draws s) :
    FormsDrawn (.hybKeygen e) s i (64 + hybScalar (setOf i.entry)) fun _ r =>
      NewKey s i 1 0x20 0 (oneShotOperand i.entry) (hybClient (setOf i.entry)) (kemDk (hybKem (setOf i.entry)) + hybScalar (setOf i.entry)) r ∧
        (setOf i.entry = 2 → r.output.head? = some 4) := by
  refine formsKeyed_of_runDrawOp (bytes := fun i => 64 + hybScalar (setOf i.entry)) rfl h hdraws (fun _ t => loadPart_loaded i _ _ _ _ t)
    fun d t hd ht => ⟨keyResult_newKey _ ht.runs ?share ?key, fun hset => ?head⟩
  case share => exact (hybJoin_public_length h₁ h₃ ..).trans (by rw [kemEkFrom_length, hybClient])
  case key =>
    have hseed : (d.take 64).length = 64 := by
      rw [List.length_take, hd]
      omega
    have hscalar : (d.drop 64).length = hybScalar (setOf i.entry) := by
      rw [List.length_drop, hd]
      omega
    rw [List.length_append, kemDkFrom_length _ hseed, hybScalarFrom_length hscalar]
  case head =>
    change (hybJoin (setOf i.entry) _ (hybPublic (setOf i.entry) _)).head? = some 4
    rw [hset]
    exact hybJoin_public_head? ..

/-- HYB_ENCAPS judges the ML-KEM part first, then the classical part (R258). -/
theorem hybEncaps_forms {s : State} {e : Engine} {i : Item} {input : Bytes} (h₁ : 1 ≤ setOf i.entry) (h₃ : setOf i.entry ≤ 3)
    (h : Runs s e 0x20 0x19 input i) (hdraws : Draws s) :
    FormsDrawn (.hybEncaps e input) s i (32 + hybScalar (setOf i.entry)) fun d r =>
      if ekBad (hybKem (setOf i.entry)) (hybSplit (setOf i.entry) (kemEk (hybKem (setOf i.entry))) input).1 = true then Rejects .rejectEncoding r
      else match hybClassicalBad (setOf i.entry) (hybScalarFrom (setOf i.entry) (d.drop 32)) (hybSplit (setOf i.entry) (kemEk (hybKem (setOf i.entry))) input).2 with
        | some st => Rejects st r
        | none => Shared s i (hybServer (setOf i.entry)) (hybSecret (setOf i.entry)) r := by
  refine formsKeyed_of_runDrawOp (bytes := fun i => 32 + hybScalar (setOf i.entry)) rfl h hdraws (fun _ t => loadPart_loaded i _ _ _ _ t)
    fun d t _ ht => ?_
  dsimp only
  split
  · exact cacheUse_rejects ..
  · cases hybClassicalBad (setOf i.entry) (hybScalarFrom (setOf i.entry) (d.drop 32)) (hybSplit (setOf i.entry) (kemEk (hybKem (setOf i.entry))) input).2 with
    | some st => exact cacheUse_rejects ..
    | none =>
      refine cacheUse_shared ht _ ?_ (hybJoin_secret_length h₁ h₃ (kemEncapsTo_secret_length ..) _ _)
      rw [hybJoin_public_length h₁ h₃, kemEncapsTo_ciphertext_length, hybServer]

/-- HYB_DECAPS judges a sealed record's dk first, then the classical part (R253, R258). -/
theorem hybDecaps_forms {s : State} {e : Engine} {i : Item} {input : Bytes} (h₁ : 1 ≤ setOf i.entry) (h₃ : setOf i.entry ≤ 3)
    (h : Runs s e 0x20 0x1A input i) :
    Forms (.hybDecaps e input) s i fun r =>
      if sealedDkBad (hybKem (setOf i.entry)) s i ((keyContent s i).take (kemDk (hybKem (setOf i.entry)))) = true then Rejects .rejectEncoding r
      else match hybClassicalBad (setOf i.entry) ((keyContent s i).drop (kemDk (hybKem (setOf i.entry)))) (hybSplit (setOf i.entry) (kemCt (hybKem (setOf i.entry))) input).2 with
        | some st => Rejects st r
        | none => Shared s i 0 (hybSecret (setOf i.entry)) r := by
  refine formsKeyed_of_runOp rfl h (fun t => loadPart_loaded i _ _ _ _ t) fun t ht => ?_
  dsimp only
  rw [keyContent_congr ht, sealedDkBad_congr ht]
  split
  · exact cacheUse_rejects ..
  · cases hybClassicalBad (setOf i.entry) ((keyContent s i).drop (kemDk (hybKem (setOf i.entry)))) (hybSplit (setOf i.entry) (kemCt (hybKem (setOf i.entry))) input).2 with
    | some st => exact cacheUse_rejects ..
    | none => exact cacheUse_shared ht _ rfl (hybJoin_secret_length h₁ h₃ (kemDecapsOf_length ..) _ _)

/-- Settles O2, operation by operation; the sizes of the set are the sums of the parts' own. -/
theorem hybridCompletes : Obligations.hybrid_completes := by
  intro s e i input h₁ h₃
  rw [← hybClient_sizes h₁ h₃, ← hybDk_sizes h₁ h₃, ← hybServer_sizes h₁ h₃, ← hybSecret_sizes h₁ h₃]
  exact ⟨hybKeygen_forms h₁ h₃, hybEncaps_forms h₁ h₃, hybDecaps_forms h₁ h₃⟩

end Sys2Proof.Machine
end

section
/-! PROOFS. Lattice signatures and composites (R264 to R286). -/

namespace Sys2Proof.Machine

open Sys2Proof.Claims

/-! ### What an operation reads of the signature key it names (R271, R273, R282) -/

theorem namedPk_congr {s t : State} (h : KeepsKeys s t) (i : Item) (skLen : Nat) : namedPk t i skLen = namedPk s i skLen := by
  simp only [namedPk, keyContent_congr h, keyFacts_congr h]

theorem sealedDsaBad_congr {s t : State} (h : KeepsKeys s t) (set : Nat) (i : Item) : sealedDsaBad set t i = sealedDsaBad set s i := by
  simp only [sealedDsaBad, keyContent_congr h, keyFacts_congr h]

/-- A key in drawers, or in the input, is not checked as a sealed one is. -/
theorem sealedDsaBad_of_no_record {i : Item} (h : i.record = none) (set : Nat) (s : State) : sealedDsaBad set s i = false := by
  simp [sealedDsaBad, h]

theorem namedCompPk_congr {s t : State} (h : KeepsKeys s t) (i : Item) : namedCompPk t i = namedCompPk s i := by
  simp only [namedCompPk, keyContent_congr h, keyFacts_congr h]

theorem compSealedBad_congr {s t : State} (h : KeepsKeys s t) (i : Item) : compSealedBad t i = compSealedBad s i := by
  simp only [compSealedBad, keyContent_congr h, keyFacts_congr h]

/-! ### Results under a self-check and a cache lookup (R216 to R218, R281) -/

@[simp] theorem cacheUse_status (s : State) (i : Item) (c : CacheEntry) (r : ItemResult) : (cacheUse s i c r).status = r.status := by
  obtain ⟨acts, l, hr, -⟩ := cacheUse_adds s i c r
  rw [hr]

@[simp] theorem cacheUse_output (s : State) (i : Item) (c : CacheEntry) (r : ItemResult) : (cacheUse s i c r).output = r.output := by
  obtain ⟨acts, l, hr, -⟩ := cacheUse_adds s i c r
  rw [hr]

@[simp] theorem cacheUse_word (s : State) (i : Item) (c : CacheEntry) (r : ItemResult) : (cacheUse s i c r).word = r.word := by
  obtain ⟨acts, l, hr, -⟩ := cacheUse_adds s i c r
  rw [hr]

theorem cacheUse_writes {s : State} {i : Item} {n : Nat} {r : ItemResult} (c : CacheEntry) (h : Writes n r) : Writes n (cacheUse s i c r) := by
  simpa [Writes] using h

theorem cacheUse_ends (s : State) (i : Item) (c : CacheEntry) (st : Status) : Ends st (cacheUse s i c (failResult st)) := by
  simp [Ends, failResult]

/-- A verification's outcome: its key's rejection, or the verdict. -/
theorem cacheUse_verdict (s : State) (i : Item) (c : CacheEntry) (bad holds : Bool) :
    if bad = true then Ends .rejectEncoding (cacheUse s i c (verdict bad holds)) else Verdict holds (cacheUse s i c (verdict bad holds)) := by
  cases bad with
  | true => exact cacheUse_ends ..
  | false => cases holds <;> simp [Verdict, verdict, okResult, failResult]

/-- A key that a key generation makes, with its own expansion for the cache and a self-check's outcome. -/
theorem cacheNew_checked_newKey {s t : State} {i : Item} {kind fam origin outLen contentLen : Nat} {oneShot : Bool} {content out : Bytes}
    (ok : Bool) (c : CacheEntry) (h : KeepsKeys s t) (hout : out.length = outLen) (hcontent : content.length = contentLen) :
    NewKey s i kind fam origin oneShot outLen contentLen (checked ok (cacheNew c
      (keyResult t i kind fam (setOf i.entry) (newPolicy (policyOperand i.entry) kind fam origin oneShot) content out))) :=
  keyResult_newKey [.loomInstall c] h.runs hout hcontent

/-! ### ML-DSA (R264, R272) -/

theorem dsaPkFrom_length {set : Nat} {rho : Bytes} (h₁ : 1 ≤ set) (h₃ : set ≤ 3) (hrho : rho.length = 32) (secret : Bytes) :
    (dsaPkFrom set rho secret).length = dsaPk set := by
  have hpk : 32 ≤ dsaPk set := by interval_cases set <;> decide
  rw [dsaPkFrom, List.length_append, primBytes_length, hrho]
  omega

theorem dsaSkFrom_length {set : Nat} (h₁ : 1 ≤ set) (h₃ : set ≤ 3) (seed : Bytes) : (dsaSkFrom set seed).length = dsaSk set := by
  have hsk : 128 ≤ dsaSk set := by interval_cases set <;> decide
  simp only [dsaSkFrom, trOf, List.length_append, List.length_take, List.length_drop, primBytes_length, shake256_length]
  omega

theorem dsaPkOf_length {set : Nat} {sk : Bytes} (h₁ : 1 ≤ set) (h₃ : set ≤ 3) (hsk : sk.length = dsaSk set) :
    (dsaPkOf set sk).length = dsaPk set := by
  have hrho : 32 ≤ dsaSk set := by interval_cases set <;> decide
  refine dsaPkFrom_length h₁ h₃ ?_ _
  rw [List.length_take, hsk]
  omega

@[simp] theorem dsaSigOf_length (set variant ctxLen : Nat) (sk msg rnd : Bytes) : (dsaSigOf set variant ctxLen sk msg rnd).length = dsaSig set :=
  primBytes_length ..

/-- A key's content: sk, then pk. -/
theorem dsaKey_sizes {set : Nat} (h₁ : 1 ≤ set) (h₃ : set ≤ 3) : dsaSk set + dsaPk set = [0, 3872, 5984, 7488].getD set 0 := by
  interval_cases set <;> rfl

theorem dsaKeygen_makes {s t : State} {i : Item} (h₁ : 1 ≤ setOf i.entry) (h₃ : setOf i.entry ≤ 3) (h : KeepsKeys s t) (origin : Nat) (seed : Bytes) :
    NewKey s i 1 0x02 origin false (dsaPk (setOf i.entry)) (dsaSk (setOf i.entry) + dsaPk (setOf i.entry)) (dsaKeygen origin seed i t) := by
  have hsk := dsaSkFrom_length h₁ h₃ seed
  have hpk := dsaPkOf_length h₁ h₃ hsk
  exact cacheNew_checked_newKey _ _ h hpk (by rw [List.length_append, hsk, hpk])

/-- Signing rejects a sealed key that failed its check, else writes a signature of the set's length (R273). -/
theorem dsaSign_writes {s t : State} {i : Item} (h : KeepsKeys s t) (variant : Nat) (input rnd : Bytes) :
    if sealedDsaBad (setOf i.entry) s i = true then Rejects .rejectEncoding (dsaSign variant input rnd i t)
    else Writes (dsaSig (setOf i.entry)) (dsaSign variant input rnd i t) := by
  simp only [dsaSign, sealedDsaBad_congr h]
  split
  · exact cacheUse_rejects ..
  · exact cacheUse_writes _ ⟨rfl, dsaSigOf_length .., rfl⟩

theorem execSignWith_deterministic {op : Nat} {variant : Item → Nat} {e : Engine} {input : Bytes} {s : State} {i : Item}
    (hs : servingOn s e = some i) (hdet : deterministic i.entry = true) :
    execSignWith op variant e input s = runOp 0x02 op e input (fun i s => (dsaSign (variant i) input (zeros 32) i s, s)) s := by
  simp only [execSignWith, hs, hdet, if_true]

theorem execSignWith_hedged {op : Nat} {variant : Item → Nat} {e : Engine} {input : Bytes} {s : State} {i : Item}
    (hs : servingOn s e = some i) (hdet : deterministic i.entry = false) :
    execSignWith op variant e input s = runDrawOp 0x02 op (fun _ => 32) e input (fun i d s => (dsaSign (variant i) input d i s, s)) s := by
  simp only [execSignWith, hs, hdet, Bool.false_eq_true, if_false]

/-- Under DETERMINISTIC nothing is drawn, otherwise rnd is (R267). -/
theorem dsaSign_forms {c : Instr} {op : Nat} {variant : Item → Nat} {s : State} {e : Engine} {i : Item} {input : Bytes}
    (hexec : exec c s = .next (execSignWith op variant e input s)) (h : Runs s e 0x02 op input i) :
    (deterministic i.entry = true →
      Forms c s i fun r => if sealedDsaBad (setOf i.entry) s i = true then Rejects .rejectEncoding r else Writes (dsaSig (setOf i.entry)) r) ∧
    (deterministic i.entry = false → Draws s →
      FormsDrawn c s i 32 fun _ r => if sealedDsaBad (setOf i.entry) s i = true then Rejects .rejectEncoding r else Writes (dsaSig (setOf i.entry)) r) := by
  refine ⟨fun hdet => ?_, fun hdet hdraws => ?_⟩
  · rw [execSignWith_deterministic h.1 hdet] at hexec
    exact formsKeyed_of_runOp hexec h (fun t => loaded_refl i t) fun t ht => dsaSign_writes ht ..
  · rw [execSignWith_hedged h.1 hdet] at hexec
    exact formsKeyed_of_runDrawOp hexec h hdraws (fun _ t => loaded_refl i t) fun d t _ ht => dsaSign_writes ht ..

/-- Verification judges a sealed key first, then gives the verdict (R273). -/
theorem dsaVerify_judges {s t : State} {i : Item} (h : KeepsKeys s t) (variant : Nat) (pk : Bytes) (name : KeyName) (input : Bytes) :
    if sealedDsaBad (setOf i.entry) s i = true then Ends .rejectEncoding (dsaVerify variant pk name input i t)
    else Verdict (dsaHolds (setOf i.entry) variant (ctxLenOf i.entry) pk (input.take (input.length - sigLenOf i.entry))
      (input.drop (input.length - sigLenOf i.entry))) (dsaVerify variant pk name input i t) := by
  rw [← sealedDsaBad_congr h]
  exact cacheUse_verdict ..

/-- Verification under the key that the descriptor names, in the pure or a pre-hash form. -/
theorem dsaVerify_forms {c : Instr} {op : Nat} {variant : Item → Nat} {s : State} {e : Engine} {i : Item} {input : Bytes}
    (hexec : exec c s = .next (runOp 0x02 op e input (fun i s =>
      (dsaVerify (variant i) (namedPk s i (dsaSk (setOf i.entry))) (keyNameOf i 0x02 (namedPk s i (dsaSk (setOf i.entry)))) input i s, s)) s))
    (h : Runs s e 0x02 op input i) :
    Forms c s i fun r =>
      if sealedDsaBad (setOf i.entry) s i = true then Ends .rejectEncoding r
      else Verdict (dsaHolds (setOf i.entry) (variant i) (ctxLenOf i.entry) (namedPk s i (dsaSk (setOf i.entry)))
        (input.take (input.length - sigLenOf i.entry)) (input.drop (input.length - sigLenOf i.entry))) r := by
  refine formsKeyed_of_runOp hexec h (fun t => loaded_refl i t) fun t ht => ?_
  rw [← namedPk_congr ht]
  exact dsaVerify_judges ht ..

/-- Verification under a key that the input brings, ahead of the message. -/
theorem dsaVerifyPk_forms {c : Instr} {op : Nat} {variant : Item → Nat} {s : State} {e : Engine} {i : Item} {input : Bytes}
    (hexec : exec c s = .next (runOp 0x02 op e input (fun i s =>
      (dsaVerify (variant i) (input.take (dsaPk (setOf i.entry))) (inputKey 0x02 (input.take (dsaPk (setOf i.entry))))
        (input.drop (dsaPk (setOf i.entry))) i s, s)) s))
    (hrecord : i.record = none) (h : Runs s e 0x02 op input i) :
    Forms c s i fun r =>
      Verdict (dsaHolds (setOf i.entry) (variant i) (ctxLenOf i.entry) (input.take (dsaPk (setOf i.entry)))
        ((input.drop (dsaPk (setOf i.entry))).take (input.length - dsaPk (setOf i.entry) - sigLenOf i.entry))
        ((input.drop (dsaPk (setOf i.entry))).drop (input.length - dsaPk (setOf i.entry) - sigLenOf i.entry))) r := by
  refine formsKeyed_of_runOp hexec h (fun t => loaded_refl i t) fun t ht => ?_
  have hjudged := dsaVerify_judges (i := i) ht (variant i) (input.take (dsaPk (setOf i.entry))) (inputKey 0x02 (input.take (dsaPk (setOf i.entry))))
    (input.drop (dsaPk (setOf i.entry)))
  rw [sealedDsaBad_of_no_record hrecord, if_neg Bool.false_ne_true, List.length_drop] at hjudged
  exact hjudged

/-- Settles O3: key generation by the lengths of its key, signing by DETERMINISTIC, verification by where its key comes from. -/
theorem mldsaCompletes : Obligations.mldsa_completes := by
  refine ⟨fun s e i input h₁ h₃ => ?_, fun s e i input => ⟨?named, ?brought, fun _ _ _ _ _ _ => rfl⟩⟩
  · rw [← dsaKey_sizes h₁ h₃]
    refine ⟨fun h hdraws => ?_, fun h => ?_, ?_, fun hrecord => sealedDsaBad_of_no_record hrecord ..⟩
    · exact formsKeyed_of_runDrawOp (bytes := fun _ => 32) rfl h hdraws (fun _ t => loaded_refl i t) fun d t _ ht => dsaKeygen_makes h₁ h₃ ht 0 d
    · exact formsKeyed_of_runOp rfl h (fun t => loaded_refl i t) fun t ht => dsaKeygen_makes h₁ h₃ ht 1 input
    · rintro c op (⟨rfl, rfl⟩ | ⟨rfl, rfl⟩) h
      · exact dsaSign_forms (variant := fun _ => 0) rfl h
      · exact dsaSign_forms (variant := fun i => phAlgOf i.entry) rfl h
  case named =>
    rintro c op variant (⟨rfl, rfl, rfl⟩ | ⟨rfl, rfl, rfl⟩) h
    · exact dsaVerify_forms (variant := fun _ => 0) rfl h
    · exact dsaVerify_forms (variant := fun i => phAlgOf i.entry) rfl h
  case brought =>
    rintro c op variant (⟨rfl, rfl, rfl⟩ | ⟨rfl, rfl, rfl⟩) hrecord h
    · exact dsaVerifyPk_forms (variant := fun _ => 0) rfl hrecord h
    · exact dsaVerifyPk_forms (variant := fun i => phAlgOf i.entry) rfl hrecord h

/-! ### FN-DSA encodings (R264) -/

@[simp] theorem pack14_length (cs : List Nat) : (pack14 cs).length = 14 * cs.length / 8 := beBytes_length ..

/-- h has as many coefficients as the set's degree, each drawn from two bytes. -/
theorem fnPkFrom_length {set : Nat} (h₁ : 1 ≤ set) (h₂ : set ≤ 2) (seed : Bytes) : (fnPkFrom set seed).length = fnPk set := by
  rw [fnPkFrom, List.length_cons, pack14_length, coeffsOf_length, primBytes_length]
  interval_cases set <;> rfl

theorem fnSkFrom_length {set : Nat} (h₁ : 1 ≤ set) (h₂ : set ≤ 2) (seed : Bytes) : (fnSkFrom set seed).length = fnSk set := by
  rw [fnSkFrom, List.length_cons, primBytes_length]
  interval_cases set <;> rfl

/-- The header, the salt and at least one byte of s2. -/
theorem fnSigOf_length_bounds {set : Nat} {salt : Bytes} (h₁ : 1 ≤ set) (h₂ : set ≤ 2) (hsalt : salt.length = 40) (sk msg : Bytes) :
    42 ≤ (fnSigOf set sk msg salt).length ∧ (fnSigOf set sk msg salt).length ≤ fnSigMax set := by
  have hmax : 41 < fnSigMax set := by interval_cases set <;> decide
  have hvar := Nat.mod_lt (Config.variableLength (.signature 0x03 set 0) [sk, msg, salt]) (Nat.sub_pos_of_lt hmax)
  rw [fnSigOf, List.length_cons, List.length_append, primBytes_length, hsalt]
  omega

theorem fnKey_sizes {set : Nat} (h₁ : 1 ≤ set) (h₂ : set ≤ 2) : fnSk set + fnPk set = [0, 2178, 4098].getD set 0 := by
  interval_cases set <;> rfl

theorem fnPk_header {set : Nat} (h₁ : 1 ≤ set) (h₂ : set ≤ 2) : BitVec.ofNat 8 (0x08 + set) = [0, 0x09, 0x0A].getD set 0 := by
  interval_cases set <;> rfl

theorem fnSig_header {set : Nat} (h₁ : 1 ≤ set) (h₂ : set ≤ 2) : BitVec.ofNat 8 (0x38 + set) = [0, 0x39, 0x3A].getD set 0 := by
  interval_cases set <;> rfl

/-- A signature that verifies begins with its header byte. -/
theorem head?_of_fnHolds {set : Nat} {pk msg sig : Bytes} (h : fnHolds set pk msg sig = true) :
    sig.head? = some (BitVec.ofNat 8 (0x38 + set)) := by
  rw [fnHolds, Bool.and_eq_true, beq_iff_eq] at h
  exact h.1

/-! ### Draws of a signature's restarts (R277) -/

theorem DrawnMore.keepsKeys {i : Item} {s t : State} (h : DrawnMore i s t) : KeepsKeys s t := by
  rw [h.1]
  exact ⟨rfl, rfl, rfl⟩

theorem DrawnMore.draw {i : Item} {s t : State} (h : DrawnMore i s t) (k : InstId) (n : Nat) : DrawnMore i s (draw k n t).2 := by
  obtain ⟨ht, hb⟩ := h
  constructor
  · change { t with bobbin := (Machine.draw k n t).2.bobbin } = _
    rw [ht]
    rfl
  · change { t.bobbin with instances := (Machine.draw k n t).2.bobbin.instances } = _
    rw [hb]
    rfl

/-- The salt of an attempt, drawn again at each internal restart, with the state after the draws. -/
def restartedSalt (k : InstId) (restarts : Nat) (x : Bytes × State) : Bytes × State :=
  (List.range restarts).foldl (fun (x : Bytes × State) _ => draw k 40 x.2) x

theorem restartedSalt_succ (k : InstId) (restarts : Nat) (x : Bytes × State) :
    restartedSalt k (restarts + 1) x = draw k 40 (restartedSalt k restarts x).2 := by
  rw [restartedSalt, List.range_succ, List.foldl_append]
  rfl

theorem restartedSalt_length {x : Bytes × State} (k : InstId) (restarts : Nat) (h : x.1.length = 40) : (restartedSalt k restarts x).1.length = 40 := by
  cases restarts with
  | zero => exact h
  | succ n =>
    rw [restartedSalt_succ]
    exact draw_length ..

theorem restartedSalt_drawnMore {i : Item} {s : State} {x : Bytes × State} (k : InstId) (restarts : Nat) (h : DrawnMore i s x.2) :
    DrawnMore i s (restartedSalt k restarts x).2 := by
  induction restarts with
  | zero => exact h
  | succ n ih =>
    rw [restartedSalt_succ]
    exact ih.draw k 40

/-- As `formsDrawnMore_of_runDrawOp`, where the result turns on the length of the first draw. -/
theorem formsDrawnMore_of_firstDraw {c : Instr} {s : State} {fam op n : Nat} {e : Engine} {i : Item} {input : Bytes}
    {f : Item → Bytes → State → ItemResult × State} {P : ItemResult → Prop}
    (hexec : exec c s = .next (runDrawOp fam op (fun _ => n) e input f s)) (h : Runs s e fam op input i) (hdraws : Draws s)
    (hf : ∀ d t, d.length = n → DrawnMore i s t → DrawnMore i s (f i d t).2 ∧ P (f i d t).1) : FormsDrawnMore c s i P := by
  obtain ⟨hs, hfam, hop, hres, hlen⟩ := h
  have hload := (drawn_drawnMore i n s).of_units (loadUnit_frame i input (drawBytes i n s) (drawn i n s))
  obtain ⟨⟨ht, hb⟩, hP⟩ := hf (drawBytes i n s) _ (unitDraw_length i n s) hload
  refine ⟨_, _, input, ?_, hlen, hP, ht, hb⟩
  rw [hexec, runDrawOp_runs hs hfam hop hres hlen hdraws, formResult_eq_formed, itemDraw_eq_drawn]
  rfl

/-! ### FN-DSA operations (R272, R273, R277) -/

theorem fndsaKeygen_forms {s : State} {e : Engine} {i : Item} (h₁ : 1 ≤ setOf i.entry) (h₂ : setOf i.entry ≤ 2) (h : Runs s e 0x03 0x28 [] i)
    (hdraws : Draws s) :
    FormsDrawn (.fndsaKeygen e) s i 48 fun _ r =>
      NewKey s i 1 0x03 0 false (fnPk (setOf i.entry)) (fnSk (setOf i.entry) + fnPk (setOf i.entry)) r ∧
        r.output.head? = some (BitVec.ofNat 8 (0x08 + setOf i.entry)) := by
  refine formsKeyed_of_runDrawOp (bytes := fun _ => 48) rfl h hdraws (fun _ t => loaded_refl i t) fun d t _ ht => ⟨?_, rfl⟩
  have hpk : (fnPkOf (setOf i.entry) (fnSkFrom (setOf i.entry) d)).length = fnPk (setOf i.entry) := fnPkFrom_length h₁ h₂ _
  exact cacheNew_checked_newKey _ _ ht hpk (by rw [List.length_append, fnSkFrom_length h₁ h₂, hpk])

/-- Signing rejects a sealed key whose public key is malformed, else writes a signature under the salt of the last restart. -/
theorem fndsaSign_forms {s : State} {e : Engine} {i : Item} {input : Bytes} (restarts : Nat) (h₁ : 1 ≤ setOf i.entry) (h₂ : setOf i.entry ≤ 2)
    (h : Runs s e 0x03 0x29 input i) (hdraws : Draws s) :
    FormsDrawnMore (.fndsaSign e input restarts) s i fun r =>
      if sealedFnBad (setOf i.entry) i ((keyContent s i).drop (fnSk (setOf i.entry))) = true then Rejects .rejectEncoding r
      else r.status = .ok ∧ 42 ≤ r.output.length ∧ r.output.length ≤ fnSigMax (setOf i.entry) ∧
        r.output.head? = some (BitVec.ofNat 8 (0x38 + setOf i.entry)) := by
  refine formsDrawnMore_of_firstDraw rfl h hdraws fun d t hd ht => ⟨restartedSalt_drawnMore (x := (d, t)) (drawInst i) restarts ht, ?_⟩
  have hsalt := restartedSalt_length (x := (d, t)) (drawInst i) restarts hd
  obtain ⟨hmin, hmax⟩ := fnSigOf_length_bounds h₁ h₂ hsalt ((keyContent s i).take (fnSk (setOf i.entry))) input
  dsimp only
  rw [keyContent_congr ht.keepsKeys]
  split
  · exact cacheUse_rejects ..
  · simp only [cacheUse_status, cacheUse_output]
    exact ⟨rfl, hmin, hmax, rfl⟩

theorem fndsaVerify_forms {s : State} {e : Engine} {i : Item} {input : Bytes} (h : Runs s e 0x03 0x2A input i) :
    Forms (.fndsaVerify e input) s i fun r =>
      if sealedFnBad (setOf i.entry) i (namedPk s i (fnSk (setOf i.entry))) = true then Ends .rejectEncoding r
      else Verdict (fnHolds (setOf i.entry) (namedPk s i (fnSk (setOf i.entry))) (input.take (input.length - sigLenOf i.entry))
        (input.drop (input.length - sigLenOf i.entry))) r := by
  refine formsKeyed_of_runOp rfl h (fun t => loaded_refl i t) fun t ht => ?_
  rw [← namedPk_congr ht]
  exact cacheUse_verdict ..

theorem fndsaVerifyPk_forms {s : State} {e : Engine} {i : Item} {input : Bytes} (h : Runs s e 0x03 0x2B input i) :
    Forms (.fndsaVerifyPk e input) s i fun r =>
      if fnPkBad (setOf i.entry) (input.take (fnPk (setOf i.entry))) = true then Ends .rejectEncoding r
      else Verdict (fnHolds (setOf i.entry) (input.take (fnPk (setOf i.entry)))
        ((input.drop (fnPk (setOf i.entry))).take (input.length - fnPk (setOf i.entry) - sigLenOf i.entry))
        ((input.drop (fnPk (setOf i.entry))).drop (input.length - fnPk (setOf i.entry) - sigLenOf i.entry))) r := by
  refine formsKeyed_of_runOp rfl h (fun t => loaded_refl i t) fun t _ => ?_
  rw [← List.length_drop]
  exact cacheUse_verdict ..

/-- Settles O4, operation by operation; the header bytes and the sizes are those of the set. -/
theorem fndsaCompletes : Obligations.fndsa_completes := by
  intro s e i input restarts h₁ h₂
  rw [← fnKey_sizes h₁ h₂, ← fnPk_header h₁ h₂, ← fnSig_header h₁ h₂]
  exact ⟨fun h hdraws => ⟨48, fndsaKeygen_forms h₁ h₂ h hdraws⟩, fndsaSign_forms restarts h₁ h₂, fndsaVerify_forms, fndsaVerifyPk_forms,
    fun _ _ _ => head?_of_fnHolds⟩

/-! ### The composites' halves (R279, R280) -/

theorem edEncode_length (set : Nat) (x : Proj) : (edEncode set x).length = edPk set := by
  unfold edEncode
  split
  · exact leBytes_length ..
  · exact zeros_length _

theorem edSignOf_length (set variant : Nat) (seed pk ctx m : Bytes) : (edSignOf set variant seed pk ctx m).length = 2 * edPk set := by
  simp only [edSignOf, List.length_append, edEncode_length, leBytes_length]
  omega

theorem ecSign_length (set : Nat) (d digest bits : Bytes) : (ecSign set d digest bits).length = 2 * ecCoord set := by
  unfold ecSign
  extract_lets tries
  split
  · simp only [List.length_append, beBytes_length]
    omega
  · exact zeros_length _

theorem compDsa_bounds (set : Nat) : 1 ≤ compDsa set ∧ compDsa set ≤ 3 := by
  unfold compDsa
  split
  · decide
  · decide

theorem compClsPkOf_length {set : Nat} (h₁ : 1 ≤ set) (h₃ : set ≤ 3) (csk : Bytes) : (compClsPkOf set csk).length = compClsPk set := by
  unfold compClsPkOf
  split
  · next hset =>
    rw [edPkOf, edEncode_length, hset]
    rfl
  · rw [ecPkOf, ecEncode_length]
    interval_cases set
    · rfl
    · rfl
    · contradiction

/-- The classical key of sets 1 and 2 is in SEC 1 uncompressed form. -/
theorem compClsPkOf_head? {set : Nat} (h : set ≠ 3) (csk : Bytes) : (compClsPkOf set csk).head? = some 4 := by
  rw [compClsPkOf, if_neg h]
  exact ecEncode_head? ..

theorem compClsFrom_length {set : Nat} {d : Bytes} (h : d.length = compClsSk set) : (compClsFrom set d).length = compClsSk set := by
  unfold compClsFrom
  split
  · exact h
  · exact beBytes_length ..

theorem compClsSign_length {set : Nat} (h₁ : 1 ≤ set) (h₃ : set ≤ 3) (csk cpk msg d : Bytes) :
    (compClsSign set csk cpk msg d).length = compClsSig set := by
  unfold compClsSign
  split
  · next hset =>
    rw [edSignOf_length, hset]
    rfl
  · rw [ecSign_length]
    interval_cases set
    · rfl
    · rfl
    · contradiction

theorem compPk_sizes {set : Nat} (h₁ : 1 ≤ set) (h₃ : set ≤ 3) : compPk set = [0, 2017, 2689, 2649].getD set 0 := by
  interval_cases set <;> rfl

/-- A key's content: ML-DSA sk and pk, the classical private value and public key (R271). -/
theorem compKey_sizes {set : Nat} (h₁ : 1 ≤ set) (h₃ : set ≤ 3) :
    dsaSk (compDsa set) + dsaPk (compDsa set) + compClsSk set + compClsPk set = [0, 6081, 7633, 7602].getD set 0 := by
  interval_cases set <;> rfl

theorem compDraw_sizes {set : Nat} (h₁ : 1 ≤ set) (h₃ : set ≤ 3) : compDraw set = [0, 64, 80, 32].getD set 0 := by
  interval_cases set <;> rfl

theorem compSig_sizes {set : Nat} (h₁ : 1 ≤ set) (h₃ : set ≤ 3) : compSig set = [0, 3373, 4723, 4741].getD set 0 := by
  interval_cases set <;> rfl

/-! ### Composite operations (R281, R282) -/

/-- The trestle's check of its half changes nothing of the key that the halves make. -/
theorem compKeygen_newKey {s t : State} {i : Item} {outLen contentLen : Nat} {content out : Bytes} (ok clsOk : Bool) (c : CacheEntry)
    (h : KeepsKeys s t) (hout : out.length = outLen) (hcontent : content.length = contentLen) :
    NewKey s i 1 0x21 0 false outLen contentLen (checked ok (trestleChecked clsOk (cacheNew c
      (keyResult t i 1 0x21 (setOf i.entry) (newPolicy (policyOperand i.entry) 1 0x21 0 false) content out)))) :=
  show NewKey s i 1 0x21 0 false outLen contentLen (checked ok (cacheNew c
      (keyResult t i 1 0x21 (setOf i.entry) (newPolicy (policyOperand i.entry) 1 0x21 0 false) content out)))
    from cacheNew_checked_newKey ok c h hout hcontent

theorem compositeKeygen_forms {s : State} {e : Engine} {i : Item} (h₁ : 1 ≤ setOf i.entry) (h₃ : setOf i.entry ≤ 3)
    (h : Runs s e 0x21 0x2C [] i) (hdraws : Draws s) :
    FormsDrawn (.compositeKeygen e) s i (32 + compClsSk (setOf i.entry)) fun _ r =>
      NewKey s i 1 0x21 0 false (compPk (setOf i.entry))
          (dsaSk (compDsa (setOf i.entry)) + dsaPk (compDsa (setOf i.entry)) + compClsSk (setOf i.entry) + compClsPk (setOf i.entry)) r ∧
        (setOf i.entry ≠ 3 → (r.output.drop (dsaPk (compDsa (setOf i.entry)))).head? = some 4) := by
  refine formsKeyed_of_runDrawOp (bytes := fun i => 32 + compClsSk (setOf i.entry)) rfl h hdraws (fun _ t => loadPart_loaded i _ _ _ _ t)
    fun d t hd ht => ?_
  obtain ⟨hk₁, hk₃⟩ := compDsa_bounds (setOf i.entry)
  have hsk := dsaSkFrom_length hk₁ hk₃ (d.take 32)
  have hpk := dsaPkOf_length hk₁ hk₃ hsk
  have hcsk : (compClsFrom (setOf i.entry) (d.drop 32)).length = compClsSk (setOf i.entry) :=
    compClsFrom_length (by rw [List.length_drop, hd, Nat.add_sub_cancel_left])
  have hcpk := compClsPkOf_length h₁ h₃ (compClsFrom (setOf i.entry) (d.drop 32))
  refine ⟨compKeygen_newKey _ _ _ ht ?share ?key, fun hset => ?head⟩
  case share => rw [List.length_append, hpk, hcpk, compPk]
  case key => rw [List.length_append, List.length_append, List.length_append, hsk, hpk, hcsk, hcpk]
  case head =>
    change ((dsaPkOf _ _ ++ compClsPkOf _ _).drop _).head? = some 4
    rw [List.drop_left' hpk]
    exact compClsPkOf_head? hset _

/-- COMPOSITE_SIGN judges a sealed key first, then writes both signatures (R281, R282). -/
theorem compositeSign_forms {s : State} {e : Engine} {i : Item} {input : Bytes} (h₁ : 1 ≤ setOf i.entry) (h₃ : setOf i.entry ≤ 3)
    (h : Runs s e 0x21 0x2D input i) (hdraws : Draws s) :
    FormsDrawn (.compositeSign e input) s i (compDraw (setOf i.entry)) fun _ r =>
      match compSealedBad s i with
      | some st => Rejects st r
      | none => Writes (compSig (setOf i.entry)) r := by
  refine formsKeyed_of_runDrawOp (bytes := fun i => compDraw (setOf i.entry)) rfl h hdraws (fun _ t => loadPart_loaded i _ _ _ _ t)
    fun d t _ ht => ?_
  dsimp only
  rw [compSealedBad_congr ht]
  cases compSealedBad s i with
  | some st => exact cacheUse_rejects ..
  | none =>
    refine cacheUse_writes _ ⟨rfl, ?_, rfl⟩
    exact List.length_append.trans (congrArg₂ (· + ·) (dsaSigOf_length ..) (compClsSign_length h₁ h₃ ..))

/-- A verification gives its key's judgement, or whether both halves hold over M_r (R280, R282). -/
theorem compVerify_judged (bad : Option Status) (pk : Bytes) (name : KeyName) (input : Bytes) (i : Item) (t : State) :
    let m := compMessage (setOf i.entry) (ctxLenOf i.entry) (input.take (input.length - sigLenOf i.entry))
    let sig := input.drop (input.length - sigLenOf i.entry)
    Judged bad (dsaHolds (compDsa (setOf i.entry)) 0 0 (pk.take (dsaPk (compDsa (setOf i.entry)))) m (sig.take (dsaSig (compDsa (setOf i.entry))))
      && compClsHolds (setOf i.entry) (pk.drop (dsaPk (compDsa (setOf i.entry)))) (compClsMessage (setOf i.entry) m)
        (sig.drop (dsaSig (compDsa (setOf i.entry))))) (compVerify bad pk name input i t) := by
  cases bad with
  | some st => exact cacheUse_ends ..
  | none => exact cacheUse_verdict t i _ false _

/-- Settles O5, operation by operation; both verifications judge what `compVerify` is given. -/
theorem compositeCompletes : Obligations.composite_completes := by
  intro s e i input h₁ h₃
  rw [← compPk_sizes h₁ h₃, ← compKey_sizes h₁ h₃, ← compDraw_sizes h₁ h₃, ← compSig_sizes h₁ h₃]
  refine ⟨compositeKeygen_forms h₁ h₃, compositeSign_forms h₁ h₃, ?_⟩
  rintro verify pk msgSig m sig bad (⟨rfl, h, rfl, rfl, rfl⟩ | ⟨rfl, h, rfl, rfl, rfl⟩) rfl rfl
  · refine formsKeyed_of_runOp rfl h (fun t => loadPart_loaded i _ _ _ _ t) fun t ht => ?_
    rw [← namedCompPk_congr ht, ← compSealedBad_congr ht]
    exact compVerify_judged ..
  · exact formsKeyed_of_runOp rfl h (fun t => loadPart_loaded i _ _ _ _ t) fun t _ => compVerify_judged ..

end Sys2Proof.Machine
end

section
/-! PROOFS. Hash-based signatures and the tally's operations (R287 to R318). -/

namespace Sys2Proof.Machine

open Sys2Proof.Claims

/-! ### SLH-DSA (R289 to R291) -/

@[simp] theorem slhRoot_length (set : Nat) (seed : Bytes) : (slhRoot set seed).length = slhN set := primBytes_length ..

@[simp] theorem slhSigOf_length (set variant ctxLen : Nat) (sk msg opt : Bytes) : (slhSigOf set variant ctxLen sk msg opt).length = slhSig set :=
  primBytes_length ..

/-- The three seeds and the root are sk; its second half, PK.seed and the root, is pk. -/
theorem slhKeygen_newKey {s t : State} {i : Item} {seed : Bytes} (h : KeepsKeys s t) (origin : Nat) (hseed : seed.length = 3 * slhN (setOf i.entry)) :
    NewKey s i 1 0x04 origin false (slhPk (setOf i.entry)) (slhSk (setOf i.entry)) (slhKeygen origin seed i t) := by
  have hsk : (seed ++ slhRoot (setOf i.entry) seed).length = slhSk (setOf i.entry) := by
    rw [List.length_append, hseed, slhRoot_length, slhSk]
    omega
  refine keyResult_newKey [] h.runs ?_ hsk
  rw [List.length_drop, hsk, slhSk, slhPk]
  omega

theorem slhSign_writes (variant : Nat) (input opt : Bytes) (i : Item) (s : State) : Writes (slhSig (setOf i.entry)) (slhSign variant input opt i s) :=
  ⟨rfl, slhSigOf_length .., rfl⟩

theorem slhSignWith_deterministic {op : Nat} {variant : Item → Nat} {e : Engine} {input : Bytes} {s : State} {i : Item}
    (hs : servingOn s e = some i) (hdet : deterministic i.entry = true) :
    slhSignWith op variant e input s = runOp 0x04 op e input
      (fun x t => (slhSign (variant x) input (slice_ (keyContent t x) (2 * slhN (setOf i.entry)) (slhN (setOf i.entry))) x t, t)) s := by
  simp only [slhSignWith, hs, hdet, if_true]

theorem slhSignWith_hedged {op : Nat} {variant : Item → Nat} {e : Engine} {input : Bytes} {s : State} {i : Item}
    (hs : servingOn s e = some i) (hdet : deterministic i.entry = false) :
    slhSignWith op variant e input s =
      runDrawOp 0x04 op (fun _ => slhN (setOf i.entry)) e input (fun x d t => (slhSign (variant x) input d x t, t)) s := by
  simp only [slhSignWith, hs, hdet, Bool.false_eq_true, if_false]

/-- Under DETERMINISTIC nothing is drawn, otherwise opt_rand is (R290). -/
theorem slhSign_forms {c : Instr} {op : Nat} {variant : Item → Nat} {s : State} {e : Engine} {i : Item} {input : Bytes}
    (hexec : exec c s = .next (slhSignWith op variant e input s)) (h : Runs s e 0x04 op input i) :
    (deterministic i.entry = true → Forms c s i fun r => Writes (slhSig (setOf i.entry)) r) ∧
    (deterministic i.entry = false → Draws s → FormsDrawn c s i (slhN (setOf i.entry)) fun _ r => Writes (slhSig (setOf i.entry)) r) := by
  refine ⟨fun hdet => ?_, fun hdet hdraws => ?_⟩
  · rw [slhSignWith_deterministic h.1 hdet] at hexec
    exact formsKeyed_of_runOp hexec h (fun t => loaded_refl i t) fun t _ => slhSign_writes ..
  · rw [slhSignWith_hedged h.1 hdet] at hexec
    exact formsKeyed_of_runDrawOp (bytes := fun _ => slhN (setOf i.entry)) hexec h hdraws (fun _ t => loaded_refl i t) fun d t _ _ => slhSign_writes ..

/-- A verdict on a signature that nothing rejects before it. -/
theorem verdict_judges (holds : Bool) : Verdict holds (verdict false holds) := by
  cases holds <;> exact ⟨rfl, rfl⟩

/-- Verification under the key that the descriptor names, in the pure or a pre-hash form. -/
theorem slhVerify_forms {c : Instr} {op : Nat} {variant : Item → Nat} {s : State} {e : Engine} {i : Item} {input : Bytes}
    (hexec : exec c s = .next (runOp 0x04 op e input
      (fun i s => (slhVerify (variant i) (namedPk s i (slhPk (setOf i.entry))) input i, s)) s))
    (h : Runs s e 0x04 op input i) :
    Forms c s i fun r =>
      Verdict (slhHolds (setOf i.entry) (variant i) (ctxLenOf i.entry) (namedPk s i (slhPk (setOf i.entry)))
        (input.take (input.length - sigLenOf i.entry)) (input.drop (input.length - sigLenOf i.entry))) r := by
  refine formsKeyed_of_runOp hexec h (fun t => loaded_refl i t) fun t ht => ?_
  rw [← namedPk_congr ht]
  exact verdict_judges _

/-- Verification under a key that the input brings, ahead of the message. -/
theorem slhVerifyPk_forms {c : Instr} {op : Nat} {variant : Item → Nat} {s : State} {e : Engine} {i : Item} {input : Bytes}
    (hexec : exec c s = .next (runOp 0x04 op e input
      (fun i s => (slhVerify (variant i) (input.take (slhPk (setOf i.entry))) (input.drop (slhPk (setOf i.entry))) i, s)) s))
    (h : Runs s e 0x04 op input i) :
    Forms c s i fun r =>
      Verdict (slhHolds (setOf i.entry) (variant i) (ctxLenOf i.entry) (input.take (slhPk (setOf i.entry)))
        ((input.drop (slhPk (setOf i.entry))).take (input.length - slhPk (setOf i.entry) - sigLenOf i.entry))
        ((input.drop (slhPk (setOf i.entry))).drop (input.length - slhPk (setOf i.entry) - sigLenOf i.entry))) r := by
  refine formsKeyed_of_runOp hexec h (fun t => loaded_refl i t) fun t _ => ?_
  rw [← List.length_drop]
  exact verdict_judges _

/-- Settles O6: key generation by the lengths of its key, signing by DETERMINISTIC, verification by where its key comes from. -/
theorem slhdsaCompletes : Obligations.slhdsa_completes := by
  refine ⟨fun s e i input _ _ => ⟨fun h hdraws => ?_, fun h hseed => ?_, ?sign⟩, fun s e i input => ⟨?named, ?brought⟩⟩
  · exact formsKeyed_of_runDrawOp (bytes := fun i => 3 * slhN (setOf i.entry)) rfl h hdraws (fun _ t => loaded_refl i t)
      fun d t hd ht => slhKeygen_newKey ht 0 hd
  · exact formsKeyed_of_runOp rfl h (fun t => loaded_refl i t) fun t ht => slhKeygen_newKey ht 1 hseed
  case sign =>
    rintro c op (⟨rfl, rfl⟩ | ⟨rfl, rfl⟩) h
    · exact slhSign_forms (variant := fun _ => 0) rfl h
    · exact slhSign_forms (variant := fun i => phAlgOf i.entry) rfl h
  case named =>
    rintro c op variant (⟨rfl, rfl, rfl⟩ | ⟨rfl, rfl, rfl⟩) h
    · exact slhVerify_forms (variant := fun _ => 0) rfl h
    · exact slhVerify_forms (variant := fun i => phAlgOf i.entry) rfl h
  case brought =>
    rintro c op variant (⟨rfl, rfl, rfl⟩ | ⟨rfl, rfl, rfl⟩) h
    · exact slhVerifyPk_forms (variant := fun _ => 0) rfl h
    · exact slhVerifyPk_forms (variant := fun i => phAlgOf i.entry) rfl h

/-! ### How stateful keys and signatures begin (R295, R296) -/

/-- The signature of an HSS key begins with L - 1, that of an XMSS key with the index. -/
theorem statefulSigOf_take {fam : Nat} {hs : List Nat} {set : Nat} (hheights : statefulHeights fam set = some hs) (n : Nat) (content msg : Bytes) :
    (statefulSigOf fam set n content msg).take 4 =
      if fam = 0x05 then beBytes 4 (hs.length - 1) else if set < 128 then beBytes 4 n else (statefulSigOf fam set n content msg).take 4 := by
  split
  · next hfam =>
    subst hfam
    simp only [statefulSigOf, hheights, if_true]
    exact List.take_left' (beBytes_length ..)
  · next hfam =>
    split
    · next hset =>
      simp only [statefulSigOf, hheights, hfam, if_false, xmssSig, xmssIndexLen, hset, if_true, List.append_assoc]
      exact List.take_left' (beBytes_length ..)
    · rfl

@[simp] theorem statefulPk_length {fam : Nat} (set : Nat) (content : Bytes) : (statefulPk fam set content).length = statefulPkLen fam set := by
  unfold statefulPk statefulPkLen
  dsimp only
  split
  · next hfam =>
    rw [List.length_append, beBytes_length, lmsPk_length, hfam]
    omega
  · simp only [List.length_append, beBytes_length, primBytes_length, leBytes_length]
    omega

theorem statefulPk_take (fam set : Nat) (content : Bytes) : (statefulPk fam set content).take 4 = beBytes 4 (statefulTag fam set) :=
  List.take_left' (beBytes_length ..)

/-! ### Stateful operations (R300, R310) -/

/-- An operation without a draw that reads more of the state than keys. -/
theorem formsLoaded_of_runOp {c : Instr} {s : State} {fam op : Nat} {e : Engine} {i : Item} {input : Bytes} {f : Item → State → ItemResult}
    {P : ItemResult → Prop} (hexec : exec c s = .next (runOp fam op e input (fun i t => (f i t, t)) s)) (h : Runs s e fam op input i)
    (hP : ∀ t, Loaded i s t → P (f i t)) : Forms c s i P := by
  obtain ⟨hs, hfam, hop, hres, hlen⟩ := h
  have hload := loadUnit_loaded i input [] s
  refine ⟨_, _, input, ?_, hlen, hload, hP _ hload⟩
  rw [hexec, runOp_runs hs hfam hop hres hlen, formResult_eq_formed]

/-- What a unit loads is no tally record. -/
theorem loaded_tallyOf {i : Item} {s t : State} (h : Loaded i s t) (keyId : Nat) : tallyOf t keyId = tallyOf s keyId := by
  rw [h.1]
  rfl

theorem loaded_itemTally {i : Item} {s t : State} (h : Loaded i s t) : itemTally t i = itemTally s i := by
  rw [h.1]
  rfl

theorem storedPk_congr {s t : State} (h : KeepsKeys s t) (i : Item) : storedPk t i = storedPk s i := by
  simp only [storedPk, itemRun, h.runs]

theorem statefulStart_forms {c : Instr} {fam : Nat} {s : State} {e : Engine} {i : Item} (hexec : exec c s = .next (statefulStart fam e s))
    (h : Runs s e fam (statefulBase fam) [] i) (hdraws : Draws s) :
    FormsDrawn c s i (statefulSeedLen fam (setOf i.entry) + 8) fun d r =>
      r.status = .ok ∧ r.output = [] ∧ r.word = reservedHandle s i + buildCount fam (setOf i.entry) * 2 ^ 32 ∧
        r.acts = [.run 4 fam (setOf i.entry) (newPolicy (policyOperand i.entry) 4 fam 0 false) (d.take (statefulSeedLen fam (setOf i.entry)))
          (leNat (d.drop (statefulSeedLen fam (setOf i.entry)))) true] :=
  formsKeyed_of_runDrawOp (bytes := fun i => statefulSeedLen fam (setOf i.entry) + 8) hexec h hdraws (fun _ t => loaded_refl i t)
    fun _ _ _ ht => ⟨rfl, rfl, congrArg (· + _) (reservedHandle_congr ht.runs i), rfl⟩

theorem statefulBuild_forms {c : Instr} {fam : Nat} {s : State} {e : Engine} {i : Item} (hexec : exec c s = .next (statefulBuild fam e s))
    (h : Runs s e fam (statefulBase fam + 1) [] i) :
    Forms c s i fun r => ∃ next, (∀ t, itemTally s i = some t → next = t.next) ∧
      r = { status := .ok, acts := [.subtree (i.keyRun.getD 0) (buildIndex i.entry)
        (subtreeNodes fam (setOf i.entry) (buildIndex i.entry) next (keyContent s i))] } := by
  refine formsLoaded_of_runOp hexec h fun t ht => ?_
  rw [loaded_itemTally ht, keyContent_congr (loaded_keepsKeys ht)]
  exact ⟨_, fun x hx => by rw [hx], rfl⟩

theorem statefulFinish_forms {c : Instr} {fam : Nat} {s : State} {e : Engine} {i : Item} (hexec : exec c s = .next (statefulFinish fam e s))
    (h : Runs s e fam (statefulBase fam + 2) [] i) :
    Forms c s i fun r => r.status = .ok ∧ r.output.length = statefulPkLen fam (setOf i.entry) ∧
      r.output.take 4 = beBytes 4 (statefulTag fam (setOf i.entry)) ∧ r.word = 0 ∧ r.acts = [.finish (i.keyRun.getD 0) r.output] :=
  formsKeyed_of_runOp hexec h (fun t => loaded_refl i t) fun _ _ => ⟨rfl, statefulPk_length .., statefulPk_take .., rfl, rfl⟩

theorem statefulSign_forms {c : Instr} {fam n : Nat} {s : State} {e : Engine} {i : Item} {input : Bytes} (hfam : fam = 0x05 ∨ fam = 0x06)
    (hexec : exec c s = .next (statefulSign fam e input s)) (h : Runs s e fam (statefulBase fam + 3) input i) (hn : i.boundIndex = some n) :
    Forms c s i fun r => r.status = .ok ∧ r.word = n ∧ r.acts = [] ∧
      r.output = statefulSigOf fam (setOf i.entry) n (keyContent s i) input ∧ r.output.length = statefulSigLen fam (setOf i.entry) ∧
      ∀ hs, statefulHeights fam (setOf i.entry) = some hs →
        r.output.take 4 = if fam = 0x05 then beBytes 4 (hs.length - 1) else if setOf i.entry < 128 then beBytes 4 n else r.output.take 4 := by
  refine formsKeyed_of_runOp hexec h (fun t => loaded_refl i t) fun t ht => ?_
  dsimp only
  rw [hn, keyContent_congr ht, Option.getD_some]
  exact ⟨rfl, rfl, rfl, rfl, statefulSigOf_length _ _ _ _ _ hfam, fun hs hheights => statefulSigOf_take hheights ..⟩

theorem statefulVerify_forms {c : Instr} {fam : Nat} {s : State} {e : Engine} {i : Item} {input pk : Bytes}
    (hexec : exec c s = .next (statefulVerify fam e input s)) (h : Runs s e fam (statefulBase fam + 4) input i)
    (hpk : pk = match keyFacts s i with
      | some k => if k.kind == 2 then keyContent s i else storedPk s i
      | none => keyContent s i) :
    Forms c s i fun r => Verdict (Config.holds (.verifies fam (setOf i.entry) 0)
      [pk, input.take (input.length - sigLenOf i.entry), input.drop (input.length - sigLenOf i.entry)]) r := by
  refine formsKeyed_of_runOp hexec h (fun t => loaded_refl i t) fun t ht => ?_
  dsimp only
  rw [keyFacts_congr ht, keyContent_congr ht, storedPk_congr ht, hpk]
  exact verdict_judges _

theorem statefulVerifyPk_forms {c : Instr} {fam : Nat} {s : State} {e : Engine} {i : Item} {input : Bytes}
    (hexec : exec c s = .next (statefulVerifyPk fam e input s)) (h : Runs s e fam (statefulBase fam + 5) input i) :
    Forms c s i fun r => Verdict (Config.holds (.verifies fam (setOf i.entry) 0)
      [input.take (statefulPkLen fam (setOf i.entry)),
        (input.drop (statefulPkLen fam (setOf i.entry))).take (input.length - statefulPkLen fam (setOf i.entry) - sigLenOf i.entry),
        (input.drop (statefulPkLen fam (setOf i.entry))).drop (input.length - statefulPkLen fam (setOf i.entry) - sigLenOf i.entry)]) r := by
  refine formsKeyed_of_runOp hexec h (fun t => loaded_refl i t) fun t _ => ?_
  rw [← List.length_drop]
  exact verdict_judges _

/-! ### The tally's operations (R312) -/

/-- A field of a record, behind the fields before it. -/
theorem slice_append {a b c : Bytes} {k n : Nat} (ha : a.length = k) (hb : b.length = n) : slice_ (a ++ (b ++ c)) k n = b := by
  rw [slice_, List.drop_left' ha, List.take_left' hb]

/-- The report of a record in flash. -/
theorem tallyReport_of_newest {s : State} {k : KeyRun} {t : TallyRecord} {c : TallyCopy} (ht : tallyOf s k.keyId = some t)
    (hc : tallyNewest t = some c) :
    tallyReport s k = leBytes 8 t.next ++ (leBytes 8 c.ceiling ++ (leBytes 8 (statefulLimit k.family k.set) ++ (leBytes 2 t.number ++
      (leBytes 1 (tallyStateCode (k.state == .building) t) ++ zeros 5)))) := by
  simp only [tallyReport, ht, hc, List.append_assoc]

theorem tallyQuery_forms {s : State} {e : Engine} {i : Item} {k : KeyRun} {t : TallyRecord} {c : TallyCopy} (h : Runs s e 0x31 0x48 [] i)
    (hk : itemRun s i = some k) (ht : tallyOf s k.keyId = some t) (hc : tallyNewest t = some c) :
    Forms (.tallyQuery e) s i fun r => Writes 32 r ∧
      r.output.take 8 = leBytes 8 t.next ∧ slice_ r.output 8 8 = leBytes 8 c.ceiling ∧
      slice_ r.output 16 8 = leBytes 8 (statefulLimit k.family k.set) ∧ slice_ r.output 24 2 = leBytes 2 t.number ∧
      slice_ r.output 26 1 = leBytes 1 (tallyStateCode (k.state == .building) t) ∧ r.output.drop 27 = zeros 5 := by
  refine formsLoaded_of_runOp (c := .tallyQuery e)
    (f := fun i s => match itemRun s i with | some r => okResult (tallyReport s r) | none => failResult .keyHandleInvalid) rfl h fun u hu => ?_
  have hrun : itemRun u i = some k := by rw [hu.1]; exact hk
  have hreport := tallyReport_of_newest ((loaded_tallyOf hu k.keyId).trans ht) hc
  rw [hrun]
  dsimp only [okResult]
  rw [hreport]
  refine ⟨⟨rfl, by simp, rfl⟩, List.take_left' (leBytes_length ..), slice_append (leBytes_length ..) (leBytes_length ..), ?_, ?_, ?_, ?_⟩
  · rw [← List.append_assoc]
    exact slice_append (by simp) (leBytes_length ..)
  · rw [← List.append_assoc, ← List.append_assoc]
    exact slice_append (by simp) (leBytes_length ..)
  · rw [← List.append_assoc, ← List.append_assoc, ← List.append_assoc]
    exact slice_append (by simp) (leBytes_length ..)
  · rw [← List.append_assoc, ← List.append_assoc, ← List.append_assoc, ← List.append_assoc]
    exact List.drop_left' (by simp)

theorem tallyRetire_forms {s : State} {e : Engine} {i : Item} (h : Runs s e 0x31 0x49 [] i) :
    Forms (.tallyRetire e) s i fun r => r = { status := .ok, acts := [.retire (i.keyRun.getD 0)] } :=
  formsLoaded_of_runOp (f := fun i _ => { status := .ok, acts := [.retire (i.keyRun.getD 0)] }) rfl h fun _ _ => rfl

/-- Settles O7: each operation of the stateful families is one routine of the family, whose commands follow its first. -/
theorem statefulCompletes : Obligations.stateful_completes := by
  refine ⟨?keygen, ?sign, fun s e i k t c => ⟨tallyQuery_forms, tallyRetire_forms⟩⟩
  case keygen =>
    rintro s e i fam base start build fin (⟨rfl, rfl, rfl, rfl, rfl⟩ | ⟨rfl, rfl, rfl, rfl, rfl⟩)
    · exact ⟨statefulStart_forms rfl, statefulBuild_forms rfl, statefulFinish_forms rfl⟩
    · exact ⟨statefulStart_forms rfl, statefulBuild_forms rfl, statefulFinish_forms rfl⟩
  case sign =>
    rintro s e i input fam base sign verify verifyPk (⟨rfl, rfl, rfl, rfl, rfl⟩ | ⟨rfl, rfl, rfl, rfl, rfl⟩)
    · exact ⟨fun n => statefulSign_forms (.inl rfl) rfl, fun pk => statefulVerify_forms rfl, statefulVerifyPk_forms rfl⟩
    · exact ⟨fun n => statefulSign_forms (.inr rfl) rfl, fun pk => statefulVerify_forms rfl, statefulVerifyPk_forms rfl⟩

end Sys2Proof.Machine
end

section
/-! PROOFS. Freezing, saving, restoring and thawing a slice (R314, R447 to R460). -/

namespace Sys2Proof.Machine

open Sys2Proof.Claims

/-! ### What holds of all items, as items end -/

/-- Of every item `P` holds. -/
def AllItems (P : Item → Prop) (s : State) : Prop := ∀ j ∈ s.heddle.items, P j

namespace AllItems

variable {P Q : Item → Prop} {s t : State}

theorem of_heddle (h : AllItems P s) (ht : t.heddle = s.heddle) : AllItems P t := by
  unfold AllItems
  rw [ht]
  exact h

/-- The chosen items change, after which `Q` holds of them and of the others. -/
theorem modItems (h : AllItems P s) {sel : Item → Bool} {f : Item → Item} (hsel : ∀ x, sel x = true → P x → Q (f x))
    (hother : ∀ x, sel x = false → P x → Q x) : AllItems Q (modItems sel f s) := by
  intro j hj
  obtain ⟨x, hx, rfl⟩ := List.mem_map.mp hj
  split
  · next hs => exact hsel x hs (h x hx)
  · next hs => exact hother x (Bool.eq_false_iff.mpr hs) (h x hx)

/-- Items change in a way that `P` does not notice. -/
theorem modItems_keep (h : AllItems P s) {sel : Item → Bool} {f : Item → Item} (hsel : ∀ x, sel x = true → P x → P (f x)) :
    AllItems P (Machine.modItems sel f s) :=
  h.modItems hsel fun _ _ hx => hx

theorem foldl {α : Type} {f : State → α → State} {l : List α} (hf : ∀ s, ∀ a ∈ l, AllItems P s → AllItems P (f s a)) (h : AllItems P s) :
    AllItems P (l.foldl f s) :=
  List.foldlRecOn (motive := AllItems P) l f h fun s hs a ha => hf s a ha hs

/-- A DELETE whose key's users have gone has its completion. -/
theorem settleRuns (hdone : ∀ x d, P x → P { x with done := d }) (h : AllItems P s) : AllItems P (settleRuns s) := by
  refine foldl (fun s r _ h => ?_) h
  have hunused : AllItems P (if r.claimed.isSome && (runUsers s r).isEmpty then wipeRun r true s else s) := by
    split
    · exact h.of_heddle (wipeRun_heddle r true s)
    · exact h
  dsimp only
  split
  · split
    · split
      · split
        · exact (h.of_heddle (wipeRun_heddle r true s)).modItems_keep fun x _ hx => hdone x _ hx
        · exact h
      · exact hunused
    · exact hunused
  · exact hunused

end AllItems

/-! ### What holds of all items, as what waits is tried again -/

/-- What stays true of an item as it takes scratch drawers, is marked as the oldest of its level, and goes from one place where it waits to
another (R174, R185, R401). -/
structure Restful (P : Item → Prop) : Prop where
  scratch : ∀ {x} n, P x → P { x with scratch := n }
  marked : ∀ {x} v, P x → P { x with oldestSince := v }
  moved : ∀ {x pl}, P x → waiting x = true → pl = .ready ∨ pl = .parked → P { x with place := pl }

namespace AllItems

variable {P : Item → Prop} {s t : State}

theorem takeScratch (hP : Restful P) (h : AllItems P s) (id : Nat) : AllItems P (takeScratch id s) := by
  unfold Machine.takeScratch
  split
  · exact h
  · split
    · exact h
    · split
      · exact h.modItems_keep fun _ _ hx => hP.scratch _ hx
      · exact h

theorem enterList (hP : Restful P) (h : AllItems P s) {id : Nat} (hid : ∀ x, P x → x.id = id → waiting x = true) :
    AllItems P (enterList id s) := by
  unfold Machine.enterList
  split
  · exact h
  · next i hi =>
    obtain ⟨hmem, hiid⟩ := findItem_mem hi
    refine of_heddle (s := { s with heddle := _ }) (fun j hj => ?_) (traceItem_heddle _ _ _)
    obtain hj | hj := List.mem_append.mp hj
    · exact h j (List.mem_of_mem_filter hj)
    · obtain rfl := List.mem_singleton.mp hj
      exact hP.marked none (hP.moved (h i hmem) (hid i (h i hmem) hiid) (.inl rfl))

theorem park (hP : Restful P) (h : AllItems P s) (full : Bool) {id : Nat} (hid : ∀ x, P x → x.id = id → waiting x = true) :
    AllItems P (park full id s) := by
  have hpark : AllItems P (modItem id (fun x => { x with place := .parked }) s) :=
    h.modItems_keep fun x hsel hx => hP.moved hx (hid x hx (beq_iff_eq.mp hsel)) (.inr rfl)
  unfold Machine.park
  split
  · exact h
  · dsimp only
    split
    · exact hpark.of_heddle (by simp)
    · exact hpark.of_heddle (by simp)

theorem offer (hP : Restful P) (h : AllItems P s) {id : Nat} (hid : ∀ x, P x → x.id = id → waiting x = true) : AllItems P (offer id s) := by
  have hscratch := h.takeScratch hP id
  unfold Machine.offer
  dsimp only
  split
  · exact hscratch
  · split
    · exact hscratch.enterList hP hid
    · split
      · exact hscratch
      · exact hscratch.park hP _ hid

end AllItems

/-- `P`, and that an item of one of these numbers waits. -/
def WaitsIn (ids : List Nat) (P : Item → Prop) (x : Item) : Prop := P x ∧ (x.id ∈ ids → waiting x = true)

theorem Restful.waitsIn {P : Item → Prop} (hP : Restful P) (ids : List Nat) : Restful (WaitsIn ids P) where
  scratch n h := ⟨hP.scratch n h.1, h.2⟩
  marked v h := ⟨hP.marked v h.1, h.2⟩
  moved h hx hpl := ⟨hP.moved h.1 hx hpl, fun _ => by rcases hpl with rfl | rfl <;> rfl⟩

namespace AllItems

variable {P : Item → Prop} {s : State}

/-- The items that wait in one place are offered to their lists. -/
theorem offers {n : Nat} {pl : Place} (hs : Apart n (numbersOf s.heddle)) (hP : Restful P) (hpl : ∀ x : Item, x.place = pl → waiting x = true)
    (h : AllItems P s) : AllItems P ((idsInOrder (s.heddle.items.filter fun i => i.place == pl)).foldl (fun s id => Machine.offer id s) s) := by
  have hwait : AllItems (WaitsIn (idsInOrder (s.heddle.items.filter fun i => i.place == pl)) P) s := by
    refine fun j hj => ⟨h j hj, fun hjid => ?_⟩
    obtain ⟨i, hi, hiid⟩ := mem_idsInOrder hjid
    obtain ⟨hi, hplace⟩ := List.mem_filter.mp hi
    obtain rfl := List.inj_on_of_nodup_map hs.1 hj hi hiid.symm
    exact hpl j (beq_iff_eq.mp hplace)
  have hoffered := foldl (fun s id hid h => h.offer (hP.waitsIn _) fun x hx hxid => hx.2 (hxid ▸ hid)) hwait
  exact fun j hj => (hoffered j hj).1

theorem retryParked {n : Nat} (hs : Apart n (numbersOf s.heddle)) (hP : Restful P) (h : AllItems P s) : AllItems P (retryParked s) := by
  have hparked := h.offers hs hP (pl := .parked) fun x hx => by simp [waiting, hx]
  unfold Machine.retryParked
  dsimp only
  split
  · exact hparked.offers (foldl_apart (fun _ id _ h => offer_apart id h) hs) hP fun x hx => by simp [waiting, hx]
  · exact hparked

theorem settleAfterLeave {n : Nat} (hs : Apart n (numbersOf s.heddle)) (hP : Restful P) (h : AllItems P s) : AllItems P (settleAfterLeave s) := by
  have hmarked : AllItems P (markOldest (pumpScans (settleCredit (Machine.retryParked s)))) := by
    refine ((h.retryParked hs hP).of_heddle (by simp)).modItems_keep fun x _ hx => ?_
    split
    · exact hP.marked _ hx
    · exact hP.marked _ hx
  exact hmarked.of_heddle (by simp [Machine.settleAfterLeave, settleHeddle])

end AllItems

/-! ### The items of a slice that freezes (R447, R462) -/

/-- Of the slice's items only one that a restart holds, or one of these numbers, waits for dispatch. -/
def WaitsOnly (p : PortId) (i : SliceIdx) (ids : List Nat) (j : Item) : Prop :=
  j.port = p → j.slice = i → waiting j = true → j.holdsFlow = true ∨ j.id ∈ ids

theorem waitsOnly_restful (p : PortId) (i : SliceIdx) (ids : List Nat) : Restful (WaitsOnly p i ids) where
  scratch _ h := h
  marked _ h := h
  moved h hx _ := fun hp hi _ => h hp hi hx

/-- An item that ends waits no more. -/
theorem failItem_waitsOnly {p : PortId} {i : SliceIdx} {ids : List Nat} {x : Item} {s : State} (st : Status)
    (h : AllItems (WaitsOnly p i (x.id :: ids)) s) : AllItems (WaitsOnly p i ids) (failItem st x s) := by
  have hcycles : AllItems (WaitsOnly p i (x.id :: ids)) (returnReservation x.id (modItem x.id (fun x => { x with cycles := 0 }) s)) :=
    (h.modItems_keep (sel := fun y => y.id == x.id) (f := fun y => { y with cycles := 0 }) fun _ _ hj => hj).of_heddle (returnReservation_heddle _ _)
  refine AllItems.settleRuns (fun _ _ hj => hj) (hcycles.modItems (fun j _ _ _ _ hwait => absurd hwait (by simp [waiting]))
    fun j hsel hj hp hi hwait => ?_)
  exact (hj hp hi hwait).imp_right fun hid => (List.mem_cons.mp hid).resolve_left (beq_eq_false_iff_ne.mp hsel)

theorem failItems_waitsOnly {p : PortId} {i : SliceIdx} {l : List Item} {s : State} (st : Status)
    (h : AllItems (WaitsOnly p i (l.map fun x => x.id)) s) : AllItems (WaitsOnly p i []) (l.foldl (fun s x => failItem st x s) s) := by
  induction l generalizing s with
  | nil => exact h
  | cons x l ih => exact ih (failItem_waitsOnly st h)

/-! ### The slice and its queues -/

theorem settleRuns_slices (s : State) : (settleRuns s).slices = s.slices := by
  refine foldl_slices (fun s r => ?_) _ s
  have hwipe : (wipeRun r true s).slices = s.slices := by
    unfold wipeRun eraseTally
    dsimp only
    (repeat' split) <;> rfl
  dsimp only
  (repeat' split) <;> simp [hwipe]

theorem failItem_slices (st : Status) (i : Item) (s : State) : (failItem st i s).slices = s.slices := settleRuns_slices _

theorem failItem_queues (st : Status) (i : Item) (s : State) : (failItem st i s).queues = s.queues :=
  operation_queues ((modItem_keepsOperation _ _ s).trans (endItem_keepsOperation _ _ _ _))

theorem foldl_queues {α : Type} {f : State → α → State} (h : ∀ s a, (f s a).queues = s.queues) (l : List α) (s : State) :
    (l.foldl f s).queues = s.queues := by
  induction l generalizing s with
  | nil => rfl
  | cons a l ih => exact (ih _).trans (h s a)

@[simp] theorem traceRecord_queues (p : PortId) (engine : Nat) (i : Option Item) (reason cls : Nat) (s : State) :
    (traceRecord p engine i reason cls s).queues = s.queues := by
  unfold traceRecord
  dsimp only
  (repeat' split) <;> rfl

@[simp] theorem traceItem_queues (reason : Nat) (i : Item) (s : State) : (traceItem reason i s).queues = s.queues := traceRecord_queues ..

@[simp] theorem takeScratch_queues (id : Nat) (s : State) : (takeScratch id s).queues = s.queues := by
  unfold takeScratch
  (repeat' split) <;> rfl

theorem enterList_queues (id : Nat) (s : State) : (enterList id s).queues = s.queues := by
  unfold enterList
  split
  · rfl
  · exact traceItem_queues ..

theorem park_queues (full : Bool) (id : Nat) (s : State) : (park full id s).queues = s.queues := by
  unfold park
  split
  · rfl
  · dsimp only
    split
    · exact (raise_queues ..).trans (traceItem_queues ..)
    · exact traceItem_queues ..

theorem offer_queues (id : Nat) (s : State) : (offer id s).queues = s.queues := by
  have hscratch := takeScratch_queues id s
  unfold offer
  dsimp only
  split
  · exact hscratch
  · split
    · exact (enterList_queues ..).trans hscratch
    · split
      · exact hscratch
      · exact (park_queues ..).trans hscratch

theorem retryParked_queues (s : State) : (retryParked s).queues = s.queues := by
  have hoffers (l : List Nat) (s : State) : (l.foldl (fun s id => offer id s) s).queues = s.queues := foldl_queues (fun s id => offer_queues id s) l s
  unfold retryParked
  dsimp only
  split <;> simp [hoffers]

theorem settleCredit_queues (s : State) : (settleCredit s).queues = s.queues := by
  refine foldl_queues (fun s p => ?_) _ s
  dsimp only
  split <;> simp

theorem settleDrains_queues (s : State) : (settleDrains s).queues = s.queues := by
  refine foldl_queues (fun s p => ?_) _ s
  dsimp only
  split
  · rfl
  · exact foldl_queues (f := fun s _ => emit (.atsDone p) s) (fun _ _ => rfl) _ _

/-- What holds of all queues whatever they read, holds after scans have issued their next read. -/
theorem pumpScans_queues_all {P : Queue → Prop} (hP : ∀ q r, P q → P { q with reading := r }) {s : State} (h : ∀ q ∈ s.queues, P q) :
    ∀ q ∈ (pumpScans s).queues, P q := by
  unfold pumpScans
  refine List.foldlRecOn (motive := fun t : State => ∀ q ∈ t.queues, P q) s.queues _ h fun t ht q _ => ?_
  split
  · exact ht
  · split
    · rw [issueRead_queues]
      refine List.forall_mem_map.mpr fun x hx => ?_
      split
      · exact hP x _ (ht x hx)
      · exact ht x hx
    · exact ht

theorem settleAfterLeave_queues_all {P : Queue → Prop} (hP : ∀ q r, P q → P { q with reading := r }) {s : State} (h : ∀ q ∈ s.queues, P q) :
    ∀ q ∈ (settleAfterLeave s).queues, P q := by
  rw [settleAfterLeave, settleHeddle, settleDrains_queues, markOldest, modItems_queues]
  refine pumpScans_queues_all hP ?_
  rw [settleCredit_queues, retryParked_queues]
  exact h

/-- A slice that freezes: it is frozen and no longer saved, its queues are frozen, and of its items only one that a restart holds waits. -/
theorem freezeSlice_freezes {n : Nat} (p : PortId) (i : SliceIdx) {s : State} (hs : Apart n (numbersOf s.heddle)) :
    (∀ y ∈ (freezeSlice p i s).slices, y.port = p → y.idx = i → y.frozen = true ∧ y.saved = false) ∧
      (∀ q ∈ (freezeSlice p i s).queues, q.port = p → q.slice = i → q.state = .frozen) ∧
      AllItems (WaitsOnly p i []) (freezeSlice p i s) := by
  unfold freezeSlice
  extract_lets s₁ s₂ held
  have hslices : (held.foldl (fun s x => failItem .sliceFrozen x s) s₂).slices = s₁.slices := foldl_slices (fun s x => failItem_slices _ x s) held s₂
  have hqueues : (held.foldl (fun s x => failItem .sliceFrozen x s) s₂).queues = s₂.queues := foldl_queues (fun s x => failItem_queues _ x s) held s₂
  refine ⟨?slices, settleAfterLeave_queues_all (fun _ _ h => h) ?queues,
    AllItems.settleAfterLeave (n := n) ?numbers (waitsOnly_restful p i []) (failItems_waitsOnly _ fun j hj hp hi hwait => ?held)⟩
  case slices =>
    rw [(settleAfterLeave_settles _).slices, hslices]
    refine List.forall_mem_map.mpr fun x _ => ?_
    split
    · exact fun _ _ => ⟨rfl, rfl⟩
    · next hother => exact fun hp hi => absurd hother (by simp [hp, hi])
  case queues =>
    rw [hqueues]
    refine List.forall_mem_map.mpr fun x _ => ?_
    split
    · exact fun _ _ => rfl
    · next hother => exact fun hp hi => absurd hother (by simp [hp, hi])
  case numbers =>
    have h₂ : Apart n (numbersOf s₂.heddle) := hs
    simpa using h₂
  case held =>
    cases hflow : j.holdsFlow with
    | true => exact .inl rfl
    | false => exact .inr (List.mem_map_of_mem (List.mem_filter.mpr ⟨hj, by simp [hwait, hflow, hp, hi]⟩))

/-! ### Freezing and thawing -/

theorem freezeSliceAct_freezes {p : PortId} {e : AdminEntry} {x : Slice} {s : State} (hworks : isWorking s.mode.base = true)
    (hx : findSlice s p (entryByte e.entry 8) = some x) (hthawed : x.frozen = false) :
    (freezeSliceAct p e s).slices = (freezeSlice p x.idx (modPort p (fun y => { y with moveRefuse := 0 }) s)).slices ∧
      (freezeSliceAct p e s).queues = (freezeSlice p x.idx (modPort p (fun y => { y with moveRefuse := 0 }) s)).queues ∧
      (freezeSliceAct p e s).heddle = (freezeSlice p x.idx (modPort p (fun y => { y with moveRefuse := 0 }) s)).heddle := by
  simp only [freezeSliceAct, hworks, hx, hthawed, Bool.not_true, Bool.false_eq_true, if_false]
  split <;> simp [adminDone, adminWait]

theorem thawSliceAct_waits {p : PortId} {e : AdminEntry} {x : Slice} {s : State} (hworks : isWorking s.mode.base = true)
    (hx : findSlice s p (entryByte e.entry 8) = some x) (hfrozen : x.frozen = true) :
    thawSliceAct p e s = adminWait p (.thaw x.idx) (modPort p (fun y => { y with moveRefuse := 0 }) s) := by
  simp only [thawSliceAct, hworks, hx, hfrozen, Bool.not_true, Bool.false_eq_true, if_false]

/-- A command that is not refused waits, and its refusal code is 0. -/
theorem adminWait_waits {p : PortId} {w : AdminWait} {s : State} {e : AdminEntry} (h : s.ports[p.val].admin.entry = some e) :
    (adminWait p w (modPort p (fun y => { y with moveRefuse := 0 }) s)).ports[p.val].admin.entry = some { e with wait := w } ∧
      (adminWait p w (modPort p (fun y => { y with moveRefuse := 0 }) s)).ports[p.val].moveRefuse = 0 := by
  simp [adminWait, modAdmin, modPort, h]

theorem execFreezeDrainDone_ends {p : PortId} {e : AdminEntry} {i : SliceIdx} {s : State} (h : s.ports[p.val].admin.entry = some e)
    (hwait : e.wait = .freeze i) (hdrained : freezeDrained s p i = true) :
    exec (.freezeDrainDone p) s = .next (adminDone p .ok 0 [] s) := by
  simp only [exec, execFreezeDrainDone, h, hwait, hdrained, if_true]

/-! ### What a save and a restore leave -/

/-- What a save and a restore write beside slices, runs and ports. -/
def Frame.moving : Frame where
  take u s := { s with bobbin := u.bobbin, flash := u.flash, backup := u.backup, log := u.log, cabinet := u.cabinet, queues := u.queues }
  self _ := rfl
  last _ _ _ := rfl

theorem moving_units {s t : State} (h : Frame.moving.Keeps s t) : t.slices = s.slices ∧ t.runs = s.runs ∧ t.ports = s.ports := by
  rw [h]
  exact ⟨rfl, rfl, rfl⟩

theorem countTallyWrites_keepsMoving (n : Nat) (s : State) : Frame.moving.Keeps s (countTallyWrites n s) := by
  have hraise (u : State) (h : Frame.moving.Keeps s u) : Frame.moving.Keeps s (raise0 0x0DF u) := by
    refine h.trans ?_
    obtain ⟨_, _, _, _, hr⟩ := raise_touches 0x0DF 0 u
    rw [raise0, hr]
    rfl
  unfold countTallyWrites
  dsimp only
  split
  · exact hraise _ rfl
  · rfl

/-! ### Records that a save hands off (R314, R454) -/

/-- The copy that counts is RETIRED with this NONCE. -/
def HandedOff (low : Nat) (t : TallyRecord) : Prop := ∃ c, tallyNewest t = some c ∧ c.state = 4 ∧ c.nonce = low

/-- An update that is written at once is the newest copy: its sequence number is one above. -/
theorem tallyNewest_landWrite_issueTally (key : Bytes) (c : TallyCopy) (w : TallyWaiter) (t : TallyRecord) :
    ∃ n, tallyNewest (landWrite (issueTally key c w t)) = some (sealCopy key t.number { c with seq := n }) := by
  obtain ⟨number, copyA, copyB⟩ := t
  match copyA, copyB with
  | none, none => simp [issueTally, landWrite, tallyNewest, sealCopy]
  | none, some b => simp [issueTally, landWrite, tallyNewest, sealCopy]
  | some a, none => simp [issueTally, landWrite, tallyNewest, sealCopy]
  | some a, some b =>
    by_cases hnewer : a.seq < b.seq
    · have hother : (a == b) = false := beq_eq_false_iff_ne.mpr fun hab => absurd hnewer (hab ▸ lt_irrefl _)
      simp [issueTally, landWrite, tallyNewest, sealCopy, hnewer, hother]
    · simp [issueTally, landWrite, tallyNewest, sealCopy, hnewer]

theorem writeDurable_handedOff (key : Bytes) {c : TallyCopy} (hstate : c.state = 4) (t : TallyRecord) :
    HandedOff c.nonce (writeDurable key c t) := by
  obtain ⟨n, hn⟩ := tallyNewest_landWrite_issueTally key c .nobody
    (t.queued.foldl (fun t q => landWrite (issueTally key q.1 q.2 t)) { landWrite t with queued := [] })
  exact ⟨_, hn, hstate, rfl⟩

theorem countTallyWrites_tally (n : Nat) (s : State) : (countTallyWrites n s).flash.tally = s.flash.tally := by
  unfold countTallyWrites
  dsimp only
  split <;> simp [raise0]

/-- A LIVE record is handed off. -/
theorem handOff_handsOff {low : Nat} {s : State} {k : KeyRun × TallyRecord} {c : TallyCopy} (hc : tallyLatest k.2 = some c) (hlive : c.state = 2)
    (husable : k.2.unusable = false) : ∀ y ∈ (handOff low s k).flash.tally, k.2.number = y.number → HandedOff low y := by
  simp only [handOff, hc, hlive, husable, bne_self_eq_false, Bool.or_self, Bool.false_eq_true, if_false, countTallyWrites_tally]
  refine List.forall_mem_map.mpr fun x _ => ?_
  split
  · exact fun _ => writeDurable_handedOff (c := { c with state := 4, handoff := k.2.next, nonce := low }) _ rfl x
  · next hother => exact fun hnumber => absurd hother (by simp [hnumber])

/-- A record that is handed off stays so as others are. -/
theorem handOff_keeps {low n : Nat} {s : State} (k : KeyRun × TallyRecord) (h : ∀ y ∈ s.flash.tally, n = y.number → HandedOff low y) :
    ∀ y ∈ (handOff low s k).flash.tally, n = y.number → HandedOff low y := by
  unfold handOff
  split
  · exact h
  · next c _ =>
    split
    · exact h
    · dsimp only
      rw [countTallyWrites_tally]
      refine List.forall_mem_map.mpr fun x hx => ?_
      split
      · exact fun _ => writeDurable_handedOff (c := { c with state := 4, handoff := k.2.next, nonce := low }) _ rfl x
      · exact h x hx

theorem handOffs_handOff {low : Nat} {l : List (KeyRun × TallyRecord)} {s : State} {k : KeyRun × TallyRecord} {c : TallyCopy} (hk : k ∈ l)
    (hc : tallyLatest k.2 = some c) (hlive : c.state = 2) (husable : k.2.unusable = false) :
    ∀ y ∈ (l.foldl (handOff low) s).flash.tally, k.2.number = y.number → HandedOff low y := by
  obtain ⟨l₁, l₂, rfl⟩ := List.append_of_mem hk
  rw [List.foldl_append, List.foldl_cons]
  exact List.foldlRecOn (motive := fun t : State => ∀ y ∈ t.flash.tally, k.2.number = y.number → HandedOff low y) l₂ _
    (handOff_handsOff hc hlive husable) fun _ ht a _ => handOff_keeps a ht

theorem handOff_keepsMoving (low : Nat) (s : State) (k : KeyRun × TallyRecord) : Frame.moving.Keeps s (handOff low s k) := by
  unfold handOff
  split
  · exact .refl s
  · split
    · exact .refl s
    · exact .trans (t := modTally _ _ s) rfl (countTallyWrites_keepsMoving 1 _)

/-! ### Saving -/

/-- A draw of the steward is one request. -/
theorem draw_inst16 (n : Nat) (s : State) : (draw inst16 n s).1 = (ctrGenerate n s.bobbin.instances[16]).1 := by
  have hlength : (ctrGenerate n s.bobbin.instances[16]).1.length = n := by simp [ctrGenerate]
  change ((ctrGenerate n s.bobbin.instances[16]).1 ++ []).take n = _
  rw [List.append_nil, List.take_of_length_le hlength.le]

/-- What an image is sealed with is not the bobbin's. -/
theorem sealImage_draw (b : SliceBody) (dest : IdentityRecord) (nonce : BitVec 128) (d : Bytes) (i : InstId) (n : Nat) (s : State) :
    sealImage b dest nonce d (draw i n s).2 = sealImage b dest nonce d s := rfl

/-- The slice is saved and its LIVE records are handed off. -/
def savedState (p : PortId) (x : Slice) (nonce : BitVec 128) (s : State) : State :=
  modSlice p x.idx (fun y => { y with saved := true })
    ((statefulKeys s x).foldl (handOff (nonceLow nonce)) (modPort p (fun y => { y with moveRefuse := 0 }) (draw inst16 100 s).2))

theorem chosenSlots_none {e : Entry} (h : entryByte e 9 = 0) : chosenSlots e = [] := by
  simp [chosenSlots, h]

theorem saveSliceAct_saves {p : PortId} {e : AdminEntry} {x : Slice} {dest : IdentityRecord} {nonce : BitVec 128} {s : State}
    (hhost : entryByte e.entry 9 = 0) (hlen : inputLen e.entry = 9104) (hok : saveRefusal s p e.entry dest nonce = 0)
    (hx : findSlice s p (entryByte e.entry 8) = some x) (hroom : imageLength (sliceBody x nonce s) ≤ outputCap e.entry) :
    saveSliceAct p dest nonce [] e s = adminDone p .ok (imageLength (sliceBody x nonce s))
      (imageBytes (sealImage (sliceBody x nonce s) dest nonce (ctrGenerate 100 s.bobbin.instances[16]).1 s)) (savedState p x nonce s) := by
  rw [← draw_inst16, ← sealImage_draw (i := inst16) (n := 100)]
  simp only [saveSliceAct, chosenSlots_none hhost, hlen, hok, hx, Nat.not_lt.mpr hroom, bne_self_eq_false, List.isEmpty_nil, decide_false,
    Bool.and_false, Bool.not_true, Bool.false_and, Bool.false_eq_true, if_false, if_true, Nat.reduceEqDiff]
  rfl

theorem savedState_saved (p : PortId) (x : Slice) (nonce : BitVec 128) (s : State) :
    ∀ y ∈ (savedState p x nonce s).slices, y.port = p → y.idx = x.idx → y.saved = true := by
  refine List.forall_mem_map.mpr fun z _ => ?_
  split
  · exact fun _ _ => rfl
  · next hother => exact fun hp hi => absurd hother (by simp [hp, hi])

theorem savedState_admin (p : PortId) (x : Slice) (nonce : BitVec 128) (s : State) :
    (savedState p x nonce s).ports[p.val].admin = s.ports[p.val].admin := by
  obtain ⟨-, -, hports⟩ := moving_units (.foldl (handOff_keepsMoving (nonceLow nonce)) (statefulKeys s x)
    (modPort p (fun y => { y with moveRefuse := 0 }) (draw inst16 100 s).2))
  rw [savedState, modSlice_ports, hports, modPort_at]
  rfl

/-! ### Restoring -/

theorem logNonce_keepsMoving (n : BitVec 128) (s : State) : Frame.moving.Keeps s (logNonce n s) := by
  unfold logNonce
  dsimp only
  split <;> rfl

theorem restoreTally_keepsMoving (uid : BitVec 64) (accepted : Bool) (s : State) (t : ImageTally) :
    Frame.moving.Keeps s (restoreTally uid accepted s t) := by
  unfold restoreTally
  split
  · exact .refl s
  · dsimp only
    refine .trans ?_ (countTallyWrites_keepsMoving 1 _)
    split <;> rfl

theorem restoreQueue_keepsMoving (p : PortId) (i : SliceIdx) (s : State) (q : ImageQueue) : Frame.moving.Keeps s (restoreQueue p i s q) := by
  unfold restoreQueue
  split
  · exact .refl s
  · rfl

theorem allotDrawers_congr {s t : State} (h : t.slices = s.slices) (n : Nat) : allotDrawers t n = allotDrawers s n := by
  rw [allotDrawers, h, allotDrawers]

/-- The slice of the body and its runs are added, and the command waits for the beat. -/
theorem restoreAct_restores {p : PortId} {i : SliceIdx} {e : AdminEntry} {s : State} (nonce : BitVec 128) (b : SliceBody)
    (h : s.ports[p.val].admin.entry = some e) :
    ∃ n, (restoreAct p i e.entry nonce b s).slices = s.slices ++ [restoredSlice p i e.entry b n (allotDrawers s b.drawers)] ∧
      (restoreAct p i e.entry nonce b s).runs = s.runs ++ b.runs.map (restoredRun p i b) ∧
      (restoreAct p i e.entry nonce b s).ports[p.val].admin.entry = some { e with wait := .restore i } ∧
      (restoreAct p i e.entry nonce b s).ports[p.val].moveRefuse = 0 := by
  unfold restoreAct
  extract_lets accepted fresh refused s₁ s₂ s₃ x s₄ s₅ s₆
  have h₁ : Frame.moving.Keeps s s₁ := rfl
  have h₂ : Frame.moving.Keeps s s₂ := by
    unfold s₂
    split
    · exact h₁.trans (logNonce_keepsMoving nonce s₁)
    · exact h₁
  have h₃ : Frame.moving.Keeps s s₃ := h₂.trans (.foldl (restoreTally_keepsMoving _ _) fresh s₂)
  have h₅ : Frame.moving.Keeps s₄ s₅ := rfl
  have h₆ : Frame.moving.Keeps s₄ s₆ := h₅.trans (.foldl (restoreQueue_keepsMoving p i) b.queues s₅)
  obtain ⟨hslices₃, hruns₃, hports₃⟩ := moving_units h₃
  obtain ⟨hslices₆, hruns₆, hports₆⟩ := moving_units h₆
  have hentry : s₆.ports[p.val].admin.entry = some e := by
    rw [hports₆, show s₄.ports = s.ports from hports₃]
    exact h
  refine ⟨refused, ?_, ?_, adminWait_waits hentry⟩
  · change s₆.slices = _
    rw [hslices₆, show s₄.slices = s₃.slices ++ [x] from rfl, hslices₃, ← allotDrawers_congr hslices₃]
  · change s₆.runs = _
    rw [hruns₆, show s₄.runs = s₃.runs ++ b.runs.map (restoredRun p i b) from rfl, hruns₃]

/-- An image from the host is the one that the command brings. -/
theorem namedSource_none {e : Entry} (h : entryByte e 12 = 0) : ((fins 4).find? fun c => c.val + 1 == entryByte e 12) = none := by
  rw [h]
  decide

theorem restoreSliceAct_restores {p : PortId} {e : AdminEntry} {i : SliceIdx} {m : SliceImage} {b : SliceBody} {s : State}
    (hhost : entryByte e.entry 12 = 0) (hok : restoreRefusal s p e.entry (some m) = 0) (hi : freeSliceIndex s p = some i)
    (hb : receivedBody s m = some b) : restoreSliceAct p (some m) e s = restoreAct p i e.entry (imgNonce m) b s := by
  have hnamed : namedImage s e.entry (some m) = some m := by rw [namedImage, namedSource_none hhost]
  have hread : readNamed s e.entry = s := by rw [readNamed, namedSource_none hhost]
  simp [restoreSliceAct, hhost, hnamed, hread, hok, hi, hb]

/-- Settles O42, command by command. -/
theorem movingCompletes : Obligations.moving_completes := by
  intro s p e x i dest nonce m hs
  refine ⟨fun h hworks hx hthawed => ?freeze, fun hentry hwait hdrained => ?drained, fun h hworks hx hfrozen => ?thaw,
    fun h hhost hlen hok hx hroom => ?save, fun h hhost hok hi b hb => ?restore⟩
  case freeze =>
    have hacts : exec (.freezeSlice p) s = .next (freezeSliceAct p e s) := congrArg Host.Outcome.next (adminCommand_acts (freezeSliceAct p) h)
    obtain ⟨hslices, hqueues, hheddle⟩ := freezeSliceAct_freezes hworks hx hthawed
    obtain ⟨hfrozen, hstates, hitems⟩ := freezeSlice_freezes p x.idx (s := modPort p (fun y => { y with moveRefuse := 0 }) s) (idsApart_iff.mp hs)
    rw [← hslices] at hfrozen
    rw [← hqueues] at hstates
    exact ⟨_, hacts, hfrozen, hstates, fun j hj hp hi hwait => (hitems.of_heddle hheddle j hj hp hi hwait).resolve_right List.not_mem_nil⟩
  case drained => exact ⟨_, execFreezeDrainDone_ends hentry hwait hdrained, adminDone_ends hentry, rfl⟩
  case thaw =>
    have hacts : exec (.thawSlice p) s = .next _ :=
      congrArg Host.Outcome.next ((adminCommand_acts (thawSliceAct p) h).trans (thawSliceAct_waits hworks hx hfrozen))
    exact ⟨_, hacts, rfl, adminWait_waits (adminRuns_entry h)⟩
  case save =>
    have hacts : exec (.saveSlice p dest nonce []) s = .next _ :=
      congrArg Host.Outcome.next ((adminCommand_acts (saveSliceAct p dest nonce []) h).trans (saveSliceAct_saves hhost hlen hok hx hroom))
    have hentry : (savedState p x nonce s).ports[p.val].admin.entry = some e := by
      rw [savedState_admin]
      exact adminRuns_entry h
    obtain ⟨a, d, ha, hd, -, -, hout, -⟩ := adminDone_answers hentry
    refine ⟨_, a, d, hacts, adminDone_ends hentry, ha, hd, hout, savedState_saved p x nonce s, fun y hy hlive => ?_⟩
    obtain ⟨k, hk, hnumber, husable, c, hc, hstate⟩ := hlive
    exact handOffs_handOff hk hc hstate husable y hy hnumber
  case restore =>
    have hacts : exec (.restoreSlice p (some m)) s = .next _ :=
      congrArg Host.Outcome.next ((adminCommand_acts (restoreSliceAct p (some m)) h).trans (restoreSliceAct_restores hhost hok hi hb))
    obtain ⟨n, hslices, hruns, hentry, hrefuse⟩ := restoreAct_restores (imgNonce m) b (adminRuns_entry h)
    exact ⟨_, n, hacts, hslices, hruns, hentry, hrefuse⟩

end Sys2Proof.Machine
end

section
/-! PROOFS. How the life-cycle counter reads (R524, R525). -/

namespace Sys2Proof.Machine

open Sys2Proof.Claims

/-! ### Reading the counter (R524, R525) -/

theorem tornGroup_le {otp : BitVec 24} {k : Nat} (h : tornGroup otp = some k) : k ≤ 4 :=
  Nat.le_of_lt_succ (List.mem_range.mp (List.mem_of_find?_eq_some h))

/-- The reader burns one group of the first five, or none. -/
theorem readCounter_burns (otp : BitVec 24) :
    (readCounter otp).1 = otp ∨ ∃ k, k ≤ 4 ∧ (readCounter otp).1 = otp ||| BitVec.ofNat 24 (15 * 2 ^ (4 * k)) := by
  unfold readCounter
  dsimp only
  split
  · next k hk => exact .inr ⟨k, tornGroup_le hk, rfl⟩
  · exact .inl rfl

theorem and_or_self_right {w : Nat} (a m : BitVec w) : a &&& (a ||| m) = a := by
  ext i
  simpa using Or.inl

theorem or_and_not_self {w : Nat} (a m : BitVec w) : (a ||| m) &&& ~~~m = a &&& ~~~m := by
  ext i
  cases h : m[i] <;> simp [h]

theorem and_readCounter (otp : BitVec 24) : otp &&& (readCounter otp).1 = otp := by
  rcases readCounter_burns otp with h | ⟨k, -, h⟩ <;> rw [h]
  · exact BitVec.and_self
  · exact and_or_self_right otp _

theorem readCounter_outside_group (otp : BitVec 24) :
    ∃ g, g ≤ 4 ∧ (readCounter otp).1 &&& ~~~(BitVec.ofNat 24 (15 * 2 ^ (4 * g))) = otp &&& ~~~(BitVec.ofNat 24 (15 * 2 ^ (4 * g))) := by
  rcases readCounter_burns otp with h | ⟨k, hk, h⟩
  · exact ⟨0, Nat.zero_le 4, by rw [h]⟩
  · exact ⟨k, hk, by rw [h, or_and_not_self]⟩

/-- The count is the place of the first group that does not read as burned. -/
theorem stateCount_eq_findIdx (otp : BitVec 24) :
    stateCount otp = min 5 ((List.range 6).findIdx fun g => !decide (3 ≤ groupBits otp g)) := by
  have hle := List.findIdx_le_length (xs := List.range 6) (p := fun g => !decide (3 ≤ groupBits otp g))
  rw [stateCount, List.takeWhile_eq_take_findIdx_not, List.length_take, Nat.min_eq_left hle]

theorem stateCount_le (otp : BitVec 24) : stateCount otp ≤ 5 := Nat.min_le_left ..

theorem groupBits_of_lt_stateCount {otp : BitVec 24} {g : Nat} (h : g < stateCount otp) : 3 ≤ groupBits otp g := by
  rw [stateCount_eq_findIdx] at h
  simpa using List.not_of_lt_findIdx (Nat.lt_of_lt_of_le h (Nat.min_le_right ..))

theorem groupBits_stateCount {otp : BitVec 24} (h : stateCount otp < 5) : groupBits otp (stateCount otp) < 3 := by
  have heq := stateCount_eq_findIdx otp
  have hidx : stateCount otp = (List.range 6).findIdx fun g => !decide (3 ≤ groupBits otp g) := by omega
  have hlt : ((List.range 6).findIdx fun g => !decide (3 ≤ groupBits otp g)) < (List.range 6).length := by
    rw [List.length_range]
    omega
  have hfound := List.findIdx_getElem (w := hlt)
  rw [List.getElem_range, ← hidx] at hfound
  simpa using hfound

/-- Settles O16: the reader's burns and the count of leading groups, each by its own lemma. -/
theorem lifeCycleReader : Obligations.life_cycle_reader := fun otp =>
  ⟨and_readCounter otp, readCounter_outside_group otp, stateCount_le otp, fun _ h => groupBits_of_lt_stateCount h,
    fun h => groupBits_stateCount h⟩

end Sys2Proof.Machine
end

section
/-! PROOFS. What leaves the life-cycle registers (R524, R529): one rule a function, in the model's order, as for the fuses. The few
functions that move the challenge or the nonce leave the state and the running transition. -/

namespace Sys2Proof.Machine

/-- The state of the counter and the transition that runs: what a burn and a transition change and no other step does. -/
def LifeCycle.cycle (l : LifeCycle) : Nat × Option Transition := (l.state, l.transition)

@[simp] theorem cycle_nonce (l : LifeCycle) (n : Option Bytes) : { l with nonce := n }.cycle = l.cycle := rfl

@[simp] theorem cycle_nonce_attempts (l : LifeCycle) (n : Option Bytes) (a : Nat) : { l with nonce := n, attempts := a }.cycle = l.cycle :=
  rfl

@[simp] theorem cycle_debug (l : LifeCycle) (b : Bool) : { l with debug := b }.cycle = l.cycle := rfl
@[simp] theorem cycle_result (l : LifeCycle) (r : Nat) : { l with result := r }.cycle = l.cycle := rfl

@[simp] theorem cycle_challenges (l : LifeCycle) (c : List (Nat × PortId × BitVec 16)) : { l with challenges := c }.cycle = l.cycle := rfl

theorem foldl_cycle {α : Type} {f : State → α → State} (l : List α) (s : State) (h : ∀ s a, (f s a).life.cycle = s.life.cycle) :
    (l.foldl f s).life.cycle = s.life.cycle := by
  induction l generalizing s with
  | nil => rfl
  | cons a l ih => exact (ih _).trans (h s a)

/-! ### How the rules compose -/

theorem operation_life {s t : State} (h : Frame.operation.Keeps s t) : t.life = s.life := by
  rw [h]
  rfl

theorem slots_life {s t : State} (h : Frame.slots.Keeps s t) : t.life = s.life := by
  rw [h]
  rfl

theorem bobbin_life {s t : State} (h : Frame.bobbin.Keeps s t) : t.life = s.life := by
  rw [h]
  rfl

theorem cards_life {s t : State} (h : Frame.cards.Keeps s t) : t.life = s.life := by
  rw [h]
  rfl

theorem foldl_life_of {α β : Type} (g : β → State) {f : β → α → β} (h : ∀ x a, (g (f x a)).life = (g x).life)
    (l : List α) (x : β) : (g (l.foldl f x)).life = (g x).life := by
  induction l generalizing x with
  | nil => rfl
  | cons a l ih => exact (ih _).trans (h x a)

@[simp] theorem foldl_life {α : Type} {f : State → α → State} (l : List α) (s : State) (h : ∀ s a, (f s a).life = s.life) :
    (l.foldl f s).life = s.life :=
  foldl_life_of id h l s

@[simp] theorem ite_life {c : Prop} [Decidable c] (s t : State) : (if c then s else t).life = if c then s.life else t.life :=
  apply_ite State.life c s t

@[simp] theorem foldl_emit_life {α : Type} (x : α → Tx) (l : List α) (s : State) :
    (l.foldl (fun s a => emit (x a) s) s).life = s.life :=
  foldl_life l s fun _ _ => rfl

@[simp] theorem foldl_modLoom_life (f : LoomId → Loom → Loom) (l : List LoomId) (s : State) :
    (l.foldl (fun s n => modLoom n (f n) s) s).life = s.life :=
  foldl_life l s fun _ _ => rfl

/-! ### Events and the log -/

@[simp] theorem latchEntry_life (e : LatchEntry) (s : State) : (latchEntry e s).life = s.life := by simp [latchEntry]

@[simp] theorem countLost_life (severity : Nat) (s : State) : (countLost severity s).life = s.life := by
  unfold countLost
  split <;> simp

@[simp] theorem queueEvent_life (e : Event) (s : State) : (queueEvent e s).life = s.life := by simp [queueEvent]
@[simp] theorem raise0_life (ev : Nat) (s : State) : (raise0 ev s).life = s.life := by simp [raise0]

/-! ### Writes from the host, the chest, draws -/

@[simp] theorem onBar_life (p : PortId) (act : State → State) (s : State) (h : ∀ t, (act t).life = t.life) :
    (onBar p act s).life = s.life := by
  unfold onBar
  split
  · exact h s
  · split <;> simp

@[simp] theorem onWrite_life (p : PortId) (act : State → State) (s : State) (h : ∀ t, (act t).life = t.life) :
    (onWrite p act s).life = s.life := by
  simp [onWrite, h]

@[simp] theorem onBar_emit_life (p : PortId) (x : Tx) (s : State) : (onBar p (emit x) s).life = s.life :=
  onBar_life p _ s fun _ => rfl

@[simp] theorem writeChest_life (f : Chest → Chest) (s : State) : (writeChest f s).life = s.life := by simp [writeChest]
@[simp] theorem takeFree_life (s : State) : (takeFree s).2.life = s.life := by simp [takeFree]

@[simp] theorem draw_life (i : InstId) (n : Nat) (s : State) : (draw i n s).2.life = s.life :=
  operation_life (draw_keepsOperation _ _ s)

@[simp] theorem drawBuffer_life (k : Fin 12) (n : Nat) (s : State) : (drawBuffer k n s).2.life = s.life := by simp [drawBuffer]

/-! ### How items end, and what a slice leaves -/

@[simp] theorem traceRecord_life (p : PortId) (engine : Nat) (i : Option Item) (reason cls : Nat) (s : State) :
    (traceRecord p engine i reason cls s).life = s.life := by
  simp [traceRecord]

@[simp] theorem traceItem_life (reason : Nat) (i : Item) (s : State) : (traceItem reason i s).life = s.life := by simp [traceItem]

@[simp] theorem eraseTally_life (sel : TallyRecord → Bool) (s : State) : (eraseTally sel s).life = s.life :=
  operation_life (eraseTally_keepsOperation _ s)

@[simp] theorem settleRuns_life (s : State) : (settleRuns s).life = s.life := operation_life (settleRuns_keepsOperation s)
@[simp] theorem returnReservation_life (id : Nat) (s : State) : (returnReservation id s).life = s.life := by simp [returnReservation]

@[simp] theorem endItem_life (id : Nat) (d : Done) (eng : Nat) (s : State) : (endItem id d eng s).life = s.life :=
  operation_life (endItem_keepsOperation _ _ _ s)

@[simp] theorem failItem_life (st : Status) (i : Item) (s : State) : (failItem st i s).life = s.life := by simp [failItem]

@[simp] theorem modContext_life (i : Item) (f : JobContext → JobContext) (s : State) : (modContext i f s).life = s.life :=
  operation_life (modContext_keepsOperation _ _ s)

@[simp] theorem leaveStores_life (i : Item) (s : State) : (leaveStores i s).life = s.life :=
  operation_life (leaveStores_keepsOperation _ s)

@[simp] theorem leaveUnits_life (i : Item) (s : State) : (leaveUnits i s).life = s.life :=
  operation_life (leaveUnits_keepsOperation _ s)

@[simp] theorem failInService_life (st : Status) (cycles : Nat) (i : Item) (s : State) : (failInService st cycles i s).life = s.life :=
  operation_life (failInService_keepsOperation _ _ _ s)

@[simp] theorem countAbandon_life (i : Item) (s : State) : (countAbandon i s).life = s.life := by
  unfold countAbandon
  (repeat' split) <;> simp

@[simp] theorem resumeTrestle_life (i : Item) (s : State) : (resumeTrestle i s).life = s.life :=
  operation_life (resumeTrestle_keepsOperation _ s)

@[simp] theorem restartCoded_life (code : Nat) (fault : Bool) (excl : List Engine) (i : Item) (s : State) :
    (restartCoded code fault excl i s).life = s.life := by
  simp [restartCoded]

@[simp] theorem restartItem_life (fault : Bool) (excl : List Engine) (i : Item) (s : State) :
    (restartItem fault excl i s).life = s.life := by
  simp [restartItem]

@[simp] theorem restartAllOn_life (fault : Bool) (e : Engine) (s : State) : (restartAllOn fault e s).life = s.life := by
  simp [restartAllOn]

@[simp] theorem discardItems_life (p : PortId) (i : SliceIdx) (s : State) : (discardItems p i s).life = s.life := by simp [discardItems]

@[simp] theorem destroySlice_life (p : PortId) (i : SliceIdx) (erase : Bool) (s : State) : (destroySlice p i erase s).life = s.life := by
  unfold destroySlice
  extract_lets old uid s₁ s₂ s₃ keys m s₄ s₅ s₆ cards s₇
  have h₁ : s₁.life = s.life := by
    unfold s₁
    cases old <;> simp
  have h₇ : s₇.life = s.life := by simp [s₇, s₆, s₅, s₄, s₃, s₂, h₁]
  split <;> simp [h₇]

@[simp] theorem destroyAllSlices_life (s : State) : (destroyAllSlices s).life = s.life := by simp [destroyAllSlices]

/-! ### Modes, fences, plans, answers -/

@[simp] theorem adminDone_life (p : PortId) (st : Status) (result : Nat) (output : Bytes) (s : State) :
    (adminDone p st result output s).life = s.life := by
  simp [adminDone]

@[simp] theorem ownerDone_life (st : Status) (s : State) : (ownerDone st s).life = s.life := by
  unfold ownerDone
  split
  · rfl
  · dsimp only
    split
    · split
      · split <;> simp
      · rfl
    · rfl

@[simp] theorem rethreadDone_life (st : Status) (s : State) : (rethreadDone st s).life = s.life := by
  unfold rethreadDone
  (repeat' split) <;> simp

@[simp] theorem endFirstThreading_life (s : State) : (endFirstThreading s).life = s.life := by simp [endFirstThreading]
@[simp] theorem enterHold_life (cause : Nat) (s : State) : (enterHold cause s).life = s.life := by simp [enterHold]

@[simp] theorem leaveIdle_life (s : State) : (leaveIdle s).life = s.life := by simp [leaveIdle]
@[simp] theorem degrade_life (cause : Nat) (s : State) : (degrade cause s).life = s.life := by simp [degrade]

@[simp] theorem restartWhere_life (code : Nat) (fault : Bool) (sel : Engine → Bool) (s : State) :
    (restartWhere code fault sel s).life = s.life := by
  unfold restartWhere
  dsimp only
  rw [unask_life]
  refine foldl_life _ _ fun s i => ?_
  split <;> simp

@[simp] theorem fenceUnits_life (fault : Bool) (benches : BitVec 16) (looms : List LoomId) (trestles : BitVec 8) (selvs : BitVec 4) (s : State) :
    (fenceUnits fault benches looms trestles selvs s).life = s.life := by
  unfold fenceUnits
  dsimp only
  split <;> simp

@[simp] theorem queueSeed_life (i : InstId) (s : State) : (queueSeed i s).life = s.life := by simp [queueSeed]
@[simp] theorem requestSeed_life (i : InstId) (s : State) : (requestSeed i s).life = s.life := by simp [requestSeed]
@[simp] theorem askBenchSeeds_life (s : State) : (askBenchSeeds s).life = s.life := by simp [askBenchSeeds]

@[simp] theorem bobbinRestartDone_life (st : Status) (s : State) : (bobbinRestartDone st s).life = s.life := by
  unfold bobbinRestartDone
  (repeat' split) <;> simp

@[simp] theorem parkBenches_life (m : BitVec 16) (s : State) : (parkBenches m s).life = s.life := by simp [parkBenches, parkBench]
@[simp] theorem settleBelowMin_life (s : State) : (settleBelowMin s).life = s.life := by simp [settleBelowMin]

@[simp] theorem removeFunction_life (p : PortId) (s : State) : (removeFunction p s).life = s.life := by
  simp [removeFunction, destroyPortSlices]

@[simp] theorem detachFunction_life (p : PortId) (s : State) : (detachFunction p s).life = s.life := by simp [detachFunction]

@[simp] theorem oneSlotPowered_life (s : State) : (oneSlotPowered s).life = s.life := by
  unfold oneSlotPowered
  split <;> simp [cutSlot]

@[simp] theorem planFallMode_life (s : State) : (planFallMode s).life = s.life := by
  unfold planFallMode
  split <;> simp [bobbinOff]

@[simp] theorem replan_life (s : State) : (replan s).life = s.life := by simp [replan, planFall]
@[simp] theorem bulk_life (low : Bool) (s : State) : (bulk low s).life = s.life := by simp [bulk]
@[simp] theorem returnBenches_life (s : State) : (returnBenches s).life = s.life := by simp [returnBenches]

@[simp] theorem clearDrawers_life (s : State) : (clearDrawers s).life = s.life :=
  foldl_life _ _ fun _ _ => foldl_life _ _ fun _ _ => rfl

@[simp] theorem abandonAll_life (st : Status) (s : State) : (abandonAll st s).life = s.life := by
  refine foldl_life _ _ fun s i => ?_
  split
  · split <;> simp
  · simp
  · simp

@[simp] theorem abandonAdmin_life (st : Status) (s : State) : (abandonAdmin st s).life = s.life := by
  unfold abandonAdmin
  extract_lets
  rw [foldl_life, foldl_life _ _ fun s x => destroySlice_life ..]
  intro s p
  split
  · split <;> simp
  · rfl

@[simp] theorem zeroizeLine_life (s : State) : (zeroizeLine s).life = s.life := by simp [zeroizeLine, stopCeremony]

@[simp] theorem tamperFence_life (src : SourceId) (sc : FenceScope) (s : State) : (tamperFence src sc s).life = s.life := by
  simp [tamperFence]

@[simp] theorem haltResponse_life (s : State) : (haltResponse s).life = s.life := by simp [haltResponse]

@[simp] theorem markFiring_life (src : SourceId) (machine code cls : Nat) (s : State) :
    (markFiring src machine code cls s).life = s.life := by
  simp [markFiring]

@[simp] theorem openPair_life (fs : List (Firing × Nat)) (s : State) : (openPair fs s).life = s.life := by simp [openPair]
@[simp] theorem useNonce_cycle (s : State) : (useNonce s).life.cycle = s.life.cycle := by simp [useNonce]

@[simp] theorem abandonWork_cycle (s : State) (w : WaitingEnvelope) : (abandonWork s w).life.cycle = s.life.cycle := by
  unfold abandonWork
  split <;> simp

@[simp] theorem abandonSteward_cycle (s : State) : (abandonSteward s).life.cycle = s.life.cycle := by
  unfold abandonSteward
  extract_lets tally s₁ serving s₂ s₃ s₄ s₅
  have h₂ : s₂.life = s.life := by simp [s₂, s₁]
  have h₄ : s₄.life = s.life := by simp [s₄, s₃, h₂]
  have h₅ : s₅.life.cycle = s₄.life.cycle := foldl_cycle _ s₄ abandonWork_cycle
  rw [cycle_challenges]
  exact h₅.trans (congrArg LifeCycle.cycle h₄)

/-! ### The logbook -/

@[simp] theorem takeRecord_life (r : LogRecord) (s : State) : (takeRecord r s).life = s.life := by
  unfold takeRecord
  (repeat' split) <;> simp

@[simp] theorem repeatRecord_life (seq : Word) (t : Nat) (s : State) : (repeatRecord seq t s).life = s.life := by simp [repeatRecord]

@[simp] theorem takeEvent_life (e : Event) (s : State) : (takeEvent e s).life = s.life := by
  unfold takeEvent
  split <;> simp

@[simp] theorem writeRecord_life (r : LogRecord) (s : State) : (writeRecord r s).life = s.life := by simp [writeRecord]
@[simp] theorem loseBackup_life (s : State) : (loseBackup s).life = s.life := by simp [loseBackup]

/-! ### The tally region -/

@[simp] theorem countTallyWrites_life (n : Nat) (s : State) : (countTallyWrites n s).life = s.life := by simp [countTallyWrites]

@[simp] theorem scanRecord_life (s : State) (t : TallyRecord) : (scanRecord s t).life = s.life := by
  unfold scanRecord
  dsimp only
  split
  · simp
  · split
    · split <;> simp
    · simp

@[simp] theorem writeTally_life (number : Nat) (c : TallyCopy) (w : TallyWaiter) (s : State) :
    (writeTally number c w s).life = s.life := by
  simp [writeTally]

@[simp] theorem reserveTally_life (id : Nat) (uid : BitVec 64) (s : State) : (reserveTally id uid s).life = s.life := by
  unfold reserveTally
  split <;> rfl

@[simp] theorem reserveIndices_life (t : TallyRecord) (s : State) : (reserveIndices t s).life = s.life := by
  unfold reserveIndices
  split <;> simp

@[simp] theorem reserveFor_life (i : Item) (s : State) : (reserveFor i s).life = s.life := by
  unfold reserveFor
  (repeat' split) <;> simp

@[simp] theorem bindIndex_life (i : Item) (s : State) : (bindIndex i s).life = s.life := by
  unfold bindIndex
  (repeat' split) <;> simp [raisePointer]

@[simp] theorem markExhausted_life (i : Item) (s : State) : (markExhausted i s).life = s.life := by
  unfold markExhausted
  (repeat' split) <;> simp

/-! ### Reports to the host -/

@[simp] theorem sendMessage_life (p : PortId) (vector : Nat) (s : State) : (sendMessage p vector s).life = s.life := by
  unfold sendMessage
  dsimp only
  split
  · rfl
  · split <;> simp

@[simp] theorem queueMessage_life (p : PortId) (n : Nat) (s : State) : (queueMessage p n s).life = s.life := by
  unfold queueMessage
  split <;> simp

@[simp] theorem adminMessage_life (p : PortId) (s : State) : (adminMessage p s).life = s.life := by simp [adminMessage]

@[simp] theorem countWritten_life (p : PortId) (n : Nat) (e : Entry) (s : State) : (countWritten p n e s).life = s.life := by
  unfold countWritten
  dsimp only
  split <;> simp

@[simp] theorem queueError_life (p : PortId) (n err : Nat) (s : State) : (queueError p n err s).life = s.life := by
  unfold queueError
  (repeat' split) <;> simp

@[simp] theorem report_life (src : Nat) (ue : Bool) (s : State) : (report src ue s).life = s.life := by simp [report]

/-! ### Admission and ring reads -/

@[simp] theorem takeScratch_life (id : Nat) (s : State) : (takeScratch id s).life = s.life := by
  unfold takeScratch
  (repeat' split) <;> simp

@[simp] theorem enterList_life (id : Nat) (s : State) : (enterList id s).life = s.life := by
  unfold enterList
  split <;> simp

@[simp] theorem park_life (full : Bool) (id : Nat) (s : State) : (park full id s).life = s.life := by
  unfold park
  split <;> simp

@[simp] theorem offer_life (id : Nat) (s : State) : (offer id s).life = s.life := by
  unfold offer
  dsimp only
  split <;> simp

@[simp] theorem settleCredit_life (s : State) : (settleCredit s).life = s.life := by simp [settleCredit]

@[simp] theorem askPages_life (p : PortId) (i : SliceIdx) (pages : List Nat) (s : State) : (askPages p i pages s).life = s.life := by
  simp [askPages]

@[simp] theorem touchPages_life (p : PortId) (i : SliceIdx) (pages : List Nat) (s : State) : (touchPages p i pages s).life = s.life := by
  simp [touchPages]

@[simp] theorem issueRead_life (q : Queue) (n : Nat) (s : State) : (issueRead q n s).life = s.life := by simp [issueRead]

@[simp] theorem pumpScans_life (s : State) : (pumpScans s).life = s.life := by
  refine foldl_life _ _ fun s q => ?_
  split <;> simp

@[simp] theorem pumpAdmin_life (s : State) : (pumpAdmin s).life = s.life := by simp [pumpAdmin]

@[simp] theorem settleDrains_life (s : State) : (settleDrains s).life = s.life := by
  refine foldl_life _ _ fun s p => ?_
  dsimp only
  split <;> simp

@[simp] theorem settleHeddle_life (s : State) : (settleHeddle s).life = s.life := by simp [settleHeddle, markOldest]
@[simp] theorem settleAfterLeave_life (s : State) : (settleAfterLeave s).life = s.life := by simp [settleAfterLeave, retryParked]

@[simp] theorem touchFetch_life (q : Queue) (f : Fetched) (reached : Bool) (s : State) : (touchFetch q f reached s).life = s.life := by
  simp [touchFetch]

@[simp] theorem reserve_life (id : Nat) (x : Slice) (info : OpInfo) (e : Entry) (s : State) : (reserve id x info e s).life = s.life := by
  unfold reserve
  (repeat' split) <;> simp

@[simp] theorem failAtFetch_life (id : Nat) (x : Slice) (ff : FetchFail) (s : State) : (failAtFetch id x ff s).life = s.life := by
  unfold failAtFetch
  dsimp only
  split <;> simp

@[simp] theorem placeItem_life (id : Nat) (random : Bool) (s : State) : (placeItem id random s).life = s.life := by
  unfold placeItem
  split <;> simp

@[simp] theorem takeEntry_life (q : Queue) (x : Slice) (f : Fetched) (s : State) : (takeEntry q x f s).life = s.life := by
  unfold takeEntry
  extract_lets id e info fail claim named i s₁ items s₂ s₃ s₄
  have h₃ : s₃.life = s.life := by simp [s₃, s₂, s₁]
  have h₄ : s₄.life = s.life := by
    unfold s₄
    cases claim <;> simp [h₃]
  cases fail <;> simp [h₄]

@[simp] theorem takeEntries_life (p : PortId) (n : Nat) (l : List Fetched) (s : State) : (takeEntries p n l s).1.life = s.life := by
  induction l generalizing s with
  | nil => rfl
  | cons f l ih =>
    unfold takeEntries
    split
    · rfl
    · split
      · rfl
      · split
        · rfl
        · split
          · rfl
          · rw [ih, settleCredit_life, takeEntry_life]

@[simp] theorem afterRead_life (p : PortId) (n : Nat) (stopped : Bool) (s : State) : (afterRead p n stopped s).life = s.life := by
  unfold afterRead
  split <;> simp

@[simp] theorem workRead_life (p : PortId) (n count : Nat) (r : RingResult) (s : State) : (workRead p n count r s).life = s.life := by
  unfold workRead
  dsimp only
  split <;> simp

@[simp] theorem barAdmin_life (p : PortId) (code : Nat) (s : State) : (barAdmin p code s).life = s.life := by simp [barAdmin]

@[simp] theorem adminRead_life (p : PortId) (r : RingResult) (s : State) : (adminRead p r s).life = s.life := by
  unfold adminRead
  (repeat' split) <;> simp [takeAdmin]

@[simp] theorem outputFault_life (e : Engine) (s : State) : (outputFault e s).life = s.life := by
  unfold outputFault
  split <;> simp

@[simp] theorem writtenBytes_life (overlaps : Bool) (bs : Bytes) (s : State) : (writtenBytes overlaps bs s).2.life = s.life := by
  unfold writtenBytes
  split <;> simp

@[simp] theorem writeItem_life (i : Item) (d : Done) (w : WriteBack) (s : State) : (writeItem i d w s).life = s.life := by
  unfold writeItem
  (repeat' split) <;> simp [writeOutput, outputBytes]

@[simp] theorem writeCompletion_life (id : Nat) (outcome : WriteBack) (s : State) : (writeCompletion id outcome s).life = s.life := by
  unfold writeCompletion
  (repeat' split) <;> simp [writeAdmin]

/-! ### The heddle -/

@[simp] theorem enterContext_life (i : Item) (draws : Bool) (s : State) : (enterContext i draws s).life = s.life := by
  unfold enterContext
  (repeat' split) <;> simp

@[simp] theorem grantDraws_life (e : Engine) (i : Item) (s : State) : (grantDraws e i s).life = s.life := by
  unfold grantDraws
  split <;> simp [startRoutine]

@[simp] theorem grantActs_life (e : Engine) (i : Item) (s : State) : (grantActs e i s).life = s.life := by
  unfold grantActs
  (repeat' split) <;> simp [requestPred]

@[simp] theorem suspendLong_life (t : TrestleId) (s : State) : (suspendLong t s).life = s.life := by
  unfold suspendLong
  split <;> simp

@[simp] theorem grant_life (e : Engine) (yielding : List TrestleId) (i : Item) (reason : Nat) (s : State) :
    (grant e yielding i reason s).life = s.life := by
  unfold grant
  extract_lets partner t s₁ ctx placed s₂ m s₃ s₄ c last heddle s₅ s₆ s₇
  have h₁ : s₁.life = s.life := by
    unfold s₁
    cases t <;> simp
  have h₃ : s₃.life = s₂.life := by
    unfold s₃
    cases t <;> simp
  have h₇ : s₇.life = s.life := by simp [s₇, s₆, s₅, s₄, h₃, s₂, h₁]
  split
  · split <;> simp [h₇]
  · simp [h₇]

@[simp] theorem grantLoop_life (n : Nat) (e : Engine) (y : List TrestleId) (only : Item → Bool) (s : State) :
    (grantLoop n e y only s).1.life = s.life := by
  induction n generalizing s with
  | zero => rfl
  | succ n ih =>
    unfold grantLoop
    split
    · rfl
    · split
      · simp [ih]
      · exact grant_life ..

@[simp] theorem serveFirst_life (y : List TrestleId) (l : List Engine) (s : State) : (serveFirst y l s).1.life = s.life := by
  induction l generalizing s with
  | nil => rfl
  | cons e l ih =>
    unfold serveFirst
    dsimp only
    split
    · exact grantLoop_life ..
    · rw [ih, grantLoop_life]

@[simp] theorem serveClass_life (x : State × List TrestleId × Bool) (c : SvcClass) : (serveClass x c).1.life = x.1.life := by
  unfold serveClass
  dsimp only
  split
  · rfl
  · split <;> exact serveFirst_life ..

@[simp] theorem heddleCycle_life (y : List TrestleId) (s : State) : (heddleCycle y s).life = s.life := by
  unfold heddleCycle
  rw [ite_life, foldl_life_of Prod.fst serveClass_life]
  exact ite_self _

@[simp] theorem serveYield_life (l : List Engine) (s : State) : (serveYield l s).life = s.life := by
  induction l generalizing s with
  | nil => rfl
  | cons e l ih =>
    unfold serveYield
    dsimp only
    split
    · exact grantLoop_life ..
    · rw [ih, grantLoop_life]

@[simp] theorem routineFault_life (i : Item) (s : State) : (routineFault i s).life = s.life := by
  unfold routineFault
  split <;> simp

@[simp] theorem finishKey_life (id : Nat) (r : KeyRun) (s : State) : (finishKey id r s).life = s.life := by
  unfold finishKey
  (repeat' split) <;> simp

@[simp] theorem retireKey_life (id : Nat) (r : KeyRun) (s : State) : (retireKey id r s).life = s.life := by
  unfold retireKey
  (repeat' split) <;> simp

@[simp] theorem takeBlock_life (u : FarmUser) (s : State) : (takeBlock u s).life = s.life := by
  unfold takeBlock
  split <;> simp

/-! ### Commits -/

@[simp] theorem countLoomMismatch_life (n : LoomId) (lane : Option (Fin 8)) (s : State) :
    (countLoomMismatch n lane s).life = s.life := by
  simp [countLoomMismatch]

@[simp] theorem loomMismatch_life (n : LoomId) (lane : Option (Fin 8)) (s : State) : (loomMismatch n lane s).life = s.life := by
  simp [loomMismatch]

@[simp] theorem selvMismatch_life (u : SelvId) (s : State) : (selvMismatch u s).life = s.life := by simp [selvMismatch]
@[simp] theorem fenceTrestle_life (t : TrestleId) (s : State) : (fenceTrestle t s).life = s.life := by simp [fenceTrestle]
@[simp] theorem reportTrestle_life (t : TrestleId) (s : State) : (reportTrestle t s).life = s.life := by simp [reportTrestle]

@[simp] theorem countTrestleMismatch_life (t : TrestleId) (s : State) : (countTrestleMismatch t s).life = s.life := by
  simp [countTrestleMismatch]

@[simp] theorem trestleMismatch_life (t : TrestleId) (i : Item) (s : State) : (trestleMismatch t i s).life = s.life := by
  simp [trestleMismatch]

@[simp] theorem bothMismatch_life (n : LoomId) (lane : Option (Fin 8)) (t : TrestleId) (i : Item) (s : State) :
    (bothMismatch n lane t i s).life = s.life := by
  simp [bothMismatch]

@[simp] theorem commitRun_life (i : Item) (kind family set : Nat) (policy : Word) (content : Bytes) (keyId : Nat) (building : Bool) (s : State) :
    (commitRun i kind family set policy content keyId building s).life = s.life := by
  unfold commitRun
  split <;> simp

@[simp] theorem commitAct_life (i : Item) (a : CommitAct) (s : State) : (commitAct i a s).life = s.life := by
  unfold commitAct
  (repeat' split) <;> simp [installLoom, touchLoom, installSelv, touchSelv]

@[simp] theorem countLookup_life (i : Item) (hit : Option Bool) (s : State) : (countLookup i hit s).life = s.life := by
  unfold countLookup
  split <;> simp

@[simp] theorem addAverage_life (i : Item) (cycles : Nat) (s : State) : (addAverage i cycles s).life = s.life := by
  unfold addAverage
  (repeat' split) <;> simp

@[simp] theorem passBuffer_life (i : Item) (s : State) : (passBuffer i s).life = s.life := by
  unfold passBuffer
  split <;> simp

@[simp] theorem commitItem_life (e : Engine) (cycles : Nat) (i : Item) (r : ItemResult) (s : State) :
    (commitItem e cycles i r s).life = s.life := by
  unfold commitItem
  split <;> simp

@[simp] theorem routineEnds_life (e : Engine) (s : State) : (routineEnds e s).life = s.life := by
  unfold routineEnds
  split <;> simp

@[simp] theorem commitLoom_life (n : LoomId) (cycles : Nat) (i : Item) (r : ItemResult) (s : State) :
    (commitLoom n cycles i r s).life = s.life := by
  unfold commitLoom
  (repeat' split) <;> simp

@[simp] theorem commitOther_life (e : Engine) (cycles : Nat) (i : Item) (r : ItemResult) (s : State) :
    (commitOther e cycles i r s).life = s.life := by
  unfold commitOther
  split
  · split <;> simp
  · simp
  · simp
  · simp

@[simp] theorem commitRoutine_life (n : LoomId) (cycles : Nat) (i : Item) (s : State) : (commitRoutine n cycles i s).life = s.life := by
  unfold commitRoutine
  (repeat' split) <;> simp

@[simp] theorem commitOn_life (e : Engine) (cycles : Nat) (s : State) : (commitOn e cycles s).life = s.life := by
  unfold commitOn
  (repeat' split) <;> simp

/-! ### Start-up -/

@[simp] theorem loadCal_life (s : State) : (loadCal s).life = s.life := by
  unfold loadCal
  split <;> simp [useCal, markBaselines]

@[simp] theorem deriveIdentity_life (s : State) : (deriveIdentity s).life = s.life := by simp [deriveIdentity]
@[simp] theorem readChest_life (s : State) : (readChest s).life = s.life := by simp [readChest]

@[simp] theorem recordCheck_life (src : Nat) (ownerPart : Bool) (f : CheckFail) (s : State) :
    (recordCheck src ownerPart f s).life = s.life := by
  simp [recordCheck]

@[simp] theorem loadDraft_life (src : Nat) (other_ re : Bool) (whole : Draft) (s : State) :
    (loadDraft src other_ re whole s).life = s.life := by
  simp [loadDraft, enterPlanUnits, newFamily, clampApplied]

@[simp] theorem draftRead_life (readOk : Bool) (src : Nat) (other re : Bool) (s : State) :
    (draftRead readOk src other re s).life = s.life := by
  unfold draftRead
  dsimp only
  split <;> simp

@[simp] theorem applyTestFences_life (re : Bool) (f : TestFences) (s : State) : (applyTestFences re f s).life = s.life := by
  simp [applyTestFences]

@[simp] theorem clearSticky_life (f : TestFences) (cabinet : Bool) (s : State) : (clearSticky f cabinet s).life = s.life := by
  simp [clearSticky]

@[simp] theorem clearAllDrawers_life (s : State) : (clearAllDrawers s).life = s.life := by
  unfold clearAllDrawers
  dsimp only
  rw [foldl_life _ _ fun s i => failItem_life _ i s]
  dsimp only
  split
  · rw [modInstance_life, draw_life]
  · rfl

@[simp] theorem endThreading_life (s : State) : (endThreading s).life = s.life := by simp [endThreading]

@[simp] theorem ownerStart_life (s : State) : (ownerStart s).life = s.life := by simp [ownerStart]
@[simp] theorem quorumFails_life (s : State) : (quorumFails s).life = s.life := by simp [quorumFails]

/-! ### Cards and ceremonies -/

@[simp] theorem powerSlots_life (s : State) : (powerSlots s).life = s.life := cards_life (powerSlots_keepsCards s)

@[simp] theorem sendTo_life (c : CardSlot) (op : BitVec 5) (arg : Nat) (s : State) : (sendTo c op arg s).life = s.life :=
  cards_life (sendTo_keepsCards _ _ _ s)

@[simp] theorem attachCard_life (c : CardSlot) (s : State) : (attachCard c s).life = s.life := cards_life (attachCard_keepsCards _ s)

@[simp] theorem readRun_life (c : CardSlot) (first n : Nat) (s : State) : (readRun c first n s).life = s.life :=
  cards_life (readRun_keepsCards _ _ _ s)

@[simp] theorem reachCard_life (c : CardSlot) (s : State) : (reachCard c s).life = s.life := by simp [reachCard, sendSwitch]
@[simp] theorem leaveCard_life (c : CardSlot) (s : State) : (leaveCard c s).life = s.life := cards_life (leaveCard_keepsCards _ s)

@[simp] theorem readCopy_life (c : CardSlot) (p : CardPlace) (b : Bool) (n : Nat) (s : State) : (readCopy c p b n s).life = s.life := by
  simp [readCopy]

@[simp] theorem readQuorum_life (s : State) : (readQuorum s).life = s.life := by simp [readQuorum]
@[simp] theorem lockSlot_life (c : CardSlot) (s : State) : (lockSlot c s).life = s.life := cards_life (lockSlot_keepsCards _ s)
@[simp] theorem noRoom_life (c : CardSlot) (s : State) : (noRoom c s).life = s.life := by simp [noRoom]

@[simp] theorem sendCopy_life (c : CardSlot) (first : Nat) (bytes : Bytes) (acks : List (BitVec 4)) (s : State) :
    (sendCopy c first bytes acks s).life = s.life := by
  simp [sendCopy, writeRun]

@[simp] theorem writeCard_life {α : Type} (c : CardSlot) (p : CardPlace) (new : Stored α) (payload : Bytes) (w : CardWrite)
    (f : CardState → CardState) (s : State) : (writeCard c p new payload w f s).1.life = s.life := by
  unfold writeCard
  split
  · rfl
  · split
    · simp
    · extract_lets n s₁
      split <;> simp [s₁]

@[simp] theorem failCeremony_life (err : Nat) (s : State) : (failCeremony err s).life = s.life := by simp [failCeremony]

@[simp] theorem commitCeremony_life (kind : Nat) (ork owner : Bytes) (seq : Word) (s : State) :
    (commitCeremony kind ork owner seq s).life = s.life := by
  simp [commitCeremony, newDeviceRoot]

@[simp] theorem endCeremony_life (s : State) : (endCeremony s).life = s.life := by simp [endCeremony]

@[simp] theorem finishCeremony_life (b : CeremonyBlock) (s : State) : (finishCeremony b s).life = s.life := by
  unfold finishCeremony
  split <;> simp

@[simp] theorem drawCeremony_life (b : CeremonyBlock) (s : State) : (drawCeremony b s).life = s.life := by
  unfold drawCeremony
  split <;> simp

@[simp] theorem runCeremony_life (b : CeremonyBlock) (s : State) : (runCeremony b s).life = s.life := by
  unfold runCeremony
  dsimp only
  split
  · simp
  · split <;> simp
  · split
    · split <;> simp
    · simp

@[simp] theorem continueCeremony_life (s : State) : (continueCeremony s).life = s.life := by
  unfold continueCeremony
  split <;> simp

/-! ### The bobbin -/

@[simp] theorem failWaiting_cycle (s : State) : (failWaiting s).life.cycle = s.life.cycle := by
  unfold failWaiting
  split
  · rfl
  · extract_lets s₁ s₂ s₃
    have h₁ : s₁.life = s.life := foldl_life _ s fun s i => failItem_life _ i s
    have h₂ : s₂.life = s₁.life := by
      refine foldl_life _ s₁ fun s p => ?_
      split
      · split <;> simp
      · rfl
    have h₃ : s₃.life = s₂.life := foldl_life _ s₂ fun _ _ => rfl
    rw [settleAfterLeave_life, cycle_challenges]
    exact congrArg LifeCycle.cycle (h₃.trans (h₂.trans h₁))

@[simp] theorem bobbinFails_cycle (s : State) : (bobbinFails s).life.cycle = s.life.cycle := by simp [bobbinFails]

@[simp] theorem takeSeed_life (s : State) : (takeSeed s).2.life = s.life := by
  unfold takeSeed
  split <;> simp [conditionBlock]

@[simp] theorem giveNonce_cycle (p : PortId) (seq : BitVec 16) (s : State) : (giveNonce p seq s).life.cycle = s.life.cycle := by simp [giveNonce]
@[simp] theorem releaseSeedWaits_cycle (s : State) : (releaseSeedWaits s).life.cycle = s.life.cycle := by
  unfold releaseSeedWaits
  extract_lets free port s₀ waits src s₁
  have h₁ : s₁.life.cycle = s.life.cycle := foldl_cycle waits _ fun s c => giveNonce_cycle c.2.1 c.2.2 s
  rw [continueCeremony_life, settleAfterLeave_life]
  exact h₁

/-! ### Life cycle, stages -/

@[simp] theorem onUsb_life (p : PortId) (act : State → State) (s : State) (h : ∀ t, (act t).life = t.life) :
    (onUsb p act s).life = s.life := by
  simp [onUsb, h]

@[simp] theorem wipeForExit_life (target : Nat) (s : State) : (wipeForExit target s).life = s.life := by simp [wipeForExit]

/-! ### The applied and the staged registers -/

@[simp] theorem aloneTo_life (t : Nat) (s : State) : (aloneTo t s).life = s.life := by simp [aloneTo]

@[simp] theorem markShareClamp_life (off : Nat) (v : Word) (s : State) (p : PortId) : (markShareClamp off v s p).life = s.life := by
  unfold markShareClamp
  split <;> simp

@[simp] theorem applyField_life (p : PortId) (s : State) (e : StagedField × Nat) : (applyField p s e).life = s.life := by
  unfold applyField
  split <;> simp

@[simp] theorem applyStage_life (t : Nat) (s : State) (p : PortId) : (applyStage t s p).life = s.life := by simp [applyStage]
@[simp] theorem applyDevice_life (t : Nat) (s : State) : (applyDevice t s).life = s.life := by simp [applyDevice, scaleWeights]

@[simp] theorem commitStage_life (p : PortId) (sum : BitVec 16) (s : State) : (commitStage p sum s).life = s.life := by
  simp [commitStage]

@[simp] theorem discardStage_life (p : PortId) (s : State) : (discardStage p s).life = s.life := by simp [discardStage]

/-! ### Slices and queues -/

@[simp] theorem adminCommand_life (p : PortId) (code : Nat) (act : AdminEntry → State → State) (s : State)
    (h : ∀ e t, (act e t).life = t.life) : (adminCommand p code act s).life = s.life := by
  unfold adminCommand
  split
  · rfl
  · simp [h]

@[simp] theorem adminDoneLen_life (p : PortId) (st : Status) (result len : Nat) (s : State) :
    (adminDoneLen p st result len s).life = s.life := by
  simp [adminDoneLen]

@[simp] theorem adminWait_life (p : PortId) (w : AdminWait) (s : State) : (adminWait p w s).life = s.life := by simp [adminWait]
@[simp] theorem refuseSlice_life (p : PortId) (code : Nat) (s : State) : (refuseSlice p code s).life = s.life := by simp [refuseSlice]
@[simp] theorem refuseQueue_life (p : PortId) (code : Nat) (s : State) : (refuseQueue p code s).life = s.life := by simp [refuseQueue]
@[simp] theorem refuseMove_life (p : PortId) (code : Nat) (s : State) : (refuseMove p code s).life = s.life := by simp [refuseMove]

@[simp] theorem createSliceAct_life (p : PortId) (e : AdminEntry) (s : State) : (createSliceAct p e s).life = s.life := by
  unfold createSliceAct
  split <;> simp

@[simp] theorem destroySliceAct_life (p : PortId) (e : AdminEntry) (s : State) : (destroySliceAct p e s).life = s.life := by
  unfold destroySliceAct
  split <;> simp

@[simp] theorem createQueueAct_life (p : PortId) (e : AdminEntry) (s : State) : (createQueueAct p e s).life = s.life := by
  unfold createQueueAct
  (repeat' split) <;> simp

@[simp] theorem removeQueue_life (p : PortId) (n : Nat) (s : State) : (removeQueue p n s).life = s.life := by simp [removeQueue]

@[simp] theorem destroyQueueAct_life (p : PortId) (e : AdminEntry) (s : State) : (destroyQueueAct p e s).life = s.life := by
  unfold destroyQueueAct
  dsimp only
  split
  · simp
  · split <;> simp

@[simp] theorem installQueue_life (p : PortId) (n : Nat) (s : State) : (installQueue p n s).life = s.life := by
  unfold installQueue
  (repeat' split) <;> simp

@[simp] theorem installPort_life (s : State) (p : PortId) : (installPort s p).life = s.life := by
  unfold installPort
  (repeat' split) <;> simp [installSlice, thawSlice]

/-! ### Owner commands -/

@[simp] theorem acceptEnvelope_life (p : PortId) (origin : OwnerOrigin) (e : Envelope) (op : OwnerOperand) (s : State) :
    (acceptEnvelope p origin e op s).life = s.life := by
  simp [acceptEnvelope]

@[simp] theorem takeEnvelope_life (p : PortId) (origin : OwnerOrigin) (e : Envelope) (refuse : Status → State → State) (s : State)
    (h : ∀ st t, (refuse st t).life = t.life) : (takeEnvelope p origin e refuse s).life = s.life := by
  unfold takeEnvelope
  split
  · exact h _ _
  · split
    · exact h _ _
    · split
      · simp
      · exact h _ _

@[simp] theorem entryEnvelope_life (p : PortId) (id : Nat) (env : Envelope) (s : State) : (entryEnvelope p id env s).life = s.life := by
  unfold entryEnvelope
  split <;> simp

@[simp] theorem signedAdmin_life (p : PortId) (seq : BitVec 16) (env : Envelope) (s : State) :
    (signedAdmin p seq env s).life = s.life := by
  have henvelope := takeEnvelope_life p (.usb p seq) env (fun st s => emit (.usb p 0x0010 seq st []) s) (h := fun _ _ => rfl) s
  simp [signedAdmin, henvelope]

@[simp] theorem releaseHold_life (s : State) : (releaseHold s).life = s.life := by
  unfold releaseHold
  split <;> simp

/-! ### Routines -/

@[simp] theorem reserveDeposit_life (i : Item) (drawers : Nat) (s : State) : (reserveDeposit i drawers s).life = s.life := by
  unfold reserveDeposit
  (repeat' split) <;> simp

@[simp] theorem routineCycle_life (n : LoomId) (i : Item) (s : State) : (routineCycle n i s).life = s.life := by
  unfold routineCycle
  dsimp only
  split
  · rw [routineEnds_life]
    split <;> simp
  · split <;> simp

@[simp] theorem loomCycles_life (k : Nat) (n : LoomId) (s : State) : (loomCycles k n s).life = s.life := by
  induction k generalizing s with
  | zero => rfl
  | succ k ih =>
    unfold loomCycles
    split
    · rfl
    · rw [ih, routineCycle_life]

@[simp] theorem runRoutines_life (t0 t1 : Nat) (s : State) : (runRoutines t0 t1 s).life = s.life :=
  foldl_life _ _ fun s n => loomCycles_life _ n s

@[simp] theorem passTo_life (t : Nat) (s : State) : (passTo t s).life = s.life := by simp [passTo, advanceTo]

/-! ### The host function -/

@[simp] theorem sendPending_life (p : PortId) (s : State) : (sendPending p s).life = s.life := by
  unfold sendPending
  dsimp only
  split <;> simp

@[simp] theorem resetFunction_life (p : PortId) (keep : Port → Port) (s : State) : (resetFunction p keep s).life = s.life := by
  simp [resetFunction]

/-! ### Mismatches and faults -/

@[simp] theorem duplicateMismatch_life (e : Engine) (s : State) : (duplicateMismatch e s).life = s.life := by
  unfold duplicateMismatch
  split <;> simp

@[simp] theorem verifyMismatch_life (n : LoomId) (found : VerifyFinding) (s : State) : (verifyMismatch n found s).life = s.life := by
  unfold verifyMismatch
  (repeat' split) <;> simp

@[simp] theorem correctable_life (src : Nat) (s : State) : (correctable src s).life = s.life := by
  simp [correctable, correctedEvent, raiseUnit]

@[simp] theorem benchFault_life (b : BenchId) (s : State) : (benchFault b s).life = s.life := by simp [benchFault]

@[simp] theorem loomFault_life (n : LoomId) (cacheOnly : Bool) (s : State) : (loomFault n cacheOnly s).life = s.life := by
  simp [loomFault]

@[simp] theorem trestleFault_life (t : TrestleId) (hit : Item → Bool) (s : State) : (trestleFault t hit s).life = s.life := by
  simp [trestleFault]

@[simp] theorem selvFault_life (u : SelvId) (keyStore : Bool) (s : State) : (selvFault u keyStore s).life = s.life := by
  simp [selvFault]

@[simp] theorem shuttleFault_life (p : PortId) (s : State) : (shuttleFault p s).life = s.life := by
  unfold shuttleFault
  dsimp only
  split
  · simp
  · split <;> simp

@[simp] theorem entryFault_life (id : Nat) (copyReadable : Bool) (s : State) : (entryFault id copyReadable s).life = s.life := by
  unfold entryFault
  split <;> simp [loseItem]

@[simp] theorem cabinetHold_life (s : State) : (cabinetHold s).life = s.life := by simp [cabinetHold]

@[simp] theorem drawerFault_life (p : PortId) (slice : SliceIdx) (index : Nat) (s : State) :
    (drawerFault p slice index s).life = s.life := by
  unfold drawerFault
  dsimp only
  split
  · simp
  · split <;> simp

@[simp] theorem chestFault_life (s : State) : (chestFault s).life = s.life := by simp [chestFault]
@[simp] theorem slotFault_life (d : DigestSlot) (s : State) : (slotFault d s).life = s.life := by simp [slotFault]

@[simp] theorem instanceFault_life (i : InstId) (drawing : Option Nat) (s : State) : (instanceFault i drawing s).life = s.life := by
  unfold instanceFault
  extract_lets s₁ s₂ s₃
  have h₃ : s₃.life = s.life := by
    unfold s₃
    split <;> simp [s₂, s₁]
  split
  · split <;> simp [h₃]
  · exact h₃

@[simp] theorem conditionerFault_cycle (s : State) : (conditionerFault s).life.cycle = s.life.cycle := by
  unfold conditionerFault
  dsimp only
  split <;> simp

@[simp] theorem fabricFault_life (load : FabricLoad) (s : State) : (fabricFault load s).life = s.life := by
  unfold fabricFault
  extract_lets s₁
  have h₁ : s₁.life = s.life := by simp [s₁]
  split
  · split
    · split <;> simp [h₁]
    · exact h₁
  · split <;> simp [h₁]
  · exact h₁

@[simp] theorem flashFault_life (s : State) : (flashFault s).life = s.life := by simp [flashFault]

/-! ### Ageing, power, tamper repeats -/

@[simp] theorem replanBench_life (b : BenchId) (c : BenchCal) (s : State) : (replanBench b c s).life = s.life := by
  simp [replanBench, clockStep]

@[simp] theorem ageingDone_life (b : BenchId) (slack tj : Int) (s : State) : (ageingDone b slack tj s).life = s.life := by
  unfold ageingDone
  dsimp only
  split
  · rfl
  · split
    · simp
    · split
      · simp
      · split <;> simp

@[simp] theorem replanIfOn_life (s : State) : (replanIfOn s).life = s.life := by simp [replanIfOn]
@[simp] theorem settleIfOn_life (s : State) : (settleIfOn s).life = s.life := by simp [settleIfOn]

@[simp] theorem replaceContract_life (p : PortId) (c : Contract) (s : State) : (replaceContract p c s).life = s.life := by
  simp [replaceContract]

@[simp] theorem portDetach_life (p : PortId) (linkOnly bulkLow : Bool) (s : State) :
    (portDetach p linkOnly bulkLow s).life = s.life := by
  simp [portDetach]

@[simp] theorem contractDrop_life (p : PortId) (volts current : Nat) (bulkLow : Bool) (s : State) :
    (contractDrop p volts current bulkLow s).life = s.life := by
  simp [contractDrop]

@[simp] theorem throttleOne_life (s : State) : (throttleOne s).life = s.life := by
  unfold throttleOne
  split <;> simp

@[simp] theorem latchRepeat_life (ev : Nat) (s : State) : (latchRepeat ev s).life = s.life := by simp [latchRepeat]

@[simp] theorem tamperRepeat_life (src : SourceId) (s : State) : (tamperRepeat src s).life = s.life := by
  unfold tamperRepeat
  dsimp only
  split
  · simp
  · split
    · simp
    · split <;> simp

@[simp] theorem alarmAtFall_life (before : State) (x : Firing × Nat) (s : State) : (alarmAtFall before x s).life = s.life := by
  simp [alarmAtFall]

/-! ### The beat -/

@[simp] theorem settleBudgets_life (s : State) : (settleBudgets s).life = s.life := by simp [settleBudgets]

@[simp] theorem returnUnits_life (s : State) : (returnUnits s).life = s.life := by
  unfold returnUnits
  split <;> simp [planRise]

@[simp] theorem readvertise_life (s : State) : (readvertise s).life = s.life := by simp [readvertise]

/-! ### Slices that move -/

@[simp] theorem freezeSlice_life (p : PortId) (i : SliceIdx) (s : State) : (freezeSlice p i s).life = s.life := by simp [freezeSlice]

@[simp] theorem freezeSliceAct_life (p : PortId) (e : AdminEntry) (s : State) : (freezeSliceAct p e s).life = s.life := by
  unfold freezeSliceAct
  (repeat' split) <;> simp

@[simp] theorem thawSliceAct_life (p : PortId) (e : AdminEntry) (s : State) : (thawSliceAct p e s).life = s.life := by
  unfold thawSliceAct
  (repeat' split) <;> simp

@[simp] theorem handOff_life (low : Nat) (s : State) (k : KeyRun × TallyRecord) : (handOff low s k).life = s.life := by
  unfold handOff
  split <;> simp

@[simp] theorem markNoRoom_life (p : PortId) (nonce : BitVec 128) (e : Entry) (s : State) : (markNoRoom p nonce e s).life = s.life := by
  unfold markNoRoom
  split <;> simp

@[simp] theorem saveToCards_life (p : PortId) (m : SliceImage) (writes : List CardWrite) (slots : List CardSlot) (s : State) :
    (saveToCards p m writes slots s).1.life = s.life := by
  refine foldl_life_of Prod.fst (fun r x => ?_) _ _
  dsimp only
  split <;> simp

@[simp] theorem saveSliceAct_life (p : PortId) (dest : IdentityRecord) (nonce : BitVec 128) (writes : List CardWrite) (e : AdminEntry) (s : State) :
    (saveSliceAct p dest nonce writes e s).life = s.life := by
  unfold saveSliceAct
  (repeat' split) <;> simp

@[simp] theorem logNonce_life (n : BitVec 128) (s : State) : (logNonce n s).life = s.life := by
  unfold logNonce
  dsimp only
  split <;> rfl

@[simp] theorem restoreTally_life (uid : BitVec 64) (accepted : Bool) (s : State) (t : ImageTally) :
    (restoreTally uid accepted s t).life = s.life := by
  unfold restoreTally
  split
  · rfl
  · dsimp only
    split <;> simp

@[simp] theorem restoreQueue_life (p : PortId) (i : SliceIdx) (s : State) (q : ImageQueue) : (restoreQueue p i s q).life = s.life := by
  unfold restoreQueue
  split <;> rfl

@[simp] theorem restoreAct_life (p : PortId) (i : SliceIdx) (e : Entry) (nonce : BitVec 128) (m : SliceBody) (s : State) :
    (restoreAct p i e nonce m s).life = s.life := by
  simp [restoreAct, setGens]

@[simp] theorem readNamed_life (s : State) (e : Entry) : (readNamed s e).life = s.life := by
  unfold readNamed
  (repeat' split) <;> simp

@[simp] theorem restoreSliceAct_life (p : PortId) (image : Option SliceImage) (e : AdminEntry) (s : State) :
    (restoreSliceAct p image e s).life = s.life := by
  unfold restoreSliceAct
  dsimp only
  split
  · simp
  · split
    · rfl
    · split
      · simp
      · split <;> simp

/-! ### Registers -/

@[simp] theorem writeQueSel_life (p : PortId) (w : Nat) (v : Word) (s : State) : (writeQueSel p w v s).life = s.life := by
  unfold writeQueSel
  split <;> simp

@[simp] theorem clearPowerEvents_life (v : Word) (s : State) : (clearPowerEvents v s).life = s.life := by simp [clearPowerEvents]

@[simp] theorem writeReg_life (p : PortId) (off : Nat) (v : Word) (s : State) : (writeReg p off v s).life = s.life := by
  unfold writeReg
  (repeat' split) <;> simp [writeStgBeat, writeStgStatus, writeAqBase, writeTotal, clearCardEvents]

end Sys2Proof.Machine
end

section
/-! PROOFS. The commands that leave the state and the running transition. -/

namespace Sys2Proof.Machine

open Sys2Proof.Claims

theorem life_of_next {s t u : State} (h : (.next u : Host.Outcome State Fault Refusal) = .next t) (hu : u.life = s.life) :
    t.life = s.life :=
  Host.Outcome.next.inj h ▸ hu

theorem execEventLog_life {s t : State} (h : execEventLog s = .next t) : t.life = s.life := by
  unfold execEventLog at h
  (repeat' split at h) <;> cases h <;> simp

theorem execLogRecordDurable_life {seq : Word} {s t : State} (h : execLogRecordDurable seq s = .next t) : t.life = s.life := by
  unfold execLogRecordDurable at h
  (repeat' split at h) <;> cases h <;> simp

theorem execLogRepeatFlush_life {seq : Word} {s t : State} (h : execLogRepeatFlush seq s = .next t) : t.life = s.life := by
  unfold execLogRepeatFlush at h
  (repeat' split at h) <;> cases h <;> simp

theorem execSecondsCheckpoint_life {s t : State} (h : execSecondsCheckpoint s = .next t) : t.life = s.life := by
  unfold execSecondsCheckpoint at h
  split at h <;> cases h <;> simp

theorem execBackupCellLoss_life {s t : State} (h : execBackupCellLoss s = .next t) : t.life = s.life := by
  dsimp only [execBackupCellLoss] at h
  split at h <;> cases h <;> simp

theorem execDoorbellWrite_life {p : PortId} {offset size : Nat} {value : Word} {s t : State}
    (h : execDoorbellWrite p offset size value s = .next t) : t.life = s.life := by
  cases h
  refine onWrite_life _ _ _ fun s => ?_
  split
  · split <;> simp
  · rfl

theorem execExpressDoorbell_life {p : PortId} {offset size : Nat} {s t : State}
    (h : execExpressDoorbell p offset size s = .next t) : t.life = s.life := by
  cases h
  refine onWrite_life _ _ _ fun s => ?_
  split
  · split
    · rfl
    · split <;> simp
  · rfl

theorem execAdminDoorbell_life {p : PortId} {s t : State} (h : execAdminDoorbell p s = .next t) : t.life = s.life := by cases h; simp

theorem execAdminQueueEnable_life {p : PortId} {value : Word} {s t : State}
    (h : execAdminQueueEnable p value s = .next t) : t.life = s.life := by cases h; simp

theorem execAdminQueueDisable_life {p : PortId} {s t : State} (h : execAdminQueueDisable p s = .next t) : t.life = s.life := by
  cases h
  simp

theorem execPollTick_life {p : PortId} {qnum : Nat} {s t : State} (h : execPollTick p qnum s = .next t) : t.life = s.life := by
  cases h
  split <;> simp

theorem execRingReadComplete_life {p : PortId} {qnum : Nat} {result : RingResult} {s t : State}
    (h : execRingReadComplete p qnum result s = .next t) : t.life = s.life := by
  cases h
  (repeat' split) <;> simp

theorem execSeedWaitTimeout_cycle {id : Nat} {s t : State} (h : execSeedWaitTimeout id s = .next t) : t.life.cycle = s.life.cycle := by
  cases h
  (repeat' split) <;> simp

theorem execCompletionWrite_life {id : Nat} {outcome : WriteBack} {s t : State}
    (h : execCompletionWrite id outcome s = .next t) : t.life = s.life := by cases h; simp

theorem execCoalesceTimeout_life {p : PortId} {qnum : Nat} {s t : State}
    (h : execCoalesceTimeout p qnum s = .next t) : t.life = s.life := by
  cases h
  split <;> simp

theorem execEngineAsk_life {e : Engine} {askingTrestles : List TrestleId} {s t : State}
    (h : execEngineAsk e askingTrestles s = .next t) : t.life = s.life := by cases h; simp

theorem execTrestleYieldAsk_life {ask : YieldAsk} {s t : State} (h : execTrestleYieldAsk ask s = .next t) : t.life = s.life := by
  cases h
  simp

theorem execLoomDim_life {n : LoomId} {s t : State} (h : execLoomDim n s = .next t) : t.life = s.life := by
  cases h
  split <;> simp

theorem execLoomRestore_life {n : LoomId} {s t : State} (h : execLoomRestore n s = .next t) : t.life = s.life := by
  cases h
  split <;> simp

theorem execTallyWriteDurable_life {record : Nat} {s t : State} (h : execTallyWriteDurable record s = .next t) : t.life = s.life := by
  cases h
  (repeat' split) <;> simp [releaseHeld, bornKey]

theorem execDigestCoreAsk_life {core : FarmCore} {s t : State} (h : execDigestCoreAsk core s = .next t) : t.life = s.life := by
  cases h
  split <;> simp

theorem execChestRemask_life {s t : State} (h : execChestRemask s = .next t) : t.life = s.life := by cases h; simp
theorem execDrawerRefresh_life {s t : State} (h : execDrawerRefresh s = .next t) : t.life = s.life := by cases h; simp

theorem execCommit_life {e : Engine} {cycles : Nat} {s t : State} (h : execCommit e cycles s = .next t) : t.life = s.life := by
  cases h
  simp

theorem execWatchdogExpiry_life {e : Engine} {s t : State} (h : execWatchdogExpiry e s = .next t) : t.life = s.life := by cases h; simp
theorem execRoutineError_life {e : Engine} {s t : State} (h : execRoutineError e s = .next t) : t.life = s.life := by cases h; simp

theorem execStewardFwVerified_life {slotAOk slotBOk : Bool} {damagedRecords : List Word} {s t : State}
    (h : execStewardFwVerified slotAOk slotBOk damagedRecords s = .next t) : t.life = s.life := by
  unfold execStewardFwVerified at h
  split at h <;> cases h <;> simp [commitLatch, commitLatchEntry, loadMirror, tallyScan, blankCheck]

theorem execDraftReadDone_life {readOk : Bool} {s t : State} (h : execDraftReadDone readOk s = .next t) : t.life = s.life := by
  unfold execDraftReadDone at h
  split at h
  · exact life_of_next h (by simp)
  · exact life_of_next h rfl

theorem execCeremonyShareWrite_life {c : CardSlot} {written : CardWrite} {s t : State}
    (h : execCeremonyShareWrite c written s = .next t) : t.life = s.life := by
  cases h
  split <;> simp

theorem execCeremonyTimeout_life {s t : State} (h : execCeremonyTimeout s = .next t) : t.life = s.life := by cases h; simp

theorem execChestRestore_life {s t : State} (h : execChestRestore s = .next t) : t.life = s.life := by
  cases h
  (repeat' split) <;> simp

theorem execRecoveryImageVerified_life {source : RecoverySource} {delivery : RecoveryDelivery} {s t : State}
    (h : execRecoveryImageVerified source delivery s = .next t) : t.life = s.life := by
  cases h
  (repeat' split) <;> simp [beginCeremony, copyToCards]

theorem execBobbinTestsEnd_cycle {failing : List (PairId × PairFault)} {knownAnswersOk : Bool} {s t : State}
    (h : execBobbinTestsEnd failing knownAnswersOk s = .next t) : t.life.cycle = s.life.cycle := by
  unfold execBobbinTestsEnd at h
  split at h
  · extract_lets b s₁ s₂ b₂ s₃ at h
    have h₂ : s₂.life = s.life := foldl_life _ s₁ fun s f => by simp [excludePair]
    have h₃ : s₃.life = s.life := by
      unfold s₃
      split <;> exact h₂
    split at h <;> cases h <;> simp [instantiateAll, h₃]
  · cases h
    rfl

theorem execBobbinSeeded_cycle {s t : State} (h : execBobbinSeeded s = .next t) : t.life.cycle = s.life.cycle := by
  cases h
  split
  · dsimp only
    split <;> simp [moveChest]
  · rfl

theorem execHealthFail_cycle {reason : BobbinFailure} {s t : State} (h : execHealthFail reason s = .next t) : t.life.cycle = s.life.cycle := by
  cases h
  cases reason <;> dsimp only <;> split <;> simp

theorem execReseedApplied_cycle {i : InstId} {s t : State} (h : execReseedApplied i s = .next t) : t.life.cycle = s.life.cycle := by
  unfold execReseedApplied at h
  split at h
  · split at h
    · cases h
      simp
    · split at h
      · extract_lets x s₁ pred left b d stretch s₂ s₃ s₄ at h
        have h₁ : s₁.life = s.life := by
          unfold s₁
          split <;> simp
        have h₂ : s₂.life = s.life := by simp [s₂, d, h₁]
        have h₃ : s₃.life = s.life := by
          unfold s₃
          split <;> simp [fillBuffers, h₂]
        have h₄ : s₄.life = s.life := by
          unfold s₄
          (repeat' split) <;> simp [h₃]
        clear_value s₄
        rw [← Host.Outcome.next.inj h]
        split <;> simp [h₄]
      · cases h
        rfl
  · cases h
    rfl

theorem execBobbinRestart_life {s t : State} (h : execBobbinRestart s = .next t) : t.life = s.life := by
  cases h
  (repeat' split) <;> simp [beginSequence]

theorem execPairRetestEnd_life {passed : List PairId} {s t : State} (h : execPairRetestEnd passed s = .next t) : t.life = s.life := by
  cases h
  simp

theorem execDebugChallenge_cycle {p : PortId} {seq : BitVec 16} {s t : State}
    (h : execDebugChallenge p seq s = .next t) : t.life.cycle = s.life.cycle := by
  cases h
  unfold onUsb debugChallenge
  (repeat' split) <;> simp

theorem execStageWrite_life {p : PortId} {offset : Nat} {value : Word} {s t : State}
    (h : execStageWrite p offset value s = .next t) : t.life = s.life := by
  cases h
  simp [stageWrite, stageField]

theorem execStageCommit_life {p : PortId} {sum : BitVec 16} {s t : State} (h : execStageCommit p sum s = .next t) : t.life = s.life := by
  cases h
  simp

theorem execStageDiscard_life {p : PortId} {atApplyingBeat : Bool} {s t : State}
    (h : execStageDiscard p atApplyingBeat s = .next t) : t.life = s.life := by cases h; simp

theorem execCreateSlice_life {p : PortId} {s t : State} (h : execCreateSlice p s = .next t) : t.life = s.life := by cases h; simp
theorem execDestroySlice_life {p : PortId} {s t : State} (h : execDestroySlice p s = .next t) : t.life = s.life := by cases h; simp
theorem execCreateQueue_life {p : PortId} {s t : State} (h : execCreateQueue p s = .next t) : t.life = s.life := by cases h; simp
theorem execDestroyQueue_life {p : PortId} {s t : State} (h : execDestroyQueue p s = .next t) : t.life = s.life := by cases h; simp

theorem execTraceEnable_life {p : PortId} {s t : State} (h : execTraceEnable p s = .next t) : t.life = s.life := by
  cases h
  simp [traceEnableAct]

theorem execTraceDisable_life {p : PortId} {s t : State} (h : execTraceDisable p s = .next t) : t.life = s.life := by
  cases h
  simp [traceDisableAct]

theorem execTraceConsumedWrite_life {p : PortId} {value : Word} {s t : State}
    (h : execTraceConsumedWrite p value s = .next t) : t.life = s.life := by cases h; simp

theorem execCalRead_life {p : PortId} {s t : State} (h : execCalRead p s = .next t) : t.life = s.life := by cases h; simp [calReadAct]

theorem execIdentityGet_life {p : PortId} {s t : State} (h : execIdentityGet p s = .next t) : t.life = s.life := by
  cases h
  simp [identityGetAct]

theorem execDeviceStage_life {s t : State} (h : execDeviceStage s = .next t) : t.life = s.life := by
  cases h
  split <;> simp [deviceWrite, deviceCommit]

theorem execDraftWrite_life {s t : State} (h : execDraftWrite s = .next t) : t.life = s.life := by
  cases h
  split <;> simp

theorem execDraftSelect_life {s t : State} (h : execDraftSelect s = .next t) : t.life = s.life := by
  cases h
  split <;> simp

theorem execRethread_life {s t : State} (h : execRethread s = .next t) : t.life = s.life := by
  cases h
  split <;> simp

theorem execRethreadDrainDone_life {s t : State} (h : execRethreadDrainDone s = .next t) : t.life = s.life := by
  cases h
  (repeat' split) <;> simp [beginRethread]

theorem execHold_life {s t : State} (h : execHold s = .next t) : t.life = s.life := by
  cases h
  split <;> simp

theorem execHoldRelease_life {s t : State} (h : execHoldRelease s = .next t) : t.life = s.life := by
  cases h
  split <;> simp

theorem execCalWrite_life {readBackOk : Bool} {s t : State} (h : execCalWrite readBackOk s = .next t) : t.life = s.life := by
  cases h
  split <;> simp

theorem execRecoveryLoad_life {p : PortId} {seq : BitVec 16} {part : Bytes} {s t : State}
    (h : execRecoveryLoad p seq part s = .next t) : t.life = s.life := by cases h; simp [recoveryLoad]

theorem execLogRead_life {path : LogPath} {s t : State} (h : execLogRead path s = .next t) : t.life = s.life := by
  cases h
  split <;> simp [logReadAct, usbLogRead]

theorem execLinkTrained_life {p : PortId} {gen : Nat} {singleLane : Bool} {s t : State}
    (h : execLinkTrained p gen singleLane s = .next t) : t.life = s.life := by cases h; simp

theorem execBusMasterDisable_life {p : PortId} {d3hot : Bool} {s t : State}
    (h : execBusMasterDisable p d3hot s = .next t) : t.life = s.life := by cases h; simp

theorem execBusMasterResume_life {p : PortId} {ats : Bool} {table : List MsixEntry} {s t : State}
    (h : execBusMasterResume p ats table s = .next t) : t.life = s.life := by cases h; simp [sendHeld]

theorem execMemorySpaceDisable_life {p : PortId} {s t : State} (h : execMemorySpaceDisable p s = .next t) : t.life = s.life := by
  cases h
  simp

theorem execPasidEnableChange_life {p : PortId} {enable : Bool} {s t : State}
    (h : execPasidEnableChange p enable s = .next t) : t.life = s.life := by cases h; simp

theorem execAtsEnableClear_life {p : PortId} {s t : State} (h : execAtsEnableClear p s = .next t) : t.life = s.life := by cases h; simp

theorem execFunctionLevelReset_life {p : PortId} {s t : State} (h : execFunctionLevelReset p s = .next t) : t.life = s.life := by
  cases h
  simp

theorem execFunctionLevelResetEnd_life {p : PortId} {s t : State} (h : execFunctionLevelResetEnd p s = .next t) : t.life = s.life := by
  cases h
  simp

theorem execAtsInvalidation_life {p : PortId} {pasid : Option (BitVec 20)} {globalInv : Bool} {first last : Nat} {s t : State}
    (h : execAtsInvalidation p pasid globalInv first last s = .next t) : t.life = s.life := by cases h; simp

theorem execDuplicateRoundMismatch_life {e : Engine} {s t : State} (h : execDuplicateRoundMismatch e s = .next t) : t.life = s.life := by
  cases h
  simp

theorem execTrestleSelfCheckMismatch_life {u : TrestleId} {s t : State}
    (h : execTrestleSelfCheckMismatch u s = .next t) : t.life = s.life := by
  cases h
  split <;> simp

theorem execVerifyMismatch_life {n : LoomId} {found : VerifyFinding} {s t : State}
    (h : execVerifyMismatch n found s = .next t) : t.life = s.life := by cases h; simp

theorem execCorrectableError_life {source : Fin 104} {s t : State} (h : execCorrectableError source s = .next t) : t.life = s.life := by
  cases h
  simp

theorem execAgeingMeasure_life {b : BenchId} {s t : State} (h : execAgeingMeasure b s = .next t) : t.life = s.life := by cases h; simp

theorem execAgeingMeasureDone_life {b : BenchId} {slack tj : Int} {s t : State}
    (h : execAgeingMeasureDone b slack tj s = .next t) : t.life = s.life := by cases h; simp

theorem execPortAttach_life {p : PortId} {offer : Offer} {s t : State} (h : execPortAttach p offer s = .next t) : t.life = s.life := by
  unfold execPortAttach at h
  split at h <;> cases h <;> simp

theorem execContractChange_life {p : PortId} {offer : Offer} {bulkLow : Bool} {s t : State}
    (h : execContractChange p offer bulkLow s = .next t) : t.life = s.life := by
  unfold execContractChange at h
  split at h <;> cases h <;> simp [capPath]

theorem execPortDetach_life {p : PortId} {linkOnly bulkLow : Bool} {s t : State}
    (h : execPortDetach p linkOnly bulkLow s = .next t) : t.life = s.life := by cases h; simp

theorem execContractDrop_life {p : PortId} {volts current : Nat} {bulkLow : Bool} {s t : State}
    (h : execContractDrop p volts current bulkLow s = .next t) : t.life = s.life := by cases h; simp

theorem execPathOvercurrent_life {p : PortId} {bulkLow : Bool} {s t : State}
    (h : execPathOvercurrent p bulkLow s = .next t) : t.life = s.life := by
  unfold execPathOvercurrent at h
  split at h <;> cases h <;> simp

theorem execPlanUpHoldExpiry_life {bulkLow : Bool} {s t : State} (h : execPlanUpHoldExpiry bulkLow s = .next t) : t.life = s.life := by
  unfold execPlanUpHoldExpiry at h
  (repeat' split at h) <;> cases h <;> simp

theorem execSourceCapabilitiesTimeout_life {p : PortId} {typeC : TypeC} {s t : State}
    (h : execSourceCapabilitiesTimeout p typeC s = .next t) : t.life = s.life := by
  unfold execSourceCapabilitiesTimeout at h
  split at h <;> cases h <;> simp

theorem execThermalSample_life {tj : Int} {s t : State} (h : execThermalSample tj s = .next t) : t.life = s.life := by
  unfold execThermalSample at h
  split at h <;> cases h <;> simp

theorem execThermalStep_life {bulkLow : Bool} {s t : State} (h : execThermalStep bulkLow s = .next t) : t.life = s.life := by
  unfold execThermalStep at h
  split at h
  · exact life_of_next h rfl
  · exact life_of_next h (by simp)

theorem execThermalClear_life {bulkLow : Bool} {s t : State} (h : execThermalClear bulkLow s = .next t) : t.life = s.life := by
  dsimp only [execThermalClear] at h
  split at h <;> cases h <;> simp

theorem execBenchGate_life {b : BenchId} {s t : State} (h : execBenchGate b s = .next t) : t.life = s.life := by
  dsimp only [execBenchGate] at h
  split at h <;> cases h <;> simp

theorem execBenchStart_life {b : BenchId} {s t : State} (h : execBenchStart b s = .next t) : t.life = s.life := by
  unfold execBenchStart at h
  extract_lets gated lower at h
  split at h <;> cases h <;> simp

theorem execTamperRepeat_life {src : SourceId} {s t : State} (h : execTamperRepeat src s = .next t) : t.life = s.life := by cases h; simp

theorem execSourceGoesInactive_life {src : SourceId} {s t : State} (h : execSourceGoesInactive src s = .next t) : t.life = s.life := by
  cases h
  simp

theorem execCellWindow_life {sources : List SourceId} {s t : State} (h : execCellWindow sources s = .next t) : t.life = s.life := by
  cases h
  simp [cellAlarm]

theorem execTamperStimulus_life {src : SourceId} {s t : State} (h : execTamperStimulus src s = .next t) : t.life = s.life := by
  cases h
  simp

theorem execTamperClear_life {s t : State} (h : execTamperClear s = .next t) : t.life = s.life := by
  cases h
  split <;> simp

theorem execFreezeSlice_life {p : PortId} {s t : State} (h : execFreezeSlice p s = .next t) : t.life = s.life := by cases h; simp

theorem execFreezeDrainDone_life {p : PortId} {s t : State} (h : execFreezeDrainDone p s = .next t) : t.life = s.life := by
  cases h
  (repeat' split) <;> simp

theorem execThawSlice_life {p : PortId} {s t : State} (h : execThawSlice p s = .next t) : t.life = s.life := by cases h; simp

theorem execSaveSlice_life {p : PortId} {destination : IdentityRecord} {nonce : BitVec 128} {writes : List CardWrite} {s t : State}
    (h : execSaveSlice p destination nonce writes s = .next t) : t.life = s.life := by cases h; simp

theorem execRestoreSlice_life {p : PortId} {image : Option SliceImage} {s t : State}
    (h : execRestoreSlice p image s = .next t) : t.life = s.life := by cases h; simp

theorem execRegisterWrite_life {p : PortId} {offset size : Nat} {value : Word} {s t : State}
    (h : execRegisterWrite p offset size value s = .next t) : t.life = s.life := by
  cases h
  simp

theorem execPwrEventsClear_life {p : PortId} {value : Word} {s t : State}
    (h : execPwrEventsClear p value s = .next t) : t.life = s.life := by cases h; simp

theorem execGetStatus_life {p : PortId} {request : UsbRequest} {s t : State}
    (h : execGetStatus p request s = .next t) : t.life = s.life := by cases h; simp [getStatus]

theorem execReadBlock_life {p : PortId} {seq : BitVec 16} {offset length : Nat} {s t : State}
    (h : execReadBlock p seq offset length s = .next t) : t.life = s.life := by cases h; simp


end Sys2Proof.Machine
end

section
/-! PROOFS. The life-cycle counter stays legal (R524, R525, R528, R529), function by function. -/

namespace Sys2Proof.Machine

open Sys2Proof.Claims

/-! ### Steps that keep the counter legal -/

/-- The step leads from a legal counter to a legal counter. -/
def LegalKept (s t : State) : Prop := CounterLegal s → CounterLegal t

namespace LegalKept

variable {s t u : State}

theorem refl (s : State) : LegalKept s s := id

theorem trans (h : LegalKept s t) (k : LegalKept t u) : LegalKept s u := k ∘ h

/-- The step leaves the burned bits, the state and the running transition. -/
theorem same_otp (hotp : t.fuses.otp = s.fuses.otp) (hcycle : t.life.cycle = s.life.cycle) : LegalKept s t := by
  obtain ⟨hstate, htransition⟩ : t.life.state = s.life.state ∧ t.life.transition = s.life.transition := by
    simpa [LifeCycle.cycle] using hcycle
  rintro ⟨hgroup, hcode, htarget⟩
  exact ⟨hotp ▸ hgroup, hstate ▸ hcode, htransition ▸ htarget⟩

theorem same (hfuses : t.fuses = s.fuses) (hcycle : t.life.cycle = s.life.cycle) : LegalKept s t :=
  .same_otp (congrArg Fuses.otp hfuses) hcycle

theorem same_life (hfuses : t.fuses = s.fuses) (hlife : t.life = s.life) : LegalKept s t :=
  .same hfuses (congrArg LifeCycle.cycle hlife)

/-- The step starts from a state with the same fuses, life-cycle state and transition. -/
theorem after (h : LegalKept t u) (hfuses : t.fuses = s.fuses) (hlife : t.life = s.life) : LegalKept s u :=
  (same_life hfuses hlife).trans h

theorem ite {c : Prop} [Decidable c] (ht : LegalKept s t) (hu : LegalKept s u) : LegalKept s (if c then t else u) := by
  split
  · exact ht
  · exact hu

theorem of_next (h : (.next u : Host.Outcome State Fault Refusal) = .next t) (hu : LegalKept s u) : LegalKept s t :=
  Host.Outcome.next.inj h ▸ hu

/-- A list of steps that each keep the counter legal. -/
theorem foldl {α : Type} {f : State → α → State} (h : ∀ s x, LegalKept s (f s x)) (l : List α) (s : State) :
    LegalKept s (l.foldl f s) := by
  induction l generalizing s with
  | nil => exact refl s
  | cons x l ih => exact (h s x).trans (ih _)

end LegalKept

/-! ### The burns (R524, R525, R529) -/

theorem ofNat_two_pow_low {i : Nat} (h : i < 20) : (BitVec.ofNat 24 (2 ^ i)) >>> 20 = 0 := by
  have hlt : 2 ^ i < 2 ^ 20 := Nat.pow_lt_pow_right (by decide) h
  apply BitVec.eq_of_toNat_eq
  rw [BitVec.toNat_ushiftRight, BitVec.toNat_ofNat, Nat.shiftRight_eq_div_pow, Nat.mod_eq_of_lt (by omega), Nat.div_eq_of_lt hlt]
  rfl

theorem or_low {a b : BitVec 24} (ha : a >>> 20 = 0) (hb : b >>> 20 = 0) : (a ||| b) >>> 20 = 0 := by
  rw [BitVec.ushiftRight_or_distrib, ha, hb]
  rfl

/-- A mask of bits of groups 0 to 4 has none of group 5. -/
theorem maskOf_low {bits : List Nat} (h : ∀ i ∈ bits, i < 20) : (maskOf 24 bits) >>> 20 = 0 := by
  refine List.foldlRecOn (motive := fun m : BitVec 24 => m >>> 20 = 0) bits _ rfl fun m hm i hi => ?_
  rw [setBit, if_pos rfl]
  exact or_low hm (ofNat_two_pow_low (h i hi))

theorem readCounter_low {otp : BitVec 24} (h : otp >>> 20 = 0) : (readCounter otp).1 >>> 20 = 0 := by
  rcases readCounter_burns otp with heq | ⟨k, hk, heq⟩ <;> rw [heq]
  · exact h
  · refine or_low h ?_
    interval_cases k <;> rfl

theorem burnTo_legal {target : Nat} (ht : target ≤ 5) (s : State) : LegalKept s (burnTo target s) := by
  rintro ⟨hgroup, -, htarget⟩
  refine ⟨or_low hgroup (maskOf_low fun i hi => ?_), ht, htarget⟩
  have := List.mem_range.mp (List.mem_filter.mp hi).1
  omega

/-- A transition that ends or is cut short leaves the counter legal, with what it burned of the groups up to its target. -/
theorem counterLegal_of_burned {s u : State} {m : BitVec 24} (h : CounterLegal s) (hm : m >>> 20 = 0)
    (hotp : u.fuses.otp = s.fuses.otp ||| m) (hcycle : u.life.cycle = (s.life.state, none)) : CounterLegal u := by
  obtain ⟨hgroup, hcode, -⟩ := h
  obtain ⟨hstate, htransition⟩ : u.life.state = s.life.state ∧ u.life.transition = none := by simpa [LifeCycle.cycle] using hcycle
  exact ⟨hotp ▸ or_low hgroup hm, hstate ▸ hcode, fun t ht => nomatch htransition.symm.trans ht⟩

theorem cutTransition_legal (st : Status) (s : State) : LegalKept s (cutTransition st s) := by
  intro h
  unfold cutTransition
  split
  · exact h
  · next t htransition =>
    have htarget : t.target ≤ 5 := h.2.2 t htransition
    extract_lets f k bits burned s₁ fuses life s₂
    have h₂ : CounterLegal s₂ := by
      refine counterLegal_of_burned h (m := burned) (maskOf_low fun i hi => ?_) rfl rfl
      have := of_decide_eq_true (List.mem_filter.mp hi).2
      omega
    split
    · exact LegalKept.same_life (emit_fuses ..) (emit_life ..) h₂
    · split
      · split
        · exact LegalKept.same_life (ownerDone_fuses ..) (ownerDone_life ..) h₂
        · exact h₂
      · exact h₂

/-- What a cut of the power leaves of the burn under way. -/
theorem tornBurn_low {s : State} (h : CounterLegal s) : (tornBurn s).1 >>> 20 = 0 := by
  obtain ⟨hgroup, hcode, htarget⟩ := h
  unfold tornBurn
  split
  · exact hgroup
  · next t htransition =>
    have ht := htarget t htransition
    refine or_low hgroup (maskOf_low fun i hi => ?_)
    obtain ⟨j, hj, rfl⟩ := List.mem_map.mp hi
    have hjk := Nat.lt_of_lt_of_le (List.mem_range.mp hj) (Nat.le_of_lt_succ (Nat.mod_lt _ (Nat.succ_pos _)))
    omega

theorem powerDown_legal (s : State) : LegalKept s (powerDown s) := by
  intro h
  have hlost : ∀ u : State, u.fuses.otp = (tornBurn s).1 → u.life = {} → CounterLegal u := fun u hotp hlife =>
    ⟨hotp ▸ tornBurn_low h, by simp [hlife], by simp [hlife]⟩
  unfold powerDown
  dsimp only
  split
  · exact hlost _ rfl rfl
  · exact hlost _ (by simp) (by simp [State.reset])

theorem beginTransition_legal {target : Nat} (ht : target ≤ 5) (byToken : Option (PortId × BitVec 16)) (s : State) :
    LegalKept s (beginTransition target byToken s) := by
  rintro ⟨hgroup, hcode, -⟩
  unfold beginTransition
  extract_lets s₁
  have hfuses : s₁.fuses = s.fuses := by unfold s₁; split <;> simp
  have hlife : s₁.life = s.life := by unfold s₁; split <;> simp
  refine ⟨?_, ?_, ?_⟩
  · simpa [hfuses] using hgroup
  · rw [raise_life]
    exact (congrArg LifeCycle.state hlife).trans_le hcode
  · simpa [hlife] using ht

/-! ### Firings, and the steward's end -/

theorem zeroizeResponse_legal (s : State) : LegalKept s (zeroizeResponse s) := by
  have hcut : LegalKept s (cutTransition .keyPolicy (zeroizeLine s)) :=
    .trans (.same_life (zeroizeLine_fuses s) (zeroizeLine_life s)) (cutTransition_legal _ _)
  unfold zeroizeResponse
  split
  · exact .refl _
  · refine hcut.trans ?_
    dsimp only
    split <;> exact .same_life (by simp) (by simp)

theorem applyClass_legal (cls : Nat) (fs : List (SourceId × FenceScope)) (s : State) : LegalKept s (applyClass cls fs s) := by
  unfold applyClass
  split
  · exact .refl _
  · exact .same_life (by simp) (by simp)
  · exact .same_life (by simp) (by simp)
  · exact zeroizeResponse_legal s

theorem fireAll_legal (cls : SourceId → Nat) (code : Nat) (fs : List Firing) (s : State) : LegalKept s (fireAll cls code fs s) := by
  unfold fireAll
  extract_lets live s' top
  exact .trans (.same_life (by simp [s']) (by simp [s'])) (applyClass_legal _ _ s')

theorem fireRaised_legal (before s : State) : LegalKept s (fireRaised before s) := by
  unfold fireRaised
  dsimp only
  split
  · exact .refl _
  · exact fireAll_legal _ _ _ s

theorem evaluate_legal (fs : List Firing) (s : State) : LegalKept s (evaluate fs s) := by
  unfold evaluate
  extract_lets live held now tamper s₁
  split
  · exact .same_life rfl rfl
  · split
    · exact .same_life (by simp [s₁]) (by simp [s₁])
    · exact .after (fireAll_legal _ _ _ s₁) rfl rfl

theorem wardenTakeover_legal (trigger : Nat) (s : State) : LegalKept s (wardenTakeover trigger s) := by
  unfold wardenTakeover
  split
  · exact .refl _
  · extract_lets power mode faults s₁ s₂
    have h₂ : LegalKept s s₂ := by
      refine .trans (.same ?_ ?_) (cutTransition_legal _ _)
      · simp [s₁]
      · simp [s₁]
    refine h₂.trans ?_
    split
    · exact .same_life (by simp) (by simp)
    · exact .same_life (by simp) (by simp)
    · split <;> exact .same_life (by simp) (by simp)
    · exact .same_life (by simp) (by simp)
    · exact .same_life (by simp) (by simp)
    · exact .refl _

theorem takeover_after_report_legal (trigger src : Nat) (s : State) : LegalKept s (wardenTakeover trigger (report src true s)) :=
  .trans (.same_life (by simp) (by simp)) (wardenTakeover_legal trigger _)

theorem uncorrectable_legal (r : UeReport) (s : State) : LegalKept s (uncorrectable r s) := by
  cases r
  case stewardSram => exact takeover_after_report_legal 3 100 s
  case faultCollector => exact takeover_after_report_legal 4 103 s
  all_goals exact .same (by simp [uncorrectable]) (by simp [uncorrectable])

theorem errorAct_legal (ms : List Trigger) (r : UeReport) (s : State) : LegalKept s (errorAct ms r s) := by
  unfold errorAct
  split
  · exact takeover_after_report_legal _ 100 s
  · exact takeover_after_report_legal _ 103 s
  · exact uncorrectable_legal r s

/-! ### Power, start-up, the life cycle -/

theorem powerUp_legal (s : State) : LegalKept s (powerUp s) := by
  rintro ⟨hgroup, -, -⟩
  unfold powerUp
  extract_lets ch valid slots initial flash backup s₁ power s₂ s₃
  have h₃ : CounterLegal s₃ := by
    have h₂ : CounterLegal s₂ := ⟨hgroup, by simp [s₂, s₁, initial, State.reset], by simp [s₂, s₁, initial, State.reset]⟩
    unfold s₃
    split
    · exact h₂
    · exact LegalKept.same_life (raise0_fuses _ s₂) (raise0_life _ s₂) h₂
  split
  · exact evaluate_legal _ s₃ h₃
  · exact h₃

theorem readLifeCycle_legal (s : State) : LegalKept s (readLifeCycle s) := by
  rintro ⟨hgroup, -, htarget⟩
  unfold readLifeCycle
  extract_lets r st fuses life s₁ mode s₂
  have h₁ : CounterLegal s₁ := ⟨readCounter_low hgroup, stateCount_le r.1, htarget⟩
  have h₂ : CounterLegal s₂ := by
    unfold s₂
    split <;> exact h₁
  split
  · exact evaluate_legal _ s₂ h₂
  · exact h₂

theorem endTransition_legal {t : Transition} (ht : t.target ≤ 5) (s : State) : LegalKept s (endTransition t s) := by
  intro h
  unfold endTransition
  extract_lets life s₁ s₂
  have h₁ : CounterLegal s₁ := burnTo_legal ht _ ⟨h.1, h.2.1, fun _ h => nomatch h⟩
  have h₂ : CounterLegal s₂ := by
    unfold s₂
    split
    · exact h₁
    · exact LegalKept.same_life (wipeForExit_fuses ..) (wipeForExit_life ..) h₁
  split
  · exact LegalKept.same_life (emit_fuses ..) (emit_life ..) h₂
  · exact LegalKept.same_life (ownerDone_fuses ..) (ownerDone_life ..) h₂

theorem selfTest_legal (r : SelfTest) (clear re : Bool) (s : State) : LegalKept s (selfTest r clear re s) := by
  unfold selfTest
  extract_lets still f cabinet failing draft s₁ kinds tamper faults s₂ s₃ s₄ s₅
  have h₁ : s₁.fuses = s.fuses ∧ s₁.life = s.life := by
    unfold s₁
    split <;> exact ⟨rfl, rfl⟩
  have h₃ : s₃.fuses = s₂.fuses ∧ s₃.life = s₂.life := by
    unfold s₃
    split <;> simp
  have h₅ : s₅.fuses = s.fuses ∧ s₅.life = s.life := by
    unfold s₅
    split <;> simp [s₄, h₃, s₂, h₁]
  have hkept : LegalKept s s₅ := .same_life h₅.1 h₅.2
  split
  · exact hkept.trans (wardenTakeover_legal 6 s₅)
  · split <;> exact hkept.trans (.same_life (by simp) (by simp))

theorem flowTransition_legal {target : Nat} (ht : target ≤ 5) (from_ : Nat) (ok : Bool) (s : State) :
    LegalKept s (flowTransition from_ target ok s) := by
  unfold flowTransition
  split
  · exact burnTo_legal ht s
  · exact .refl _

/-! ### Stimulus windows and decision pairs -/

theorem stimulusFails_legal (src : SourceId) (s : State) : LegalKept s (stimulusFails src s) := by
  unfold stimulusFails
  exact .after (fireAll_legal _ _ _ _) rfl rfl

theorem endWindow_legal (src : SourceId) (responded stillActive : Bool) (s : State) : LegalKept s (endWindow src responded stillActive s) := by
  unfold endWindow
  extract_lets real before tamper s₁ tamper₁ s₂ tamper₂ s₃
  have h₁ : LegalKept s s₁ := .same_life rfl rfl
  have h₂ : LegalKept s₁ s₂ := by
    unfold s₂
    split
    · exact .same_life rfl rfl
    · exact stimulusFails_legal src s₁
  have h₃ : LegalKept s₂ s₃ := by
    unfold s₃
    split
    · exact .after (evaluate_legal _ _) rfl rfl
    · exact .refl _
  exact (h₁.trans h₂).trans (h₃.trans (.same_life rfl rfl))

theorem settled_legal {s t : State} (h : LegalKept s t) : LegalKept s (settleAfterLeave t) :=
  h.trans (.same_life (settleAfterLeave_fuses t) (settleAfterLeave_life t))

theorem windowEnds_legal (src : SourceId) (responded stillActive : Bool) (s : State) :
    LegalKept s (windowEnds src responded stillActive s) := by
  unfold windowEnds
  split
  · exact .refl _
  · split
    · exact .same_life rfl rfl
    · exact settled_legal (endWindow_legal src responded stillActive s)

theorem endPair_legal (pair : Nat) (qualifying : List SourceId) (s : State) : LegalKept s (endPair pair qualifying s) := by
  unfold endPair
  split
  · exact .refl _
  · split
    · exact .refl _
    · refine settled_legal ?_
      unfold secondDecision
      exact .after (fireAll_legal _ _ _ _) rfl rfl

/-! ### Triggers that meet, and the beat -/

theorem lockstepAct_legal (trigger : Nat) (s : State) : LegalKept s (lockstepAct trigger s) := by
  unfold lockstepAct
  split
  · exact .refl _
  · exact settled_legal (takeover_after_report_legal trigger 100 s)

theorem heartbeatAct_legal (s : State) : LegalKept s (heartbeatAct s) := settled_legal (wardenTakeover_legal 2 s)

theorem fallMeeting_legal (ms : List Trigger) (s : State) : LegalKept s (fallMeeting ms s) := by
  unfold fallMeeting
  extract_lets power d t
  have ht : LegalKept s t := (powerDown_legal s).trans (.same_life (by simp [t, d]) (by simp [t, d]))
  split
  · exact ht
  · exact ht.trans (.same_life rfl rfl)

theorem senseAll_legal (fs : List Firing) (s : State) : LegalKept s (senseAll fs s) := by
  unfold senseAll
  split
  · exact .refl _
  · dsimp only
    split <;> exact .after (evaluate_legal _ _) rfl rfl

theorem triggerAct_legal (ms : List Trigger) (m : Trigger) (s : State) : LegalKept s (triggerAct ms m s) := by
  cases m with
  | powerFail =>
    simp only [triggerAct]
    split
    · exact .refl _
    · exact fallMeeting_legal ms s
  | secondDecision pair qualifying => exact endPair_legal pair qualifying s
  | windowEnd src responded stillActive => exact windowEnds_legal src responded stillActive s
  | lockstep => exact lockstepAct_legal _ s
  | heartbeat => exact heartbeatAct_legal s
  | ue r =>
    simp only [triggerAct]
    split
    · exact .refl _
    · exact errorAct_legal ms r s
  | _ => exact .same_life (by simp [triggerAct]) (by simp [triggerAct])

theorem resolveTriggers_legal (ms : List Trigger) (s : State) : LegalKept s (resolveTriggers ms s) := by
  refine LegalKept.foldl (fun s l => ?_) _ s
  refine .trans ?_ (.foldl (fun s m => triggerAct_legal ms m s) l _)
  dsimp only
  split
  · exact .refl _
  · exact senseAll_legal _ s

theorem beatAt_legal (t : Nat) (s : State) : LegalKept s (beatAt t s) := by
  have hraised := fireRaised_legal (settleBudgets ((fins 4).foldl installPort s))
    (applyDevice t (settleBudgets ((fins 4).foldl installPort s)))
  unfold beatAt
  refine .trans (.after hraised (by simp) (by simp)) (.same_life (by simp) (by simp))

/-! ### The steward's queue -/

theorem enterTestRoot_legal (s : State) : LegalKept s (enterTestRoot s) := by
  refine .same ?_ (by simp [enterTestRoot_life])
  unfold enterTestRoot
  dsimp only
  split <;> simp

theorem debugResponse_legal (p : PortId) (seq : BitVec 16) (token : Token) (s : State) : LegalKept s (debugResponse p seq token s) := by
  unfold debugResponse
  split
  · exact .same (by simp) (by simp)
  · extract_lets r stood s₁ l s₂
    have h₁ : s₁.fuses = s.fuses ∧ s₁.life = s.life := by
      unfold s₁
      split <;> simp
    have h₂ : LegalKept s s₂ := .same (by simp [s₂, h₁]) (by simp [s₂, l, h₁])
    refine h₂.trans ?_
    clear_value s₂
    split
    · exact .same_life rfl rfl
    · split
      · split <;> exact .same_life (by simp) (by simp)
      · split
        · exact .same_life rfl rfl
        · split
          · split
            · exact .same_life rfl rfl
            · exact .trans (settled_legal (enterTestRoot_legal s₂)) (.same_life (emit_fuses ..) (emit_life ..))
          · exact beginTransition_legal (by decide) _ _

theorem takeWork_legal (p : PortId) (seq : BitVec 16) (w : StewardWork) (s : State) : LegalKept s (takeWork p seq w s) := by
  cases w with
  | envelope e => exact .same_life (signedAdmin_fuses ..) (signedAdmin_life ..)
  | token t => exact debugResponse_legal p seq t s
  | entry id e => exact .same_life (entryEnvelope_fuses ..) (entryEnvelope_life ..)

theorem takeWaiting_legal (s : State) : LegalKept s (takeWaiting s) := by
  unfold takeWaiting
  split
  · exact .refl _
  · split
    · exact .refl _
    · exact .after (takeWork_legal _ _ _ _) rfl rfl

theorem arriveWork_legal (p : PortId) (seq : BitVec 16) (w : StewardWork) (s : State) : LegalKept s (arriveWork p seq w s) := by
  unfold arriveWork
  split
  · exact .after (takeWaiting_legal _) rfl rfl
  · exact takeWork_legal p seq w s

theorem onUsb_legal (p : PortId) {act : State → State} (h : ∀ t, LegalKept t (act t)) (s : State) : LegalKept s (onUsb p act s) := by
  unfold onUsb
  split
  · exact h s
  · exact .refl _

/-! ### A cycle -/

theorem reachBeat_legal (t : Nat) (meets : List Trigger) (s : State) : LegalKept s (reachBeat t meets s) := by
  unfold reachBeat
  extract_lets s₁
  have h₁ : LegalKept s s₁ := settled_legal (resolveTriggers_legal meets s)
  split
  · exact h₁
  · exact h₁.trans (beatAt_legal t s₁)

theorem nextBeat_legal (meets : List Trigger) (s : State) : LegalKept s (nextBeat meets s) :=
  .after ((reachBeat_legal _ meets (passTo (nextBoundary s) s)).trans (takeWaiting_legal _)) (passTo_fuses ..) (passTo_life ..)

theorem meetAll_legal (ms : List Trigger) (s : State) : LegalKept s (meetAll ms s) := by
  unfold meetAll
  split
  · exact nextBeat_legal ms s
  · exact settled_legal (resolveTriggers_legal ms s)

theorem tick_legal (s : State) : LegalKept s (tick s) := by
  unfold tick
  split
  · exact .same_life (aloneTo_fuses ..) (aloneTo_life ..)
  · extract_lets t s₁
    refine .after (.trans ?_ (takeWaiting_legal _)) (passTo_fuses t s) (passTo_life t s)
    split
    · exact reachBeat_legal t [] _
    · exact .refl _

end Sys2Proof.Machine
end

section
/-! PROOFS. The life-cycle counter stays legal, command by command. -/

namespace Sys2Proof.Machine

open Sys2Proof.Claims

/-! ### Commands that may burn, and those of the steward -/

theorem execPowerGood_legal {s t : State} (h : execPowerGood s = .next t) : LegalKept s t := by
  unfold execPowerGood at h
  split at h
  · exact .of_next h (powerUp_legal s)
  · exact .of_next h (.refl _)

theorem execPowerFail_legal {s t : State} (h : execPowerFail s = .next t) : LegalKept s t := by
  unfold execPowerFail at h
  split at h
  · exact .of_next h (.refl _)
  · exact .of_next h (powerDown_legal s)

theorem execStrapSample_legal {pins : Straps} {s t : State} (h : execStrapSample pins s = .next t) : LegalKept s t := by
  unfold execStrapSample at h
  split at h
  · exact .of_next h (.refl _)
  · exact .of_next h (.after (readLifeCycle_legal _) (readChest_fuses s) (readChest_life s))

theorem execSelfTestDone_legal {r : SelfTest} {s t : State} (h : execSelfTestDone r s = .next t) : LegalKept s t := by
  unfold execSelfTestDone at h
  split at h
  · exact .of_next h (settled_legal (selfTest_legal r _ _ s))
  · exact .of_next h (.refl _)

theorem execBeat_legal {s t : State} (h : execBeat s = .next t) : LegalKept s t := by
  unfold execBeat at h
  split at h
  · exact .of_next h (.refl _)
  · exact .of_next h (nextBeat_legal [] s)

theorem execUncorrectableError_legal {x : UeEvent} {s t : State} (h : execUncorrectableError x s = .next t) : LegalKept s t := by
  unfold execUncorrectableError at h
  split at h
  · exact .of_next h (.refl _)
  · exact .of_next h (meetAll_legal _ s)

theorem execTamperFire_legal {x : FireEvent} {s t : State} (h : execTamperFire x s = .next t) : LegalKept s t := by
  unfold execTamperFire at h
  split at h
  · exact .of_next h (.refl _)
  · exact .of_next h (meetAll_legal _ s)

theorem execFabricParityError_legal {receiver : UeReport} {source : Fin 104} {repeatFails : Bool} {s t : State}
    (h : execFabricParityError receiver source repeatFails s = .next t) : LegalKept s t := by
  refine .of_next h ?_
  split
  · exact .refl _
  · split
    · exact settled_legal (uncorrectable_legal receiver s)
    · exact .same_life (correctable_fuses _ s) (correctable_life _ s)

theorem fuseSource_legal (src : SourceId) (s : State) : LegalKept s (fuseSource src s) := .same_otp rfl rfl

theorem ownerDone_legal (st : Status) {s u : State} (h : LegalKept s u) : LegalKept s (ownerDone st u) :=
  h.trans (.same_life (ownerDone_fuses st u) (ownerDone_life st u))

theorem readQuorum_legal (s : State) : LegalKept s (readQuorum s) := .same_life (readQuorum_fuses s) (readQuorum_life s)

theorem quorumFails_legal (s : State) : LegalKept s (quorumFails (readQuorum s)) :=
  .same_life (by simp) (by simp)

theorem execTamperFuse_legal {s t : State} (h : execTamperFuse s = .next t) : LegalKept s t := by
  refine .of_next h ?_
  split
  · split
    · dsimp only
      split
      · exact ownerDone_legal _ (.refl s)
      · split
        · exact ownerDone_legal _ (quorumFails_legal s)
        · refine ownerDone_legal _ ((readQuorum_legal s).trans ?_)
          split
          · exact .refl _
          · exact fuseSource_legal _ _
    · exact ownerDone_legal _ (.refl s)
  · exact .refl _

theorem execLcTransitionDone_legal {s t : State} (h : execLcTransitionDone s = .next t) : LegalKept s t := by
  refine .of_next h fun hs => ?_
  split
  · next tr htransition => exact settled_legal (endTransition_legal (hs.2.2 tr htransition) s) hs
  · exact hs

/-- LC_ADVANCE begins a transition to Deployed, Analysis or Scrapped alone (R528). -/
theorem execLcAdvance_legal {s t : State} (h : execLcAdvance s = .next t) : LegalKept s t := by
  refine .of_next h ?_
  split
  · next b _ =>
    extract_lets target fits
    split
    · exact ownerDone_legal _ (.refl s)
    · next hfits =>
      have htarget : target ≤ 5 := by
        have : fits = true := by simp_all
        simp only [fits, Bool.and_eq_true, decide_eq_true_eq] at this
        exact this.1.1.2
      split
      · exact ownerDone_legal _ (quorumFails_legal s)
      · exact .after (beginTransition_legal htarget none _) (by simp) (by simp)
  · exact .refl _

theorem execSignedAdmin_legal {p : PortId} {seq : BitVec 16} {envelope : Envelope} {s t : State}
    (h : execSignedAdmin p seq envelope s = .next t) : LegalKept s t :=
  .of_next h (onUsb_legal p (arriveWork_legal p seq _) s)

theorem execDebugResponse_legal {p : PortId} {seq : BitVec 16} {token : Token} {s t : State}
    (h : execDebugResponse p seq token s = .next t) : LegalKept s t :=
  .of_next h (onUsb_legal p (arriveWork_legal p seq _) s)

theorem adminCommand_legal (p : PortId) (code : Nat) {act : AdminEntry → State → State} (h : ∀ e t, LegalKept t (act e t)) (s : State) :
    LegalKept s (adminCommand p code act s) := by
  have hdone : ∀ st, LegalKept s (adminDone p st 0 [] s) := fun st => .same_life (adminDone_fuses ..) (adminDone_life ..)
  have hbar : LegalKept s (barAdmin p code s) := .same_life (barAdmin_fuses ..) (barAdmin_life ..)
  unfold adminCommand
  split
  · exact .refl s
  · next e _ =>
    exact .ite (.refl s) (.ite hbar (.ite (hdone _) (.ite (hdone _) (.ite (hdone _) (.ite (.refl s)
      (.ite (hdone _) (.ite (.refl s) (h e s))))))))

theorem execOwnerSigned_legal {p : PortId} {envelope : Envelope} {s t : State}
    (h : execOwnerSigned p envelope s = .next t) : LegalKept s t :=
  .of_next h (adminCommand_legal p 0x80 (fun _ s =>
    .after (arriveWork_legal p 0 _ _) (adminWait_fuses p .owner s) (adminWait_life p .owner s)) s)

theorem closedPortActivity_legal (s : State) : LegalKept s (closedPortActivity s) := by
  unfold closedPortActivity
  split
  · exact .refl _
  · exact settled_legal (evaluate_legal _ s)

theorem openPortAccess_legal {a : DebugAccess} {s t : State} (h : openPortAccess a s = .next t) : LegalKept s t := by
  cases a with
  | pinActivity => exact .of_next h (.refl _)
  | injectCorrectable src => exact .of_next h (.same_life (correctable_fuses _ s) (correctable_life _ s))
  | injectUncorrectable r => exact .of_next h (settled_legal (uncorrectable_legal r s))
  | readRegister off => exact .of_next h (.same_life rfl rfl)
  | memoryTest =>
    simp only [openPortAccess] at h
    split at h
    · exact .of_next h (.refl _)
    · cases h
  | toFactoryTest => exact .of_next h (flowTransition_legal (by decide) 0 _ s)
  | toProvisioned => exact .of_next h (flowTransition_legal (by decide) 1 _ s)
  | toScrapped => exact .of_next h (flowTransition_legal (by decide) 4 _ s)

theorem execDebugPortAccess_legal {a : DebugAccess} {s t : State} (h : execDebugPortAccess a s = .next t) : LegalKept s t := by
  unfold execDebugPortAccess at h
  split at h
  · exact openPortAccess_legal h
  · exact .of_next h (closedPortActivity_legal s)

/-- A command that is neither an operation nor one of a card slot, a digest slot or the bobbin. -/
theorem otherCommand_legal {c : Instr} {s t : State} (hop : isOperation c = false) (hcard : isCardCommand c = false)
    (hslot : isSlotCommand c = false) (hbobbin : isBobbinCommand c = false) (h : exec c s = .next t) : LegalKept s t := by
  cases c <;> cases hop <;> cases hcard <;> cases hslot <;> cases hbobbin
  case powerGood => exact execPowerGood_legal h
  case powerFail => exact execPowerFail_legal h
  case strapSample => exact execStrapSample_legal h
  case selfTestDone => exact execSelfTestDone_legal h
  case beat => exact execBeat_legal h
  case uncorrectableError => exact execUncorrectableError_legal h
  case fabricParityError => exact execFabricParityError_legal h
  case lockstepMismatch => exact .of_next h (lockstepAct_legal 1 s)
  case heartbeatTimeout => exact .of_next h (heartbeatAct_legal s)
  case tamperFire => exact execTamperFire_legal h
  case tamperFuse => exact execTamperFuse_legal h
  case twiceDecidedSecond pair qualifying => exact .of_next h (endPair_legal pair qualifying s)
  case stimulusWindowEnd src responded stillActive => exact .of_next h (windowEnds_legal src responded stillActive s)
  case lcTransitionDone => exact execLcTransitionDone_legal h
  case debugPortAccess => exact execDebugPortAccess_legal h
  case eventLog => exact .same_life (execEventLog_fuses h) (execEventLog_life h)
  case logRecordDurable => exact .same_life (execLogRecordDurable_fuses h) (execLogRecordDurable_life h)
  case logRepeatFlush => exact .same_life (execLogRepeatFlush_fuses h) (execLogRepeatFlush_life h)
  case secondsCheckpoint => exact .same_life (execSecondsCheckpoint_fuses h) (execSecondsCheckpoint_life h)
  case backupCellLoss => exact .same_life (execBackupCellLoss_fuses h) (execBackupCellLoss_life h)
  case doorbellWrite => exact .same_life (execDoorbellWrite_fuses h) (execDoorbellWrite_life h)
  case expressDoorbell => exact .same_life (execExpressDoorbell_fuses h) (execExpressDoorbell_life h)
  case adminDoorbell => exact .same_life (execAdminDoorbell_fuses h) (execAdminDoorbell_life h)
  case adminQueueEnable => exact .same_life (execAdminQueueEnable_fuses h) (execAdminQueueEnable_life h)
  case adminQueueDisable => exact .same_life (execAdminQueueDisable_fuses h) (execAdminQueueDisable_life h)
  case pollTick => exact .same_life (execPollTick_fuses h) (execPollTick_life h)
  case ringReadComplete => exact .same_life (execRingReadComplete_fuses h) (execRingReadComplete_life h)
  case seedWaitTimeout => exact .same (execSeedWaitTimeout_fuses h) (execSeedWaitTimeout_cycle h)
  case completionWrite => exact .same_life (execCompletionWrite_fuses h) (execCompletionWrite_life h)
  case coalesceTimeout => exact .same_life (execCoalesceTimeout_fuses h) (execCoalesceTimeout_life h)
  case engineAsk => exact .same_life (execEngineAsk_fuses h) (execEngineAsk_life h)
  case trestleYieldAsk => exact .same_life (execTrestleYieldAsk_fuses h) (execTrestleYieldAsk_life h)
  case loomDim => exact .same_life (execLoomDim_fuses h) (execLoomDim_life h)
  case loomRestore => exact .same_life (execLoomRestore_fuses h) (execLoomRestore_life h)
  case tallyWriteDurable => exact .same_life (execTallyWriteDurable_fuses h) (execTallyWriteDurable_life h)
  case digestCoreAsk => exact .same_life (execDigestCoreAsk_fuses h) (execDigestCoreAsk_life h)
  case chestRemask => exact .same_life (execChestRemask_fuses h) (execChestRemask_life h)
  case drawerRefresh => exact .same_life (execDrawerRefresh_fuses h) (execDrawerRefresh_life h)
  case commit => exact .same_life (execCommit_fuses h) (execCommit_life h)
  case watchdogExpiry => exact .same_life (execWatchdogExpiry_fuses h) (execWatchdogExpiry_life h)
  case routineError => exact .same_life (execRoutineError_fuses h) (execRoutineError_life h)
  case stewardFwVerified => exact .same_life (execStewardFwVerified_fuses h) (execStewardFwVerified_life h)
  case draftReadDone => exact .same_life (execDraftReadDone_fuses h) (execDraftReadDone_life h)
  case ceremonyShareWrite => exact .same_life (execCeremonyShareWrite_fuses h) (execCeremonyShareWrite_life h)
  case ceremonyTimeout => exact .same_life (execCeremonyTimeout_fuses h) (execCeremonyTimeout_life h)
  case chestRestore => exact .same_life (execChestRestore_fuses h) (execChestRestore_life h)
  case recoveryImageVerified => exact .same_life (execRecoveryImageVerified_fuses h) (execRecoveryImageVerified_life h)
  case bobbinTestsEnd => exact .same (execBobbinTestsEnd_fuses h) (execBobbinTestsEnd_cycle h)
  case bobbinSeeded => exact .same (execBobbinSeeded_fuses h) (execBobbinSeeded_cycle h)
  case healthFail => exact .same (execHealthFail_fuses h) (execHealthFail_cycle h)
  case reseedApplied => exact .same (execReseedApplied_fuses h) (execReseedApplied_cycle h)
  case bobbinRestart => exact .same_life (execBobbinRestart_fuses h) (execBobbinRestart_life h)
  case pairRetestEnd => exact .same_life (execPairRetestEnd_fuses h) (execPairRetestEnd_life h)
  case lcAdvance => exact execLcAdvance_legal h
  case debugChallenge => exact .same (execDebugChallenge_fuses h) (execDebugChallenge_cycle h)
  case stageWrite => exact .same_life (execStageWrite_fuses h) (execStageWrite_life h)
  case stageCommit => exact .same_life (execStageCommit_fuses h) (execStageCommit_life h)
  case stageDiscard => exact .same_life (execStageDiscard_fuses h) (execStageDiscard_life h)
  case createSlice => exact .same_life (execCreateSlice_fuses h) (execCreateSlice_life h)
  case destroySlice => exact .same_life (execDestroySlice_fuses h) (execDestroySlice_life h)
  case createQueue => exact .same_life (execCreateQueue_fuses h) (execCreateQueue_life h)
  case destroyQueue => exact .same_life (execDestroyQueue_fuses h) (execDestroyQueue_life h)
  case traceEnable => exact .same_life (execTraceEnable_fuses h) (execTraceEnable_life h)
  case traceDisable => exact .same_life (execTraceDisable_fuses h) (execTraceDisable_life h)
  case traceConsumedWrite => exact .same_life (execTraceConsumedWrite_fuses h) (execTraceConsumedWrite_life h)
  case calRead => exact .same_life (execCalRead_fuses h) (execCalRead_life h)
  case identityGet => exact .same_life (execIdentityGet_fuses h) (execIdentityGet_life h)
  case ownerSigned => exact execOwnerSigned_legal h
  case signedAdmin => exact execSignedAdmin_legal h
  case debugResponse => exact execDebugResponse_legal h
  case deviceStage => exact .same_life (execDeviceStage_fuses h) (execDeviceStage_life h)
  case draftWrite => exact .same_life (execDraftWrite_fuses h) (execDraftWrite_life h)
  case draftSelect => exact .same_life (execDraftSelect_fuses h) (execDraftSelect_life h)
  case rethread => exact .same_life (execRethread_fuses h) (execRethread_life h)
  case rethreadDrainDone => exact .same_life (execRethreadDrainDone_fuses h) (execRethreadDrainDone_life h)
  case hold => exact .same_life (execHold_fuses h) (execHold_life h)
  case holdRelease => exact .same_life (execHoldRelease_fuses h) (execHoldRelease_life h)
  case calWrite => exact .same_life (execCalWrite_fuses h) (execCalWrite_life h)
  case recoveryLoad => exact .same_life (execRecoveryLoad_fuses h) (execRecoveryLoad_life h)
  case logRead => exact .same_life (execLogRead_fuses h) (execLogRead_life h)
  case linkTrained => exact .same_life (execLinkTrained_fuses h) (execLinkTrained_life h)
  case busMasterDisable => exact .same_life (execBusMasterDisable_fuses h) (execBusMasterDisable_life h)
  case busMasterResume => exact .same_life (execBusMasterResume_fuses h) (execBusMasterResume_life h)
  case memorySpaceDisable => exact .same_life (execMemorySpaceDisable_fuses h) (execMemorySpaceDisable_life h)
  case pasidEnableChange => exact .same_life (execPasidEnableChange_fuses h) (execPasidEnableChange_life h)
  case atsEnableClear => exact .same_life (execAtsEnableClear_fuses h) (execAtsEnableClear_life h)
  case functionLevelReset => exact .same_life (execFunctionLevelReset_fuses h) (execFunctionLevelReset_life h)
  case functionLevelResetEnd => exact .same_life (execFunctionLevelResetEnd_fuses h) (execFunctionLevelResetEnd_life h)
  case atsInvalidation => exact .same_life (execAtsInvalidation_fuses h) (execAtsInvalidation_life h)
  case duplicateRoundMismatch => exact .same_life (execDuplicateRoundMismatch_fuses h) (execDuplicateRoundMismatch_life h)
  case trestleSelfCheckMismatch => exact .same_life (execTrestleSelfCheckMismatch_fuses h) (execTrestleSelfCheckMismatch_life h)
  case verifyMismatch => exact .same_life (execVerifyMismatch_fuses h) (execVerifyMismatch_life h)
  case correctableError => exact .same_life (execCorrectableError_fuses h) (execCorrectableError_life h)
  case ageingMeasure => exact .same_life (execAgeingMeasure_fuses h) (execAgeingMeasure_life h)
  case ageingMeasureDone => exact .same_life (execAgeingMeasureDone_fuses h) (execAgeingMeasureDone_life h)
  case portAttach => exact .same_life (execPortAttach_fuses h) (execPortAttach_life h)
  case contractChange => exact .same_life (execContractChange_fuses h) (execContractChange_life h)
  case portDetach => exact .same_life (execPortDetach_fuses h) (execPortDetach_life h)
  case contractDrop => exact .same_life (execContractDrop_fuses h) (execContractDrop_life h)
  case pathOvercurrent => exact .same_life (execPathOvercurrent_fuses h) (execPathOvercurrent_life h)
  case planUpHoldExpiry => exact .same_life (execPlanUpHoldExpiry_fuses h) (execPlanUpHoldExpiry_life h)
  case sourceCapabilitiesTimeout => exact .same_life (execSourceCapabilitiesTimeout_fuses h) (execSourceCapabilitiesTimeout_life h)
  case thermalSample => exact .same_life (execThermalSample_fuses h) (execThermalSample_life h)
  case thermalStep => exact .same_life (execThermalStep_fuses h) (execThermalStep_life h)
  case thermalClear => exact .same_life (execThermalClear_fuses h) (execThermalClear_life h)
  case benchGate => exact .same_life (execBenchGate_fuses h) (execBenchGate_life h)
  case benchStart => exact .same_life (execBenchStart_fuses h) (execBenchStart_life h)
  case tamperRepeat => exact .same_life (execTamperRepeat_fuses h) (execTamperRepeat_life h)
  case sourceGoesInactive => exact .same_life (execSourceGoesInactive_fuses h) (execSourceGoesInactive_life h)
  case cellWindow => exact .same_life (execCellWindow_fuses h) (execCellWindow_life h)
  case tamperStimulus => exact .same_life (execTamperStimulus_fuses h) (execTamperStimulus_life h)
  case tamperClear => exact .same_life (execTamperClear_fuses h) (execTamperClear_life h)
  case freezeSlice => exact .same_life (execFreezeSlice_fuses h) (execFreezeSlice_life h)
  case freezeDrainDone => exact .same_life (execFreezeDrainDone_fuses h) (execFreezeDrainDone_life h)
  case thawSlice => exact .same_life (execThawSlice_fuses h) (execThawSlice_life h)
  case saveSlice => exact .same_life (execSaveSlice_fuses h) (execSaveSlice_life h)
  case restoreSlice => exact .same_life (execRestoreSlice_fuses h) (execRestoreSlice_life h)
  case registerWrite => exact .same_life (execRegisterWrite_fuses h) (execRegisterWrite_life h)
  case pwrEventsClear => exact .same_life (execPwrEventsClear_fuses h) (execPwrEventsClear_life h)
  case getStatus => exact .same_life (execGetStatus_fuses h) (execGetStatus_life h)
  case readBlock => exact .same_life (execReadBlock_fuses h) (execReadBlock_life h)

theorem operationEffect_life {s t : State} (h : OperationEffect s t) : t.life = s.life := by
  obtain ⟨u, ht, hu⟩ := h
  cases ht with
  | inl ht => rw [ht, operation_life hu]
  | inr ht => rw [ht, settleAfterLeave_life, operation_life hu]

theorem exec_legal {c : Instr} {s t : State} (h : exec c s = .next t) : LegalKept s t := by
  cases hop : isOperation c
  · cases hcard : isCardCommand c
    · cases hslot : isSlotCommand c
      · cases hbobbin : isBobbinCommand c
        · exact otherCommand_legal hop hcard hslot hbobbin h
        · exact .same_life (bobbin_fuses (bobbinCommand_keepsBobbin hbobbin h)) (bobbin_life (bobbinCommand_keepsBobbin hbobbin h))
      · exact .same_life (slots_fuses (slotCommand_keepsSlots hslot h)) (slots_life (slotCommand_keepsSlots hslot h))
    · exact .same_life (cards_fuses (cardCommand_keepsCards hcard h)) (cards_life (cardCommand_keepsCards hcard h))
  · exact .same_life (operationEffect_fuses (operation_effect hop h)) (operationEffect_life (operation_effect hop h))

/-- What is burned stays burned while a cycle passes on an empty queue. -/
theorem tick_grows (s : State) : FusesGrow s.fuses (tick s).fuses := by
  unfold tick
  split
  · exact .of_eq (aloneTo_fuses ..)
  · extract_lets t s₁
    have h₁ : s₁.fuses = s.fuses := passTo_fuses t s
    rw [takeWaiting_fuses]
    split
    · exact .after (reachBeat_grows t [] s₁) h₁
    · exact .of_eq h₁

/-- Settles O60: every command and every cycle burns bits of groups 0 to 4 alone and leads to a state, and a target, that the table
names; what is burned stays burned by `exec_grows`. -/
theorem counterKept : Obligations.counter_kept := by
  intro s t hs h
  unfold step at h
  split at h
  · cases h
    exact ⟨tick_legal s hs, (tick_grows s).otp⟩
  · next rest _ => exact ⟨exec_legal (s := { s with pending := rest }) h hs, (exec_grows (s := { s with pending := rest }) h).otp⟩

end Sys2Proof.Machine
end

section
/-! PROOFS. The ageing monitor (R501, R502, R505): what a measurement's start, its end and one turn of the loop do to the bench. -/

namespace Sys2Proof.Machine

open Sys2Proof.Claims

theorem work_benches {s t : State} (h : Frame.work.Keeps s t) : t.benches = s.benches := by
  rw [h]
  rfl

@[simp] theorem degrade_benches (cause : Nat) (s : State) : (degrade cause s).benches = s.benches := by
  unfold degrade
  split <;> rfl

@[simp] theorem restartWhere_benches (code : Nat) (fault : Bool) (sel : Engine → Bool) (s : State) :
    (restartWhere code fault sel s).benches = s.benches :=
  work_benches (restartWhere_keepsWork code fault sel s)

@[simp] theorem settleAfterLeave_benches (s : State) : (settleAfterLeave s).benches = s.benches :=
  work_benches (settling_work (settleAfterLeave_keepsSettling s))

@[simp] theorem fenceUnits_benches (fault : Bool) (benches : BitVec 16) (looms : List LoomId) (trestles : BitVec 8) (selvs : BitVec 4)
    (s : State) : (fenceUnits fault benches looms trestles selvs s).benches = s.benches := by
  unfold fenceUnits
  extract_lets sel faults s₁ s₂ s₃
  have h₂ : s₂.benches = s.benches := by
    refine List.foldlRecOn (motive := fun t : State => t.benches = s.benches) looms _ rfl fun t ht n _ => ?_
    rw [modLoom_benches, ht]
  split <;> simp [s₃, h₂]

theorem clockStep_loss (b : BenchId) (s : State) : (clockStep b s).benches[b.val].loss = s.benches[b.val].loss := by
  unfold clockStep
  dsimp only
  split <;> simp

/-! ### One turn of the loop (R502) -/

section

variable {b : BenchId} {c : BenchCal} {s : State}

theorem replanBench_within (h : s.benches[b.val].loss ≤ 100 * (c.lossMax : Int)) :
    replanBench b c s = modBench b (fun x => { x with needsMeasure := false }) s := if_pos h

/-- The turn keeps the loss that it goes by. -/
theorem replanBench_loss : (replanBench b c s).benches[b.val].loss = s.benches[b.val].loss := by
  unfold replanBench
  dsimp only
  split
  · simp
  · split
    · simp
    · split
      · simpa using clockStep_loss b s
      · simp

theorem replanBench_trims (hloss : 100 * (c.lossMax : Int) < s.benches[b.val].loss) (htrim : s.benches[b.val].trim < 8) :
    (replanBench b c s).benches[b.val] = { s.benches[b.val] with trim := s.benches[b.val].trim + 1, measuring := true } ∧
      (replanBench b c s).faults = s.faults := by
  unfold replanBench
  dsimp only
  rw [if_neg (by omega), if_pos htrim]
  simp

end

/-! ### A measurement -/

theorem execAgeingMeasure_starts {s : State} {b : BenchId} (h : measurable s b = true) :
    ∃ t, execAgeingMeasure b s = .next t ∧ t.benches[b.val] = { s.benches[b.val] with measuring := true } ∧
      t = { s with benches := t.benches, cal := t.cal } := by
  unfold execAgeingMeasure
  rw [if_pos h]
  exact ⟨_, rfl, modBench_at .., rfl⟩

section

variable {s : State} {b : BenchId} {slack tj : Int}

theorem ageingDone_noBaseline (h : measurable s b = true) (hm : s.benches[b.val].measuring = true) (hb : s.benches[b.val].noBaseline = true) :
    ageingDone b slack tj s = modBench b (fun x => { x with needsMeasure := false }) (modBench b (fun x => { x with measuring := false }) s) := by
  unfold ageingDone
  have hm' : measurable (modBench b (fun x => { x with measuring := false }) s) b = true := h
  simp [hm, hb, hm']

/-- The bench's measurement is taken off, and its loss stored (R501). -/
def lossStored (b : BenchId) (c : BenchCal) (slack tj : Int) (s : State) : State :=
  modBench b (fun x => { x with loss := lossOf c slack tj }) (modBench b (fun x => { x with measuring := false }) s)

theorem lossStored_bench (c : BenchCal) :
    (lossStored b c slack tj s).benches[b.val] = { s.benches[b.val] with measuring := false, loss := lossOf c slack tj } := by
  simp [lossStored]

theorem ageingDone_baseline {c : BenchCal} (h : measurable s b = true) (hm : s.benches[b.val].measuring = true)
    (hb : s.benches[b.val].noBaseline = false) (hc : s.cal.benches[b.val]? = some c) :
    ageingDone b slack tj s = settleAfterLeave (replanBench b c (lossStored b c slack tj s)) := by
  unfold ageingDone lossStored
  have hm' : measurable (modBench b (fun x => { x with measuring := false }) s) b = true := h
  simp [hm, hb, hm', hc]

end

/-- Settles O40, by the loss that a measurement stores and by one turn of R502's loop over it. -/
theorem ageingCompletes : Obligations.ageing_completes := by
  intro s b slack tj c h
  refine ⟨execAgeingMeasure_starts h, fun hm _ _ _ _ => ⟨fun hb => ?_, fun hb hc => ?_⟩⟩
  · refine ⟨_, rfl, ?_⟩
    rw [ageingDone_noBaseline h hm hb]
    exact ⟨rfl, by simp, by simp⟩
  · have hbench := lossStored_bench (s := s) (b := b) (slack := slack) (tj := tj) c
    have hfaults : (lossStored b c slack tj s).faults = s.faults := rfl
    refine ⟨_, rfl, ?_⟩
    rw [ageingDone_baseline h hm hb hc, settleAfterLeave_benches, (settleAfterLeave_faults _).1, replanBench_loss, hbench]
    refine ⟨rfl, fun hin => ?_, fun hout htrim => ?_⟩
    · rw [replanBench_within (by rw [hbench]; exact hin), modBench_at, hbench]
      exact ⟨rfl, rfl, rfl, rfl, rfl⟩
    · obtain ⟨hafter, hkept⟩ := replanBench_trims (b := b) (c := c) (s := lossStored b c slack tj s)
        (by rw [hbench]; exact hout) (by rw [hbench]; exact htrim)
      rw [hafter, hkept, hbench, hfaults]
      exact ⟨rfl, rfl, rfl⟩

end Sys2Proof.Machine
end

section
/-! PROOFS. The owner's TAMPER_CLEAR, TAMPER_FUSE and CAL_WRITE (R479, R483, R509). -/

namespace Sys2Proof.Machine

open Sys2Proof.Claims

/-! ### What reading the quorum leaves -/

theorem cards_owner {s t : State} (h : Frame.cards.Keeps s t) :
    t.owner = s.owner ∧ t.ports = s.ports ∧ t.tamper = s.tamper ∧ t.fuses = s.fuses ∧ t.life = s.life ∧ t.slices = s.slices ∧
      t.backup.sticky = s.backup.sticky := by
  rw [h]
  exact ⟨rfl, rfl, rfl, rfl, rfl, rfl, rfl⟩

theorem quorumFails_keepsCards (s : State) : Frame.cards.Keeps s (quorumFails (readQuorum s)) :=
  (readQuorum_keepsCards s).trans (raise_keepsCards _ _ _)

/-- A command refused for its quorum answers KEY_POLICY; the cards were read, and nothing of the owner's moved. -/
theorem quorumRefusal (s : State) :
    OwnerEnds s (ownerDone .keyPolicy (quorumFails (readQuorum s))) .keyPolicy ∧
      (ownerDone .keyPolicy (quorumFails (readQuorum s))).backup.sticky = s.backup.sticky ∧
      (ownerDone .keyPolicy (quorumFails (readQuorum s))).fuses = s.fuses ∧
      (ownerDone .keyPolicy (quorumFails (readQuorum s))).life = s.life := by
  obtain ⟨howner, hports, -, hfuses, hlife, -, hsticky⟩ := cards_owner (quorumFails_keepsCards s)
  obtain ⟨-, hlife', -, -, -, -, -, -, hbackup, -, hfuses', -⟩ := ownerDone_units .keyPolicy (quorumFails (readQuorum s))
  exact ⟨ownerDone_ends_of _ howner hports, by rw [hbackup, hsticky], by rw [hfuses', hfuses], by rw [hlife', hlife]⟩

theorem ownerReady_owner {s : State} {op : OwnerOperand} (h : ownerReady s = some op) : ∃ o, s.owner = some o := by
  cases ho : s.owner with
  | some o => exact ⟨o, rfl⟩
  | none => simp [ownerReady, ho] at h

/-! ### TAMPER_CLEAR -/

/-- A flag of a source whose class is HALT or ZEROIZE is named. -/
def guardedFlags (m : Word) (s : State) : Bool := (flagsNamed m).any fun i => decide (2 ≤ classOf s i)

theorem guardedFlags_iff {m : Word} {s : State} : guardedFlags m s = true ↔ ∃ i : SourceId, m.getLsbD i.val = true ∧ 2 ≤ classOf s i := by
  simp [guardedFlags, flagsNamed, List.any_eq_true, mem_fins]

theorem execTamperClear_clears {s : State} {m : Word} {o : OwnerCommand} (ho : s.owner = some o) (h : ownerReady s = some (.tamperClear m))
    (hq : guardedFlags m s = true → quorumStands s = true) :
    ∃ u, execTamperClear s = .next (ownerDone .ok { u with backup := { u.backup with
        sticky := s.backup.sticky &&& ~~~(m.setWidth 24 &&& o.clears) } }) ∧ Frame.cards.Keeps s u := by
  have hpass : (guardedFlags m s && !quorumStands s) = false := by
    cases hg : guardedFlags m s
    · rfl
    · simp [hq hg]
  have hkeep : Frame.cards.Keeps s (if guardedFlags m s then readQuorum s else s) := by
    split
    · exact readQuorum_keepsCards s
    · exact .refl s
  obtain ⟨-, -, -, -, -, -, hsticky⟩ := cards_owner hkeep
  refine ⟨_, ?_, hkeep⟩
  rw [← hsticky]
  unfold execTamperClear
  simp only [ho, h]
  exact congrArg Host.Outcome.next (if_neg (by simpa [guardedFlags] using hpass))

theorem execTamperClear_refuses {s : State} {m : Word} (h : ownerReady s = some (.tamperClear m)) (hg : guardedFlags m s = true)
    (hq : quorumStands s = false) : execTamperClear s = .next (ownerDone .keyPolicy (quorumFails (readQuorum s))) := by
  obtain ⟨o, ho⟩ := ownerReady_owner h
  unfold execTamperClear
  simp only [ho, h]
  exact congrArg Host.Outcome.next (if_pos (by simpa [guardedFlags, hq] using hg))

/-! ### TAMPER_FUSE -/

theorem getLsbD_setBit_ne {w n k : Nat} (m : BitVec w) (h : k ≠ n) : (setBit m n true).getLsbD k = m.getLsbD k := by
  rw [setBit, if_pos rfl, BitVec.getLsbD_or, BitVec.getLsbD_ofNat, Nat.testBit_two_pow_of_ne (Ne.symm h), Bool.and_false, Bool.or_false]

theorem getLsbD_setBit_false {w n : Nat} (m : BitVec w) (h : n < w) : (setBit m n false).getLsbD n = false := by
  rw [setBit, if_neg Bool.false_ne_true, BitVec.getLsbD_and, BitVec.getLsbD_not, getLsbD_ofNat_two_pow h]
  simp

theorem execTamperFuse_fuses_source {s : State} {b : Byte} (hb : b.toNat < 24) (hreset : b.toNat ≠ 19) (hq : quorumStands s = true)
    (h : ownerReady s = some (.tamperFuse b)) :
    execTamperFuse s = .next (ownerDone .ok (if s.fuses.fused.getLsbD b.toNat then readQuorum s else fuseSource ⟨b.toNat, hb⟩ (readQuorum s))) := by
  unfold execTamperFuse
  simp only [h, dif_pos hb, if_neg hreset, hq, Bool.not_true, Bool.false_eq_true, if_false, readQuorum_fuses]

theorem execTamperFuse_refuses {s : State} {b : Byte} (hq : quorumStands s = false) (h : ownerReady s = some (.tamperFuse b)) :
    execTamperFuse s = .next (ownerDone .keyPolicy s) ∨
      execTamperFuse s = .next (ownerDone .keyPolicy (quorumFails (readQuorum s))) := by
  unfold execTamperFuse
  simp only [h, hq]
  split
  · split
    · exact .inl rfl
    · exact .inr rfl
  · exact .inl rfl

/-- The state in which TAMPER_FUSE answers OK: its source alone is disabled, and its flag is clear where it was not so before. -/
theorem fused_or_already {s : State} {b : Byte} (hb : b.toNat < 24) :
    let u := if s.fuses.fused.getLsbD b.toNat then readQuorum s else fuseSource ⟨b.toNat, hb⟩ (readQuorum s)
    u.owner = s.owner ∧ u.ports = s.ports ∧ u.fuses.fused.getLsbD b.toNat = true ∧
      (s.fuses.fused.getLsbD b.toNat = false → u.backup.sticky.getLsbD b.toNat = false) ∧
      ∀ k, k ≠ b.toNat → u.fuses.fused.getLsbD k = s.fuses.fused.getLsbD k := by
  obtain ⟨howner, hports, -, hfuses, -, -, -⟩ := cards_owner (readQuorum_keepsCards s)
  generalize readQuorum s = q at *
  intro u
  cases hf : s.fuses.fused.getLsbD b.toNat
  · have hu : u = fuseSource ⟨b.toNat, hb⟩ q := if_neg (by simp [hf])
    rw [hu]
    refine ⟨howner, hports, fuseSource_disables _ _, fun _ => getLsbD_setBit_false _ hb, fun k hk => ?_⟩
    rw [← hfuses]
    exact getLsbD_setBit_ne _ hk
  · have hu : u = q := if_pos hf
    rw [hu, howner, hports, hfuses]
    exact ⟨rfl, rfl, hf, nofun, fun _ _ => rfl⟩

/-! ### CAL_WRITE -/

theorem execCalWrite_writes {s : State} {o : OwnerCommand} {c : Bytes} (ho : s.owner = some o) (hs : o.started = false)
    (hop : o.operand = .calWrite c) (hb : s.mode.base = .hold) (hok : calOk s.fuses.serial c = true) (horigin : calOrigin c = 1)
    (hseq : calSeq c = o.seq) :
    execCalWrite true s = .next (ownerDone .ok (raise0 0x126 { s with flash := { s.flash with cal := some c } })) := by
  have hready : ownerReady s = some (.calWrite c) := by simp [ownerReady, ho, hs, hop]
  unfold execCalWrite
  simp [ho, hready, hb, hok, horigin, hseq]

/-- Settles O27, by what each command does where its checks pass and by the refusal for want of a quorum. -/
theorem ownerTamperCalCompletes : Obligations.owner_tamper_cal_completes := by
  intro s m b c o
  refine ⟨fun h hq => ?_, fun h hg hq => ?_, fun h hb hreset hq => ?_, fun h hq => ?_, fun ho hs hop hb hok horigin hseq => ?_⟩
  · obtain ⟨o', ho⟩ := ownerReady_owner h
    have hquorum : guardedFlags m s = true → quorumStands s = true := fun hg => by
      obtain ⟨i, hi, hclass⟩ := guardedFlags_iff.mp hg
      exact hq.resolve_left fun hall => absurd (hall i hi) (by omega)
    obtain ⟨u, hu, hkeep⟩ := execTamperClear_clears ho h hquorum
    obtain ⟨howner, hports, htamper, hfuses, -, -, -⟩ := cards_owner hkeep
    refine ⟨_, hu, ownerDone_ends_of _ howner hports, by simpa using htamper, by simpa using hfuses, fun i ho' => ?_⟩
    obtain rfl : o' = o := Option.some.inj (ho.symm.trans ho')
    simp
  · obtain ⟨hends, hsticky, hfuses, -⟩ := quorumRefusal s
    exact ⟨_, execTamperClear_refuses h (guardedFlags_iff.mpr hg) hq, hends, hsticky, hfuses⟩
  · obtain ⟨howner, hports, hfused, hsticky, hothers⟩ := fused_or_already (s := s) hb
    refine ⟨_, execTamperFuse_fuses_source hb hreset hq h, ownerDone_ends_of _ howner hports, ?_, ?_, ?_⟩
    · simpa using hfused
    · simpa using hsticky
    · simpa using hothers
  · rcases execTamperFuse_refuses hq h with hr | hr
    · exact ⟨_, hr, ownerDone_ends _ _, by simp, by simp⟩
    · obtain ⟨hends, hsticky, hfuses, -⟩ := quorumRefusal s
      exact ⟨_, hr, hends, hfuses, hsticky⟩
  · refine ⟨_, execCalWrite_writes ho hs hop hb hok horigin hseq, ownerDone_ends_of _ ?_ ?_, ?_⟩
    · simp [raise0]
    · simp [raise0]
    · rw [(ownerDone_sameButAnswer .ok _).1]
      simp [raise0]

end Sys2Proof.Machine
end

section
/-! PROOFS. LC_ADVANCE, and the end of a life-cycle transition (R528, R529). -/

namespace Sys2Proof.Machine

open Sys2Proof.Claims

/-! ### LC_ADVANCE -/

theorem execLcAdvance_begins {s : State} {b : Byte} (h : ownerReady s = some (.lcAdvance b)) (hhold : s.mode.base = .hold)
    (hdebug : s.life.debug = false) (hlo : 3 ≤ b.toNat) (hhi : b.toNat ≤ 5) (hup : s.life.state < b.toNat)
    (hthree : b.toNat = 3 → s.life.state = 2) (hq : quorumStands s = true) :
    execLcAdvance s = .next (beginTransition b.toNat none (ownerStart (readQuorum s))) := by
  have hfits : (b.toNat != 3 || s.life.state == 2) = true := by
    by_cases h3 : b.toNat = 3
    · simp [hthree h3]
    · simp [h3]
  unfold execLcAdvance
  simp only [h, hhold, hdebug, hlo, hhi, hup, hfits, hq]
  rfl

theorem execLcAdvance_refuses {s : State} {b : Byte} (h : ownerReady s = some (.lcAdvance b)) (hq : quorumStands s = false) :
    execLcAdvance s = .next (ownerDone .keyPolicy s) ∨
      execLcAdvance s = .next (ownerDone .keyPolicy (quorumFails (readQuorum s))) := by
  unfold execLcAdvance
  simp only [h, hq]
  split
  · exact .inl rfl
  · exact .inr rfl

/-! ### What the wipes of R529 leave of drawers, chest and slices -/

/-- The chest is as it was, and no run is new. -/
def StoresKept (s t : State) : Prop := t.backup.chest = s.backup.chest ∧ (s.runs = [] → t.runs = [])

theorem StoresKept.same {s t : State} (hchest : t.backup.chest = s.backup.chest) (hruns : t.runs = s.runs) : StoresKept s t :=
  ⟨hchest, hruns.trans⟩

theorem StoresKept.trans {s t u : State} (h : StoresKept s t) (k : StoresKept t u) : StoresKept s u :=
  ⟨k.1.trans h.1, k.2 ∘ h.2⟩

theorem StoresKept.foldl {α : Type} {f : State → α → State} (h : ∀ s a, StoresKept s (f s a)) (l : List α) (s : State) :
    StoresKept s (l.foldl f s) := by
  induction l generalizing s with
  | nil => exact .same rfl rfl
  | cons a l ih => exact (h s a).trans (ih _)

theorem leaveUnits_stores (i : Item) (s : State) : StoresKept s (leaveUnits i s) := by
  unfold leaveUnits leaveStores modContext
  (repeat' split) <;> exact .same rfl rfl

theorem countAbandon_stores (i : Item) (s : State) : StoresKept s (countAbandon i s) := by
  have hleave := leaveUnits_stores i s
  unfold countAbandon
  (repeat' split) <;> exact hleave

theorem resumeTrestle_stores (i : Item) (s : State) : StoresKept s (resumeTrestle i s) := by
  unfold resumeTrestle
  split
  · exact .same rfl rfl
  · split
    · exact .same rfl rfl
    · extract_lets rests charged
      exact StoresKept.trans (t := charged) (.foldl (f := fun s (x : Item) => holdTrestle _ (moduleIndex x.port x.slice) s) (fun _ _ => .same rfl rfl) _ s)
        (.same rfl rfl)

theorem discardItems_stores (p : PortId) (i : SliceIdx) (s : State) : StoresKept s (discardItems p i s) := by
  unfold discardItems
  extract_lets victims s₁
  refine StoresKept.trans (t := s₁) (.foldl (fun s x => ?_) _ s) (.same rfl rfl)
  dsimp only
  have hreturn : StoresKept s (returnReservation x.id s) := ⟨rfl, fun h => by simp [returnReservation, h]⟩
  split
  · exact hreturn.trans ((countAbandon_stores x _).trans (resumeTrestle_stores x _))
  · exact hreturn

/-- The end of a slice leaves the chest, and makes no run. -/
theorem destroySlice_stores (p : PortId) (i : SliceIdx) (s : State) : StoresKept s (destroySlice p i false s) := by
  unfold destroySlice
  extract_lets old uid s₁ s₂ s₃ keys m s₄ s₅ s₆ cards s₇
  have h₁ : StoresKept s s₁ := by
    unfold s₁
    cases old <;> exact .same rfl rfl
  obtain ⟨hchest, hruns⟩ := h₁.trans (discardItems_stores p i s₁)
  exact ⟨hchest, fun h => List.filter_eq_nil_iff.mpr fun r hr => absurd hr (by rw [show s₃.runs = [] from hruns h]; exact List.not_mem_nil)⟩

/-- Nothing that the chest and the drawers held is left. -/
structure Blank (s : State) : Prop where
  chest : s.backup.chest = {}
  runs : s.runs = []

theorem Blank.of_kept {s t : State} (h : Blank s) (hk : StoresKept s t) : Blank t := ⟨hk.1.trans h.chest, hk.2 h.runs⟩

theorem Blank.foldl_destroySlice {s : State} (h : Blank s) (l : List Slice) :
    Blank (l.foldl (fun s x => Machine.destroySlice x.port x.idx false s) s) := by
  induction l generalizing s with
  | nil => exact h
  | cons x l ih => exact ih (h.of_kept (destroySlice_stores x.port x.idx s))

theorem clearDrawers_blank {s : State} (h : s.backup.chest = {}) : Blank (clearDrawers s) where
  chest := by
    have hwipe : ∀ (x : Slice) (l : List KeyRun) (s : State), StoresKept s (l.foldl (fun s r => wipeDrawers x r.first r.length s) s) :=
      fun x => .foldl fun _ _ => .same rfl rfl
    unfold clearDrawers
    extract_lets s₁ cabinet
    have hkept : StoresKept s s₁ := .foldl (fun s x => hwipe x _ s) _ s
    exact hkept.1.trans h
  runs := rfl

theorem mem_foldl_destroySlice_any {l : List Slice} {s : State} {x : Slice}
    (h : x ∈ (l.foldl (fun s y => destroySlice y.port y.idx false s) s).slices) : x ∈ s.slices ∧ x ∉ l := by
  induction l generalizing s with
  | nil => exact ⟨h, List.not_mem_nil⟩
  | cons y l ih =>
    obtain ⟨hx, hl⟩ := ih h
    rw [destroySlice_slices] at hx
    obtain ⟨hx, hy⟩ := List.mem_filter.mp hx
    refine ⟨hx, fun hmem => ?_⟩
    rcases List.mem_cons.mp hmem with rfl | hmem
    · simp at hy
    · exact hl hmem

theorem destroyAllSlices_slices (s : State) : (destroyAllSlices s).slices = [] := by
  refine List.eq_nil_iff_forall_not_mem.mpr fun x hx => ?_
  obtain ⟨hmem, hnot⟩ := mem_foldl_destroySlice_any (s := s) hx
  exact hnot hmem

/-- Where no slice is left, admin commands that wait end and nothing else goes. -/
theorem abandonAdmin_blank {s : State} (h : Blank s) (hslices : s.slices = []) (st : Status) :
    Blank (abandonAdmin st s) ∧ (abandonAdmin st s).slices = [] := by
  have hkept : StoresKept s (abandonAdmin st s) ∧ (abandonAdmin st s).slices = s.slices := by
    unfold abandonAdmin
    extract_lets s₁
    have h₁ : s₁ = { s with queues := s.queues.filter fun q => !q.installing } := by simp [s₁, hslices]
    rw [h₁]
    refine ⟨StoresKept.trans (t := { s with queues := s.queues.filter fun q => !q.installing }) (.same rfl rfl) (.foldl (fun s p => ?_) _ _),
      foldl_slices (fun s p => ?_) _ _⟩
    · split
      · split <;> exact .same rfl rfl
      · exact .same rfl rfl
    · split
      · split <;> rfl
      · rfl
  exact ⟨h.of_kept hkept.1, hkept.2.trans hslices⟩

/-- Slices, keys, chest, tally records and owner record are gone (R529 steps 4 to 6). -/
structure Wiped (s : State) : Prop where
  blank : Blank s
  slices : s.slices = []
  tally : s.flash.tally = []
  record : s.flash.ownerRecord = []

theorem wipeForExit_wiped (target : Nat) (s : State) : Wiped (wipeForExit target s) := by
  have hdrawers : Blank (clearDrawers (clearChest s)) := clearDrawers_blank rfl
  have hdestroyed : Blank (destroyAllSlices (clearDrawers (clearChest s))) := hdrawers.foldl_destroySlice _
  obtain ⟨hblank, hslices⟩ := abandonAdmin_blank hdestroyed (destroyAllSlices_slices _) .keyPolicy
  unfold wipeForExit
  generalize abandonAdmin .keyPolicy (destroyAllSlices (clearDrawers (clearChest s))) = u at *
  dsimp only
  split <;> exact ⟨⟨hblank.chest, hblank.runs⟩, hslices, rfl, rfl⟩

/-! ### The end of a transition -/

theorem getLsbD_maskOf {w k : Nat} (hk : k < w) {l : List Nat} (h : k ∈ l) : (maskOf w l).getLsbD k = true :=
  getLsbD_foldl_setBit id hk _ (.inl h)

/-- Every bit from the state's group up to the target's is burned. -/
theorem burnTo_bits {target k : Nat} {s : State} (ht : target ≤ 5) (hlo : 4 * s.life.state ≤ k) (hhi : k < 4 * target) :
    (burnTo target s).fuses.otp.getLsbD k = true := by
  have hmem : k ∈ (List.range (4 * target)).filter fun i => decide (4 * s.life.state ≤ i) := by simp [hlo, hhi]
  have hbit := getLsbD_maskOf (w := 24) (by omega) hmem
  exact (BitVec.getLsbD_or ..).trans (by rw [hbit, Bool.or_true])

theorem ownerDone_flash (st : Status) (s : State) : (ownerDone st s).flash = s.flash := by
  rw [(ownerDone_sameButAnswer st s).1]

theorem Wiped.ownerDone {s : State} (h : Wiped s) (st : Status) : Wiped (ownerDone st s) := by
  obtain ⟨-, -, -, -, hslices, -, hruns, -, hbackup, -, -, -⟩ := ownerDone_units st s
  exact ⟨⟨by rw [hbackup, h.blank.chest], hruns.trans h.blank.runs⟩, hslices.trans h.slices, by rw [ownerDone_flash, h.tally],
    by rw [ownerDone_flash, h.record]⟩

theorem settling_flash {s t : State} (h : Frame.settling.Keeps s t) :
    t.flash.tally = s.flash.tally ∧ t.flash.ownerRecord = s.flash.ownerRecord := by
  rw [h]
  exact ⟨rfl, rfl⟩

theorem Wiped.settleAfterLeave {s : State} (h : Wiped s) : Wiped (settleAfterLeave s) := by
  obtain ⟨-, -, -, -, -, -, -, hchest, hslices, hruns, -⟩ := settleAfterLeave_units s
  obtain ⟨htally, hrecord⟩ := settling_flash (settleAfterLeave_keepsSettling s)
  exact ⟨⟨hchest.trans h.blank.chest, hruns.trans h.blank.runs⟩, hslices.trans h.slices, htally.trans h.tally, hrecord.trans h.record⟩

/-- What stands once steps 2 to 6 are done, before the answer. -/
def burnedAndWiped (t : Transition) (s : State) : State :=
  let s := burnTo t.target { s with life := { s.life with transition := none } }
  if t.target = 3 then s else wipeForExit t.target s

theorem endTransition_eq (t : Transition) (s : State) : endTransition t s = match t.byToken with
    | some (p, seq) => emit (.usb p 0x0031 seq .ok []) (burnedAndWiped t s)
    | none => ownerDone .ok (burnedAndWiped t s) := rfl

theorem burnedAndWiped_registers (t : Transition) (s : State) :
    (burnedAndWiped t s).life = (burnTo t.target { s with life := { s.life with transition := none } }).life ∧
      (burnedAndWiped t s).fuses = (burnTo t.target { s with life := { s.life with transition := none } }).fuses := by
  unfold burnedAndWiped
  dsimp only
  split
  · exact ⟨rfl, rfl⟩
  · exact ⟨wipeForExit_life .., wipeForExit_fuses ..⟩

theorem endTransition_registers (t : Transition) (s : State) :
    (endTransition t s).life = (burnedAndWiped t s).life ∧ (endTransition t s).fuses = (burnedAndWiped t s).fuses := by
  rw [endTransition_eq]
  split
  · exact ⟨rfl, rfl⟩
  · exact ⟨ownerDone_life .., ownerDone_fuses ..⟩

theorem endTransition_wiped {t : Transition} (h : t.target ≠ 3) (s : State) : Wiped (endTransition t s) := by
  have hwiped : Wiped (burnedAndWiped t s) := by
    unfold burnedAndWiped
    rw [if_neg h]
    exact wipeForExit_wiped _ _
  rw [endTransition_eq]
  split
  · exact ⟨⟨hwiped.blank.chest, hwiped.blank.runs⟩, hwiped.slices, hwiped.tally, hwiped.record⟩
  · exact hwiped.ownerDone .ok

/-- Settles O28, by what LC_ADVANCE begins or refuses, by the bits that a transition burns and by the wipes of its end. -/
theorem lifeCycleCompletes : Obligations.life_cycle_completes := by
  intro s b tr
  refine ⟨fun h hhold hdebug hlo hhi hup hthree hq => ?_, fun h hq => ?_, fun htr _ htarget => ?_⟩
  · obtain ⟨-, -, -, -, -, hslices, -⟩ := cards_owner (readQuorum_keepsCards s)
    refine ⟨_, execLcAdvance_begins h hhold hdebug hlo hhi hup hthree hq, ?_, ?_, ?_, ?_⟩
    · simp [beginTransition]
    · simp [beginTransition, ownerStart]
    · simp [beginTransition, ownerStart]
    · simpa [beginTransition, ownerStart] using hslices
  · rcases execLcAdvance_refuses h hq with hr | hr
    · exact ⟨_, hr, ownerDone_ends _ _, ownerDone_life .., ownerDone_fuses ..⟩
    · obtain ⟨hends, -, hfuses, hlife⟩ := quorumRefusal s
      exact ⟨_, hr, hends, hlife, hfuses⟩
  · have hexec : exec .lcTransitionDone s = .next (settleAfterLeave (endTransition tr s)) := by
      change execLcTransitionDone s = _
      rw [execLcTransitionDone, htr]
    obtain ⟨hlife, hfuses⟩ := endTransition_registers tr s
    obtain ⟨hlife', hfuses'⟩ := burnedAndWiped_registers tr s
    refine ⟨_, hexec, ?_, ?_, (exec_grows hexec).otp, fun k hlo hhi => ?_, fun h3 => ?_⟩
    · rw [settleAfterLeave_life, hlife, hlife']
      rfl
    · rw [settleAfterLeave_life, hlife, hlife']
      rfl
    · rw [settleAfterLeave_fuses, hfuses, hfuses']
      exact burnTo_bits htarget hlo hhi
    · have hwiped := (endTransition_wiped h3 s).settleAfterLeave
      exact ⟨hwiped.slices, hwiped.blank.runs, hwiped.blank.chest, hwiped.tally, hwiped.record⟩

end Sys2Proof.Machine
end

section
/-! PROOFS. The challenge nonce (R531): drawn from the steward's DRBG (16), consumed by every response that the steward takes up, lost with power. -/

namespace Sys2Proof.Machine

open Sys2Proof.Claims

/-- A draw from `inst16` is one call of its generator. -/
theorem draw_inst16_instance (n : Nat) (s : State) :
    (draw inst16 n s).2.bobbin.instances[16] = (ctrGenerate n s.bobbin.instances[16]).2 := by
  change (modInstance inst16 _ s).bobbin.instances[inst16.val] = _
  rw [modInstance_at]
  rfl

theorem giveNonce_draws (p : PortId) (q : BitVec 16) (s : State) :
    (giveNonce p q s).life.nonce = some (ctrGenerate 32 s.bobbin.instances[16]).1 ∧
      (giveNonce p q s).out = s.out ++ [.usb p 0x0030 q .ok (ctrGenerate 32 s.bobbin.instances[16]).1] ∧
      (giveNonce p q s).bobbin.instances[16] = (ctrGenerate 32 s.bobbin.instances[16]).2 := by
  rw [← draw_inst16 32 s]
  exact ⟨rfl, rfl, draw_inst16_instance 32 s⟩

/-- The nonce goes with the response, also where the steward is lost. -/
theorem debugResponse_nonce (p : PortId) (q : BitVec 16) (k : Token) (s : State) : (debugResponse p q k s).life.nonce = none := by
  cases hlost : s.mode.stewardLost
  · exact (debugResponse_life hlost).1
  · simp [debugResponse, hlost, useNonce]

theorem arriveWork_lost {p : PortId} {q : BitVec 16} {w : StewardWork} {s : State} (h : s.mode.stewardLost = true) :
    arriveWork p q w s = takeWork p q w s := by
  simp [arriveWork, h]

theorem powerDown_life (s : State) : (powerDown s).life = {} := by
  unfold powerDown
  dsimp only
  split
  · rfl
  · exact loseBackup_life _

/-- Settles O53, by the draw of the challenge, by the response as the steward takes it up and by the loss of the main domain. -/
theorem challengeNonce : Obligations.challenge_nonce := by
  intro s t p q k
  refine ⟨fun hopen hlost hmode hbobbin hdraws => ?_, fun hopen htaken h => ?_, fun hpowered h => ?_⟩
  · obtain ⟨hnonce, hout, hinstance⟩ := giveNonce_draws p q s
    refine ⟨giveNonce p q s, _, ?_, rfl, hnonce, hout, hinstance⟩
    simp only [exec, execDebugChallenge, onUsb_open hopen, debugChallenge_answers hlost hmode hbobbin hdraws]
  · have harrive : arriveWork p q (.token k) s = debugResponse p q k s :=
      htaken.elim (fun hfree => arriveWork_taken hfree.1 hfree.2) arriveWork_lost
    simp only [exec, execDebugResponse, onUsb_open hopen, harrive] at h
    rw [← Host.Outcome.next.inj h]
    exact debugResponse_nonce p q k s
  · simp only [exec, execPowerFail, beq_iff_eq, if_neg hpowered] at h
    rw [← Host.Outcome.next.inj h, powerDown_life]

end Sys2Proof.Machine
end

section
/-! PROOFS. MAC outside its four parameter sets (R404): the model's tag has the length of a hash, `macOut` gives another. -/

namespace Sys2Proof.Machine

open Sys2Proof.Claims

/-- A MAC item of PARAM_SET 0, with no input, in service on the steward. -/
def macItem : Item :=
  { id := 1, port := 0, qnum := 1, slice := 0, index := 0, entry := 0x3088, cls := .local_, place := .inService
    engine := some .steward }

def macState : State :=
  { State.reset with heddle := { State.reset.heddle with items := [macItem] } }

theorem macItem_runs : Runs macState .steward 0x30 0x88 [] macItem := by
  unfold Runs
  decide +kernel

theorem macOut_macItem : macOut macItem.entry = 0 := by decide +kernel

/-- Every PARAM_SET but 4 is given HMAC, whose tag is as long as its hash. -/
theorem macTag_length {set : Nat} (h : set ≠ 4) (key label m : Bytes) (n : Nat) : (macTag set key label m n).length = shaLen (set + 1) := by
  rw [macTag, if_neg h, hmac_length]

/-- The state after the command: the item holds a tag of 64 bytes. -/
theorem execMac_macState : ∃ r : ItemResult, r.output.length = 64 ∧
    exec (.mac .steward []) macState = .next (formResult macItem [] r macState) := by
  obtain ⟨hserving, hfam, hop, hresult, hlen⟩ := macItem_runs
  have hset : setOf macItem.entry = 0 := by decide +kernel
  refine ⟨_, ?_, congrArg Host.Outcome.next (runOp_runs hserving hfam hop hresult hlen)⟩
  rw [hset]
  exact macTag_length (set := 0) (by decide) (keyContent macState macItem) (List.take 0 []) (List.drop 0 []) (macOut macItem.entry)

/-- The result that an item in `macState` is given can be read back from the items. -/
theorem formed_macState_result {r r' : ItemResult} {input input' : Bytes} {t : State} (ht : t.heddle = macState.heddle)
    (h : formResult macItem input r macState = formed macItem r' input' t) : r = r' := by
  have hitems := congrArg (fun u : State => u.heddle.items.map fun x => x.result) h
  simpa [formResult, formed, ht, macState, modItem, modItems] using hitems

/-- Refutes O12: the MAC clause asks for a tag of `macOut` bytes at every PARAM_SET, and at PARAM_SET 0, where `macOut` reads 0, the
command writes a tag of 64 bytes; R404's four sets are 1 to 4. -/
theorem not_deriveMacAttestComplete : ¬ Obligations.derive_mac_attest_complete := by
  intro h
  obtain ⟨-, hmac, -⟩ := h macState .steward macItem []
  obtain ⟨r', t, input', hexec', -, ⟨hloaded, -⟩, -, hlen', -⟩ := hmac macItem_runs
  obtain ⟨r, hlen, hexec⟩ := execMac_macState
  have hheddle : t.heddle = macState.heddle := by rw [hloaded]
  obtain rfl := formed_macState_result hheddle (Host.Outcome.next.inj (hexec.symm.trans hexec'))
  rw [macOut_macItem, hlen] at hlen'
  exact absurd hlen' (by decide)

end Sys2Proof.Machine
end

section
/-! PROOFS. Elliptic-curve operations (R334, R335, R337, R341 to R344). -/

namespace Sys2Proof.Machine

open Sys2Proof.Claims

/-! ### Sizes -/

theorem ecPkOf_length (set : Nat) (d : Bytes) : (ecPkOf set d).length = 1 + 2 * ecCoord set := ecEncode_length set _

theorem ecPriv_length {set : Nat} {d : Bytes} (h : d.length = ecCoord set) : (ecPriv set d).length = 1 + 3 * ecCoord set := by
  rw [ecPriv, List.length_append, h, ecPkOf_length]
  omega

theorem edPkOf_length (set : Nat) (seed : Bytes) : (edPkOf set seed).length = edPk set := edEncode_length set _

theorem xPublic_length (set : Nat) (k : Bytes) : (xPublic set k).length = xPk set := xAgree_length set k _

/-! ### The judgement of a named key (R342) -/

theorem namedClsBad_congr {s t : State} (h : KeepsKeys s t) (i : Item) : namedClsBad t i = namedClsBad s i := by
  simp only [namedClsBad, keyContent_congr h, keyFacts_congr h]

/-- A key in drawers is not judged. -/
theorem namedClsBad_of_no_record {i : Item} (h : i.record = none) (s : State) : namedClsBad s i = none := by
  simp [namedClsBad, h]

theorem judged_verdict (bad : Option Status) (holds : Bool) : Judged bad holds (judged bad (verdict false holds)) := by
  cases bad with
  | some st => exact ⟨rfl, rfl⟩
  | none => cases holds <;> exact ⟨rfl, rfl⟩

theorem firstBad_eq_none {a b : Option Status} : firstBad a b = none ↔ a = none ∧ b = none := by
  cases a with
  | none => simp [firstBad]
  | some x =>
    cases b with
    | none => simp [firstBad]
    | some y => by_cases h : statusOrder y < statusOrder x <;> simp [firstBad, h]

/-- A key generation whose self-check has run (R353). -/
theorem trestleChecked_newKey {s t : State} {i : Item} {kind fam origin outLen contentLen : Nat} {oneShot : Bool} {content out : Bytes}
    (ok : Bool) (h : t.runs = s.runs) (hout : out.length = outLen) (hcontent : content.length = contentLen) :
    NewKey s i kind fam origin oneShot outLen contentLen (trestleChecked ok
      (keyResult t i kind fam (setOf i.entry) (newPolicy (policyOperand i.entry) kind fam origin oneShot) content out)) :=
  ⟨rfl, hout, reservedHandle_congr h i, content, hcontent, List.mem_cons_self⟩

/-! ### ECDSA and ECDH -/

section Ec

variable {s : State} {e : Engine} {i : Item} {input : Bytes}

theorem ecdsaKeygen_forms (h₁ : 1 ≤ setOf i.entry) (h₃ : setOf i.entry ≤ 3) (h : Runs s e 0x10 0x60 [] i) (hdraws : Draws s) :
    FormsDrawn (.ecdsaKeygen e) s i 128 fun _ r =>
      NewKey s i 1 0x10 0 (oneShotOperand i.entry) ([0, 65, 97, 133].getD (setOf i.entry) 0) ([0, 97, 145, 199].getD (setOf i.entry) 0) r := by
  refine formsDrawn_of_runDrawOp rfl (fun _ _ => rfl) h hdraws fun t ht => ?_
  have hpk : [0, 65, 97, 133].getD (setOf i.entry) 0 = 1 + 2 * ecCoord (setOf i.entry) := by interval_cases setOf i.entry <;> rfl
  have hpriv : [0, 97, 145, 199].getD (setOf i.entry) 0 = 1 + 3 * ecCoord (setOf i.entry) := by interval_cases setOf i.entry <;> rfl
  rw [hpk, hpriv]
  exact trestleChecked_newKey _ ht (ecPkOf_length _ _) (ecPriv_length (beBytes_length _ _))

theorem ecdsaSign_forms (h₁ : 1 ≤ setOf i.entry) (h₃ : setOf i.entry ≤ 3) (h : Runs s e 0x10 0x61 input i) (hdraws : Draws s) :
    FormsDrawn (.ecdsaSign e input) s i 128 fun _ r =>
      match namedClsBad s i with
      | some st => Rejects st r
      | none => Writes ([0, 64, 96, 132].getD (setOf i.entry) 0) r := by
  refine formsKeyed_of_runDrawOp (bytes := fun _ => 128) rfl h hdraws (fun _ t => loaded_refl i t) fun d t _ ht => ?_
  have hsig : 2 * ecCoord (setOf i.entry) = [0, 64, 96, 132].getD (setOf i.entry) 0 := by interval_cases setOf i.entry <;> rfl
  simp only [namedClsBad_congr ht]
  cases namedClsBad s i with
  | some st => exact failResult_rejects st
  | none => exact ⟨rfl, (ecSign_length _ _ _ _).trans hsig, rfl⟩

/-- A digest and a signature, under a judged key. -/
theorem ecVerify_judged (bad : Option Status) {set n : Nat} (hn : n = input.length - 2 * ecCoord set) (pk : Bytes) :
    Judged bad (ecVerifies set pk (input.take n) (input.drop n)) (ecVerify bad set pk input) := by
  subst hn
  exact judged_verdict _ _

theorem ecdsaVerify_forms (h : Runs s e 0x10 0x62 input i) {n : Nat} (hn : n = input.length - 2 * ecCoord (setOf i.entry)) :
    Forms (.ecdsaVerify e input) s i (Judged (namedClsBad s i)
      (ecVerifies (setOf i.entry) (namedPk s i (ecCoord (setOf i.entry))) (input.take n) (input.drop n))) := by
  refine formsKeyed_of_runOp rfl h (fun t => loaded_refl i t) fun t ht => ?_
  simp only [namedClsBad_congr ht, namedPk_congr ht]
  exact ecVerify_judged _ hn _

theorem ecdsaVerifyPk_forms (h : Runs s e 0x10 0x63 input i) {n : Nat}
    (hn : n = (input.drop (ecPk (setOf i.entry))).length - 2 * ecCoord (setOf i.entry)) :
    Forms (.ecdsaVerifyPk e input) s i (Judged (ecPkBad (setOf i.entry) (input.take (ecPk (setOf i.entry))))
      (ecVerifies (setOf i.entry) (input.take (ecPk (setOf i.entry))) ((input.drop (ecPk (setOf i.entry))).take n)
        ((input.drop (ecPk (setOf i.entry))).drop n))) :=
  forms_of_runOp rfl (fun _ => rfl) h fun _ _ => ecVerify_judged _ hn _

/-- The judgement of the peer's point, and of the point that ECDH makes of it (R342). -/
def ecPeerBad (set : Nat) (d peer : Bytes) : Option Status :=
  match ecPkBad set peer with
  | some st => some st
  | none => if (ecAgree set d peer).isNone = true then some .rejectPoint else none

theorem ecPeerBad_eq_none {set : Nat} {d peer : Bytes} (h : ecPeerBad set d peer = none) : ∃ z, ecAgree set d peer = some z := by
  unfold ecPeerBad at h
  split at h
  · cases h
  · cases hz : ecAgree set d peer with
    | some z => exact ⟨z, rfl⟩
    | none => simp [hz] at h

theorem ecdhAgree_forms (h : Runs s e 0x10 0x64 input i) (hdraws : Draws s) :
    FormsDrawn (.ecdhAgree e input) s i 128 fun _ r =>
      match firstBad (namedClsBad s i) (ecPeerBad (setOf i.entry) ((keyContent s i).take (ecCoord (setOf i.entry))) input) with
      | some st => Rejects st r
      | none => Shared s i 0 ([0, 32, 48, 66].getD (setOf i.entry) 0) r := by
  refine formsKeyed_of_runDrawOp (bytes := fun _ => 128) rfl h hdraws (fun _ t => loaded_refl i t) fun d t _ ht => ?_
  simp only [namedClsBad_congr ht, keyContent_congr ht]
  change match firstBad (namedClsBad s i) (ecPeerBad (setOf i.entry) ((keyContent s i).take (ecCoord (setOf i.entry))) input) with
    | some st => Rejects st (judged (firstBad (namedClsBad s i) (ecPeerBad _ _ input)) _)
    | none => Shared s i 0 _ (judged (firstBad (namedClsBad s i) (ecPeerBad _ _ input)) _)
  cases hbad : firstBad (namedClsBad s i) (ecPeerBad (setOf i.entry) ((keyContent s i).take (ecCoord (setOf i.entry))) input) with
  | some st => exact failResult_rejects st
  | none =>
    obtain ⟨z, hz⟩ := ecPeerBad_eq_none (firstBad_eq_none.mp hbad).2
    exact depositOr_shared_plain ht.runs rfl (by rw [hz]; exact ecAgree_length hz)

end Ec

/-! ### EdDSA -/

section Ed

variable {s : State} {e : Engine} {i : Item} {input : Bytes}

theorem edPk_le_draw (set : Nat) : edPk set ≤ 128 := by
  unfold edPk
  match set with
  | 0 | 1 | 2 => decide
  | n + 3 => exact Nat.zero_le _

theorem eddsaKeygen_forms (h₁ : 1 ≤ setOf i.entry) (h₂ : setOf i.entry ≤ 2) (h : Runs s e 0x11 0x68 [] i) (hdraws : Draws s) :
    FormsDrawn (.eddsaKeygen e) s i 128 fun _ r =>
      NewKey s i 1 0x11 0 false ([0, 32, 57].getD (setOf i.entry) 0) ([0, 64, 114].getD (setOf i.entry) 0) r := by
  refine formsKeyed_of_runDrawOp (bytes := fun _ => 128) rfl h hdraws (fun _ t => loaded_refl i t) fun d t hd ht => ?_
  have hseed : (d.take (edPk (setOf i.entry))).length = edPk (setOf i.entry) := by
    rw [List.length_take, hd, Nat.min_eq_left (edPk_le_draw _)]
  have hpriv : edPk (setOf i.entry) + edPk (setOf i.entry) = [0, 64, 114].getD (setOf i.entry) 0 := by
    interval_cases setOf i.entry <;> rfl
  refine trestleChecked_newKey _ ht.runs (edPkOf_length _ _) ?_
  rw [List.length_append, hseed, edPkOf_length, hpriv]

theorem eddsaSign_forms (h₁ : 1 ≤ setOf i.entry) (h₂ : setOf i.entry ≤ 2) (h : Runs s e 0x11 0x69 input i) (hdraws : Draws s) :
    FormsDrawn (.eddsaSign e input) s i 128 fun _ r =>
      match namedClsBad s i with
      | some st => Rejects st r
      | none => r.status = .ok ∧ r.word = 0 ∧
        r.output.length = [0, 64, 114].getD (setOf i.entry) 0 ∧
          r.output = edSignOf (setOf i.entry) (variantOf i.entry) ((keyContent s i).take (edPk (setOf i.entry)))
            ((keyContent s i).drop (edPk (setOf i.entry))) (input.take (ctxLenOf i.entry)) (input.drop (ctxLenOf i.entry)) := by
  refine formsKeyed_of_runDrawOp (bytes := fun _ => 128) rfl h hdraws (fun _ t => loaded_refl i t) fun d t _ ht => ?_
  have hsig : 2 * edPk (setOf i.entry) = [0, 64, 114].getD (setOf i.entry) 0 := by interval_cases setOf i.entry <;> rfl
  simp only [namedClsBad_congr ht, keyContent_congr ht]
  cases namedClsBad s i with
  | some st => exact failResult_rejects st
  | none => exact ⟨rfl, rfl, (edSignOf_length _ _ _ _ _ _).trans hsig, rfl⟩

theorem edVerify_judged (bad : Option Status) {n : Nat} (hn : n = input.length - edSig (setOf i.entry)) (pk : Bytes) :
    Judged bad (edVerifies (setOf i.entry) (variantOf i.entry) pk (input.take (ctxLenOf i.entry))
      ((input.take n).drop (ctxLenOf i.entry)) (input.drop n)) (edVerify bad pk input i) := by
  subst hn
  exact judged_verdict _ _

theorem eddsaVerify_forms (h : Runs s e 0x11 0x6A input i) {n : Nat} (hn : n = input.length - edSig (setOf i.entry)) :
    Forms (.eddsaVerify e input) s i (Judged (namedClsBad s i) (edVerifies (setOf i.entry) (variantOf i.entry)
      (namedPk s i (edPk (setOf i.entry))) (input.take (ctxLenOf i.entry)) ((input.take n).drop (ctxLenOf i.entry)) (input.drop n))) := by
  refine formsKeyed_of_runOp rfl h (fun t => loaded_refl i t) fun t ht => ?_
  simp only [namedClsBad_congr ht, namedPk_congr ht]
  exact edVerify_judged _ hn _

theorem eddsaVerifyPk_forms {pk msgSig : Bytes} (hpk : pk = input.take (edPk (setOf i.entry)))
    (hmsg : msgSig = input.drop (edPk (setOf i.entry))) (h : Runs s e 0x11 0x6B input i) {n : Nat}
    (hn : n = msgSig.length - edSig (setOf i.entry)) :
    Forms (.eddsaVerifyPk e input) s i (Judged (edPkBad (setOf i.entry) pk) (edVerifies (setOf i.entry) (variantOf i.entry) pk
      (msgSig.take (ctxLenOf i.entry)) ((msgSig.take n).drop (ctxLenOf i.entry)) (msgSig.drop n))) := by
  subst hpk hmsg
  exact forms_of_runOp rfl (fun _ => rfl) h fun _ _ => edVerify_judged _ hn _

end Ed

/-! ### X25519 and X448 -/

section Xdh

variable {s : State} {e : Engine} {i : Item} {input : Bytes}

theorem xdhKeygen_forms (h₂ : setOf i.entry ≤ 2) (h : Runs s e 0x12 0x6C [] i) (hdraws : Draws s) :
    FormsDrawn (.xdhKeygen e) s i 128 fun _ r =>
      NewKey s i 1 0x12 0 (oneShotOperand i.entry) ([0, 32, 56].getD (setOf i.entry) 0) ([0, 32, 56].getD (setOf i.entry) 0) r := by
  refine formsKeyed_of_runDrawOp (bytes := fun _ => 128) rfl h hdraws (fun _ t => loaded_refl i t) fun d t hd ht => ?_
  have hle : xPk (setOf i.entry) ≤ 128 := by interval_cases setOf i.entry <;> decide
  refine keyResult_newKey [] ht.runs (xPublic_length _ _) ?_
  rw [List.length_take, hd, Nat.min_eq_left hle]
  rfl

/-- An all-zero value is refused (R342). -/
theorem xdhAgree_forms (h : Runs s e 0x12 0x6D input i) (hdraws : Draws s) :
    FormsDrawn (.xdhAgree e input) s i 128 fun _ r =>
      if xAgree (setOf i.entry) (keyContent s i) input = zeros ([0, 32, 56].getD (setOf i.entry) 0) then Rejects .rejectPoint r
      else SharedAs s i [] (xAgree (setOf i.entry) (keyContent s i) input) r := by
  refine formsKeyed_of_runDrawOp (bytes := fun _ => 128) rfl h hdraws (fun _ t => loaded_refl i t) fun d t _ ht => ?_
  simp only [keyContent_congr ht, beq_iff_eq]
  change if xAgree (setOf i.entry) (keyContent s i) input = zeros (xPk (setOf i.entry)) then _ else _
  split
  · exact failResult_rejects _
  · have hshared := depositOr_sharedAs ht.runs (i := i) [] (xAgree (setOf i.entry) (keyContent s i) input) []
      (depositOr t i [] (xAgree (setOf i.entry) (keyContent s i) input)).lookup
    simpa using hshared

end Xdh

/-- Settles O9, operation by operation: each forms its result with the lengths of its set, once the judgement of R342 lets it. -/
theorem ellipticCompletes : Obligations.elliptic_completes := by
  refine ⟨fun s e i input h₁ h₃ => ⟨ecdsaKeygen_forms h₁ h₃, ecdsaSign_forms h₁ h₃, ?verify, ecdhAgree_forms,
      fun hrecord => namedClsBad_of_no_record hrecord s⟩,
    fun s e i input h₁ h₂ => ⟨eddsaKeygen_forms h₁ h₂, eddsaSign_forms h₁ h₂, ?edVerify, xdhKeygen_forms h₂, xdhAgree_forms⟩⟩
  case verify =>
    have hsig : [0, 64, 96, 132].getD (setOf i.entry) 0 = 2 * ecCoord (setOf i.entry) := by interval_cases setOf i.entry <;> rfl
    rintro verify bad pk msgSig n (⟨rfl, h, rfl, rfl, rfl⟩ | ⟨rfl, h, rfl, rfl, rfl⟩) hn
    · exact ecdsaVerify_forms h (hn.trans (by rw [hsig]))
    · exact ecdsaVerifyPk_forms h (hn.trans (by rw [hsig]))
  case edVerify =>
    rintro verify bad pk msgSig n (⟨rfl, h, rfl, rfl, rfl⟩ | ⟨rfl, h, hpk, rfl, hmsg⟩) hn
    · exact eddsaVerify_forms h hn
    · exact eddsaVerifyPk_forms hpk hmsg h hn

end Sys2Proof.Machine
end

section
/-! PROOFS. RSA operations (R336, R338 to R340, R342, R343). -/

namespace Sys2Proof.Machine

open Sys2Proof.Claims

/-! ### Keys and their judgement -/

theorem rsaK_even {set : Nat} (h₄ : set ≤ 4) : 2 * (rsaK set / 2) = rsaK set := by interval_cases set <;> rfl

theorem rsaKeyOf_length {set : Nat} (h₄ : set ≤ 4) (p q : Nat) : (rsaKeyOf set p q).length = 32 + 5 * rsaK set + rsaK set / 2 := by
  have heven := rsaK_even h₄
  simp only [rsaKeyOf, rsaPrivateConstants, rsaSquare, List.length_append, beBytes_length]
  omega

/-- What the judgement of an RSA key can find (R342). -/
theorem namedClsBad_rsa {s : State} {i : Item} {st : Status} (hfam : famOf i.entry = 0x13) (h : namedClsBad s i = some st) :
    st = .rejectEncoding ∨ st = .rejectModulus ∨ st = .rejectScalar := by
  have hkey : ∀ k : KeyFacts, clsKeyBad 0x13 (setOf i.entry) (k.kind == 1) (keyContent s i) = some st →
      st = .rejectEncoding ∨ st = .rejectModulus ∨ st = .rejectScalar := by
    intro k hk
    simp only [clsKeyBad, rsaPkBad, show (0x13 : Nat) ≠ 0x10 by decide, show (0x13 : Nat) ≠ 0x11 by decide, if_false, if_true] at hk
    split at hk
    · next st' hst =>
      obtain rfl := Option.some.inj hk
      split at hst
      · exact .inl (Option.some.inj hst).symm
      · split at hst
        · exact .inr (.inl (Option.some.inj hst).symm)
        · cases hst
    · split at hk
      · exact .inr (.inr (Option.some.inj hk).symm)
      · cases hk
  unfold namedClsBad at h
  rw [hfam] at h
  split at h
  · next k _ _ => exact hkey k h
  · cases h

/-! ### OAEP (R339) -/

theorem rsaHash_length (h : Nat) (m : Bytes) : (rsaHash h m).length = [0, 32, 48, 64, 32, 48, 64].getD h 0 := primBytes_length _ _ _

/-- Without a hash of R356 nothing decodes: its mask is empty. -/
theorem oaepDecode_of_no_hash {k h : Nat} (hh : [0, 32, 48, 64, 32, 48, 64].getD h 0 = 0) (em : Bytes) : oaepDecode k h em = none := by
  have hhash : ∀ m, rsaHash h m = [] := fun m => List.eq_nil_of_length_eq_zero ((rsaHash_length h m).trans hh)
  have hmask : ∀ n seed, mgf1 h n seed = [] := fun n seed => by simp [mgf1, hhash]
  simp [oaepDecode, hmask, xorBytes]

/-- A message that decodes has at most k - 2h - 2 bytes. -/
theorem oaepDecode_length {k h : Nat} {em m : Bytes} (hem : em.length = k) (hm : oaepDecode k h em = some m) :
    m.length ≤ k - 2 * phLen h - 2 := by
  have hlen : [0, 32, 48, 64, 32, 48, 64].getD h 0 = phLen h := by
    by_contra hne
    have h7 : 7 ≤ h := by
      by_contra hlt
      have hlt : h < 7 := by omega
      interval_cases h <;> exact hne rfl
    have hnone := oaepDecode_of_no_hash (k := k) (h := h) (List.getD_eq_default _ _ h7) em
    rw [hnone] at hm
    cases hm
  unfold oaepDecode at hm
  simp only [rsaHash_length, hlen] at hm
  split at hm
  · next b rest hdrop =>
    have hle := hdrop ▸ (List.dropWhile_sublist _).length_le
    simp only [List.length_cons, List.length_drop, xorBytes, List.length_zipWith, hem] at hle
    split at hm
    · obtain rfl := Option.some.inj hm
      omega
    · cases hm
  · cases hm

/-! ### Key generation (R336, R340, R551) -/

/-- The same state but for the bobbin's instances and buffers. -/
def DrewBytes (s t : State) : Prop :=
  t = { s with bobbin := { s.bobbin with instances := t.bobbin.instances, buffers := t.bobbin.buffers } }

theorem DrewBytes.trans {s t u : State} (h : DrewBytes s t) (k : DrewBytes t u) : DrewBytes s u := by
  unfold DrewBytes at *
  rw [k, h]

theorem unitDraw_drewBytes (i : Item) (n : Nat) (s : State) : DrewBytes s (unitDraw i n s).2 := by
  unfold DrewBytes
  conv_lhs => rw [unitDraw_frame, unitDraw_bobbin]

theorem testCandidate_drewBytes (i : Item) (bits : Bytes) (x : List Nat × State) : DrewBytes x.2 (testCandidate i bits x).2 := by
  unfold testCandidate
  split
  · rfl
  · exact unitDraw_drewBytes i _ x.2

theorem searchPrimes_drewBytes (i : Item) (bits : Bytes) (n : Nat) (s : State) : DrewBytes s (searchPrimes i bits n s).2 := by
  unfold searchPrimes
  refine List.foldlRecOn (motive := fun x : List Nat × State => DrewBytes s x.2) _ _ rfl fun x hx _ _ => ?_
  exact hx.trans (testCandidate_drewBytes i bits x)

section

variable {s : State} {e : Engine} {i : Item} {input : Bytes}

/-- The state in which the search begins: the job's bits drawn and loaded, unless it has them. -/
def rsaStart (i : Item) (s : State) : State :=
  if (contextBits i s).isEmpty = true then loadUnit i [] (itemDraw i 128 s).1 (itemDraw i 128 s).2 else s

theorem rsaStart_runs (i : Item) (s : State) : (rsaStart i s).runs = s.runs := by
  unfold rsaStart
  split
  · rw [loaded_runs (loadUnit_loaded i [] _ _), itemDraw_eq_drawn, drawn_runs]
  · rfl

theorem execRsaKeygen_runs (candidates : Nat) (h : Runs s e 0x13 0x70 [] i) (hdraws : Draws s) :
    exec (.rsaKeygen e candidates) s = .next (
      let x := searchPrimes i (contextBits i (rsaStart i s)) candidates (rsaStart i s)
      if 2 ≤ x.1.length then formResult i [] (rsaKeygenResult i x.1 x.2) x.2 else modContext i (fun c => { c with primes := x.1 }) x.2) := by
  obtain ⟨hs, hfam, hop, hres, hlen⟩ := h
  have hin : inputLen i.entry = 0 := hlen.symm
  have hserving : s.bobbin.state = .serving := hdraws
  change execRsaKeygen e candidates s = _
  unfold execRsaKeygen
  simp only [hs, hfam, hop, hres, hin, hserving]
  rfl

theorem rsaKeygenResult_newKey (h₄ : setOf i.entry ≤ 4) {t : State} (ht : t.runs = s.runs) (primes : List Nat) :
    NewKey s i 1 0x13 0 false (32 + rsaK (setOf i.entry)) (32 + 5 * rsaK (setOf i.entry) + rsaK (setOf i.entry) / 2)
      (rsaKeygenResult i primes t) := by
  have hkey := rsaKeyOf_length h₄ (primes.getD 0 0) (primes.getD 1 0)
  refine trestleChecked_newKey _ ht ?_ hkey
  rw [List.length_take, hkey]
  omega

/-- The primes found so far stand in the job's context. -/
theorem foundPrimes_modContext (h : (trestleOf i).isSome = true) (primes : List Nat) (t : State) :
    foundPrimes i (modContext i (fun c => { c with primes := primes }) t) = primes := by
  obtain ⟨k, hk⟩ := Option.isSome_iff_exists.mp h
  unfold foundPrimes modContext
  simp only [hk, modTrestle_at]
  cases i.ctxB <;> rfl

/-! ### The operations -/

theorem rsaSign_forms (h : Runs s e 0x13 0x71 input i) (hdraws : Draws s) :
    FormsDrawn (.rsaSign e input) s i 128 fun _ r =>
      match namedClsBad s i with
      | some st => Rejects st r
      | none => Writes (rsaK (setOf i.entry)) r := by
  refine formsKeyed_of_runDrawOp (bytes := fun _ => 128) rfl h hdraws (fun _ t => loaded_refl i t) fun d t _ ht => ?_
  simp only [namedClsBad_congr ht]
  cases namedClsBad s i with
  | some st => exact failResult_rejects st
  | none => exact ⟨rfl, beBytes_length _ _, rfl⟩

/-- A signature not below n is refused by `rsaHolds` itself. -/
theorem rsaHolds_below (set scheme hash : Nat) (key digest sig : Bytes) :
    (decide (beNat sig < rsaN set key) && rsaHolds set scheme hash key digest sig) = rsaHolds set scheme hash key digest sig := by
  simp [rsaHolds]

theorem rsaVerify_judged (bad : Option Status) {n : Nat} (hn : n = input.length - rsaK (setOf i.entry)) (key : Bytes) :
    Judged bad (decide (beNat (input.drop n) < rsaN (setOf i.entry) key) &&
      rsaHolds (setOf i.entry) (schemeOf i.entry) (hashOf i.entry) key (input.take n) (input.drop n)) (rsaVerify bad key input i) := by
  subst hn
  rw [rsaHolds_below]
  exact judged_verdict _ _

theorem rsaVerify_forms (h : Runs s e 0x13 0x72 input i) {n : Nat} (hn : n = input.length - rsaK (setOf i.entry)) :
    Forms (.rsaVerify e input) s i (Judged (namedClsBad s i) (decide (beNat (input.drop n) < rsaN (setOf i.entry) (keyContent s i)) &&
      rsaHolds (setOf i.entry) (schemeOf i.entry) (hashOf i.entry) (keyContent s i) (input.take n) (input.drop n))) := by
  refine formsKeyed_of_runOp rfl h (fun t => loaded_refl i t) fun t ht => ?_
  simp only [namedClsBad_congr ht, keyContent_congr ht]
  exact rsaVerify_judged _ hn _

theorem rsaVerifyPk_forms {key msgSig : Bytes} (hkey : key = input.take (rsaK (setOf i.entry) + 32))
    (hmsg : msgSig = input.drop (rsaK (setOf i.entry) + 32)) (h : Runs s e 0x13 0x73 input i) {n : Nat}
    (hn : n = msgSig.length - rsaK (setOf i.entry)) :
    Forms (.rsaVerifyPk e input) s i (Judged (rsaPkBad (setOf i.entry) key) (decide (beNat (msgSig.drop n) < rsaN (setOf i.entry) key) &&
      rsaHolds (setOf i.entry) (schemeOf i.entry) (hashOf i.entry) key (msgSig.take n) (msgSig.drop n))) := by
  subst hkey hmsg
  exact forms_of_runOp rfl (fun _ => rfl) h fun _ _ => rsaVerify_judged _ hn _

/-- With the first failure `st`, what the decoding of the input comes before: the modulus and the scalars, of an input below n. -/
theorem decodes_early_iff {set : Nat} {key : Bytes} {a : Option Status} {st : Status} (decoded : Option Bytes)
    (ha : ∀ x, a = some x → x = .rejectEncoding ∨ x = .rejectModulus ∨ x = .rejectScalar)
    (hbad : firstBad a (rsaRangeBad set key input) = some st) :
    ((some st).isSome && some st != some .rejectRange && some st != some .rejectEncoding && (rsaRangeBad set key input).isNone &&
        decoded.isNone) = true ↔
      (st = .rejectModulus ∨ st = .rejectScalar) ∧ beNat input < rsaN set key ∧ decoded = none := by
  by_cases hrange : rsaN set key ≤ beNat input
  · have hfound : rsaRangeBad set key input = some .rejectRange := if_pos hrange
    simp only [hfound, Option.isNone_some, Bool.and_false, Bool.false_and, Bool.false_eq_true, false_iff]
    exact fun h => absurd h.2.1 (Nat.not_lt.mpr hrange)
  · have hnone : rsaRangeBad set key input = none := if_neg hrange
    rw [hnone] at hbad
    have hst : a = some st := by
      cases a with
      | none => simp [firstBad] at hbad
      | some x => simpa [firstBad] using hbad
    have hbelow : beNat input < rsaN set key := Nat.lt_of_not_le hrange
    rcases ha st hst with rfl | rfl | rfl <;> simp [hnone, hbelow]

theorem rsaDecrypt_forms (h : Runs s e 0x13 0x74 input i) (hdraws : Draws s) :
    FormsDrawn (.rsaDecrypt e input) s i 128 fun _ r =>
      match firstBad (namedClsBad s i) (rsaRangeBad (setOf i.entry) (keyContent s i) input) with
      | some st => if (st = .rejectModulus ∨ st = .rejectScalar) ∧ beNat input < rsaN (setOf i.entry) (keyContent s i) ∧
            oaepDecode (rsaK (setOf i.entry)) (hashOf i.entry) (beBytes (rsaK (setOf i.entry)) (rsaPrivate (setOf i.entry) (keyContent s i) (beNat input))) = none
          then Rejects .rejectEncoding r else Rejects st r
      | none => if (oaepDecode (rsaK (setOf i.entry)) (hashOf i.entry) (beBytes (rsaK (setOf i.entry)) (rsaPrivate (setOf i.entry) (keyContent s i) (beNat input)))).isSome = true then
          r.status = .ok ∧ r.word = 0 ∧ r.output.length ≤ rsaK (setOf i.entry) - 2 * hashLenOf i.entry - 2
        else Rejects .rejectEncoding r := by
  have hfam := h.2.1
  refine formsKeyed_of_runDrawOp (bytes := fun _ => 128) rfl h hdraws (fun _ t => loaded_refl i t) fun d t _ ht => ?_
  simp only [namedClsBad_congr ht, keyContent_congr ht]
  cases hbad : firstBad (namedClsBad s i) (rsaRangeBad (setOf i.entry) (keyContent s i) input) with
  | some st =>
    dsimp only
    simp only [decodes_early_iff _ (fun x hx => namedClsBad_rsa hfam hx) hbad]
    split <;> exact failResult_rejects _
  | none =>
    simp only [Option.isSome_none, Bool.false_and, Bool.false_eq_true, if_false]
    cases hdec : oaepDecode (rsaK (setOf i.entry)) (hashOf i.entry)
        (beBytes (rsaK (setOf i.entry)) (rsaPrivate (setOf i.entry) (keyContent s i) (beNat input))) with
    | some m =>
      rw [if_pos (by simp)]
      simp only [judged, rsaPrivateOp, trestleChecked, hdec]
      exact ⟨rfl, rfl, oaepDecode_length (beBytes_length _ _) hdec⟩
    | none =>
      rw [if_neg (by simp)]
      simp only [judged, rsaPrivateOp, trestleChecked, hdec]
      exact failResult_rejects _

theorem rsaEncryptPk_forms (h : Runs s e 0x13 0x75 input i) (hdraws : Draws s) :
    FormsDrawn (.rsaEncryptPk e input) s i 128 fun _ r =>
      match rsaPkBad (setOf i.entry) (input.take (rsaK (setOf i.entry) + 32)) with
      | some st => Rejects st r
      | none => Writes (rsaK (setOf i.entry)) r := by
  refine formsDrawn_of_runDrawOp rfl (fun _ _ => rfl) h hdraws fun t _ => ?_
  cases hbad : rsaPkBad (setOf i.entry) (input.take (rsaK (setOf i.entry) + 32)) with
  | some st =>
    simp only [hbad]
    exact failResult_rejects st
  | none =>
    simp only [hbad]
    exact ⟨rfl, beBytes_length _ _, rfl⟩

theorem rsaPrivateRaw_forms (h : Runs s e 0x13 0x76 input i) (hdraws : Draws s) :
    FormsDrawn (.rsaPrivateRaw e input) s i 128 fun _ r =>
      match firstBad (namedClsBad s i) (rsaRangeBad (setOf i.entry) (keyContent s i) input) with
      | some st => Rejects st r
      | none => Writes (rsaK (setOf i.entry)) r := by
  refine formsKeyed_of_runDrawOp (bytes := fun _ => 128) rfl h hdraws (fun _ t => loaded_refl i t) fun d t _ ht => ?_
  simp only [namedClsBad_congr ht, keyContent_congr ht]
  cases firstBad (namedClsBad s i) (rsaRangeBad (setOf i.entry) (keyContent s i) input) with
  | some st => exact failResult_rejects st
  | none => exact ⟨rfl, beBytes_length _ _, rfl⟩

/-- Settles O10, operation by operation; the search of RSA_KEYGEN moves only what its draws move. -/
theorem rsaCompletes : Obligations.rsa_completes := by
  intro s e i input candidates h₁ h₄
  refine ⟨?keygen, rsaSign_forms, ?verify, rsaDecrypt_forms, rsaEncryptPk_forms, rsaPrivateRaw_forms,
    fun hrecord => namedClsBad_of_no_record hrecord s⟩
  case keygen =>
    intro b x h hdraws hb hx
    have hexec := execRsaKeygen_runs candidates h hdraws
    obtain rfl : b = rsaStart i s := hb
    rw [show searchPrimes i (contextBits i (rsaStart i s)) candidates (rsaStart i s) = x from hx.symm] at hexec
    have hdrew : DrewBytes (rsaStart i s) x.2 := hx ▸ searchPrimes_drewBytes i _ candidates (rsaStart i s)
    refine ⟨hdrew, fun htwo => ?_, fun hone => ?_⟩
    · have hruns : x.2.runs = s.runs := (congrArg State.runs hdrew).trans (rsaStart_runs i s)
      have hout : 32 + rsaK (setOf i.entry) = [0, 288, 416, 544, 1056].getD (setOf i.entry) 0 := by
        interval_cases setOf i.entry <;> rfl
      have hcontent : 32 + 5 * rsaK (setOf i.entry) + rsaK (setOf i.entry) / 2 = [0, 1440, 2144, 2848, 5664].getD (setOf i.entry) 0 := by
        interval_cases setOf i.entry <;> rfl
      refine ⟨rsaKeygenResult i x.1 x.2, ?_, ?_⟩
      · rw [hexec]
        dsimp only
        rw [if_pos htwo, formResult_eq_formed]
      · rw [← hout, ← hcontent]
        exact rsaKeygenResult_newKey h₄ hruns x.1
    · refine ⟨modContext i (fun c => { c with primes := x.1 }) x.2, ?_, modContext_frame i _ x.2, fun ht => foundPrimes_modContext ht x.1 x.2⟩
      rw [hexec]
      dsimp only
      rw [if_neg (by omega)]
  case verify =>
    rintro verify bad key msgSig n (⟨rfl, h, rfl, rfl, rfl⟩ | ⟨rfl, h, hkey, rfl, hmsg⟩) hn
    · exact rsaVerify_forms h hn
    · exact rsaVerifyPk_forms hkey hmsg h hn

end

end Sys2Proof.Machine
end

section
/-! PROOFS. Draws that meet a failed bobbin (R384): the item ends, and the bobbin stays as it is. -/

namespace Sys2Proof.Machine

open Sys2Proof.Claims

/-! ### The ends of items leave the bobbin alone -/

theorem foldl_bobbin {α : Type} {f : State → α → State} (h : ∀ s a, (f s a).bobbin = s.bobbin) (l : List α) (s : State) :
    (l.foldl f s).bobbin = s.bobbin :=
  List.foldlRecOn (motive := fun u : State => u.bobbin = s.bobbin) l f rfl fun u hu a _ => (h u a).trans hu

@[simp] theorem eraseTally_bobbin (sel : TallyRecord → Bool) (s : State) : (eraseTally sel s).bobbin = s.bobbin := by
  unfold eraseTally
  dsimp only
  split <;> rfl

@[simp] theorem wipeRun_bobbin (r : KeyRun) (erase : Bool) (s : State) : (wipeRun r erase s).bobbin = s.bobbin := by
  unfold wipeRun
  extract_lets s₁ s₂
  have h₂ : s₂.bobbin = s.bobbin := by
    unfold s₂ s₁
    split <;> rfl
  split
  · exact (eraseTally_bobbin _ s₂).trans h₂
  · exact h₂

@[simp] theorem settleRuns_bobbin (s : State) : (settleRuns s).bobbin = s.bobbin := by
  refine foldl_bobbin (fun s r => ?_) _ s
  have hunused : (if r.claimed.isSome && (runUsers s r).isEmpty then wipeRun r true s else s).bobbin = s.bobbin := by
    split
    · exact wipeRun_bobbin r true s
    · rfl
  dsimp only
  split
  · split
    · split
      · split
        · exact wipeRun_bobbin r true s
        · rfl
      · exact hunused
    · exact hunused
  · exact hunused

@[simp] theorem endItem_bobbin (id : Nat) (d : Done) (eng : Nat) (s : State) : (endItem id d eng s).bobbin = s.bobbin :=
  settleRuns_bobbin _

@[simp] theorem failItem_bobbin (st : Status) (i : Item) (s : State) : (failItem st i s).bobbin = s.bobbin := endItem_bobbin _ _ _ _

@[simp] theorem modContext_bobbin (i : Item) (f : JobContext → JobContext) (s : State) : (modContext i f s).bobbin = s.bobbin := by
  rw [modContext_frame]

@[simp] theorem leaveStores_bobbin (i : Item) (s : State) : (leaveStores i s).bobbin = s.bobbin := by
  unfold leaveStores
  extract_lets s₁ s₂
  have h₁ : s₁.bobbin = s.bobbin := by
    unfold s₁
    split
    · split <;> rfl
    · rfl
  have h₂ : s₂.bobbin = s.bobbin := (modContext_bobbin i _ s₁).trans h₁
  split <;> exact h₂

@[simp] theorem leaveUnits_bobbin (i : Item) (s : State) : (leaveUnits i s).bobbin = s.bobbin := by
  unfold leaveUnits
  dsimp only
  split <;> exact leaveStores_bobbin i s

@[simp] theorem failInService_bobbin (st : Status) (cycles : Nat) (i : Item) (s : State) :
    (failInService st cycles i s).bobbin = s.bobbin :=
  (endItem_bobbin _ _ _ _).trans (leaveUnits_bobbin i s)

@[simp] theorem resumeTrestle_bobbin (i : Item) (s : State) : (resumeTrestle i s).bobbin = s.bobbin := by
  unfold resumeTrestle
  split
  · rfl
  · split
    · rfl
    · exact foldl_bobbin (f := fun s (x : Item) => holdTrestle _ (moduleIndex x.port x.slice) s) (fun _ _ => rfl) _ s

theorem settling_bobbin {s t : State} (h : Frame.settling.Keeps s t) : t.bobbin = s.bobbin := by
  rw [h]
  rfl

@[simp] theorem settleAfterLeave_bobbin (s : State) : (settleAfterLeave s).bobbin = s.bobbin :=
  settling_bobbin (settleAfterLeave_keepsSettling s)

/-! ### An item whose draw fails -/

section

variable {s : State} {e : Engine} {i : Item} {fam op : Nat} {input : Bytes}

/-- The item's early end, with what waited tried again. -/
theorem entropyFail_ended (hs : IdsApart s) (hi : servingOn s e = some i) :
    Ended (settleAfterLeave (resumeTrestle i (failInService .entropyFail 0 i s))) i.id .entropyFail := by
  have habides := standsEnded_abides .entropyFail
  have hended : Every i.id _ (failInService .entropyFail 0 i s) := failInService_standsEnded .entropyFail 0 (mem_of_servingOn hi)
  have hapart : Apart 0 (numbersOf (resumeTrestle i (failInService .entropyFail 0 i s)).heddle) := by
    rw [resumeTrestle_numbers, failInService_numbers]
    exact idsApart_iff.mp hs
  exact StandsEnded.ended ((hended.resumeTrestle habides i).settleAfterLeave hapart habides)

/-- The command ends its item with ENTROPY_FAIL and leaves the bobbin as it is. -/
def DrawFails (c : Instr) (s : State) (i : Item) : Prop :=
  ∃ t, exec c s = .next t ∧ Ended t i.id .entropyFail ∧ t.bobbin = s.bobbin

/-- An operation that draws fails so while the bobbin does not serve. -/
theorem drawFails_of_runDrawOp {c : Instr} {bytes : Item → Nat} {f : Item → Bytes → State → ItemResult × State}
    (hc : exec c s = .next (runDrawOp fam op bytes e input f s)) (hs : IdsApart s) (hb : s.bobbin.state ≠ .serving)
    (h : Runs s e fam op input i) : DrawFails c s i := by
  obtain ⟨hi, hfam, hop, hres, hlen⟩ := h
  refine ⟨settleAfterLeave (resumeTrestle i (failInService .entropyFail 0 i s)), ?_, entropyFail_ended hs hi, by simp⟩
  rw [hc, runDrawOp_fails hi hfam hop hres hlen hb]

/-- A prediction-resistant RANDOM does not wait for a seed that will not come. -/
theorem execRandom_of_not_serving (hb : s.bobbin.state ≠ .serving) (hi : servingOn s e = some i) :
    exec (.random e) s = .next (runDrawOp 0x40 0x01 (fun i => randomLen i.entry) e [] (fun _ d s => (okResult d, s)) s) := by
  change execRandom e s = _
  simp [execRandom, hi, hb]

end

/-- Settles O54, operation by operation. -/
theorem drawsFail : Obligations.draws_fail := by
  intro s e i input fam op c hs hb hc inp hinp h
  simp only [List.mem_cons, List.not_mem_nil, or_false, Prod.mk.injEq] at hc
  rcases hc with ⟨rfl, rfl, rfl⟩ | ⟨rfl, rfl, rfl⟩ | ⟨rfl, rfl, rfl⟩ | ⟨rfl, rfl, rfl⟩ | ⟨rfl, rfl, rfl⟩ | ⟨rfl, rfl, rfl⟩ | ⟨rfl, rfl, rfl⟩ |
    ⟨rfl, rfl, rfl⟩ | ⟨rfl, rfl, rfl⟩ | ⟨rfl, rfl, rfl⟩ | ⟨rfl, rfl, rfl⟩ | ⟨rfl, rfl, rfl⟩ | ⟨rfl, rfl, rfl⟩ | ⟨rfl, rfl, rfl⟩ | ⟨rfl, rfl, rfl⟩ |
    ⟨rfl, rfl, rfl⟩ | ⟨rfl, rfl, rfl⟩ | ⟨rfl, rfl, rfl⟩ | ⟨rfl, rfl, rfl⟩ | ⟨rfl, rfl, rfl⟩
  pick_goal 20
  · obtain rfl : inp = [] := by simpa using hinp
    exact drawFails_of_runDrawOp (execRandom_of_not_serving hb h.1) hs hb h
  all_goals
    simp only [List.mem_cons, List.not_mem_nil, reduceCtorEq, or_false, false_or, and_true, and_false, not_true_eq_false,
      not_false_eq_true] at hinp
    subst hinp
    exact drawFails_of_runDrawOp rfl hs hb h

end Sys2Proof.Machine
end

section
/-! PROOFS. Key management: imports, sealed records, deletion, reports and restrictions (R399, R400, R402, R403, R412). -/

namespace Sys2Proof.Machine

open Sys2Proof.Claims

/-! ### Sealed records (R399) -/

theorem leNat_leBytes (n v : Nat) : leNat (leBytes n v) = v % 256 ^ n := by
  induction n generalizing v with
  | zero => simp [leBytes, leNat, Nat.mod_one]
  | succ n ih =>
    have hcons : leBytes (n + 1) v = BitVec.ofNat 8 v :: leBytes n (v / 256) := by
      simp only [leBytes, List.range_succ_eq_map, List.map_cons, List.map_map, Nat.mul_zero, Nat.shiftRight_zero]
      congr 1
      refine List.map_congr_left fun k _ => ?_
      simp only [Function.comp_apply, Nat.shiftRight_eq_div_pow, Nat.div_div_eq_div_mul]
      rw [show 2 ^ (8 * (k + 1)) = 256 * 2 ^ (8 * k) by rw [Nat.mul_succ, Nat.pow_add, Nat.mul_comm]]
    calc leNat (leBytes (n + 1) v) = v % 256 + 256 * (v / 256 % 256 ^ n) := by rw [hcons, leNat, ih, BitVec.toNat_ofNat]
      _ = v % (256 * 256 ^ n) := Nat.mod_mul.symm
      _ = v % 256 ^ (n + 1) := by rw [Nat.pow_succ']

section

variable {s t : State} {e : Engine} {i : Item} {k : KeyRun} {iv input : Bytes}

/-- The fields of a header that its reader uses: the magic, the record's length and the initialisation vector. -/
theorem recordHeader_fields (s : State) (i : Item) (k : KeyRun) (iv : Bytes) :
    ∃ version fields, version.length = 4 ∧ fields.length = 32 ∧
      recordHeader s i k iv = (ascii "AQSK" ++ version) ++ (leBytes 4 (80 + k.content.length) ++ (fields ++ (iv ++ zeros 8))) :=
  ⟨leBytes 2 1 ++ zeros 2,
    leBytes 1 k.family ++ leBytes 1 k.set ++ leBytes 1 k.kind ++ zeros 1 ++ leBytes 4 k.policy.toNat ++ leBytes 4 k.length ++
      leBytes 8 (itemUid s i).toNat ++ leBytes 8 (if k.kind == 4 then k.keyId else 0) ++ leBytes 4 (draftFamilyId s),
    by simp [zeros], by simp [zeros], by simp only [recordHeader, List.append_assoc]⟩

/-- A record as SEAL writes it: its header, the ciphertext and the tag. -/
def sealedRecord (s : State) (i : Item) (k : KeyRun) (iv : Bytes) : Bytes :=
  recordHeader s i k iv ++ gcmCipher (wrapKey s (itemUid s i)) iv k.content ++
    gcmTag (wrapKey s (itemUid s i)) iv (recordHeader s i k iv) (gcmCipher (wrapKey s (itemUid s i)) iv k.content)

theorem gcmTag_length (key iv aad ct : Bytes) : (gcmTag key iv aad ct).length = 16 := primBytes_length _ _ _

theorem recordHeader_length (hiv : iv.length = 12) : (recordHeader s i k iv).length = 64 := by
  obtain ⟨version, fields, hversion, hfields, hheader⟩ := recordHeader_fields s i k iv
  rw [hheader]
  simp [ascii, zeros, hversion, hfields, hiv]

theorem sealedRecord_length (hiv : iv.length = 12) : (sealedRecord s i k iv).length = 80 + k.content.length := by
  simp only [sealedRecord, List.length_append, recordHeader_length hiv, gcmCipher_length, gcmTag_length]
  omega

theorem sealedRecord_magic : (sealedRecord s i k iv).take 4 = ascii "AQSK" := by
  obtain ⟨version, fields, -, -, hheader⟩ := recordHeader_fields s i k iv
  rw [sealedRecord, hheader]
  simp only [List.append_assoc]
  exact List.take_left' (by decide)

theorem sealedRecord_contentLen (hlen : 80 + k.content.length < 2 ^ 32) : recContentLen (sealedRecord s i k iv) = k.content.length := by
  obtain ⟨version, fields, hversion, -, hheader⟩ := recordHeader_fields s i k iv
  have hsize : slice_ (sealedRecord s i k iv) 8 4 = leBytes 4 (80 + k.content.length) := by
    rw [sealedRecord, hheader]
    simp only [List.append_assoc]
    rw [← List.append_assoc]
    exact slice_append (by simp [ascii, hversion]) (leBytes_length _ _)
  rw [recContentLen, recField, hsize, leNat_leBytes, Nat.mod_eq_of_lt (by simpa using hlen)]
  omega

theorem sealedRecord_iv (hiv : iv.length = 12) : slice_ (sealedRecord s i k iv) 44 12 = iv := by
  obtain ⟨version, fields, hversion, hfields, hheader⟩ := recordHeader_fields s i k iv
  have hparts (rest : Bytes) : recordHeader s i k iv ++ rest =
      (ascii "AQSK" ++ version ++ leBytes 4 (80 + k.content.length) ++ fields) ++ (iv ++ (zeros 8 ++ rest)) := by
    rw [hheader]
    simp only [List.append_assoc]
  rw [sealedRecord, List.append_assoc, hparts]
  exact slice_append (by simp [ascii, hversion, hfields]) hiv

/-- A record opens to the content that was sealed. -/
theorem openRecord_sealedRecord (hiv : iv.length = 12) (hlen : 80 + k.content.length < 2 ^ 32) :
    openRecord (wrapKey s (itemUid s i)) (sealedRecord s i k iv) = some k.content := by
  have hheader := recordHeader_length (s := s) (i := i) (k := k) hiv
  have haad : (sealedRecord s i k iv).take 64 = recordHeader s i k iv := by
    rw [sealedRecord, List.append_assoc]
    exact List.take_left' hheader
  have hct : slice_ (sealedRecord s i k iv) 64 k.content.length = gcmCipher (wrapKey s (itemUid s i)) iv k.content := by
    rw [sealedRecord, List.append_assoc]
    exact slice_append hheader (gcmCipher_length _ _ _)
  have htag : slice_ (sealedRecord s i k iv) (64 + k.content.length) 16 =
      gcmTag (wrapKey s (itemUid s i)) iv (recordHeader s i k iv) (gcmCipher (wrapKey s (itemUid s i)) iv k.content) := by
    rw [sealedRecord, slice_, List.drop_left' (by simp [hheader]), List.take_of_length_le (gcmTag_length _ _ _ _).le]
  rw [openRecord, sealedRecord_contentLen hlen, sealedRecord_iv hiv, haad, hct, htag, gcmOpen_gcmCipher]

/-! ### The operations -/

/-- An import is refused with what its checks found, and otherwise makes the key. -/
theorem importResult_result {kind fam set keyId : Nat} {policy : Word} {content : Bytes} {bad : Option Status} (ht : t.runs = s.runs) :
    match bad with
    | some st => Rejects st (importResult kind fam set policy content keyId bad i t)
    | none => (importResult kind fam set policy content keyId bad i t).status = .ok ∧
        (importResult kind fam set policy content keyId bad i t).output = [] ∧
        (importResult kind fam set policy content keyId bad i t).word = reservedHandle s i ∧
        CommitAct.run kind fam set policy content keyId (kind == 4) ∈ (importResult kind fam set policy content keyId bad i t).acts := by
  cases bad with
  | some st => exact failResult_rejects st
  | none =>
    dsimp only [importResult]
    split
    · exact ⟨rfl, rfl, reservedHandle_congr ht i, by simp [cacheNew]⟩
    · exact ⟨rfl, rfl, reservedHandle_congr ht i, by simp⟩

theorem importPublic_forms (h : Runs s e 0x30 0x80 input i) :
    Forms (.importPublic e input) s i fun r =>
      match publicBad (targetFam i.entry) (setOf i.entry) input with
      | some st => Rejects st r
      | none => r.status = .ok ∧ r.output = [] ∧ r.word = reservedHandle s i ∧
          CommitAct.run 2 (targetFam i.entry) (setOf i.entry) (newPolicy (policyOperand i.entry) 2 (targetFam i.entry) 2 false)
            (publicContent (targetFam i.entry) (setOf i.entry) input) 0 false ∈ r.acts :=
  forms_of_runOp rfl (fun _ => rfl) h fun _ ht => importResult_result ht

theorem importPrivate_forms (h : Runs s e 0x30 0x81 input i) :
    Forms (.importPrivate e input) s i fun r =>
      match importPrivateBad (targetFam i.entry) (setOf i.entry) (privateContent (targetFam i.entry) (setOf i.entry) input) with
      | some st => Rejects st r
      | none => r.status = .ok ∧ r.output = [] ∧ r.word = reservedHandle s i ∧
          CommitAct.run 1 (targetFam i.entry) (setOf i.entry) (newPolicy (policyOperand i.entry) 1 (targetFam i.entry) 2 false)
            (privateContent (targetFam i.entry) (setOf i.entry) input) 0 false ∈ r.acts :=
  forms_of_runOp rfl (fun _ => rfl) h fun _ ht => importResult_result ht

/-- What the checks of a sealed record's content find (R402, R412). -/
def unsealBad (s : State) (i : Item) (rec : Bytes) : Option Status :=
  if recKind rec = 1 then privateBad (recFamily rec) (recSet rec) (keyContent s i)
  else if recKind rec = 2 then publicBad (recFamily rec) (recSet rec) (keyContent s i)
  else if recKind rec = 4 ∧ adopted s i (recKeyId rec) = false then some .keyHandleInvalid else none

theorem unseal_forms {rec : Bytes} (h : Runs s e 0x30 0x82 [] i) (hrec : i.record = some rec) :
    Forms (.unseal e) s i fun r =>
      match unsealBad s i rec with
      | some st => Rejects st r
      | none => r.status = .ok ∧ r.output = [] ∧ r.word = reservedHandle s i ∧
          CommitAct.run (recKind rec) (recFamily rec) (recSet rec) (recPolicy rec) (keyContent s i) (recKeyId rec) (recKind rec == 4) ∈ r.acts := by
  obtain ⟨hs, hfam, hop, hres, hlen⟩ := h
  have hload := loadUnit_loaded i [] [] s
  have hkeeps := loaded_keepsKeys hload
  refine ⟨importResult (recKind rec) (recFamily rec) (recSet rec) (recPolicy rec) (keyContent s i) (recKeyId rec) (unsealBad s i rec) i
    (loadUnit i [] [] s), loadUnit i [] [] s, [], ?_, hlen, hload, importResult_result hkeeps.runs⟩
  have hadopted : adopted (loadUnit i [] [] s) i (recKeyId rec) = adopted s i (recKeyId rec) := by
    rw [hload.1]
    rfl
  change execUnseal e s = _
  rw [execUnseal, runOp_runs hs hfam hop hres hlen, ← formResult_eq_formed]
  simp only [hrec, hadopted, keyContent_congr hkeeps, beq_iff_eq, Bool.and_eq_true, Bool.not_eq_true', unsealBad]

theorem loaded_itemRun (h : Loaded i s t) : itemRun t i = itemRun s i := by
  rw [h.1]
  rfl

/-- A draw and what the unit loads change nothing that a record is made of. -/
theorem drawn_loaded_sealedRecord {n : Nat} (h : Loaded i (drawn i n s) t) (iv : Bytes) : sealedRecord t i k iv = sealedRecord s i k iv := by
  rw [h.1]
  rfl

theorem seal_forms (h : Runs s e 0x30 0x83 [] i) (hdraws : Draws s) (hk : itemRun s i = some k) :
    FormsDrawn (.seal e) s i 12 fun iv r =>
      if deletedBy k i.id = true then Rejects .keyHandleInvalid r
      else r = { status := .ok, output := sealedRecord s i k iv, word := 80 + k.content.length } := by
  obtain ⟨hs, hfam, hop, hres, hlen⟩ := h
  have hload := loadUnit_loaded i [] (drawBytes i 12 s) (drawn i 12 s)
  have hrun : itemRun (loadUnit i [] (drawBytes i 12 s) (drawn i 12 s)) i = some k := (loaded_itemRun hload).trans hk
  refine ⟨if deletedBy k i.id = true then failResult .keyHandleInvalid else
    { status := .ok, output := sealedRecord s i k (drawBytes i 12 s), word := 80 + k.content.length },
    loadUnit i [] (drawBytes i 12 s) (drawn i 12 s), [], ?_, hlen, hload, ?_⟩
  · change execSeal e s = _
    rw [execSeal, runDrawOp_runs hs hfam hop hres hlen hdraws, itemDraw_eq_drawn, ← formResult_eq_formed, ← drawn_loaded_sealedRecord hload]
    simp only [show (itemDraw i 12 s).1 = drawBytes i 12 s from rfl, hrun]
    split <;> rfl
  · split
    · exact failResult_rejects _
    · rfl

theorem delete_forms (h : Runs s e 0x30 0x84 [] i) (hk : itemRun s i = some k) :
    Forms (.delete e) s i fun r =>
      if i.sealedFirst = true ∨ deletedBy k i.id = true then Rejects .keyHandleInvalid r else r = { status := .ok, acts := [.delete k.first] } := by
  obtain ⟨hs, hfam, hop, hres, hlen⟩ := h
  have hload := loadUnit_loaded i [] [] s
  have hrun : itemRun (loadUnit i [] [] s) i = some k := (loaded_itemRun hload).trans hk
  refine ⟨if i.sealedFirst = true ∨ deletedBy k i.id = true then failResult .keyHandleInvalid else { status := .ok, acts := [.delete k.first] },
    loadUnit i [] [] s, [], ?_, hlen, hload, ?_⟩
  · change execDelete e s = _
    rw [execDelete, runOp_runs hs hfam hop hres hlen, ← formResult_eq_formed]
    simp only [hrun, Bool.or_eq_true]
    split <;> rfl
  · split
    · exact failResult_rejects _
    · rfl

theorem keyQuery_forms (h : Runs s e 0x30 0x85 [] i) (hk : itemRun s i = some k) :
    Forms (.keyQuery e) s i fun r => Writes 16 r ∧ r.output.take 3 = leBytes 1 k.kind ++ leBytes 1 k.family ++ leBytes 1 k.set ∧
      slice_ r.output 8 4 = leBytes 4 k.policy.toNat := by
  refine formsLoaded_of_runOp (c := .keyQuery e)
    (f := fun i s => match itemRun s i with | some r => okResult (keyReport r) | none => failResult .keyHandleInvalid) rfl h fun t ht => ?_
  simp only [(loaded_itemRun ht).trans hk]
  refine ⟨⟨rfl, by simp [okResult, keyReport, zeros], rfl⟩, ?_, ?_⟩
  · dsimp only [okResult, keyReport]
    rw [List.append_assoc, List.append_assoc, List.append_assoc]
    exact List.take_left' (by simp)
  · dsimp only [okResult, keyReport]
    rw [List.append_assoc]
    refine slice_append ?_ (leBytes_length _ _)
    simp [zeros]

end

/-- Settles O11, operation by operation. -/
theorem keyManagementCompletes : Obligations.key_management_completes := by
  intro s e i input
  refine ⟨importPublic_forms, importPrivate_forms, fun _ h hrec => unseal_forms h hrec, fun k h hdraws hk => ?_,
    fun _ h hk => delete_forms h hk, fun _ h hk => keyQuery_forms h hk, fun h => forms_of_runOp rfl (fun _ => rfl) h fun _ _ => rfl⟩
  obtain ⟨r, t, inp, hexec, hlen, hload, hr⟩ := seal_forms h hdraws hk
  have hiv : (drawBytes i 12 s).length = 12 := unitDraw_length i 12 s
  refine ⟨r, t, inp, hexec, hlen, hload, ?_⟩
  split
  · rwa [if_pos ‹_›] at hr
  · rw [if_neg ‹_›] at hr
    subst hr
    exact ⟨_, rfl, sealedRecord_length hiv, rfl, rfl, sealedRecord_magic, rfl, openRecord_sealedRecord hiv⟩

end Sys2Proof.Machine
end

section
/-! PROOFS. Digest slots: their allocation, data, finalisation, result and release, and the cores that take their blocks (R357 to R367). -/

namespace Sys2Proof.Machine

open Sys2Proof.Claims

section

variable {s t : State} {p : PortId} {d : DigestSlot} {v : Word} {off n : Nat} {bs : Bytes} {core : FarmCore}

/-! ### Allocation (R358) -/

theorem modDigest_ne {j : DigestSlot} (hj : j ≠ d) (f : DigestSlotState → DigestSlotState) (s : State) :
    (modDigest d f s).farm.slots[j.val] = s.farm.slots[j.val] :=
  Vector.getElem_set_ne d.isLt j.isLt fun hval => hj (Fin.ext hval.symm)

/-- Where some slot is free, the one picked is. -/
theorem pickSlot_free (h : allocReason s p (fieldOf v 24 8) (fieldOf v 8 8) = 0) : s.farm.slots[(pickSlot s).1.val].state = .free := by
  have hfree : ∃ k : DigestSlot, s.farm.slots[k.val].state = .free := by
    unfold allocReason at h
    split at h
    · cases h
    · split at h
      · cases h
      · split at h
        · cases h
        · split at h
          · cases h
          · split at h
            · cases h
            · next hall =>
              simp only [List.all_eq_true, Vector.mem_toList_iff, Bool.not_eq_true', beq_eq_false_iff_ne, not_forall, not_not] at hall
              obtain ⟨x, hx, hstate⟩ := hall
              obtain ⟨k, hk, rfl⟩ := Vector.getElem_of_mem hx
              exact ⟨⟨k, hk⟩, hstate⟩
  obtain ⟨k, hk⟩ := hfree
  have hmem : k ∈ (fins 32).filter fun d => (slotOf s d).state == .free := List.mem_filter.mpr ⟨mem_fins k, by simp [slotOf, hk]⟩
  have hpos := List.length_pos_of_mem hmem
  have hpick : (pickSlot s).1 ∈ (fins 32).filter fun d => (slotOf s d).state == .free := by
    unfold pickSlot
    dsimp only
    rw [List.getD_eq_getElem _ _ (Nat.mod_lt _ hpos)]
    exact List.getElem_mem _
  simpa [slotOf] using (List.mem_filter.mp hpick).2

theorem slotAlloc_takes (hw : WriteReaches s p) (h : allocReason s p (fieldOf v 24 8) (fieldOf v 8 8) = 0) :
    ∃ t k, exec (.slotAlloc p v) s = .next t ∧ s.farm.slots[(k : DigestSlot).val].state = .free ∧ t.ports[p.val].dgfSlot = k.val + 1 ∧
      t.ports[p.val].dgfReason = 0 ∧ t.farm.slots[k.val].state = .absorbing ∧ t.farm.slots[k.val].alg = fieldOf v 24 8 ∧
      t.farm.slots[k.val].port = p ∧ t.farm.slots[k.val].slice.val = fieldOf v 8 8 ∧ t.farm.slots[k.val].gen = s.farm.slots[k.val].gen + 1 ∧
      t.farm.slots[k.val].absorbed = 0 ∧ ∀ j : DigestSlot, j ≠ k → t.farm.slots[j.val] = s.farm.slots[j.val] := by
  have hslice : fieldOf v 8 8 % 256 = fieldOf v 8 8 := Nat.mod_eq_of_lt (Nat.mod_lt _ (by decide))
  have hfarm : (pickSlot s).2.farm = s.farm := rfl
  refine ⟨_, (pickSlot s).1, congrArg Host.Outcome.next (onWrite_reaches hw), pickSlot_free h, ?_⟩
  simp only [h, if_true, modPort_at, modPort_farm, modDigest_at, hfarm, hslice, true_and]
  intro j hj
  exact (modDigest_ne hj _ _).trans (congrArg (fun f : Farm => f.slots[j.val]) hfarm)

/-! ### Data, finalisation and release (R360, R362, R367) -/

/-- The window takes aligned runs of 4 to 512 bytes. -/
def WindowWrite (off : Nat) (bs : Bytes) : Prop := off < 4096 ∧ off % 4 = 0 ∧ 4 ≤ bs.length ∧ bs.length ≤ 512 ∧ bs.length % 4 = 0

theorem execDigestDataWrite_reaches (hw : WriteReaches s p) (howns : ownsSlot s p d = true) (hwindow : WindowWrite off bs) :
    exec (.digestDataWrite p d off bs) s = .next (
      if dataOk (slotOf s d) off bs.length = true then modDigest d (fun x => { x with absorbed := x.absorbed + bs.length, data := x.data ++ bs }) s
      else if (slotOf s d).broken = true then modDigest d (fun x => { x with broken := true, lateWrite := x.lateWrite || !(x.state == .absorbing) }) s
        else raise0 0x0EB (modDigest d (fun x => { x with broken := true, lateWrite := x.lateWrite || !(x.state == .absorbing) }) s)) := by
  change execDigestDataWrite p d off bs s = _
  unfold execDigestDataWrite
  unfold WindowWrite at hwindow
  dsimp only
  rw [if_pos hwindow, onWrite_reaches hw, howns]
  rfl

/-- A write that does not meet R360's conditions breaks the slot, and after FINAL marks it besides (R363). -/
theorem digestDataWrite_breaks (hw : WriteReaches s p) (howns : ownsSlot s p d = true) (hwindow : WindowWrite off bs)
    (hbad : dataOk (slotOf s d) off bs.length = false) :
    ∃ t, exec (.digestDataWrite p d off bs) s = .next t ∧
      t.farm.slots = s.farm.slots.set d.val { slotOf s d with broken := true, lateWrite := (slotOf s d).lateWrite || !((slotOf s d).state == .absorbing) } := by
  refine ⟨_, execDigestDataWrite_reaches hw howns hwindow, ?_⟩
  rw [if_neg (by simp [hbad])]
  split
  · rfl
  · simp only [raise0, raise_farm]
    rfl

theorem slotReclaimed_frees (h : (slotOf s d).state ≠ .free) :
    ∃ t, exec (.slotReclaimed d false) s = .next t ∧ t.farm.slots = s.farm.slots.set d.val (freedSlot (slotOf s d)) := by
  refine ⟨_, congrArg Host.Outcome.next (if_neg (by simp [h])), ?_⟩
  simp only [raise0, raise_farm]
  rfl

/-! ### The cores (R357) -/

theorem mem_rotation {n : Nat} (last : Nat) (h₁ : 1 ≤ n) (h₂ : n ≤ 40) : n ∈ rotation last := by
  simp only [rotation, List.mem_append, List.mem_map, List.mem_range]
  by_cases h : n ≤ last
  · exact .inr ⟨n - 1, by omega, by omega⟩
  · exact .inl ⟨n - last - 1, by omega, by omega⟩

/-- What a core may be offered: a slot with a block ready for it, or a one-shot item in service. -/
theorem farmOffer_eq_some {u : FarmUser} (h : farmOffer s core n = some u) :
    (∃ k : DigestSlot, n = k.val + 1 ∧ u = .slot k (slotOf s k).gen ∧ coreServes core (slotOf s k).alg = true ∧ blockReady (slotOf s k) = true) ∨
      ∃ k i, servingOn s (.digest k) = some i ∧ u = .item i.id := by
  unfold farmOffer at h
  split at h
  · next hn =>
    dsimp only at h
    split at h
    · next hready =>
      obtain ⟨hserves, hblock⟩ := Bool.and_eq_true_iff.mp hready
      exact .inl ⟨⟨n - 1, by omega⟩, (Nat.sub_add_cancel hn.1).symm, (Option.some.inj h).symm, hserves, hblock⟩
    · cases h
  · split at h
    · split at h
      · next i hi =>
        split at h
        · exact .inr ⟨_, i, hi, (Option.some.inj h).symm⟩
        · cases h
      · cases h
    · cases h

theorem farmOffer_of_ready (hserves : coreServes core (slotOf s d).alg = true) (hready : blockReady (slotOf s d) = true) :
    farmOffer s core (d.val + 1) = some (.slot d (slotOf s d).gen) := by
  have hd := d.isLt
  unfold farmOffer
  rw [dif_pos ⟨by omega, by omega⟩]
  exact if_pos (by simp [hserves, hready])

/-- What a core takes it was offered, and no other core holds a block of it. -/
theorem farmNext_eq_some {m : Nat} {u : FarmUser} (h : farmNext s core = some (m, u)) :
    farmOffer s core m = some u ∧ ∀ j : Fin 15, j ≠ coreIndex core → s.farm.held[j.val] ≠ some u := by
  obtain ⟨n, -, hn⟩ := List.exists_of_findSome?_eq_some h
  split at hn
  · next u' hoffer =>
    split at hn
    · cases hn
    · next hother =>
      obtain ⟨rfl, rfl⟩ := Prod.mk.inj (Option.some.inj hn)
      refine ⟨hoffer, fun j hj hheld => hother ?_⟩
      exact List.any_eq_true.mpr ⟨j, mem_fins j, by simp [hj, hheld]⟩
  · cases hn

/-- While no core holds a block, a slot that has one ready is served. -/
theorem farmNext_isSome (hserves : coreServes core (slotOf s d).alg = true) (hready : blockReady (slotOf s d) = true)
    (hheld : ∀ j : Fin 15, s.farm.held[j.val] = none) : (farmNext s core).isSome = true := by
  refine List.findSome?_isSome_iff.mpr ⟨d.val + 1, mem_rotation _ (by omega) (by omega), ?_⟩
  have hother : inOtherCore s (coreIndex core) (.slot d (slotOf s d).gen) = false := by
    refine List.any_eq_false.mpr fun j _ => ?_
    simp [hheld j]
  simp [farmOffer_of_ready hserves hready, hother]

theorem execDigestCoreAsk_takes {m : Nat} {u : FarmUser} (h : farmNext s core = some (m, u)) :
    exec (.digestCoreAsk core) s = .next { takeBlock u s with
      farm := { (takeBlock u s).farm with
        held := (takeBlock u s).farm.held.set (coreIndex core).val (some u)
        last := (takeBlock u s).farm.last.set (coreIndex core).val m } } := by
  change execDigestCoreAsk core s = _
  simp only [execDigestCoreAsk, h]

theorem digestCoreAsk_takes {m : Nat} {u : FarmUser} (h : farmNext s core = some (m, u)) :
    ∃ t, exec (.digestCoreAsk core) s = .next t ∧ t.farm.held[(coreIndex core).val] = some u ∧ t.farm.last[(coreIndex core).val] = m ∧
      t.farm.slots = (takeBlock u s).farm.slots ∧ t.heddle = (takeBlock u s).heddle :=
  ⟨_, execDigestCoreAsk_takes h, Vector.getElem_set_self _, Vector.getElem_set_self _, rfl, rfl⟩

/-! ### Results (R362, R364) -/

theorem digestDone_completes (hstate : (slotOf s d).state = .finalising) (htaken : blocksOf (slotOf s d).alg (slotOf s d).length.toNat ≤ (slotOf s d).taken) :
    ∃ t, exec (.digestDone d) s = .next t ∧ (slotOf t d).state = .done ∧ (slotOf t d).status = 0 ∧
      (slotOf t d).result = primBytes (.digest (slotOf s d).alg) [(slotOf s d).data.take (slotOf s d).length.toNat] (digestSize (slotOf s d).alg (slotOf s d).outLen) ∧
      t = { s with farm := t.farm } := by
  refine ⟨_, congrArg Host.Outcome.next (if_pos (by simp [hstate, htaken])), ?_⟩
  simp only [slotOf, modDigest_at, true_and]
  exact ⟨rfl, rfl⟩

end

/-- Settles O44, command by command. -/
theorem digestFarmCompletes : Obligations.digest_farm_completes := by
  intro s p d v off n bs core
  refine ⟨slotAlloc_takes, ?data, ?late, ?final, ?release, slotReclaimed_frees, ?serves, ?takes, digestDone_completes, ?read⟩
  case data =>
    intro hw howns hstate h₁ h₂ h₃ h₄ h₅
    have hwindow : WindowWrite off bs := ⟨h₁, h₂, h₃, h₄, h₅⟩
    refine ⟨fun hok => ?_, fun hbad _ => ?_⟩
    · rw [execDigestDataWrite_reaches hw howns hwindow, if_pos hok]
    · obtain ⟨t, ht, hslots⟩ := digestDataWrite_breaks hw howns hwindow hbad
      exact ⟨t, ht, by simpa [hstate] using hslots⟩
  case late =>
    intro hw howns hstate h₁ h₂ h₃ h₄ h₅
    have habsorbs : ((slotOf s d).state == .absorbing) = false := by rcases hstate with h | h <;> rw [h] <;> rfl
    obtain ⟨t, ht, hslots⟩ := digestDataWrite_breaks hw howns ⟨h₁, h₂, h₃, h₄, h₅⟩ (by simp [dataOk, habsorbs])
    exact ⟨t, ht, by simpa [habsorbs] using hslots⟩
  case final =>
    intro hw howns hstate hn hok
    change execDigestFinal p d n s = _
    simp only [execDigestFinal, Nat.mod_eq_of_lt hn, onWrite_reaches hw, howns, hstate, hok]
    rfl
  case release =>
    intro hw howns
    exact congrArg Host.Outcome.next ((onWrite_reaches hw).trans (if_pos howns))
  case serves =>
    intro hserves hready hheld hnone
    obtain ⟨⟨m, u⟩, hnext⟩ := Option.isSome_iff_exists.mp (farmNext_isSome hserves hready hheld)
    obtain ⟨t, ht, hheld', hlast, hslots, -⟩ := digestCoreAsk_takes hnext
    rcases farmOffer_eq_some (farmNext_eq_some hnext).1 with ⟨k, rfl, rfl, hk, hblock⟩ | ⟨k, i, hi, -⟩
    · exact ⟨t, k, ht, hk, hblock, hslots, hlast, hheld'⟩
    · exact absurd ((hnone k).symm.trans hi) nofun
  case takes =>
    intro m u hnext
    obtain ⟨t, ht, hheld, hlast, hslots, hheddle⟩ := digestCoreAsk_takes hnext
    refine ⟨(farmNext_eq_some hnext).2, t, ht, hheld, hlast, fun id hu => ?_⟩
    subst hu
    refine ⟨hslots, fun i hi hid => ?_⟩
    rw [hheddle]
    exact List.mem_map.mpr ⟨i, hi, if_pos (beq_iff_eq.mpr hid)⟩
  case read =>
    intro hopen hstate h₁ h₂
    change execDigestResultRead p d off s = _
    simp only [execDigestResultRead, h₁, h₂, and_self, if_true, onBar_open hopen, hstate]
    rfl

end Sys2Proof.Machine
end

section
/-! PROOFS. Seeds of the bobbin's instances, and what the waiting draws of `inst16` leave of the bobbin (R376, R379). -/

namespace Sys2Proof.Machine

open Sys2Proof.Claims

/-! ### What draws from `inst16` leave -/

/-- The bobbin, the benches and SEEDED stand, but for the key and the count of `inst16` and its buffers. -/
structure Draws16 (s t : State) : Prop where
  bobbin : t.bobbin = { s.bobbin with instances := t.bobbin.instances, buffers := t.bobbin.buffers }
  others : ∀ k : InstId, k ≠ inst16 → t.bobbin.instances[k.val] = s.bobbin.instances[k.val]
  flags : t.bobbin.instances[16].instantiated = s.bobbin.instances[16].instantiated ∧
    t.bobbin.instances[16].stalled = s.bobbin.instances[16].stalled ∧ t.bobbin.instances[16].pending = s.bobbin.instances[16].pending
  benches : t.benches = s.benches
  seeded : t.mode.seeded = s.mode.seeded

namespace Draws16

variable {s t u : State}

theorem of_same (hbobbin : t.bobbin = s.bobbin) (hbenches : t.benches = s.benches) (hseeded : t.mode.seeded = s.mode.seeded) : Draws16 s t where
  bobbin := by rw [hbobbin]
  others _ _ := by rw [hbobbin]
  flags := by rw [hbobbin]; exact ⟨rfl, rfl, rfl⟩
  benches := hbenches
  seeded := hseeded

theorem refl (s : State) : Draws16 s s := of_same rfl rfl rfl

theorem trans (h : Draws16 s t) (k : Draws16 t u) : Draws16 s u where
  bobbin := by rw [k.bobbin, h.bobbin]
  others i hi := (k.others i hi).trans (h.others i hi)
  flags := by
    obtain ⟨hinst, hstall, hpend⟩ := h.flags
    obtain ⟨kinst, kstall, kpend⟩ := k.flags
    exact ⟨kinst.trans hinst, kstall.trans hstall, kpend.trans hpend⟩
  benches := k.benches.trans h.benches
  seeded := k.seeded.trans h.seeded

theorem foldl {α : Type} {f : State → α → State} (h : ∀ s a, Draws16 s (f s a)) (l : List α) (s : State) : Draws16 s (l.foldl f s) :=
  List.foldlRecOn (motive := Draws16 s) l f (refl s) fun t ht a _ => ht.trans (h t a)

theorem of_cards (h : Frame.cards.Keeps s t) : Draws16 s t := by
  rw [h]
  exact of_same rfl rfl rfl

theorem of_settling (h : Frame.settling.Keeps s t) : Draws16 s t := by
  rw [h]
  exact of_same rfl rfl rfl

theorem raise (ev : Nat) (d : BitVec 64) (s : State) : Draws16 s (raise ev d s) := of_cards (raise_keepsCards ev d s)

theorem raise0 (ev : Nat) (s : State) : Draws16 s (raise0 ev s) := raise ev 0 s

/-- A draw counts and moves the key. -/
theorem draw (n : Nat) (s : State) : Draws16 s (draw inst16 n s).2 where
  bobbin := rfl
  others k hk := Vector.getElem_set_ne inst16.isLt k.isLt fun h => hk (Fin.ext h.symm)
  flags := by
    rw [draw_inst16_instance]
    exact ⟨rfl, rfl, rfl⟩
  benches := rfl
  seeded := rfl

/-! ### Ceremonies and the waits for seeds -/

theorem deriveIdentity (s : State) : Draws16 s (deriveIdentity s) := by
  unfold Machine.deriveIdentity
  split
  · exact of_same rfl rfl rfl
  · exact refl s

theorem newDeviceRoot (s : State) : Draws16 s (newDeviceRoot s) := by
  unfold Machine.newDeviceRoot
  extract_lets d s₁ s₂
  refine trans (trans ?_ (deriveIdentity _)) (raise0 _ _)
  exact (draw 32 s).trans (of_same rfl rfl rfl)

theorem commitCeremony (kind : Nat) (ork owner : Bytes) (seq : Word) (s : State) : Draws16 s (commitCeremony kind ork owner seq s) := by
  unfold Machine.commitCeremony
  extract_lets s₁ s₂
  have h₁ : Draws16 s s₁ := by
    unfold s₁
    split
    · exact refl s
    · exact newDeviceRoot s
  refine trans ?_ (raise _ _ _)
  exact h₁.trans (of_same rfl rfl rfl)

theorem endCeremony (s : State) : Draws16 s (endCeremony s) := of_same rfl rfl rfl

theorem finishCeremony (b : CeremonyBlock) (s : State) : Draws16 s (finishCeremony b s) := by
  unfold Machine.finishCeremony
  split <;> exact (commitCeremony _ _ _ _ s).trans (endCeremony _)

theorem failCeremony (err : Nat) (s : State) : Draws16 s (failCeremony err s) := by
  unfold Machine.failCeremony
  refine trans ?_ (raise0 _ _)
  exact of_same rfl rfl rfl

theorem drawCeremony (b : CeremonyBlock) (s : State) : Draws16 s (drawCeremony b s) := by
  unfold Machine.drawCeremony
  extract_lets k i p s₁
  have hk : Draws16 s k.2 := by
    unfold k
    split
    · exact refl s
    · exact draw 32 s
  exact ((hk.trans (draw 16 k.2)).trans (draw _ i.2)).trans (of_same rfl rfl rfl)

theorem quorumFails (s : State) : Draws16 s (quorumFails (readQuorum s)) := of_cards (quorumFails_keepsCards s)

theorem runCeremony (b : CeremonyBlock) (s : State) : Draws16 s (runCeremony b s) := by
  unfold Machine.runCeremony
  extract_lets c s₁
  have h₁ : Draws16 s s₁ := of_same rfl rfl rfl
  have hquorum : Draws16 s (readQuorum s₁) := h₁.trans (of_cards (readQuorum_keepsCards s₁))
  have hfails : Draws16 s (Machine.failCeremony 6 (Machine.quorumFails (readQuorum s₁))) := (h₁.trans (quorumFails s₁)).trans (failCeremony _ _)
  clear_value s₁
  split
  · exact h₁.trans (drawCeremony b s₁)
  · split
    · exact (hquorum.trans (commitCeremony _ _ _ _ _)).trans (endCeremony _)
    · exact hfails
  · split
    · split
      · exact hquorum.trans (finishCeremony b _)
      · exact hquorum.trans (drawCeremony b _)
    · exact hfails

theorem continueCeremony (s : State) : Draws16 s (continueCeremony s) := by
  unfold Machine.continueCeremony
  split
  · split
    · exact runCeremony _ s
    · exact refl s
  · exact refl s

theorem giveNonce (p : PortId) (q : BitVec 16) (s : State) : Draws16 s (giveNonce p q s) :=
  (draw 32 s).trans (of_same rfl rfl rfl)

theorem releaseSeedWaits (s : State) : Draws16 s (releaseSeedWaits s) := by
  unfold Machine.releaseSeedWaits
  extract_lets free port s₁ waits src s₂
  have h₂ : Draws16 s s₂ := by
    unfold s₂
    refine trans ?_ (foldl (fun s c => giveNonce c.2.1 c.2.2 s) waits _)
    exact of_same rfl rfl rfl
  exact (h₂.trans (of_settling (settleAfterLeave_keepsSettling s₂))).trans (continueCeremony _)

theorem setBuffer (k : Fin 12) (bs : Bytes) (s : State) :
    Draws16 s { s with bobbin := { s.bobbin with buffers := s.bobbin.buffers.set k.val bs } } where
  bobbin := rfl
  others _ _ := rfl
  flags := ⟨rfl, rfl, rfl⟩
  benches := rfl
  seeded := rfl

theorem fillBuffers (s : State) : Draws16 s (fillBuffers s) := foldl (fun s k => (draw 128 s).trans (setBuffer k _ _)) _ s

end Draws16

/-! ### Requests for seeds (R379) -/

section

variable {s : State} {i : InstId} {rest : List InstId}

theorem requestSeed_mem (i : InstId) (s : State) : i ∈ (requestSeed i s).bobbin.seedQueue := by
  unfold requestSeed
  extract_lets s₁
  split
  · next hqueued =>
    exact List.count_pos_iff.mp (by simpa [ownQueued] using (Nat.zero_le _).trans_lt (of_decide_eq_true hqueued))
  · have hrank : seedRank s₁ i = 0 ∨ seedRank s₁ i = 1 ∨ seedRank s₁ i = 2 := by
      unfold seedRank
      dsimp only
      split
      · exact .inl rfl
      · split
        · exact .inr (.inl rfl)
        · exact .inr (.inr rfl)
    rcases hrank with h | h | h <;> simp [queueSeed, h]

theorem requestSeed_instances (i : InstId) (s : State) :
    (requestSeed i s).bobbin.instances = s.bobbin.instances.set i.val { s.bobbin.instances[i.val] with pending := true } := by
  unfold requestSeed
  dsimp only
  split <;> rfl

/-! ### A seed that arrives (R376, R379) -/

theorem takeSeed_bobbin (s : State) : (takeSeed s).2 = { s with bobbin := { s.bobbin with
    calls := (takeSeed s).2.bobbin.calls, lastBlock := (takeSeed s).2.bobbin.lastBlock, nextPair := (takeSeed s).2.bobbin.nextPair
    spare := (takeSeed s).2.bobbin.spare } } := by
  unfold takeSeed
  split <;> rfl

theorem takeSeed_queue (s : State) : (takeSeed s).2.bobbin.seedQueue = s.bobbin.seedQueue := by rw [takeSeed_bobbin]

theorem takeSeed_instances (s : State) : (takeSeed s).2.bobbin.instances = s.bobbin.instances := by rw [takeSeed_bobbin]

/-- The seed depends on the conditioner alone, not on the queue. -/
theorem takeSeed_congr {t : State} (h : t.bobbin = s.bobbin) (queue : List InstId) (pred : Option Nat) :
    (takeSeed { t with bobbin := { t.bobbin with seedQueue := queue, predSeed := pred } }).1 = (takeSeed s).1 := by
  rw [h]
  unfold takeSeed
  dsimp only
  split <;> rfl

theorem seedInstance_congr {t : State} (h : t.fuses = s.fuses) (i : InstId) (seed : Bytes) (x : DrbgInstance) :
    seedInstance t i seed x = seedInstance s i seed x := by
  simp only [seedInstance, personalisation, h]

/-- The DRBG at the head has its seed, and its request has left the queue. -/
def appliedSeed (i : InstId) (rest : List InstId) (s : State) : State :=
  let x := s.bobbin.instances[i.val]
  let s := if x.instantiated && decide (2 ^ 21 < x.count) then raise0 0x0E4 s else s
  let pred := predArrives s i
  let left := if pred then none else if i == inst16 then s.bobbin.predSeed.map (fun n => n - 1) else s.bobbin.predSeed
  let d := takeSeed { s with bobbin := { s.bobbin with seedQueue := rest, predSeed := left } }
  let stretch := if x.instantiated then max x.stretchMax (stretchOf x.count) else x.stretchMax
  modInstance i (fun y => { seedInstance s i d.1 y with stretchMax := stretch, pending := pred && y.pending }) d.2

/-- What follows a seed: the buffers fill, a parked bench's DRBG stands again, and what waited for `inst16` goes on. -/
def afterSeed (i : InstId) (instantiated : Bool) (s : State) : State :=
  let s := if i == inst16 && !instantiated then fillBuffers s else s
  let s := if h : i.val < 16 then
      (if instantiated then s else modBench ⟨i.val, h⟩ (fun b => { b with needsSeed := false }) s)
    else s
  if i == inst16 && s.mode.seeded then releaseSeedWaits s else continueCeremony s

theorem execReseedApplied_applies (hruns : testsRun s = true) (hqueue : s.bobbin.seedQueue = i :: rest) (hnew : seedRepeats s = false) :
    exec (.reseedApplied i) s = .next (afterSeed i s.bobbin.instances[i.val].instantiated (appliedSeed i rest s)) := by
  change execReseedApplied i s = _
  simp only [execReseedApplied, hqueue, beq_self_eq_true, hruns, hnew, Bool.and_false, Bool.and_true, Bool.false_eq_true, if_false, if_true]
  rfl

theorem appliedSeed_fields (i : InstId) (rest : List InstId) (s : State) : (appliedSeed i rest s).bobbin.seedQueue = rest ∧
    ∃ stretch, (appliedSeed i rest s).bobbin.instances[i.val] =
      { seedInstance s i (takeSeed s).1 s.bobbin.instances[i.val] with
        stretchMax := stretch, pending := predArrives s i && s.bobbin.instances[i.val].pending } := by
  unfold appliedSeed
  extract_lets x s₁ pred left b d stretch
  have hbobbin : s₁.bobbin = s.bobbin := by
    unfold s₁
    split <;> simp
  have hfuses : s₁.fuses = s.fuses := by
    unfold s₁
    split <;> simp
  have hpred : pred = predArrives s i := by simp only [pred, predArrives, hbobbin]
  have hseed : d.1 = (takeSeed s).1 := takeSeed_congr hbobbin rest left
  have hd : d.2.bobbin.instances = s.bobbin.instances := by
    rw [← hbobbin]
    exact takeSeed_instances _
  refine ⟨takeSeed_queue _, stretch, ?_⟩
  rw [modInstance_at, hpred, hseed, seedInstance_congr hfuses]
  simp only [hd]
  rfl

theorem afterSeed_inst16 (instantiated : Bool) (s : State) : Draws16 s (afterSeed inst16 instantiated s) := by
  unfold afterSeed
  extract_lets s₁ s₂
  have h₁ : Draws16 s s₁ := by
    unfold s₁
    split
    · exact .fillBuffers s
    · exact .refl s
  have h₂ : s₂ = s₁ := dif_neg (by decide)
  rw [h₂]
  split
  · exact h₁.trans (.releaseSeedWaits s₁)
  · exact h₁.trans (.continueCeremony s₁)

/-- A bench's DRBG: its bench has its seed. -/
theorem afterSeed_bench (hi : i ≠ inst16) (instantiated : Bool) (s : State) :
    ∃ u, u.bobbin = s.bobbin ∧ Draws16 u (afterSeed i instantiated s) ∧
      (instantiated = false → ∀ b : BenchId, b.val = i.val → u.benches[b.val].needsSeed = false) := by
  have hlt : i.val < 16 := by
    have := i.isLt
    have : i.val ≠ 16 := fun h => hi (Fin.ext h)
    omega
  have hne : (i == inst16) = false := by simpa using hi
  unfold afterSeed
  simp only [hne, Bool.false_and, Bool.false_eq_true, if_false, dif_pos hlt]
  refine ⟨if instantiated then s else modBench ⟨i.val, hlt⟩ (fun b => { b with needsSeed := false }) s, by split <;> rfl, .continueCeremony _, ?_⟩
  rintro rfl b hb
  obtain rfl : b = ⟨i.val, hlt⟩ := Fin.ext hb
  simp

end

/-- Settles O46, command by command. -/
theorem reseedingCompletes : Obligations.reseeding_completes := by
  intro s i rest
  refine ⟨fun hinst hpend hcount => ?_, fun hinst hstall hcount => ?_, fun hruns hqueue hnew => ?_⟩
  · refine ⟨requestSeed i s, congrArg Host.Outcome.next (if_pos (by simpa [hinst, hpend] using hcount)), requestSeed_mem i s, requestSeed_instances i s⟩
  · refine ⟨requestSeed i (raise0 0x0E5 (modInstance i (fun x => { x with stalled := true }) s)),
      congrArg Host.Outcome.next (if_pos (by simpa [hinst, hstall] using hcount)), requestSeed_mem _ _, ?_⟩
    rw [requestSeed_instances, raise0_raise, raise_bobbin]
    simp [modInstance]
  · obtain ⟨hrest, stretch, happlied⟩ := appliedSeed_fields i rest s
    refine ⟨_, execReseedApplied_applies hruns hqueue hnew, ?_⟩
    generalize appliedSeed i rest s = a at *
    by_cases hi : i = inst16
    · subst hi
      have h := afterSeed_inst16 s.bobbin.instances[inst16.val].instantiated a
      obtain ⟨hinst, hstall, hpend⟩ := h.flags
      refine ⟨(congrArg Bobbin.seedQueue h.bobbin).trans hrest, hinst.trans ?_, hstall.trans ?_, fun hpred => hpend.trans ?_, fun hne => absurd rfl hne⟩
      · exact congrArg DrbgInstance.instantiated happlied
      · exact congrArg DrbgInstance.stalled happlied
      · exact (congrArg DrbgInstance.pending happlied).trans (by simp [hpred])
    · obtain ⟨u, hu, h, hbench⟩ := afterSeed_bench hi s.bobbin.instances[i.val].instantiated a
      have hinst := ((h.others i hi).trans (congrArg (fun b : Bobbin => b.instances[i.val]) hu)).trans happlied
      rw [hinst]
      refine ⟨(congrArg Bobbin.seedQueue h.bobbin).trans ((congrArg Bobbin.seedQueue hu).trans hrest), rfl, rfl, fun hpred => by simp [hpred],
        fun _ => ⟨rfl, ?_, fun hfresh b hb => ?_⟩⟩
      · simp only [seedInstance]
        split <;> rfl
      · rw [h.benches]
        exact hbench hfresh b hb

end Sys2Proof.Machine
end

section
/-! PROOFS. The bobbin's start-up, failures and retries (R373, R374, R381 to R386). -/

namespace Sys2Proof.Machine

open Sys2Proof.Claims

/-! ### Masks of pairs -/

theorem getLsbD_setBit {w n : Nat} (hn : n < w) (m : BitVec w) (v : Bool) (k : Nat) :
    (setBit m n v).getLsbD k = if k = n then v else m.getLsbD k := by
  by_cases hk : k = n
  · subst hk
    cases v
    · simpa using getLsbD_setBit_false m hn
    · simpa using getLsbD_setBit_self m hn
  · have hbit : (BitVec.ofNat w (2 ^ n)).getLsbD k = false := by
      rw [BitVec.getLsbD_ofNat, Nat.testBit_two_pow_of_ne (Ne.symm hk), Bool.and_false]
    rw [if_neg hk]
    by_cases hw : k < w
    · cases v
      · rw [setBit, if_neg Bool.false_ne_true, BitVec.getLsbD_and, BitVec.getLsbD_not, hbit]
        simp [hw]
      · exact getLsbD_setBit_ne m hk
    · rw [BitVec.getLsbD_of_ge _ _ (Nat.le_of_not_lt hw), BitVec.getLsbD_of_ge _ _ (Nat.le_of_not_lt hw)]

theorem getLsbD_foldl_setBit_iff {w : Nat} {l : List Nat} (hl : ∀ n ∈ l, n < w) (m : BitVec w) (k : Nat) :
    (l.foldl (fun m n => setBit m n true) m).getLsbD k = (m.getLsbD k || l.contains k) := by
  induction l generalizing m with
  | nil => simp
  | cons n l ih =>
    rw [List.foldl_cons, ih fun j hj => hl j (List.mem_cons_of_mem n hj), getLsbD_setBit (hl n List.mem_cons_self)]
    by_cases hk : k = n <;> simp [hk]

theorem getLsbD_maskOf_pairs (ps : List PairId) (k : PairId) : (maskOf 8 (ps.map fun p => p.val)).getLsbD k.val = ps.contains k := by
  have hlt : ∀ n ∈ ps.map fun p => p.val, n < 8 := fun n hn => by
    obtain ⟨p, -, rfl⟩ := List.mem_map.mp hn
    exact p.isLt
  rw [maskOf, getLsbD_foldl_setBit_iff hlt, Bool.eq_iff_iff]
  simp [← Fin.ext_iff]

/-! ### What an answer and a failure leave of the bobbin -/

section

variable {s t : State}

theorem Draws16.state (h : Draws16 s t) : t.bobbin.state = s.bobbin.state := by rw [h.bobbin]

theorem Draws16.live (h : Draws16 s t) : t.bobbin.live = s.bobbin.live := by rw [h.bobbin]

theorem sameButAnswer_draws16 (h : SameButAnswer s t) : Draws16 s t := by
  rw [h.1]
  exact .of_same rfl rfl rfl

theorem ownerDone_bobbin (st : Status) (s : State) : (ownerDone st s).bobbin = s.bobbin := by
  rw [(ownerDone_sameButAnswer st s).1]

theorem bobbinRestartDone_draws16 (st : Status) (s : State) : Draws16 s (bobbinRestartDone st s) := by
  unfold bobbinRestartDone
  split
  · split
    · split
      · exact sameButAnswer_draws16 (ownerDone_sameButAnswer st s)
      · exact .refl s
    · exact .refl s
  · exact .refl s

theorem bobbinRestartDone_bobbin (st : Status) (s : State) : (bobbinRestartDone st s).bobbin = s.bobbin := by
  unfold bobbinRestartDone
  split
  · split
    · split
      · exact ownerDone_bobbin st s
      · rfl
    · rfl
  · rfl

theorem adminDone_bobbin (p : PortId) (st : Status) (result : Nat) (output : Bytes) (s : State) :
    (adminDone p st result output s).bobbin = s.bobbin := rfl

theorem failWaiting_bobbin (s : State) : (failWaiting s).bobbin = s.bobbin := by
  unfold failWaiting
  split
  · rfl
  · extract_lets s₁ s₂ s₃
    have h₁ : s₁.bobbin = s.bobbin := foldl_bobbin (fun s i => failItem_bobbin _ i s) _ s
    have h₂ : s₂.bobbin = s₁.bobbin := by
      refine foldl_bobbin (fun s p => ?_) _ s₁
      split
      · split
        · exact adminDone_bobbin _ _ _ _ s
        · rfl
      · rfl
    have h₃ : s₃.bobbin = s₂.bobbin := 
      foldl_bobbin (f := fun s (c : Nat × PortId × BitVec 16) => emit (.usb c.2.1 0x0030 c.2.2 .entropyFail []) s) (fun _ _ => rfl) _ s₂
    exact (settleAfterLeave_bobbin _).trans (h₃.trans (h₂.trans h₁))

/-- A failed bobbin is cleared; after three retries it stays so. -/
theorem bobbinFails_bobbin (s : State) : (bobbinFails s).bobbin = { (clearInstances s).bobbin with
    state := if 3 ≤ s.bobbin.retries then .failed else .retryWait
    passed := false
    settled := false
    retesting := false
    byCommand := false
    afterFailure := true } := by
  unfold bobbinFails
  extract_lets s₁ last b s₂
  have h₁ : s₁.bobbin = (clearInstances s).bobbin := raise_bobbin _ _ _
  have hraised : (if last = true then raise0 0x0E2 s₂ else s₂).bobbin = s₂.bobbin := by
    split
    · exact raise_bobbin _ _ _
    · rfl
  rw [failWaiting_bobbin, bobbinRestartDone_bobbin, hraised]
  simp only [s₂, b, last, h₁, decide_eq_true_eq]
  rfl

theorem clearInstances_instantiated (s : State) (k : InstId) : (clearInstances s).bobbin.instances[k.val].instantiated = false := by
  simp [clearInstances]

/-! ### Exclusion (R374) -/

theorem excludePair_bobbin (pair : PairId) (test : Nat) (s : State) : (excludePair pair test s).bobbin =
    { s.bobbin with live := setBit s.bobbin.live pair.val false, lastTest := test, lastPair := pair.val, calls := s.bobbin.calls + 1 } :=
  raise_bobbin _ _ _

/-- The state with every pair live before its start-up test. -/
def allLive (s : State) : State := { s with bobbin := { s.bobbin with live := 0xFF } }

/-- The pairs that failed a start-up test are excluded. -/
def excludePairs (l : List (PairId × PairFault)) (s : State) : State := l.foldl (fun s f => excludePair f.1 (faultCode f.2) s) s

theorem excludePairs_live (l : List (PairId × PairFault)) (s : State) (k : PairId) :
    (excludePairs l s).bobbin.live.getLsbD k.val = (s.bobbin.live.getLsbD k.val && !(l.any fun x => x.1 == k)) := by
  induction l generalizing s with
  | nil => simp [excludePairs]
  | cons f l ih =>
    have hlive : (excludePair f.1 (faultCode f.2) s).bobbin.live.getLsbD k.val = (s.bobbin.live.getLsbD k.val && !(f.1 == k)) := by
      rw [excludePair_bobbin]
      dsimp only
      rw [getLsbD_setBit f.1.isLt]
      by_cases hk : f.1 = k
      · simp [hk]
      · have hval : k.val ≠ f.1.val := fun h => hk (Fin.ext h.symm)
        simp [hk, hval]
    have hstep := ih (excludePair f.1 (faultCode f.2) s)
    rw [hlive] at hstep
    simpa [excludePairs, Bool.and_assoc] using hstep

theorem excludePairs_bobbin (l : List (PairId × PairFault)) (s : State) :
    (excludePairs l s).bobbin.state = s.bobbin.state ∧ (excludePairs l s).bobbin.retries = s.bobbin.retries := by
  refine List.foldlRecOn (motive := fun t : State => t.bobbin.state = s.bobbin.state ∧ t.bobbin.retries = s.bobbin.retries) l _ ⟨rfl, rfl⟩
    fun t ht f _ => ?_
  rw [excludePair_bobbin]
  exact ht

/-! ### The start-up tests (R381) -/

theorem execBobbinTestsEnd_ends {failing : List (PairId × PairFault)} (hstart : s.bobbin.state = .starting) (hsettled : s.bobbin.settled = true)
    (hpassed : s.bobbin.passed = false) : exec (.bobbinTestsEnd failing true) s = .next (
      let t := excludePairs (failing.filter fun f => pairFails s f.2) (allLive s)
      if 4 ≤ popcount t.bobbin.live then instantiateAll t else bobbinFails t) := by
  have hruns : (s.bobbin.state == .starting && s.bobbin.settled && !s.bobbin.passed) = true := by simp [hstart, hsettled, hpassed]
  refine congrArg Host.Outcome.next ((if_pos hruns).trans ?_)
  simp only [if_true, Bool.true_and, decide_eq_true_eq]
  rfl

theorem bobbinTestsEnd_completes {failing : List (PairId × PairFault)} (hstart : s.bobbin.state = .starting) (hsettled : s.bobbin.settled = true)
    (hpassed : s.bobbin.passed = false) :
    ∃ t, exec (.bobbinTestsEnd failing true) s = .next t ∧
      (∀ k : PairId, t.bobbin.live.getLsbD k.val = !(failing.any fun x => x.1 == k && pairFails s x.2)) ∧
      (4 ≤ popcount t.bobbin.live → t.bobbin.state = .starting ∧ t.bobbin.passed = true ∧ t.bobbin.seedQueue.head? = some inst16 ∧
        t.bobbin.seedQueue.length = 17) ∧
      (popcount t.bobbin.live < 4 → t.bobbin.state = (if 3 ≤ s.bobbin.retries then .failed else .retryWait)) := by
  refine ⟨_, execBobbinTestsEnd_ends hstart hsettled hpassed, ?_⟩
  have hlive (k : PairId) := excludePairs_live (failing.filter fun f => pairFails s f.2) (allLive s) k
  obtain ⟨hstate, hretries⟩ := excludePairs_bobbin (failing.filter fun f => pairFails s f.2) (allLive s)
  generalize excludePairs (failing.filter fun f => pairFails s f.2) (allLive s) = t at *
  have hbits (k : PairId) : t.bobbin.live.getLsbD k.val = !(failing.any fun x => x.1 == k && pairFails s x.2) := by
    have hall : (0xFF : BitVec 8).getLsbD k.val = true := by revert k; decide
    rw [hlive k, show (allLive s).bobbin.live = 0xFF from rfl, hall, Bool.true_and, List.any_filter]
    simp only [Bool.and_comm]
  dsimp only
  by_cases hfour : 4 ≤ popcount t.bobbin.live
  · rw [if_pos hfour]
    refine ⟨hbits, fun _ => ⟨hstate.trans hstart, rfl, rfl, rfl⟩, fun hlt => absurd hfour (Nat.not_le.mpr hlt)⟩
  · rw [if_neg hfour]
    have hfails := bobbinFails_bobbin t
    have hsame : (bobbinFails t).bobbin.live = t.bobbin.live := by rw [hfails]; rfl
    rw [hsame]
    refine ⟨hbits, fun h => absurd h hfour, fun _ => (congrArg Bobbin.state hfails).trans ?_⟩
    dsimp only
    rw [hretries]
    rfl

/-! ### The seeds are in (R381, R383) -/

theorem moveChest_draws16 (s : State) : Draws16 s (moveChest s) := by
  unfold moveChest
  split
  · exact .refl s
  · exact (Draws16.draw 64 s).trans (.of_same rfl rfl rfl)

theorem bobbinSeeded_serves (hstart : s.bobbin.state = .starting) (hpassed : s.bobbin.passed = true) (hqueue : s.bobbin.seedQueue = [])
    (hinst : ∀ k : InstId, s.bobbin.instances[k.val].instantiated = true) :
    ∃ t, exec .bobbinSeeded s = .next t ∧ t.bobbin.state = .serving ∧ t.mode.seeded = true ∧ t.bobbin.live = s.bobbin.live := by
  have hall : (s.bobbin.instances.toList.all fun x => x.instantiated) = true := by
    refine List.all_eq_true.mpr fun x hx => ?_
    obtain ⟨k, hk, rfl⟩ := Vector.getElem_of_mem (Vector.mem_toList_iff.mp hx)
    exact hinst ⟨k, hk⟩
  have hruns : (s.bobbin.state == .starting && s.bobbin.passed && s.bobbin.seedQueue.isEmpty
      && s.bobbin.instances.toList.all fun x => x.instantiated) = true := by
    simp [hstart, hpassed, hqueue, hall]
  refine ⟨_, congrArg Host.Outcome.next (if_pos hruns), ?_⟩
  extract_lets failed b m s₁ s₂
  have h₂ : s₂.bobbin = s₁.bobbin ∧ s₂.mode = s₁.mode := by
    unfold s₂
    split <;> simp
  clear_value s₂
  have hdraws : Draws16 s₂ (releaseSeedWaits (bobbinRestartDone .ok (moveChest (deriveIdentity s₂)))) :=
    (((Draws16.deriveIdentity s₂).trans (moveChest_draws16 _)).trans (bobbinRestartDone_draws16 .ok _)).trans (.releaseSeedWaits _)
  have hlive : s₂.bobbin.live = s₁.bobbin.live := congrArg Bobbin.live h₂.1
  exact ⟨hdraws.state.trans (congrArg Bobbin.state h₂.1), hdraws.seeded.trans (congrArg _ h₂.2), hdraws.live.trans hlive⟩

/-! ### BOBBIN_RESTART (R385) -/

theorem execBobbinRestart_serving (howner : OwnerRuns s .bobbinRestart) (hserves : s.bobbin.state = .serving) :
    exec .bobbinRestart s = .next (ownerStart { s with bobbin := { s.bobbin with retesting := true } }) := by
  have hready : ownerReady s = some .bobbinRestart := howner
  change execBobbinRestart s = _
  simp only [execBobbinRestart, hready, hserves]

theorem execBobbinRestart_failed (howner : OwnerRuns s .bobbinRestart) (hfailed : s.bobbin.state = .failed ∨ s.bobbin.state = .retryWait) :
    exec .bobbinRestart s = .next (ownerStart (beginSequence true { s with bobbin := { s.bobbin with retries := 0 } })) := by
  have hready : ownerReady s = some .bobbinRestart := howner
  change execBobbinRestart s = _
  rcases hfailed with h | h <;> simp only [execBobbinRestart, hready, h]

end

/-- Settles O45, command by command. -/
theorem bobbinCompletes : Obligations.bobbin_completes := by
  intro s failing pair f ps
  refine ⟨?start, ?settled, bobbinTestsEnd_completes, bobbinSeeded_serves, ?excluded, ?alive, ?lock, ?fails, ?retry, ?retest, ?restart⟩
  case start =>
    intro hoff hfw hbase hplan
    exact ⟨_, congrArg Host.Outcome.next (if_pos (by simp [hoff, hfw, hbase, hplan])), rfl, rfl, rfl, rfl⟩
  case settled => exact fun hstart => congrArg Host.Outcome.next (if_pos (by simp [hstart]))
  case excluded =>
    intro hruns hlive hfails hcode
    exact ⟨_, congrArg Host.Outcome.next (if_pos (by simp [hruns, hlive, hfails, hcode])), excludePair_bobbin pair _ s⟩
  case alive => exact fun samples => Bool.and_eq_true_iff.trans (and_congr beq_iff_eq decide_eq_true_iff)
  case lock => exact fun bins => Bool.and_eq_true_iff.trans (and_congr beq_iff_eq decide_eq_true_iff)
  case fails =>
    intro hruns hfew
    have hfails := bobbinFails_bobbin s
    refine ⟨bobbinFails s, congrArg Host.Outcome.next (if_pos (by simp [mayFail, hruns, hfew])), congrArg Bobbin.state hfails,
      congrArg Bobbin.seedQueue hfails, fun k => ?_⟩
    rw [hfails]
    exact clearInstances_instantiated s k
  case retry => exact fun hwait => ⟨_, congrArg Host.Outcome.next (if_pos (by simp [hwait])), rfl, rfl, rfl⟩
  case retest =>
    intro hserves hretest
    refine ⟨_, congrArg Host.Outcome.next (if_pos (by simp [hserves, hretest])), ?_⟩
    rw [bobbinRestartDone_bobbin]
    refine ⟨hserves, rfl, fun k => ?_⟩
    rw [BitVec.getLsbD_or, getLsbD_maskOf_pairs]
  case restart =>
    intro howner
    refine ⟨fun hserves => ⟨_, execBobbinRestart_serving howner hserves, rfl, rfl⟩, fun hfailed => ⟨_, execBobbinRestart_failed howner hfailed, rfl, rfl, rfl⟩⟩

end Sys2Proof.Machine
end

section
/-! PROOFS. What the card bus does to one card: its power, its attachment, and what work on another card leaves of it (R416, R419, R422). -/

namespace Sys2Proof.Machine

open Sys2Proof.Claims

section

variable {s t u : State} {c k : CardSlot}

/-! ### Reading one card -/

@[simp] theorem cardOf_modCard_same (c : CardSlot) (f : CardState → CardState) (s : State) : cardOf (modCard c f s) c = f (cardOf s c) :=
  modCard_at c f s

theorem cardOf_modCard_ne (h : k ≠ c) (f : CardState → CardState) (s : State) : cardOf (modCard c f s) k = cardOf s k :=
  Vector.getElem_set_ne c.isLt k.isLt fun hval => h (Fin.ext hval.symm)

theorem cardOf_of_cards (h : t.cards.slots = s.cards.slots) (k : CardSlot) : cardOf t k = cardOf s k := by
  unfold cardOf
  simp only [h]

@[simp] theorem cardOf_raise (ev : Nat) (d : BitVec 64) (s : State) (k : CardSlot) : cardOf (raise ev d s) k = cardOf s k := by
  simp [cardOf]

@[simp] theorem cardOf_cardEvents (a b r : BitVec 4) (s : State) (k : CardSlot) : cardOf (cardEvents a b r s) k = cardOf s k := rfl

@[simp] theorem cardOf_sendCard (rate : CardRate) (op : BitVec 5) (addr arg : Nat) (s : State) (k : CardSlot) :
    cardOf (sendCard rate op addr arg s) k = cardOf s k := rfl

@[simp] theorem cardOf_sendTo (c : CardSlot) (op : BitVec 5) (arg : Nat) (s : State) (k : CardSlot) : cardOf (sendTo c op arg s) k = cardOf s k := rfl

/-- A question over the slots, slot by slot. -/
theorem slots_any (p : CardState → Bool) (s : State) : s.cards.slots.toList.any p = (fins 4).any fun k => p (cardOf s k) := by
  rw [Bool.eq_iff_iff, List.any_eq_true, List.any_eq_true]
  constructor
  · rintro ⟨x, hx, hp⟩
    obtain ⟨k, hk, rfl⟩ := Vector.getElem_of_mem (Vector.mem_toList_iff.mp hx)
    exact ⟨⟨k, hk⟩, mem_fins _, hp⟩
  · rintro ⟨k, -, hp⟩
    exact ⟨_, Vector.mem_toList_iff.mpr (Vector.getElem_mem k.isLt), hp⟩

/-- The same update of the cards of a list. -/
theorem cardOf_foldl_modCard {f : CardState → CardState} (hf : ∀ x, f (f x) = f x) (l : List CardSlot) (s : State) (k : CardSlot) :
    cardOf (l.foldl (fun s c => modCard c f s) s) k = if k ∈ l then f (cardOf s k) else cardOf s k := by
  induction l generalizing s with
  | nil => simp
  | cons c l ih =>
    rw [List.foldl_cons, ih]
    by_cases hc : k = c
    · subst hc
      simp [hf]
    · simp [cardOf_modCard_ne hc, hc]

/-- The card bus but for its slots is as it was. -/
def BusKept (s t : State) : Prop := t.cards = { s.cards with slots := t.cards.slots }

theorem BusKept.trans (h : BusKept s t) (k : BusKept t u) : BusKept s u := by
  unfold BusKept at *
  rw [k, h]

theorem foldl_modCard_busKept (f : CardState → CardState) (l : List CardSlot) (s : State) : BusKept s (l.foldl (fun s c => modCard c f s) s) :=
  List.foldlRecOn (motive := BusKept s) l _ rfl fun _ hu _ _ => hu.trans rfl

/-! ### Power (R416) -/

/-- The slot gets its power. -/
def powerOn (x : CardState) : CardState := { x with powered := true, waited := false }

theorem powerOn_powerOn (x : CardState) : powerOn (powerOn x) = powerOn x := rfl

theorem cardOf_releaseAll (s : State) (k : CardSlot) :
    cardOf { s with cards := { s.cards with slots := s.cards.slots.map releaseCard } } k = releaseCard (cardOf s k) := by
  simp [cardOf]

/-- Powering the slots either leaves a card, gives it power, or releases it and may give it power again. -/
theorem cardOf_powerSlots (s : State) (k : CardSlot) :
    cardOf (powerSlots s) k = cardOf s k ∨
      (wantsPower (oneSlot s) (cardOf s k) = true ∧
        (cardOf (powerSlots s) k = powerOn (cardOf s k) ∨ cardOf (powerSlots s) k = powerOn (releaseCard (cardOf s k)))) ∨
      cardOf (powerSlots s) k = releaseCard (cardOf s k) := by
  unfold powerSlots
  split
  · exact .inl rfl
  · extract_lets want on
    have hon (l : List CardSlot) (t : State) : cardOf (l.foldl on t) k = if k ∈ l then powerOn (cardOf t k) else cardOf t k :=
      cardOf_foldl_modCard powerOn_powerOn l t k
    have hwant : k ∈ want → wantsPower (oneSlot s) (cardOf s k) = true := fun h => (List.mem_filter.mp h).2
    split
    · split
      · exact .inl rfl
      · rw [hon, cardOf_releaseAll]
        split
        · next hk => exact .inr (.inl ⟨hwant (List.mem_of_mem_take hk), .inr rfl⟩)
        · exact .inr (.inr rfl)
    · rw [hon]
      split
      · next hk => exact .inr (.inl ⟨hwant hk, .inl rfl⟩)
      · exact .inl rfl

/-- Power moves PWR, the wait for it, and where the card stands on the bus. -/
theorem powerSlots_card (s : State) (k : CardSlot) :
    ∃ p w ph st, cardOf (powerSlots s) k = { cardOf s k with powered := p, waited := w, phase := ph, stale := st } := by
  have hrelease (x : CardState) : ∃ p ph st, releaseCard x = { x with powered := p, phase := ph, stale := st } := by
    unfold releaseCard
    split
    · exact ⟨_, _, _, rfl⟩
    · exact ⟨x.powered, x.phase, x.stale, rfl⟩
  obtain ⟨p, ph, st, hx⟩ := hrelease (cardOf s k)
  rcases cardOf_powerSlots s k with h | ⟨-, h | h⟩ | h <;> rw [h]
  · exact ⟨_, _, _, _, rfl⟩
  · exact ⟨true, false, _, _, rfl⟩
  · exact ⟨true, false, ph, st, by rw [hx]; rfl⟩
  · exact ⟨p, _, ph, st, by rw [hx]⟩

/-- A card without power that wants none. -/
theorem cardOf_powerSlots_off (hoff : (cardOf s k).powered = false) (hwants : ∀ b, wantsPower b (cardOf s k) = false) :
    cardOf (powerSlots s) k = cardOf s k := by
  have hrelease : releaseCard (cardOf s k) = cardOf s k := by simp [releaseCard, hoff]
  rcases cardOf_powerSlots s k with h | ⟨h, -⟩ | h
  · exact h
  · rw [hwants] at h
    cases h
  · exact h.trans hrelease

/-- Power touches the slots alone. -/
theorem powerSlots_slots (s : State) : powerSlots s = { s with cards := { s.cards with slots := (powerSlots s).cards.slots } } := by
  have hon (l : List CardSlot) (t : State) : l.foldl (fun s c => modCard c powerOn s) t =
      { t with cards := { t.cards with slots := (l.foldl (fun s c => modCard c powerOn s) t).cards.slots } } :=
    List.foldlRecOn (motive := fun u : State => u = { t with cards := { t.cards with slots := u.cards.slots } }) l _ rfl
      fun u hu c _ => by rw [hu]; rfl
  unfold powerSlots
  split
  · rfl
  · dsimp only
    split
    · split
      · rfl
      · exact hon _ _
    · exact hon _ s

theorem powerSlots_busKept (s : State) : BusKept s (powerSlots s) := by
  unfold BusKept
  conv_lhs => rw [powerSlots_slots]

theorem powerSlots_cards (s : State) : powerSlots s = { s with cards := (powerSlots s).cards } :=
  (powerSlots_slots s).trans (congrArg (fun x => { s with cards := x }) (powerSlots_busKept s).symm)

/-! ### Attachment (R419) -/

theorem cardOf_attachCard (c : CardSlot) (s : State) (k : CardSlot) :
    cardOf (attachCard c s) k = cardOf s k ∨ cardOf (attachCard c s) k = { cardOf s k with phase := if k = c then 2 else min (cardOf s k).phase 1 } := by
  unfold attachCard
  split
  · exact .inl rfl
  · right
    rw [cardOf_sendTo]
    have hdown (x : CardState) : { ({ x with phase := min x.phase 1 } : CardState) with phase := min (min x.phase 1) 1 } = { x with phase := min x.phase 1 } := by
      simp
    have hfold := cardOf_foldl_modCard (f := fun x => { x with phase := min x.phase 1 }) hdown (fins 4) s k
    rw [if_pos (mem_fins k)] at hfold
    by_cases hk : k = c
    · subst hk
      rw [cardOf_modCard_same, hfold, if_pos rfl]
    · rw [cardOf_modCard_ne hk, hfold, if_neg hk]

theorem attachCard_busKept (c : CardSlot) (s : State) : BusKept s (attachCard c s) := by
  unfold attachCard
  split
  · rfl
  · exact (foldl_modCard_busKept _ (fins 4) s).trans rfl

/-! ### What work on other cards leaves of a card -/

/-- The card has neither power nor a place on the bus nor an identification under way, and it asks for no power. -/
structure GivenUp (x : CardState) : Prop where
  powered : x.powered = false
  phase : x.phase = 0
  found : x.found = none
  wants : ∀ b, wantsPower b x = false

/-- Card `c` keeps its identification under way, and where it is given up it stands as it was; no event bit of the cards goes. -/
structure Beside (c : CardSlot) (s t : State) : Prop where
  card : GivenUp (cardOf s c) → cardOf t c = cardOf s c
  found : (cardOf t c).found = (cardOf s c).found
  inserted : ∀ k, s.cards.inserted.getLsbD k = true → t.cards.inserted.getLsbD k = true
  failedEv : ∀ k, s.cards.failedEv.getLsbD k = true → t.cards.failedEv.getLsbD k = true
  removed : ∀ k, s.cards.removedInTransfer.getLsbD k = true → t.cards.removedInTransfer.getLsbD k = true
  cut : t.cards.quorumCut = s.cards.quorumCut

namespace Beside

theorem of_same (hcards : t.cards = s.cards) : Beside c s t where
  card _ := cardOf_of_cards (congrArg CardBus.slots hcards) c
  found := by rw [cardOf_of_cards (congrArg CardBus.slots hcards) c]
  inserted _ h := by rwa [hcards]
  failedEv _ h := by rwa [hcards]
  removed _ h := by rwa [hcards]
  cut := by rw [hcards]

theorem refl (s : State) : Beside c s s := of_same rfl

theorem trans (h : Beside c s t) (k : Beside c t u) : Beside c s u where
  card hup := by
    have hcard := h.card hup
    exact (k.card (hcard ▸ hup)).trans hcard
  found := k.found.trans h.found
  inserted n hn := k.inserted n (h.inserted n hn)
  failedEv n hn := k.failedEv n (h.failedEv n hn)
  removed n hn := k.removed n (h.removed n hn)
  cut := k.cut.trans h.cut

/-- The slots alone move. -/
theorem of_slots (hbus : BusKept s t) (hcard : GivenUp (cardOf s c) → cardOf t c = cardOf s c)
    (hfound : (cardOf t c).found = (cardOf s c).found) : Beside c s t where
  card := hcard
  found := hfound
  inserted _ h := by rwa [hbus]
  failedEv _ h := by rwa [hbus]
  removed _ h := by rwa [hbus]
  cut := by rw [hbus]

theorem raise (ev : Nat) (d : BitVec 64) (s : State) : Beside c s (raise ev d s) := of_same (by simp)

theorem send (rate : CardRate) (op : BitVec 5) (addr arg : Nat) (s : State) : Beside c s (sendCard rate op addr arg s) := of_same rfl

theorem cardEvents (a b r : BitVec 4) (s : State) : Beside c s (cardEvents a b r s) where
  card _ := rfl
  found := rfl
  inserted n h := by simp [Machine.cardEvents, h]
  failedEv n h := by simp [Machine.cardEvents, h]
  removed n h := by simp [Machine.cardEvents, h]
  cut := rfl

theorem modCard (h : c ≠ k) (f : CardState → CardState) (s : State) : Beside c s (modCard k f s) :=
  of_slots rfl (fun _ => cardOf_modCard_ne h f s) (by rw [cardOf_modCard_ne h])

theorem powerSlots (s : State) : Beside c s (powerSlots s) := by
  obtain ⟨p, w, ph, st, hcard⟩ := powerSlots_card s c
  exact of_slots (powerSlots_busKept s) (fun hup => cardOf_powerSlots_off hup.powered hup.wants) (by rw [hcard])

theorem attachCard (h : c ≠ k) (s : State) : Beside c s (attachCard k s) := by
  refine of_slots (attachCard_busKept k s) (fun hup => ?_) ?_
  · rcases cardOf_attachCard k s c with hcard | hcard
    · exact hcard
    · rw [hcard, if_neg h, hup.phase]
      conv_rhs => rw [show cardOf s c = { cardOf s c with phase := (cardOf s c).phase } from rfl, hup.phase]
      rfl
  · rcases cardOf_attachCard k s c with hcard | hcard <;> rw [hcard]

theorem foldl {α : Type} {f : State → α → State} (h : ∀ s a, Beside c s (f s a)) (l : List α) (s : State) : Beside c s (l.foldl f s) :=
  List.foldlRecOn (motive := Beside c s) l f (refl s) fun t ht a _ => ht.trans (h t a)

theorem readRun (k : CardSlot) (first n : Nat) (s : State) : Beside c s (readRun k first n s) := by
  unfold Machine.readRun
  dsimp only
  split <;> exact of_same rfl

theorem readRuns {α : Type} (k : CardSlot) (first count : α → Nat) (l : List α) (s : State) :
    Beside c s (l.foldl (fun s r => Machine.readRun k (first r) (count r) s) s) :=
  foldl (fun s r => readRun k (first r) (count r) s) l s

theorem scanCard (h : c ≠ k) (d : CardData) (s : State) : Beside c s (scanCard k d s) := by
  unfold Machine.scanCard
  generalize scanRuns = runs
  have hruns := readRuns (c := c) k Prod.fst Prod.snd runs (Machine.attachCard k s)
  have hagain := readRuns (c := c) k CardReread.block (fun _ => 1) d.rereads
    (runs.foldl (fun s r => Machine.readRun k r.1 r.2 s) (Machine.attachCard k s))
  exact (attachCard h s).trans (hruns.trans hagain)

theorem acceptCard (h : c ≠ k) (d : CardData) (mode : Nat) (s : State) : Beside c s (acceptCard k d mode s) := by
  unfold Machine.acceptCard
  extract_lets rate failed take s₁ s₂
  have h₁ : Beside c s s₁ := (modCard h take s).trans (scanCard h d _)
  have h₂ : Beside c s₁ s₂ := by
    unfold s₂
    split
    · exact modCard h _ s₁
    · exact refl s₁
  exact (h₁.trans h₂).trans (((cardEvents _ _ _ s₂).trans (raise _ _ _)).trans (powerSlots _))

theorem sendSwitch (h : c ≠ k) (s : State) : Beside c s (sendSwitch k s) := (attachCard h s).trans (of_same rfl)

theorem switchCard (h : c ≠ k) (d : CardData) (s : State) : Beside c s (switchCard k d s) := by
  unfold Machine.switchCard
  dsimp only
  split
  · exact (attachCard h s).trans (acceptCard h d _ _)
  · split
    · exact (sendSwitch h s).trans (acceptCard h d _ _)
    · exact (sendSwitch h s).trans ((modCard h _ _).trans (raise _ _ _))

/-- The sequence's end takes the cards identified in it. -/
theorem endSequence (hfound : (cardOf s c).found = none) : Beside c s (endSequence s) := by
  unfold Machine.endSequence
  split
  · exact refl s
  · refine List.foldlRecOn (motive := Beside c s) (fins 4) _ (send _ _ _ _ s) fun t ht k _ => ?_
    split
    · next d hk =>
      have hne : c ≠ k := by
        rintro rfl
        rw [ht.found, hfound] at hk
        cases hk
      exact ht.trans (switchCard hne d t)
    · exact ht

end Beside

/-! ### A card that is given up (R415, R421, R427) -/

/-- What a failed card keeps. -/
theorem failed_givenUp (x : CardState) (err : Nat) : GivenUp { dropCard x with failed := true, lastErr := err } where
  powered := rfl
  phase := rfl
  found := rfl
  wants b := by simp [wantsPower]

theorem duplicate_givenUp (x : CardState) : GivenUp { dropCard x with duplicate := true, lastErr := 9 } where
  powered := rfl
  phase := rfl
  found := rfl
  wants b := by simp [wantsPower, dropCard]

theorem absent_givenUp (err : Nat) : GivenUp { lastErr := err } where
  powered := rfl
  phase := rfl
  found := rfl
  wants b := by simp [wantsPower]

theorem slotBit_self (c : CardSlot) : (slotBit c).getLsbD c.val = true := by revert c; decide

/-- A card that fails stands so once the sequence has ended, and its event bit is set. -/
theorem failCard_failed (c : CardSlot) (ev err : Nat) (s : State) :
    cardOf (endSequence (failCard c ev err s)) c = { dropCard (cardOf s c) with failed := true, lastErr := err } ∧
      (endSequence (failCard c ev err s)).cards.failedEv.getLsbD c.val = true := by
  unfold failCard
  extract_lets s₁
  have h₁ : cardOf s₁ c = { dropCard (cardOf s c) with failed := true, lastErr := err } := cardOf_modCard_same c _ s
  have hup : GivenUp (cardOf s₁ c) := h₁ ▸ failed_givenUp _ _
  have hpower : Beside c (cardEvents 0 (slotBit c) 0 s₁) (powerSlots (raise ev (detailOf 0 c.val 0 0 0) (cardEvents 0 (slotBit c) 0 s₁))) :=
    (Beside.raise _ _ _).trans (.powerSlots _)
  have hfound := hpower.found.trans hup.found
  have hend := hpower.trans (.endSequence hfound)
  exact ⟨(hend.card hup).trans h₁, hend.failedEv _ (by simp [cardEvents, slotBit_self])⟩

/-! ### Insertion and removal (R415, R430, R444) -/

theorem execCardInsert_inserts (habsent : (cardOf s c).present = false) (hpowered : s.mode.base ≠ .dormant) :
    ∃ t, exec (.cardInsert c) s = .next t ∧ (cardOf t c).present = true ∧ (cardOf t c).cdet = true ∧ t = { s with cards := t.cards } := by
  refine ⟨_, congrArg Host.Outcome.next (if_neg (by simp [habsent])), ?_⟩
  obtain ⟨p, w, ph, st, hcard⟩ := powerSlots_card (modCard c (fun x => { x with cdet := true, present := !(s.mode.base == .dormant) }) s) c
  rw [hcard, cardOf_modCard_same]
  exact ⟨by simpa using hpowered, rfl, powerSlots_cards _⟩

/-- The removal meets a transfer or busy. -/
def cutsTransfer (u : CardUse) (x : CardState) : Bool := x.busy || (x.powered && u == .transfer)

theorem cutsTransfer_iff {u : CardUse} {x : CardState} : cutsTransfer u x = true ↔ x.busy = true ∨ (x.powered = true ∧ u = .transfer) := by
  simp [cutsTransfer]

theorem execCardRemove_removes {u : CardUse} (hpresent : (cardOf s c).present = true) :
    ∃ t, exec (.cardRemove ⟨c, u⟩) s = .next t ∧
      cardOf t c = { lastErr := if cutsTransfer u (cardOf s c) = true then 5 else 0 } ∧
      (cutsTransfer u (cardOf s c) = true → t.cards.removedInTransfer.getLsbD c.val = true) ∧
      (u = .quorum → cardUsable (cardOf s c) = true → t.cards.quorumCut = true) := by
  refine ⟨_, congrArg Host.Outcome.next (if_neg (by simp [hpresent])), ?_⟩
  extract_lets s₁ bus s₂
  have h₁ : cardOf s₁ c = { lastErr := if cutsTransfer u (cardOf s c) = true then 5 else 0 } :=
    (cardOf_raise _ _ _ c).trans (cardOf_modCard_same c (fun _ => { lastErr := if cutsTransfer u (cardOf s c) = true then 5 else 0 }) s)
  have h₂ : s₂.cards.slots = s₁.cards.slots ∧ s₂.cards.removedInTransfer = s₁.cards.removedInTransfer := by
    unfold s₂
    split <;> exact ⟨rfl, rfl⟩
  have hcard := cardOf_of_cards h₂.1 c
  have hup : GivenUp (cardOf s₂ c) := hcard ▸ h₁ ▸ absent_givenUp _
  have hpower : Beside c s₂ (powerSlots s₂) := .powerSlots s₂
  have hend := hpower.trans (.endSequence (hpower.found.trans hup.found))
  refine ⟨(hend.card hup).trans (hcard.trans h₁), fun hcuts => hend.removed _ ?_, fun hquorum husable => hend.cut.trans ?_⟩
  · rw [h₂.2]
    unfold s₁
    rw [raise_cards]
    change (_ ||| (if cutsTransfer u (cardOf s c) = true then slotBit c else 0)).getLsbD c.val = true
    rw [if_pos hcuts, BitVec.getLsbD_or, slotBit_self, Bool.or_true]
  · unfold s₂
    rw [if_pos (by simp [hquorum, husable])]

/-! ### A command without a good answer (R421) -/

variable {op : BitVec 5} {arg : BitVec 30} {r : Option (BitVec 48)}

/-- What the repeated command brings: the status word, or the card's end. -/
theorem execCardResponseTimeout_repeats (hruns : cardsRun s = true) (hpresent : (cardOf s c).present = true)
    (hpowered : (cardOf s c).powered = true) (hop : answersShort op = true) :
    exec (.cardResponseTimeout c ⟨op, arg, r⟩) s = .next (match r.bind (shortStatus op (cardOf s c).addr) with
      | some st => modCard c (fun x => { x with status := st }) (sendTo c op arg.toNat s)
      | none => endSequence (failCard c 0x10B (answerError [r]) (sendTo c op arg.toNat s))) :=
  congrArg Host.Outcome.next (if_pos (by simp [hruns, hpresent, hpowered, hop]))

theorem answerError_one (r : Option (BitVec 48)) : answerError [r] = if r.isSome = true then 2 else 1 := by simp [answerError]

theorem cardResponseTimeout_fails (hruns : cardsRun s = true) (hpresent : (cardOf s c).present = true)
    (hpowered : (cardOf s c).powered = true) (hop : answersShort op = true) (hnone : r.bind (shortStatus op (cardOf s c).addr) = none) :
    ∃ t, exec (.cardResponseTimeout c ⟨op, arg, r⟩) s = .next t ∧ (cardOf t c).failed = true ∧
      (cardOf t c).lastErr = (if r.isSome = true then 2 else 1) ∧ (cardOf t c).powered = false ∧ (cardOf t c).identified = false ∧
      t.cards.failedEv.getLsbD c.val = true ∧ Tx.cardFrame (rateOf (cardOf s c).mode) (cardCommand op (cardOf s c).addr arg.toNat) ∈ t.out := by
  refine ⟨_, execCardResponseTimeout_repeats hruns hpresent hpowered hop, ?_⟩
  rw [hnone]
  obtain ⟨hcard, hevent⟩ := failCard_failed c 0x10B (answerError [r]) (sendTo c op arg.toNat s)
  have hsent : Sends (sendTo c op arg.toNat s) (endSequence (failCard c 0x10B (answerError [r]) (sendTo c op arg.toNat s))) :=
    (failCard_sends c _ _ _).trans (endSequence_sends _)
  dsimp only
  rw [hcard, hsent.2]
  exact ⟨rfl, answerError_one r, rfl, rfl, hevent, List.mem_append_left _ (List.mem_append_right _ List.mem_cons_self)⟩

/-! ### Busy (R427) and the tab (R429) -/

theorem execCardBusyRelease_frees (hbusy : (cardOf s c).busy = true) :
    exec (.cardBusyRelease c) s = .next (leaveCard c (modCard c (fun x => { x with busy := false }) s)) :=
  congrArg Host.Outcome.next (if_pos hbusy)

/-- After its use a card's slot may lose its power; its busy stands. -/
theorem leaveCard_busy (c : CardSlot) (s : State) : (cardOf (leaveCard c s) c).busy = (cardOf s c).busy ∧
    leaveCard c s = { s with cards := (leaveCard c s).cards } := by
  unfold leaveCard
  split
  · obtain ⟨p, w, ph, st, hcard⟩ := powerSlots_card (modCard c releaseCard s) c
    constructor
    · rw [hcard, cardOf_modCard_same]
      dsimp only [releaseCard]
      split <;> rfl
    · exact powerSlots_cards _
  · exact ⟨rfl, rfl⟩

theorem leaveCard_powered (hplan : s.power.plan ≠ .wakeOnly) (c : CardSlot) : leaveCard c s = s := by
  have hone : oneSlot s = false := by simpa [oneSlot] using hplan
  exact if_neg (by simp [hone])

theorem busyTimeout_fails (hbusy : (cardOf s c).busy = true) (hruns : cardsRun s = true) :
    ∃ t, exec (.busyTimeout c) s = .next t ∧ (cardOf t c).failed = true ∧ (cardOf t c).lastErr = 4 ∧ (cardOf t c).busy = false ∧
      (cardOf t c).powered = false ∧ t.cards.failedEv.getLsbD c.val = true := by
  refine ⟨_, congrArg Host.Outcome.next (if_pos (by simp [hbusy, hruns])), ?_⟩
  obtain ⟨hcard, hevent⟩ := failCard_failed c 0x10C 4 s
  rw [hcard]
  exact ⟨rfl, rfl, rfl, rfl, hevent⟩

theorem lockSlot_card (c : CardSlot) (s : State) : cardOf (lockSlot c s) c = { cardOf s c with locked := true, lastErr := 6 } :=
  (cardOf_raise _ _ _ c).trans (cardOf_modCard_same c _ s)

theorem cwpLock_cuts (hpresent : (cardOf s c).present = true) (hbusy : (cardOf s c).busy = true) (hcwp : (cardOf s c).cwp = false) :
    ∃ t, exec (.cwpLock c) s = .next t ∧ (cardOf t c).cwp = true ∧ (cardOf t c).locked = true ∧ (cardOf t c).lastErr = 6 ∧
      t.out = s.out ++ [.cardFrame (rateOf (cardOf s c).mode) (cardCommand opEndXfer (cardOf s c).addr 0)] := by
  refine ⟨lockSlot c (sendTo c opEndXfer 0 (modCard c (fun x => { x with cwp := true }) s)),
    congrArg Host.Outcome.next ((if_neg (by simp [hpresent])).trans (if_pos (by simp [hbusy, hcwp]))), ?_⟩
  rw [lockSlot_card, cardOf_sendTo, cardOf_modCard_same]
  refine ⟨rfl, rfl, rfl, ?_⟩
  rw [lockSlot, raise_out]
  change s.out ++ [Tx.cardFrame (rateOf (cardOf (modCard c _ s) c).mode) (cardCommand opEndXfer (cardOf (modCard c _ s) c).addr 0)] = _
  rw [cardOf_modCard_same]

end

/-- Settles O47, command by command. -/
theorem cardSlotsComplete : Obligations.card_slots_complete := by
  intro s c u op arg r st
  refine ⟨execCardInsert_inserts, fun hpresent => ?_, fun hruns hpresent hpowered hop => ⟨cardResponseTimeout_fails hruns hpresent hpowered hop, fun hst => ?_⟩,
    fun hbusy => ⟨?_, fun hplan => ?_, busyTimeout_fails hbusy⟩, fun hpresent hbusy => ?_, cwpLock_cuts⟩
  · simpa only [cutsTransfer_iff] using execCardRemove_removes (s := s) (u := u) hpresent
  · rw [execCardResponseTimeout_repeats hruns hpresent hpowered hop, hst]
    rfl
  · obtain ⟨hfree, hcards⟩ := leaveCard_busy c (modCard c (fun x => { x with busy := false }) s)
    refine ⟨_, execCardBusyRelease_frees hbusy, hfree.trans ?_, hcards⟩
    rw [cardOf_modCard_same]
  · rw [execCardBusyRelease_frees hbusy]
    exact congrArg Host.Outcome.next (leaveCard_powered (s := modCard c (fun x => { x with busy := false }) s) hplan c)
  · exact congrArg Host.Outcome.next ((if_neg (by simp [hpresent])).trans (if_neg (by simp [hbusy])))

end Sys2Proof.Machine
end

section
/-! PROOFS. Identifying a card: the sequence, its duplicates, the switch to mode 2 and its fallback (R417 to R425, R432). -/

namespace Sys2Proof.Machine

open Sys2Proof.Claims

section

variable {s t u : State} {c k : CardSlot} {d : CardData} {w : BitVec 48} {st : BitVec 30}

/-! ### The sequence's frames (R422) -/

/-- RESET_ALL, where no powered card has an address. -/
def resetFrames (s : State) : List Tx :=
  if s.cards.slots.toList.any (fun x => x.powered && x.identified && !x.stale) = true then [] else [Tx.cardFrame .ident (cardCommand opResetAll 0 0)]

theorem resetAll_sends (s : State) : resetAll s = { s with out := s.out ++ resetFrames s } := by
  unfold resetAll resetFrames
  split
  · rw [List.append_nil]
  · rfl

/-- The frames of a round whose answers are right. -/
def identFrames (s : State) : List Tx :=
  [.cardFrame .ident (cardCommand opAllIdent 0 0), .cardFrame .ident (cardCommand opSetRca 0 (freeAddress s)),
    .cardFrame .ident (cardCommand opPollStatus (freeAddress s) 0)]

/-- The state once they have gone out. -/
def identSent (s : State) : State := { s with out := s.out ++ resetFrames s ++ identFrames s }

theorem firstAnswer_of_first {op : BitVec 5} {addr : Nat} {l : List (Option (BitVec 48))} (h : (firstAnswer op addr (l.take 1)).isSome = true) :
    (firstAnswer op addr l).isSome = true := by
  obtain ⟨a, ha, hanswer⟩ := List.findSome?_isSome_iff.mp h
  have hfirst : a ∈ l.take 1 := List.mem_of_mem_take ha
  exact List.findSome?_isSome_iff.mpr ⟨a, (List.take_subset_take_left l (by omega : 1 ≤ 2)) hfirst, hanswer⟩

/-- The answers of a good card: its identity, its address, and a status word that names its slot. -/
structure GoodAnswers (s : State) (c : CardSlot) (d : CardData) (st : BitVec 30) : Prop where
  identity : identityOk d.identity = true
  address : (firstAnswer opSetRca (freeAddress s) (d.rca.take 1)).isSome = true
  status : ∃ w, d.poll.head? = some (some w) ∧ shortStatus opPollStatus (freeAddress s) w = some st
  slot : statusSlot st = c.val

/-- A round of the sequence with a good card. -/
theorem identify_good (h : GoodAnswers s c d st) (hawaits : awaitsIdent (cardOf s c) = true) :
    identify c d s = identifySlot (freeAddress s) c d st (identSent s) := by
  obtain ⟨w, hpoll, hst⟩ := h.status
  obtain ⟨l, hl⟩ := List.head?_eq_some_iff.mp hpoll
  have hrca := h.address
  have hrca' : (firstAnswer opSetRca (freeAddress s) d.rca).isNone = false := by
    rw [Option.isNone_eq_false_iff]
    exact firstAnswer_of_first hrca
  have hslot : (⟨statusSlot st % 4, Nat.mod_lt _ (by decide)⟩ : CardSlot) = c := by
    refine Fin.ext ?_
    change statusSlot st % 4 = c.val
    rw [h.slot, Nat.mod_eq_of_lt c.isLt]
  have hfree (o : List Tx) : freeAddress { s with out := o } = freeAddress s := rfl
  have hcard (o : List Tx) : cardOf { s with out := o } c = cardOf s c := rfl
  simp only [identify, resetAll_sends, sendCard, emit, h.identity, hfree, hrca, hrca', hl, hst, hslot, hcard, hawaits, if_true,
    Bool.not_true, Bool.false_eq_true, if_false, identSent, identFrames, List.append_assoc, List.cons_append, List.nil_append]

/-! ### Cards of one identity (R424) -/

/-- Another identified card with the identity of these answers. -/
def SameCard (s : State) (d : CardData) (k : CardSlot) : Prop :=
  (cardOf s k).present = true ∧ (cardOf s k).identified = true ∧ (cardOf s k).identity = identityOf d.identity

theorem mem_sameIdentity : k ∈ sameIdentity s c d ↔ k = c ∨ SameCard s d k := by
  simp [sameIdentity, SameCard, mem_fins, and_assoc]

theorem sameIdentity_two (hk : k ≠ c) (h : SameCard s d k) : 1 < (sameIdentity s c d).length := by
  have hc : c ∈ sameIdentity s c d := mem_sameIdentity.mpr (.inl rfl)
  have hmem : k ∈ sameIdentity s c d := mem_sameIdentity.mpr (.inr h)
  match hl : sameIdentity s c d with
  | [] => simp [hl] at hc
  | [x] =>
    rw [hl, List.mem_singleton] at hc hmem
    exact absurd (hmem.trans hc.symm) hk
  | _ :: _ :: _ => simp

theorem sameIdentity_one (h : ∀ k, k ≠ c → ¬ SameCard s d k) : (sameIdentity s c d).length = 1 := by
  have hfilter : sameIdentity s c d = (fins 4).filter fun k => k == c := by
    refine List.filter_congr fun k _ => ?_
    by_cases hk : k = c
    · simp [hk]
    · have hnot := h k hk
      simp only [SameCard, not_and] at hnot
      simpa [hk] using hnot
  have hself : ∀ c : CardSlot, ((fins 4).filter fun k => k == c).length = 1 := by decide
  rw [hfilter, hself]

/-- Every card that is marked stands so, and is off, once the sequence has ended. -/
theorem markDuplicate_marks {who : List CardSlot} (hk : k ∈ who) (s : State) :
    cardOf (endSequence (markDuplicate c who s)) k = { dropCard (cardOf s k) with duplicate := true, lastErr := 9 } := by
  unfold markDuplicate
  extract_lets s₁
  have h₁ : cardOf s₁ k = { dropCard (cardOf s k) with duplicate := true, lastErr := 9 } :=
    (cardOf_foldl_modCard (f := fun x => { dropCard x with duplicate := true, lastErr := 9 }) (fun _ => rfl) who s k).trans (if_pos hk)
  have hup : GivenUp (cardOf s₁ k) := h₁ ▸ duplicate_givenUp _
  have hpower : Beside k s₁ (powerSlots (raise 0x10B (detailOf (who.map fun k => 2 ^ k.val).sum c.val 5 0 0) s₁)) :=
    (Beside.raise _ _ s₁).trans (.powerSlots _)
  exact ((hpower.trans (.endSequence (hpower.found.trans hup.found))).card hup).trans h₁

theorem identifySlot_twice (addr : Nat) (hk : k ≠ c) (h : SameCard s d k) : identifySlot addr c d st s =
    markDuplicate c ((fins 4).filter fun k => (sameIdentity s c d).contains k || (cardOf s k).found.isSome) s :=
  if_pos (by simpa using sameIdentity_two hk h)

/-! ### A card identified (R422 step 5) -/

/-- The card has its address and its default mode, and waits for step 7. -/
def identifiedCard (s : State) (d : CardData) (st : BitVec 30) (x : CardState) : CardState :=
  { x with
    identified := true
    stale := false
    found := some d
    addr := freeAddress s
    identity := identityOf d.identity
    mode := defaultCardMode s
    phase := 1
    status := st }

theorem identify_unique (h : GoodAnswers s c d st) (hawaits : awaitsIdent (cardOf s c) = true) (hone : ∀ k, k ≠ c → ¬ SameCard s d k) :
    identify c d s = modCard c (identifiedCard s d st) (identSent s) := by
  rw [identify_good h hawaits]
  have hlength : (sameIdentity (identSent s) c d).length = 1 := sameIdentity_one (s := s) hone
  exact if_neg (by simp [hlength])

/-- While a card awaits its identification the sequence goes on. -/
theorem endSequence_awaits (h : awaitsIdent (cardOf s k) = true) : endSequence s = s := by
  have hany : s.cards.slots.toList.any awaitsIdent = true := by
    rw [slots_any]
    exact List.any_eq_true.mpr ⟨k, mem_fins k, h⟩
  exact if_pos (by simp [hany])

/-- Step 7 of a card that the sequence identified. -/
def stepSeven (s : State) (c : CardSlot) : State := match (cardOf s c).found with | some d => switchCard c d s | none => s

theorem foldl_stepSeven_none (l : List CardSlot) (s : State) (h : ∀ k ∈ l, (cardOf s k).found = none) : l.foldl stepSeven s = s := by
  induction l with
  | nil => rfl
  | cons k l ih =>
    have hk : stepSeven s k = s := by simp only [stepSeven, h k List.mem_cons_self]
    rw [List.foldl_cons, hk]
    exact ih fun j hj => h j (List.mem_cons_of_mem k hj)

/-- With one card to take, the sequence's end is its step 7. -/
theorem endSequence_one (hawaits : ∀ k, awaitsIdent (cardOf s k) = false) (hc : (cardOf s c).found = some d)
    (hothers : ∀ k, k ≠ c → (cardOf s k).found = none) : endSequence s = switchCard c d (sendCard .ident opAllIdent 0 0 s) := by
  have hnone : s.cards.slots.toList.any awaitsIdent = false := by
    rw [slots_any]
    exact List.any_eq_false.mpr fun k _ => by simp [hawaits k]
  have hsome : (s.cards.slots.toList.any fun c => c.found.isSome) = true := by
    rw [slots_any (fun x => x.found.isSome)]
    exact List.any_eq_true.mpr ⟨c, mem_fins c, by simp [hc]⟩
  unfold endSequence
  rw [if_neg (by simp [hnone, hsome])]
  change (fins 4).foldl stepSeven _ = _
  generalize hu : sendCard .ident opAllIdent 0 0 s = u
  have hcards (k : CardSlot) : cardOf u k = cardOf s k := by rw [← hu]; rfl
  obtain ⟨before, after, hsplit⟩ := List.append_of_mem (mem_fins c)
  have hnodup : (before ++ c :: after).Nodup := hsplit ▸ List.nodup_ofFn.mpr Function.injective_id
  have hbefore : c ∉ before := fun h => (List.nodup_append.mp hnodup).2.2 c h c List.mem_cons_self rfl
  have hafter : c ∉ after := (List.nodup_cons.mp (List.nodup_append.mp hnodup).2.1).1
  have hc' : stepSeven u c = switchCard c d u := by simp only [stepSeven, hcards c, hc]
  have hskip : before.foldl stepSeven u = u :=
    foldl_stepSeven_none before u fun k hk => (congrArg CardState.found (hcards k)).trans (hothers k fun h => hbefore (h ▸ hk))
  rw [hsplit, List.foldl_append, List.foldl_cons, hskip, hc']
  refine foldl_stepSeven_none after _ fun k hk => ?_
  have hne : k ≠ c := fun h => hafter (h ▸ hk)
  rw [(Beside.switchCard hne d u).found, hcards k, hothers k hne]

/-! ### Step 7: the switch and the scan (R425, R432) -/

theorem attachCard_card (hphase : (cardOf s c).phase ≠ 2) : cardOf (attachCard c s) c = { cardOf s c with phase := 2 } ∧
    (attachCard c s).out = s.out ++ [.cardFrame (rateOf (cardOf s c).mode) (cardCommand opAttach (cardOf s c).addr 0)] := by
  have hphase' : ((cardOf s c).phase == 2) = false := by simpa using hphase
  unfold attachCard
  rw [if_neg (by simp [hphase'])]
  extract_lets s₁
  have hout : s₁.out = s.out := List.foldlRecOn (motive := fun u : State => u.out = s.out) (fins 4) _ rfl fun u hu _ _ => hu
  have h₁ : cardOf s₁ c = { cardOf s c with phase := min (cardOf s c).phase 1 } :=
    (cardOf_foldl_modCard (f := fun x => { x with phase := min x.phase 1 }) (fun x => by simp) (fins 4) s c).trans (if_pos (mem_fins c))
  clear_value s₁
  have h₂ : cardOf (modCard c (fun x => { x with phase := 2 }) s₁) c = { cardOf s c with phase := 2 } := by
    rw [cardOf_modCard_same, h₁]
  refine ⟨h₂, ?_⟩
  change s₁.out ++ [Tx.cardFrame (rateOf (cardOf (modCard c _ s₁) c).mode) (cardCommand opAttach (cardOf (modCard c _ s₁) c).addr 0)] = _
  rw [h₂, hout]

theorem sendSwitch_card (hphase : (cardOf s c).phase ≠ 2) : cardOf (sendSwitch c s) c = { cardOf s c with phase := 2 } ∧
    (sendSwitch c s).out = s.out ++ [.cardFrame (rateOf (cardOf s c).mode) (cardCommand opAttach (cardOf s c).addr 0),
      .cardFrame (rateOf (cardOf s c).mode) (cardCommand opSwitch (cardOf s c).addr 2),
      .cardFrame .mode2 (cardCommand opReadPattern (cardOf s c).addr 0)] := by
  obtain ⟨hcard, hout⟩ := attachCard_card hphase
  refine ⟨hcard, ?_⟩
  change (attachCard c s).out ++ [Tx.cardFrame (rateOf (cardOf (attachCard c s) c).mode) (cardCommand opSwitch (cardOf (attachCard c s) c).addr 2)] ++
    [Tx.cardFrame .mode2 (cardCommand opReadPattern (cardOf (attachCard c s) c).addr 0)] = _
  rw [hcard, hout]
  simp

theorem readRuns_cards {α : Type} (k : CardSlot) (first count : α → Nat) (l : List α) (s : State) :
    (l.foldl (fun s r => readRun k (first r) (count r) s) s).cards = s.cards :=
  List.foldlRecOn (motive := fun u : State => u.cards = s.cards) l _ rfl fun u hu r _ => by
    refine Eq.trans ?_ hu
    unfold readRun
    dsimp only
    split <;> rfl

/-- The scan moves where the card stands on the bus, and no more of it. -/
theorem scanCard_card (c : CardSlot) (d : CardData) (s : State) : ∃ ph, cardOf (scanCard c d s) c = { cardOf s c with phase := ph } := by
  unfold scanCard
  generalize scanRuns = runs
  have h₁ := readRuns_cards c Prod.fst Prod.snd runs (attachCard c s)
  have h₂ := readRuns_cards c CardReread.block (fun _ => 1) d.rereads (runs.foldl (fun s r => readRun c r.1 r.2 s) (attachCard c s))
  have hcards := cardOf_of_cards (congrArg CardBus.slots (h₂.trans h₁)) c
  rw [hcards]
  rcases cardOf_attachCard c s c with h | h
  · exact ⟨_, h⟩
  · exact ⟨_, h⟩

/-- What step 7 leaves of the card: its scan in place of the records, and its identification as it was. -/
structure Accepted (d : CardData) (mode : Nat) (x y : CardState) : Prop where
  identified : y.identified = x.identified
  found : y.found = none
  switched : y.mode = mode
  addr : y.addr = x.addr
  identity : y.identity = x.identity
  status : y.status = x.status
  speedLimit : y.speedLimit = x.speedLimit
  shares : y.shares = scannedShares (rateOf mode) d
  image : y.image = cardRecordOf imagePlace imageBytes (readCopies (rateOf mode) d imagePlace d.image)
  recovery : y.recovery = cardRecordOf recoveryPlace recoveryBytes (readCopies (rateOf mode) d recoveryPlace d.recovery)

/-- Power and the bus move none of it. -/
theorem Accepted.of_power {mode : Nat} {x y z : CardState} (h : Accepted d mode x y)
    (hz : ∃ p w ph st, z = { y with powered := p, waited := w, phase := ph, stale := st }) : Accepted d mode x z := by
  obtain ⟨p, w, ph, st, rfl⟩ := hz
  exact ⟨h.identified, h.found, h.switched, h.addr, h.identity, h.status, h.speedLimit, h.shares, h.image, h.recovery⟩

theorem Accepted.of_start {mode : Nat} {x y : CardState} {ph : Nat} (h : Accepted d mode { x with phase := ph } y) : Accepted d mode x y :=
  ⟨h.identified, h.found, h.switched, h.addr, h.identity, h.status, h.speedLimit, h.shares, h.image, h.recovery⟩

theorem acceptCard_accepts (c : CardSlot) (d : CardData) (mode : Nat) (s : State) :
    Accepted d mode (cardOf s c) (cardOf (acceptCard c d mode s) c) ∧ (acceptCard c d mode s).cards.inserted.getLsbD c.val = true := by
  unfold acceptCard
  extract_lets rate failed take s₁ s₂
  have htake : Accepted d mode (cardOf s c) (take (cardOf s c)) := ⟨rfl, rfl, rfl, rfl, rfl, rfl, rfl, rfl, rfl, rfl⟩
  have h₁ : Accepted d mode (cardOf s c) (cardOf s₁ c) := by
    obtain ⟨ph, hscan⟩ := scanCard_card c d (modCard c take s)
    rw [cardOf_modCard_same] at hscan
    exact htake.of_power ⟨_, _, _, _, hscan⟩
  have h₂ : Accepted d mode (cardOf s c) (cardOf s₂ c) := by
    unfold s₂
    split
    · rw [cardOf_modCard_same]
      unfold releaseCard
      split
      · exact h₁.of_power ⟨_, _, _, _, rfl⟩
      · exact h₁
    · exact h₁
  have hbits : (cardEvents (slotBit c) 0 0 s₂).cards.inserted.getLsbD c.val = true := by simp [cardEvents, slotBit_self]
  have hpower : Beside c (cardEvents (slotBit c) 0 0 s₂) (powerSlots (raise 0x108 (detailOf 0 c.val 0 0 0) (cardEvents (slotBit c) 0 0 s₂))) :=
    (Beside.raise _ _ _).trans (.powerSlots _)
  refine ⟨?_, hpower.inserted _ hbits⟩
  have hraised : cardOf (raise 0x108 (detailOf 0 c.val 0 0 0) (cardEvents (slotBit c) 0 0 s₂)) c = cardOf s₂ c := cardOf_raise _ _ _ c
  exact (hraised ▸ h₂).of_power (powerSlots_card _ c)

/-! ### CARD_IDENTIFY -/

theorem execCardIdentify_awaits (hruns : cardsRun s = true) (hidle : busBusy s = false) (hawaits : awaitsIdent (cardOf s c) = true)
    (hstale : (cardOf s c).stale = false) : exec (.cardIdentify c d) s = .next (endSequence (identify c d s)) :=
  congrArg Host.Outcome.next ((if_neg (by simp [hruns, hidle])).trans ((if_pos hawaits).trans
    (congrArg endSequence (if_neg (by simp [hstale])))))

theorem identify_bad (hbad : identityOk d.identity = false) : ∃ u, identify c d s = failCard c 0x10B 2 u :=
  ⟨_, if_pos (by simp [hbad])⟩

theorem identifiedCard_card (c : CardSlot) : cardOf (modCard c (identifiedCard s d st) (identSent s)) c = identifiedCard s d st (cardOf s c) :=
  cardOf_modCard_same c _ _

theorem identifiedCard_others (hk : k ≠ c) : cardOf (modCard c (identifiedCard s d st) (identSent s)) k = cardOf s k :=
  cardOf_modCard_ne hk _ _

/-- The last card of the sequence goes on to step 7. -/
theorem endSequence_last (hothers : ∀ k, k ≠ c → awaitsIdent (cardOf s k) = false ∧ (cardOf s k).found = none) :
    endSequence (modCard c (identifiedCard s d st) (identSent s)) =
      switchCard c d (sendCard .ident opAllIdent 0 0 (modCard c (identifiedCard s d st) (identSent s))) := by
  refine endSequence_one (fun k => ?_) ?_ fun k hk => ?_
  · by_cases hk : k = c
    · subst hk
      rw [identifiedCard_card]
      simp [awaitsIdent, identifiedCard]
    · rw [identifiedCard_others hk]
      exact (hothers k hk).1
  · rw [identifiedCard_card]
    rfl
  · rw [identifiedCard_others hk]
    exact (hothers k hk).2

/-- The switch is answered and the pattern passes: mode 2, and the scan's records. -/
theorem switchCard_switches (hspeed : (cardOf s c).speedLimit = false) (hphase : (cardOf s c).phase ≠ 2)
    (hok : switchOk (cardOf s c).addr d = true) :
    Accepted d 2 (cardOf s c) (cardOf (switchCard c d s) c) ∧ (switchCard c d s).cards.inserted.getLsbD c.val = true ∧
      ∃ rest, (switchCard c d s).out = s.out ++ [.cardFrame (rateOf (cardOf s c).mode) (cardCommand opAttach (cardOf s c).addr 0),
        .cardFrame (rateOf (cardOf s c).mode) (cardCommand opSwitch (cardOf s c).addr 2),
        .cardFrame .mode2 (cardCommand opReadPattern (cardOf s c).addr 0)] ++ rest := by
  obtain ⟨hcard, hout⟩ := sendSwitch_card hphase
  have hswitch : switchCard c d s = acceptCard c d 2 (sendSwitch c s) := by
    unfold switchCard
    dsimp only
    rw [if_neg (by simp [hspeed]), hcard]
    exact if_pos hok
  obtain ⟨haccepts, hbit⟩ := acceptCard_accepts c d 2 (sendSwitch c s)
  rw [hcard] at haccepts
  have hsends := (acceptCard_sends c d 2 (sendSwitch c s)).2
  rw [hout] at hsends
  rw [hswitch]
  exact ⟨haccepts.of_start, hbit, _, hsends⟩

/-- A switch that fails: the card is off, to be identified again at its default mode. -/
theorem switchCard_falls (hspeed : (cardOf s c).speedLimit = false) (hphase : (cardOf s c).phase ≠ 2)
    (hbad : switchOk (cardOf s c).addr d = false) : ∃ x, cardOf (switchCard c d s) c = { dropCard x with speedLimit := true, lastErr := 8 } := by
  obtain ⟨hcard, -⟩ := sendSwitch_card hphase
  refine ⟨cardOf (sendSwitch c s) c, ?_⟩
  unfold switchCard
  dsimp only
  rw [if_neg (by simp [hspeed]), hcard, if_neg (by simp [hbad]), cardOf_raise, cardOf_modCard_same, hcard]

theorem switchCard_limited (hspeed : (cardOf s c).speedLimit = true) : ∃ ph,
    Accepted d (cardOf s c).mode { cardOf s c with phase := ph } (cardOf (switchCard c d s) c) := by
  have hswitch : switchCard c d s = acceptCard c d (cardOf s c).mode (attachCard c s) := if_pos hspeed
  obtain ⟨haccepts, -⟩ := acceptCard_accepts c d (cardOf s c).mode (attachCard c s)
  rw [hswitch]
  rcases cardOf_attachCard c s c with h | h
  · rw [h] at haccepts
    exact ⟨_, haccepts⟩
  · rw [h] at haccepts
    exact ⟨_, haccepts⟩

/-! ### SWITCH_FALLBACK (R425) -/

theorem awaitsIdent_of_fallback (h : inFallback (cardOf s c) = true) :
    awaitsIdent (cardOf (modCard c (fun x => { x with powered := true }) s) c) = true ∧ (cardOf s c).speedLimit = true := by
  simp only [inFallback, Bool.and_eq_true, Bool.not_eq_true'] at h
  obtain ⟨⟨⟨⟨⟨⟨hpresent, -⟩, hspeed⟩, -⟩, hident⟩, hfailed⟩, hdup⟩ := h
  rw [cardOf_modCard_same]
  simp [awaitsIdent, hpresent, hident, hfailed, hdup, hspeed]

/-- A slot's power is nothing of the addresses given. -/
theorem freeAddress_powered (c : CardSlot) (s : State) : freeAddress (modCard c (fun x => { x with powered := true }) s) = freeAddress s := by
  have hany (a : Nat) : ((modCard c (fun x => { x with powered := true }) s).cards.slots.toList.any fun c => c.identified && c.addr == a) =
      s.cards.slots.toList.any fun c => c.identified && c.addr == a := by
    rw [slots_any (fun x => x.identified && x.addr == a), slots_any (fun x => x.identified && x.addr == a)]
    refine congrArg ((fins 4).any ·) (funext fun k => ?_)
    by_cases hk : k = c
    · subst hk
      rw [cardOf_modCard_same]
    · rw [cardOf_modCard_ne hk]
  simp only [freeAddress, hany]

/-- Outside the Wake-only plan a card's fallback is a round of the sequence with its slot powered. -/
theorem execSwitchFallback_identifies (hruns : cardsRun s = true) (hidle : busBusy s = false) (hfall : inFallback (cardOf s c) = true)
    (hplan : s.power.plan ≠ .wakeOnly) :
    exec (.switchFallback c d) s = .next (endSequence (identify c d (modCard c (fun x => { x with powered := true }) s))) := by
  have hone : oneSlot s = false := by simpa [oneSlot] using hplan
  change execSwitchFallback c d s = _
  simp only [execSwitchFallback, hruns, hfall, hidle, hone, Bool.not_false, Bool.and_true, Bool.false_and, Bool.false_eq_true, if_true, if_false]

theorem execSwitchFallback_waits (hruns : cardsRun s = true) (hidle : busBusy s = false) (hfall : inFallback (cardOf s c) = true)
    (hplan : s.power.plan = .wakeOnly) (huse : ∃ k, k ≠ c ∧ inUse (cardOf s k) = true) :
    exec (.switchFallback c d) s = .next (modCard c (fun x => { x with waited := true }) s) := by
  have hone : oneSlot s = true := by simp [oneSlot, hplan]
  obtain ⟨k, hk, hin⟩ := huse
  have hany : (fins 4).any (fun k => k != c && inUse (cardOf s k)) = true := List.any_eq_true.mpr ⟨k, mem_fins k, by simp [hk, hin]⟩
  change execSwitchFallback c d s = _
  simp only [execSwitchFallback, hruns, hfall, hidle, hone, hany, Bool.not_false, Bool.and_true, if_true]

end

/-- Settles O48, case by case of the sequence. -/
theorem cardIdentificationCompletes : Obligations.card_identification_completes := by
  intro s c d w st hruns hidle
  refine ⟨fun hawaits hstale => ⟨fun hbad => ?bad, fun hid hrca hpoll hst hslot => ?good⟩,
    fun hfall => ⟨execSwitchFallback_waits hruns hidle hfall, fun hplan hid hrca hpoll hst hslot hothers => ?fallback⟩⟩
  case bad =>
    obtain ⟨u, hu⟩ := identify_bad (s := s) (c := c) hbad
    obtain ⟨hcard, hevent⟩ := failCard_failed c 0x10B 2 u
    refine ⟨_, execCardIdentify_awaits hruns hidle hawaits hstale, ?_⟩
    rw [hu, hcard]
    exact ⟨rfl, rfl, rfl, hevent⟩
  case good =>
    have hgood : GoodAnswers s c d st := ⟨hid, hrca, ⟨w, hpoll, hst⟩, hslot⟩
    refine ⟨fun ⟨k, hk, hsame⟩ => ⟨_, execCardIdentify_awaits hruns hidle hawaits hstale, fun j hj => ?_⟩, fun hone => ?_⟩
    · rw [identify_good hgood hawaits, identifySlot_twice (s := identSent s) _ hk hsame, markDuplicate_marks]
      · exact ⟨rfl, rfl, rfl, rfl⟩
      · refine List.mem_filter.mpr ⟨mem_fins j, ?_⟩
        have hmem : j ∈ sameIdentity (identSent s) c d ∨ (cardOf (identSent s) j).found.isSome = true := by
          rcases hj with hj | hj | hj
          · exact .inl (mem_sameIdentity.mpr (.inl hj))
          · exact .inl (mem_sameIdentity.mpr (.inr hj))
          · exact .inr hj
        simpa using hmem
    · have hexec := execCardIdentify_awaits (d := d) hruns hidle hawaits hstale
      rw [identify_unique hgood hawaits hone] at hexec
      refine ⟨fun ⟨k, hk, hwaits⟩ => ?_, fun hlast hspeed => ?_⟩
      · rw [endSequence_awaits (k := k) (by rwa [identifiedCard_others hk])] at hexec
        refine ⟨_, hexec, rfl, ?_⟩
        rw [identifiedCard_card]
        exact ⟨rfl, rfl, rfl, rfl, rfl, rfl, rfl⟩
      · rw [endSequence_last hlast] at hexec
        generalize ha : sendCard .ident opAllIdent 0 0 (modCard c (identifiedCard s d st) (identSent s)) = a at hexec
        have hcard : cardOf a c = identifiedCard s d st (cardOf s c) := ha ▸ identifiedCard_card c
        have hout : a.out = s.out ++ resetFrames s ++ identFrames s ++ [.cardFrame .ident (cardCommand opAllIdent 0 0)] := ha ▸ rfl
        have hspeed' : (cardOf a c).speedLimit = false := by rw [hcard]; exact hspeed
        have hphase : (cardOf a c).phase ≠ 2 := by rw [hcard]; exact nofun
        refine ⟨fun hok => ?_, fun hno => ?_⟩
        · obtain ⟨haccepts, hbit, rest, hrest⟩ := switchCard_switches (d := d) hspeed' hphase (by rw [hcard]; exact hok)
          rw [hcard] at haccepts hrest
          rw [hout] at hrest
          refine ⟨_, rest, hexec, haccepts.identified, haccepts.found, haccepts.switched, haccepts.addr, haccepts.identity, haccepts.status,
            haccepts.shares, haccepts.image, haccepts.recovery, hbit, hrest.trans ?_⟩
          simp [identFrames, resetFrames, identifiedCard]
        · obtain ⟨x, hx⟩ := switchCard_falls (d := d) hspeed' hphase (by rw [hcard]; exact hno)
          refine ⟨_, hexec, ?_⟩
          rw [hx]
          exact ⟨rfl, rfl, rfl, rfl⟩
  case fallback =>
    have hexec := execSwitchFallback_identifies (d := d) hruns hidle hfall hplan
    obtain ⟨hawaits, hspeed⟩ := awaitsIdent_of_fallback hfall
    have haddr := freeAddress_powered c s
    generalize hs' : modCard c (fun x => { x with powered := true }) s = s' at *
    have hcards (k : CardSlot) (hk : k ≠ c) : cardOf s' k = cardOf s k := hs' ▸ cardOf_modCard_ne hk _ s
    have hspeed' : (cardOf s' c).speedLimit = true := by rw [← hs', cardOf_modCard_same]; exact hspeed
    have hmode : defaultCardMode s' = defaultCardMode s := hs' ▸ rfl
    have hgood : GoodAnswers s' c d st := ⟨hid, haddr.symm ▸ hrca, ⟨w, hpoll, haddr.symm ▸ hst⟩, hslot⟩
    have hone (k : CardSlot) (hk : k ≠ c) : ¬ SameCard s' d k := by
      unfold SameCard
      rw [hcards k hk]
      exact (hothers k hk).2.2
    have hlast (k : CardSlot) (hk : k ≠ c) : awaitsIdent (cardOf s' k) = false ∧ (cardOf s' k).found = none := by
      rw [hcards k hk]
      exact ⟨(hothers k hk).1, (hothers k hk).2.1⟩
    rw [identify_unique hgood hawaits hone, endSequence_last hlast] at hexec
    generalize ha : sendCard .ident opAllIdent 0 0 (modCard c (identifiedCard s' d st) (identSent s')) = a at hexec
    have hcard : cardOf a c = identifiedCard s' d st (cardOf s' c) := ha ▸ identifiedCard_card c
    obtain ⟨ph, haccepts⟩ := switchCard_limited (d := d) (s := a) (c := c) (by rw [hcard]; exact hspeed')
    rw [hcard] at haccepts
    exact ⟨_, hexec, haccepts.identified, haccepts.found, haccepts.switched.trans hmode, haccepts.speedLimit.trans hspeed',
      haccepts.addr.trans haddr, haccepts.identity⟩

end Sys2Proof.Machine
end

section
/-! PROOFS. Work on the card bus that leaves the cards' shares: a copy written and read back (R416, R419, R426, R433). -/

namespace Sys2Proof.Machine

open Sys2Proof.Claims

section

variable {s t u : State} {c : CardSlot}

/-- Only the card bus and the frames sent moved. -/
def OnlyBus (s t : State) : Prop := t = { s with cards := t.cards, out := t.out }

theorem OnlyBus.trans (h : OnlyBus s t) (k : OnlyBus t u) : OnlyBus s u := by
  unfold OnlyBus at h k
  rw [h] at k
  exact k

theorem modCard_onlyBus (c : CardSlot) (f : CardState → CardState) (s : State) : OnlyBus s (modCard c f s) := rfl

/-- Only the bus moved, and every card holds its shares and its busy line as before. -/
structure BusWork (s t : State) : Prop where
  bus : OnlyBus s t
  shares : ∀ k, (cardOf t k).shares = (cardOf s k).shares
  busy : ∀ k, (cardOf t k).busy = (cardOf s k).busy

namespace BusWork

theorem refl (s : State) : BusWork s s := ⟨rfl, fun _ => rfl, fun _ => rfl⟩

theorem trans (h : BusWork s t) (k : BusWork t u) : BusWork s u where
  bus := h.bus.trans k.bus
  shares n := (k.shares n).trans (h.shares n)
  busy n := (k.busy n).trans (h.busy n)

theorem emit (o : Tx) (s : State) : BusWork s (emit o s) := ⟨rfl, fun _ => rfl, fun _ => rfl⟩

theorem sendTo (c : CardSlot) (op : BitVec 5) (arg : Nat) (s : State) : BusWork s (sendTo c op arg s) := emit _ s

theorem sendCard (rate : CardRate) (op : BitVec 5) (addr arg : Nat) (s : State) : BusWork s (sendCard rate op addr arg s) := emit _ s

/-- A move of one card that keeps its shares and its busy line. -/
theorem modCard (c : CardSlot) (f : CardState → CardState) (s : State) (hshares : ∀ x, (f x).shares = x.shares)
    (hbusy : ∀ x, (f x).busy = x.busy) : BusWork s (modCard c f s) where
  bus := rfl
  shares k := by
    by_cases h : k = c
    · subst h
      rw [cardOf_modCard_same, hshares]
    · rw [cardOf_modCard_ne h]
  busy k := by
    by_cases h : k = c
    · subst h
      rw [cardOf_modCard_same, hbusy]
    · rw [cardOf_modCard_ne h]

theorem foldl {α : Type} {f : State → α → State} (h : ∀ s a, BusWork s (f s a)) (l : List α) (s : State) : BusWork s (l.foldl f s) :=
  List.foldlRecOn (motive := BusWork s) l f (refl s) fun t ht a _ => ht.trans (h t a)

theorem releaseCard_shares (x : CardState) : (releaseCard x).shares = x.shares := by
  unfold releaseCard
  split <;> rfl

theorem releaseCard_busy (x : CardState) : (releaseCard x).busy = x.busy := by
  unfold releaseCard
  split <;> rfl

/-- The Wake-only plan takes the power from every slot. -/
theorem releaseAll (s : State) : BusWork s { s with cards := { s.cards with slots := s.cards.slots.map releaseCard } } where
  bus := rfl
  shares k := by rw [cardOf_releaseAll, releaseCard_shares]
  busy k := by rw [cardOf_releaseAll, releaseCard_busy]

theorem powerSlots (s : State) : BusWork s (powerSlots s) where
  bus := powerSlots_slots s ▸ rfl
  shares k := by
    obtain ⟨p, w, ph, st, h⟩ := powerSlots_card s k
    rw [h]
  busy k := by
    obtain ⟨p, w, ph, st, h⟩ := powerSlots_card s k
    rw [h]

theorem attachCard (c : CardSlot) (s : State) : BusWork s (attachCard c s) := by
  unfold Machine.attachCard
  split
  · exact refl s
  · dsimp only
    refine trans (foldl (fun s k => ?_) (fins 4) s) (trans (modCard c _ _ (fun _ => ?_) fun _ => ?_) (sendTo c opAttach 0 _))
    · exact modCard k _ s (fun _ => rfl) fun _ => rfl
    · rfl
    · rfl

theorem readRun (c : CardSlot) (first n : Nat) (s : State) : BusWork s (readRun c first n s) := by
  unfold Machine.readRun
  dsimp only
  split
  · exact sendTo ..
  · exact (sendTo ..).trans (sendTo ..)

theorem writeRun (c : CardSlot) (first : Nat) (bytes : Bytes) (acks : List (BitVec 4)) (s : State) :
    BusWork s (writeRun c first bytes acks s) := by
  unfold Machine.writeRun
  extract_lets rate blocks n s'
  have hsent : BusWork s s' := (sendTo ..).trans (emit ..)
  split
  · exact hsent
  · exact hsent.trans (sendTo ..)

theorem sendSwitch (c : CardSlot) (s : State) : BusWork s (sendSwitch c s) :=
  (attachCard c s).trans ((sendTo ..).trans (sendCard ..))

theorem reachCard (c : CardSlot) (s : State) : BusWork s (reachCard c s) := by
  unfold Machine.reachCard
  extract_lets x cards s₁ s₂ s₃ s₄
  have h₁ : BusWork s s₁ := by
    unfold s₁
    split
    · exact releaseAll s
    · exact refl s
  have h₂ : BusWork s₁ s₂ := modCard c _ s₁ (fun _ => rfl) fun _ => rfl
  have h₃ : BusWork s₂ s₃ := by
    unfold s₃
    refine trans ?_ (sendCard ..)
    split
    · exact sendCard ..
    · exact refl s₂
  have h₄ : BusWork s₃ s₄ := (sendCard ..).trans ((sendCard ..).trans (sendCard ..))
  have hidentified := h₁.trans (h₂.trans (h₃.trans h₄))
  split
  · exact refl s
  · split
    · exact hidentified.trans ((sendSwitch c s₄).trans (modCard c _ _ (fun _ => rfl) fun _ => rfl))
    · exact hidentified

theorem sendCopy (c : CardSlot) (first : Nat) (bytes : Bytes) (acks : List (BitVec 4)) (s : State) :
    BusWork s (sendCopy c first bytes acks s) := by
  unfold Machine.sendCopy
  extract_lets s₁ blank s₂ rest n s₃
  have h₂ : BusWork s₁ s₂ := by
    unfold s₂
    split
    · exact writeRun ..
    · exact refl s₁
  have hheader : BusWork s s₂ := (attachCard c s).trans h₂
  split
  · exact hheader
  · have hcopy : BusWork s s₃ := hheader.trans (writeRun ..)
    split
    · exact hcopy.trans (readRun ..)
    · exact hcopy

theorem leaveCard (c : CardSlot) (s : State) : BusWork s (leaveCard c s) := by
  unfold Machine.leaveCard
  split
  · exact (modCard c releaseCard s releaseCard_shares releaseCard_busy).trans (powerSlots _)
  · exact refl s

end BusWork

/-! ### A record written (R427, R433) -/

/-- A write on a free bus with the tab away from lock: the card takes the record where it acknowledges and reads back, and its busy line and LAST_ERR
otherwise; beside that the bus is worked. -/
theorem writeCard_cases {α : Type} (p : CardPlace) (new : Stored α) (payload : Bytes) (w : CardWrite) (f : CardState → CardState)
    (hbusy : busBusy s = false) (hcwp : (cardOf s c).cwp = false) :
    ∃ v, BusWork s v ∧
      ((acksOk (copyBlocks payload.length + if (cardOf s c).blank = true then 2 else 0) w.acks && w.readBackOk) = true →
        writeCard c p new payload w f s = (leaveCard c (modCard c (fun x => { f x with blank := false, locked := false }) v), true)) ∧
      ((acksOk (copyBlocks payload.length + if (cardOf s c).blank = true then 2 else 0) w.acks && w.readBackOk) = false →
        writeCard c p new payload w f s =
          (leaveCard c (modCard c (fun x =>
            { x with busy := endsBusy (copyBlocks payload.length + if (cardOf s c).blank = true then 2 else 0) w.acks, lastErr := 3 }) v), false)) := by
  unfold writeCard
  rw [if_neg (Bool.eq_false_iff.mp hbusy), if_neg (Bool.eq_false_iff.mp hcwp)]
  exact ⟨_, (BusWork.reachCard c s).trans (BusWork.sendCopy c (if new.copyB then p.blockB else p.blockA) (copyHeader p new.seq payload ++ payload) w.acks _),
    fun h => if_pos h, fun h => if_neg (Bool.eq_false_iff.mp h)⟩

end

/-! ### The chest that a ceremony commits (R440, R441) -/

section

variable {s : State}

theorem newDeviceRoot_units (s : State) : (newDeviceRoot s).backup.chest.valid = true ∧ (newDeviceRoot s).mode = s.mode := by
  unfold newDeviceRoot
  extract_lets d s₁ s₂
  rw [raise0_raise, raise_backup_chest, raise_mode, (deriveIdentity_units _).1]
  refine ⟨?_, rfl⟩
  unfold deriveIdentity
  split <;> rfl

/-- A ceremony or a restore that keeps an owner. -/
structure OwnerCommitted (ork owner : Bytes) (seq : Word) (s t : State) : Prop where
  valid : t.backup.chest.valid = true
  ownerSet : t.backup.chest.ownerSet = true
  ork : t.backup.chest.ork = ork
  ownerDigest : t.backup.chest.ownerDigest = sha3_256 owner
  seq : t.backup.chest.seq = seq
  ownerRecord : t.flash.ownerRecord = owner
  state : t.ceremony.state = 5
  wiped : t.ceremony.ork = []
  mode : t.mode = s.mode

theorem commitCeremony_committed (kind : Nat) (ork owner : Bytes) (seq : Word) (s : State) (hkind : kind ≠ 4) :
    OwnerCommitted ork owner seq s (commitCeremony kind ork owner seq s) := by
  unfold commitCeremony
  extract_lets s₁ s₂ s₃
  have hroot : s₁.backup.chest.valid = true ∧ s₁.mode = s.mode := by
    unfold s₁
    split
    · next hvalid => exact ⟨hvalid, rfl⟩
    · exact newDeviceRoot_units s
  obtain ⟨hvalid, hmode⟩ := hroot
  clear_value s₁
  exact
    { valid := (congrArg Chest.valid (raise_backup_chest ..)).trans hvalid
      ownerSet := (congrArg Chest.ownerSet (raise_backup_chest ..)).trans (congrArg not (beq_false_of_ne hkind))
      ork := (congrArg Chest.ork (raise_backup_chest ..)).trans (if_neg hkind)
      ownerDigest := (congrArg Chest.ownerDigest (raise_backup_chest ..)).trans (if_neg hkind)
      seq := congrArg Chest.seq (raise_backup_chest ..)
      ownerRecord := (raise_flash_ownerRecord ..).trans (if_neg hkind)
      state := congrArg Ceremony.state (raise_ceremony ..)
      wiped := congrArg Ceremony.ork (raise_ceremony ..)
      mode := (raise_mode ..).trans hmode }

/-! ### A ceremony that stops -/

/-- The ceremony stands at its error with its working key wiped. -/
structure Stopped (err : Nat) (s t : State) : Prop where
  state : t.ceremony.state = 6
  error : t.ceremony.error = err
  wiped : t.ceremony.ork = []
  mode : t.mode = s.mode
  chest : t.backup.chest = s.backup.chest

theorem failCeremony_stopped (err : Nat) (s : State) : Stopped err s (failCeremony err s) := by
  unfold failCeremony
  constructor <;> simp

end

end Sys2Proof.Machine
end

section
/-! PROOFS. Recovery images and ceremonies (R436 to R441). -/

namespace Sys2Proof.Machine

open Sys2Proof.Claims

section

variable {s : State}

/-! ### The recovery image (R436) -/

/-- What an accepted image of port 0 leaves before its ceremony or its draft. -/
def tookImage (im : RecoveryImage) (s : State) : State :=
  { s with
    flash := { s.flash with firmwareA := true, firmwareB := true }
    draft := { s.draft with recovery := some im.draft, upload := [] }
    mode := { s.mode with draftSrc := 2 } }

/-- An accepted image of port 0 that asks for no copies on cards: its ceremony, or Threading. -/
theorem execRecoveryImageVerified_port0 {im : RecoveryImage} (writes : List CardWrite) (hbase : s.mode.base = .recovery)
    (hlost : s.mode.stewardLost = false) (hidle : s.ceremony.state = 0) (hverifies : imageVerifies im = true)
    (hfits : sourceFits s .port0 im = true) (hcopies : (imageFlags im).testBit 0 = false) :
    execRecoveryImageVerified .port0 ⟨im, writes⟩ s = .next (match im.ceremony with
      | some b => beginCeremony b (tookImage im s)
      | none => endCeremony (tookImage im s)) := by
  refine congrArg Host.Outcome.next ((if_neg (by simp [hbase, hlost, hidle, hverifies, hfits])).trans ?_)
  dsimp only
  rw [if_neg (by simp [hcopies])]
  rfl

/-- Step 1 of a ceremony that a check stops. -/
theorem beginCeremony_stopped {b : CeremonyBlock} (h : ceremonyCheck s b ≠ 0) :
    Stopped (ceremonyCheck s b) s (beginCeremony b s) := by
  unfold beginCeremony
  extract_lets s₁ e
  have he : e = ceremonyCheck s b := rfl
  rw [if_neg (he ▸ h), he]
  obtain ⟨hstate, herror, hwiped, hmode, hchest⟩ := failCeremony_stopped (ceremonyCheck s b) s₁
  exact ⟨hstate, herror, hwiped, hmode, hchest⟩

/-! ### Shares on cards (R440) -/

/-- A share that a card may take goes to its lowest free slot; the next step follows the write's outcome. -/
theorem execCeremonyShareWrite_taken {b : CeremonyBlock} {c : CardSlot} {n : Nat} (w : CardWrite) (hblock : s.ceremony.block = some b)
    (hstate : s.ceremony.state = 4) (hbase : s.mode.base = .recovery) (hrun : cardsRun s = true) (htakes : takesShare s (cardOf s c) = true)
    (hbusy : busBusy s = false) (hfree : freeShareSlot (cardOf s c) = some n) :
    execCeremonyShareWrite c w s =
      let r := nextShare s b
      let new : Stored ShareRecord := { copyB := false, seq := 1, payload := r }
      let v := writeCard c (sharePlace n) new (shareRecordBytes r) w (withShare n new) s
      .next (if v.2 then
          let t := { v.1 with ceremony := { v.1.ceremony with written := v.1.ceremony.written + 1 } }
          if cerN b ≤ t.ceremony.written then finishCeremony b t else t
        else v.1) := by
  unfold execCeremonyShareWrite
  rw [hblock]
  refine congrArg Host.Outcome.next ((if_pos (by simp [hstate, hbase, hrun, htakes, hbusy])).trans ?_)
  rw [hfree]
  rfl

/-- The card holds these shares, and only the bus moved. -/
structure TookShares (c : CardSlot) (shares : List (Option (Stored ShareRecord))) (s t : State) : Prop where
  bus : OnlyBus s t
  shares : (cardOf t c).shares = shares

/-- A share acknowledged and read back stands in its slot. -/
theorem took_share {c : CardSlot} {v : State} (n : Nat) (new : Stored ShareRecord) (h : BusWork s v) :
    TookShares c (withShare n new (cardOf s c)).shares s
      (leaveCard c (modCard c (fun x => { withShare n new x with blank := false, locked := false }) v)) where
  bus := h.bus.trans ((modCard_onlyBus ..).trans (BusWork.leaveCard ..).bus)
  shares := by
    rw [(BusWork.leaveCard ..).shares, cardOf_modCard_same]
    unfold withShare
    dsimp only
    rw [h.shares]

/-- A write that fails marks the card alone. -/
theorem failed_write {c : CardSlot} {v : State} (busy : Bool) (h : BusWork s v) :
    TookShares c (cardOf s c).shares s (leaveCard c (modCard c (fun x => { x with busy := busy, lastErr := 3 }) v)) ∧
      (cardOf (leaveCard c (modCard c (fun x => { x with busy := busy, lastErr := 3 }) v)) c).busy = busy := by
  have hleave := BusWork.leaveCard c (modCard c (fun x => { x with busy := busy, lastErr := 3 }) v)
  refine ⟨⟨h.bus.trans ((modCard_onlyBus ..).trans hleave.bus), ?_⟩, ?_⟩
  · rw [hleave.shares, cardOf_modCard_same]
    exact h.shares c
  · rw [hleave.busy, cardOf_modCard_same]

/-- Step 6 of an owner's first ceremony, then Threading. -/
theorem finishCeremony_first {b : CeremonyBlock} (hkind : cerKind b = 1) (s : State) :
    finishCeremony b s = endCeremony (commitCeremony 1 s.ceremony.ork b.newOwner 0 s) := by
  unfold finishCeremony
  rw [hkind]
  rfl

end

/-- Settles O49: an image, a share and a restore each by what they write; every way a ceremony stops is the same one. -/
theorem ceremoniesComplete : Obligations.ceremonies_complete := by
  unfold Obligations.ceremonies_complete
  intro s im b c r k writes w
  refine ⟨fun hbase hlost hidle hverifies hfits hcopies => ?image, fun hblock hstate hbase hrun htakes hbusy hcwp => ?share,
    fun hstate hrun => ?timeout, fun hhold hcause hempty hrun hdraws hbusy hset => ?restore⟩
  case image =>
    have hexec := execRecoveryImageVerified_port0 writes hbase hlost hidle hverifies hfits hcopies
    refine ⟨fun hnone => ?_, fun hsome hcheck => ?_⟩
    · rw [hnone] at hexec
      exact ⟨_, hexec, rfl, rfl, rfl, rfl, rfl, rfl, rfl, rfl, rfl, rfl⟩
    · rw [hsome] at hexec
      obtain ⟨hstopped, herror, -, hmode, hchest⟩ := beginCeremony_stopped (s := tookImage im s) hcheck
      exact ⟨_, hexec, (congrArg ModeUnit.base hmode).trans hbase, hstopped, herror, hchest⟩
  case share =>
    obtain ⟨n, hfree⟩ := Option.isSome_iff_exists.mp (Bool.and_eq_true_iff.mp htakes).2
    have hexec := execCeremonyShareWrite_taken w hblock hstate hbase hrun htakes hbusy hfree
    obtain ⟨v, hwork, htaken, hfailed⟩ := writeCard_cases (sharePlace n) { copyB := false, seq := 1, payload := nextShare s b }
      (shareRecordBytes (nextShare s b)) w (withShare n { copyB := false, seq := 1, payload := nextShare s b }) hbusy hcwp
    dsimp only at hexec
    refine ⟨fun hfails => ?fails, fun holds => ?holds⟩
    case fails =>
      rw [hfailed hfails, if_neg Bool.false_ne_true] at hexec
      obtain ⟨⟨hbus, hshares⟩, hends⟩ := failed_write (c := c) _ hwork
      exact ⟨_, hexec, hshares, hends, hbus⟩
    case holds =>
      rw [htaken holds, if_pos rfl] at hexec
      obtain ⟨hbus, hshares⟩ := took_share (c := c) n { copyB := false, seq := 1, payload := nextShare s b } hwork
      generalize leaveCard c _ = t at hexec hbus hshares
      have hceremony : t.ceremony = s.ceremony := by rw [hbus]
      dsimp only at hexec
      rw [hceremony] at hexec
      refine ⟨fun hmore => ⟨_, n, hexec.trans (congrArg Host.Outcome.next (if_neg (Nat.not_le.mpr hmore))), hfree, hshares, rfl, ?_⟩,
        fun hlast hkind => ⟨_, hexec.trans (congrArg Host.Outcome.next ((if_pos hlast).trans (finishCeremony_first hkind _))), ?_⟩⟩
      · rw [hbus]
      · obtain ⟨hvalid, howner, hork, hdigest, hseq, hrecord, hdone, hwiped, -⟩ := commitCeremony_committed 1 s.ceremony.ork b.newOwner 0
          { t with ceremony := { s.ceremony with written := s.ceremony.written + 1 } } (by decide)
        exact ⟨hvalid, howner, hork, hdigest, hseq, hrecord, hdone, hwiped, rfl⟩
  case timeout =>
    obtain ⟨hstopped, herror, hwiped, hmode, -⟩ := failCeremony_stopped 7 s
    exact ⟨_, congrArg Host.Outcome.next (if_pos (by simp [hstate, hrun])), hstopped, herror, hwiped, hmode⟩
  case restore =>
    obtain ⟨hvalid, howner, hork, hdigest, hseq, -, -, -, hmode⟩ := commitCeremony_committed 5 k r.owner (r.seqAtSplit + 16777216)
      (readQuorum { s with ceremony := { state := 3, kind := 5 } }) (by decide)
    refine ⟨_, congrArg Host.Outcome.next ((if_pos (by simp [hhold, hcause, hempty, hrun, hdraws, hbusy])).trans ?_), hvalid, howner, hork, hdigest, hseq,
      hmode.trans (readQuorum_units _).1⟩
    rw [hset]

end Sys2Proof.Machine
end
